-- ==== Sys2Proof/Word.lean ====
section
/-! DEFINITION. The word types of the Nodexel parts (spec 00, R10, R11). -/

namespace Sys2Proof

/-- A 64-bit data word: the unit in which data memory is addressed (R11). -/
abbrev Word := BitVec 64

/-- One byte of a word (R11). -/
abbrev Byte := BitVec 8

/-- The 128-bit value of a W register (R193). -/
abbrev Wide := BitVec 128

/-- A 32-bit control and status register (R550). -/
abbrev Csr := BitVec 32

/-- A word from a natural number, keeping the low 64 bits. -/
abbrev w64 (n : Nat) : Word := BitVec.ofNat 64 n

/-- A 32-bit register value from a natural number. -/
abbrev w32 (n : Nat) : Csr := BitVec.ofNat 32 n

end Sys2Proof
end

