-- ==== Sys2Proof/Syntax.lean ====
section
/-! DEFINITION. The commands of the block, one constructor for each row of the opcode table, and their operand types. A
command names the unit it happens at and the inputs that come with it from outside the state. -/

namespace Sys2Proof

/-- The three parts (R1, R2). -/
inductive PartKind
  | p7808 | p7404 | p7202
  deriving DecidableEq, Repr

/-- A die position (R3). -/
abbrev DieNo := Fin 8
/-- A spar of a die (R87). -/
abbrev SparNo := Fin 32
/-- A logical supervisor core of a die (R341). -/
abbrev CoreNo := Fin 8
/-- A channel engine of a die. -/
abbrev EngNo := Fin 16
/-- A die-to-die link of a die (R26). -/
abbrev LinkNo := Fin 2
/-- A partition (R485). -/
abbrev PartNo := Fin 1024
/-- A mesh router: 8 y + x (R112). -/
abbrev RouterNo := Fin 40

/-- A physical PE of the package (R532). -/
structure PeId where
  die : DieNo
  spar : SparNo
  p : Fin 9
  deriving DecidableEq, Repr

/-- A logical supervisor core of the package. -/
structure SupId where
  die : DieNo
  core : CoreNo
  deriving DecidableEq, Repr

/-- What executes a Quadyl instruction: a PE in codelet mode or a supervisor core in thread mode (R190). -/
inductive CoreId
  | pe (p : PeId)
  | sup (c : SupId)
  deriving DecidableEq, Repr

/-- The ports of a mesh router: its four neighbours, the local unit, and the SCH port of router (2, 4) (R112). -/
inductive MeshPort
  | north | south | east | west | unit | sch
  deriving DecidableEq, Repr

/-- The credit pools of a link direction besides ESCAPE (R116). -/
inductive Pool
  | through | exitSpar | exitCe
  deriving DecidableEq, Repr

/-! ### Quadyl instruction fields (R204) -/

/-- The RI instructions of R261 besides `rdflg` and `clrflg`. -/
inductive RiOp
  | addi | andi | ori | xori | slti | sltiu | shi | extu | exts | ins | addai
  deriving DecidableEq, Repr

/-- The RI32 instructions of R261, by `OP` 0x00 to 0x03. -/
inductive Ri32Op
  | li32 | addi32 | logic32 | lia32
  deriving DecidableEq, Repr

/-- The integer instructions with an immediate (R261). -/
inductive ImmOp
  | ri (op : RiOp) (rd rs1 : Fin 32) (imm14 : BitVec 14)
  | ri32 (op : Ri32Op) (rd : Fin 32) (fn3 : BitVec 3) (imm32 : BitVec 32)
  | imm48 (lia : Bool) (rd : Fin 32) (fn3 : BitVec 3) (imm48 : BitVec 48)
  deriving DecidableEq, Repr

/-- The two formats of the moves between register classes (R262). -/
inductive MoveForm
  | rr (rd rs1 rs2 : Fin 32) (fn : BitVec 9)
  | wr (wd ws : Fin 4) (rs1 rs2 : Fin 32) (fn : BitVec 10)
  deriving DecidableEq, Repr

/-- The two formats of `padd` and `psub` (R264). -/
inductive DecForm
  | d (rd rs1 rs2 : Fin 32)
  | w (wd ws : Fin 4) (rs1 rs2 : Fin 32)
  deriving DecidableEq, Repr

/-- The conditions of R216 besides that of `beqi`; the flag of a floating-point branch says binary64. -/
inductive BrOp
  | eq | ne | lt | ge | ltu | geu | aeq
  | flt (dbl : Bool) | feq (dbl : Bool) | funo (dbl : Bool)
  deriving DecidableEq, Repr

/-- The formats of the conditional branches (R206, R216). -/
inductive BranchForm
  | br (op : BrOp) (rs1 rs2 : Fin 32) (off14 : BitVec 14)
  | brl (op : BrOp) (rs1 rs2 : Fin 32) (off30 : BitVec 30)
  | bi (rs : Fin 32) (imm8 : BitVec 8) (off11 : BitVec 11)
  deriving DecidableEq, Repr

/-- The displacement of MEM or of its long form MEML (R204, R206). -/
inductive Disp
  | d9 (v : BitVec 9)
  | d25 (v : BitVec 25)
  deriving DecidableEq, Repr

/-- The fields of MEM and MEML (R204). -/
structure MemOp where
  rt : Fin 32
  ab : Fin 16
  mode : BitVec 3
  mr : Fin 8
  disp : Disp
  deriving DecidableEq, Repr

/-- An encoding by what R257 assigns: the `SUB` of an X16 parcel, the `OP` of two, three or four parcels, or an RR or WR `OP` with its
`FN`. -/
inductive Encoding
  | sub (v : BitVec 5)
  | op2 (v : BitVec 6)
  | op3 (v : BitVec 6)
  | op4 (v : BitVec 6)
  | fn (op : BitVec 6) (v : BitVec 10)
  deriving DecidableEq, Repr

/-- The `OP` of a C16 instruction, or an encoding that no row of the opcode table names (R202, R257, R258). -/
inductive CompactOp
  | c16 (op : Fin 15)
  | other (e : Encoding)
  deriving DecidableEq, Repr

/-- The register form and the CSRI form of `csrrd` and `csrwr` (R220, R275). -/
inductive CsrForm
  | reg (rd rs1 rs2 : Fin 32)
  | imm (rt : Fin 32) (fn3 : BitVec 3) (rsv : BitVec 16) (csridx : BitVec 32)
  deriving DecidableEq, Repr

/-! ### Coherence (R319 to R321, R328) -/

/-- The input of a local event source, with the state that it takes (R360). -/
structure SourceInput where
  no : Fin 4096
  on : Bool
  deriving DecidableEq, Repr

/-- The requests that a home slice receives (R319). -/
inductive ReqKind
  | rdS | rdX | wb | amoFar | devRd | devWr | devWrH
  deriving DecidableEq, Repr

/-- The agent that ordered an access (R294). -/
inductive AgentId
  /-- a physical PE, for the scopes of the instances that it runs -/
  | pe (p : PeId)
  /-- a logical core -/
  | sup (c : SupId)
  /-- a channel engine, with the stream transfers that it controls -/
  | engine (die : DieNo) (eng : EngNo)
  /-- a matching unit, scheduler, gate unit, flow arbiter, Ratline unit, luff detector, Madder or the Masthead: its block and its
  number there -/
  | unit (die : DieNo) (block : BitVec 8) (n : BitVec 8)
  /-- a PCIe function at a die's root port: bus, device and function -/
  | function (die : DieNo) (rid : BitVec 16)
  deriving DecidableEq, Repr

/-- A request to the home of a line. -/
structure HomeReq where
  kind : ReqKind
  /-- the agent that ordered the access (R294); a PE's or thread's request is its L2's -/
  id : AgentId
  /-- the steering tag has 16 bits; an 8-bit one is no hint (R335) -/
  wideTag : Bool
  hint : BitVec 16
  /-- bytes that a device or stream write names -/
  mask : BitVec 128
  /-- the bytes written, with byte 0 of the line in the low bits -/
  data : BitVec 1024
  /-- the write carries the poisoned marking (R325) -/
  ep : Bool
  /-- AMO_FAR: the word of the line, the operation of R270, its operand and the word that `cas` compares -/
  word : Fin 16
  op : Fin 10
  arg : Word
  cmp : Word
  deriving DecidableEq, Repr

/-- What the line symbol code finds on a read (R321, R328), or the check of a store word (R443). -/
inductive LineCheck
  | clean | corrected | uncorrectable
  deriving DecidableEq, Repr

/-- What a read of memory finds: the check of a DRAM line, or the words that a CXL device reports as poisoned (R325, R328). -/
inductive MemCheck
  | dram (c : LineCheck)
  | cxl (bad : BitVec 16)
  deriving DecidableEq, Repr


/-! ### HXP (R395) -/

/-- What an HXP timer belongs to. -/
inductive HxpTarget
  | session (n : Fin 65536)
  | assoc (i : Fin 4096)
  deriving DecidableEq, Repr

/-- How a re-driven exchange ended (R386, R387). -/
inductive Redrive
  | done
  /-- the last completion's dword 3, with whether an abort went unconfirmed -/
  | status (dw3 : BitVec 32) (unconfirmed : Bool)
  | timeout (unconfirmed : Bool)
  | lost (unconfirmed : Bool)
  deriving DecidableEq, Repr

/-! ### Detector reports and register accesses (R512, R517, R527; R223) -/

/-- What a detector found. -/
inductive Finding
  /-- an error that the code of the store corrects -/
  | corrected
  /-- an error that is not corrected, or the one kind of error that the detector has -/
  | error
  /-- an uncorrectable word of a microcode store, and whether its copy in the store shadow can be read (R443) -/
  | storeWord (shadow : Bool)
  /-- register-file parity while a checkpoint is being taken, or an error after the request of an `lr`, `sc` or `amo` has left -/
  | late
  /-- an entry of the output buffer before its release -/
  | heldOutput
  /-- an entry of the output buffer after its release; the flag says that its tag checked clean -/
  | output (out : Nat) (tagOk : Bool)
  /-- data that no other copy holds: the physical addresses of the words in error -/
  | words (l : List (BitVec 49))
  /-- an L1 line, by its line address -/
  | line (la : BitVec 45)
  /-- an entry of a matching store: set × 8 + way -/
  | entry (k : Fin 16384)
  /-- the dual-rail pair was invalid for so many consecutive cycles -/
  | wire (cycles : Nat)
  deriving DecidableEq, Repr

/-- A report of a detector to the Madder of its die. -/
structure DetReport where
  die : DieNo
  block : BitVec 8
  unit : BitVec 8
  det : BitVec 16
  found : Finding
  addr : Word
  tag : Word
  info : Word
  /-- the armed injection caused it (R546) -/
  inj : Bool
  deriving DecidableEq, Repr

/-- Where a CSR access comes from: supervisor software at PL1 or PL2, the service SPI port, the I3C port, or the Masthead (R223,
R564, R597, R654). -/
inductive CsrSrc
  | pl1 | pl2 | port | i3c | masthead
  deriving DecidableEq, Repr

/-! ### Power, start-up and the service ports -/

/-- What brings a power-fail warning into force (R610). -/
inductive WarnCause
  | pfwN | vinLow | pwrokLow
  deriving DecidableEq, Repr

/-- The causes 0x1 to 0x4 for which the tamper monitor zeroises the key vault (R615). -/
inductive TamperCause
  | mesh | vbatLow | temperature | oscillator
  deriving DecidableEq, Repr

/-- Where a timing canary lies: in a PE, a supervisor pair, or an uncore region (R629). -/
inductive CanaryAt
  | pe (spar : SparNo) (p : Fin 9)
  | pair (j : Fin 9)
  | uncore (region : Fin 16)
  deriving DecidableEq, Repr

/-- A service port (R650, R656). -/
inductive PortId
  | spi | i3c
  deriving DecidableEq, Repr

/-- What an operation of the test access port does (R603, R662): it loads the instruction register and scans the register that the
instruction selects, scans under the instruction that is loaded, or resets the port. -/
inductive TapOp
  | idcode
  | bypass (bits : List Bool)
  | samplePreload (bits : List Bool)
  | extest (bits : List Bool)
  /-- a debug instruction by its code -/
  | debug (code : BitVec 8) (bits : List Bool)
  /-- a scan under the instruction that the register holds -/
  | scan (bits : List Bool)
  /-- TRST_N is asserted -/
  | trst
  /-- the raw debug-halt input changes (R355) -/
  | halt (on : Bool)
  deriving DecidableEq, Repr

/-- The START at which the I3C port sends an in-band interrupt: the address and the RnW bit of the header that the controller sends at the same
START, if it does, and the controller's answer (R658, R660). -/
structure IbiStart where
  rival : Option (BitVec 7 × Bool)
  acked : Bool
  deriving DecidableEq, Repr

/-- The results of a die's training and start tests (R577, R591). -/
structure DieTest where
  /-- its links train towards die 0 -/
  links : Bool
  /-- every rail came within range (R609) -/
  rails : Bool
  /-- its root PLL locked (R577, R616) -/
  pll : Bool
  /-- memory channels that pass, and the words of DRAM on them -/
  channels : BitVec 3
  dram : Nat
  /-- LLC slices that pass -/
  slices : BitVec 32
  /-- PEs that pass: bit 9 s + k for PE k of spar s -/
  pes : BitVec 288
  /-- supervisor pairs that pass -/
  pairs : BitVec 9
  /-- the N85 readings of the Umber monitors at step 9 (R634) -/
  n85 : List (BitVec 16)
  deriving DecidableEq, Repr

/-- A controller as the Masthead enumerates it: its die, the root port of that die's position behind which it lies (R641) and its
Requester ID (R594), the entries of its largest queue, the block size of each namespace, and
whether Identify reports SGL support (R387). -/
structure CtrlInfo where
  die : DieNo
  port : Fin 4
  rid : BitVec 16
  mqes : Nat
  sgl : Bool
  blocks : List (BitVec 32 × Nat)
  deriving DecidableEq, Repr

/-- The sections of the configuration record whose layout the spec does not give: BOOT, RESERVED, NVME, CXL and MODES (R594), with what
step 13 finds behind the root ports. -/
structure BootRec where
  vbar2 : BitVec 51
  /-- partition 0's logical cores -/
  cores : BitVec 64
  /-- word addresses of the SPF copy, of the CFG copy and of the start block -/
  spfAt : BitVec 49
  cfgAt : BitVec 49
  startBlock : BitVec 49
  /-- initial exchange count of each die (R384) -/
  counts : List Word
  ctrls : List CtrlInfo
  /-- HDM decoder ranges: die, first offset and words (R302) -/
  cxl : List (DieNo × BitVec 43 × BitVec 43)
  /-- the persistent ranges of the CXL devices: die, first offset and words -/
  persist : List (DieNo × BitVec 43 × BitVec 43)
  /-- the reserved memory ranges of each die: die, first word and words -/
  reserved : List (DieNo × BitVec 49 × BitVec 49)
  reef : BitVec 2
  topsail : Bool
  assure : Bool
  spread : BitVec 2
  /-- where the I3C port sends its causes while it holds the controller role (R659) -/
  i3cTo : BitVec 7
  deriving DecidableEq, Repr

/-- An event that ends the steps 6 to 13 of a start: PWROK is deasserted or PFW_N asserted, or a detection is FATAL (R579). -/
inductive StartEnd
  | power (step : Fin 8)
  | fault (step : Fin 8) (r : DetReport)
  deriving DecidableEq, Repr

/-- What the outside supplies to steps 5 to 14 of a start: the tests of each die and, for each CFG slot A and B, its record. -/
structure StartInputs where
  tests : List DieTest
  recA : BootRec
  recB : BootRec
  /-- where in the sealed range step 10 puts the copies of UCS and PAT; those of SPF and CFG go where their record says -/
  ucsAt : BitVec 49
  patAt : BitVec 49
  /-- the ledger device came into service at step 13 -/
  ledgerOk : Bool
  /-- the event that ends the start at step 6 + `step` -/
  ends : Option StartEnd
  deriving DecidableEq, Repr


/-- The commands: one constructor for each row of the opcode table. -/
inductive Instr
  /-- `RESET_N_DEASSERT` (R577): Deassertion of RESET_N starts a start of the part at step 1, with the Masthead boot ROM running from REFCLK. -/
  | resetNDeassert (flashOk : Bool) (straps : BitVec 18)
  /-- `RESET_N_ASSERT` (R579): Assertion of RESET_N ends any start in progress and resets every block of every populated die. -/
  | resetNAssert
  /-- `PWROK_ASSERT` (R609): Assertion of PWROK lets the Masthead bring up the HV stages and rails of every populated die in sequence. -/
  | pwrokAssert (inputs : StartInputs)
  /-- `TOKEN_ARRIVAL` (R45): A token taken from the input queue by the matching pipeline is checked and fired, matched or discarded. -/
  | tokenArrival (die : DieNo) (spar : SparNo)
  /-- `PROBE_DATA_RETURN` (R105): Descriptor and spill bucket data return for a miss-buffer flit, which is merged, refilled or entered afresh. -/
  | probeDataReturn (die : DieNo) (spar : SparNo) (entry : Nat)
  /-- `EVICTION` (R106): The eviction engine writes one victim into its spill bucket, or dissolves it, or discards it. -/
  | eviction (die : DieNo) (spar : SparNo)
  /-- `FLIT_INGRESS` (R162): A flit arriving at spar ingress is checked and takes an input-queue place or is held or diverted. -/
  | flitIngress (die : DieNo) (spar : SparNo) (vc1 : Bool) (err : BitVec 160)
  /-- `DIVERSION_START` (R163): After 256 FCLK without room for a partition, ingress starts diverting that partition's flits. -/
  | diversionStart (die : DieNo) (spar : SparNo) (part : PartNo)
  /-- `DIVERSION_END` (R163): Diversion of a partition ends once it holds at most QSHARE/2 places after at least 1,024 FCLK. -/
  | diversionEnd (die : DieNo) (spar : SparNo) (part : PartNo)
  /-- `SPILL_RING_APPEND` (R111): A producer reserves a spill-ring slot by far add and writes it when the ring has room. -/
  | spillRingAppend (die : DieNo) (spar : SparNo) (tag value : Word) (kind : BitVec 2)
  /-- `SPILL_RING_HOLD_RETRY` (R165): A holding producer reads HEAD again every 256 UCLK and writes its slot once there is room. -/
  | spillRingHoldRetry (die : DieNo) (spar : SparNo) (hold : Nat)
  /-- `SPILL_RING_CONSUME` (R111): The spar takes the slot at HEAD into its input queue when valid and the queue has room. -/
  | spillRingConsume (die : DieNo) (spar : SparNo)
  /-- `SPILL_RING_MEASURE` (R166): Every 256 PCLK the spar reads TAIL, shows the occupancy and applies its watermarks. -/
  | spillRingMeasure (die : DieNo) (spar : SparNo)
  /-- `PURGE` (R109): A purge arriving at the home spar removes the frame from the cache and starts background removal. -/
  | purge (die : DieNo) (spar : SparNo)
  /-- `PURGE_COMPLETE` (R58): When background removal and scheduler removal end, the handle enters the partition's quarantine FIFO. -/
  | purgeComplete (die : DieNo) (spar : SparNo)
  /-- `MESH_HOP` (R113): A router grants a flit to an output under VC priority and round robin, moving it one hop. -/
  | meshHop (die : DieNo) (router : RouterNo) (out : MeshPort)
  /-- `LINK_FLIT_RECEIVE` (R116): A link receiver takes a flit into its pool buffer, checks it and forwards it or enters the mesh. -/
  | linkFlitReceive (die : DieNo) (link : LinkNo) (pool : Pool) (vc1 : Bool) (err : BitVec 160)
  /-- `ESCAPE_SEND` (R118): A link head flit that waited 256 FCLK without credits is sent on VC2 using the ESCAPE credit. -/
  | escapeSend (die : DieNo) (link : LinkNo) (pool : Pool) (vc1 : Bool)
  /-- `ESCAPE_RECEIVE` (R118): A VC2 flit is written into its destination spar's spill ring and the ESCAPE credit returned. -/
  | escapeReceive (die : DieNo) (link : LinkNo) (err : BitVec 160)
  /-- `CREDIT_RETURN` (R116): A returned link credit becomes usable by the sender. -/
  | creditReturn (die : DieNo) (link : LinkNo) (pool : Pool) (vc1 : Bool)
  /-- `READY_PROMOTE` (R127): An entry that stayed 4,096 PCLK in level 3 or 2 moves up one level. -/
  | readyPromote (die : DieNo) (spar : SparNo) (entry : Nat)
  /-- `DISPATCH` (R131): Each PCLK the scheduler dispatches up to two eligible entries to available PEs. -/
  | dispatch (die : DieNo) (spar : SparNo)
  /-- `FLOW_KEY_RETURN` (R135): The frame-word flow key read returns and the entry sends a flow request, or traps. -/
  | flowKeyReturn (die : DieNo) (spar : SparNo) (entry : Nat)
  /-- `FLOW_REQUEST` (R137): The arbiter takes a flow request and grants, queues or refuses it. -/
  | flowRequest (die : DieNo) (msgs : List Nat)
  /-- `FLOW_REQUEST_RETRY` (R137): A refused flow request is sent again 256 PCLK later. -/
  | flowRequestRetry (die : DieNo) (spar : SparNo) (slot : Nat)
  /-- `FLOW_GRANT` (R137): A flow grant arrives at the spar and makes its ready entry eligible. -/
  | flowGrant (die : DieNo) (msg : Nat)
  /-- `FLOW_RELEASE` (R138): A release frees the HELD entry and grants the oldest WAIT entry of the same flow. -/
  | flowRelease (die : DieNo) (msg : Nat)
  /-- `FLOW_CANCEL` (R139): A cancel removes a WAIT entry; a cancel crossing a grant is answered with a release. -/
  | flowCancel (die : DieNo) (msg : Nat)
  /-- `ITEM_TAKE` (R144): An item spar takes the slot at HEAD of its item ring into a ready-list level. -/
  | itemTake (die : DieNo) (spar : SparNo)
  /-- `WQPOST_RETRY` (R143): A PE holding a post to a full item ring tries again every 64 PCLK. -/
  | wqpostRetry (pe : PeId) (out : Nat)
  /-- `RATLINE_RECORD_WRITE` (R151): The Ratline unit writes one staged record into its ring, or counts it dropped. -/
  | ratlineRecordWrite (die : DieNo) (spar : SparNo)
  /-- `ADMISSION_NOTICE` (R168): A close or open notice from a spar updates a die's admission count for a partition. -/
  | admissionNotice (die : DieNo) (msg : Nat)
  /-- `LUFF_INTERVAL_END` (R179): When TIMEBASE reaches a multiple of 1,000, each unit sends its per-partition summary to the luff detector. -/
  | luffIntervalEnd
  /-- `LUFF_EVALUATE` (R180): The luff detector updates each partition's run count and reports when it reaches LUFFW. -/
  | luffEvaluate (part : PartNo)
  /-- `GATE_REQUEST` (R174): The gate unit appends a waiter entry or refuses the request, then makes a grant attempt. -/
  | gateRequest (die : DieNo) (msg : Nat)
  /-- `GATE_RELEASE` (R175): A gated release decrements COUNT and makes a grant attempt. -/
  | gateRelease (die : DieNo) (msg : Nat)
  /-- `GATE_GRANT_RETRY` (R174): A waiting gate head retries allocation 4,096 PCLK later or when admission reopens. -/
  | gateGrantRetry (die : DieNo) (part : PartNo) (gate : Nat)
  /-- `INBOUND_ALLOC_RETRY` (R171): A channel engine retries frame allocation for a waiting inbound exchange every 4,096 SCLK or on reopening. -/
  | inboundAllocRetry (die : DieNo) (entry : Nat)
  /-- `INBOUND_ALLOC_TIMEOUT` (R171): An inbound exchange that waited 10 ms for a frame reaches FAILED with NO_FRAME. -/
  | inboundAllocTimeout (die : DieNo) (entry : Nat)
  /-- `FETCH_REQUEST` (R161): The spar fetch agent accepts a fetch request when it has n reply places. -/
  | fetchRequest (pe : PeId) (out : Nat)
  /-- `FETCH_REPLY` (R72): A fetched word returns and is sent as a VALUE reply token, or a POISON trap replaces it. -/
  | fetchReply (die : DieNo) (spar : SparNo) (req : Nat)
  /-- `TRAP_DELIVERY` (R76): After the far add on the trap ring header, the unit writes the record and sends a TRAP token or reports overflow. -/
  | trapDelivery (trap : Nat)
  /-- `RUNLIMIT` (R69): An instance running past the run limit traps with RUNLIMIT. -/
  | runlimit (pe : PeId)
  /-- `OUTPUT_LEAVE` (R158): A released output leaves the PE's buffer when its router or agent accepts it. -/
  | outputLeave (pe : PeId) (out : Nat)
  /-- `NOP` (R259): nop does nothing. -/
  | nop (core : CoreId) (arg : BitVec 5)
  /-- `COMMIT` (R259): commit makes a commit point and starts the next scope when 16 output places are free. -/
  | commit (core : CoreId) (arg : BitVec 5)
  /-- `END` (R259): end makes a commit point, ends the instance and releases its flow. -/
  | end_ (core : CoreId) (arg : BitVec 5)
  /-- `FENCE` (R284): fence orders the codelet's or thread's loads and stores. -/
  | fence (core : CoreId) (arg : BitVec 5)
  /-- `FENCE_DEV` (R299): fence.dev waits for every earlier access, device access and CSR access to complete. -/
  | fenceDev (core : CoreId) (arg : BitVec 5)
  /-- `ERET` (R345): eret restores the level and enables from ESTAT and continues at EPC. -/
  | eret (core : CoreId) (arg : BitVec 5)
  /-- `WFE` (R362): wfe waits until an event offer is in one of the core's slots. -/
  | wfe (core : CoreId) (arg : BitVec 5)
  /-- `SYS` (R345): sys enters the handler of the next higher level with a call number. -/
  | sys (core : CoreId) (arg : BitVec 5)
  /-- `INT_REG_OP` (R260): An RR integer operation computes its result modulo 2^64. -/
  | intRegOp (core : CoreId) (rd rs1 rs2 : Fin 32) (fn : BitVec 9)
  /-- `INT_IMM_OP` (R261): An RI or immediate integer, bit-field or A-add instruction computes its result. -/
  | intImmOp (core : CoreId) (op : ImmOp)
  /-- `CLASS_MOVE` (R262): A move between register classes copies the value. -/
  | classMove (core : CoreId) (op : MoveForm)
  /-- `COMPACT_INSTRUCTION` (R258): A C16 instruction acts as its longer equivalent. -/
  | compactInstruction (core : CoreId) (op : CompactOp) (rd rs : Fin 32)
  /-- `RDFLG` (R261): rdflg reads the sticky flags into a D register. -/
  | rdflg (core : CoreId) (rd rs1 : Fin 32) (imm14 : BitVec 14)
  /-- `CLRFLG` (R261): clrflg clears the sticky flags named by its mask. -/
  | clrflg (core : CoreId) (rd rs1 : Fin 32) (imm14 : BitVec 14)
  /-- `ADDC_SUBC` (R232): addc or subc adds or subtracts with the carry of a W register. -/
  | addcSubc (core : CoreId) (wd ws : Fin 4) (rs1 rs2 : Fin 32) (fn : BitVec 10)
  /-- `MULW` (R233): mulw writes the exact 128-bit product, optionally accumulating. -/
  | mulw (core : CoreId) (wd ws : Fin 4) (rs1 rs2 : Fin 32) (fn : BitVec 10)
  /-- `DIVS_DIVU` (R235): divs or divu writes quotient and remainder, or traps DZ on zero divisor. -/
  | divsDivu (core : CoreId) (wd ws : Fin 4) (rs1 rs2 : Fin 32) (fn : BitVec 10)
  /-- `FP_OPERATION` (R265): A floating-point arithmetic, min/max, round, sign or compare operation produces its IEEE result. -/
  | fpOperation (core : CoreId) (dbl : Bool) (rd rs1 rs2 : Fin 32) (fn : BitVec 9)
  /-- `FCAT` (R266): fcat writes the IEEE class of its operand. -/
  | fcat (core : CoreId) (dbl : Bool) (rd rs1 rs2 : Fin 32) (fn : BitVec 9)
  /-- `FCVT` (R267): fcvt converts between floating formats and 64-bit integers. -/
  | fcvt (core : CoreId) (rd rs1 rs2 : Fin 32) (fn : BitVec 9)
  /-- `PADD` (R245): padd adds packed-decimal operands on the decimal sequencer. -/
  | padd (core : CoreId) (op : DecForm)
  /-- `PSUB` (R245): psub subtracts packed-decimal operands on the decimal sequencer. -/
  | psub (core : CoreId) (op : DecForm)
  /-- `PCHK` (R246): pchk reports the validity of a packed-decimal operand. -/
  | pchk (core : CoreId) (wide : Bool) (rd rs1 rs2 : Fin 32)
  /-- `DECIMAL_REQUEST_ACCEPT` (R247): The decimal sequencer accepts a waiting request in round robin. -/
  | decimalRequestAccept (die : DieNo) (spar : SparNo)
  /-- `DECIMAL_RESULT` (R248): The decimal sequencer writes its result or reports the data exception. -/
  | decimalResult (die : DieNo) (spar : SparNo)
  /-- `COND_BRANCH` (R216): A conditional branch compares its operands and branches when the condition holds. -/
  | condBranch (core : CoreId) (op : BranchForm)
  /-- `JMP` (R219): jmp goes to an absolute parcel address. -/
  | jmp (core : CoreId) (rl : Fin 32) (target : BitVec 51)
  /-- `CALL` (R219): call goes to an absolute target and writes the link. -/
  | call (core : CoreId) (rl : Fin 32) (target : BitVec 51)
  /-- `JR` (R219): jr goes to a register target and optionally writes the link. -/
  | jr (core : CoreId) (rd rs1 rs2 : Fin 32) (fn : BitVec 9)
  /-- `LD` (R268): ld loads a word at the effective address and updates A under its mode. -/
  | ld (core : CoreId) (op : MemOp)
  /-- `ST` (R268): st holds a store of a word at the effective address. -/
  | st (core : CoreId) (op : MemOp)
  /-- `LDW` (R268): ldw loads two words into a W register. -/
  | ldw (core : CoreId) (op : MemOp)
  /-- `STW` (R268): stw holds a store of the two halves of a W register. -/
  | stw (core : CoreId) (op : MemOp)
  /-- `LR` (R269): lr loads a word and sets a reservation on its line after a commit point. -/
  | lr (core : CoreId) (op : MemOp)
  /-- `SC` (R269): sc stores when the reservation holds and writes 0 or 1. -/
  | sc (core : CoreId) (op : MemOp)
  /-- `AMO` (R270): An amo performs its indivisible read-modify-write near or far. -/
  | amo (core : CoreId) (rd rs1 rs2 : Fin 32) (fn : BitVec 9)
  /-- `RESERVATION_TIMEOUT` (R290): A reservation is lost when 256 cycles pass between lr and sc. -/
  | reservationTimeout (core : CoreId)
  /-- `LR_HOLD_EXPIRE` (R292): The 64 UCLK hold after lr ends and deferred snoops are served. -/
  | lrHoldExpire (core : CoreId)
  /-- `SEND` (R271): send holds a VALUE token to its tag at PRIO at least 1. -/
  | send (core : CoreId) (rd rs1 rs2 : Fin 32)
  /-- `SEND_SIG` (R271): send.sig holds a SIGNAL token to its tag. -/
  | sendSig (core : CoreId) (rd rs1 rs2 : Fin 32)
  /-- `SENDP` (R271): sendp holds a VALUE token at PRIO 0 on VC1. -/
  | sendp (core : CoreId) (rd rs1 rs2 : Fin 32)
  /-- `SENDP_SIG` (R271): sendp.sig holds a SIGNAL token at PRIO 0 on VC1. -/
  | sendpSig (core : CoreId) (rd rs1 rs2 : Fin 32)
  /-- `FETCH` (R70): fetch checks its address and holds a request for n reply tokens. -/
  | fetch (core : CoreId) (rd rs1 rs2 : Fin 32) (n : Fin 8)
  /-- `FALLOC` (R54): falloc takes a handle from the free list or quarantine, or returns 0. -/
  | falloc (core : CoreId) (rd rs1 rs2 : Fin 32)
  /-- `FALLOC_G` (R173): The gated falloc holds a gated request to its gate unit. -/
  | fallocG (core : CoreId) (rd rs1 rs2 : Fin 32)
  /-- `FFREE` (R273): ffree checks the frame and at commit increments GEN, sets QUARANTINE and sends a purge. -/
  | ffree (core : CoreId) (rd rs1 rs2 : Fin 32)
  /-- `FFREE_G` (R175): The gated ffree frees the frame and sends a release to its gate unit. -/
  | ffreeG (core : CoreId) (rd rs1 rs2 : Fin 32)
  /-- `XISSUE` (R272): xissue checks its descriptor and sends an exchange-issue flit. -/
  | xissue (core : CoreId) (rd rs1 rs2 : Fin 32)
  /-- `WQPOST` (R274): wqpost posts a work item to a member of the partition's item set. -/
  | wqpost (core : CoreId) (wd ws : Fin 4) (rs1 rs2 : Fin 32) (fn : BitVec 10)
  /-- `CSRRD` (R222): csrrd reads a CSR word or alias bit. -/
  | csrrd (core : CoreId) (op : CsrForm)
  /-- `CSRWR` (R222): csrwr writes a CSR word or alias bit under the access codes. -/
  | csrwr (core : CoreId) (op : CsrForm)
  /-- `SPRD` (R348): sprd reads a special register. -/
  | sprd (core : CoreId) (rd rs1 rs2 : Fin 32) (num : BitVec 7)
  /-- `SPWR` (R348): spwr writes a special register. -/
  | spwr (core : CoreId) (rd rs1 rs2 : Fin 32) (num : BitVec 7)
  /-- `EVSRC_READ` (R362): A read of EVSRC returns the offer, empties the slot and makes the source ACTIVE. -/
  | evsrcRead (core : CoreId) (rd rs1 rs2 : Fin 32)
  /-- `EVDONE_WRITE` (R362): A write of EVDONE completes a source. -/
  | evdoneWrite (core : CoreId) (rd rs1 rs2 : Fin 32)
  /-- `BPCTL_FLUSH` (R358): Writing FLUSH empties the target buffer and resets the counters and history. -/
  | bpctlFlush (core : CoreId) (rd rs1 rs2 : Fin 32)
  /-- `XLINV` (R505): xlinv invalidates matching translations on every populated die. -/
  | xlinv (core : CoreId) (rd rs1 rs2 : Fin 32)
  /-- `HOME_REQUEST` (R321): A home slice takes an RD_S, RD_X, WB, AMO_FAR, DEV_RD, DEV_WR or DEV_WR_H request. -/
  | homeRequest (line : BitVec 45) (req : HomeReq)
  /-- `MEMREAD_DATA` (R321): Memory data returns for a home, is installed or poisoned, and the request evaluated again. -/
  | memreadData (line : BitVec 45) (check : MemCheck)
  /-- `SNOOP_RECEIVE` (R320): A cache receives SNP_SHR or SNP_INV and answers HIT_DATA, HIT or MISS. -/
  | snoopReceive (snoop : Nat)
  /-- `SNOOP_ANSWER` (R321): A home takes a snoop answer and completes the request when it is the last due. -/
  | snoopAnswer (answer : Nat)
  /-- `SNOOP_TIMEOUT` (R324): The snoop timer expires and the line is poisoned and the request completed. -/
  | snoopTimeout (line : BitVec 45)
  /-- `PATROL_SCRUB_READ` (R328): Patrol scrub reads one line and corrects or poisons it. -/
  | patrolScrubRead (line : BitVec 45) (check : LineCheck)
  /-- `L1D_INVALIDATE` (R315): Writing INV invalidates the L1D cache lines of every PE whose L1EN bit is 0. -/
  | l1dInvalidate (die : DieNo) (spar : SparNo)
  /-- `LOCKSTEP_MISMATCH` (R353): A difference between leader and checker fences the pair. -/
  | lockstepMismatch (core : SupId) (valueClass : Nat)
  /-- `EVENT_RAISE` (R360): A unit raises an event source, which becomes PENDING or merges. -/
  | eventRaise (die : DieNo) (source : SourceInput)
  /-- `EVENT_ROUTE` (R361): A PENDING source is placed as an offer in a target core's slot. -/
  | eventRoute (die : DieNo) (source : Fin 4096)
  /-- `EVENT_ACCEPT` (R362): A core accepts an offer at an instruction boundary and enters its handler with EVENT. -/
  | eventAccept (core : SupId)
  /-- `EVC_SET` (R363): Writing EVC_SET GO sets a source pending. -/
  | evcSet (die : DieNo) (source : Fin 4096)
  /-- `EVC_DONE` (R362): Writing EVC_DONE GO completes a source. -/
  | evcDone (die : DieNo) (source : Fin 4096)
  /-- `EVC_CORE_EN_WRITE` (R363): Clearing a core's EVC_CORE_EN bit returns its offers. -/
  | evcCoreEnWrite (die : DieNo) (value : Csr)
  /-- `EXCHANGE_ISSUE` (R369): The accepting engine checks an issue flit and accepts or refuses the exchange. -/
  | exchangeIssue (die : DieNo) (eng : EngNo) (err : BitVec 160)
  /-- `HANDOFF` (R370): A serving engine receives a hand-off flit for an OPEN exchange. -/
  | handoff (die : DieNo) (eng : EngNo) (err : BitVec 160)
  /-- `INTAKE_SPILL_MOVE` (R430): The engine moves slots from its intake spill ring back into the intake queue. -/
  | intakeSpillMove (die : DieNo) (eng : EngNo)
  /-- `RESCAN` (R430): The RESCAN routine finds OPEN entries owned by this engine that it does not serve. -/
  | rescan (die : DieNo) (eng : EngNo)
  /-- `JOURNAL_DURABLE` (R375): A journal record becomes durable: ACCEPT moves its entry to OPEN, TERM lets it retire. -/
  | journalDurable (die : DieNo) (seq : BitVec 56)
  /-- `JOURNAL_WRITE_FAIL` (R382): A failed ledger-device write takes the device out of service. -/
  | journalWriteFail
  /-- `JOURNAL_CONTROL_REWRITE` (R382): The journal control block is rewritten after 65,536 records or every 1 ms while HEAD moved. -/
  | journalControlRewrite (die : DieNo)
  /-- `NUMBLK` (R384): Before the exchange count reaches a multiple of 2^20, a NUMBLK record is made durable. -/
  | numblk (die : DieNo) (flashOk : Bool)
  /-- `EXCHANGE_START` (R375): The serving engine moves an OPEN exchange to ACTIVE when resources and target room allow. -/
  | exchangeStart (die : DieNo) (eng : EngNo) (index : BitVec 24)
  /-- `TRANSFER_DONE` (R375): All transfers of an exchange are done and visible and the entry moves to CLOSING. -/
  | transferDone (die : DieNo) (eng : EngNo) (index : BitVec 24)
  /-- `TERMINAL_STATE_WRITE` (R374): The ledger port writes the terminal state and releases the completion token and record. -/
  | terminalStateWrite (die : DieNo) (index : BitVec 24)
  /-- `LEDGER_RETIRE` (R375): A terminal entry with completions delivered and TERM durable returns to FREE. -/
  | ledgerRetire (die : DieNo) (index : BitVec 24)
  /-- `COMPLETION_RECORD_RETRY` (R375): A held completion record is retried every 4,096 SCLK and after CR_HEAD writes. -/
  | completionRecordRetry (die : DieNo) (held : Nat)
  /-- `NVME_COMPLETION` (R387): An NVMe completion arrives and is matched, discarded as late, retried or closed. -/
  | nvmeCompletion (die : DieNo) (eng : EngNo) (ctrl : BitVec 16) (pair : Nat) (cid : BitVec 16) (dw3 : BitVec 32) (data : List Word)
  /-- `NVME_TIMEOUT` (R387): A command timer expires and the engine enters ABORTING and sends Abort. -/
  | nvmeTimeout (die : DieNo) (eng : EngNo) (index : BitVec 24)
  /-- `ABORT_DONE` (R375): An abort completes or 1 s passes and the command is reissued or closed. -/
  | abortDone (die : DieNo) (eng : EngNo) (index : BitVec 24) (confirmed : Bool)
  /-- `CONTROLLER_FATAL` (R387): A controller fatal status or link failure resets it once and times out its commands. -/
  | controllerFatal (ctrl : BitVec 16)
  /-- `CONTROLLER_RESET_TIMEOUT` (R387): A controller reset that fails within 10 s takes it out of service with NVME_LOST. -/
  | controllerResetTimeout (ctrl : BitVec 16)
  /-- `ENGINE_WATCHDOG` (R388): An engine that misses its heartbeat limit leaves service. -/
  | engineWatchdog (die : DieNo) (eng : EngNo)
  /-- `TAKEOVER` (R388): The take-over engine adopts a failed engine's queues and ledger entries. -/
  | takeover (die : DieNo) (eng : EngNo)
  /-- `POWER_FAIL_WARNING` (R610): PFW_N, VIN48 below 42 V or PWROK deassertion starts the power-fail warning. -/
  | powerFailWarning (cause : WarnCause)
  /-- `PFAIL_JOURNAL_STOP` (R385): At 500 µs after the warning no further journal write is started. -/
  | pfailJournalStop
  /-- `PFAIL_GPF_START` (R385): At 800 µs after the warning a CXL ledger device root port starts Global Persistent Flush. -/
  | pfailGpfStart
  /-- `JOURNAL_REPLAY` (R386): At start die 0's engines read every journal, re-drive and write the in-doubt report. -/
  | journalReplay (redrives : List Redrive)
  /-- `IDR_ACK` (R386): Writing CHN_IDRACK GO appends EPOCH records and moves HEAD. -/
  | idrAck
  /-- `HXP_FRAME_RECEIVE` (R401): A received Ethernet frame is checked and sent to its serving engine, the raw ring or discarded. -/
  | hxpFrameReceive (die : DieNo) (sub : Fin 4) (frame : List Byte) (room fcs : Bool)
  /-- `DATA` (R408): An authenticated DATA frame is checked against the duplicate map and taken as a segment. -/
  | data (die : DieNo) (eng : EngNo)
  /-- `ACK` (R415): An accepted ACK advances acknowledgement and credit and completes messages. -/
  | ack (die : DieNo) (eng : EngNo)
  /-- `NAK` (R411): An accepted NAK makes the sender retransmit the named frames. -/
  | nak (die : DieNo) (eng : EngNo)
  /-- `OPEN` (R404): An OPEN for an association or session is accepted and answered. -/
  | open_ (die : DieNo) (eng : EngNo)
  /-- `OPEN_ACK` (R404): An OPEN_ACK completes the opening and derives keys. -/
  | openAck (die : DieNo) (eng : EngNo)
  /-- `CLOSE` (R404): A CLOSE ends the session and is answered with CLOSE_ACK. -/
  | close (die : DieNo) (eng : EngNo)
  /-- `CLOSE_ACK` (R404): A CLOSE_ACK ends a CLOSING session. -/
  | closeAck (die : DieNo) (eng : EngNo)
  /-- `RESET` (R404): A RESET ends the session. -/
  | reset (die : DieNo) (eng : EngNo)
  /-- `LEASE` (R414): The responder takes a LEASE and grants, extends, releases or discards it. -/
  | lease (die : DieNo) (eng : EngNo)
  /-- `LEASE_ACK` (R414): The initiator takes a LEASE_ACK and steers or reclaims. -/
  | leaseAck (die : DieNo) (eng : EngNo)
  /-- `PROBE` (R413): A PROBE keeps its shroud UP. -/
  | probe (die : DieNo) (eng : EngNo)
  /-- `OPEN_RESEND` (R404): After 10 ms without OPEN_ACK, OPEN is sent again or the session closes. -/
  | openResend (target : HxpTarget)
  /-- `CLOSING_TIMEOUT` (R404): A CLOSING session ends after 100 ms without CLOSE_ACK. -/
  | closingTimeout (session : Fin 65536)
  /-- `ACK_TIMER` (R410): An ACK is sent on the 2 µs or 250 µs timers. -/
  | ackTimer (session : Fin 65536)
  /-- `NAK_TIMER` (R411): A NAK is sent 20 µs after a gap and every 500 µs while it stays. -/
  | nakTimer (session : Fin 65536)
  /-- `RETRANSMIT_TIMEOUT` (R411): The retransmission timeout expires, frames are resent, and the eighth expiry ends the session. -/
  | retransmitTimeout (session : Fin 65536)
  /-- `SHROUD_DOWN` (R413): A shroud with no authenticated frame for 1 ms becomes DOWN. -/
  | shroudDown (assoc : Fin 4096) (shroudB : Bool)
  /-- `PROBE_TIMER` (R413): A PROBE is sent on a shroud idle for 250 µs. -/
  | probeTimer (assoc : Fin 4096) (shroudB : Bool)
  /-- `LEASE_RENEWAL` (R414): The initiator sends LEASE every 500 µs while claiming or steering. -/
  | leaseRenewal (assoc : Fin 4096)
  /-- `LEASE_END` (R414): A lease ends and the end stops steering. -/
  | leaseEnd (assoc : Fin 4096)
  /-- `LEASE_LAPSED_RECLAIM` (R414): 100 µs after the lease ends the initiator claims a new epoch. -/
  | leaseLapsedReclaim (assoc : Fin 4096)
  /-- `FAILBACK` (R416): After the preferred shroud is UP for 50 ms the initiator releases the lease. -/
  | failback (assoc : Fin 4096)
  /-- `HXP_SEND_START` (R405): The serving engine writes the send record and sends the message's segments on both shrouds. -/
  | hxpSendStart (die : DieNo) (eng : EngNo) (index : BitVec 24)
  /-- `HXP_OPEN_SESSION` (R404): HXP_SCMD open session starts opening a session. -/
  | hxpOpenSession (die : DieNo) (session : Fin 65536)
  /-- `HXP_CLOSE_SESSION` (R404): HXP_SCMD close session moves the session to CLOSING. -/
  | hxpCloseSession (die : DieNo) (session : Fin 65536)
  /-- `HXP_OPEN_ASSOCIATION` (R403): HXP_SCMD open association starts the association OPEN exchange. -/
  | hxpOpenAssociation (die : DieNo) (assoc : Fin 4096)
  /-- `HXP_RAWTX` (R420): Writing HXP_RAWTX GO sends the raw transmit buffer frame. -/
  | hxpRawtx (die : DieNo) (len : BitVec 14) (sub : Fin 4)
  /-- `CONTEXT_TAKE_EVENT` (R427): An idle engine context takes an event or intake flit and starts at its micro address. -/
  | contextTakeEvent (die : DieNo) (eng : EngNo)
  /-- `MICROWORD` (R437): The sequencer executes one microword of a context. -/
  | microword (die : DieNo) (eng : EngNo) (micro nano : LineCheck)
  /-- `LONGRUN` (R426): A context running 16,384 SCLK without yielding takes LONGRUN. -/
  | longrun (die : DieNo) (eng : EngNo)
  /-- `MEMORY_READ_COMPLETE` (R437): A context's memory read completes into MDR and the context becomes ready. -/
  | memoryReadComplete (die : DieNo) (eng : EngNo) (ctx : Fin 16)
  /-- `CONTEXT_TIMER_EXPIRE` (R436): A context timer expires and raises a TIMER event. -/
  | contextTimerExpire (die : DieNo) (eng : EngNo) (ctx : Fin 16)
  /-- `STORE_REWRITE` (R443): An uncorrectable store word is rewritten from the shadow. -/
  | storeRewrite (die : DieNo) (eng : EngNo)
  /-- `CHN_ULOAD` (R446): Writing CHN_ULOAD GO loads, patches and verifies every store. -/
  | chnUload (pat : Bool)
  /-- `TRANSFORM_TURN_START` (R478): The transform scheduler starts a partition's turn on its reserved pipes and engines. -/
  | transformTurnStart (die : DieNo)
  /-- `TURN_END` (R480): A turn ends and the chain saves its state or completes. -/
  | turnEnd (die : DieNo) (index : BitVec 24)
  /-- `KEY_CACHE_FETCH` (R474): A Woad key miss fetches the key from the vault. -/
  | keyCacheFetch (die : DieNo) (woad : Fin 2) (slot : BitVec 12)
  /-- `XFORM_ENGINE_LOSS` (R481): A Furl or Woad engine leaving service restarts its chains elsewhere or fails them. -/
  | xformEngineLoss (die : DieNo) (woad : Bool) (eng : Fin 2)
  /-- `KV_GEN` (R475): GEN fills an empty slot from the entropy source. -/
  | kvGen (src dst : BitVec 12)
  /-- `KV_IMPORT` (R475): IMPORT unwraps a blob into an empty slot. -/
  | kvImport (src dst : BitVec 12)
  /-- `KV_DERIVE` (R475): DERIVE fills an empty slot by HMAC of a source slot. -/
  | kvDerive (src dst : BitVec 12)
  /-- `KV_SETATTR` (R476): SETATTR changes a slot's attributes after cached copies are gone. -/
  | kvSetattr (src dst : BitVec 12)
  /-- `KV_ZERO` (R476): ZERO empties a slot after cached copies are gone. -/
  | kvZero (src dst : BitVec 12)
  /-- `FRL_PTTCMD` (R477): Writing FRL_PTTCMD GO invalidates a partition's transform table entry. -/
  | frlPttcmd (die : DieNo) (part : PartNo)
  /-- `SCH_INV_PMT` (R121): PMTGO invalidates cached copies of a partition matching table entry. -/
  | schInvPmt (die : DieNo) (part : PartNo)
  /-- `SCH_INV_CC` (R101): CCGO invalidates the codelet caches of the die's spars. -/
  | schInvCc (die : DieNo) (part : PartNo)
  /-- `SCH_PSTCMD` (R124): SCH_PSTCMD GO invalidates a partition scheduling entry. -/
  | schPstcmd (die : DieNo) (part : PartNo)
  /-- `SCH_PPTCMD` (R157): SCH_PPTCMD GO invalidates a progress entry; on die 0 its completion re-arms the luff detector. -/
  | schPptcmd (die : DieNo) (part : PartNo)
  /-- `PXT_INV` (R491): SCH_PXTCMD INV invalidates a partition execution entry. -/
  | pxtInv (die : DieNo) (part : PartNo)
  /-- `CREATE` (R494): CREATE checks the partition and builds its free list. -/
  | create (part : PartNo)
  /-- `DESTROY` (R498): DESTROY purges every frame of the partition and waits until it is idle. -/
  | destroy (part : PartNo)
  /-- `MAILBOX_IGO` (R508): IGO sets IBUSY and raises the inbound source. -/
  | mailboxIgo (part : PartNo)
  /-- `MAILBOX_IACK` (R508): IACK clears IBUSY. -/
  | mailboxIack (part : PartNo)
  /-- `MAILBOX_OGO` (R508): OGO sets OBUSY and raises the outbound source. -/
  | mailboxOgo (part : PartNo)
  /-- `MAILBOX_OACK` (R508): OACK clears OBUSY. -/
  | mailboxOack (part : PartNo)
  /-- `RING_DOORBELL` (R509): PRT_RINGDB IGO or OGO raises the tenant channel source. -/
  | ringDoorbell (part : PartNo) (out : Bool)
  /-- `FAULT_DETECTION` (R521): A detector report reaches Madder and is recorded or merged and acted on. -/
  | faultDetection (report : DetReport)
  /-- `RETRY_COUNTER_LEAK` (R528): A PE's retry counter falls by 1 every LEAK ms. -/
  | retryCounterLeak (pe : PeId)
  /-- `PE_BIST_DONE` (R535): A departed PE's built-in test ends and it becomes spare or retired. -/
  | peBistDone (pe : PeId) (pass : Bool)
  /-- `PAIR_BIST_DONE` (R538): A fenced pair's built-in test ends and it becomes spare or retired. -/
  | pairBistDone (die : DieNo) (pair : Fin 9) (pass : Bool)
  /-- `MDR_PAIRCMD` (R537): Writing MDR_PAIRCMD GO starts the pair mapped to a logical core. -/
  | mdrPaircmd (die : DieNo) (lcore : CoreNo)
  /-- `MDR_LOGACK` (R522): Writing MDR_LOGACK GO acknowledges a log slot. -/
  | mdrLogack (die : DieNo) (slot : Fin 1024)
  /-- `FAULT_N_PULSE_EXPIRE` (R523): The 10 µs minimum pulse of FAULT_N expires. -/
  | faultNPulseExpire
  /-- `MDR_FNCTL_WRITE` (R523): A write of DRIVE sets the FAULT_N level after the minimum pulse. -/
  | mdrFnctlWrite (drive : Bool) (minclass : BitVec 2)
  /-- `LINK_FAILURE` (R540): A link that fails retraining leaves service and the ring runs as a line. -/
  | linkFailure (die : DieNo) (link : LinkNo)
  /-- `DIE_WITHDRAWAL` (R541): A die is withdrawn, fencing its outputs within 10 µs. -/
  | dieWithdrawal (die : DieNo)
  /-- `MDR_WDRAW` (R541): Writing MDR_WDRAW GO withdraws a die. -/
  | mdrWdraw (target : DieNo)
  /-- `MDR_INJCTL` (R546): Writing MDR_INJCTL GO arms an injection point. -/
  | mdrInjctl (die : DieNo) (value : Csr)
  /-- `BLK_ENABLE` (R565): Writing EN to 1 enables a block and reads its RWD fields into use. -/
  | blkEnable (die : DieNo) (blk : BitVec 8) (src : CsrSrc)
  /-- `BLK_DISABLE` (R560): Writing EN to 0 stops a block taking new work. -/
  | blkDisable (die : DieNo) (blk : BitVec 8) (src : CsrSrc)
  /-- `BLK_RST` (R562): Writing RST resets a disabled block's registers and state. -/
  | blkRst (die : DieNo) (blk : BitVec 8) (value : Csr) (src : CsrSrc)
  /-- `BLK_RESET_DONE` (R562): A block reset completes and RSTBUSY clears. -/
  | blkResetDone (die : DieNo) (blk : BitVec 8)
  /-- `BLK_CLRREJ` (R559): Writing CLRREJ clears BLK_CFGREJ. -/
  | blkClrrej (die : DieNo) (blk : BitVec 8)
  /-- `CONFIG_PARITY_CHECK` (R567): Every 100 µs a block checks configuration parity and disables itself on a mismatch. -/
  | configParityCheck (die : DieNo) (blk : BitVec 8)
  /-- `COUNTER_CLEAR` (R84): A W1P clear bit sets its named counter to 0. -/
  | counterClear (die : DieNo) (blk : BitVec 8) (word : BitVec 20) (value : Csr)
  /-- `WATERMARK_WRITE` (R147): A watermark write takes effect and restarts the hysteresis state. -/
  | watermarkWrite (die : DieNo) (blk : BitVec 8) (word : BitVec 20) (value : Csr)
  /-- `REGISTER_WRITE` (R222): A write to a register with no behaviour of its own changes its writable fields under the access codes. -/
  | registerWrite (idx : BitVec 32) (value : Csr) (src : CsrSrc)
  /-- `MST_CHECK` (R597): CHECK runs the image checks on the staged image. -/
  | mstCheck
  /-- `MST_INVAL` (R597): INVAL appends a commit record marking a slot EMPTY. -/
  | mstInval (slot : BitVec 4) (flashOk : Bool)
  /-- `MST_ERASE` (R597): ERASE erases an EMPTY slot's region. -/
  | mstErase (slot : BitVec 4) (flashOk : Bool)
  /-- `MST_PROGRAM` (R597): PROGRAM writes the staged image to a slot and compares it. -/
  | mstProgram (slot : BitVec 4) (flashOk : Bool)
  /-- `MST_COMMIT` (R597): COMMIT appends a commit record marking a slot COMMITTED. -/
  | mstCommit (slot : BitVec 4) (flashOk : Bool)
  /-- `JREPORT` (R600): JREPORT writes a report of a die's journal region without re-driving. -/
  | jreport (target : BitVec 3)
  /-- `MST_UPDDATA_WRITE` (R605): A write of MST_UPDDATA stores 32 bits at the next staging position. -/
  | mstUpddataWrite (value : Csr)
  /-- `MST_UPDADDR_LO_WRITE` (R605): Writing MST_UPDADDR_LO resets the staging pointer. -/
  | mstUpdaddrLoWrite (value : Csr)
  /-- `FUS_ARM` (R602): ARM arms a fuse target and argument for 1 ms. -/
  | fusArm (target : BitVec 4) (arg : BitVec 3)
  /-- `FUS_GO` (R602): GO with a matching arm programs the fuse. -/
  | fusGo (target : BitVec 4) (arg : BitVec 3)
  /-- `VIN48_LOSS` (R612): VIN48 below 38.0 V stops the HV stages and the rails discharge. -/
  | vin48Loss (warnedEarly : Bool)
  /-- `POWER_RETURN_RESET` (R612): VIN48 restored for 10 ms under a warning resets every die and starts again. -/
  | powerReturnReset (flashOk : Bool)
  /-- `TAMPER_ZEROISE` (R615): A tamper cause zeroises every key-vault slot. -/
  | tamperZeroise (cause : TamperCause)
  /-- `AUX_LOSS` (R613): AUX below 3.0 V switches the sealed-standby domain to VBAT. -/
  | auxLoss (vbat : Bool)
  /-- `PWR_RTC_WRITE` (R614): A write of PWR_RTC_LO sets the real-time clock count. -/
  | pwrRtcWrite (value : Csr)
  /-- `PWR_TAMPER_CLR` (R639): Writing CLR clears the tamper count and cause. -/
  | pwrTamperClr
  /-- `REEF_CHANGE` (R622): A new effective reef level slews voltages and switches the dividers. -/
  | reefChange
  /-- `PWR_REEF_WRITE` (R623): A write of REQ requests a reef level. -/
  | pwrReefWrite (req : BitVec 2)
  /-- `THERMAL_LEVEL_STEP` (R626): A temperature held above or below the threshold steps the thermal limit or level 2. -/
  | thermalLevelStep (hot : Bool)
  /-- `THRMALRT_N_ASSERT` (R626): Assertion of THRMALRT_N enters level 2. -/
  | thrmalrtNAssert
  /-- `THRMALRT_N_DEASSERT` (R663): Deassertion of THRMALRT_N raises its source and allows level 2 to end. -/
  | thrmalrtNDeassert
  /-- `POWER_LIMIT_STEP` (R627): Input power above or below the limit steps the power limit. -/
  | powerLimitStep (above : Bool)
  /-- `THERMTRIP` (R628): A sensor at 125 °C fences the package, asserts THERMTRIP_N and stops the HV stages. -/
  | thermtrip (die : DieNo) (sensor : Fin 16)
  /-- `SENSOR_OUT_OF_USE` (R624): A faulty temperature sensor is taken out of use. -/
  | sensorOutOfUse (die : DieNo) (sensor : Fin 16)
  /-- `UMBER_SAMPLE` (R630): Every 10 min the Masthead samples every Umber monitor. -/
  | umberSample (reads : List (List (BitVec 16)))
  /-- `CANARY_INTERVAL_END` (R630): At the end of an interval a canary count over CANLIM raises an offset or retires a PE. -/
  | canaryIntervalEnd (die : DieNo) (place : CanaryAt) (hits : Nat)
  /-- `DAILY_REPLAN` (R632): Every 24 h the Masthead re-plans each rail's offset from the day's medians. -/
  | dailyReplan
  /-- `AGEING_LOG_WRITE` (R633): The Masthead appends a record to the ageing log. -/
  | ageingLogWrite (flashOk : Bool)
  /-- `UMB_SAMPLE_NOW` (R639): UMB_CMD sample now samples the monitors. -/
  | umbSampleNow (die : DieNo) (reads : List (BitVec 16))
  /-- `UMB_REPLAN_NOW` (R639): UMB_CMD re-plan now re-plans from the day's samples. -/
  | umbReplanNow (die : DieNo)
  /-- `GATE_POWER_OFF` (R635): PWR_GATE with OFF 1 removes power from a spar or engine, or is refused. -/
  | gatePowerOff (die : DieNo) (blk : BitVec 8) (unit : BitVec 2) (src : CsrSrc)
  /-- `GATE_POWER_ON` (R635): PWR_GATE with OFF 0 restores power to a gated unit. -/
  | gatePowerOn (die : DieNo) (blk : BitVec 8) (unit : BitVec 2) (src : CsrSrc)
  /-- `TIMEBASE_ALIGNMENT` (R619): Every 1 ms the dies' TIMEBASE counters are aligned to die 0. -/
  | timebaseAlignment
  /-- `SPI_FRAME` (R651): A service SPI frame ends at SPI_CS_N rising and its word is accepted or discarded. -/
  | spiFrame (edges : Nat) (word : BitVec 32)
  /-- `SPI_IDLE_TIMEOUT` (R651): A frame with too few edges is discarded after 2 µs of idle clock. -/
  | spiIdleTimeout (edges : Nat)
  /-- `READ` (R652): A READ word followed by an index starts a CSR read. -/
  | read (port : PortId) (idx : BitVec 32)
  /-- `WRITE` (R652): A WRITE word followed by index and data starts a CSR write. -/
  | write (port : PortId) (idx value : BitVec 32)
  /-- `POLL` (R652): A POLL word loads the status word into OUT. -/
  | poll (port : PortId)
  /-- `RDATA` (R653): An RDATA word selects the read data for OUT. -/
  | rdata (port : PortId)
  /-- `PORTRD` (R653): A PORTRD word selects a port register for OUT. -/
  | portrd (port : PortId) (reg : BitVec 8)
  /-- `PORTCLR` (R652): A PORTCLR word clears the port registers in its mask. -/
  | portclr (port : PortId) (mask : BitVec 8)
  /-- `PORT_ACCESS_END` (R654): A service-port access ends OK, BUSERR or DENIED, or times out after 100 µs. -/
  | portAccessEnd (port : PortId) (timeout : Bool)
  /-- `I3C_PRIVATE_WRITE` (R657): An I3C private write delivers host words. -/
  | i3cPrivateWrite (bytes : List Byte)
  /-- `I3C_PRIVATE_READ` (R657): An I3C private read returns OUT and counts as a POLL. -/
  | i3cPrivateRead
  /-- `I3C_CCC` (R656): An I3C common command code is accepted or NACKed. -/
  | i3cCcc (code : BitVec 8) (data : List Byte)
  /-- `IBI` (R658): The I3C port raises an in-band interrupt for a waiting cause. -/
  | ibi (start : IbiStart)
  /-- `IBI_RETRY` (R658): A NACKed IBI is sent again after 1 ms, up to 8 times. -/
  | ibiRetry (start : IbiStart)
  /-- `GETACCCR` (R659): The active controller hands over the controller role and the port sends its causes. -/
  | getacccr (sent accepted : Bool)
  /-- `AUX_RESTORE` (R613): AUX returning to at least 3.0 V moves the sealed-standby domain back from VBAT to AUX, and finds a cause 0x5 loss where both were absent. -/
  | auxRestore
  /-- `ETHERNET_LINK_CHANGE` (R406): An Ethernet sub-port gains or loses link, which changes HXP_PORT.LINK and whether the port drops its copy of dual-sent frames. -/
  | ethernetLinkChange (die : DieNo) (sub : Fin 4) (up : Bool)
  /-- `CONTROLLER_ROLE_REQUEST` (R659): A Controller Role Request on the I3C bus makes the port hand the controller role back at once. -/
  | controllerRoleRequest
  /-- `TEST_ACCESS_PORT_OPERATION` (R662): An IEEE 1149.1 operation on the test access port, including debug instructions and the raw debug-halt input, acts subject to debug closure. -/
  | testAccessPortOperation (op : TapOp)
  /-- `STREAM_COMMAND_COMPLETE` (R436): A stream command issued by a channel-engine context completes and raises a STREAM event for that context. -/
  | streamCommandComplete (die : DieNo) (eng : EngNo) (ctx : Fin 16) (status : Word)
  deriving DecidableEq, Repr

end Sys2Proof
end

