-- ==== Sys2Proof/Machine/Bits.lean ====
section
/-! DEFINITION. Bit fields, rotations and small arithmetic on words (spec 00: x[h:l], the shifts, mod). -/

namespace Sys2Proof.Machine

/-- The bit field [hi:lo] of a number. -/
@[irreducible] def fld (n hi lo : Nat) : Nat := n / 2 ^ lo % 2 ^ (hi + 1 - lo)

/-- `n` with its field [hi:lo] replaced by the low bits of `v`. -/
@[irreducible] def putFld (n hi lo v : Nat) : Nat :=
  n - fld n hi lo * 2 ^ lo + v % 2 ^ (hi + 1 - lo) * 2 ^ lo

/-- Bit `i` of a number. -/
@[irreducible] def bitOf (n i : Nat) : Bool := n / 2 ^ i % 2 == 1

/-- 1 for true, 0 for false. -/
def b2n (b : Bool) : Nat := if b then 1 else 0

/-- The field [hi:lo] of a data word. -/
def wfld (w : Word) (hi lo : Nat) : Nat := fld w.toNat hi lo

/-- Bit `i` of a data word. -/
def wbit (w : Word) (i : Nat) : Bool := bitOf w.toNat i

/-- A data word with one field replaced. -/
def wput (w : Word) (hi lo v : Nat) : Word := w64 (putFld w.toNat hi lo v)

/-- Left rotation of an `n`-bit value (rotl8, rotl11, rotl16 of R89, R98, R357). -/
@[irreducible] def rotl (n v k : Nat) : Nat := (v * 2 ^ k ||| v / 2 ^ (n - k)) % 2 ^ n

/-- The exclusive-or of the bits of a number below bit `n`. -/
@[irreducible] def parity : Nat → Nat → Bool
  | 0, _ => false
  | n + 1, v => (bitOf v n) != parity n v

/-- Addition that stops at the largest value of an `n`-bit counter. -/
def satAdd (n v k : Nat) : Nat := min (v + k) (2 ^ n - 1)

/-- Least `k` with `2 ^ k ≥ n`, for `n ≤ 2 ^ fuel`. -/
@[irreducible] def clog2 : Nat → Nat → Nat
  | 0, _ => 0
  | fuel + 1, n => if n ≤ 1 then 0 else clog2 fuel ((n + 1) / 2) + 1

/-- The number of one bits among bits 0 to n-1. -/
@[irreducible] def popcount : Nat → Nat → Nat
  | 0, _ => 0
  | n + 1, v => b2n (bitOf v n) + popcount n v

/-- The least index below `n` that satisfies `p`, if there is one. -/
def firstBelow (n : Nat) (p : Nat → Bool) : Option Nat := (List.range n).find? p

/-- Serial arithmetic on 32-bit sequence numbers (R407): the signed distance from `b` to `a`. -/
@[irreducible] def serialDiff (a b : Nat) : Int :=
  let d : Nat := (a + 2 ^ 32 - b % 2 ^ 32) % 2 ^ 32
  if d < 2 ^ 31 then d else (d : Int) - 2 ^ 32

end Sys2Proof.Machine
end

