-- ==== Sys2Proof/Machine/Fp.lean ====
section
/-! DEFINITION. IEEE 754-2019 binary32 and binary64 as Quadyl computes them: exact values, one rounding, NaN rules and
exceptions (spec 07: R228, R236 to R242; 08: R265 to R267). Exceptions use the bit positions of R226: NV 16, FDZ 8, OF 4,
UF 2, NX 1. -/

namespace Sys2Proof.Machine

/-- A binary format: fraction bits and exponent bits. -/
structure Fmt where
  fb : Nat
  eb : Nat
  deriving DecidableEq, Repr

/-- binary32. -/
def fmtS : Fmt := ⟨23, 8⟩
/-- binary64. -/
def fmtD : Fmt := ⟨52, 11⟩

abbrev xNV : Nat := 16
abbrev xFDZ : Nat := 8
abbrev xOF : Nat := 4
abbrev xUF : Nat := 2
abbrev xNX : Nat := 1

/-- The exponent bias. -/
def bias (f : Fmt) : Nat := 2 ^ (f.eb - 1) - 1
/-- The largest exponent field. -/
def expMax (f : Fmt) : Nat := 2 ^ f.eb - 1
def fSign (f : Fmt) (x : Nat) : Bool := bitOf x (f.fb + f.eb)
def fExp (f : Fmt) (x : Nat) : Nat := fld x (f.fb + f.eb - 1) f.fb
def fFrac (f : Fmt) (x : Nat) : Nat := x % 2 ^ f.fb
def isNan (f : Fmt) (x : Nat) : Bool := fExp f x == expMax f && fFrac f x != 0
def isSnan (f : Fmt) (x : Nat) : Bool := isNan f x && !bitOf x (f.fb - 1)
def isInf (f : Fmt) (x : Nat) : Bool := fExp f x == expMax f && fFrac f x == 0
def isZero (f : Fmt) (x : Nat) : Bool := fExp f x == 0 && fFrac f x == 0
def fPack (f : Fmt) (s : Bool) (e m : Nat) : Nat := b2n s * 2 ^ (f.fb + f.eb) + e * 2 ^ f.fb + m
def fInf (f : Fmt) (s : Bool) : Nat := fPack f s (expMax f) 0
def fZero (f : Fmt) (s : Bool) : Nat := fPack f s 0 0
/-- The largest finite value. -/
def fMax (f : Fmt) (s : Bool) : Nat := fPack f s (expMax f - 1) (2 ^ f.fb - 1)
/-- The default NaN (R240). -/
def defNan (f : Fmt) : Nat := fPack f false (expMax f) (2 ^ (f.fb - 1))
/-- A NaN with its quiet bit set (R239). -/
def quieten (f : Fmt) (x : Nat) : Nat := x ||| 2 ^ (f.fb - 1)

/-- A finite value's significand and the exponent of its last bit. -/
def fMant (f : Fmt) (x : Nat) : Nat := if fExp f x = 0 then fFrac f x else 2 ^ f.fb + fFrac f x
def fLsb (f : Fmt) (x : Nat) : Int := (max 1 (fExp f x) : Nat) - (bias f : Int) - f.fb

/-- Whether a discarded part rounds the kept part up (R228). -/
def roundsUp (rm : Nat) (sign odd guard sticky : Bool) : Bool :=
  match rm with
  | 0 => guard && (sticky || odd)
  | 1 => false
  | 2 => sign && (guard || sticky)
  | 3 => !sign && (guard || sticky)
  | _ => guard

/-- `m`, with a non-zero rest below it when `sticky`, rounded to its bits from bit `k` up; the second part says that the
result differs. -/
def roundAt (rm : Nat) (sign : Bool) (m k : Nat) (sticky : Bool) : Nat × Bool :=
  let q := m / 2 ^ k
  let guard := decide (0 < k) && bitOf m (k - 1)
  let rest := (decide (0 < k) && decide (m % 2 ^ (k - 1) ≠ 0)) || sticky
  (q + b2n (roundsUp rm sign (bitOf q 0) guard rest), guard || rest)

/-- The bits of a number. -/
def bitLen (m : Nat) : Nat := if m = 0 then 0 else Nat.log2 m + 1

/-- The value ±`m` · 2^`e`, with a non-zero rest below `m` when `sticky`, rounded into a format: the result and its
exceptions (R237). -/
def roundPack (f : Fmt) (rm : Nat) (sign : Bool) (m : Nat) (e : Int) (sticky : Bool) : Nat × Nat :=
  if m = 0 then (fZero f sign, if sticky then xNX + xUF else 0)
  else
    let emin : Int := 1 - (bias f : Int)
    let top : Int := e + (bitLen m : Int) - 1
    let q : Int := max (top - f.fb) (emin - f.fb)
    let up (q : Int) : Nat × Bool :=
      if e ≤ q then roundAt rm sign m (q - e).toNat sticky else (m * 2 ^ (e - q).toNat, sticky)
    let r := up q
    let u := up (top - f.fb)
    let tiny := decide (top < emin) && !(decide (top = emin - 1) && u.1 == 2 ^ (f.fb + 1))
    let m' := if r.1 = 2 ^ (f.fb + 1) then 2 ^ f.fb else r.1
    let q' := if r.1 = 2 ^ (f.fb + 1) then q + 1 else q
    let ex : Int := q' + f.fb
    if (2 ^ f.fb ≤ m' ∧ (bias f : Int) < ex) then
      let toInf := match rm with
        | 1 => false
        | 2 => sign
        | 3 => !sign
        | _ => true
      (if toInf then fInf f sign else fMax f sign, xOF + xNX)
    else if m' < 2 ^ f.fb then (fPack f sign 0 m', (if r.2 then xNX + (if tiny then xUF else 0) else 0))
    else (fPack f sign (ex + bias f).toNat (m' - 2 ^ f.fb), (if r.2 then xNX + (if tiny then xUF else 0) else 0))

/-- The sum of two exact values ±m · 2^e, rounded; an exact zero takes the sign that IEEE gives it (R237). -/
def addExact (f : Fmt) (rm : Nat) (sa : Bool) (ma : Nat) (ea : Int) (sb : Bool) (mb : Nat) (eb : Int) : Nat × Nat :=
  let e := min ea eb
  let a : Int := (if sa then -1 else 1) * (ma * 2 ^ (ea - e).toNat : Nat)
  let b : Int := (if sb then -1 else 1) * (mb * 2 ^ (eb - e).toNat : Nat)
  let t := a + b
  if t = 0 then (fZero f (if sa = sb then sa else rm == 2), 0)
  else roundPack f rm (decide (t < 0)) t.natAbs e false

/-- The result when some operand is a NaN: the first of them, quiet; invalid when one is signalling (R239). -/
def nanResult (f : Fmt) (xs : List Nat) : Option (Nat × Nat) :=
  match xs.find? (isNan f) with
  | some x => some (quieten f x, if xs.any (isSnan f) then xNV else 0)
  | none => none

/-- An invalid operation without a NaN operand (R240). -/
def invalid (f : Fmt) : Nat × Nat := (defNan f, xNV)

/-- Addition; `neg` negates the second operand for subtraction. -/
def fAdd (f : Fmt) (rm : Nat) (neg : Bool) (x y : Nat) : Nat × Nat :=
  match nanResult f [x, y] with
  | some r => r
  | none =>
    let sy := fSign f y != neg
    if isInf f x then (if isInf f y ∧ fSign f x ≠ sy then invalid f else (fInf f (fSign f x), 0))
    else if isInf f y then (fInf f sy, 0)
    else addExact f rm (fSign f x) (fMant f x) (fLsb f x) sy (fMant f y) (fLsb f y)

def fMul (f : Fmt) (rm : Nat) (x y : Nat) : Nat × Nat :=
  match nanResult f [x, y] with
  | some r => r
  | none =>
    let s := fSign f x != fSign f y
    if isInf f x ∨ isInf f y then (if isZero f x ∨ isZero f y then invalid f else (fInf f s, 0))
    else roundPack f rm s (fMant f x * fMant f y) (fLsb f x + fLsb f y) false

def fDiv (f : Fmt) (rm : Nat) (x y : Nat) : Nat × Nat :=
  match nanResult f [x, y] with
  | some r => r
  | none =>
    let s := fSign f x != fSign f y
    if isInf f x then (if isInf f y then invalid f else (fInf f s, 0))
    else if isInf f y then (fZero f s, 0)
    else if isZero f y then (if isZero f x then invalid f else (fInf f s, xFDZ))
    else if isZero f x then (fZero f s, 0)
    else
      let k := 2 * f.fb + 8
      let n := fMant f x * 2 ^ k
      roundPack f rm s (n / fMant f y) (fLsb f x - fLsb f y - k) (n % fMant f y != 0)

/-- The integer square root of `n`, one bit at a time from bit `k - 1` of the root down. -/
def isqrt (n : Nat) : Nat → Nat → Nat
  | 0, r => r
  | k + 1, r =>
    let r' := r + 2 ^ k
    if r' * r' ≤ n then isqrt n k r' else isqrt n k r

def fSqrt (f : Fmt) (rm : Nat) (x : Nat) : Nat × Nat :=
  match nanResult f [x] with
  | some r => r
  | none =>
    if isZero f x then (x, 0)
    else if fSign f x then invalid f
    else if isInf f x then (x, 0)
    else
      let e := fLsb f x
      let odd := e % 2
      let m := fMant f x * 2 ^ odd.toNat * 2 ^ (2 * f.fb + 8)
      let r := isqrt m (2 * f.fb + 8) 0
      roundPack f rm false r ((e - odd) / 2 - (f.fb + 4 : Nat)) (r * r != m)

/-- fusedMultiplyAdd: `x` × `y` + `z` with one rounding (R265, R239, R240). -/
def fMadd (f : Fmt) (rm : Nat) (x y z : Nat) : Nat × Nat :=
  let badProduct := (isInf f x && isZero f y) || (isZero f x && isInf f y)
  match nanResult f [x, y, z] with
  | some r => r
  | none =>
    if badProduct then invalid f
    else
      let s := fSign f x != fSign f y
      if isInf f x ∨ isInf f y then (if isInf f z ∧ fSign f z ≠ s then invalid f else (fInf f s, 0))
      else if isInf f z then (z, 0)
      else addExact f rm s (fMant f x * fMant f y) (fLsb f x + fLsb f y) (fSign f z) (fMant f z) (fLsb f z)

/-- A total order key of non-NaN values in which −0 is below +0 (R241). -/
def fOrd (f : Fmt) (x : Nat) : Int :=
  let m := x % 2 ^ (f.fb + f.eb)
  if fSign f x then -(m : Int) - 1 else m

/-- minimum and maximum; `num` gives the Number forms (R241). -/
def fMinMax (f : Fmt) (maxi num : Bool) (x y : Nat) : Nat × Nat :=
  let sn := if isSnan f x || isSnan f y then xNV else 0
  if num && isNan f x && !isNan f y then (y, sn)
  else if num && isNan f y && !isNan f x then (x, sn)
  else
    match nanResult f [x, y] with
    | some r => r
    | none => (if (fOrd f x ≤ fOrd f y) ≠ (maxi = true) then x else y, 0)

/-- roundToIntegralExact. -/
def fRound (f : Fmt) (rm : Nat) (x : Nat) : Nat × Nat :=
  match nanResult f [x] with
  | some r => r
  | none =>
    if isInf f x ∨ isZero f x ∨ 0 ≤ fLsb f x then (x, 0)
    else
      let r := roundAt rm (fSign f x) (fMant f x) (-(fLsb f x)).toNat false
      ((roundPack f 0 (fSign f x) r.1 0 false).1, if r.2 then xNX else 0)

/-- convertToInteger to 64 bits (R242). -/
def fToInt (f : Fmt) (signed : Bool) (rm : Nat) (x : Nat) : Nat × Nat :=
  if isNan f x then (0, xNV)
  else
    let s := fSign f x
    let hi : Nat := if signed then 2 ^ 63 - 1 else 2 ^ 64 - 1
    let lo : Nat := if signed then 2 ^ 63 else 0
    if isInf f x then (if s then lo else hi, xNV)
    else
      let e := fLsb f x
      let r : Nat × Bool := if 0 ≤ e then (fMant f x * 2 ^ e.toNat, false) else roundAt rm s (fMant f x) (-e).toNat false
      if s then (if r.1 ≤ lo then ((2 ^ 64 - r.1) % 2 ^ 64, if r.2 then xNX else 0) else (lo, xNV))
      else if r.1 ≤ hi then (r.1, if r.2 then xNX else 0) else (hi, xNV)

/-- convertFromInt from 64 bits. -/
def fFromInt (f : Fmt) (signed : Bool) (rm : Nat) (x : Nat) : Nat × Nat :=
  let neg := signed && bitOf x 63
  roundPack f rm neg (if neg then 2 ^ 64 - x else x) 0 false

/-- convertFormat (R241). -/
def fConvert (src dst : Fmt) (rm : Nat) (x : Nat) : Nat × Nat :=
  if isNan src x then
    let frac := if src.fb ≤ dst.fb then fFrac src x * 2 ^ (dst.fb - src.fb) else fFrac src x / 2 ^ (src.fb - dst.fb)
    (quieten dst (fPack dst (fSign src x) (expMax dst) frac), if isSnan src x then xNV else 0)
  else if isInf src x then (fInf dst (fSign src x), 0)
  else if isZero src x then (fZero dst (fSign src x), 0)
  else roundPack dst rm (fSign src x) (fMant src x) (fLsb src x) false

/-- Comparison of two values that are not NaN: less, and equal with both zeros alike. -/
def fLess (f : Fmt) (x y : Nat) : Bool := decide (fOrd f x < fOrd f y) && !(isZero f x && isZero f y)
def fEqual (f : Fmt) (x y : Nat) : Bool := x == y || (isZero f x && isZero f y)

/-- fcmp: 0 eq, 1 lt, 2 le, 3 un (R265). -/
def fCmp (f : Fmt) (k : Nat) (x y : Nat) : Nat × Nat :=
  let un := isNan f x || isNan f y
  let nv := if isSnan f x || isSnan f y || (un && (k == 1 || k == 2)) then xNV else 0
  let r := match k with
    | 0 => !un && fEqual f x y
    | 1 => !un && fLess f x y
    | 2 => !un && (fLess f x y || fEqual f x y)
    | _ => un
  (b2n r, nv)

/-- fcat (R266). -/
def fClass (f : Fmt) (x : Nat) : Nat :=
  let neg := b2n (fSign f x) * 16
  if isSnan f x then neg + 5
  else if isNan f x then neg + 4
  else if isInf f x then neg + 3
  else 32 + neg + (if isZero f x then 0 else if fExp f x = 0 then 1 else 2)

end Sys2Proof.Machine
end

