-- ==== Sys2Proof/Config.lean ====
section
/-! DEFINITION. The free values: what the spec leaves open, or what follows from time that the model does not count, as
constants without a body, so that no proof can rest on a number. -/

namespace Sys2Proof.Config

/-- A value that nothing constrains, one for each use: durations in clock cycles that the model does not count, and words
that the spec leaves undefined. Applied to the model's own counter of free values. -/
opaque freeWord : Nat → Word

/-- The set of an LLC slice in which a line lies (R305): the spec gives the number of sets and not the function. -/
opaque llcSet : Nat → Word

/-- The set of an L2 cache, and of an L1 cache, in which a line lies (R305): the spec gives the organisations and not the functions. -/
opaque l2Set : Nat → Word
opaque l1Set : Nat → Word

/-- Credits of the coherence class of a link direction (R27), whose number the spec does not give. -/
opaque cohCredits : Word

/-- Credits of a port of the stream network, and of the stream class of a link direction, in beats of 64 B (R24, R27), whose number the
spec does not give. -/
opaque strmCredits : Word

/-- Which optimal code lengths Furl takes where several are optimal: from the limit and the symbol counts (R460). -/
opaque furlLens : Nat → List Nat → List Nat

/-- How many zero code lengths Furl sends after the last one that is not 0: in the lists of the literals, of the distances and of the
code-length alphabet (R460). -/
opaque furlPad : Nat → List Nat → Nat

/-- The code-length symbols, with their extra bits, by which Furl sends a sequence of code lengths (R460). -/
opaque furlRuns : List Nat → List (Nat × Nat)

/-- ML-DSA-87 signature verification with an empty context (FIPS 204): public key, message, signature (R587). The spec takes
it from its standard; nothing here rests on which signatures verify. -/
opaque mldsaVerify : List Nat → List Nat → List Nat → Bool

/-- ECDSA verification over P-384 with SHA-384 (FIPS 186-5): uncompressed public key, message, r and s (R587). -/
opaque ecdsaVerify : List Nat → List Nat → List Nat → Bool

/-- Oxurn's MIPI manufacturer ID (R656), which the spec does not give. -/
opaque mipiId : BitVec 15

/-- The cells of the boundary register (R662), which the spec does not give. -/
opaque boundaryCells : Nat

/-- Oxurn's JEDEC manufacturer identity (R662), which the spec does not give. -/
opaque jedecId : BitVec 11

end Sys2Proof.Config
end

