-- ==== Sys2Proof/Machine/State.lean ====
section
/-! DEFINITION. The state of the machine: every register, queue, buffer, cache, table and pin the spec gives the part, as
plain data, and the machine right after reset. -/

namespace Sys2Proof.Machine

/-- The stops with a fault: there are none. The spec gives every command of the block an effect on its state, error flags and
fault records included, and nothing in it halts the part without one. Safe. -/
inductive Fault
  deriving DecidableEq, Repr

/-- The stops with a refusal. -/
inductive Refusal
  /-- Raised by exec's arm of a command that has no meaning yet. Safe. -/
  | notModelled (mnemonic : String)
  /-- Raised by a test access port operation whose debug instruction runs: the spec names these instructions and gives no
  effect of any (R603, R662). Safe. -/
  | debugUnit
  deriving DecidableEq, Repr


/-! ### Token plane -/

/-- A token-plane flit without its check bits (R41, R92); the check bits are a function of the rest (R94). -/
structure Flit where
  /-- `ROUTE`: VC, CLASS, DIE, DEST (R92) -/
  route : BitVec 12
  kind : BitVec 4
  tag : Word
  value : Word
  deriving DecidableEq, Repr

/-- A partial match: an entry of the matching store, the eviction buffer or a bucket line (R97, R110). -/
structure Match where
  /-- Tag bits [63:5] -/
  key : Nat
  /-- bit p: the operand of port p is held -/
  present : Nat
  prio : Nat
  arity : Nat
  /-- replacement age, 0 to 7 (R102) -/
  age : Nat
  /-- original kinds, three bits a port -/
  kinds : Nat
  ops : Tab Word
  /-- the eviction engine is writing the operands to the spill ring (R106) -/
  dissolving : Bool
  deriving DecidableEq, Repr

/-- A place of a spar input queue (R96, R162). -/
structure IqPlace where
  flit : Flit
  /-- the place is one of the 256 reserved for VC1 -/
  reserved : Bool
  /-- taken from the spill ring (R111) -/
  refill : Bool
  deriving DecidableEq, Repr

/-- A frame held in the frame-state cache (R96, R100). -/
structure FrameLine where
  frame : Nat
  part : Nat
  /-- `STATE`: LIVE or FIXED -/
  st : Nat
  gen : Nat
  asid : Nat
  body : Nat
  graph : Nat
  deriving DecidableEq, Repr

/-- A codelet held in the codelet cache (R96, R101). -/
structure CodeletLine where
  part : Nat
  asid : Nat
  graph : Nat
  index : Nat
  count : Nat
  constBase : Nat
  codeBase : Nat
  entry : Word
  deriving DecidableEq, Repr

/-- How far a ready entry has come with its atomic flow (R133 to R138). -/
inductive FlowState
  /-- the entry belongs to no flow -/
  | none
  /-- the frame-word key has not returned (R135) -/
  | keyWait
  /-- it has its key and waits for a request slot (R137) -/
  | slotWait
  /-- its request is on the way or waits at the arbiter -/
  | requested
  /-- its request was refused and is sent again (R137) -/
  | refused
  /-- it holds its flow -/
  | held
  deriving DecidableEq, Repr

/-- A complete instance or a work item, on a ready list or running (R125). -/
structure Inst where
  /-- firing tag in graph mode (R48), work-item word 1 in item mode -/
  tag : Word
  item : Bool
  /-- graph descriptor address -/
  graph : Nat
  part : Nat
  asid : Nat
  level : Nat
  /-- operands of ports 0 to arity-1, or the two work-item arguments -/
  ops : List Word
  /-- original kinds of the operands, for a dissolve (R128) -/
  kinds : List Nat
  arity : Nat
  /-- an operand had the original kind TRAP (R79) -/
  byTrap : Bool
  /-- order of first-ready time (R126) -/
  seq : Nat
  flow : FlowState
  /-- the flow key; `FLOW_SEL` while the frame-word key has not returned -/
  key : Word
  /-- request slot of the spar, 0 to 63 -/
  slot : Nat
  body : Nat
  constBase : Nat
  /-- parcel address of the first instruction -/
  entry : Nat
  deriving DecidableEq, Repr

/-- The units that append to a spill ring (R165). -/
inductive Producer
  | ingress | matcher | scheduler | link (die link : Nat) | manager
  deriving DecidableEq, Repr

/-- A spill-ring slot that its producer holds because the ring is full (R165). -/
structure Hold where
  slot : Nat
  tag : Word
  value : Word
  cls : Nat
  kind : Nat
  producer : Producer
  deriving DecidableEq, Repr

/-- A fetch request accepted by a fetch agent: words still to be read (R161, R70). -/
structure FetchJob where
  part : Nat
  /-- word address in the partition's space -/
  va : Nat
  /-- physical word address -/
  pa : Nat
  tag : Word
  deriving DecidableEq, Repr

/-- A Ratline record on its staging queue (R148, R150). -/
structure RatRec where
  time : Word
  tag : Word
  info : Word
  fkey : Word
  deriving DecidableEq, Repr

/-- A decimal request waiting at the spar's sequencer, or running there (R247). -/
structure DecJob where
  pe : Nat
  /-- 0 padd, 1 psub, 2 pchk -/
  op : Nat
  wide : Bool
  rd : Nat
  a : Wide
  b : Wide
  /-- false once the requesting scope has been discarded (R250) -/
  live : Bool
  deriving DecidableEq, Repr

/-- One side of the hysteresis of a watermark (R147). -/
inductive Side
  | neither | high | low
  deriving DecidableEq, Repr

/-- The state of one spar besides its PEs and registers. -/
structure Spar where
  /-- flits at the ingress that the spar has not accepted, at most one a VC (R114) -/
  arr : List Flit
  iq : List IqPlace
  /-- matching store: set * 8 + way (R96) -/
  store : Tab (Option Match)
  evb : List Match
  /-- miss buffer, in arrival order (R105) -/
  miss : List Flit
  /-- flits that waited in the miss buffer behind a key whose probe is done: they go ahead of the input queue (R105) -/
  reentry : List Flit
  /-- the flit at which the pipeline stands, for want of a place in the eviction buffer or the miss buffer (R104, R105) -/
  pipe : Option Flit
  fcache : List FrameLine
  ccache : List CodeletLine
  /-- spill filter counters (R108) -/
  filter : Tab Nat
  /-- purges in progress (R109) -/
  purges : List Word
  /-- partitions whose flits are diverted (R163) -/
  divert : List Nat
  /-- counted spill-ring slots of each partition (R167) -/
  slots : Tab Nat
  /-- partitions whose last notice was a close (R168) -/
  notClosed : List Nat
  holds : List Hold
  /-- a producer hold has happened since the spar left reset (R166) -/
  heldLately : Bool
  /-- ready lists of all levels (R125) -/
  rl : List Inst
  seq : Nat
  /-- service slot the scheduler chose last (R131) -/
  rr : Nat
  iqSide : Side
  rlSide : Side
  srSide : Side
  staging : List RatRec
  /-- free-running count of events that pass the filters (R149) -/
  sample : Nat
  gap : Bool
  fetches : List FetchJob
  /-- reply tokens of the fetch agent that the mesh router has not accepted (R161) -/
  replies : List Flit
  decWait : List DecJob
  decRun : Option DecJob
  /-- PE whose decimal request was accepted last (R247) -/
  decRr : Nat
  /-- the spar has left service (R539) -/
  out : Bool
  /-- power removed (R635) -/
  gated : Bool
  deriving DecidableEq, Repr

/-- An output of a scope, held or released (R61, R158). -/
inductive Output
  /-- a token, or an exchange issue -/
  | flit (f : Flit)
  /-- a fetch: the words as the instruction named them and where they lie, and the reply tag of the first -/
  | fetch (part : Nat) (words : List (Nat × Nat)) (tag : Word)
  /-- a work-item post to global spar `spar` (R142) -/
  | post (part asid spar : Nat) (w0 w1 w2 w3 : Word)
  deriving DecidableEq, Repr

/-- A gated request or release held to the commit point (R173, R175). -/
structure GateOp where
  release : Bool
  part : Nat
  gate : Nat
  rtag : Word
  asid : Nat
  graph : Nat
  uword : Word
  deriving DecidableEq, Repr

/-- The registers of one core (R193, R198). -/
structure Regs where
  d : Tab Word
  a : Tab (BitVec 49)
  m : Tab Word
  w : Tab Wide
  /-- the sticky flags (R226) -/
  flags : BitVec 7
  /-- parcel address (R199) -/
  pc : BitVec 51
  deriving DecidableEq, Repr

/-- A load-reserve reservation (R290). -/
structure Resv where
  /-- physical PE 0 to 2303 of the package, or 2304 + global logical core -/
  agent : Nat
  /-- physical word address of the line -/
  line : Nat
  /-- snoops to the line are deferred (R292) -/
  holding : Bool
  deriving DecidableEq, Repr

/-- A frame handle that a scope holds, with what its commit writes (R54, R56). -/
structure Taken where
  frame : Nat
  graph : Nat
  asid : Nat
  user : Word
  /-- physical word address of body word 0 -/
  pa : Nat
  deriving DecidableEq, Repr

/-- A line of a PE's L1D (R308): its 16 words as they were written there, and which of them are poisoned. -/
structure L1Line where
  /-- line address -/
  line : Nat
  words : List Word
  psn : Nat
  deriving DecidableEq, Repr

/-- The state of one physical PE. -/
structure Pe where
  inst : Option Inst
  regs : Regs
  /-- checkpoint at the start of the scope (R66) -/
  chk : Regs
  /-- held stores: physical word address to value (R61, R280) -/
  sb : Tab (Option Word)
  held : List Output
  /-- released outputs (R158) -/
  out : List Output
  /-- handles taken by falloc in this scope, the last one first (R56) -/
  taken : List Taken
  /-- frames that ffree frees at the commit point: frame, generation, and the gate of the gated form (R57, R175, R273) -/
  frees : List (Nat × Nat × Option Nat)
  gates : List GateOp
  /-- scopes of the instance committed (R77) -/
  scopes : Nat
  /-- retries of the current scope (R526) -/
  retries : Nat
  /-- leaky retry counter (R528) -/
  leaky : Nat
  /-- round robin of wqpost members (R142) -/
  post : Nat
  /-- waits for a decimal result (R247) -/
  decimal : Bool
  /-- waits at a commit point for 16 free places (R159) -/
  opWait : Bool
  /-- partner and role in paired firing: none, leading (partner), checking (partner) (R529) -/
  pair : Option (Bool × Nat)
  /-- contention predictor counters (R331) -/
  predict : Tab Nat
  /-- L1D lines, most recent first (R305, R308) -/
  l1d : List L1Line
  /-- lines in the L1I, the last one filled first (R305) -/
  l1i : List Nat
  /-- scratch words (R310) -/
  scratch : Tab Word
  /-- leaves service when its instance ends: the detector whose retry reached the limit (R528) -/
  leaving : Option Nat
  /-- departures from service since start (R535) -/
  departs : Nat
  /-- the partition's settings that the instance was dispatched with: word 0 of its execution entry (R491) -/
  cfg : Word
  deriving DecidableEq, Repr

/-- What a flow message tells of the entry that it is for, as Ratline records it (R148). -/
structure FlowWho where
  tag : Word
  level : Nat
  item : Bool
  deriving DecidableEq, Repr

/-- An entry of a flow arbiter (R136). -/
structure FlowEntry where
  part : Nat
  key : Word
  /-- requesting global spar -/
  spar : Nat
  slot : Nat
  held : Bool
  /-- the entry is the reserved one of the spar (R137) -/
  reserved : Bool
  who : FlowWho
  deriving DecidableEq, Repr

/-- The messages between spars and flow arbiters (R137 to R140). -/
inductive FlowKind
  | request | grant | release | cancel
  deriving DecidableEq, Repr

/-- A flow message on its way. -/
structure FlowMsg where
  kind : FlowKind
  /-- arbiter's die -/
  die : Nat
  part : Nat
  key : Word
  spar : Nat
  slot : Nat
  who : FlowWho
  deriving DecidableEq, Repr

/-- A close or open notice on its way to a die (R168). -/
structure Notice where
  die : Nat
  spar : Nat
  part : Nat
  close : Bool
  deriving DecidableEq, Repr

/-- A gated operation on its way to a gate unit, or a waiting grant attempt (R174). -/
structure GateMsg where
  die : Nat
  op : GateOp
  deriving DecidableEq, Repr

/-- A trap that a unit has raised and not yet delivered (R76, R77). -/
structure Trap where
  /-- 0 a PE, 1 the matching unit, 2 the scheduler -/
  src : Nat
  /-- the physical PE of a trap that a PE raised, as the number of its spar -/
  pe : Nat
  die : Nat
  spar : Nat
  /-- service slot, or 15 -/
  slot : Nat
  part : Nat
  cause : Nat
  detail : Nat
  byTrap : Bool
  scopes : Nat
  tag : Word
  parcel : Nat
  addr : Word
  time : Word
  deriving DecidableEq, Repr

/-- One mesh router (R112, R113). -/
structure Router where
  /-- input queues: port * 2 + (1 for VC1) -/
  q : Tab (List Flit)
  /-- flits that the units attached to a local port hand to the mesh: port * 2 + (1 for VC1) -/
  src : Tab (List Flit)
  /-- input port granted last: output * 2 + (1 for VC1) -/
  rr : Tab Nat
  /-- grants of an output since its last VC0 grant -/
  cnt : Tab Nat
  deriving DecidableEq, Repr

/-- A snoop on its way (R320). -/
structure Snoop where
  line : Nat
  /-- a cache number, or 1000 + a die -/
  dest : Nat
  /-- SNP_INV, else SNP_SHR -/
  inv : Bool
  /-- the link by which a ring snoop travels, and the dies that it visits after this one (R322) -/
  link : Nat
  left : Nat
  /-- the die has passed it on -/
  passed : Bool
  deriving DecidableEq, Repr

/-- An HXP frame that passed the checks of its port, as it came: its tag is judged by its serving engine, which takes it (R401). -/
structure HxFrame where
  /-- session index, or association index for a frame of an association -/
  session : Option Nat
  assoc : Nat
  /-- the shroud it arrived on: true for B -/
  shroudB : Bool
  typ : Nat
  rel : Bool
  seq : Nat
  epoch : Nat
  xnum : Word
  ack : Nat
  credit : Nat
  segno : Nat
  segcnt : Nat
  keyph : Nat
  /-- the payload, enciphered where the session's `CONF` is 1 -/
  payload : List Byte
  tag : List Byte
  deriving DecidableEq, Repr

/-- What the stream plane carries between dies or withholds (R24, R25), with the die that put it there: an inbound frame for a serving
engine, 16 × die + engine, with its length in bytes, or an outbound frame for a sub-port. -/
inductive StrmItem
  | inbound (src eng len : Nat) (f : HxFrame)
  | outbound (src die sub : Nat) (bytes : List Byte)
  deriving DecidableEq, Repr

/-- One die-to-die link end: the sender of this die and the receiver of what the neighbour sends (R116). -/
structure Link where
  /-- sender queues: pool * 2 + (1 for VC1); the flag says that the flit came from the mesh (R117) -/
  tx : Tab (List (Flit × Bool))
  /-- credits the sender has used or that are returning -/
  used : Tab Nat
  /-- receiver buffers -/
  rx : Tab (List Flit)
  /-- credits on their way back to this sender -/
  back : Tab Nat
  /-- a VC2 flit at this receiver (R118) -/
  esc : Option Flit
  /-- this sender's ESCAPE credit is in use -/
  escUsed : Bool
  /-- the link is out of service (R540) -/
  out : Bool
  /-- ring snoops that this sender holds until the coherence class has a credit, and the credits in use (R27, R322) -/
  coh : List Snoop
  cohUsed : Nat
  /-- what the stream class of this sender holds until it has a slot and a credit (R24, R27) -/
  strm : List StrmItem
  /-- beats of the oldest item of `strm` that have crossed, each in a slot of its own (R24, R28) -/
  beats : Nat
  /-- the place of this sender's weighted round robin, 0 to 3: token, coherence, coherence, stream (R28) -/
  turn : Nat
  /-- flits that the token-class slot granted last still carries: a slot carries up to three (R119) -/
  flits : Nat
  deriving DecidableEq, Repr

/-- A partition's luff state on die 0 (R179, R180). -/
structure Luff where
  run : Nat
  armed : Bool
  fired : Bool
  pend : Bool
  opened : Bool
  lastFire : Word
  /-- an interval has ended that the detector has not evaluated -/
  due : Bool
  deriving DecidableEq, Repr

/-- A partition's hardware lists (R54 to R59, R490). -/
structure PartHw where
  free : List Nat
  /-- quarantine FIFO, oldest first -/
  quar : List Nat
  /-- dispatched an instance in the current luff interval (R179) -/
  fired : Bool
  /-- an exchange or a fetch reply was outstanding in the interval -/
  opened : Bool
  /-- TIMEBASE of the last dispatch -/
  lastFire : Word
  /-- DESTROY is running (R498) -/
  destroying : Bool
  /-- trap overflows (R76). DESIGN CHOICE (log 148): a number without a bound that no register shows, and that CREATE and DESTROY keep -/
  trapOvf : Nat
  deriving DecidableEq, Repr

/-- The tables of partitions that units cache (R88, R124, R157, R491, R477). -/
inductive PTable
  | pmt | pst | ppt | pxt | ptt
  deriving DecidableEq, Repr

/-- An entry that one unit holds of a partition table. -/
structure PCache where
  /-- the unit: a die d stands for its SCH block, translation unit and transform scheduler, 8 + g for global spar g, and 264 + 16 d + e for
  channel engine e of die d -/
  unit : Nat
  table : PTable
  part : Nat
  words : List Word
  deriving DecidableEq, Repr

/-- A cached translation of one die (R505). -/
structure TlbLine where
  die : Nat
  /-- 0 the die's translation unit, 1 + e its channel engine e (R424, R505) -/
  unit : Nat
  part : Nat
  asid : Nat
  /-- first word address of the page -/
  va : Nat
  /-- words in the page -/
  size : Nat
  pte : Word
  /-- the address-space word under which it was walked (R491, R505) -/
  ast : Word
  deriving DecidableEq, Repr

/-! ### Madder -/

/-- A fault record of a Madder log (R518). -/
structure FaultRec where
  ack : Bool
  /-- 0 CORRECTED, 1 DEFERRED, 2 CONTAINED, 3 FATAL -/
  cls : Nat
  inj : Bool
  die : Nat
  block : Nat
  unit : Nat
  action : Nat
  det : Nat
  merged : Nat
  tfirst : Word
  tlast : Word
  addr : Word
  tag : Word
  info : Word
  detlast : Nat
  seq : Nat
  deriving DecidableEq, Repr

/-- An armed injection: the occurrences left, its target and its mode (R546). -/
structure Inject where
  left : Nat
  block : Nat
  unit : Nat
  det : Nat
  mode : Nat
  mask : Nat
  deriving DecidableEq, Repr

/-- A register word whose parity bit is wrong: block * 2^20 + word, the value it held then, and whether an injection made it so
(R546, R567). Every later write, by software or hardware, computes the parity again. -/
structure Mism where
  word : Nat
  value : Nat
  inj : Bool
  deriving DecidableEq, Repr

/-- The state of a die besides its registers. -/
structure Die where
  routers : Tab Router
  links : Tab Link
  flows : List FlowEntry
  /-- spar whose request the arbiter ordered first (R139) -/
  flowRr : Nat
  flSide : Side
  /-- (partition, global spar) pairs whose last notice was a close (R168) -/
  closed : List (Nat × Nat)
  /-- TIMEBASE (R619) -/
  timebase : Word
  /-- targets of VCORE, VSUP, VUNC and VSRAM in units of 0.1 mV, none while the rails are down (R607, R617) -/
  rails : List Nat
  /-- `TYPE` and `EN` of sources whose `EVC_CFG` was written while they were OFFERED or ACTIVE: the old values, which are in force until the
  next completion and the next routing (R363) -/
  evOldType : Tab (Option Bool)
  evOldEn : Tab (Option Bool)
  /-- the Madder log (R520) -/
  log : Tab (Option FaultRec)
  /-- the die has been withdrawn (R541) -/
  withdrawn : Bool
  /-- pairs that wait in reset for MDR_PAIRCMD, as a bit mask (R537) -/
  pairReset : Nat
  /-- fences of each pair since start (R538) -/
  pairFences : Tab Nat
  /-- register words in parity mismatch: block * 2^20 + word (R567) -/
  perr : List Mism
  /-- blocks that Madder has taken out of service, as block numbers (R565) -/
  blkOut : List Nat
  /-- the armed injection (R546) -/
  inj : Option Inject
  /-- blocks whose reset is in progress (R562) -/
  rstBusy : List Nat
  /-- temperature sensors taken out of use (R624) -/
  sensOut : List Nat
  /-- valid Umber samples of the current day: the 64 readings of each, oldest first (R630, R632) -/
  samples : List (List Nat)
  /-- the die's margin cap (R631) -/
  cap : Nat
  ledSide : Side
  jSide : Side
  /-- exchange-issue flits at the token-plane ingress of each channel engine (R163, R367) -/
  engIn : Tab (List Flit)
  /-- accepted frames in the receive buffer of the Ethernet MAC, oldest first: they wait for the stream network (R25, R428) -/
  mac : List StrmItem
  /-- frames that the two channel-engine header ports of the die hold, with their credits, until the serving engines have room (R24, R428) -/
  strm : List StrmItem
  /-- frames that the die's engines have given to their header ports and that have found no credit yet (R24, R25) -/
  hdr : List StrmItem
  /-- frames that the Ethernet MAC of the die holds back while their priority is paused (R419) -/
  macTx : List StrmItem
  /-- the frame of the raw transmit buffer that is being sent (R420, R422) -/
  rawTx : List StrmItem
  /-- TIMEBASE at which the pause of a priority of a sub-port ends, 8 * sub-port + priority (R419) -/
  pfc : Tab Word
  deriving DecidableEq, Repr


/-! ### Supervisor cores -/

/-- An entry of the branch target buffer (R356, R358). -/
structure Btb where
  pc : Nat
  target : Nat
  /-- 0 conditional branch, 1 jmp, 2 call, 3 jr -/
  kind : Nat
  ctag : Nat
  /-- when the entry was last used -/
  stamp : Nat
  deriving DecidableEq, Repr

/-- One supervisor logical core (R341). -/
structure Sup where
  /-- a pair serves the core and runs its program (R342, R353) -/
  on : Bool
  regs : Regs
  /-- special registers by number, besides those that are computed (R348) -/
  spr : Tab Word
  /-- the offer of the open world (R361) -/
  openOffer : Option Nat
  /-- the offer of the sealed world -/
  sealedOffer : Option Nat
  /-- sources accepted by this core and not completed (R360) -/
  actives : List Nat
  /-- `wfe` waits (R362) -/
  waiting : Bool
  /-- contention predictor counters (R331) -/
  predict : Tab Nat
  /-- round robin of wqpost members (R142) -/
  post : Nat
  /-- branch target buffer: set * 4 + way (R356) -/
  btb : Tab (Option Btb)
  /-- direction counters: value and context tag (R356, R358) -/
  dirs : Tab (Nat × Nat)
  /-- global history (R356) -/
  hist : BitVec 32
  /-- uses of the target buffer counted, for its order of use -/
  stamp : Nat
  /-- lines in the core's L1I and L1D, the last one filled first (R305); its L2 answers for them (R307) -/
  l1i : List Nat
  l1d : List Nat
  deriving DecidableEq, Repr


/-! ### Caches and homes -/

/-- A line held in an LLC slice (R317); its poison marks are those of memory. -/
structure HomeLine where
  /-- `HS`: 0 NONE, 1 SHR, 2 OWN -/
  hs : Nat
  /-- `PRES` -/
  pres : Nat
  remote : Bool
  /-- `D` -/
  dirty : Bool
  /-- when the line was last used, for the choice of a victim (R318) -/
  used : Nat
  deriving DecidableEq, Repr

/-- How far a home's transaction on a line has come (R318, R321). -/
inductive HomePhase
  /-- the line is absent and its set is full: the victim's pass runs, or every way has a transaction -/
  | way
  | memread
  | snooping
  /-- the line is a victim, and its invalidating pass runs -/
  | evicting
  deriving DecidableEq, Repr

/-- What waits at a home for a line: a request, or a patrol scrub access with what its read finds (R321, R328). -/
inductive HomeJob
  | req (r : HomeReq)
  | scrub (c : LineCheck)
  deriving DecidableEq, Repr

/-- A transaction of a home on one line (R321). -/
structure HomeTx where
  phase : HomePhase
  /-- the request served; none for a victim's pass -/
  req : Option HomeReq
  /-- answers still due: a cache number, or 1000 + a die for the answer of a ring snoop (R320, R322) -/
  due : List Nat
  /-- what waits behind it, oldest first -/
  queue : List HomeJob
  deriving DecidableEq, Repr

/-- An answer on its way to a home (R320). -/
structure SnoopAns where
  line : Nat
  src : Nat
  /-- 0 MISS, 1 HIT, 2 HIT_DATA -/
  kind : Nat
  deriving DecidableEq, Repr

/-- A copy that its home no longer tracks after a snoop timeout: it holds the words that it had, and what is written into it stays in
it (R324). -/
structure Stray where
  cache : Nat
  line : Nat
  words : List Word
  deriving DecidableEq, Repr

/-- An access of a device, or of a unit that keeps no copy, in the order in which its agent made it (R295, R296). -/
structure Posted where
  line : Nat
  req : HomeReq
  /-- it has gone to the home -/
  sent : Bool
  deriving DecidableEq, Repr


/-! ### Channel subsystem -/

/-- What the part gives to the outside: frames, device commands and answers on its service ports, in the order in which they
leave. -/
inductive Given
  /-- an Ethernet frame at a sub-port, from the destination MAC address to the end of the payload (R396, R420) -/
  | frame (die sub : Nat) (bytes : List Byte)
  /-- the frame in progress at a sub-port ends with a bad FCS (R665) -/
  | badFcs (die sub : Nat)
  /-- an NVMe command submitted by an engine (16 die + engine) to a queue pair: CID, opcode, NSID, SLBA, NLB and FUA; whether its data
  pointer is made of SGL descriptors, else of PRP entries, and the byte address and bytes of each (R387) -/
  | nvme (eng ctrl pair cid op nsid : Nat) (slba : Word) (nlb : Nat) (fua sgl : Bool) (data : List (Nat × Nat))
  /-- a raw NVMe command: its 64 bytes as words, with the engine's CID and data pointer in them, and what the pointer names (R366) -/
  | nvmeRaw (eng ctrl pair : Nat) (sqe : List Word) (sgl : Bool) (data : List (Nat × Nat))
  /-- an admin command: its opcode, and the queue pair that it creates, by engine and number (R387) -/
  | nvmeAdmin (ctrl op eng pair : Nat)
  /-- an Abort of a command (R387) -/
  | nvmeAbort (eng ctrl pair cid : Nat)
  /-- a controller reset with CC.EN (R387) -/
  | nvmeReset (ctrl : Nat)
  /-- Global Persistent Flush started by the root port of a die (R385) -/
  | flush (die : Nat)
  /-- the bits that SPI_MISO shifts out during a frame (R650, R653) -/
  | spi (bits : List Bool)
  /-- bytes read by the I3C controller (R657) -/
  | i3c (bytes : List Byte)
  /-- a private write sent while the I3C port holds the controller role (R659) -/
  | i3cSend (target : Nat) (bytes : List Byte)
  /-- the controller role offered with GETACCCR (R659) -/
  | i3cOffer (target : Nat)
  /-- an in-band interrupt with its mandatory byte (R658) -/
  | ibi (mdb : Nat)
  /-- a home's answer to an AMO_FAR or DEV_RD: the agent, the line address, the words and which of them are poisoned, which marks the
  completion of a PCIe read EP (R319, R326, R334) -/
  | homeReply (id : AgentId) (line : Nat) (words : List Word) (psn : Nat)
  /-- words that a thread writes to device space: the die whose root port takes them into its posted queue, and the offset (R298) -/
  | devWrite (die off : Nat) (words : List Word)
  /-- a thread's read of words of device space (R298) -/
  | devRead (die off n : Nat)
  /-- a stream command that a context gives to its engine's stream port: its number and its four words (R428, R436) -/
  | stream (eng n : Nat) (words : List Word)
  /-- TDO of a test-access-port operation (R662) -/
  | tdo (bits : List Bool)
  deriving DecidableEq, Repr

/-- A record of a die's journal, in plain form (R381). -/
structure JRec where
  /-- 1 ACCEPT, 2 TERM, 3 RELOG, 4 EPOCH, 5 NUMBLK, 15 PAD -/
  typ : Nat
  seq : Nat
  xnum : Word
  part : Nat
  asid : Nat
  kind : Nat
  rdv : Bool
  nlb : Nat
  /-- TERM: terminal state and reason -/
  state : Nat
  reason : Nat
  user : Word
  tgt : Word
  slba : Word
  psrc : Nat
  /-- ledger index of the exchange, which the record itself does not hold -/
  index : Nat
  /-- the engine whose microcode appended it (R436) -/
  eng : Option Nat
  durable : Bool
  deriving DecidableEq, Repr

/-- One copy of the control values of a journal region (R380). -/
structure JCtl where
  /-- `CBSEQ` -/
  seq : Nat
  /-- `HEAD` -/
  head : Nat
  /-- log2 of `JSIZE` -/
  log2 : Nat
  /-- key slot -/
  key : Nat
  deriving DecidableEq, Repr

/-- A completion record that waits for room in its partition's ring (R375, R378). -/
structure HeldRec where
  part : Nat
  /-- words 0 to 7 -/
  words : List Word
  /-- the ledger entry, or none for a refusal that an intake holds -/
  index : Option Nat
  /-- 16 * die + engine whose intake holds the refusal -/
  eng : Nat
  deriving DecidableEq, Repr

/-- An inbound exchange that waits for a frame (R171). -/
structure Inbound where
  index : Nat
  session : Nat
  buffer : Nat
  /-- TIMEBASE at which it began to wait -/
  since : Word
  deriving DecidableEq, Repr

/-- The channel state of a die. -/
structure Chan where
  /-- the per-die exchange count: the next number (R371) -/
  count : Nat
  /-- the largest NUMBLK limit made durable (R384) -/
  limit : Nat
  /-- ledger indices that are not FREE -/
  live : List Nat
  /-- records that the die's engines have appended, oldest first, without those that the control block has passed (R382) -/
  jrecs : List JRec
  /-- next `SEQ` -/
  jnext : Nat
  /-- `HEAD` -/
  jhead : Nat
  /-- copies A and B of the region's control values, on the ledger device (R380) -/
  ctlA : JCtl
  ctlB : JCtl
  /-- the region's ring on the ledger device: the eight words of each slot that holds a record (R380, R381) -/
  slots : Tab (List Word)
  /-- records written since the control block was rewritten -/
  jsince : Nat
  /-- slots still reserved, by ledger index (R382) -/
  reserved : Tab Nat
  /-- the ledger device has left service (R382) -/
  ldevLost : Bool
  /-- after the power-fail stop: the `SEQ` from which on nothing is written (R385) -/
  jstop : Option Nat
  held : List HeldRec
  inbound : List Inbound
  deriving DecidableEq, Repr

/-- An NVMe command in a queue slot (R387). -/
structure NvCmd where
  ctrl : Nat
  pair : Nat
  slot : Nat
  /-- the engine that the queue pair was created for, 16 * die + engine: a take-over leaves it (R388) -/
  eng : Nat
  index : Nat
  gen : Nat
  /-- an Abort has been sent -/
  aborting : Bool
  /-- its completion has come, and its event stands in the event queue (R428) -/
  came : Bool
  deriving DecidableEq, Repr

/-- The ledger-level state of a channel engine (R424, R430). -/
structure Eng where
  /-- intake queue: flits whose acceptance waits (R384, R378), then flits that no context has taken -/
  intake : List Flit
  /-- flits of the intake that no context has taken yet (R427) -/
  flitq : List Flit
  /-- event queue: kind, V0, V1 (R427, R428) -/
  evq : List (Nat × Word × Word)
  /-- the last thing a context took was an event -/
  tookEvent : Bool
  /-- slots of the intake spill ring taken and freed (R430) -/
  ringTail : Nat
  ringHead : Nat
  /-- the intake holds a refusal whose record finds its ring full (R378) -/
  blocked : Bool
  /-- a RESCAN event is pending or running (R430, R451) -/
  rescan : Bool
  /-- served exchanges in the order in which they entered OPEN, with whether they have been counted as waiting (R375, R390) -/
  serve : List (Nat × Bool)
  cmds : List NvCmd
  /-- commands that have left their slots before their completions: each keeps its entry of the event queue (R428) -/
  late : List NvCmd
  /-- staged frames that wait to be handled, oldest first -/
  hxq : List HxFrame
  /-- the engine has left service (R388) -/
  out : Bool
  /-- its work has been taken over (R388) -/
  adopted : Bool
  deriving DecidableEq, Repr

/-- The working state of a served exchange: words 10 to 15 of its entry in effect (R373). -/
structure Work where
  /-- the accepting engine, 16 * die + engine -/
  acc : Nat
  /-- the issuing thread is a supervisor thread, and its privilege level (R367) -/
  sup : Bool
  pl : Nat
  /-- the decision in CLOSING is IN_DOUBT -/
  inDoubt : Bool
  /-- an Abort of the exchange went unconfirmed (R387) -/
  unconfirmed : Bool
  /-- the last reissue was caused by this completion dword 3; 0 after a timeout (R387) -/
  status : Nat
  /-- the TERM record is durable (R383) -/
  termDone : Bool
  /-- words of an NVMe read that wait for the chain, or the staged output of a chain (R454) -/
  data : List Word
  /-- every transform turn has run -/
  chainDone : Bool
  /-- 4 KiB units held in a root port's staging buffer (R454) -/
  staged : Nat
  /-- HXP_SEND: the message's segments have been numbered from this path sequence (R417) -/
  firstSeq : Option Nat
  /-- HXP_SEND: slot of its send record -/
  sendSlot : Nat
  /-- HXP_SEND: next segment to be sent, and the message's segments and words -/
  segNext : Nat
  segCnt : Nat
  words : Nat
  /-- the exchange has been ACTIVE -/
  started : Bool
  /-- the chain descriptor as the issue check read it (R455) -/
  chain : List Word
  /-- its result area is written (R467) -/
  resDone : Bool
  /-- an NVMe command of it was submitted and has not succeeded (R377) -/
  cmdOut : Bool
  /-- at most so many words of output had come out when it failed (R470) -/
  reach : Nat
  deriving DecidableEq, Repr

/-- An NVMe controller as the Masthead enumerated it (R387). -/
structure Ctrl where
  /-- die whose root port holds it -/
  die : Nat
  /-- largest queue that it supports, in entries (MQES) -/
  mqes : Nat
  /-- block size in bytes of a namespace, by NSID -/
  blocks : Tab Nat
  /-- Identify reports SGL support (R387) -/
  sgl : Bool
  /-- it has been reset once -/
  wasReset : Bool
  /-- it has left service -/
  out : Bool
  deriving DecidableEq, Repr


/-! ### HXP -/

/-- A derived key as the working words hold it: wrapped under a key of the vault, here beside it (R399). -/
structure DKey where
  /-- it protects what this end sends, else what it receives -/
  sent : Bool
  /-- key phase (R400) -/
  ph : Nat
  key : List Nat
  /-- the wrapping key -/
  wrap : List Nat
  deriving DecidableEq, Repr

/-- A DATA frame that has been sent and not acknowledged (R406, R411). -/
structure TxSeg where
  seq : Nat
  /-- ledger index of the message -/
  index : Nat
  segno : Nat
  segcnt : Nat
  /-- key phase under which it was sent -/
  phase : Nat
  words : List Word
  /-- TIMEBASE of its last transmission (R411) -/
  sentAt : Word
  deriving DecidableEq, Repr

/-- An inbound message of a session (R409). -/
structure RxMsg where
  first : Nat
  segcnt : Nat
  /-- its HXP_RECV entry, none where the message is recorded without being stored -/
  index : Option Nat
  buffer : Nat
  /-- words of the message, once its last segment has arrived -/
  words : Nat
  /-- a buffer word could not be written: the reason -/
  fail : Option Nat
  deriving DecidableEq, Repr

/-- The working state of a session: words 6 to 31 of its entry in effect (R395). -/
structure Sess where
  /-- OPENs sent since the command (R404) -/
  opens : Nat
  nonceI : Word
  nonceR : Word
  peerMax : Nat
  /-- receiver: base, last CREDIT given, base at the last ACK (R408, R410) -/
  base : Nat
  credit : Nat
  acked : Nat
  /-- sender: next path sequence, first not acknowledged, last CREDIT accepted (R407) -/
  txNext : Nat
  txAck : Nat
  txCredit : Nat
  /-- control counts: sent, and last accepted (R402) -/
  ctlTx : Nat
  ctlRx : Option Nat
  /-- key phases of the two directions, and the sender's counts at the start of its phase (R400) -/
  phTx : Nat
  phRx : Nat
  phSeq : Nat
  phCtl : Nat
  /-- CLOSE has been sent -/
  closeSent : Bool
  unacked : List TxSeg
  /-- expiries of the retransmission timeout without progress (R411) -/
  expiries : Nat
  rx : List RxMsg
  /-- buffers kept for the next message (R418) -/
  kept : List Nat
  /-- TIMEBASE of the last authenticated frame, and of the last segment not taken (R404, R410) -/
  lastAuth : Word
  lastHold : Option Word
  /-- derived keys (R399) -/
  keys : List DKey
  /-- while the receiver still holds the phase before `phRx`: the path sequence before which every frame of it lies (R400) -/
  phCut : Option Nat
  deriving DecidableEq, Repr

/-- The states of the lease at either end (R414). -/
inductive Lease
  | none | claiming | steering | lapsed | releasing
  deriving DecidableEq, Repr

/-- The working state of an association: words 14 to 31 of its entry in effect (R394). -/
structure Assoc where
  /-- 0 closed, 1 OPEN sent, 2 open (R403) -/
  phase : Nat
  nonceI : Word
  nonceR : Word
  ctlTx : Nat
  ctlRx : Option Nat
  /-- `SEQ` of the last OPEN or OPEN_ACK of the association taken -/
  openRx : Option Nat
  phTx : Nat
  phRx : Nat
  phCtl : Nat
  lease : Lease
  /-- shroud of the last LEASE sent: true for B -/
  claimB : Bool
  /-- the lease moves back to the preferred shroud (R416) -/
  failback : Bool
  lastAuth : Word
  /-- derived keys (R399) -/
  keys : List DKey
  deriving DecidableEq, Repr

/-! ### Channel engines: contexts and stores (R424) -/

/-- A memory operation of a context that has not completed into `MDR` (R436, R437). -/
inductive MPend
  /-- a read of a physical word, with the address that the microword gave -/
  | read (pa addr : Nat)
  | value (w : Word)
  deriving DecidableEq, Repr

/-- A context of a channel engine (R424, R441). -/
structure MCtx where
  /-- it has taken an event and has not ended -/
  busy : Bool
  /-- micro program counter -/
  upc : Nat
  /-- `SP` and `STK0` to `STK3` -/
  sp : Nat
  stk : Tab Word
  /-- V0 to V15 -/
  v : Tab Word
  xid : Nat
  xctx : Word
  mdr : Word
  pend : Option MPend
  /-- the last read failed: cause and data of the micro-trap that reading `MDR` takes (R440) -/
  mdrBad : Option (Nat × Word)
  /-- the armed timer: TIMEBASE and ledger index -/
  timer : Option (Word × Nat)
  /-- the timer has expired -/
  expired : Bool
  /-- it sleeps after WAIT -/
  asleep : Bool
  trap : Bool
  mtpc : Nat
  mtcause : Nat
  mtdata : Word
  /-- kind of the event that it has taken last (R427) -/
  kind : Nat
  deriving DecidableEq, Repr

/-- The sequencer of a channel engine (R424, R425). -/
structure MSeq where
  ctxs : Tab MCtx
  /-- G0 to G15 -/
  g : Tab Word
  /-- the context that runs, or that the sequencer left last -/
  cur : Nat
  running : Bool
  /-- contexts that wait for an index, in the order in which they wrote it (R429) -/
  xwait : List (Nat × Nat)
  /-- stream commands that have not completed: number and context -/
  streams : List (Nat × Nat)
  /-- the next stream command number -/
  nextStream : Nat
  /-- store words that wait for the loader, oldest first: the context, whether it is a nano-word, and its address (R443) -/
  rewrite : List (Nat × Bool × Nat)
  deriving DecidableEq, Repr

/-- The stores of every engine and of every decimal sequencer, which all hold the same words (R424, R446). -/
structure UStores where
  emicro : Tab Nat
  enano : Tab Nat
  smicro : Tab Nat
  snano : Tab Nat
  /-- a load has succeeded -/
  on : Bool
  deriving DecidableEq, Repr


/-! ### Furl, Woad and the key vault -/

/-- A loaded slot of the key vault (R472). -/
structure KeySlot where
  /-- the key's 32 bytes -/
  key : List Nat
  owner : Nat
  anyp : Bool
  /-- `SEALED` -/
  shut : Bool
  /-- `USE` -/
  uses : Nat
  deriving DecidableEq, Repr

/-- A transform chain that is running or waiting on a die (R478). -/
structure ChainJob where
  index : Nat
  part : Nat
  /-- stage-0 input bytes, and those that finished turns have taken -/
  total : Nat
  done : Nat
  /-- stages that need a furl pipe, an unfurl pipe, and Woad engines -/
  furl : Bool
  unfurl : Bool
  woads : Nat
  /-- key slots of its stages -/
  keys : List Nat
  /-- while a turn runs: Furl engine, Woad engines, and the turn's bytes -/
  running : Option (Option Nat × List Nat × Nat)
  /-- the save slots that hold its state: Furl engine and slot, Woad engines and slots (R480) -/
  saved : Option (Option (Nat × Nat) × List (Nat × Nat))
  /-- the input words that its turns have taken (R457, R478) -/
  inp : List Word
  deriving DecidableEq, Repr

/-- The transform scheduler and engines of a die (R478). -/
structure XfDie where
  /-- chains in the order in which they became ready -/
  jobs : List ChainJob
  /-- partition served last -/
  last : Nat
  /-- the chain whose turn has its pipes and engines reserved, by ledger index -/
  reserved : Option Nat
  /-- the scheduler stands in the visit of `last` -/
  visiting : Bool
  /-- the partitions that the current pass has still to visit -/
  pass : List Nat
  dF : Tab Nat
  dW : Tab Nat
  /-- Furl and Woad engines out of service (R481) -/
  furlOut : List Nat
  woadOut : List Nat
  /-- Furl and Woad engines with power removed (R635) -/
  furlGated : List Nat
  woadGated : List Nat
  /-- keys in the cache of each Woad engine, most recent first (R474) -/
  kcache : Tab (List Nat)
  deriving DecidableEq, Repr

/-! ### Boot flash -/

/-- A record of the ageing log (R633). -/
structure AgeRec where
  /-- 1 BASE, 2 REPLAN, 3 RETIRE, 4 LOST, 5 NUMBLK -/
  typ : Nat
  die : Nat
  /-- baselines or medians of monitors 0 to 63 -/
  mon : List Nat
  offs : Nat
  cap : Nat
  spar : Nat
  pe : Nat
  limit : Nat
  deriving DecidableEq, Repr


/-! ### Start-up, power and the service ports -/

/-- The fuses of die 0 (R601). -/
structure Fuses where
  /-- SHA-384 hashes of the four ML-DSA-87 and of the four ECDSA public keys, 48 bytes each -/
  mldh : List (List Nat)
  ech : List (List Nat)
  /-- bit i: key index i revoked -/
  mlrev : Nat
  ecrev : Nat
  /-- security-version floors of the five kinds -/
  svn : List Nat
  /-- blown debug-closure fuses, 0 to 3 -/
  dbg : Nat
  dieid : Word
  /-- the image key, 32 bytes -/
  key : List Nat
  /-- the fuse-recorded history shows an earlier start (R634) -/
  history : Bool
  deriving DecidableEq, Repr

/-- What an update command writes to the boot flash while it runs: a commit record at an offset, an erased range with the bytes it held, or
a programmed range (R597, R598). -/
inductive FlashJob
  | append (at' : Nat)
  | erase (at' len : Nat) (held : List Host.Cell)
  | program (at' len : Nat)
  deriving DecidableEq, Repr

/-- The Masthead and the sideband contacts (R576 to R602, R645). -/
structure Mst where
  /-- RESET_N is asserted -/
  resetN : Bool
  pwrok : Bool
  /-- slots excluded in this start (R580) -/
  excluded : List Nat
  /-- the boot flash answers (R661) -/
  flashUp : Bool
  /-- the staged image that passed CHECK and has not been written to since: its word address and its bytes (R597) -/
  checked : Option (Nat × Nat)
  /-- slots whose last command was a PROGRAM that matched -/
  programmed : List Nat
  /-- position of the next `MST_UPDDATA` write, in units of 32 bits -/
  ptr : Nat
  /-- the armed fuse: target, argument and TIMEBASE (R602) -/
  armed : Option (Nat × Nat × Word)
  /-- `VBAR2` of the configuration record of the start (R342) -/
  vbar2 : BitVec 51
  /-- what the update command that began last writes to the flash (R598) -/
  job : Option FlashJob
  /-- the fuses before the programming that began last (R602) -/
  fuseJob : Option Fuses
  /-- the configuration record that this start applied (R594) -/
  record : Option BootRec
  deriving DecidableEq, Repr

/-- How far a change of the effective reef level has come (R622): none under way, voltages raised for a faster level whose dividers have not
switched, or dividers switched to a slower level with the voltages still to be lowered. -/
inductive ReefPhase
  | steady
  | raised (level : Nat)
  | lowering
  deriving DecidableEq, Repr

/-- The instructions of the test access port, as its instruction register holds them (R662). -/
inductive TapIns
  | bypass | idcode | samplePreload | extest
  | debug (code : BitVec 8)
  deriving DecidableEq, Repr

/-- The test access port: the instruction register, and what the boundary register has latched (R662). -/
structure Tap where
  ir : TapIns
  latch : List Bool
  deriving DecidableEq, Repr

/-- Power, temperature and the sealed-standby domain (R610 to R628). -/
structure Power where
  /-- a power-fail warning is in force -/
  warned : Bool
  /-- the HV stages run -/
  hv : Bool
  /-- THRMALRT_N is asserted -/
  alarm : Bool
  /-- level 2 of R626 -/
  level2 : Bool
  /-- THERMTRIP_N is asserted -/
  trip : Bool
  /-- AUX is at least 3.0 V -/
  aux : Bool
  /-- the standby domain has lost all power (R615) -/
  domainLost : Bool
  /-- zeroisations that Madder has not recorded yet: their causes -/
  unseen : List Nat
  /-- the change of the effective level (R622) -/
  reef : ReefPhase
  /-- the value of `PWR_RTC_HI` that waits for a write of `PWR_RTC_LO` (R639) -/
  rtcHeld : Nat
  /-- a fatal fence has asserted FAULT_N and RESET_N has not been deasserted since (R647) -/
  faultHeld : Bool
  deriving DecidableEq, Repr

/-- What a service port expects next (R652). -/
inductive PortWait
  | command | readIndex | writeIndex
  | writeData (idx : BitVec 32)
  deriving DecidableEq, Repr

/-- A service port (R652, R653). -/
structure Port where
  out : BitVec 32
  want : PortWait
  /-- the access in progress: index, and the data of a write -/
  access : Option (BitVec 32 × Option (BitVec 32))
  /-- 0 OK, 1 BUSERR, 2 DENIED -/
  result : Nat
  frm : Bool
  nseq : Nat
  /-- data of the last access, where it was a read that ended OK -/
  rdata : Option (BitVec 32)
  /-- the word last accepted was RDATA or PORTRD -/
  picked : Bool
  deriving DecidableEq, Repr

/-- The bus side of the I3C port (R656 to R659). -/
structure I3c where
  dynamic : Option Nat
  /-- ENEC has enabled IBIs -/
  enabled : Bool
  /-- waiting causes of R658, as a bit mask: bit b for byte b -/
  causes : Nat
  /-- NACKs of the IBI that is sent again -/
  nacks : Nat
  /-- it holds the controller role -/
  role : Bool
  /-- the cause of the IBI that waits to be sent again -/
  again : Option Nat
  /-- where it sends its causes while it holds the controller role -/
  peer : Nat
  deriving DecidableEq, Repr


/-! ### The whole machine -/

/-- The state of the part. -/
structure State where
  /-- which part it is (R2) -/
  part : PartKind
  /-- memory: byte address and byte, strictly rising, no entry equal to 0 (R11, R20) -/
  mem : List Host.Cell
  /-- poisoned words, by physical word address (R325) -/
  poison : Tab Bool
  /-- registers that differ from their reset value, by register index (R550) -/
  csr : Tab Csr
  spars : Tab Spar
  pes : Tab Pe
  /-- reservations that are held, at most one for each agent (R290) -/
  resvs : List Resv
  dies : Tab Die
  hw : Tab PartHw
  traps : List Trap
  flowMsgs : List FlowMsg
  notices : List Notice
  gateMsgs : List GateMsg
  /-- gates that wait for a grant attempt: (die, partition, gate) (R174) -/
  gateWaits : List (Nat × Nat × Nat)
  luffs : Tab Luff
  pcache : List PCache
  tlb : List TlbLine
  /-- populated DRAM of each die, in words (R302) -/
  dramWords : Tab Nat
  /-- CXL ranges programmed into the HDM decoders: die, first offset, words (R302) -/
  hdm : List (Nat × Nat × Nat)
  /-- supervisor logical cores, by global number (R341) -/
  sups : Tab Sup
  /-- issue flits of supervisor cores that no intake has taken, oldest first: (16 * die + engine, global core) (R431) -/
  supIssues : List (Nat × Nat)
  /-- state of the lines in the L2 caches: cache number * 2^45 + line to 1 SHARED, 2 EXCLUSIVE or 3 MODIFIED (R307); caches 0
  to 255 are the spar L2s, 256 + c that of logical core c -/
  caches : Tab Nat
  /-- lines held in the LLC slices (R317) -/
  llc : Tab (Option HomeLine)
  homeTx : Tab (Option HomeTx)
  /-- requests that wait at a slice for one of its 64 transactions: slice number 32 * die + slice (R321) -/
  sliceQ : Tab (List (Nat × HomeReq))
  snoops : List Snoop
  /-- replies of the fetch agents that may not have arrived yet (R179) -/
  fetchMoves : List Flit
  answers : List SnoopAns
  /-- copies that their homes no longer track (R324) -/
  strays : List Stray
  /-- `lr` requests that wait at a home: agent and line address, oldest first (R292) -/
  lrQueue : List (Nat × Nat)
  /-- accesses that root ports and units have accepted and homes have not performed, oldest first (R295, R296) -/
  posted : List Posted
  /-- the count of uses that orders lines for replacement -/
  useStamp : Nat
  /-- what the part has given to the outside, oldest first -/
  given : List Given
  chans : Tab Chan
  /-- channel engines: 16 * die + engine -/
  engs : Tab Eng
  /-- working state of exchanges, by ledger index -/
  works : Tab Work
  ctrls : Tab Ctrl
  /-- sessions, by session index -/
  sess : Tab Sess
  assocs : Tab Assoc
  /-- sequencers of the channel engines: 16 * die + engine -/
  mseqs : Tab MSeq
  ustores : UStores
  /-- the key vault: none for an EMPTY slot (R472) -/
  vault : Tab (Option KeySlot)
  xforms : Tab XfDie
  /-- the boot flash: byte offset and byte, strictly rising, no entry equal to the erased byte (R581) -/
  flash : List Host.Cell
  /-- records that the Masthead has still to append to the ageing log, oldest first (R535, R633) -/
  ageDue : List AgeRec
  /-- records whose write failed, which are written again at the next re-plan (R633) -/
  ageHeld : List AgeRec
  /-- the straps as they were sampled: I3CADDR in bits 1 and 0, PCIEBIF of position d in bits 2d+3 and 2d+2 (R641) -/
  straps : BitVec 18
  fuses : Fuses
  /-- the fuses as step 2 of this start read them (R601, R602) -/
  fusesIn : Fuses
  mst : Mst
  pw : Power
  /-- the service SPI port and the I3C port -/
  spi : Port
  i3cPort : Port
  /-- the SPI word timeout of R651 has ended the frame in progress -/
  spiDead : Bool
  /-- the port registers 0 to 4 (R655) -/
  portCnt : Tab Nat
  i3c : I3c
  tap : Tap
  /-- raw debug-halt input of the test access port (R355) -/
  rawHalt : Bool
  /-- the logical cores that step 15 of the start in progress releases (R577, R594) -/
  release : List Nat
  /-- the FATAL fence of the package (R544) -/
  fatal : Bool
  /-- the minimum-pulse timer of FAULT_N runs (R523) -/
  pulse : Bool
  /-- the count of TIMEBASE up to which a command that a register's start field began runs, by twice the register index, and 1 more for
  `CCGO` (R566) -/
  cmdBusy : Tab Nat
  /-- registers with RWD fields that were written while their disabled block still held work: what the block reads into use at its next
  enabling; its work in flight goes on under the values in `csr` (R560) -/
  rwdHeld : Tab (Option Csr)
  /-- the model's own count of free values used so far -/
  fresh : Nat
  /-- commands that wait, first in first out -/
  pending : List Instr
  deriving DecidableEq, Repr


/-! ### Values of unlisted entries and reset -/

/-- Registers of a core before anything ran on it: all 0 (R68, R342). -/
def Regs.init : Regs := ⟨[], [], [], [], 0, 0⟩

/-- A spar after reset: every queue and store empty (R96, R563). DESIGN CHOICE (log 125): the watermarks' hysteresis starts on neither
side (R147). -/
def Spar.init : Spar :=
  ⟨[], [], [], [], [], [], none, [], [], [], [], [], [], [], [], false, [], 0, 8, .neither, .neither, .neither, [], 0, false, [], [], [],
   none, 8, false, false⟩

/-- A PE after reset: idle, every register 0. -/
def Pe.init : Pe :=
  ⟨none, Regs.init, Regs.init, [], [], [], [], [], [], 0, 0, 0, 0, false, false, none, [], [], [], [], none, 0, 0⟩

/-- A router with nothing in it. -/
def Router.init : Router := ⟨[], [], [], []⟩

/-- A link end with every credit at hand (R116). -/
def Link.init : Link := ⟨[], [], [], [], none, false, false, [], 0, [], 0, 0, 0⟩

/-- A luff detector entry as it is set at creation (R180). -/
def Luff.init : Luff := ⟨0, true, false, false, false, 0, false⟩

/-- A partition with no hardware lists. -/
def PartHw.init : PartHw := ⟨[], [], false, false, 0, false, 0⟩

/-- Special registers at reset: `STATUS` 2, the others 0 (R349). -/
def sprReset (n : Nat) : Word := if n = 0 then 2 else 0

/-- A logical core before the Masthead releases it (R342). -/
def Sup.init : Sup := ⟨false, Regs.init, [], none, none, [], false, [], 0, [], [], 0, 0, [], []⟩

/-- The channel subsystem of a die after reset: nothing accepted, the journal empty. -/
def Chan.init : Chan := ⟨0, 0, [], [], 1, 1, ⟨1, 1, 20, 0⟩, ⟨0, 1, 20, 0⟩, [], 0, [], false, none, [], []⟩

/-- An engine with nothing in it. -/
def Eng.init : Eng := ⟨[], [], [], false, 0, 0, false, false, [], [], [], [], false, false⟩

/-- An exchange that has not started. -/
def Work.init : Work := ⟨0, false, 0, false, false, 0, false, [], false, 0, none, 0, 0, 0, 0, false, [], false, false, 0⟩

/-- A controller before the Masthead has enumerated it. -/
def Ctrl.init : Ctrl := ⟨0, 1024, [], false, false, false⟩
/-- A session that has never been opened. -/
def Sess.init : Sess := ⟨0, 0, 0, 0, 0, 65536, 0, 0, 0, 65536, 0, none, 0, 0, 0, 0, false, [], 0, [], [], 0, none, [], none⟩

/-- An association that has never been opened. -/
def Assoc.init : Assoc := ⟨0, 0, 0, 0, none, none, 0, 0, 0, .none, false, false, 0, []⟩
/-- A context that has taken no event. -/
def MCtx.init : MCtx := ⟨false, 0, 0, [], [], 0, 0, 0, none, none, none, false, false, false, 0, 0, 0, 0⟩

/-- A sequencer with every context idle. -/
def MSeq.init : MSeq := ⟨[], [], 15, false, [], [], 0, []⟩
/-- A die's transform engines idle. -/
def XfDie.init : XfDie := ⟨[], 0, none, false, [], [], [], [], [], [], [], []⟩
/-- Fuses with nothing blown. -/
def Fuses.init : Fuses := ⟨[], [], 0, 0, [], 0, 0, [], false⟩

/-- The Masthead with RESET_N asserted. -/
def Mst.init : Mst := ⟨true, false, [], true, none, [], 0, none, 0, none, none, none⟩

/-- Power before a start: AUX present. -/
def Power.init : Power := ⟨false, false, false, false, false, true, false, [], .steady, 0, false⟩

/-- A port at reset: OUT holds the status word with DONE 1 and NSEQ 0 (R653). -/
def Port.init : Port := ⟨0x800000A5, .command, none, 0, false, 0, none, false⟩

/-- The I3C port at reset. -/
def I3c.init : I3c := ⟨none, false, 0, 0, false, none, 0⟩
/-- A die after reset. -/
def Die.init : Die := ⟨[], [], [], 255, .neither, [], 0, [], [], [], [], false, 0, [], [], [], none, [], [], [], 0, .neither, .neither, [], [], [], [], [], [], []⟩


/-- The machine right after reset (R563 and the Reset columns): every register at its reset value, every queue, cache and
buffer empty, nothing in memory. -/
def State.reset : State where
  part := .p7808
  mem := []
  poison := []
  csr := []
  spars := []
  pes := []
  resvs := []
  sups := []
  supIssues := []
  dies := []
  hw := []
  traps := []
  flowMsgs := []
  notices := []
  gateMsgs := []
  gateWaits := []
  luffs := []
  pcache := []
  tlb := []
  fatal := false
  pulse := false
  cmdBusy := []
  rwdHeld := []
  fresh := 0
  pending := []
  dramWords := []
  hdm := []
  caches := []
  llc := []
  homeTx := []
  sliceQ := []
  snoops := []
  fetchMoves := []
  answers := []
  strays := []
  lrQueue := []
  posted := []
  useStamp := 0
  given := []
  chans := []
  engs := []
  works := []
  ctrls := []
  vault := []
  xforms := []
  sess := []
  assocs := []
  flash := []
  ageDue := []
  ageHeld := []
  mseqs := []
  ustores := ⟨[], [], [], [], false⟩
  straps := 0
  fuses := Fuses.init
  fusesIn := Fuses.init
  mst := Mst.init
  pw := Power.init
  spi := Port.init
  i3cPort := Port.init
  spiDead := false
  portCnt := []
  i3c := I3c.init
  tap := ⟨.idcode, []⟩
  rawHalt := false
  release := []

end Sys2Proof.Machine
end

