-- ==== Sys2Proof/Machine/Mem.lean ====
section
/-! DEFINITION. Memory: bytes, words, lines, regions and poison (spec 00 R11, 01 R20, 10 R302, R303, R325 to R327), the units of
the state by their keys, and the free values. -/

namespace Sys2Proof.Machine

/-- The number of populated dies (R2, R3). -/
def nDies : PartKind → Nat
  | .p7808 => 8
  | .p7404 => 4
  | .p7202 => 2

/-- What a byte that nothing has written reads as (DESIGN CHOICE: the spec gives memory no contents after power-on). -/
def byteDflt (_ : Nat) : Byte := 0

/-- One byte of memory, by byte address. -/
def rdByte (s : State) (a : Nat) : Byte := tget byteDflt s.mem a

/-- Memory with one byte changed. -/
def setByte (m : List Host.Cell) (a : Nat) (b : Byte) : List Host.Cell := tset byteDflt m a b

/-- The canonical form of memory. -/
def Memory.wf (m : List Host.Cell) : Bool := tabWf byteDflt m

/-- A word of memory by word address: byte k in bits [8k+7:8k] (R11). -/
@[irreducible] def peek (s : State) (wa : Nat) : Word :=
  let b (k : Nat) : Nat := (rdByte s (8 * wa + k)).toNat
  w64 (b 0 + 2 ^ 8 * b 1 + 2 ^ 16 * b 2 + 2 ^ 24 * b 3 + 2 ^ 32 * b 4 + 2 ^ 40 * b 5 + 2 ^ 48 * b 6 + 2 ^ 56 * b 7)

/-- The bytes `k` to 7 of a word written at its word address. -/
def setBytes (wa : Nat) (v : Nat) : Nat → Nat → List Host.Cell → List Host.Cell
  | 0, _, m => m
  | n + 1, k, m => setBytes wa v n (k + 1) (setByte m (8 * wa + k) (BitVec.ofNat 8 (v / 2 ^ (8 * k))))

/-- The regions of the physical address space (R302). -/
inductive Region
  | dram (die off : Nat) | cxl (die off : Nat) | device (die off : Nat) | unbacked
  deriving DecidableEq, Repr

/-- The region of a physical word address in the address map alone (R302). -/
def regionMap (wa : Nat) : Region :=
  match fld wa 48 46 with
  | 0 => if fld wa 45 40 = 0 then .dram (fld wa 39 37) (fld wa 36 0) else .unbacked
  | 1 => .cxl (fld wa 45 43) (fld wa 42 0)
  | 2 => .device (fld wa 45 43) (fld wa 42 0)
  | _ => .unbacked

/-- The die state. -/
def getDie (s : State) (d : Nat) : Die := tget (fun _ => Die.init) s.dies d

/-- A die's state changed by a function. -/
def modDie (s : State) (d : Nat) (f : Die → Die) : State := { s with dies := tmod (fun _ => Die.init) s.dies d f }

/-! ### Units of the state -/

/-- A fresh free value. -/
def takeFree (s : State) : Word × State := (Config.freeWord s.fresh, { s with fresh := s.fresh + 1 })

/-- Something leaves the part. -/
def give (s : State) (g : Given) : State := { s with given := s.given ++ [g] }
/-- The key of a spar: its global number (R87). -/
def gspar (die spar : Nat) : Nat := 32 * die + spar
def getSpar (s : State) (g : Nat) : Spar := tget (fun _ => Spar.init) s.spars g
def modSpar (s : State) (g : Nat) (f : Spar → Spar) : State := { s with spars := tmod (fun _ => Spar.init) s.spars g f }
/-- The key of a physical PE of the package. -/
def peKey (g p : Nat) : Nat := 9 * g + p
def getPe (s : State) (k : Nat) : Pe := tget (fun _ => Pe.init) s.pes k
def modPe (s : State) (k : Nat) (f : Pe → Pe) : State := { s with pes := tmod (fun _ => Pe.init) s.pes k f }
abbrev peSpar (k : Nat) : Nat := k / 9
abbrev peDie (k : Nat) : Nat := k / 9 / 32
abbrev peNo (k : Nat) : Nat := k % 9
/-- The key of a PE and of a logical core that a command names. -/
def peOf (p : PeId) : Nat := peKey (gspar p.die p.spar) p.p
def supOf (c : SupId) : Nat := 8 * c.die + c.core
def getSup (s : State) (c : Nat) : Sup := tget (fun _ => Sup.init) s.sups c
def modSup (s : State) (c : Nat) (f : Sup → Sup) : State := { s with sups := tmod (fun _ => Sup.init) s.sups c f }

/-- The region of a physical word address, with what is populated, programmed and withdrawn (R302, R542). -/
def region (s : State) (wa : Nat) : Region :=
  match nDies s.part with
  | 0 => .unbacked
  | n + 1 =>
    match regionMap wa with
    | .dram d o =>
      if d ≤ n ∧ o < tget (fun _ => 3 * 2 ^ 35) s.dramWords d ∧ (getDie s d).withdrawn = false then .dram d o else .unbacked
    | .cxl d o =>
      if d ≤ n ∧ (s.hdm.any fun r => r.1 = d && decide (r.2.1 ≤ o) && decide (o < r.2.1 + r.2.2))
          ∧ (getDie s d).withdrawn = false
      then .cxl d o else .unbacked
    | .device d o => if d ≤ n then .device d o else .unbacked
    | .unbacked => .unbacked

/-- The address lies where memory answers. -/
def backed (s : State) (wa : Nat) : Bool :=
  match region s wa with
  | .dram _ _ => true
  | .cxl _ _ => true
  | _ => false

/-- A word is read as poisoned: it carries the mark, or nothing backs its address (R303, R325). -/
def isPoisoned (s : State) (wa : Nat) : Bool := !backed s wa || tget (fun _ => false) s.poison wa

/-- A write to the staged image ends what a CHECK of it has found (R597). -/
def stagedWrite (m : Mst) (wa : Nat) : Mst :=
  { m with checked := m.checked.filter fun c => decide (wa < c.1) || decide (c.1 + (c.2 + 7) / 8 ≤ wa) }

/-- A whole-word write where memory answers: it stores the word, clears its mark (R327), and every
reservation on its line is lost (R290); elsewhere it is discarded (R303). -/
def poke (s : State) (wa : Nat) (v : Word) : State :=
  if backed s wa then
    { s with mem := setBytes wa v.toNat 8 0 s.mem, poison := tset (fun _ => false) s.poison wa false,
             resvs := s.resvs.filter fun r => r.line != wa / 16 * 16, mst := stagedWrite s.mst wa }
  else s

/-- Several whole words at rising addresses. -/
def pokes (s : State) (wa : Nat) : List Word → State
  | [] => s
  | v :: vs => pokes (poke s wa v) (wa + 1) vs

/-- `n` words at rising addresses. -/
def peeks (s : State) (wa n : Nat) : List Word := (List.range n).map fun i => peek s (wa + i)

/-- Words marked poisoned (R324, R325). -/
def poisonWords (s : State) (wa : Nat) : Nat → State
  | 0 => s
  | n + 1 =>
    poisonWords { s with poison := tset (fun _ => false) s.poison wa (backed s wa) } (wa + 1) n

/-- The first word address of the 16-word line of an address (R11). -/
def lineOf (wa : Nat) : Nat := wa / 16 * 16

end Sys2Proof.Machine
end

