-- ==== Sys2Proof/Machine/RegTable.lean ====
section
/-! DEFINITION. The register map of the CSR space: for every register of every block its words, its reset value and the
masks of its RW, RWD and W1P bits, from the register tables of the chapters and the offsets of R570 to R575. -/

namespace Sys2Proof.Machine

/-- One row of the register map: the words `first` to `last` hold registers of one layout (R12 to R14). -/
structure RegRow where
  first : Nat
  last : Nat
  /-- reset value of the fields the tables give one for; 0 in the others -/
  rst : Nat
  /-- bits that are RW -/
  rw : Nat
  /-- bits that are RWD -/
  rwd : Nat
  /-- bits that are W1P -/
  w1p : Nat
  /-- bits that are not reserved -/
  imp : Nat
  /-- sealed as a whole (R223) -/
  shut : Bool
  /-- implemented on die 0 only (R575) -/
  die0 : Bool
  deriving DecidableEq, Repr

/-- The layout groups of the block map (R569). -/
inductive BlkKind
  | sys | pwr | clk | umb | mdr | evc | mst | prt | xlt | mem | coh | chn | hxp | frl | wad | rtl | sch | clu | cen | dbg | fus
  deriving DecidableEq, Repr

/-- Word of `BLK_ID`. -/
abbrev rBlkId : Nat := 0x0
/-- Word of `BLK_CTL`. -/
abbrev rBlkCtl : Nat := 0x1
/-- Word of `BLK_STAT`. -/
abbrev rBlkStat : Nat := 0x2
/-- Word of `BLK_CFGREJ`. -/
abbrev rBlkCfgrej : Nat := 0x3
/-- Word of `BLK_PERR`. -/
abbrev rBlkPerr : Nat := 0x4
/-- Word of `SYS_PARTID`. -/
abbrev rSysPartid : Nat := 0x10
/-- Word of `SYS_DIEMASK`. -/
abbrev rSysDiemask : Nat := 0x11
/-- Word of `SYS_BUSERRCNT`. -/
abbrev rSysBuserrcnt : Nat := 0x12
/-- Word of `SYS_BUSERRIDX`. -/
abbrev rSysBuserridx : Nat := 0x13
/-- Word of `SYS_TIMEBASE_HI`. -/
abbrev rSysTimebaseHi : Nat := 0x14
/-- Word of `SYS_TIMEBASE_LO`. -/
abbrev rSysTimebaseLo : Nat := 0x15
/-- Word of `SYS_CNT_CLR`. -/
abbrev rSysCntClr : Nat := 0x16
/-- Word of `MDR_WPTR`. -/
abbrev rMdrWptr : Nat := 0x10
/-- Word of `MDR_LOGACK`. -/
abbrev rMdrLogack : Nat := 0x11
/-- Word of `MDR_STAT`. -/
abbrev rMdrStat : Nat := 0x12
/-- Word of `MDR_FNCTL`. -/
abbrev rMdrFnctl : Nat := 0x13
/-- Word of `MDR_RTYCFG`. -/
abbrev rMdrRtycfg : Nat := 0x14
/-- Word of `MDR_LOSTCNT`. -/
abbrev rMdrLostcnt : Nat := 0x15
/-- Word of `MDR_GLITCHCNT`. -/
abbrev rMdrGlitchcnt : Nat := 0x16
/-- Word of `MDR_RETRYCNT`. -/
abbrev rMdrRetrycnt : Nat := 0x17
/-- Word of `MDR_DEADFLIT`. -/
abbrev rMdrDeadflit : Nat := 0x18
/-- Word of `MDR_CNT_CLR`. -/
abbrev rMdrCntClr : Nat := 0x19
/-- Word of `MDR_PAIRMAP`. -/
abbrev rMdrPairmap : Nat := 0x1a
/-- Word of `MDR_PAIRSTAT`. -/
abbrev rMdrPairstat : Nat := 0x1b
/-- Word of `MDR_PAIRCMD`. -/
abbrev rMdrPaircmd : Nat := 0x1c
/-- Word of `MDR_DIESTAT`. -/
abbrev rMdrDiestat : Nat := 0x1d
/-- Word of `MDR_WDRAW`. -/
abbrev rMdrWdraw : Nat := 0x1e
/-- Word of `MDR_INJCTL`. -/
abbrev rMdrInjctl : Nat := 0x1f
/-- Word of `MDR_INJTGT`. -/
abbrev rMdrInjtgt : Nat := 0x20
/-- Word of `MDR_LOG`. -/
abbrev rMdrLog : Nat := 0x4000
/-- Word of `EVC_SET`. -/
abbrev rEvcSet : Nat := 0x10
/-- Word of `EVC_DONE`. -/
abbrev rEvcDone : Nat := 0x11
/-- Word of `EVC_CORE_EN`. -/
abbrev rEvcCoreEn : Nat := 0x12
/-- Word of `EVC_MERGECNT`. -/
abbrev rEvcMergecnt : Nat := 0x13
/-- Word of `EVC_RETCNT`. -/
abbrev rEvcRetcnt : Nat := 0x14
/-- Word of `EVC_BADDONE`. -/
abbrev rEvcBaddone : Nat := 0x15
/-- Word of `EVC_CNT_CLR`. -/
abbrev rEvcCntClr : Nat := 0x16
/-- Word of `EVC_WORLD`. -/
abbrev rEvcWorld : Nat := 0x100
/-- Word of `EVC_CFG`. -/
abbrev rEvcCfg : Nat := 0x1000
/-- Word of `EVC_TGT_LO`. -/
abbrev rEvcTgtLo : Nat := 0x2000
/-- Word of `EVC_TGT_HI`. -/
abbrev rEvcTgtHi : Nat := 0x3000
/-- Word of `PRT_NGTBASE_HI`. -/
abbrev rPrtNgtbaseHi : Nat := 0x10
/-- Word of `PRT_NGTBASE_LO`. -/
abbrev rPrtNgtbaseLo : Nat := 0x11
/-- Word of `PRT_RINGBASE_HI`. -/
abbrev rPrtRingbaseHi : Nat := 0x12
/-- Word of `PRT_RINGBASE_LO`. -/
abbrev rPrtRingbaseLo : Nat := 0x13
/-- Word of `PRT_MBREJ`. -/
abbrev rPrtMbrej : Nat := 0x14
/-- Word of `PRT_CNT_CLR`. -/
abbrev rPrtCntClr : Nat := 0x15
/-- Word of `PRT_MBDB`. -/
abbrev rPrtMbdb : Nat := 0x400
/-- Word of `PRT_RINGDB`. -/
abbrev rPrtRingdb : Nat := 0x800
/-- Word of `PRT_MBI`. -/
abbrev rPrtMbi : Nat := 0x4000
/-- Word of `PRT_MBO`. -/
abbrev rPrtMbo : Nat := 0x8000
/-- Word of `XLT_SEAL_HI`. -/
abbrev rXltSealHi : Nat := 0x10
/-- Word of `XLT_SEAL_LO`. -/
abbrev rXltSealLo : Nat := 0x11
/-- Word of `XLT_SEALLEN`. -/
abbrev rXltSeallen : Nat := 0x12
/-- Word of `MEM_SCRUB`. -/
abbrev rMemScrub : Nat := 0x10
/-- Word of `MEM_CECNT`. -/
abbrev rMemCecnt : Nat := 0x11
/-- Word of `MEM_UECNT`. -/
abbrev rMemUecnt : Nat := 0x14
/-- Word of `MEM_CNT_CLR`. -/
abbrev rMemCntClr : Nat := 0x17
/-- Word of `COH_SNPTMO`. -/
abbrev rCohSnptmo : Nat := 0x10
/-- Word of `COH_AMOCTL`. -/
abbrev rCohAmoctl : Nat := 0x11
/-- Word of `COH_WHCTL`. -/
abbrev rCohWhctl : Nat := 0x12
/-- Word of `COH_TMOCNT`. -/
abbrev rCohTmocnt : Nat := 0x13
/-- Word of `COH_LATECNT`. -/
abbrev rCohLatecnt : Nat := 0x14
/-- Word of `COH_UNBCNT`. -/
abbrev rCohUnbcnt : Nat := 0x15
/-- Word of `COH_WHIGNCNT`. -/
abbrev rCohWhigncnt : Nat := 0x16
/-- Word of `COH_DEVPSNCNT`. -/
abbrev rCohDevpsncnt : Nat := 0x17
/-- Word of `COH_HWPSNCNT`. -/
abbrev rCohHwpsncnt : Nat := 0x18
/-- Word of `COH_CNT_CLR`. -/
abbrev rCohCntClr : Nat := 0x19
/-- Word of `CHN_LDGBASE_HI`. -/
abbrev rChnLdgbaseHi : Nat := 0x10
/-- Word of `CHN_LDGBASE_LO`. -/
abbrev rChnLdgbaseLo : Nat := 0x11
/-- Word of `CHN_PCTBASE_HI`. -/
abbrev rChnPctbaseHi : Nat := 0x12
/-- Word of `CHN_PCTBASE_LO`. -/
abbrev rChnPctbaseLo : Nat := 0x13
/-- Word of `CHN_IDRBASE_HI`. -/
abbrev rChnIdrbaseHi : Nat := 0x14
/-- Word of `CHN_IDRBASE_LO`. -/
abbrev rChnIdrbaseLo : Nat := 0x15
/-- Word of `CHN_LDGFIRST`. -/
abbrev rChnLdgfirst : Nat := 0x16
/-- Word of `CHN_LDGCOUNT`. -/
abbrev rChnLdgcount : Nat := 0x17
/-- Word of `CHN_LDEV`. -/
abbrev rChnLdev : Nat := 0x18
/-- Word of `CHN_LDEVADR_HI`. -/
abbrev rChnLdevadrHi : Nat := 0x19
/-- Word of `CHN_LDEVADR_LO`. -/
abbrev rChnLdevadrLo : Nat := 0x1a
/-- Word of `CHN_JCFG`. -/
abbrev rChnJcfg : Nat := 0x1b
/-- Word of `CHN_JKEY`. -/
abbrev rChnJkey : Nat := 0x1c
/-- Word of `CHN_ISSMAP`. -/
abbrev rChnIssmap : Nat := 0x1d
/-- Word of `CHN_NVMETMO`. -/
abbrev rChnNvmetmo : Nat := 0x22
/-- Word of `CHN_NVMEQ`. -/
abbrev rChnNvmeq : Nat := 0x23
/-- Word of `CHN_WDOG`. -/
abbrev rChnWdog : Nat := 0x24
/-- Word of `CHN_STAT`. -/
abbrev rChnStat : Nat := 0x25
/-- Word of `CHN_LDGOCC`. -/
abbrev rChnLdgocc : Nat := 0x26
/-- Word of `CHN_JOCC`. -/
abbrev rChnJocc : Nat := 0x27
/-- Word of `CHN_LDGWM`. -/
abbrev rChnLdgwm : Nat := 0x28
/-- Word of `CHN_JWM`. -/
abbrev rChnJwm : Nat := 0x29
/-- Word of `CHN_LDGXC`. -/
abbrev rChnLdgxc : Nat := 0x2a
/-- Word of `CHN_JXC`. -/
abbrev rChnJxc : Nat := 0x2b
/-- Word of `CHN_BADFLIT`. -/
abbrev rChnBadflit : Nat := 0x2c
/-- Word of `CHN_NVLATE`. -/
abbrev rChnNvlate : Nat := 0x2d
/-- Word of `CHN_QWAIT`. -/
abbrev rChnQwait : Nat := 0x2e
/-- Word of `CHN_IDRSTAT`. -/
abbrev rChnIdrstat : Nat := 0x2f
/-- Word of `CHN_IDRACK`. -/
abbrev rChnIdrack : Nat := 0x30
/-- Word of `CHN_CNT_CLR`. -/
abbrev rChnCntClr : Nat := 0x31
/-- Word of `CHN_USHADOW_HI`. -/
abbrev rChnUshadowHi : Nat := 0x32
/-- Word of `CHN_USHADOW_LO`. -/
abbrev rChnUshadowLo : Nat := 0x33
/-- Word of `CHN_ULOAD`. -/
abbrev rChnUload : Nat := 0x34
/-- Word of `CHN_UCRC`. -/
abbrev rChnUcrc : Nat := 0x35
/-- Word of `HXP_STBASE_HI`. -/
abbrev rHxpStbaseHi : Nat := 0x10
/-- Word of `HXP_STBASE_LO`. -/
abbrev rHxpStbaseLo : Nat := 0x11
/-- Word of `HXP_ATBASE_HI`. -/
abbrev rHxpAtbaseHi : Nat := 0x12
/-- Word of `HXP_ATBASE_LO`. -/
abbrev rHxpAtbaseLo : Nat := 0x13
/-- Word of `HXP_RAWBASE_HI`. -/
abbrev rHxpRawbaseHi : Nat := 0x14
/-- Word of `HXP_RAWBASE_LO`. -/
abbrev rHxpRawbaseLo : Nat := 0x15
/-- Word of `HXP_CFG`. -/
abbrev rHxpCfg : Nat := 0x16
/-- Word of `HXP_TMR`. -/
abbrev rHxpTmr : Nat := 0x17
/-- Word of `HXP_WKEY`. -/
abbrev rHxpWkey : Nat := 0x18
/-- Word of `HXP_SCMD`. -/
abbrev rHxpScmd : Nat := 0x19
/-- Word of `HXP_PORT`. -/
abbrev rHxpPort : Nat := 0x1a
/-- Word of `HXP_MAC_HI`. -/
abbrev rHxpMacHi : Nat := 0x1b
/-- Word of `HXP_MAC_LO`. -/
abbrev rHxpMacLo : Nat := 0x1c
/-- Word of `HXP_RAWCFG`. -/
abbrev rHxpRawcfg : Nat := 0x23
/-- Word of `HXP_RAWTX`. -/
abbrev rHxpRawtx : Nat := 0x24
/-- Word of `HXP_RXDROP`. -/
abbrev rHxpRxdrop : Nat := 0x25
/-- Word of `HXP_BADCNT`. -/
abbrev rHxpBadcnt : Nat := 0x26
/-- Word of `HXP_AUTHCNT`. -/
abbrev rHxpAuthcnt : Nat := 0x27
/-- Word of `HXP_DUPCNT`. -/
abbrev rHxpDupcnt : Nat := 0x28
/-- Word of `HXP_OOWCNT`. -/
abbrev rHxpOowcnt : Nat := 0x29
/-- Word of `HXP_STALECNT`. -/
abbrev rHxpStalecnt : Nat := 0x2a
/-- Word of `HXP_RXHOLD`. -/
abbrev rHxpRxhold : Nat := 0x2b
/-- Word of `HXP_RETXCNT`. -/
abbrev rHxpRetxcnt : Nat := 0x2c
/-- Word of `HXP_RAWDROP`. -/
abbrev rHxpRawdrop : Nat := 0x2d
/-- Word of `HXP_CNT_CLR`. -/
abbrev rHxpCntClr : Nat := 0x2e
/-- Word of `FRL_PTTBASE_HI`. -/
abbrev rFrlPttbaseHi : Nat := 0x10
/-- Word of `FRL_PTTBASE_LO`. -/
abbrev rFrlPttbaseLo : Nat := 0x11
/-- Word of `FRL_SAVEBASE_HI`. -/
abbrev rFrlSavebaseHi : Nat := 0x12
/-- Word of `FRL_SAVEBASE_LO`. -/
abbrev rFrlSavebaseLo : Nat := 0x13
/-- Word of `FRL_PTTCMD`. -/
abbrev rFrlPttcmd : Nat := 0x14
/-- Word of `FRL_STAT`. -/
abbrev rFrlStat : Nat := 0x15
/-- Word of `FRL_TURNCNT`. -/
abbrev rFrlTurncnt : Nat := 0x16
/-- Word of `FRL_XERRCNT`. -/
abbrev rFrlXerrcnt : Nat := 0x17
/-- Word of `FRL_CNT_CLR`. -/
abbrev rFrlCntClr : Nat := 0x18
/-- Word of `WAD_SAVEBASE_HI`. -/
abbrev rWadSavebaseHi : Nat := 0x10
/-- Word of `WAD_SAVEBASE_LO`. -/
abbrev rWadSavebaseLo : Nat := 0x11
/-- Word of `WAD_STAT`. -/
abbrev rWadStat : Nat := 0x12
/-- Word of `WAD_TURNCNT`. -/
abbrev rWadTurncnt : Nat := 0x13
/-- Word of `WAD_XERRCNT`. -/
abbrev rWadXerrcnt : Nat := 0x14
/-- Word of `WAD_KCMISS`. -/
abbrev rWadKcmiss : Nat := 0x15
/-- Word of `WAD_CNT_CLR`. -/
abbrev rWadCntClr : Nat := 0x16
/-- Word of `WAD_KVCMD`. -/
abbrev rWadKvcmd : Nat := 0x17
/-- Word of `WAD_KVATTR`. -/
abbrev rWadKvattr : Nat := 0x18
/-- Word of `WAD_KVADDR_HI`. -/
abbrev rWadKvaddrHi : Nat := 0x19
/-- Word of `WAD_KVADDR_LO`. -/
abbrev rWadKvaddrLo : Nat := 0x1a
/-- Word of `RTL_BASE_HI`. -/
abbrev rRtlBaseHi : Nat := 0x10
/-- Word of `RTL_BASE_LO`. -/
abbrev rRtlBaseLo : Nat := 0x11
/-- Word of `RTL_CFG`. -/
abbrev rRtlCfg : Nat := 0x12
/-- Word of `RTL_PFILT`. -/
abbrev rRtlPfilt : Nat := 0x13
/-- Word of `RTL_SPARMASK`. -/
abbrev rRtlSparmask : Nat := 0x14
/-- Word of `RTL_WPTR`. -/
abbrev rRtlWptr : Nat := 0x15
/-- Word of `RTL_STAT`. -/
abbrev rRtlStat : Nat := 0x16
/-- Word of `RTL_DROPCNT`. -/
abbrev rRtlDropcnt : Nat := 0x17
/-- Word of `SCH_FTBASE_HI`. -/
abbrev rSchFtbaseHi : Nat := 0x10
/-- Word of `SCH_FTBASE_LO`. -/
abbrev rSchFtbaseLo : Nat := 0x11
/-- Word of `SCH_PMTBASE_HI`. -/
abbrev rSchPmtbaseHi : Nat := 0x12
/-- Word of `SCH_PMTBASE_LO`. -/
abbrev rSchPmtbaseLo : Nat := 0x13
/-- Word of `SCH_PSTBASE_HI`. -/
abbrev rSchPstbaseHi : Nat := 0x14
/-- Word of `SCH_PSTBASE_LO`. -/
abbrev rSchPstbaseLo : Nat := 0x15
/-- Word of `SCH_PPTBASE_HI`. -/
abbrev rSchPptbaseHi : Nat := 0x16
/-- Word of `SCH_PPTBASE_LO`. -/
abbrev rSchPptbaseLo : Nat := 0x17
/-- Word of `SCH_LUFFBASE_HI`. -/
abbrev rSchLuffbaseHi : Nat := 0x18
/-- Word of `SCH_LUFFBASE_LO`. -/
abbrev rSchLuffbaseLo : Nat := 0x19
/-- Word of `SCH_PXTBASE_HI`. -/
abbrev rSchPxtbaseHi : Nat := 0x1a
/-- Word of `SCH_PXTBASE_LO`. -/
abbrev rSchPxtbaseLo : Nat := 0x1b
/-- Word of `SCH_INVCMD`. -/
abbrev rSchInvcmd : Nat := 0x1e
/-- Word of `SCH_INVSTAT`. -/
abbrev rSchInvstat : Nat := 0x1f
/-- Word of `SCH_PSTCMD`. -/
abbrev rSchPstcmd : Nat := 0x20
/-- Word of `SCH_PPTCMD`. -/
abbrev rSchPptcmd : Nat := 0x21
/-- Word of `SCH_PXTCMD`. -/
abbrev rSchPxtcmd : Nat := 0x22
/-- Word of `SCH_NOHOMECNT`. -/
abbrev rSchNohomecnt : Nat := 0x23
/-- Word of `SCH_FLITCNT`. -/
abbrev rSchFlitcnt : Nat := 0x24
/-- Word of `SCH_LNKESC_0`. -/
abbrev rSchLnkesc0 : Nat := 0x25
/-- Word of `SCH_LNKESC_1`. -/
abbrev rSchLnkesc1 : Nat := 0x26
/-- Word of `SCH_NETCNT_CLR`. -/
abbrev rSchNetcntClr : Nat := 0x27
/-- Word of `SCH_FLOWNAKCNT`. -/
abbrev rSchFlownakcnt : Nat := 0x28
/-- Word of `SCH_FLWM`. -/
abbrev rSchFlwm : Nat := 0x29
/-- Word of `SCH_FLXC`. -/
abbrev rSchFlxc : Nat := 0x2a
/-- Word of `SCH_FLCNT_CLR`. -/
abbrev rSchFlcntClr : Nat := 0x2b
/-- Word of `SCH_FLOWOCC`. -/
abbrev rSchFlowocc : Nat := 0x2c
/-- Word of `SCH_ADMCL`. -/
abbrev rSchAdmcl : Nat := 0x30
/-- Word of `SCH_SRHOLDCNT`. -/
abbrev rSchSrholdcnt : Nat := 0x50
/-- Word of `SCH_LUFFDROP`. -/
abbrev rSchLuffdrop : Nat := 0x51
/-- Word of `SCH_PCNT_CLR`. -/
abbrev rSchPcntClr : Nat := 0x52
/-- Word of `SCH_LUFFWPTR`. -/
abbrev rSchLuffwptr : Nat := 0x53
/-- Word of `CLU_STALECNT`. -/
abbrev rCluStalecnt : Nat := 0x10
/-- Word of `CLU_MISADCNT`. -/
abbrev rCluMisadcnt : Nat := 0x11
/-- Word of `CLU_DUPOPCNT`. -/
abbrev rCluDupopcnt : Nat := 0x12
/-- Word of `CLU_ORPHCNT`. -/
abbrev rCluOrphcnt : Nat := 0x13
/-- Word of `CLU_XCNT_CLR`. -/
abbrev rCluXcntClr : Nat := 0x14
/-- Word of `CLU_SPRBASE_HI`. -/
abbrev rCluSprbaseHi : Nat := 0x15
/-- Word of `CLU_SPRBASE_LO`. -/
abbrev rCluSprbaseLo : Nat := 0x16
/-- Word of `CLU_MSOCC`. -/
abbrev rCluMsocc : Nat := 0x17
/-- Word of `CLU_MSEVCNT`. -/
abbrev rCluMsevcnt : Nat := 0x18
/-- Word of `CLU_MSREFCNT`. -/
abbrev rCluMsrefcnt : Nat := 0x19
/-- Word of `CLU_MSDISCNT`. -/
abbrev rCluMsdiscnt : Nat := 0x1a
/-- Word of `CLU_MSCNT_CLR`. -/
abbrev rCluMscntClr : Nat := 0x1b
/-- Word of `CLU_SCHCTL`. -/
abbrev rCluSchctl : Nat := 0x1c
/-- Word of `CLU_RLOCC01`. -/
abbrev rCluRlocc01 : Nat := 0x1d
/-- Word of `CLU_RLOCC23`. -/
abbrev rCluRlocc23 : Nat := 0x1e
/-- Word of `CLU_RLDISCNT`. -/
abbrev rCluRldiscnt : Nat := 0x1f
/-- Word of `CLU_IQWM`. -/
abbrev rCluIqwm : Nat := 0x20
/-- Word of `CLU_RLWM`. -/
abbrev rCluRlwm : Nat := 0x21
/-- Word of `CLU_IQXC`. -/
abbrev rCluIqxc : Nat := 0x22
/-- Word of `CLU_RLXC`. -/
abbrev rCluRlxc : Nat := 0x23
/-- Word of `CLU_SCNT_CLR`. -/
abbrev rCluScntClr : Nat := 0x24
/-- Word of `CLU_DIVCNT`. -/
abbrev rCluDivcnt : Nat := 0x25
/-- Word of `CLU_OPWAIT`. -/
abbrev rCluOpwait : Nat := 0x26
/-- Word of `CLU_SROCC`. -/
abbrev rCluSrocc : Nat := 0x27
/-- Word of `CLU_SRWM`. -/
abbrev rCluSrwm : Nat := 0x28
/-- Word of `CLU_SRXC`. -/
abbrev rCluSrxc : Nat := 0x29
/-- Word of `CLU_PCNT_CLR`. -/
abbrev rCluPcntClr : Nat := 0x2a
/-- Word of `CLU_L1CTL`. -/
abbrev rCluL1ctl : Nat := 0x2b
/-- Word of `CLU_PECTL`. -/
abbrev rCluPectl : Nat := 0x2c
/-- Word of `CLU_PEMAP`. -/
abbrev rCluPemap : Nat := 0x2d
/-- Word of `CLU_PESTAT`. -/
abbrev rCluPestat : Nat := 0x2e
/-- Word of `CEN_STAT`. -/
abbrev rCenStat : Nat := 0x10
/-- Word of `CEN_INBASE_HI`. -/
abbrev rCenInbaseHi : Nat := 0x11
/-- Word of `CEN_INBASE_LO`. -/
abbrev rCenInbaseLo : Nat := 0x12
/-- Word of `CEN_MTCNT`. -/
abbrev rCenMtcnt : Nat := 0x13
/-- Word of `CEN_STCECNT`. -/
abbrev rCenStcecnt : Nat := 0x14
/-- Word of `CEN_HODROP`. -/
abbrev rCenHodrop : Nat := 0x15
/-- Word of `CEN_INSPILL`. -/
abbrev rCenInspill : Nat := 0x16
/-- Word of `CEN_CNT_CLR`. -/
abbrev rCenCntClr : Nat := 0x17
/-- Word of `PWR_STAT`. -/
abbrev rPwrStat : Nat := 0x10
/-- Word of `PWR_VIN`. -/
abbrev rPwrVin : Nat := 0x11
/-- Word of `PWR_TEMP`. -/
abbrev rPwrTemp : Nat := 0x12
/-- Word of `PWR_THERM`. -/
abbrev rPwrTherm : Nat := 0x13
/-- Word of `PWR_REEF`. -/
abbrev rPwrReef : Nat := 0x14
/-- Word of `PWR_MODE`. -/
abbrev rPwrMode : Nat := 0x15
/-- Word of `PWR_PLIM`. -/
abbrev rPwrPlim : Nat := 0x16
/-- Word of `PWR_GATE`. -/
abbrev rPwrGate : Nat := 0x17
/-- Word of `PWR_GATED`. -/
abbrev rPwrGated : Nat := 0x18
/-- Word of `PWR_GATEDE`. -/
abbrev rPwrGatede : Nat := 0x19
/-- Word of `PWR_EVCNT`. -/
abbrev rPwrEvcnt : Nat := 0x1a
/-- Word of `PWR_GATEREJ`. -/
abbrev rPwrGaterej : Nat := 0x1b
/-- Word of `PWR_CNT_CLR`. -/
abbrev rPwrCntClr : Nat := 0x1c
/-- Word of `PWR_RTC_HI`. -/
abbrev rPwrRtcHi : Nat := 0x20
/-- Word of `PWR_RTC_LO`. -/
abbrev rPwrRtcLo : Nat := 0x21
/-- Word of `PWR_TAMPER`. -/
abbrev rPwrTamper : Nat := 0x22
/-- Word of `CLK_STAT`. -/
abbrev rClkStat : Nat := 0x10
/-- Word of `CLK_SPREAD`. -/
abbrev rClkSpread : Nat := 0x11
/-- Word of `CLK_TBSKEW`. -/
abbrev rClkTbskew : Nat := 0x12
/-- Word of `UMB_CFG`. -/
abbrev rUmbCfg : Nat := 0x10
/-- Word of `UMB_OFFSET`. -/
abbrev rUmbOffset : Nat := 0x11
/-- Word of `UMB_CMD`. -/
abbrev rUmbCmd : Nat := 0x12
/-- Word of `UMB_STAT`. -/
abbrev rUmbStat : Nat := 0x13
/-- Word of `UMB_MARGRET`. -/
abbrev rUmbMargret : Nat := 0x14
/-- Word of `UMB_CNT_CLR`. -/
abbrev rUmbCntClr : Nat := 0x15
/-- Word of `UMB_MON`. -/
abbrev rUmbMon : Nat := 0x40
/-- Word of `MST_STARTSTAT`. -/
abbrev rMstStartstat : Nat := 0x10
/-- Word of `MST_SET`. -/
abbrev rMstSet : Nat := 0x11
/-- Word of `MST_VER`. -/
abbrev rMstVer : Nat := 0x12
/-- Word of `MST_SLOTSTAT`. -/
abbrev rMstSlotstat : Nat := 0x17
/-- Word of `MST_BPMAP`. -/
abbrev rMstBpmap : Nat := 0x18
/-- Word of `MST_UPDCMD`. -/
abbrev rMstUpdcmd : Nat := 0x19
/-- Word of `MST_UPDADDR_HI`. -/
abbrev rMstUpdaddrHi : Nat := 0x1a
/-- Word of `MST_UPDADDR_LO`. -/
abbrev rMstUpdaddrLo : Nat := 0x1b
/-- Word of `MST_UPDLEN`. -/
abbrev rMstUpdlen : Nat := 0x1c
/-- Word of `MST_UPDDATA`. -/
abbrev rMstUpddata : Nat := 0x1d
/-- Word of `DBG_CTL`. -/
abbrev rDbgCtl : Nat := 0x10
/-- Word of `FUS_STAT`. -/
abbrev rFusStat : Nat := 0x10
/-- Word of `FUS_PROG`. -/
abbrev rFusProg : Nat := 0x11
/-- Word of `FUS_DIEID_HI`. -/
abbrev rFusDieidHi : Nat := 0x12
/-- Word of `FUS_DIEID_LO`. -/
abbrev rFusDieidLo : Nat := 0x13
/-- Word of `FUS_SVN`. -/
abbrev rFusSvn : Nat := 0x14
/-- Word of `FUS_MLDH`. -/
abbrev rFusMldh : Nat := 0x20
/-- Word of `FUS_ECH`. -/
abbrev rFusEch : Nat := 0x50

/-- The header registers of every block (R559). -/
def rowsHdr : List RegRow :=
  [⟨0x0, 0x0, 0xa101, 0x0, 0x0, 0x0, 0xffe0ffff, false, false⟩,
   ⟨0x1, 0x1, 0x0, 0x80000001, 0x0, 0x6, 0x80000007, false, false⟩,
   ⟨0x2, 0x2, 0x2, 0x0, 0x0, 0x0, 0x7, false, false⟩,
   ⟨0x3, 0x3, 0x0, 0x0, 0x0, 0x0, 0xffffffff, false, false⟩,
   ⟨0x4, 0x4, 0x0, 0x0, 0x0, 0x0, 0x800fffff, false, false⟩]

/-- The registers of the SYS block. -/
def rowsSys : List RegRow :=
  [⟨0x10, 0x10, 0xa100, 0x0, 0x0, 0x0, 0xfffffff0, false, false⟩,
   ⟨0x11, 0x11, 0x0, 0x0, 0x0, 0x0, 0xffff, false, false⟩,
   ⟨0x12, 0x12, 0x0, 0x0, 0x0, 0x0, 0xffffffff, false, false⟩,
   ⟨0x13, 0x13, 0x0, 0x0, 0x0, 0x0, 0xffffffff, false, false⟩,
   ⟨0x14, 0x14, 0x0, 0x0, 0x0, 0x0, 0xffffffff, false, false⟩,
   ⟨0x15, 0x15, 0x0, 0x0, 0x0, 0x0, 0xffffffff, false, false⟩,
   ⟨0x16, 0x16, 0x0, 0x0, 0x0, 0x1, 0x1, false, false⟩]

/-- The registers of the PWR block. -/
def rowsPwr : List RegRow :=
  [⟨0x10, 0x10, 0x0, 0x0, 0x0, 0x0, 0xff030000, false, false⟩,
   ⟨0x11, 0x11, 0x0, 0x0, 0x0, 0x0, 0xffffffff, false, false⟩,
   ⟨0x12, 0x12, 0x100000, 0x0, 0x0, 0x0, 0x1ffff0, false, false⟩,
   ⟨0x13, 0x13, 0x64, 0x0, 0xff, 0x0, 0xff, false, false⟩,
   ⟨0x14, 0x14, 0x22, 0x3, 0x0, 0x0, 0x80000ff3, false, true⟩,
   ⟨0x15, 0x15, 0x0, 0x0, 0xc0000000, 0x0, 0xc0000000, false, true⟩,
   ⟨0x16, 0x16, 0x0, 0xffff, 0x0, 0x0, 0xffff, false, true⟩,
   ⟨0x17, 0x17, 0x0, 0x200003ff, 0x0, 0x80000000, 0xf80003ff, false, false⟩,
   ⟨0x18, 0x18, 0x0, 0x0, 0x0, 0x0, 0xffffffff, false, false⟩,
   ⟨0x19, 0x19, 0x0, 0x0, 0x0, 0x0, 0xf, false, false⟩,
   ⟨0x1a, 0x1a, 0x0, 0x0, 0x0, 0x0, 0xffffffff, false, false⟩,
   ⟨0x1b, 0x1b, 0x0, 0x0, 0x0, 0x0, 0xffffffff, false, false⟩,
   ⟨0x1c, 0x1c, 0x0, 0x0, 0x0, 0x7, 0x7, false, false⟩,
   ⟨0x20, 0x20, 0x0, 0xffff, 0x0, 0x0, 0xffff, true, true⟩,
   ⟨0x21, 0x21, 0x0, 0xffffffff, 0x0, 0x0, 0xffffffff, true, true⟩,
   ⟨0x22, 0x22, 0x0, 0x0, 0x0, 0x1, 0xfffc0001, true, true⟩]

/-- The registers of the CLK block. -/
def rowsClk : List RegRow :=
  [⟨0x10, 0x10, 0x64000, 0x0, 0x0, 0x0, 0xc00ff003, false, false⟩,
   ⟨0x11, 0x11, 0x0, 0x0, 0x3, 0x0, 0x3, false, false⟩,
   ⟨0x12, 0x12, 0x0, 0x0, 0x0, 0x0, 0xffff, false, false⟩]

/-- The registers of the UMB block. -/
def rowsUmb : List RegRow :=
  [⟨0x10, 0x10, 0x64021000, 0x0, 0xffffff00, 0x0, 0xffffff00, false, false⟩,
   ⟨0x11, 0x11, 0x0, 0x0, 0x0, 0x0, 0xfffff, false, false⟩,
   ⟨0x12, 0x12, 0x0, 0x30000000, 0x0, 0x80000000, 0xf0000000, true, false⟩,
   ⟨0x13, 0x13, 0x0, 0x0, 0x0, 0x0, 0xffffff80, false, false⟩,
   ⟨0x14, 0x14, 0x0, 0x0, 0x0, 0x0, 0xffffffff, false, false⟩,
   ⟨0x15, 0x15, 0x0, 0x0, 0x0, 0x1, 0x1, false, false⟩,
   ⟨0x40, 0x7f, 0x0, 0x0, 0x0, 0x0, 0xffffffff, false, false⟩]

/-- The registers of the MDR block. -/
def rowsMdr : List RegRow :=
  [⟨0x10, 0x10, 0x0, 0x0, 0x0, 0x0, 0xffffffff, false, false⟩,
   ⟨0x11, 0x11, 0x0, 0x3ff, 0x0, 0x80000000, 0x800003ff, false, false⟩,
   ⟨0x12, 0x12, 0x0, 0x0, 0x0, 0x0, 0x800007ff, false, false⟩,
   ⟨0x13, 0x13, 0x2, 0x80000003, 0x0, 0x0, 0xe0000003, false, true⟩,
   ⟨0x14, 0x14, 0x22006400, 0x0, 0xffffff00, 0x0, 0xffffff00, false, false⟩,
   ⟨0x15, 0x15, 0x0, 0x0, 0x0, 0x0, 0xffffffff, false, false⟩,
   ⟨0x16, 0x16, 0x0, 0x0, 0x0, 0x0, 0xffffffff, false, false⟩,
   ⟨0x17, 0x17, 0x0, 0x0, 0x0, 0x0, 0xffffffff, false, false⟩,
   ⟨0x18, 0x18, 0x0, 0x0, 0x0, 0x0, 0xffffffff, false, false⟩,
   ⟨0x19, 0x19, 0x0, 0x0, 0x0, 0xf, 0xf, false, false⟩,
   ⟨0x1a, 0x1a, 0x76543210, 0x0, 0x0, 0x0, 0xffffffff, false, false⟩,
   ⟨0x1b, 0x1b, 0x10000, 0x0, 0x0, 0x0, 0x3ffff, false, false⟩,
   ⟨0x1c, 0x1c, 0x0, 0x7, 0x0, 0x80000000, 0xc0000007, false, false⟩,
   ⟨0x1d, 0x1d, 0x0, 0x0, 0x0, 0x0, 0xffff, false, true⟩,
   ⟨0x1e, 0x1e, 0x0, 0x7, 0x0, 0x80000000, 0x80000007, true, true⟩,
   ⟨0x1f, 0x1f, 0x0, 0x3fffffff, 0x0, 0x80000000, 0xffffffff, true, false⟩,
   ⟨0x20, 0x20, 0x0, 0xffff0000, 0x0, 0x0, 0xffff0003, true, false⟩,
   ⟨0x4000, 0x7fff, 0x0, 0x0, 0x0, 0x0, 0xffffffff, false, false⟩]

/-- The registers of the EVC block. -/
def rowsEvc : List RegRow :=
  [⟨0x10, 0x10, 0x0, 0xfff, 0x0, 0x80000000, 0x80000fff, false, false⟩,
   ⟨0x11, 0x11, 0x0, 0xfff, 0x0, 0x80000000, 0x80000fff, false, false⟩,
   ⟨0x12, 0x12, 0x0, 0xff, 0x0, 0x0, 0xff, false, false⟩,
   ⟨0x13, 0x13, 0x0, 0x0, 0x0, 0x0, 0xffffffff, false, false⟩,
   ⟨0x14, 0x14, 0x0, 0x0, 0x0, 0x0, 0xffffffff, false, false⟩,
   ⟨0x15, 0x15, 0x0, 0x0, 0x0, 0x0, 0xffffffff, false, false⟩,
   ⟨0x16, 0x16, 0x0, 0x0, 0x0, 0x7, 0x7, false, false⟩,
   ⟨0x100, 0x17f, 0x0, 0xffffffff, 0x0, 0x0, 0xffffffff, true, false⟩,
   ⟨0x1000, 0x1fff, 0x203f0000, 0xf0000000, 0x0, 0x0, 0xf3ff0000, false, false⟩,
   ⟨0x2000, 0x2fff, 0x0, 0xffffffff, 0x0, 0x0, 0xffffffff, false, false⟩,
   ⟨0x3000, 0x3fff, 0x0, 0xffffffff, 0x0, 0x0, 0xffffffff, false, false⟩]

/-- The registers of the MST block. -/
def rowsMst : List RegRow :=
  [⟨0x10, 0x10, 0x1, 0x0, 0x0, 0x0, 0x7f00f, false, false⟩,
   ⟨0x11, 0x11, 0x0, 0x0, 0x0, 0x0, 0x8000003f, false, false⟩,
   ⟨0x12, 0x16, 0x0, 0x0, 0x0, 0x0, 0xffffffff, false, false⟩,
   ⟨0x17, 0x17, 0x0, 0x0, 0x0, 0x0, 0xfffff, false, false⟩,
   ⟨0x18, 0x18, 0x0, 0x0, 0x0, 0x0, 0xffffffff, false, false⟩,
   ⟨0x19, 0x19, 0x0, 0x3800007f, 0x0, 0x80000000, 0xfff8007f, true, false⟩,
   ⟨0x1a, 0x1a, 0x0, 0x1ffff, 0x0, 0x0, 0x1ffff, true, false⟩,
   ⟨0x1b, 0x1b, 0x0, 0xffffffff, 0x0, 0x0, 0xffffffff, true, false⟩,
   ⟨0x1c, 0x1c, 0x0, 0xffffffff, 0x0, 0x0, 0xffffffff, true, false⟩,
   ⟨0x1d, 0x1d, 0x0, 0xffffffff, 0x0, 0x0, 0xffffffff, true, false⟩]

/-- The registers of the PRT block. -/
def rowsPrt : List RegRow :=
  [⟨0x10, 0x10, 0x0, 0x0, 0x1ffff, 0x0, 0x1ffff, false, false⟩,
   ⟨0x11, 0x11, 0x0, 0x0, 0xffffe000, 0x0, 0xffffe000, false, false⟩,
   ⟨0x12, 0x12, 0x0, 0x0, 0x1ffff, 0x0, 0x1ffff, false, true⟩,
   ⟨0x13, 0x13, 0x0, 0x0, 0xffffe000, 0x0, 0xffffe000, false, true⟩,
   ⟨0x14, 0x14, 0x0, 0x0, 0x0, 0x0, 0xffffffff, false, false⟩,
   ⟨0x15, 0x15, 0x0, 0x0, 0x0, 0x1, 0x1, false, false⟩,
   ⟨0x400, 0x7ff, 0x0, 0x0, 0x0, 0xf0000000, 0xf0000003, false, true⟩,
   ⟨0x800, 0xbff, 0x0, 0x0, 0x0, 0xa0000000, 0xa0000000, false, true⟩,
   ⟨0x4000, 0x7fff, 0x0, 0xffffffff, 0x0, 0x0, 0xffffffff, false, true⟩,
   ⟨0x8000, 0xbfff, 0x0, 0xffffffff, 0x0, 0x0, 0xffffffff, false, true⟩]

/-- The registers of the XLT block. -/
def rowsXlt : List RegRow :=
  [⟨0x10, 0x10, 0x0, 0x0, 0x1ffff, 0x0, 0x1ffff, true, false⟩,
   ⟨0x11, 0x11, 0x0, 0x0, 0xffffe000, 0x0, 0xffffe000, true, false⟩,
   ⟨0x12, 0x12, 0x0, 0x0, 0xffffffff, 0x0, 0xffffffff, true, false⟩]

/-- The registers of the MEM block. -/
def rowsMem : List RegRow :=
  [⟨0x10, 0x10, 0x80000018, 0x0, 0x800000ff, 0x0, 0x800000ff, false, false⟩,
   ⟨0x11, 0x13, 0x0, 0x0, 0x0, 0x0, 0xffffffff, false, false⟩,
   ⟨0x14, 0x16, 0x0, 0x0, 0x0, 0x0, 0xffffffff, false, false⟩,
   ⟨0x17, 0x17, 0x0, 0x0, 0x0, 0x3f, 0x3f, false, false⟩]

/-- The registers of the COH block. -/
def rowsCoh : List RegRow :=
  [⟨0x10, 0x10, 0x200, 0x0, 0xffff, 0x0, 0xffff, false, false⟩,
   ⟨0x11, 0x11, 0x0, 0x0, 0x3, 0x0, 0x3, false, false⟩,
   ⟨0x12, 0x12, 0x0, 0x1, 0x0, 0x0, 0x1, true, false⟩,
   ⟨0x13, 0x13, 0x0, 0x0, 0x0, 0x0, 0xffffffff, false, false⟩,
   ⟨0x14, 0x14, 0x0, 0x0, 0x0, 0x0, 0xffffffff, false, false⟩,
   ⟨0x15, 0x15, 0x0, 0x0, 0x0, 0x0, 0xffffffff, false, false⟩,
   ⟨0x16, 0x16, 0x0, 0x0, 0x0, 0x0, 0xffffffff, false, false⟩,
   ⟨0x17, 0x17, 0x0, 0x0, 0x0, 0x0, 0xffffffff, false, false⟩,
   ⟨0x18, 0x18, 0x0, 0x0, 0x0, 0x0, 0xffffffff, false, false⟩,
   ⟨0x19, 0x19, 0x0, 0x0, 0x0, 0x3f, 0x3f, false, false⟩]

/-- The registers of the CHN block. -/
def rowsChn : List RegRow :=
  [⟨0x10, 0x10, 0x0, 0x0, 0x1ffff, 0x0, 0x1ffff, false, false⟩,
   ⟨0x11, 0x11, 0x0, 0x0, 0xfffffff0, 0x0, 0xfffffff0, false, false⟩,
   ⟨0x12, 0x12, 0x0, 0x0, 0x1ffff, 0x0, 0x1ffff, false, false⟩,
   ⟨0x13, 0x13, 0x0, 0x0, 0xfffffff0, 0x0, 0xfffffff0, false, false⟩,
   ⟨0x14, 0x14, 0x0, 0x0, 0x1ffff, 0x0, 0x1ffff, false, false⟩,
   ⟨0x15, 0x15, 0x0, 0x0, 0xfffffff0, 0x0, 0xfffffff0, false, false⟩,
   ⟨0x16, 0x16, 0x0, 0x0, 0x1ffffff, 0x0, 0x1ffffff, false, false⟩,
   ⟨0x17, 0x17, 0x0, 0x0, 0x1ffffff, 0x0, 0x1ffffff, false, false⟩,
   ⟨0x18, 0x18, 0x0, 0x0, 0xf800ffff, 0x0, 0xf800ffff, false, false⟩,
   ⟨0x19, 0x19, 0x0, 0x0, 0xffffffff, 0x0, 0xffffffff, false, false⟩,
   ⟨0x1a, 0x1a, 0x0, 0x0, 0xffffffff, 0x0, 0xffffffff, false, false⟩,
   ⟨0x1b, 0x1b, 0xa0000005, 0x0, 0xf80000ff, 0x0, 0xf80000ff, false, false⟩,
   ⟨0x1c, 0x1c, 0x0, 0x0, 0xfff, 0x0, 0xfff, true, false⟩,
   ⟨0x1d, 0x1d, 0x76543210, 0xffffffff, 0x0, 0x0, 0xffffffff, false, false⟩,
   ⟨0x1e, 0x1e, 0xfedcba98, 0xffffffff, 0x0, 0x0, 0xffffffff, false, false⟩,
   ⟨0x1f, 0x1f, 0x76543210, 0xffffffff, 0x0, 0x0, 0xffffffff, false, false⟩,
   ⟨0x20, 0x20, 0xfedcba98, 0xffffffff, 0x0, 0x0, 0xffffffff, false, false⟩,
   ⟨0x21, 0x21, 0xfedcba98, 0xffffffff, 0x0, 0x0, 0xffffffff, false, false⟩,
   ⟨0x22, 0x22, 0x1388, 0x0, 0xffff, 0x0, 0xffff, false, false⟩,
   ⟨0x23, 0x23, 0x10400, 0x0, 0x7f07ff, 0x0, 0x7f07ff, false, false⟩] ++
  [⟨0x24, 0x24, 0x40, 0x0, 0xffff, 0x0, 0xffff, false, false⟩,
   ⟨0x25, 0x25, 0x0, 0x0, 0x0, 0x0, 0xc000ffff, false, false⟩,
   ⟨0x26, 0x26, 0x0, 0x0, 0x0, 0x0, 0x1fffffff, false, false⟩,
   ⟨0x27, 0x27, 0x0, 0x0, 0x0, 0x0, 0x1fffffff, false, false⟩,
   ⟨0x28, 0x28, 0xffff0000, 0xffffffff, 0x0, 0x0, 0xffffffff, false, false⟩,
   ⟨0x29, 0x29, 0xffff0000, 0xffffffff, 0x0, 0x0, 0xffffffff, false, false⟩,
   ⟨0x2a, 0x2a, 0x0, 0x0, 0x0, 0x0, 0xffffffff, false, false⟩,
   ⟨0x2b, 0x2b, 0x0, 0x0, 0x0, 0x0, 0xffffffff, false, false⟩,
   ⟨0x2c, 0x2c, 0x0, 0x0, 0x0, 0x0, 0xffffffff, false, false⟩,
   ⟨0x2d, 0x2d, 0x0, 0x0, 0x0, 0x0, 0xffffffff, false, false⟩,
   ⟨0x2e, 0x2e, 0x0, 0x0, 0x0, 0x0, 0xffffffff, false, false⟩,
   ⟨0x2f, 0x2f, 0x0, 0x0, 0x0, 0x0, 0xffffffff, false, true⟩,
   ⟨0x30, 0x30, 0x0, 0x0, 0x0, 0x80000000, 0x80000000, false, true⟩,
   ⟨0x31, 0x31, 0x0, 0x0, 0x0, 0x1f, 0x1f, false, false⟩,
   ⟨0x32, 0x32, 0x0, 0x0, 0x1ffff, 0x0, 0x1ffff, true, true⟩,
   ⟨0x33, 0x33, 0x0, 0x0, 0xfffffff0, 0x0, 0xfffffff0, true, true⟩,
   ⟨0x34, 0x34, 0x0, 0x20000000, 0x0, 0x80000000, 0xfc000000, true, true⟩,
   ⟨0x35, 0x38, 0x0, 0x0, 0x0, 0x0, 0xffffffff, false, true⟩]

/-- The registers of the HXP block. -/
def rowsHxp : List RegRow :=
  [⟨0x10, 0x10, 0x0, 0x0, 0x1ffff, 0x0, 0x1ffff, false, false⟩,
   ⟨0x11, 0x11, 0x0, 0x0, 0xfffffff0, 0x0, 0xfffffff0, false, false⟩,
   ⟨0x12, 0x12, 0x0, 0x0, 0x1ffff, 0x0, 0x1ffff, false, false⟩,
   ⟨0x13, 0x13, 0x0, 0x0, 0xfffffff0, 0x0, 0xfffffff0, false, false⟩,
   ⟨0x14, 0x14, 0x0, 0x0, 0x1ffff, 0x0, 0x1ffff, false, false⟩,
   ⟨0x15, 0x15, 0x0, 0x0, 0xfffffff0, 0x0, 0xfffffff0, false, false⟩,
   ⟨0x16, 0x16, 0xb8000000, 0x0, 0xffffff80, 0x0, 0xffffff80, false, false⟩,
   ⟨0x17, 0x17, 0x28, 0x0, 0xff, 0x0, 0xff, false, false⟩,
   ⟨0x18, 0x18, 0x0, 0x0, 0xfff, 0x0, 0xfff, true, false⟩,
   ⟨0x19, 0x19, 0x0, 0x3000ffff, 0x0, 0x80000000, 0xf000ffff, false, false⟩,
   ⟨0x1a, 0x1a, 0x0, 0x0, 0xffc00000, 0x0, 0xffc0000f, false, false⟩,
   ⟨0x1b, 0x1b, 0x0, 0x0, 0xffff, 0x0, 0xffff, false, false⟩,
   ⟨0x1c, 0x1c, 0x0, 0x0, 0xffffffff, 0x0, 0xffffffff, false, false⟩,
   ⟨0x1d, 0x1d, 0x0, 0x0, 0xffff, 0x0, 0xffff, false, false⟩,
   ⟨0x1e, 0x1e, 0x0, 0x0, 0xffffffff, 0x0, 0xffffffff, false, false⟩,
   ⟨0x1f, 0x1f, 0x0, 0x0, 0xffff, 0x0, 0xffff, false, false⟩,
   ⟨0x20, 0x20, 0x0, 0x0, 0xffffffff, 0x0, 0xffffffff, false, false⟩,
   ⟨0x21, 0x21, 0x0, 0x0, 0xffff, 0x0, 0xffff, false, false⟩,
   ⟨0x22, 0x22, 0x0, 0x0, 0xffffffff, 0x0, 0xffffffff, false, false⟩,
   ⟨0x23, 0x23, 0x40000000, 0x0, 0xf0000000, 0x0, 0xf0000000, false, false⟩] ++
  [⟨0x24, 0x24, 0x0, 0x3fff0003, 0x0, 0x80000000, 0xffff0003, false, false⟩,
   ⟨0x25, 0x25, 0x0, 0x0, 0x0, 0x0, 0xffffffff, false, false⟩,
   ⟨0x26, 0x26, 0x0, 0x0, 0x0, 0x0, 0xffffffff, false, false⟩,
   ⟨0x27, 0x27, 0x0, 0x0, 0x0, 0x0, 0xffffffff, false, false⟩,
   ⟨0x28, 0x28, 0x0, 0x0, 0x0, 0x0, 0xffffffff, false, false⟩,
   ⟨0x29, 0x29, 0x0, 0x0, 0x0, 0x0, 0xffffffff, false, false⟩,
   ⟨0x2a, 0x2a, 0x0, 0x0, 0x0, 0x0, 0xffffffff, false, false⟩,
   ⟨0x2b, 0x2b, 0x0, 0x0, 0x0, 0x0, 0xffffffff, false, false⟩,
   ⟨0x2c, 0x2c, 0x0, 0x0, 0x0, 0x0, 0xffffffff, false, false⟩,
   ⟨0x2d, 0x2d, 0x0, 0x0, 0x0, 0x0, 0xffffffff, false, false⟩,
   ⟨0x2e, 0x2e, 0x0, 0x0, 0x0, 0x1ff, 0x1ff, false, false⟩]

/-- The registers of the FRL block. -/
def rowsFrl : List RegRow :=
  [⟨0x10, 0x10, 0x0, 0x0, 0x1ffff, 0x0, 0x1ffff, false, false⟩,
   ⟨0x11, 0x11, 0x0, 0x0, 0xfffffff0, 0x0, 0xfffffff0, false, false⟩,
   ⟨0x12, 0x12, 0x0, 0x0, 0x1ffff, 0x0, 0x1ffff, false, false⟩,
   ⟨0x13, 0x13, 0x0, 0x0, 0xfffffff0, 0x0, 0xfffffff0, false, false⟩,
   ⟨0x14, 0x14, 0x0, 0x3ff, 0x0, 0x80000000, 0xc00003ff, false, false⟩,
   ⟨0x15, 0x15, 0x0, 0x0, 0x0, 0x0, 0x7fe03, false, false⟩,
   ⟨0x16, 0x16, 0x0, 0x0, 0x0, 0x0, 0xffffffff, false, false⟩,
   ⟨0x17, 0x17, 0x0, 0x0, 0x0, 0x0, 0xffffffff, false, false⟩,
   ⟨0x18, 0x18, 0x0, 0x0, 0x0, 0x7, 0x7, false, false⟩]

/-- The registers of the WAD block. -/
def rowsWad : List RegRow :=
  [⟨0x10, 0x10, 0x0, 0x0, 0x1ffff, 0x0, 0x1ffff, false, false⟩,
   ⟨0x11, 0x11, 0x0, 0x0, 0xfffffff0, 0x0, 0xfffffff0, false, false⟩,
   ⟨0x12, 0x12, 0x0, 0x0, 0x0, 0x0, 0x7fe03, false, false⟩,
   ⟨0x13, 0x13, 0x0, 0x0, 0x0, 0x0, 0xffffffff, false, false⟩,
   ⟨0x14, 0x14, 0x0, 0x0, 0x0, 0x0, 0xffffffff, false, false⟩,
   ⟨0x15, 0x15, 0x0, 0x0, 0x0, 0x0, 0xffffffff, false, false⟩,
   ⟨0x16, 0x16, 0x0, 0x0, 0x0, 0x7, 0x7, false, false⟩,
   ⟨0x17, 0x17, 0x0, 0x38ffffff, 0x0, 0x80000000, 0xffffffff, true, true⟩,
   ⟨0x18, 0x18, 0x100000, 0xffff8000, 0x0, 0x0, 0xffff8000, true, true⟩,
   ⟨0x19, 0x19, 0x0, 0x1ffff, 0x0, 0x0, 0x1ffff, true, true⟩,
   ⟨0x1a, 0x1a, 0x0, 0xffffffff, 0x0, 0x0, 0xffffffff, true, true⟩]

/-- The registers of the RTL block. -/
def rowsRtl : List RegRow :=
  [⟨0x10, 0x10, 0x0, 0x0, 0x1ffff, 0x0, 0x1ffff, false, false⟩,
   ⟨0x11, 0x11, 0x0, 0x0, 0xfffffff0, 0x0, 0xfffffff0, false, false⟩,
   ⟨0x12, 0x12, 0x283ffe00, 0x0, 0xfffffe00, 0x0, 0xfffffe00, false, false⟩,
   ⟨0x13, 0x13, 0x0, 0x0, 0x3ff03ff, 0x0, 0x3ff03ff, false, false⟩,
   ⟨0x14, 0x14, 0xffffffff, 0x0, 0xffffffff, 0x0, 0xffffffff, false, false⟩,
   ⟨0x15, 0x15, 0x0, 0x0, 0xffffffff, 0x0, 0xffffffff, false, false⟩,
   ⟨0x16, 0x16, 0x0, 0x0, 0x0, 0x0, 0x3, false, false⟩,
   ⟨0x17, 0x17, 0x0, 0x0, 0x0, 0x0, 0xffffffff, false, false⟩]

/-- The registers of the SCH block. -/
def rowsSch : List RegRow :=
  [⟨0x10, 0x10, 0x0, 0x0, 0x1ffff, 0x0, 0x1ffff, false, false⟩,
   ⟨0x11, 0x11, 0x0, 0x0, 0xf8000000, 0x0, 0xf8000000, false, false⟩,
   ⟨0x12, 0x12, 0x0, 0x0, 0x1ffff, 0x0, 0x1ffff, false, false⟩,
   ⟨0x13, 0x13, 0x0, 0x0, 0xfffff800, 0x0, 0xfffff800, false, false⟩,
   ⟨0x14, 0x14, 0x0, 0x0, 0x1ffff, 0x0, 0x1ffff, false, false⟩,
   ⟨0x15, 0x15, 0x0, 0x0, 0xfffff800, 0x0, 0xfffff800, false, false⟩,
   ⟨0x16, 0x16, 0x0, 0x0, 0x1ffff, 0x0, 0x1ffff, false, false⟩,
   ⟨0x17, 0x17, 0x0, 0x0, 0xffffe000, 0x0, 0xffffe000, false, false⟩,
   ⟨0x18, 0x18, 0x0, 0x0, 0x1ffff, 0x0, 0x1ffff, false, true⟩,
   ⟨0x19, 0x19, 0x0, 0x0, 0xfffff800, 0x0, 0xfffff800, false, true⟩,
   ⟨0x1a, 0x1a, 0x0, 0x0, 0x1ffff, 0x0, 0x1ffff, false, false⟩,
   ⟨0x1b, 0x1b, 0x0, 0x0, 0xffffe000, 0x0, 0xffffe000, false, false⟩,
   ⟨0x1e, 0x1e, 0x0, 0x3ff, 0x0, 0xc0000000, 0xc00003ff, false, false⟩,
   ⟨0x1f, 0x1f, 0x0, 0x0, 0x0, 0x0, 0x3, false, false⟩,
   ⟨0x20, 0x20, 0x0, 0x3ff, 0x0, 0x80000000, 0xc00003ff, false, false⟩,
   ⟨0x21, 0x21, 0x0, 0x3ff, 0x0, 0x80000000, 0xc00003ff, false, false⟩,
   ⟨0x22, 0x22, 0x0, 0x300003ff, 0x0, 0x80000000, 0xfe0003ff, false, false⟩,
   ⟨0x23, 0x23, 0x0, 0x0, 0x0, 0x0, 0xffffffff, false, false⟩,
   ⟨0x24, 0x24, 0x0, 0x0, 0x0, 0x0, 0xffffffff, false, false⟩,
   ⟨0x25, 0x25, 0x0, 0x0, 0x0, 0x0, 0xffffffff, false, false⟩] ++
  [⟨0x26, 0x26, 0x0, 0x0, 0x0, 0x0, 0xffffffff, false, false⟩,
   ⟨0x27, 0x27, 0x0, 0x0, 0x0, 0xf, 0xf, false, false⟩,
   ⟨0x28, 0x28, 0x0, 0x0, 0x0, 0x0, 0xffffffff, false, false⟩,
   ⟨0x29, 0x29, 0xffff0000, 0xffffffff, 0x0, 0x0, 0xffffffff, false, false⟩,
   ⟨0x2a, 0x2a, 0x0, 0x0, 0x0, 0x0, 0xffffffff, false, false⟩,
   ⟨0x2b, 0x2b, 0x0, 0x0, 0x0, 0x3, 0x3, false, false⟩,
   ⟨0x2c, 0x2c, 0x0, 0x0, 0x0, 0x0, 0x1fff, false, false⟩,
   ⟨0x30, 0x4f, 0x0, 0x0, 0x0, 0x0, 0xffffffff, false, false⟩,
   ⟨0x50, 0x50, 0x0, 0x0, 0x0, 0x0, 0xffffffff, false, false⟩,
   ⟨0x51, 0x51, 0x0, 0x0, 0x0, 0x0, 0xffffffff, false, true⟩,
   ⟨0x52, 0x52, 0x0, 0x0, 0x0, 0x3, 0x3, false, false⟩,
   ⟨0x53, 0x53, 0x0, 0x0, 0xffffffff, 0x0, 0xffffffff, false, true⟩]

/-- The registers of the CLU block. -/
def rowsClu : List RegRow :=
  [⟨0x10, 0x10, 0x0, 0x0, 0x0, 0x0, 0xffffffff, false, false⟩,
   ⟨0x11, 0x11, 0x0, 0x0, 0x0, 0x0, 0xffffffff, false, false⟩,
   ⟨0x12, 0x12, 0x0, 0x0, 0x0, 0x0, 0xffffffff, false, false⟩,
   ⟨0x13, 0x13, 0x0, 0x0, 0x0, 0x0, 0xffffffff, false, false⟩,
   ⟨0x14, 0x14, 0x0, 0x0, 0x0, 0xf, 0xf, false, false⟩,
   ⟨0x15, 0x15, 0x0, 0x0, 0x1ffff, 0x0, 0x1ffff, false, false⟩,
   ⟨0x16, 0x16, 0x0, 0x0, 0xfffffff0, 0x0, 0xfffffff0, false, false⟩,
   ⟨0x17, 0x17, 0x0, 0x0, 0x0, 0x0, 0x7fff, false, false⟩,
   ⟨0x18, 0x18, 0x0, 0x0, 0x0, 0x0, 0xffffffff, false, false⟩,
   ⟨0x19, 0x19, 0x0, 0x0, 0x0, 0x0, 0xffffffff, false, false⟩,
   ⟨0x1a, 0x1a, 0x0, 0x0, 0x0, 0x0, 0xffffffff, false, false⟩,
   ⟨0x1b, 0x1b, 0x0, 0x0, 0x0, 0x7, 0x7, false, false⟩,
   ⟨0x1c, 0x1c, 0x0, 0x0, 0x83ff0000, 0x0, 0x83ff0000, false, false⟩,
   ⟨0x1d, 0x1d, 0x0, 0x0, 0x0, 0x0, 0x1ff01ff, false, false⟩,
   ⟨0x1e, 0x1e, 0x0, 0x0, 0x0, 0x0, 0x1ff01ff, false, false⟩,
   ⟨0x1f, 0x1f, 0x0, 0x0, 0x0, 0x0, 0xffffffff, false, false⟩,
   ⟨0x20, 0x20, 0xffff0000, 0xffffffff, 0x0, 0x0, 0xffffffff, false, false⟩,
   ⟨0x21, 0x21, 0xffff0000, 0xffffffff, 0x0, 0x0, 0xffffffff, false, false⟩,
   ⟨0x22, 0x22, 0x0, 0x0, 0x0, 0x0, 0xffffffff, false, false⟩,
   ⟨0x23, 0x23, 0x0, 0x0, 0x0, 0x0, 0xffffffff, false, false⟩] ++
  [⟨0x24, 0x24, 0x0, 0x0, 0x0, 0x7, 0x7, false, false⟩,
   ⟨0x25, 0x25, 0x0, 0x0, 0x0, 0x0, 0xffffffff, false, false⟩,
   ⟨0x26, 0x26, 0x0, 0x0, 0x0, 0x0, 0xffffffff, false, false⟩,
   ⟨0x27, 0x27, 0x0, 0x0, 0x0, 0x0, 0x1fffff, false, false⟩,
   ⟨0x28, 0x28, 0xffff0000, 0xffffffff, 0x0, 0x0, 0xffffffff, false, false⟩,
   ⟨0x29, 0x29, 0x0, 0x0, 0x0, 0x0, 0xffffffff, false, false⟩,
   ⟨0x2a, 0x2a, 0x0, 0x0, 0x0, 0x7, 0x7, false, false⟩,
   ⟨0x2b, 0x2b, 0x1ff, 0x0, 0x71ff, 0x80000000, 0xc00071ff, false, false⟩,
   ⟨0x2c, 0x2c, 0xf, 0x0, 0x80000000, 0x0, 0x8000000f, false, false⟩,
   ⟨0x2d, 0x2d, 0x76543210, 0x0, 0x0, 0x0, 0xffffffff, false, false⟩,
   ⟨0x2e, 0x2e, 0x10000, 0x0, 0x0, 0x0, 0x3ffff, false, false⟩]

/-- The registers of the CEN block. -/
def rowsCen : List RegRow :=
  [⟨0x10, 0x10, 0x0, 0x0, 0x0, 0x0, 0xc01f07ff, false, false⟩,
   ⟨0x11, 0x11, 0x0, 0x0, 0x1ffff, 0x0, 0x1ffff, false, false⟩,
   ⟨0x12, 0x12, 0x0, 0x0, 0xfffffffc, 0x0, 0xfffffffc, false, false⟩,
   ⟨0x13, 0x13, 0x0, 0x0, 0x0, 0x0, 0xffffffff, false, false⟩,
   ⟨0x14, 0x14, 0x0, 0x0, 0x0, 0x0, 0xffffffff, false, false⟩,
   ⟨0x15, 0x15, 0x0, 0x0, 0x0, 0x0, 0xffffffff, false, false⟩,
   ⟨0x16, 0x16, 0x0, 0x0, 0x0, 0x0, 0xffffffff, false, false⟩,
   ⟨0x17, 0x17, 0x0, 0x0, 0x0, 0xf, 0xf, false, false⟩]

/-- The registers of the DBG block. -/
def rowsDbg : List RegRow :=
  [⟨0x10, 0x10, 0x1, 0x1, 0x0, 0x0, 0x80000001, true, false⟩]

/-- The registers of the FUS block. -/
def rowsFus : List RegRow :=
  [⟨0x10, 0x10, 0x0, 0x0, 0x0, 0x0, 0x80000f0f, true, false⟩,
   ⟨0x11, 0x11, 0x0, 0xf07, 0x0, 0xc0000000, 0xf0000f07, true, false⟩,
   ⟨0x12, 0x12, 0x0, 0x0, 0x0, 0x0, 0xffffffff, true, false⟩,
   ⟨0x13, 0x13, 0x0, 0x0, 0x0, 0x0, 0xffffffff, true, false⟩,
   ⟨0x14, 0x18, 0x0, 0x0, 0x0, 0x0, 0xffffffff, true, false⟩,
   ⟨0x20, 0x4f, 0x0, 0x0, 0x0, 0x0, 0xffffffff, true, false⟩,
   ⟨0x50, 0x7f, 0x0, 0x0, 0x0, 0x0, 0xffffffff, true, false⟩]

/-- The registers of a block of kind `k` after its header. -/
def blkRows : BlkKind → List RegRow
  | .sys => rowsSys
  | .pwr => rowsPwr
  | .clk => rowsClk
  | .umb => rowsUmb
  | .mdr => rowsMdr
  | .evc => rowsEvc
  | .mst => rowsMst
  | .prt => rowsPrt
  | .xlt => rowsXlt
  | .mem => rowsMem
  | .coh => rowsCoh
  | .chn => rowsChn
  | .hxp => rowsHxp
  | .frl => rowsFrl
  | .wad => rowsWad
  | .rtl => rowsRtl
  | .sch => rowsSch
  | .clu => rowsClu
  | .cen => rowsCen
  | .dbg => rowsDbg
  | .fus => rowsFus

/-- The counter-clear bits (R84): register word, bit, and the word and mask each one clears. -/
def clearRows : BlkKind → List (Nat × Nat × Nat × Nat)
  | .sys => [(0x16, 0, 0x12, 0xffffffff), (0x16, 0, 0x13, 0xffffffff)]
  | .pwr => [(0x1c, 2, 0x1b, 0xffffffff), (0x1c, 1, 0x1a, 0xffff), (0x1c, 0, 0x1a, 0xffff0000)]
  | .clk => []
  | .umb => [(0x15, 0, 0x14, 0xffffffff)]
  | .mdr => [(0x19, 3, 0x18, 0xffffffff), (0x19, 2, 0x17, 0xffffffff), (0x19, 1, 0x16, 0xffffffff), (0x19, 0, 0x15, 0xffffffff)]
  | .evc => [(0x16, 2, 0x15, 0xffffffff), (0x16, 1, 0x14, 0xffffffff), (0x16, 0, 0x13, 0xffffffff)]
  | .mst => []
  | .prt => [(0x15, 0, 0x14, 0xffffffff)]
  | .xlt => []
  | .mem => [(0x17, 3, 0x14, 0xffffffff), (0x17, 4, 0x15, 0xffffffff), (0x17, 5, 0x16, 0xffffffff), (0x17, 0, 0x11, 0xffffffff), (0x17, 1, 0x12, 0xffffffff), (0x17, 2, 0x13, 0xffffffff)]
  | .coh => [(0x19, 5, 0x18, 0xffffffff), (0x19, 4, 0x17, 0xffffffff), (0x19, 3, 0x16, 0xffffffff), (0x19, 2, 0x15, 0xffffffff), (0x19, 1, 0x14, 0xffffffff), (0x19, 0, 0x13, 0xffffffff)]
  | .chn => [(0x31, 4, 0x2b, 0xffffffff), (0x31, 3, 0x2a, 0xffffffff), (0x31, 2, 0x2e, 0xffffffff), (0x31, 1, 0x2d, 0xffffffff), (0x31, 0, 0x2c, 0xffffffff)]
  | .hxp => [(0x2e, 0, 0x25, 0xffffffff), (0x2e, 1, 0x26, 0xffffffff), (0x2e, 2, 0x27, 0xffffffff), (0x2e, 3, 0x28, 0xffffffff), (0x2e, 4, 0x29, 0xffffffff), (0x2e, 5, 0x2a, 0xffffffff), (0x2e, 6, 0x2b, 0xffffffff), (0x2e, 7, 0x2c, 0xffffffff), (0x2e, 8, 0x2d, 0xffffffff)]
  | .frl => [(0x18, 1, 0x17, 0xffffffff), (0x18, 0, 0x16, 0xffffffff)]
  | .wad => [(0x16, 2, 0x15, 0xffffffff), (0x16, 1, 0x14, 0xffffffff), (0x16, 0, 0x13, 0xffffffff)]
  | .rtl => []
  | .sch => [(0x27, 3, 0x25, 0xffffffff), (0x27, 3, 0x26, 0xffffffff), (0x27, 2, 0x23, 0xffffffff), (0x27, 1, 0x24, 0xffff0000), (0x27, 0, 0x24, 0xffff), (0x2b, 1, 0x2a, 0xffffffff), (0x2b, 0, 0x28, 0xffffffff), (0x52, 1, 0x51, 0xffffffff), (0x52, 0, 0x50, 0xffffffff)]
  | .clu => [(0x14, 3, 0x13, 0xffffffff), (0x14, 2, 0x12, 0xffffffff), (0x14, 1, 0x11, 0xffffffff), (0x14, 0, 0x10, 0xffffffff), (0x1b, 2, 0x1a, 0xffffffff), (0x1b, 1, 0x19, 0xffffffff), (0x1b, 0, 0x18, 0xffffffff), (0x24, 2, 0x1f, 0xffffffff), (0x24, 1, 0x23, 0xffffffff), (0x24, 0, 0x22, 0xffffffff), (0x2a, 2, 0x29, 0xffffffff), (0x2a, 1, 0x26, 0xffffffff), (0x2a, 0, 0x25, 0xffffffff)]
  | .cen => [(0x17, 3, 0x16, 0xffffffff), (0x17, 2, 0x15, 0xffffffff), (0x17, 1, 0x14, 0xffffffff), (0x17, 0, 0x13, 0xffffffff)]
  | .dbg => []
  | .fus => []

end Sys2Proof.Machine
end

