-- ==== Sys2Proof/Machine/Csr.lean ====
section
/-! DEFINITION. The CSR store: block numbers, the register a word of a block holds, its reset value, and reading, writing
and counting in it by the hardware (spec 18: R550, R559, R569; R14, R84). -/

namespace Sys2Proof.Machine

/-! Block numbers (R569). -/
abbrev bSys : Nat := 0x00
abbrev bPwr : Nat := 0x01
abbrev bClk : Nat := 0x02
abbrev bUmb : Nat := 0x03
abbrev bMdr : Nat := 0x04
abbrev bEvc : Nat := 0x05
abbrev bMst : Nat := 0x06
abbrev bPrt : Nat := 0x08
abbrev bXlt : Nat := 0x09
abbrev bMem : Nat := 0x0A
abbrev bCoh : Nat := 0x0B
abbrev bChn : Nat := 0x0C
abbrev bHxp : Nat := 0x0D
abbrev bFrl : Nat := 0x0E
abbrev bWad : Nat := 0x0F
abbrev bRtl : Nat := 0x10
abbrev bSch : Nat := 0x11
abbrev bClu (n : Nat) : Nat := 0x20 + n
abbrev bCen (e : Nat) : Nat := 0x40 + e
abbrev bDbg : Nat := 0x50
abbrev bFus : Nat := 0x51

/-- The layout group of a block number (R569). -/
def blkKind (b : Nat) : Option BlkKind :=
  if b = bSys then some .sys else if b = bPwr then some .pwr else if b = bClk then some .clk
  else if b = bUmb then some .umb else if b = bMdr then some .mdr else if b = bEvc then some .evc
  else if b = bMst then some .mst else if b = bPrt then some .prt else if b = bXlt then some .xlt
  else if b = bMem then some .mem else if b = bCoh then some .coh else if b = bChn then some .chn
  else if b = bHxp then some .hxp else if b = bFrl then some .frl else if b = bWad then some .wad
  else if b = bRtl then some .rtl else if b = bSch then some .sch
  else if 0x20 ≤ b ∧ b < 0x40 then some .clu else if 0x40 ≤ b ∧ b < 0x50 then some .cen
  else if b = bDbg then some .dbg else if b = bFus then some .fus else none

/-- The register index of a word of a block (R550). -/
@[irreducible] def regIdx (die blk word : Nat) : Nat := die * 2 ^ 28 + blk * 2 ^ 20 + word

/-- The row of the register map for a word, whatever the part and die implement. -/
def rowOf (blk word : Nat) : Option RegRow :=
  match blkKind blk with
  | none => none
  | some k => ((if word < 0x10 then rowsHdr else blkRows k).find? fun r => decide (r.first ≤ word) && decide (word ≤ r.last))

/-- The register exists on this die of this part (R552, R569, R575). -/
def implemented (p : PartKind) (die blk word : Nat) : Bool :=
  match rowOf blk word with
  | none => false
  | some r =>
    (!r.die0 || die == 0)
    && (!(blk == bMst && word ≥ 0x10) || die == 0)
    && (!(blk == bFus && word ≥ 0x10) || die == 0)
    && (if blk = bPrt then
          (if (rPrtMbdb ≤ word && word < rPrtMbdb + 1024) || rPrtMbi ≤ word then p != .p7808
           else if word = rPrtRingbaseHi || word = rPrtRingbaseLo || (rPrtRingdb ≤ word && word < rPrtRingdb + 1024) then p == .p7808
           else true)
        else true)

/-- The sources whose world bit is fixed at 1 (R359, R483, R638). -/
def sealedSource (k : Nat) : Bool := k == 0x304 || k == 0x305 || k == 0xC08

/-- The reset value of a register (R14), with the values that go by part, die and block. -/
@[irreducible] def csrReset (p : PartKind) (i : Nat) : Csr :=
  let die := fld i 30 28
  let blk := fld i 27 20
  let word := fld i 19 0
  match rowOf blk word with
  | none => 0
  | some r =>
    if word = rBlkId then w32 (blk * 2 ^ 24 + die * 2 ^ 21 + 0xA101)
    else if word = rBlkCtl then
      w32 ((if blk = bFrl ∨ blk = bWad ∨ blk = bMst then 2 ^ 31 else 0) + (if blk = bSys then 1 else 0))
    else if blk = bSys ∧ word = rSysPartid then
      w32 (match p with
        | .p7808 => 0x7808A180
        | .p7404 => 0x7404A140
        | .p7202 => 0x7202A120)
    else if blk = bSys ∧ word = rSysDiemask then w32 (2 ^ nDies p - 1)
    else if blk = bPwr ∧ word = rPwrPlim then
      w32 (match p with
        | .p7808 => 0x047E
        | .p7404 => 0x0258
        | .p7202 => 0x0140)
    else if blk = bEvc ∧ rEvcWorld ≤ word ∧ word < rEvcWorld + 128 then
      w32 (((List.range 32).map fun j => b2n (sealedSource (32 * (word - rEvcWorld) + j)) * 2 ^ j).sum)
    else w32 r.rst

/-- The stored value of a register. -/
def getReg (s : State) (die blk word : Nat) : Nat :=
  (tget (csrReset s.part) s.csr (regIdx die blk word)).toNat

/-- A register's stored value replaced by the hardware. -/
def setReg (s : State) (die blk word v : Nat) : State :=
  { s with csr := tset (csrReset s.part) s.csr (regIdx die blk word) (w32 v) }

/-- A field of a register. -/
def getF (s : State) (die blk word hi lo : Nat) : Nat := fld (getReg s die blk word) hi lo

/-- A field of a register replaced by the hardware. -/
def setF (s : State) (die blk word hi lo v : Nat) : State :=
  setReg s die blk word (putFld (getReg s die blk word) hi lo v)

/-- A saturating count in a field of a register (R84). -/
def countF (s : State) (die blk word hi lo n : Nat) : State :=
  setF s die blk word hi lo (satAdd (hi + 1 - lo) (getF s die blk word hi lo) n)

/-- A saturating count in a whole 32-bit counter. -/
def count (s : State) (die blk word : Nat) : State := countF s die blk word 31 0 1

/-- The block is enabled (R559). -/
def blkEn (s : State) (die blk : Nat) : Bool := getF s die blk rBlkCtl 0 0 == 1

/-- A base address held in a `_HI`, `_LO` pair (R558). -/
@[irreducible] def baseOf (s : State) (die blk hi : Nat) : Nat := getReg s die blk hi * 2 ^ 32 + getReg s die blk (hi + 1)

/-- TIMEBASE of a die (R619). -/
def timeOf (s : State) (die : Nat) : Word := (getDie s die).timebase

end Sys2Proof.Machine
end

