-- ==== Sys2Proof/Machine/Evc.lean ====
section
/-! DEFINITION. The event controller's sources: raising, completing and returning (spec 11: R359 to R362). A source's
state is its `EVC_CFG` register. -/

namespace Sys2Proof.Machine

/-- The states of an event source (R360, R363). -/
abbrev evIdle : Nat := 0
abbrev evPending : Nat := 1
abbrev evOffered : Nat := 2
abbrev evActive : Nat := 3

/-- `EVC_CFG` of a local source. -/
def evCfg (s : State) (die k : Nat) : Nat := getReg s die bEvc (rEvcCfg + k)

/-- STATE of a source. -/
def evState (s : State) (die k : Nat) : Nat := fld (evCfg s die k) 25 24

def noFlag (_ : Nat) : Option Bool := none
/-- The source is a level source: its `TYPE` in force (R360, R363). -/
def evLevel (s : State) (die k : Nat) : Bool := (tget noFlag (getDie s die).evOldType k).getD (bitOf (evCfg s die k) 30)
/-- Its `EN` in force, besides for routing, which takes the newest (R363). -/
def evOn (s : State) (die k : Nat) : Bool := (tget noFlag (getDie s die).evOldEn k).getD (bitOf (evCfg s die k) 31)
/-- A write of `EVC_CFG` that waited for the source's completion, or for its routing, takes effect (R363). -/
def typeNow (s : State) (die k : Nat) : State := modDie s die fun x => { x with evOldType := tset noFlag x.evOldType k none }
def enNow (s : State) (die k : Nat) : State := modDie s die fun x => { x with evOldEn := tset noFlag x.evOldEn k none }

/-- A source with its STATE and REP written. -/
def setEv (s : State) (die k st : Nat) (rep : Bool) : State :=
  setReg s die bEvc (rEvcCfg + k) (putFld (putFld (evCfg s die k) 25 24 st) 23 23 (b2n rep))

/-- A raise reaches a source; `soft` says that it is a software set, `counted` that it is an edge or a software set: a level is sampled in
IDLE only (R360). -/
def evTake (s : State) (die k : Nat) (soft counted : Bool) : State :=
  let rep := bitOf (evCfg s die k) 23
  match evState s die k with
  | 0 => if evOn s die k || soft then setEv s die k evPending rep else s
  | 1 => if counted then count s die bEvc rEvcMergecnt else s
  | 2 => if counted then setEv s die k evOffered true else s
  | _ => if counted then setEv (if rep then count s die bEvc rEvcMergecnt else s) die k evActive true else s

/-- A unit of the part raises a local source by a single event: an edge, or for a level source an input that is asserted for that moment only
(R360; DESIGN CHOICE: log entry 131). -/
def evRaise (s : State) (die k : Nat) : State := evTake s die k false (!evLevel s die k)

/-- The input of a source changes, and is kept as it stands whatever the source's `TYPE`; an edge source is raised by the assertion, a level
source while its input is asserted (R360, R363). -/
def evInput (s : State) (die k : Nat) (on : Bool) : State :=
  let s := setReg s die bEvc (rEvcCfg + k) (putFld (evCfg s die k) 22 22 (b2n on))
  if on then evTake s die k false (!evLevel s die k) else s

/-- A unit raises this source on this die (R359, R391, R422, R483, R638, R663). -/
def unitRaises (d k : Nat) : Bool :=
  if k < 0x100 then decide (k % 8 ≤ 5)
  else if k < 0x200 then decide (k ≤ 0x10C) && (k != 0x102 || d == 0)
  else if k < 0x400 then
    (decide (k ≤ 0x216) && (k != 0x216 || d == 0)) || (decide (0x280 ≤ k) && decide (k ≤ 0x285))
      || (decide (0x300 ≤ k) && decide (k ≤ 0x305) && (decide (k < 0x304) || d == 0))
  else if k < 0xC00 then decide (d ≤ 1)
  else if k < 0xC40 then decide (k ≤ 0xC09) && ((k != 0xC01 && k != 0xC08) || d == 0)
  else decide (k ≤ 0xC47) && d == 0

/-- The outcome of a completion for an ACTIVE source (R360). -/
def evFinish (s : State) (die k : Nat) : State :=
  let s := typeNow s die k
  let c := evCfg s die k
  if bitOf c 23 then setEv s die k evPending false
  else if bitOf c 30 && bitOf c 22 then setEv s die k evPending false
  else setEv s die k evIdle false

/-- A completion reaches a source (R360, R362). -/
def evComplete (s : State) (die k : Nat) : State :=
  if evState s die k = evActive then evFinish s die k else count s die bEvc rEvcBaddone

/-- The world of a source: true for the sealed world (R363). -/
def evSealed (s : State) (die k : Nat) : Bool := bitOf (getReg s die bEvc (rEvcWorld + k / 32)) (k % 32)

end Sys2Proof.Machine
end

