-- ==== Sys2Proof/Machine/Madder.lean ====
section
/-! DEFINITION. The Madder log and FAULT_N: writing, merging and raising fault records (spec 17: R514 to R523, R544). -/

namespace Sys2Proof.Machine

/-- The fault classes (R515). -/
abbrev cCorrected : Nat := 0
abbrev cDeferred : Nat := 1
abbrev cContained : Nat := 2
abbrev cFatal : Nat := 3

/-- A record that is not in its slot. -/
def noRec (_ : Nat) : Option FaultRec := none

/-- The record is OPEN (R520). -/
def recOpen : Option FaultRec → Bool
  | some r => !r.ack
  | none => false

/-- The number of OPEN records of a die (R548). -/
def openRecs (s : State) (die : Nat) : Nat := ((getDie s die).log.filter fun p => recOpen p.2).length

/-- A slot of a die's log. -/
def logAt (s : State) (die k : Nat) : Option FaultRec := tget noRec (getDie s die).log k

/-- A slot of a die's log written. -/
def setLog (s : State) (die k : Nat) (r : Option FaultRec) : State :=
  modDie s die fun d => { d with log := tset noRec d.log k r }

/-- A qualifying record asserts FAULT_N, sets DRIVE and restarts the pulse timer (R523). -/
def driveFault (s : State) (cls : Nat) : State :=
  if getF s 0 bMdr rMdrFnctl 1 0 ≤ cls then
    { setF s 0 bMdr rMdrFnctl 31 31 1 with pulse := true, i3c := { s.i3c with causes := s.i3c.causes ||| 2 } }
  else s

/-- The sub-ports whose last frame has not ended with a bad FCS. -/
def sentPorts (s : State) : List (Nat × Nat) :=
  (s.given.foldl (fun l g => match g with
    | .frame d sub _ => (d, sub) :: l.filter (· != (d, sub))
    | .badFcs d sub => l.filter (· != (d, sub))
    | _ => l) []).filter fun p => !(getDie s p.1).withdrawn

/-- The FATAL fence: a frame in progress at an Ethernet port ends with a bad FCS (R544, R665). DESIGN CHOICE (log 156): a free bit says for each
sub-port whether the last frame that it has given out is still in progress. -/
def fence (s : State) : State :=
  if s.fatal then s
  else
    { (sentPorts s).foldl (fun s p => let f := takeFree s; if wbit f.1 0 then give f.2 (.badFcs p.1 p.2) else f.2) s with fatal := true }

/-- What a class requires when a record is written or raised (R522, R523, R544). -/
def classSteps (s : State) (die cls : Nat) : State :=
  let s := driveFault (evRaise s die 0x103) cls
  if cls = cFatal then fence s else s

/-- The slot of the OPEN record that names a unit, if there is one (R521). -/
def openSlot (s : State) (die udie block unit : Nat) : Option Nat :=
  ((getDie s die).log.find? fun p =>
    match p.2 with
    | some r => !r.ack && r.die == udie && r.block == block && r.unit == unit
    | none => false).map (·.1)

/-- The general slot of the next record (R520). -/
def nextSlot (s : State) (die : Nat) : Nat := getReg s die bMdr rMdrWptr % 1016

/-- A record is dropped and counted (R520). -/
def dropRec (s : State) (die cls : Nat) : State :=
  if cls = cCorrected then countF s die bMdr rMdrLostcnt 31 16 1
  else if cls = cDeferred then countF s die bMdr rMdrLostcnt 15 8 1
  else countF s die bMdr rMdrLostcnt 7 0 1

/-- A new record is written into the log of `die`, or dropped (R520). -/
def writeRec (s : State) (die : Nat) (r : FaultRec) : State :=
  let k := nextSlot s die
  let w := getReg s die bMdr rMdrWptr
  let r := { r with seq := w }
  if recOpen (logAt s die k) then
    if r.cls < cContained then dropRec s die r.cls
    else
      match (List.range 8).find? fun j => !recOpen (logAt s die (1016 + j)) with
      | some j => classSteps (setLog s die (1016 + j) (some r)) die r.cls
      | none =>
        let s := dropRec s die r.cls
        if r.cls = cFatal then fence s else s
  else classSteps (setReg (setLog s die k (some r)) die bMdr rMdrWptr ((w + 1) % 2 ^ 32)) die r.cls

/-- A detection merges into an OPEN record; a FATAL one fences the package whatever the record's class was (R520, R521, R544). -/
def mergeRec (s : State) (die k : Nat) (o r : FaultRec) : State :=
  let o' := { o with merged := satAdd 8 o.merged 1, tlast := r.tfirst, detlast := r.det }
  let s :=
    if o.cls < r.cls then classSteps (setLog s die k (some { o' with cls := r.cls, action := r.action })) die r.cls
    else setLog s die k (some o')
  if r.cls = cFatal then fence s else s

/-! ### The held transform blocks (R564, R636) -/

/-- The transform units of a die. -/
def getXf (s : State) (d : Nat) : XfDie := tget (fun _ => XfDie.init) s.xforms d
def modXf (s : State) (d : Nat) (f : XfDie → XfDie) : State := { s with xforms := tmod (fun _ => XfDie.init) s.xforms d f }

/-- Words of a save slot, and the address of a slot of an engine: the slots of engine 0 come first (R480; DESIGN CHOICE, log entry 144). -/
def saveWords (woad : Bool) : Nat := if woad then 64 else 24576
def saveSlots (woad : Bool) : Nat := if woad then 256 else 64
def saveAddr (s : State) (d : Nat) (woad : Bool) (e n : Nat) : Nat :=
  baseOf s d (if woad then bWad else bFrl) (if woad then rWadSavebaseHi else rFrlSavebaseHi) + (saveSlots woad * e + n) * saveWords woad

/-- Save slots in use on an engine (R480). -/
def savedOn (x : XfDie) (woad : Bool) (e : Nat) : List Nat :=
  x.jobs.flatMap fun j => match j.saved with
    | some v => ((if woad then v.2 else v.1.toList).filter fun p => p.1 == e).map (·.2)
    | none => []

/-- Chains that lose their turn start again from their first byte, as the turns that become ready last (R478, R481). -/
def restartJobs (lost : ChainJob → Bool) (l : List ChainJob) : List ChainJob :=
  (l.filter fun j => !lost j) ++ (l.filter lost).map fun j => { j with done := 0, running := none, saved := none, inp := [] }

/-- The transform engines of a kind lose what they hold: their chains start again, and their cached keys go (R474, R480). -/
def xformClear (s : State) (d : Nat) (woad : Bool) : State :=
  let onKind {α β : Type} (v : Option α × List β) : Bool := if woad then !v.2.isEmpty else v.1.isSome
  modXf s d fun x =>
    { x with
      kcache := if woad then [] else x.kcache
      jobs := restartJobs (fun j => (j.running.map fun r => onKind (r.1, r.2.1)).getD false || (j.saved.map onKind).getD false) x.jobs }

/-- The sealed contents of a transform block are zeroised: its save slots in use, which `put` writes, its cached keys and the work on its
engines (R564). -/
def xformWipe (put : State → Nat → List Word → State) (s : State) (d : Nat) (woad : Bool) : State :=
  let s := [0, 1].foldl (fun s e => (savedOn (getXf s d) woad e).foldl (fun s n =>
    put s (saveAddr s d woad e n) (List.replicate (saveWords woad) 0)) s) s
  xformClear s d woad

/-- `HOLD` of a transform block (R564). -/
def heldHv (s : State) (d : Nat) (woad : Bool) : Bool := getF s d (if woad then bWad else bFrl) rBlkCtl 31 31 == 1

/-- A detection reaches the log of a die: it merges or a record is written (R520, R521). -/
def logEntry (s : State) (die : Nat) (r : FaultRec) : State :=
  match openSlot s die r.die r.block r.unit with
  | some k =>
    match logAt s die k with
    | some o => mergeRec s die k o r
    | none => writeRec s die r
  | none => writeRec s die r

/-- The record of a held transform block of `d` that has lost its state (R564, R636; the detector and unit are a DESIGN CHOICE, log entry
147). -/
def heldRec (s : State) (at' d : Nat) (woad : Bool) : FaultRec :=
  let t := timeOf s at'
  ⟨false, cContained, false, d, if woad then bWad else bFrl, 0xFF, 0x07, if woad then 0x0602 else 0x0601, 0, t, t, 0, 0, 0, 0, 0⟩

/-- The held transform blocks of a die lose their state without a sealed action: their sealed contents are zeroised, and the Madder of die
`at'` records each loss (R564, R636). -/
def heldDie (s : State) (at' d : Nat) : State :=
  [false, true].foldl (fun s woad => if heldHv s d woad then logEntry (xformWipe pokes s d woad) at' (heldRec s at' d woad) else s) s
/-- Those of every die in service. -/
def heldAll (s : State) : State :=
  ((List.range (nDies s.part)).filter fun d => !(getDie s d).withdrawn).foldl (fun s d => heldDie s d d) s

/-- A detection is logged; with the FATAL fence the held transform blocks lose their state (R544, R636). -/
def logDetection (s : State) (die : Nat) (r : FaultRec) : State :=
  let t := logEntry s die r
  if t.fatal && !s.fatal then heldAll t else t

/-- A detection of a unit of `udie` is recorded by that die's Madder, and die 0 keeps a copy of a FATAL one (R514). -/
def report (s : State) (udie block unit det cls action : Nat) (addr tag info : Word) (inj : Bool := false) : State :=
  let t := timeOf s udie
  let r : FaultRec := ⟨false, cls, inj, udie, block, unit, action, det, 0, t, t, addr, tag, info, 0, 0⟩
  let s := logDetection s udie r
  if cls = cFatal ∧ udie ≠ 0 then logDetection s 0 r else s

/-- A detection that die 0 records for another die: links, withdrawals, lost service (R514). -/
def reportAt0 (s : State) (udie block unit det cls action : Nat) (addr tag info : Word) (inj : Bool := false) : State :=
  let t := timeOf s 0
  logDetection s 0 ⟨false, cls, inj, udie, block, unit, action, det, 0, t, t, addr, tag, info, 0, 0⟩

/-- The injection armed at a detector in one of the modes (R546). -/
def armed (s : State) (d det b u mode : Nat) : Option Inject :=
  (getDie s d).inj.filter fun j => j.det == det && j.block == b && j.unit == u && j.mode == mode

/-- One occurrence of the armed injection has happened (R546). -/
def injUse (s : State) (d : Nat) : State :=
  modDie s d fun x => { x with inj := x.inj.bind fun j => if j.left ≤ 1 then none else some { j with left := j.left - 1 } }

/-- The most frequent report: DEFERRED, with the action of R519. -/
def deferred (s : State) (die block unit det action : Nat) (addr tag info : Word) : State :=
  report s die block unit det cDeferred action addr tag info

/-- The die is populated, in service and not fenced: its units act (R541, R544). -/
def dieLive (s : State) (d : Nat) : Bool := decide (d < nDies s.part) && !(getDie s d).withdrawn && !s.fatal

/-- A unit touched an address that nothing backs (R303). -/
def unbacked (s : State) (die wa : Nat) : State :=
  deferred (count s die bCoh rCohUnbcnt) die bCoh 0xFF 0x0304 0x00 (w64 wa) 0 0

/-- An access that reached an address that nothing backs (R303). -/
def noteRead (s : State) (die pa : Nat) : State := if region s pa = .unbacked then unbacked s die pa else s

/-- A unit has read a poisoned word, and abandons what it belongs to (R326); the read itself is a request of its own (`unitRead`). -/
def hwPoison (s : State) (die wa : Nat) : State :=
  deferred (count s die bCoh rCohHwpsncnt) die bCoh 0xFF 0x0305 0x06 (w64 wa) 0 0

end Sys2Proof.Machine
end

