-- ==== Sys2Proof/Machine/Engs.lean ====
section
/-! DEFINITION. The channel engines as other units see them: their state, which of them serve, and the entries of their event queues (spec 12:
R388; 14: R424, R428). -/

namespace Sys2Proof.Machine

def getChan (s : State) (d : Nat) : Chan := tget (fun _ => Chan.init) s.chans d
def modChan (s : State) (d : Nat) (f : Chan → Chan) : State := { s with chans := tmod (fun _ => Chan.init) s.chans d f }
/-- The key of a channel engine. -/
def engKey (d e : Nat) : Nat := 16 * d + e
def getEng (s : State) (k : Nat) : Eng := tget (fun _ => Eng.init) s.engs k
def modEng (s : State) (k : Nat) (f : Eng → Eng) : State := { s with engs := tmod (fun _ => Eng.init) s.engs k f }
/-- The engine is in service: its block enabled and no fault has taken it (R388). -/
def engUp (s : State) (k : Nat) : Bool :=
  dieLive s (k / 16) && blkEn s (k / 16) (bCen (k % 16)) && !(getEng s k).out

/-- The engine that serves for an engine: itself, or the take-over engine of the die (R388). -/
def servingFor (s : State) (k : Nat) : Nat :=
  if (getEng s k).out then
    match firstBelow 16 fun e => engUp s (engKey (k / 16) e) with
    | some e => engKey (k / 16) e
    | none => k
  else k

def getSeq (s : State) (k : Nat) : MSeq := tget (fun _ => MSeq.init) s.mseqs k
def modSeq (s : State) (k : Nat) (f : MSeq → MSeq) : State := { s with mseqs := tmod (fun _ => MSeq.init) s.mseqs k f }

/-- Event kinds that share the queue's 256 entries; the others have entries of their own (R428). -/
def sharedKind (k : Nat) : Bool := k == 2 || k == 3 || k == 4 || k == 5 || k == 8

/-- Entries of the event queue in use or reserved by operations that have not completed (R428). -/
def evUsed (s : State) (k : Nat) : Nat :=
  let q := getSeq s k
  ((getEng s k).evq.filter fun e => sharedKind e.1).length + q.streams.length
    + (q.ctxs.filter fun c => c.2.timer.isSome).length
    + ((getChan s (k / 16)).jrecs.filter fun r => !r.durable && r.eng == some k).length
    + ((getEng s k).cmds.filter fun m => !m.came).length + (getEng s k).late.length

/-- A RESCAN event is pending in an engine's queue, or a context runs one that it has taken (R427, R451). -/
def rescanRuns (s : State) (k : Nat) : Bool :=
  (getEng s k).evq.any (·.1 == 9) || (getSeq s k).ctxs.any fun c => c.2.busy && c.2.kind == 9

end Sys2Proof.Machine
end

