-- ==== Sys2Proof/Machine/Links.lean ====
section
/-! DEFINITION. The die-to-die links: their ends, credit pools, the classes of their traffic with their credits, and the transfer slots
(spec 01: R24 to R28; 03: R115 to R119; 04: R140). -/

namespace Sys2Proof.Machine

/-! ### Flits and routes (R42, R92, R115) -/

def flitVc (f : Flit) : Nat := fld f.route.toNat 11 10
def flitCls (f : Flit) : Nat := fld f.route.toNat 9 8
def flitDie (f : Flit) : Nat := fld f.route.toNat 7 5
def flitDest (f : Flit) : Nat := fld f.route.toNat 4 0

/-- Ring link `j` joins link 0 of die j and link 1 of the next die; it is out when either end is (R26, R540). -/
def ringOut (s : State) (j : Nat) : Bool :=
  let n := nDies s.part
  (tget (fun _ => Link.init) (getDie s (j % n)).links 0).out || (tget (fun _ => Link.init) (getDie s ((j + 1) % n)).links 1).out

/-- The link by which a flit for die `t` leaves die `n`: the shorter way, and the other one where that way crosses a failed
link (R115, R540). -/
def linkFor (s : State) (n t : Nat) : Nat :=
  let N := nDies s.part
  let d0 := (t + N - n % N) % N
  let d1 := N - d0
  let k := if d0 < d1 then 0 else if d1 < d0 then 1 else t % 2
  let crosses := if k = 0 then (List.range d0).any fun i => ringOut s (n + i)
                 else (List.range d1).any fun i => ringOut s (n + N - 1 - i)
  if crosses then 1 - k else k

/-! ### Link ends and pools (R26, R116, R117) -/

def getLink (s : State) (d k : Nat) : Link := tget (fun _ => Link.init) (getDie s d).links k
def modLink (s : State) (d k : Nat) (f : Link → Link) : State :=
  modDie s d fun x => { x with links := tmod (fun _ => Link.init) x.links k f }

/-- The link end at the other side of link `k` of die `d` (R26). -/
def linkPeer (s : State) (d k : Nat) : Nat × Nat :=
  let n := nDies s.part
  if k = 0 then ((d + 1) % n, 1) else ((d + n - 1) % n, 0)

/-- Pools as numbers: THROUGH 0, EXIT_SPAR 1, EXIT_CE 2. -/
def poolNo : Pool → Nat
  | .through => 0
  | .exitSpar => 1
  | .exitCe => 2

/-- Credits of a pool for a VC (R116). -/
def poolCredits (pool v : Nat) : Nat := (if pool = 2 then 16 else 32) / (if v = 1 then 2 else 1)

/-- The pool of a flit that leaves by link `k` of die `d` (R116). -/
def poolOf (s : State) (d k : Nat) (f : Flit) : Nat :=
  if flitDie f = (linkPeer s d k).1 then (if flitCls f = 2 then 2 else 1) else 0

/-! ### Messages of the coherence class on their way (R27, R28, R115, R140, R168, R322) -/

/-- The home die of a line (R302). -/
def homeDie (la : Nat) : Nat :=
  match regionMap (16 * la) with
  | .dram d _ => d
  | .cxl d _ => d
  | .device d _ => d
  | .unbacked => 0

/-- The die of a cache. -/
def cacheDie (c : Nat) : Nat := if c < 256 then c / 32 else (c - 256) / 8
/-- The die of a snoop's target. -/
def destDie (t : Nat) : Nat := if t < 1000 then cacheDie t else t - 1000

/-- The die that a flow message comes from, and the one to which it goes. -/
def flowEnds (m : FlowMsg) : Nat × Nat := if m.kind = .grant then (m.die, m.spar / 32) else (m.spar / 32, m.die)

/-- The senders that a message passes on its way round the ring from die `a` to die `b` (R115). -/
def ringWay (s : State) : Nat → Nat → Nat → List (Nat × Nat)
  | 0, _, _ => []
  | n + 1, a, b => if a = b then [] else (a, linkFor s a b) :: ringWay s n (linkPeer s a (linkFor s a b)).1 b

/-- The ends of the messages of the coherence class that wait to go to another die: snoop answers, flow messages and admission notices. -/
def cohEnds (s : State) : List (Nat × Nat) :=
  s.answers.map (fun a => (destDie a.src, homeDie a.line)) ++ s.flowMsgs.map flowEnds ++ s.notices.map fun n => (n.spar / 32, n.die)

/-- A message of the coherence class waits for link `k` of die `d`: a ring snoop for the next die, or another message on its way. -/
def cohWaits (s : State) (d k : Nat) : Bool :=
  (s.snoops.any fun n => n.dest == 1000 + (linkPeer s d k).1 && n.link == k && !n.passed)
    || (cohEnds s).any fun e => e.1 != e.2 && !(getDie s e.1).withdrawn && (ringWay s (nDies s.part) e.1 e.2).contains (d, k)

/-! ### Credits of the stream class (R24, R27) -/

/-- Beats of 64 B that an item takes. -/
def strmBeats : StrmItem → Nat
  | .inbound _ _ n _ => (n + 63) / 64
  | .outbound _ _ _ l => (l.length + 63) / 64

/-- Beats that a sender or a receiver holds, which are the credits in use there. -/
def beatsOf (l : List StrmItem) : Nat := (l.map strmBeats).sum

/-- Credits of a receiver: the spec does not say how many; there is at least one. -/
def strmCredits : Nat := max 1 Config.strmCredits.toNat

/-- The die to which an item goes, and the die that put it on the stream plane. -/
def strmDie : StrmItem → Nat
  | .inbound _ k _ _ => k / 16
  | .outbound _ d _ _ => d
def strmSrc : StrmItem → Nat
  | .inbound a _ _ _ => a
  | .outbound a _ _ _ => a

/-- The header port of its die through which a frame reaches its engine: two ports, each shared by eight engines. -/
def headerPort (k : Nat) : Nat := k % 16 / 8

/-- The frames that a header port holds. -/
def portHolds (s : State) (d p : Nat) : List StrmItem :=
  (getDie s d).strm.filter fun x => match x with
    | .inbound _ k _ _ => headerPort k == p
    | .outbound _ _ _ _ => false

/-- A receiver that holds some items has credits for `n` beats more. One that holds nothing has at least one, and where it drains beats as
they come their credits are back for the next. -/
def beatsFit (l : List StrmItem) (n : Nat) (drains : Bool) : Bool :=
  l.isEmpty && (drains || decide (n ≤ 1)) || decide (beatsOf l + n ≤ strmCredits)

/-- The priority of a frame: its 802.1Q tag's, 0 without a tag (PRESUMED: log entry 145). -/
def framePrio (l : List Byte) : Nat :=
  let b (j : Nat) : Nat := (l.getD j 0).toNat
  if b 12 = 0x81 ∧ b 13 = 0x00 then b 14 / 32 else 0

/-- Priority flow control holds a priority of a sub-port of die `d` back (R419). -/
def paused (s : State) (d sub prio : Nat) : Bool :=
  decide ((getDie s d).timebase < tget (fun _ => 0) (getDie s d).pfc (8 * sub + prio))

/-- The Ethernet MAC of die `d` holds an outbound frame back. -/
def heldBack (s : State) (d : Nat) : StrmItem → Bool
  | .inbound _ _ _ _ => false
  | .outbound _ _ sub l => paused s d sub (framePrio l)

/-- At die `d` an item's beats are drained as they come: by an engine whose event queue has an entry, by the Ethernet port unless their
priority is paused, by the ports of a withdrawn die, which put nothing out (R541), or over a link, by what receives them at the next die. -/
def strmDrains (s : State) : Nat → Nat → StrmItem → Bool
  | 0, _, _ => false
  | n + 1, d, x =>
    if strmDie x = d then (getDie s d).withdrawn ||
      (match x with
      | .inbound _ k _ _ => (portHolds s d (headerPort k)).isEmpty && decide (evUsed s (servingFor s k) < 256)
      | .outbound _ _ _ _ => !heldBack s d x)
    else
      let k := linkFor s d (strmDie x)
      (getLink s d k).strm.isEmpty && !(getLink s d k).out && strmDrains s n (linkPeer s d k).1 x

/-- At die `d`, `n` beats of an item find credits of the port that is its next receiver: an engine's header port, the Ethernet port, or the
stream port of the link that leads on. -/
def strmRoom (s : State) (d : Nat) (x : StrmItem) (n : Nat) : Bool :=
  let drains := strmDrains s (nDies s.part + 1) d x
  if strmDie x = d then
    match x with
    | .inbound _ k _ _ => beatsFit (portHolds s d (headerPort k)) n drains
    | .outbound _ _ _ _ => drains || beatsFit (getDie s d).macTx n drains
  else beatsFit (getLink s d (linkFor s d (strmDie x))).strm n drains

/-- The next beat of the oldest item of link `k`'s stream sender has a credit at the die behind the link. -/
def strmReady (s : State) (d k : Nat) : Bool :=
  match (getLink s d k).strm with
  | [] => false
  | x :: _ => !(getLink s d k).out && strmRoom s (linkPeer s d k).1 x ((getLink s d k).beats + 1)

/-! ### Transfer slots (R28, R119) -/

/-- The classes of a link. -/
inductive LinkClass
  | token | coherence | stream
  deriving DecidableEq, Repr

/-- The weights 1, 2 and 1 as a cycle of four slots. -/
def slotClass (i : Nat) : LinkClass := if i % 4 = 0 then .token else if i % 4 = 3 then .stream else .coherence

/-- Flits at the head of a pool's sender queue that have their credits (R116, R117). -/
def poolReady (l : Link) (i : Nat) : Nat :=
  let free := poolCredits (i / 2) (i % 2) - tget (fun _ => 0) l.used i
  match tget (fun _ => []) l.tx i with
  | [] => 0
  | q@((_, mesh) :: _) => if (if i / 2 = 0 ∧ mesh then 2 else 1) ≤ free then min free q.length else 0

/-- A class has something to send over link `k` of die `d`, and the credits for it: a flit, a message of the coherence class on its way, or
what its stream sender holds. A flit waits for VC2 from the moment of its ESCAPE_SEND (R118). -/
def classWaits (s : State) (d k : Nat) : LinkClass → Bool
  | .token => (List.range 6).any fun i => decide (0 < poolReady (getLink s d k) i)
  | .coherence => cohWaits s d k
  | .stream => strmReady s d k

/-- The slot that the link grants next while class `c` waits for one: the first of the cycle, from where it stands, whose class waits. -/
def nextGrant (s : State) (d k : Nat) (c : LinkClass) : Option Nat :=
  ((List.range 4).map fun j => ((getLink s d k).turn + j) % 4).find? fun i => slotClass i == c || classWaits s d k (slotClass i)

/-- The next slot goes to class `c`, which waits for it. -/
def linkGrants (s : State) (d k : Nat) (c : LinkClass) : Bool := (nextGrant s d k c).any fun i => slotClass i == c

/-- Class `c` uses the slot, and the cycle goes on behind it; a token-class slot before it is closed. -/
def slotUsed (s : State) (d k : Nat) (c : LinkClass) : State :=
  match nextGrant s d k c with
  | some i => modLink s d k fun l => { l with turn := (i + 1) % 4, flits := 0 }
  | none => s

/-- A flit finds its place in a token-class slot: in the one granted last while that carries fewer than the three flits that were ready for
it, or in a new one; none while another class goes first (R28, R119). -/
def tokenSlot (s : State) (d k : Nat) : Option State :=
  let l := getLink s d k
  if 0 < l.flits then some (modLink s d k fun l => { l with flits := l.flits - 1 })
  else if linkGrants s d k .token then
    let n := ((List.range 6).map (poolReady l)).sum
    some (modLink (slotUsed s d k .token) d k fun l => { l with flits := min 3 n - 1 })
  else none

/-! ### Messages of the coherence class (R27, R28, R115, R140) -/

/-- Credits of the coherence class of a link direction: the spec does not say how many; there is at least one. -/
def cohCredits : Nat := max 1 Config.cohCredits.toNat

/-- A message of the coherence class crosses from die `a` to die `b`: over each link in a slot of its class, and with a credit that is back
when the next receiver has taken it; none while a link grants it no slot or has no credit. Within a die it takes no link. -/
def cohCross (s : State) (a b : Nat) : Option State :=
  (ringWay s (nDies s.part) a b).foldl (fun o h => o.bind fun s =>
    if (getLink s h.1 h.2).cohUsed < cohCredits ∧ linkGrants s h.1 h.2 .coherence = true then some (slotUsed s h.1 h.2 .coherence)
    else none) (some s)

/-- Messages of a step take slots of the coherence class at the named senders (R27, R28): the step lasts until each link has granted the
slot and has a credit. DEDUCED (log 135): a class that waits ahead of the message keeps its place. -/
def cohSlots (s : State) (l : List (Nat × Nat)) : State :=
  l.foldl (fun s h => if linkGrants s h.1 h.2 .coherence then slotUsed s h.1 h.2 .coherence else s) s

/-- A message of a unit's step crosses from die `a` to die `b`. -/
def cohPass (s : State) (a b : Nat) : State := cohSlots s (ringWay s (nDies s.part) a b)

/-! ### Ring snoops (R27, R28, R322) -/

/-- The dies that a ring snoop had still to visit when its link failed are visited by the other way round, over which it goes to each of them
(R540). -/
def turnSnoop (s : State) (n : Snoop) : State :=
  let N := nDies s.part
  let ds := (List.range (n.left + 1)).map fun j => (if n.link = 0 then n.dest - 1000 + j else n.dest - 1000 + N - j) % N
  ds.foldl (fun s d => cohPass s (homeDie n.line) d)
    { s with snoops := s.snoops ++ ds.map fun d => { n with dest := 1000 + d, left := 0, passed := true } }

/-- A ring snoop leaves die `d` by link `k`, or waits there for a credit of the coherence class. -/
def sendRing (s : State) (d k : Nat) (n : Snoop) : State :=
  if (getLink s d k).out then turnSnoop s n
  else if (getLink s d k).cohUsed < cohCredits then
    { modLink s d k fun l => { l with cohUsed := l.cohUsed + 1 } with snoops := s.snoops ++ [n] }
  else modLink s d k fun l => { l with coh := l.coh ++ [n] }

/-- A credit of the coherence class comes back, and the oldest snoop that waits for one leaves. -/
def ringCredit (s : State) (d k : Nat) : State :=
  match (getLink s d k).coh with
  | [] => modLink s d k fun l => { l with cohUsed := l.cohUsed - 1 }
  | n :: rest => { modLink s d k fun l => { l with coh := rest } with snoops := s.snoops ++ [n] }

/-- Dies that can be reached from die `h` by its link `k` before a link that is out of service (R540). -/
def ringClear (s : State) (h k : Nat) : Nat :=
  let n := nDies s.part
  ((firstBelow (n - 1) fun j => ringOut s (if k = 0 then h + j else h + n - 1 - j)).getD (n - 1))

/-- The dies that a ring snoop of home `h` visits by each link: N div 2 by link 0, and the others by link 1 (R322); those behind a failed
link are visited the other way round (R540). -/
def ringReach (s : State) (h k : Nat) : Nat :=
  let share (k : Nat) : Nat := if k = 0 then nDies s.part / 2 else nDies s.part - 1 - nDies s.part / 2
  min (ringClear s h k) (share k + (share (1 - k) - ringClear s h (1 - k)))

/-- The snoops of a line that wait for a credit at a die's senders are given up. -/
def dropWaiting (x : Die) (la : Nat) : Die :=
  { x with links := x.links.map fun l => (l.1, { l.2 with coh := l.2.coh.filter fun n => n.line != la }) }

/-- Snoops of a line that are still on their way are given up: those that wait for a credit at a sender, and those that hold one, which then
comes back. -/
def dropSnoops (s : State) (la : Nat) : State :=
  let s : State := { s with dies := s.dies.map fun e => (e.1, dropWaiting e.2 la) }
  let gone := s.snoops.filter fun n => n.line == la && !n.passed
  let s := { s with snoops := s.snoops.filter fun n => n.line != la }
  gone.foldl (fun s n => ringCredit s (linkPeer s (n.dest - 1000) (1 - n.link)).1 n.link) s

end Sys2Proof.Machine
end

