-- ==== Sys2Proof/Machine/Home.lean ====
section
/-! DEFINITION. The caches and the homes of lines (spec 09: R290, R292; 10: R304 to R309, R317 to R337). Memory is the coherent
view (R276); the states of the copies are kept beside it, and a copy that its home has lost track of keeps its own words. Every
access of a core or unit that its cache does not serve is a request to the home of the line (R306, R319); within a step of the
part it is made and served whole. -/

namespace Sys2Proof.Machine

/-! ### Lines, slices and caches -/

/-- slice_hash of a line address (R304). -/
def sliceHash (la : Nat) : Nat := (List.range 9).foldl (fun h i => h ^^^ fld la (5 * i + 4) (5 * i)) 0

/-- The start ended in bare poles (R592). -/
def barePoles (s : State) : Bool := let l := getF s 0 bMst rMstStartstat 18 16; l == 2 || l == 3

/-- The physical slice that carries a slice: in bare poles the first one from it on, wrapping, that passed its start test (R593). -/
def carrier (s : State) (k : Nat) : Nat :=
  if barePoles s then ((firstBelow 32 fun j => bitOf (getReg s 0 bMst rMstBpmap) ((k + j) % 32)).map fun j => (k + j) % 32).getD k else k

/-- The number of the home slice: 32 × die + slice, as the unit that carries it. -/
def homeSlice (s : State) (la : Nat) : Nat := 32 * homeDie la + carrier s (sliceHash la)

/-- dram_channel (R304). -/
def dramChannel (la : Nat) : Nat := fld (16 * la) 36 4 % 3

def noLine (_ : Nat) : Option HomeLine := none
def noTx (_ : Nat) : Option HomeTx := none
def llcLine (s : State) (la : Nat) : Option HomeLine := tget noLine s.llc la
def setLlc (s : State) (la : Nat) (l : Option HomeLine) : State := { s with llc := tset noLine s.llc la l }
def homeTx (s : State) (la : Nat) : Option HomeTx := tget noTx s.homeTx la
def setTx (s : State) (la : Nat) (t : Option HomeTx) : State := { s with homeTx := tset noTx s.homeTx la t }

/-- The PRES bit of a cache on its own die (R317). -/
def presBit (c : Nat) : Nat := if c < 256 then c % 32 else 32

/-- The caches of a die that a PRES mask names; bit 32 stands for every supervisor L2 of the die (R317). -/
def presCaches (d pres : Nat) : List Nat :=
  ((List.range 32).filter fun i => bitOf pres i).map (32 * d + ·) ++
    (if bitOf pres 32 then (List.range 8).map (256 + 8 * d + ·) else [])

/-- The L2 cache of an agent that keeps copies (R306). -/
def idCache : AgentId → Option Nat
  | .pe p => some (gspar p.die p.spar)
  | .sup c => some (256 + supOf c)
  | .engine _ _ => none
  | .unit _ _ _ => none
  | .function _ _ => none

/-- The die of an agent. -/
def idDie : AgentId → Nat
  | .pe p => p.die
  | .sup c => c.die
  | .engine d _ => d
  | .unit d _ _ => d
  | .function d _ => d

/-- A request with nothing but its kind and its agent. -/
def reqOf (k : ReqKind) (id : AgentId) : HomeReq := ⟨k, id, false, 0, 0, 0, false, 0, 0, 0, 0⟩

/-- The agent in whose name an L2 cache asks: PE 0 of the spar, or the logical core. -/
def cacheId (c : Nat) : AgentId :=
  if c < 256 then .pe ⟨Fin.ofNat 8 (c / 32), Fin.ofNat 32 c, 0⟩ else .sup ⟨Fin.ofNat 8 ((c - 256) / 8), Fin.ofNat 8 (c - 256)⟩

/-- A unit of a die in whose name an access is made (R294). -/
def unitId (die : Nat) : AgentId := .unit (Fin.ofNat 8 die) 0 0

/-- An agent's L2 cache; agents are numbered as reservations number them. -/
def agentCache (a : Nat) : Nat := if a < 2304 then a / 9 else 256 + (a - 2304)

/-- The state of a line in an L2 cache: 0 INVALID, 1 SHARED, 2 EXCLUSIVE, 3 MODIFIED (R307); 4 marks a line that was lost with its
cache and that the cache answers no snoop for. -/
def cacheState (s : State) (cache line : Nat) : Nat := tget (fun _ => 0) s.caches (cache * 2 ^ 45 + line)
def setCache (s : State) (cache line v : Nat) : State :=
  { s with caches := tset (fun _ => 0) s.caches (cache * 2 ^ 45 + line) v }

/-- The contents of a cache are lost with its unit: what it held, which its homes do not know, is marked 4 (R353, R539). -/
def loseCache (s : State) (cache : Nat) : State :=
  { s with caches := s.caches.map fun e => if e.1 / 2 ^ 45 = cache then (e.1, 4) else e,
           strays := s.strays.filter fun x => x.cache != cache }

/-- The cache holds a copy of the line. -/
def holdsLine (s : State) (cache line : Nat) : Bool := decide (1 ≤ cacheState s cache line) && decide (cacheState s cache line ≤ 3)
/-- The cache holds the line EXCLUSIVE or MODIFIED. -/
def ownsLine (s : State) (cache line : Nat) : Bool := cacheState s cache line == 2 || cacheState s cache line == 3

/-- The cache's copy that the home no longer tracks, if there is one (R324). -/
def strayOf (s : State) (cache la : Nat) : Option Stray := s.strays.find? fun x => x.cache == cache && x.line == la

/-! ### The L1 caches (R305, R308, R309, R313) -/

/-- The L1D of PE `k` is on (R313). -/
def l1dOn (s : State) (k : Nat) : Bool := getF s (peDie k) (bClu (peSpar k % 32)) rCluL1ctl (peNo k) (peNo k) == 1

/-- Scratch lines of the PEs of a spar: 8 × `SCR`, at most 32 (R310, R339). -/
def scratchLines (s : State) (g : Nat) : Nat := 8 * min 4 (getF s (g / 32) (bClu (g % 32)) rCluL1ctl 14 12)

/-- The line that a set-associative L1 gives up for another: none while its set has a free way; else which one is a free value, since the
spec gives the L1s besides the L1D of a PE no replacement (R305). -/
def l1Victim (s : State) (sets ways la : Nat) (lines : List Nat) : Option Nat × State :=
  let mates := if lines.length < ways then [] else
    lines.filter fun b => (Config.l1Set b).toNat % sets == (Config.l1Set la).toNat % sets
  if mates.length < ways then (none, s)
  else
    let f := takeFree s
    (mates[f.1.toNat % mates.length]?, f.2)

/-- Lines of an L1 with one more in it. -/
def l1Add (lines : List Nat) (la : Nat) : Option Nat → List Nat
  | none => la :: lines
  | some v => la :: lines.filter (· != v)

/-- A PE's instruction fetch fills its L1I: 4 ways of 64 sets (R305). -/
def fillPeL1i (s : State) (k la : Nat) : State :=
  if (getPe s k).l1i.contains la then s
  else
    let v := l1Victim s 64 4 la (getPe s k).l1i
    modPe v.2 k fun p => { p with l1i := l1Add p.l1i la v.1 }

/-- A logical core's instruction fetch fills its L1I: 4 ways of 128 sets (R305). -/
def fillSupL1i (s : State) (c la : Nat) : State :=
  if (getSup s c).l1i.contains la then s
  else
    let v := l1Victim s 128 4 la (getSup s c).l1i
    modSup v.2 c fun x => { x with l1i := l1Add x.l1i la v.1 }

/-- A logical core's data access fills its L1D: 8 ways of 64 sets (R305). -/
def fillSupL1d (s : State) (c la : Nat) : State :=
  if (getSup s c).l1d.contains la then s
  else
    let v := l1Victim s 64 8 la (getSup s c).l1d
    modSup v.2 c fun x => { x with l1d := l1Add x.l1d la v.1 }

/-- The L1 copies of a line in one PE go: that of its L1I, and that of its L1D where the L1D is on and is not the one that is
updated (R309, R313). -/
def dropPeL1 (s : State) (k la : Nat) (keep : Option Nat) : State :=
  let p := getPe s k
  let s := if p.l1i.contains la then modPe s k fun p => { p with l1i := p.l1i.filter (· != la) } else s
  if (p.l1d.any fun l => l.line == la) && l1dOn s k && keep != some k then
    modPe s k fun p => { p with l1d := p.l1d.filter fun l => l.line != la }
  else s

/-- The L1 copies of a line above an L2 go (R309); `keep` is a committing PE, or a core that stores, whose L1D is updated instead (R305,
R308). -/
def dropL1 (s : State) (cache la : Nat) (keep : Option Nat) : State :=
  if cache < 256 then (List.range 9).foldl (fun s p => dropPeL1 s (peKey cache p) la keep) s
  else
    let c := cache - 256
    let s := if (getSup s c).l1i.contains la then modSup s c fun x => { x with l1i := x.l1i.filter (· != la) } else s
    if (getSup s c).l1d.contains la && keep != some c then modSup s c fun x => { x with l1d := x.l1d.filter (· != la) } else s

/-! ### A copy leaves an L2 cache (R290, R307, R309) -/

/-- A cache loses a line: its state, the L1 copies above it, and the reservations that its agents hold on it. -/
def loseLine (s : State) (cache la : Nat) : State :=
  let s := dropL1 (setCache s cache la 0) cache la none
  { s with resvs := s.resvs.filter (fun r => !(r.line == 16 * la && agentCache r.agent == cache)),
           strays := s.strays.filter fun x => !(x.cache == cache && x.line == la) }

/-- A hold after `lr` keeps the line in this cache (R292). -/
def lineHeld (s : State) (cache la : Nat) : Bool :=
  s.resvs.any fun r => r.holding && r.line == 16 * la && agentCache r.agent == cache

/-- A writer that the home shows as a possible holder (R321). -/
def knownHolder (la : Nat) (l : HomeLine) (c : Nat) : Bool :=
  if cacheDie c = homeDie la then bitOf l.pres (presBit c) else l.remote

/-- A home takes a write-back: the writer is no holder any more and `D` is 1; one from a cache that the state does not show is counted
and discarded (R319, R321). -/
def takeWb (s : State) (la c : Nat) : State :=
  match llcLine s la with
  | none => count s (homeDie la) bCoh rCohLatecnt
  | some l =>
    if knownHolder la l c then
      let l := if cacheDie c = homeDie la then { l with pres := putFld l.pres (presBit c) (presBit c) 0 } else { l with remote := false }
      setLlc s la (some { l with dirty := true, hs := if l.pres = 0 ∧ l.remote = false then 0 else l.hs })
    else count s (homeDie la) bCoh rCohLatecnt

/-- A write-back crosses to its home (R27), and stands there behind the transaction on its line where there is one (R321). -/
def writeBack (s : State) (la c : Nat) : State :=
  let s := cohPass s (cacheDie c) (homeDie la)
  match homeTx s la with
  | some t => setTx s la (some { t with queue := t.queue ++ [.req (reqOf .wb (cacheId c))] })
  | none => takeWb s la c

/-- A line in SHARED or EXCLUSIVE leaves its cache without a message, one in MODIFIED by a write-back (R307). -/
def evictLine (s : State) (cache la : Nat) : State :=
  if cacheState s cache la = 3 then writeBack (loseLine s cache la) la cache else loseLine s cache la

/-- The other lines of a line's set in an L2: 512 sets of 16 ways (R305). -/
def l2Mates (s : State) (cache la : Nat) : List Nat :=
  let lines := (s.caches.filter fun e => e.1 / 2 ^ 45 == cache && e.2 != 4).map fun e => e.1 % 2 ^ 45
  if lines.length < 16 then []
  else lines.filter fun b => b != la && (Config.l2Set b).toNat % 512 == (Config.l2Set la).toNat % 512

/-- An L2 makes room for a line: a full set gives up a line that no hold keeps; which one is a free value (R290, R305). -/
def l2Room (s : State) (cache la : Nat) : State :=
  let mates := l2Mates s cache la
  if mates.length < 16 then s
  else
    let f := takeFree s
    match (mates.filter fun b => !lineHeld s cache b)[f.1.toNat % (mates.filter fun b => !lineHeld s cache b).length]? with
    | some v => evictLine f.2 cache v
    | none => f.2

/-! ### Requests (R319, R326, R332 to R336) -/

/-- The request needs a snoop in this state of the line (R319). Bit 32 of `PRES` stands for every supervisor L2 of the home die: a requester
among them is the only holder where none of the others has the line. -/
def needsSnoop (s : State) (la : Nat) (l : HomeLine) (r : HomeReq) (target : Option Nat) : Bool :=
  let home := homeDie la
  let held := l.pres != 0 || l.remote
  let sole (c : Option Nat) : Bool := match c with
    | some c =>
      if cacheDie c == home then !l.remote && l.pres == 2 ^ presBit c && (presCaches home l.pres).all fun x => x == c || cacheState s x la == 0
      else l.pres == 0 && ownsLine s c la
    | none => false
  match r.kind with
  | .rdS => l.hs == 2 && !sole (idCache r.id)
  | .rdX => l.hs != 0 && held && !sole (idCache r.id)
  | .wb => false
  | .amoFar => l.hs != 0 && held
  | .devRd => l.hs == 2
  | .devWr => l.hs != 0 && held
  | .devWrH => l.hs != 0 && held && !sole target

/-- A cache becomes a holder (R317, R319). -/
def grant (s : State) (la : Nat) (l : HomeLine) (c hs st : Nat) (alone : Bool) : State :=
  let base := if alone then 0 else l.pres
  let rem := if alone then false else l.remote
  let l := if cacheDie c = homeDie la then { l with hs := hs, pres := base ||| 2 ^ presBit c, remote := rem }
           else { l with hs := hs, pres := base, remote := true }
  let s := setCache (setLlc (l2Room s c la) la (some l)) c la st
  { s with strays := s.strays.filter fun x => !(x.cache == c && x.line == la) }

/-- The steering tag names a target cache that the part has (R335). -/
def hintTarget (s : State) (r : HomeReq) : Option Nat :=
  let h := r.hint.toNat
  let d := fld h 13 11
  if !r.wideTag || fld h 5 0 != 0 || nDies s.part ≤ d then none
  else
    match fld h 15 14 with
    | 1 => some (32 * d + fld h 10 6)
    | 2 => if fld h 10 9 = 0 then some (256 + 8 * d + fld h 8 6) else none
    | _ => none

/-- The write carries no hint at all: `KIND` 0 in a tag of 16 bits with nothing reserved set (R335). -/
def noHint (r : HomeReq) : Bool := r.wideTag && fld r.hint.toNat 15 14 == 0 && fld r.hint.toNat 5 0 == 0

/-- The hint of a hinted write is honoured: it is valid and the home die's `EN` is 1 (R336). -/
def hintOn (s : State) (la : Nat) (r : HomeReq) : Option Nat :=
  if r.kind = .devWrH ∧ getF s (homeDie la) bCoh rCohWhctl 0 0 = 1 then hintTarget s r else none

/-- The target of an honoured hint, where it is written without a snoop: a hold of one of its agents defers the write as a snoop (R301,
R336). -/
def freeHint (s : State) (la : Nat) (r : HomeReq) : Option Nat := (hintOn s la r).filter fun c => !lineHeld s c la

/-- The bytes of word `j` that a write names, as an 8-bit mask. -/
def wordMask (r : HomeReq) (j : Nat) : Nat := fld r.mask.toNat (8 * j + 7) (8 * j)
def wordData (r : HomeReq) (j : Nat) : Nat := fld r.data.toNat (64 * j + 63) (64 * j)

/-- A word with the named bytes replaced (R333). -/
def mergeBytes (old new mask : Nat) : Nat :=
  ((List.range 8).map fun k => (if bitOf mask k then fld new (8 * k + 7) (8 * k) else fld old (8 * k + 7) (8 * k)) * 2 ^ (8 * k)).sum

/-- One word of a device or stream write: a whole word is stored, a part of one is merged, and a part of a poisoned word is
discarded; words of a write with the poisoned marking become poisoned (R325 to R327, R333). -/
def deviceWord (s : State) (r : HomeReq) (la j : Nat) : State :=
  let wa := 16 * la + j
  let m := wordMask r j
  if m = 0 then s
  else if m = 255 then
    let s := poke s wa (w64 (wordData r j))
    if r.ep then poisonWords s wa 1 else s
  else if isPoisoned s wa then
    deferred (count s (homeDie la) bCoh rCohDevpsncnt) (homeDie la) bCoh 0xFF 0x0305 0x06 (w64 wa) 0 0
  else
    let s := poke s wa (w64 (mergeBytes (peek s wa).toNat (wordData r j) m))
    if r.ep then poisonWords s wa 1 else s

/-- A device or stream write reaches memory (R332, R333). -/
def deviceWrite (s : State) (la : Nat) (r : HomeReq) : State :=
  if r.mask = 0 then s else (List.range 16).foldl (fun s j => deviceWord s r la j) s

/-- The new word of an atomic operation; `cmp` is the old value of `RD` (R270). -/
def amoResult (op : Nat) (old y cmp : Word) : Option Word :=
  match op with
  | 0 => some (old + y)
  | 1 => some (old &&& y)
  | 2 => some (old ||| y)
  | 3 => some (old ^^^ y)
  | 4 => some y
  | 5 => some (if old.slt y then old else y)
  | 6 => some (if old.slt y then y else old)
  | 7 => some (if old.ult y then old else y)
  | 8 => some (if old.ult y then y else old)
  | 9 => some (if old = cmp then y else old)
  | _ => none

/-- The poison marks of a line as `PSN` shows them (R317). -/
def linePsn (s : State) (la : Nat) : Nat := ((List.range 16).map fun j => b2n (isPoisoned s (16 * la + j)) * 2 ^ j).sum

/-- A home answers a request that made no one a holder: the reply goes to its agent (R319, R334). -/
def homeReply (s : State) (r : HomeReq) (la : Nat) (words : List Word) (psn : Nat) : State :=
  { s with given := s.given ++ [.homeReply r.id la words psn] }

/-- AMO_FAR at the home: the operation on the LLC copy, and the old word as the reply; a poisoned word stays as it is (R326, R327,
R330). -/
def farOp (s : State) (la : Nat) (r : HomeReq) : State :=
  let wa := 16 * la + r.word.val
  let old := peek s wa
  if isPoisoned s wa then homeReply s r la [old] 1
  else
    match amoResult r.op.val old r.arg r.cmp with
    | some v => homeReply (poke s wa v) r la [old] 0
    | none => s

/-- What a home answers crosses to its agent (R27): the line or the old word, but nothing for a write. -/
def replyCross (s : State) (la : Nat) (r : HomeReq) : State :=
  match r.kind with
  | .rdS => cohPass s (homeDie la) (idDie r.id)
  | .rdX => cohPass s (homeDie la) (idDie r.id)
  | .wb => s
  | .amoFar => cohPass s (homeDie la) (idDie r.id)
  | .devRd => cohPass s (homeDie la) (idDie r.id)
  | .devWr => s
  | .devWrH => s

/-- The home performs a request on a line it holds, no snoop being due (R319). `now` says that the agent made the request within its own
step, in which it reads or writes the words itself; otherwise the home does, and replies. -/
def perform (s : State) (la : Nat) (l : HomeLine) (r : HomeReq) (now : Bool) : State :=
  let s := if now then s else replyCross s la r
  let none' : HomeLine := { l with hs := 0, pres := 0, remote := false }
  match r.kind with
  | .rdS =>
    match idCache r.id with
    | none => if now then s else homeReply s r la (peeks s (16 * la) 16) (linePsn s la)
    | some c =>
      if l.hs = 0 then grant s la l c 2 2 true
      else if l.hs = 2 ∧ ownsLine s c la then s
      else grant s la l c 1 1 false
  | .rdX =>
    match idCache r.id with
    | none => s
    | some c => grant s la l c 2 (if cacheState s c la = 3 then 3 else 2) true
  | .wb =>
    match idCache r.id with
    | none => s
    | some c => takeWb (if cacheState s c la = 3 then loseLine s c la else s) la c
  | .amoFar =>
    let s := setLlc s la (some { none' with dirty := true })
    if now then s else farOp s la r
  | .devRd => if now then s else homeReply s r la (peeks s (16 * la) 16) (linePsn s la)
  | .devWr => deviceWrite (setLlc s la (some { none' with dirty := true })) la r
  | .devWrH =>
    match hintOn s la r with
    | some c => dropL1 (deviceWrite (grant s la { none' with dirty := true } c 2 3 true) la r) c la none
    | none =>
      let s := if noHint r then s else count s (homeDie la) bCoh rCohWhigncnt
      deviceWrite (setLlc s la (some { none' with dirty := true })) la r

/-! ### Snoops (R320, R322 to R324) -/

/-- Where the snoops of a pass go: to the holders of the home die that `PRES` names, and to every other die where `REMOTE` is 1
(R320 to R322). The requester itself, or the target of a hint, is not asked. -/
def snoopTargets (s : State) (la : Nat) (l : HomeLine) (except : Option Nat) : List Nat :=
  (presCaches (homeDie la) l.pres).filter (fun c => some c != except) ++
    (if l.remote then ((List.range (nDies s.part)).filter (· != homeDie la)).map (1000 + ·) else [])

/-- Who is not asked in the pass of a request: the requester of RD_S and RD_X, and the target of a hint (R319). -/
def notAsked (s : State) (la : Nat) (r : HomeReq) : Option Nat :=
  match r.kind with
  | .rdS => idCache r.id
  | .rdX => idCache r.id
  | .wb => none
  | .amoFar => none
  | .devRd => none
  | .devWr => none
  | .devWrH => freeHint s la r

/-- SNP_SHR is for RD_S and DEV_RD, SNP_INV for the others (R320). -/
def snoopInv (k : ReqKind) : Bool :=
  match k with
  | .rdS => false
  | .devRd => false
  | _ => true

/-- The caches that a snoop reaches: one cache, or every L2 of a die (R320). -/
def snoopReach (t : Nat) : List Nat :=
  if t < 1000 then [t]
  else (List.range 32).map (32 * (t - 1000) + ·) ++ (List.range 8).map (256 + 8 * (t - 1000) + ·)

/-- A hold after `lr` at a snoop's target defers it (R292, R323). -/
def destHeld (s : State) (la t : Nat) : Bool := (snoopReach t).any fun c => lineHeld s c la

/-- A snoop's effect on one cache, and its answer: 0 MISS, 1 HIT, 2 HIT_DATA (R320). -/
def snoopCache (s : State) (c la : Nat) (inv : Bool) : Nat × State :=
  match cacheState s c la with
  | 0 => (0, if inv then dropL1 s c la none else s)
  | st => (if st = 3 then 2 else 1, if inv then loseLine s c la else setCache s c la 1)

/-- A snoop's effect on all the caches that it reaches. -/
def snoopDest (s : State) (t la : Nat) (inv : Bool) : Nat × State :=
  (snoopReach t).foldl (fun a c => let x := snoopCache a.2 c la inv; (max a.1 x.1, x.2)) (0, s)

/-- The caches that a snoop reaches no longer hold the line. -/
def forgetLine (s : State) (t la : Nat) : State := (snoopReach t).foldl (fun s c => setCache s c la 0) s

/-- What a target answers at once: MISS, HIT or HIT_DATA; 3 where a withdrawn die owned the line (R542), 4 where a cache was lost with
the line in it and never answers (R353, R539). -/
def snoopOne (s : State) (t la : Nat) (inv : Bool) : Nat × State :=
  if (getDie s (destDie t)).withdrawn then
    (if (snoopReach t).any fun c => ownsLine s c la then 3 else 0, forgetLine s t la)
  else if (snoopReach t).any fun c => cacheState s c la == 4 then (4, forgetLine s t la)
  else snoopDest s t la inv

/-- The record of a snoop timeout names who did not answer: dies in bits [7:0], spars of the home die in bits [39:8] (R324). -/
def lateInfo (la : Nat) (due : List Nat) : Word :=
  w64 ((due.map fun t =>
    if 1000 ≤ t then 2 ^ (t - 1000) else if t < 256 ∧ t / 32 = homeDie la then 2 ^ (8 + t % 32) else 0).foldl (· ||| ·) 0)

/-- The copies of caches that did not answer stay there, no longer tracked, with the words that they have (R324). -/
def keepStrays (s : State) (la : Nat) (due : List Nat) : State :=
  let kept := (due.flatMap snoopReach).filter fun c => holdsLine s c la && (strayOf s c la).isNone
  { s with strays := s.strays ++ kept.map fun c => ⟨c, la, peeks s (16 * la) 16⟩ }

/-- The timer of a snoop pass has expired: the line is poisoned, counted and recorded, as an armed PERTURB may have caused (R324, R546). -/
def passLate (s : State) (la : Nat) (due : List Nat) : State :=
  let d := homeDie la
  let s := poisonWords (keepStrays s la due) (16 * la) 16
  let inj := (armed s d 0x0303 bCoh (sliceHash la) 3).isSome
  report (count (if inj then injUse s d else s) d bCoh rCohTmocnt) d bCoh (sliceHash la) 0x0303 cDeferred 0x05 (w64 (16 * la)) 0
    (lateInfo la due) inj

/-- The home line after a pass: no holder after SNP_INV, SHARED holders after SNP_SHR (R320, R321). -/
def afterPass (l : HomeLine) (inv : Bool) : HomeLine :=
  if inv then { l with hs := 0, pres := 0, remote := false } else { l with hs := 1 }

/-- A cache other than the requester's holds the line, among those that a pass asks (R331). -/
def othersHold (s : State) (la : Nat) (own : Option Nat) (ts : List Nat) : Bool :=
  (ts.flatMap snoopReach).any fun c => some c != own && holdsLine s c la && !(getDie s (cacheDie c)).withdrawn

/-- The messages of a pass within a step take their slots of the links: two copies of the ring snoop, and an answer of each die (R27, R28,
R322). -/
def snoopLinks (s : State) (la : Nat) (ts : List Nat) : State :=
  let h := homeDie la
  if ts.all fun t => decide (t < 1000) then s
  else
    let s := cohSlots s ((List.range (ringReach s h 0)).map (fun j => ((h + j) % nDies s.part, 0)) ++
      (List.range (ringReach s h 1)).map fun j => ((h + nDies s.part - j) % nDies s.part, 1))
    ts.foldl (fun s t => cohPass s (destDie t) h) s

/-- A whole snoop pass within a step: none where a hold defers it; else whether a cache other than the requester's had the line (R331), and
the state with the home line as the pass leaves it. Under an armed PERTURB its answers stay unheard until the timer has expired (R546). -/
def snoopPass (s : State) (la : Nat) (l : HomeLine) (inv : Bool) (own : Option Nat) (ts : List Nat) : Option (Bool × State) :=
  if ts.any fun t => destHeld s la t then none
  else
    let r := ts.foldl (fun (a : List (Nat × Nat) × State) t => let x := snoopOne a.2 t la inv; (a.1 ++ [(t, x.1)], x.2)) ([], snoopLinks s la ts)
    let late := if (armed s (homeDie la) 0x0303 bCoh (sliceHash la) 3).isSome then ts
      else (r.1.filter fun p => decide (3 ≤ p.2)).map (·.1)
    let l := if r.1.any fun p => p.2 == 2 then { l with dirty := true } else l
    let took := othersHold s la own ts
    if late.isEmpty then some (took, setLlc r.2 la (some (afterPass l inv)))
    else some (took, setLlc (passLate r.2 la late) la (some { l with hs := 0, pres := 0, remote := false }))

/-! ### Victims of an LLC slice (R318) -/

/-- What a slice does for a line that it does not hold. -/
inductive WayFor
  /-- its set has a free way -/
  | room
  /-- the least recently used line of the set with no transaction gives up its way -/
  | victim (la : Nat)
  /-- every line of the set has a transaction in progress -/
  | busy
  deriving DecidableEq, Repr

/-- The lines that a line's slice holds, and those that it is reading from memory, which have their ways (R305, R318). -/
def sliceLines (s : State) (la : Nat) : List (Nat × HomeLine) :=
  s.llc.filterMap fun e =>
    match e.2 with
    | some l => if homeSlice s e.1 = homeSlice s la then some (e.1, l) else none
    | none => none
def sliceComing (s : State) (la : Nat) : List Nat :=
  s.homeTx.filterMap fun e =>
    if e.1 ≠ la ∧ (e.2.any fun t => t.phase == .memread) ∧ homeSlice s e.1 = homeSlice s la then some e.1 else none

/-- Two lines of a slice share a set (R305). -/
def sameSet (a b : Nat) : Bool := (Config.llcSet b).toNat % 1024 == (Config.llcSet a).toNat % 1024

/-- The way that a line would take: lines that are being read from memory have theirs (R305, R318). -/
def wayFor (s : State) (la : Nat) : WayFor :=
  let lines := sliceLines s la
  let coming := sliceComing s la
  let here (b : Nat) : Bool := sameSet la b
  let few := decide (lines.length + coming.length < 16)
  let mates := if few then [] else lines.filter fun m => here m.1
  if few || decide (mates.length + (coming.filter here).length < 16) then .room
  else
    let free := mates.filter fun m => (homeTx s m.1).isNone
    match free.find? fun m => free.all fun n => decide (m.2.used ≤ n.2.used) with
    | some m => .victim m.1
    | none => .busy

/-- A line is used: its order for replacement (R318). -/
def useLine (s : State) (la : Nat) : State :=
  let s := { s with useStamp := s.useStamp + 1 }
  match llcLine s la with
  | some l => setLlc s la (some { l with used := s.useStamp })
  | none => s

/-- A line read from memory is installed (R321). -/
def installLine (s : State) (la : Nat) : State := setLlc s la (some ⟨0, 0, false, false, s.useStamp⟩)

/-- A line is brought into its slice within a step, its victim's copies invalidated first; none where that must wait. -/
def fetchLine (s : State) (la : Nat) : Option State :=
  match llcLine s la with
  | some _ => some s
  | none =>
    match wayFor s la with
    | .room => some (installLine s la)
    | .busy => none
    | .victim v =>
      match llcLine s v with
      | none => some (installLine s la)
      | some l => (snoopPass s v l true none (snoopTargets s v l none)).map fun r => installLine (setLlc r.2 v none) la

/-- Transactions of a slice in progress (R321). -/
def sliceBusy (s : State) (sl : Nat) : Nat := (s.homeTx.filter fun e => homeSlice s e.1 == sl).length
/-- The requests that wait in a slice's input queue. -/
def sliceWait (s : State) (sl : Nat) : List (Nat × HomeReq) := tget (fun _ => []) s.sliceQ sl
/-! ### Reads of memory and patrol scrub (R321, R325, R328) -/

/-- A line is read from memory: of DRAM, a corrected one is counted and recorded, an uncorrectable one is poisoned whole; of CXL memory,
what the device reports as poisoned is poisoned (R321, R325, R328). -/
def lineRead (s : State) (la : Nat) (check : MemCheck) : State :=
  let d := homeDie la
  let ch := dramChannel la
  match check, regionMap (16 * la) with
  | .dram .corrected, .dram _ _ => report (count s d bMem (rMemCecnt + ch)) d bMem ch 0x0311 cCorrected 0x00 (w64 (16 * la)) 0 0
  | .dram .uncorrectable, .dram _ _ =>
    poisonWords (deferred (count s d bMem (rMemUecnt + ch)) d bMem ch 0x0311 0x05 (w64 (16 * la)) 0 0) (16 * la) 16
  | .cxl bad, .cxl _ _ => (List.range 16).foldl (fun s j => if bitOf bad.toNat j then poisonWords s (16 * la + j) 1 else s) s
  | _, _ => s

/-- A patrol scrub access reads its line: an uncorrectable line that the LLC holds is written back from there (R328). -/
def scrubRead (s : State) (la : Nat) (check : LineCheck) : State :=
  match check, llcLine s la with
  | .uncorrectable, some _ =>
    let d := homeDie la
    let ch := dramChannel la
    deferred (count s d bMem (rMemUecnt + ch)) d bMem ch 0x0311 0x00 (w64 (16 * la)) 0 0
  | _, _ => lineRead s la (.dram check)

def setWait (s : State) (sl : Nat) (q : List (Nat × HomeReq)) : State := { s with sliceQ := tset (fun _ => []) s.sliceQ sl q }

/-! ### Requests made and served within a step (R285, R306, R319) -/

/-- A home with no transaction on the line serves a request within a step: whether another cache's copy had to be taken or invalidated
(R331), and the state after it; none where a hold or a way makes it wait. `now` is that of `perform`. -/
def homeServe (s : State) (la : Nat) (r : HomeReq) (now : Bool) : Option (Bool × State) :=
  match fetchLine s la with
  | none => none
  | some s =>
    let s := useLine s la
    match llcLine s la with
    | none => none
    | some l =>
      if needsSnoop s la l r (freeHint s la r) then
        match snoopPass s la l (snoopInv r.kind) (idCache r.id) (snoopTargets s la l (notAsked s la r)) with
        | none => none
        | some p => some (p.1, perform p.2 la ((llcLine p.2 la).getD l) r now)
      else some (false, perform s la l r now)

/-- What waits at a home is served: a write-back of a line that the slice does not hold is discarded (R321). -/
def serveJob (s : State) (la : Nat) : HomeJob → Option State
  | .scrub c => some (scrubRead s la c)
  | .req r =>
    match r.kind, llcLine s la with
    | .wb, some l => some (perform s la l r false)
    | .wb, none => some (count s (homeDie la) bCoh rCohLatecnt)
    | _, _ => (homeServe s la r false).map (·.2)

/-- A transaction ends within a step: its pass is made with the answers that it has, and the request that it serves is performed, or comes
first among what is still to be served; none where a hold defers a snoop (R318, R321, R323). -/
def endTx (s : State) (la : Nat) (t : HomeTx) : Option (State × List HomeJob) :=
  let came := s.answers.filter fun a => a.line == la
  let s := dropSnoops { setTx s la none with answers := s.answers.filter fun a => a.line != la } la
  let first := (t.req.map HomeJob.req).toList ++ t.queue
  match llcLine s la with
  | none => some (s, first)
  | some l =>
    let s := if came.any fun a => a.kind == 3 then passLate s la t.due else s
    let l := if came.any fun a => a.kind == 2 then { l with dirty := true } else l
    match t.phase, t.req with
    | .evicting, _ => (snoopPass s la l true none t.due).map fun p => (setLlc p.2 la none, t.queue)
    | .snooping, some r =>
      (snoopPass s la l (snoopInv r.kind) (idCache r.id) t.due).map fun p => (perform p.2 la ((llcLine p.2 la).getD l) r false, t.queue)
    | _, _ => some (s, first)

/-- What is ahead of a request that comes to a line now is served within its step: the transaction on the line, what waits behind it, and
what waits for the line in its slice's input queue, in their order; for a line whose ways all have transactions, one of those (R318, R321,
R323). None where a hold defers it. DEDUCED (log 33): a step lasts until its turn has come. -/
def serveAhead : Nat → State → Nat → Option State
  | 0, _, _ => none
  | n + 1, s, la =>
    let waits := (sliceWait s (homeSlice s la)).filter fun e => e.1 == la
    let s := if waits.isEmpty then s else setWait s (homeSlice s la) ((sliceWait s (homeSlice s la)).filter fun e => e.1 != la)
    let room (s : State) : Option State :=
      if (llcLine s la).isSome ∨ wayFor s la ≠ .busy then some s
      else (((sliceLines s la).map (·.1) ++ sliceComing s la).find? fun b => sameSet la b && (homeTx s b).isSome).bind fun b => serveAhead n s b
    (match homeTx s la with
      | some t => endTx s la t
      | none => some (s, [])).bind fun p =>
        ((p.2 ++ waits.map fun (e : Nat × HomeReq) => HomeJob.req e.2).foldl (fun (o : Option State) j => o.bind fun s => (room s).bind fun s => serveJob s la j)
          (some p.1)).bind room

/-- A request of a core within its step: it crosses to its home, where it takes its turn, and the reply crosses back; none where a link, a
hold or a way makes it wait (R28, R292, R321, R323). -/
def homeNow (s : State) (la : Nat) (r : HomeReq) : Option (Bool × State) :=
  (cohCross s (idDie r.id) (homeDie la)).bind fun s => (serveAhead 4 s la).bind fun s => (homeServe s la r true).bind fun p =>
    (cohCross p.2 (homeDie la) (idDie r.id)).map fun s => (p.1, s)

/-- A cache has a copy for a load: it holds one, or the home gives it one (R308, R319). An address that nothing backs has no home. -/
def lineForRead (s : State) (cache la : Nat) : Option State :=
  if !backed s (16 * la) || holdsLine s cache la then some s
  else (homeNow s la (reqOf .rdS (cacheId cache))).map (·.2)

/-- A cache has the line EXCLUSIVE: it holds it so, or the home gives it (R280, R319). The first part says whether another cache had to
give it up (R331). -/
def lineForWrite (s : State) (cache la : Nat) : Option (Bool × State) :=
  if !backed s (16 * la) || ownsLine s cache la then some (false, s)
  else homeNow s la (reqOf .rdX (cacheId cache))

/-- Every copy of a line goes at once, besides those that no home tracks. -/
def loseEverywhere (s : State) (la : Nat) : State :=
  let s := (s.caches.filter fun e => e.1 % 2 ^ 45 == la && (strayOf s (e.1 / 2 ^ 45) la).isNone).foldl (fun s e => loseLine s (e.1 / 2 ^ 45) la) s
  match llcLine s la with
  | some l => setLlc s la (some { l with hs := 0, pres := 0, remote := false, dirty := true })
  | none => s

/-- The hold after an `lr` on a line ends (R292). -/
def endHolds (s : State) (la : Nat) : State :=
  if s.resvs.any fun r => r.holding && r.line == 16 * la then
    { s with resvs := s.resvs.map fun r => if r.line = 16 * la then { r with holding := false } else r }
  else s

/-- A request of a unit within its step, which lasts until it has its slots of the links, any hold on the line has ended, and its turn has
come; none where a hold on another line of the set stands in its way. DEDUCED (log 33). -/
def homeUnit (s : State) (la : Nat) (r : HomeReq) : Option State :=
  (serveAhead 4 (cohPass (endHolds s la) (idDie r.id) (homeDie la)) la).bind fun s => (homeServe s la r true).map fun p =>
    cohPass p.2 (homeDie la) (idDie r.id)

/-- A unit takes a line at its home for a write (`.devWr`) or a far add (`.amoFar`): no copy stays in a cache (R306, R330, R332). -/
def unitTakes (s : State) (die : Nat) (k : ReqKind) (la : Nat) : State :=
  (homeUnit s la (reqOf k (unitId die))).getD (loseEverywhere (endHolds s la) la)

/-- A unit reads the line of an address at its home: an owner keeps it SHARED (R306, R319); where nothing backs the address the access is
counted (R303). -/
def unitReads (s : State) (die wa : Nat) : State :=
  if backed s wa then (homeUnit s (wa / 16) (reqOf .rdS (unitId die))).getD s else noteRead s die wa

/-- A unit reads `n` words from an address, with a request for each line. -/
def unitRead (s : State) (die wa n : Nat) : State :=
  (List.range ((wa + n - 1) / 16 + 1 - wa / 16)).foldl (fun s i => unitReads s die (max wa (16 * (wa / 16 + i)))) s

/-- A unit reads `n` words at their homes: whether none of them is poisoned; a poisoned one is counted and recorded, and the unit abandons
what it belongs to (R306, R326). -/
def readClean (s : State) (die wa n : Nat) : Bool × State :=
  let s := unitRead s die wa n
  match firstBelow n fun j => isPoisoned s (wa + j) with
  | some j => (false, hwPoison s die (wa + j))
  | none => (true, s)

/-- A unit of `die` writes a whole word (R306, R332); a write where nothing answers is counted (R303). -/
def store (s : State) (die wa : Nat) (v : Word) : State :=
  if backed s wa then poke (unitTakes s die .devWr (wa / 16)) wa v else unbacked s die wa

/-- A unit changes a part of a word that it reads first; a poisoned word is left as it is (R306, R326, R327). -/
def unitMod (s : State) (die wa : Nat) (f : Word → Word) : State :=
  let r := readClean s die wa 1
  if r.1 then store r.2 die wa (f (peek r.2 wa)) else r.2

/-- Several words written by a unit of `die`. -/
def stores (s : State) (die wa : Nat) : List Word → State
  | [] => s
  | v :: vs => stores (store s die wa v) die (wa + 1) vs

/-- A far fetch-and-add of a unit on a word: the old value, and memory with the sum (R330). A poisoned word is left as it is, and the
unit counts what it abandons (R326, R327). -/
def farAdd (s : State) (die wa : Nat) (k : Word) : Word × State :=
  if !backed s wa then (peek s wa, hwPoison (noteRead s die wa) die wa)
  else if isPoisoned s wa then (peek s wa, hwPoison (unitTakes s die .amoFar (wa / 16)) die wa)
  else (peek s wa, poke (unitTakes s die .amoFar (wa / 16)) wa (peek s wa + k))

/-! ### What a core reads and writes in its L2 -/

/-- A word as the cache holds it: that of a copy that no home tracks, or that of memory (R276, R324). -/
def l2Word (s : State) (cache wa : Nat) : Word :=
  match strayOf s cache (wa / 16) with
  | some x => x.words.getD (wa % 16) 0
  | none => peek s wa

/-- The word is poisoned in the cache. -/
def l2Poisoned (s : State) (cache wa : Nat) : Bool := (strayOf s cache (wa / 16)).isNone && isPoisoned s wa

/-- A core writes a word of a line that its L2 owns: the line is MODIFIED (R307). What is written into a copy that no home tracks stays
in it (R324). -/
def l2Write (s : State) (cache wa : Nat) (v : Word) : State :=
  let s := match strayOf s cache (wa / 16) with
    | some _ =>
      { s with strays := s.strays.map fun x =>
          if x.cache = cache ∧ x.line = wa / 16 then { x with words := x.words.set (wa % 16) v } else x }
    | none => poke s wa v
  if ownsLine s cache (wa / 16) then setCache s cache (wa / 16) 3 else s

/-- A core of `die` writes a word into its L2; where nothing answers the write is counted (R303). The L1 copies of the spar's other PEs
go (R309). -/
def coreStore (s : State) (die cache wa : Nat) (v : Word) (keep : Option Nat) : State :=
  if backed s wa then dropL1 (l2Write s cache wa v) cache (wa / 16) keep else unbacked s die wa

/-- A logical core writes consecutive words of one line: one access (R278, R303), which its L1D and its L2 take (R305). -/
def coreStores (s : State) (c wa : Nat) (vs : List Word) : State :=
  if backed s wa then vs.zipIdx.foldl (fun s v => coreStore s (c / 8) (256 + c) (wa + v.2) v.1 (some c)) s else unbacked s (c / 8) wa

/-- A committed word also lands in the committing PE's L1D where that holds the line (R308). -/
def l1dWrite (s : State) (k pa : Nat) (v : Word) : State :=
  if l1dOn s k && ((getPe s k).l1d.any fun l => l.line == pa / 16) then
    modPe s k fun p =>
      { p with l1d := p.l1d.map fun l =>
          if l.line = pa / 16 then { l with words := l.words.set (pa % 16) v, psn := putFld l.psn (pa % 16) (pa % 16) 0 } else l }
  else s

/-- A PE's L1D takes a line from its spar L2, or makes it its most recently used one (R308). -/
def l1dFill (s : State) (k la : Nat) : State :=
  let cap := 48 - scratchLines s (peSpar k)
  let line := match (getPe s k).l1d.find? fun l => l.line == la with
    | some l => l
    | none => ⟨la, (List.range 16).map fun j => l2Word s (peSpar k) (16 * la + j),
        ((List.range 16).map fun j => b2n (l2Poisoned s (peSpar k) (16 * la + j)) * 2 ^ j).sum⟩
  modPe s k fun p => { p with l1d := (line :: p.l1d.filter fun l => l.line != la).take cap }

end Sys2Proof.Machine
end

