-- ==== Sys2Proof/Machine/Tables.lean ====
section
/-! DEFINITION. The partition tables in memory and the copies that the units of a die cache (spec 03 R87, 04 R123, 05 R156,
15 R477, 16 R490, R491; 18 R561). -/

namespace Sys2Proof.Machine

/-- Words of an entry of a partition table. -/
def ptWords : PTable → Nat
  | .pmt => 2
  | .pst => 2
  | .ppt => 8
  | .pxt => 8
  | .ptt => 2

/-- Words of an entry that hold configuration and are cached; the words after them are counters that the hardware keeps in
memory. -/
def ptCached : PTable → Nat
  | .pmt => 2
  | .pst => 2
  | .ppt => 2
  | .pxt => 6
  | .ptt => 2

/-- The physical word address of partition `p`'s entry of a table, from the base register of the die. -/
def ptAddr (s : State) (die : Nat) (t : PTable) (p : Nat) : Nat :=
  let b := match t with
    | .pmt => baseOf s die bSch rSchPmtbaseHi
    | .pst => baseOf s die bSch rSchPstbaseHi
    | .ppt => baseOf s die bSch rSchPptbaseHi
    | .pxt => baseOf s die bSch rSchPxtbaseHi
    | .ptt => baseOf s die bFrl rFrlPttbaseHi
  b + ptWords t * p

/-! The units that read the tables: the SCH block, translation unit and transform scheduler of die d share the number d. -/

/-- A spar as a reader of the tables. -/
abbrev uSpar (g : Nat) : Nat := 8 + g
/-- A channel engine, 16 × die + engine, as a reader of the tables. -/
abbrev uCen (k : Nat) : Nat := 264 + k
/-- The die of a reader. -/
def uDie (u : Nat) : Nat := if u < 8 then u else if u < 264 then (u - 8) / 32 else (u - 264) / 16

/-- The entries of a table that a unit can hold: each spar and channel engine 64 of the matching table (R88), each spar and flow arbiter
64 of the scheduling table (R124), and each die every entry of the others. DEDUCED: a unit that no rule gives a cache reads memory. -/
def ptPlaces (u : Nat) : PTable → Nat
  | .pmt => if u < 8 then 0 else 64
  | .pst => if u < 264 then 64 else 0
  | _ => if u < 8 then 1024 else 0

/-- The configuration words of an entry as a unit sees them: its cached copy, else memory. An entry with a poisoned word is abandoned, and
acts as one with `V` = 0 (R326; DEDUCED: log 154). -/
def ptEntry (s : State) (u : Nat) (t : PTable) (p : Nat) : List Word :=
  match s.pcache.find? fun c => c.unit == u && c.table == t && c.part == p with
  | some c => c.words
  | none =>
    let a := ptAddr s (uDie u) t p
    if (firstBelow (ptCached t) fun j => isPoisoned s (a + j)).isSome then [] else peeks s a (ptCached t)

/-- Word `i` of an entry, as a number. -/
def ptWord (s : State) (u : Nat) (t : PTable) (p i : Nat) : Nat := ((ptEntry s u t p).getD i 0).toNat

/-- The entry is valid: bit 63 of word 0. -/
def ptValid (s : State) (u : Nat) (t : PTable) (p : Nat) : Bool := bitOf (ptWord s u t p 0) 63

/-- The copies that a unit holds of a table, oldest first. -/
def ptHeld (s : State) (u : Nat) (t : PTable) : List PCache := s.pcache.filter fun c => c.unit == u && c.table == t

/-- A unit reads an entry that its cache does not hold (R306): a valid one enters the cache, and the oldest leaves a full one (R88, R124,
R561); an invalid one is never cached, and a poisoned word is counted (R326). -/
def ptFill (s : State) (u : Nat) (t : PTable) (p : Nat) : State :=
  if (ptHeld s u t).any fun c => c.part == p then s
  else
    let s := (readClean s (uDie u) (ptAddr s (uDie u) t p) (ptCached t)).2
    if ptValid s u t p && decide (0 < ptPlaces u t) then
      let kept := if (ptHeld s u t).length < ptPlaces u t then s.pcache
        else match ptHeld s u t with
          | c :: _ => s.pcache.erase c
          | [] => s.pcache
      { s with pcache := kept ++ [⟨u, t, p, ptEntry s u t p⟩] }
    else s

/-- The cached copies of an entry on a die are removed (R88, R124, R157, R477, R491). -/
def ptInvalidate (s : State) (die : Nat) (t : PTable) (p : Nat) : State :=
  { s with pcache := s.pcache.filter fun c => !(uDie c.unit == die && c.table == t && c.part == p) }

/-! Partition matching table (R87). -/
/-- `LOG2H`. DESIGN CHOICE (log 24): the spec gives it the values 0 to 8 and no meaning to 9 to 15, which act here as 8. -/
def pmtLog2H (s : State) (d p : Nat) : Nat := min 8 (fld (ptWord s d .pmt p 0) 59 56)
def pmtHome (s : State) (d p : Nat) : Nat := fld (ptWord s d .pmt p 0) 55 48
/-- `LOG2E`. DESIGN CHOICE (log 24): outside 4 to 26, to which the spec gives no effect, a value below 4 makes one bucket and one above 26
acts as written (`bucketOff`). -/
def pmtLog2E (s : State) (d p : Nat) : Nat := fld (ptWord s d .pmt p 1) 53 49
def pmtMsa (s : State) (d p : Nat) : Nat := fld (ptWord s d .pmt p 1) 48 0

/-! Partition scheduling table (R123). DESIGN CHOICE (log 24): the spec gives `LOG2I` the values 0 to 8 and `LOG2N` 10 to 20, and no effect
to the others; the model uses 2 to the written value. -/
def pstFdie (s : State) (d p : Nat) : Nat := fld (ptWord s d .pst p 0) 62 60
def pstLog2Fd (s : State) (d p : Nat) : Nat := fld (ptWord s d .pst p 0) 59 58
def pstItemBase (s : State) (d p : Nat) : Nat := fld (ptWord s d .pst p 0) 55 48
def pstLog2I (s : State) (d p : Nat) : Nat := fld (ptWord s d .pst p 0) 47 44
def pstIv (s : State) (d p : Nat) : Bool := bitOf (ptWord s d .pst p 0) 43
def pstLog2N (s : State) (d p : Nat) : Nat := fld (ptWord s d .pst p 0) 42 38
/-- Ready-list places of the partition in each level; 0 means 256. -/
def pstRlcap (s : State) (d p : Nat) : Nat :=
  let c := fld (ptWord s d .pst p 0) 35 28
  if c = 0 then 256 else c
def pstWq (s : State) (d p : Nat) : Nat := fld (ptWord s d .pst p 1) 48 0

/-! Partition progress table (R156): the values in force, with those of an invalid entry. -/
def pptQshare (s : State) (d p : Nat) : Nat :=
  if ptValid s d .ppt p then max 16 (min 768 (fld (ptWord s d .ppt p 0) 62 52)) else 16
/-- The spill-ring quota in slots (R156). -/
def pptQuota (s : State) (d p : Nat) : Nat :=
  if ptValid s d .ppt p then 256 * max 1 (fld (ptWord s d .ppt p 0) 51 40) else 256
def pptLuffw (s : State) (d p : Nat) : Nat :=
  if ptValid s d .ppt p then fld (ptWord s d .ppt p 0) 39 24 else 0
/-- `LOG2G` and `LOG2W`. DESIGN CHOICE (log 24): `LOG2G` 13 to 15 and `LOG2W` 0 and 1, to which the spec gives no effect, act as 2 to the
written value. -/
def pptLog2G (s : State) (d p : Nat) : Nat := fld (ptWord s d .ppt p 0) 23 20
def pptLog2W (s : State) (d p : Nat) : Nat := fld (ptWord s d .ppt p 0) 19 16
def pptGv (s : State) (d p : Nat) : Bool := ptValid s d .ppt p && bitOf (ptWord s d .ppt p 0) 15
def pptFclose (s : State) (d p : Nat) : Bool := ptValid s d .ppt p && bitOf (ptWord s d .ppt p 0) 14
def pptGt (s : State) (d p : Nat) : Nat := fld (ptWord s d .ppt p 1) 48 0

/-- One of the 64-bit counters of a valid progress entry rises by far add (R156). -/
def pptCount (s : State) (d p w : Nat) : State :=
  if ptValid s d .ppt p then (farAdd s d (ptAddr s d .ppt p + w) 1).2 else s

/-! Partition execution table (R490). -/
def pxtScopeOvf (s : State) (d p : Nat) : Bool := bitOf (ptWord s d .pxt p 0) 62
def pxtAssure (s : State) (d p : Nat) : Bool := bitOf (ptWord s d .pxt p 0) 61
/-- `LOG2TR`. DESIGN CHOICE (log 24): outside 4 to 16, to which the spec gives no effect, 2 to the written value. -/
def pxtLog2Tr (s : State) (d p : Nat) : Nat := fld (ptWord s d .pxt p 0) 56 52
def pxtTrapen (s : State) (d p : Nat) : Nat := fld (ptWord s d .pxt p 0) 51 44
def pxtRmode (s : State) (d p : Nat) : Nat := fld (ptWord s d .pxt p 0) 43 41
def pxtFbase (s : State) (d p : Nat) : Nat := fld (ptWord s d .pxt p 1) 63 39
def pxtFcount (s : State) (d p : Nat) : Nat := fld (ptWord s d .pxt p 1) 38 14
def pxtTframe (s : State) (d p : Nat) : Nat := fld (ptWord s d .pxt p 2) 63 39
def pxtHcodelet (s : State) (d p : Nat) : Nat := fld (ptWord s d .pxt p 2) 38 21
def pxtTrbase (s : State) (d p : Nat) : Nat := fld (ptWord s d .pxt p 3) 48 0
def pxtAst (s : State) (d p : Nat) : Nat := fld (ptWord s d .pxt p 5) 48 0
/-- PSTATE, which the hardware keeps in memory. -/
def pxtPstate (s : State) (p : Nat) : Nat := wfld (peek s (ptAddr s 0 .pxt p + 7)) 63 62

/-- LIVE of a partition's execution entry changed by the hardware. -/
def pxtLive (s : State) (d p : Nat) (k : Word) : State :=
  if ptValid s d .pxt p then (farAdd s d (ptAddr s d .pxt p + 6) k).2 else s

/-! Frame descriptors (R50, R51). -/

/-- The address of a frame's descriptor, from the base register of a die. -/
def descAddr (s : State) (d f : Nat) : Nat := baseOf s d bSch rSchFtbaseHi + 4 * f
abbrev fsFree : Nat := 0
abbrev fsLive : Nat := 1
abbrev fsQuar : Nat := 2
abbrev fsFixed : Nat := 3
def frPart (s : State) (d f : Nat) : Nat := wfld (peek s (descAddr s d f)) 63 54
def frGen (s : State) (d f : Nat) : Nat := wfld (peek s (descAddr s d f)) 53 48
def frState (s : State) (d f : Nat) : Nat := wfld (peek s (descAddr s d f)) 47 46
def frAsid (s : State) (d f : Nat) : Nat := wfld (peek s (descAddr s d f)) 45 40
def frBody (s : State) (d f : Nat) : Nat := wfld (peek s (descAddr s d f + 1)) 48 0
def frGraph (s : State) (d f : Nat) : Nat := wfld (peek s (descAddr s d f + 2)) 48 0

/-- A descriptor's GEN and STATE written, in the word that the unit has read; a poisoned word is left as it is (R306, R326, R327). -/
def setFrame (s : State) (d f gen st : Nat) : State := unitMod s d (descAddr s d f) fun w => wput (wput w 53 48 gen) 47 46 st

/-- The hardware lists of a partition. -/
def getHw (s : State) (p : Nat) : PartHw := tget (fun _ => PartHw.init) s.hw p
def modHw (s : State) (p : Nat) (f : PartHw → PartHw) : State := { s with hw := tmod (fun _ => PartHw.init) s.hw p f }

/-! Tags (R38). -/
def tagPart (t : Word) : Nat := wfld t 63 54
def tagFrame (t : Word) : Nat := wfld t 53 29
def tagGen (t : Word) : Nat := wfld t 28 23
def tagCodelet (t : Word) : Nat := wfld t 22 5
def tagPort (t : Word) : Nat := wfld t 4 2
def tagPrio (t : Word) : Nat := wfld t 1 0
/-- The key of a tag: PART, FRAME, GEN and CODELET (R46). -/
def tagKey (t : Word) : Nat := t.toNat / 32
/-- A tag from its fields. -/
@[irreducible] def mkTag (part frame gen codelet port prio : Nat) : Word :=
  w64 (part % 2 ^ 10 * 2 ^ 54 + frame % 2 ^ 25 * 2 ^ 29 + gen % 2 ^ 6 * 2 ^ 23 + codelet % 2 ^ 18 * 2 ^ 5 + port % 8 * 4 + prio % 4)

end Sys2Proof.Machine
end

