-- ==== Sys2Proof/Machine/Xlate.lean ====
section
/-! DEFINITION. Address translation and its checks (spec 16: R500 to R506). -/

namespace Sys2Proof.Machine

/-- The causes of R78 and R344. -/
abbrev tIllegal : Nat := 0x01
abbrev tPriv : Nat := 0x02
abbrev tXlate : Nat := 0x03
abbrev tProt : Nat := 0x04
abbrev tPoison : Nat := 0x05
abbrev tDz : Nat := 0x06
abbrev tFp : Nat := 0x07
abbrev tDecimal : Nat := 0x08
abbrev tScopeOvf : Nat := 0x09
abbrev tRunlimit : Nat := 0x0A
abbrev tMisaddr : Nat := 0x0B
abbrev tDupop : Nat := 0x0C
abbrev tFrame : Nat := 0x0D
abbrev tRetryFail : Nat := 0x0E
abbrev tBuserr : Nat := 0x0F
abbrev tSys : Nat := 0x10
abbrev tEvent : Nat := 0x11
abbrev tDouble : Nat := 0x12

/-- Who makes a translated access (R500, R504). -/
structure Ctx where
  die : Nat
  part : Nat
  asid : Nat
  /-- a codelet, PL0, or a channel engine for work of either: the page needs `U` -/
  user : Bool
  /-- codelet mode or a channel engine: no device page -/
  noDev : Bool
  /-- PL2 or a sealed context: the sealed range is open -/
  shut : Bool
  /-- whose cache: 0 the die's translation unit, 1 + e its channel engine e (R424, R505) -/
  unit : Nat
  deriving DecidableEq, Repr

/-- The kinds of access that R504 tells apart. -/
inductive Acc
  | read | write | readWrite | fetch
  deriving DecidableEq, Repr

/-- Index bits of a level (R501). -/
def lvlIndex (va : Nat) : Nat → Nat
  | 3 => fld va 48 38
  | 2 => fld va 37 27
  | 1 => fld va 26 18
  | _ => fld va 17 13

/-- Words of a leaf page of a level (R501). -/
def lvlSize : Nat → Nat
  | 3 => 2 ^ 38
  | 2 => 2 ^ 27
  | 1 => 2 ^ 18
  | _ => 2 ^ 13

/-- The walk below a table at `t` of level `lvl`; the answer is the leaf entry and its page size, `none` for an XLATE
fault (R503). A poisoned table word faults. -/
def walk (s : State) (va : Nat) : Nat → Nat → Option (Word × Nat)
  | t, lvl =>
    let a := t + lvlIndex va lvl
    let e := peek s a
    if isPoisoned s a || !wbit e 63 then none
    else if wbit e 62 then
      if lvl = 3 ∨ wfld e 48 0 % lvlSize lvl ≠ 0 then none else some (e, lvlSize lvl)
    else
      match lvl with
      | 0 => none
      | l + 1 => walk s va (wfld e 48 0) l
termination_by structural _ lvl => lvl

/-- The poisoned table word that a walk meets, if it meets one (R503). -/
def walkPoison (s : State) (va : Nat) : Nat → Nat → Option Nat
  | t, lvl =>
    let a := t + lvlIndex va lvl
    let e := peek s a
    if isPoisoned s a then some a
    else if !wbit e 63 || wbit e 62 then none
    else
      match lvl with
      | 0 => none
      | l + 1 => walkPoison s va (wfld e 48 0) l
termination_by structural _ lvl => lvl

/-- The address of the address-space word of a context (R500). -/
def astAddr (s : State) (c : Ctx) : Nat := pxtAst s c.die c.part + c.asid % 64

/-- The cached translation is one of the context's own cache for the address (R505). -/
def tlbHit (c : Ctx) (va : Nat) (l : TlbLine) : Bool :=
  l.die == c.die && l.unit == c.unit && l.part == c.part && l.asid == c.asid && decide (l.va ≤ va) && decide (va < l.va + l.size)

/-- Translations that a cache holds (R424, R505). -/
def tlbSize (unit : Nat) : Nat := if unit = 0 then 16384 else 1024

/-- A translation enters a cache; a full one drops its oldest (DESIGN CHOICE, log entry 24). -/
def tlbAdd (t : List TlbLine) (l : TlbLine) : List TlbLine :=
  let mine (m : TlbLine) : Bool := m.die == l.die && m.unit == l.unit
  (if tlbSize l.unit ≤ (t.filter mine).length then
    match t.findIdx? mine with
    | some i => t.eraseIdx i
    | none => t
  else t) ++ [l]

/-- The address-space word that a context's cache holds together with its translations (R491, R505). -/
def astHeld (s : State) (c : Ctx) : Option Word :=
  (s.tlb.find? fun l => l.die == c.die && l.unit == c.unit && l.part == c.part && l.asid == c.asid).map (·.ast)

/-- The address-space word of a context: the cached one, else the word of the table; none where that is poisoned (R500, R503). -/
def astWord (s : State) (c : Ctx) : Option Word :=
  match astHeld s c with
  | some w => some w
  | none => if isPoisoned s (astAddr s c) then none else some (peek s (astAddr s c))

/-- The leaf entry and page size of an address: the cached translation, else the walk; under an execution entry with `V` = 0 every access
faults (R503, R505). -/
def leafOf (s : State) (c : Ctx) (va : Nat) : Option (Word × Nat) :=
  if !ptValid s c.die .pxt c.part then none
  else
    match s.tlb.find? (tlbHit c va) with
    | some l => some (l.pte, l.size)
    | none =>
      match astWord s c with
      | none => none
      | some w => if wbit w 63 then walk s va (wfld w 48 0) 3 else none

/-- The page overlaps the sealed range, which a length of 0 makes none (R504, R510). -/
def inSealed (s : State) (die base size : Nat) : Bool :=
  let b := baseOf s die bXlt rXltSealHi
  let n := 8192 * getReg s die bXlt rXltSeallen
  decide (0 < n) && decide (base < b + n) && decide (b < base + size)

/-- The permission check of R504. -/
def permits (s : State) (c : Ctx) (acc : Acc) (pte : Word) (size : Nat) : Bool :=
  let base := wfld pte 48 0
  let dev := match regionMap base with
    | .device _ _ => true
    | _ => false
  (match acc with
    | .read => wbit pte 61
    | .write => wbit pte 60
    | .readWrite => wbit pte 61 && wbit pte 60
    | .fetch => wbit pte 59)
  && (wbit pte 58 || !c.user)
  && (wbit pte 57 == dev)
  && !(wbit pte 57 && c.noDev)
  && (!inSealed s c.die base size || c.shut)

/-- A translated and checked access: the physical word address, or the cause (R503, R504). -/
def translate (s : State) (c : Ctx) (acc : Acc) (va : Nat) : Except Nat Nat :=
  match leafOf s c (va % 2 ^ 49) with
  | none => .error tXlate
  | some (pte, size) =>
    if permits s c acc pte size then .ok (wfld pte 48 0 + va % 2 ^ 49 % size) else .error tProt

/-- The table words of a walk, each read at the home of its line (R306). -/
def walkReads (s : State) (die va : Nat) : Nat → Nat → State
  | t, lvl =>
    let a := t + lvlIndex va lvl
    let e := peek s a
    let s := unitRead s die a 1
    if isPoisoned s a || !wbit e 63 || wbit e 62 then s
    else
      match lvl with
      | 0 => s
      | l + 1 => walkReads s die va (wfld e 48 0) l
termination_by structural _ lvl => lvl

/-- What a walk for an address reads: the address-space word where the cache does not hold it, then the tables. -/
def walkAll (s : State) (c : Ctx) (va : Nat) : State :=
  let t := if (astHeld s c).isSome then s else unitRead s c.die (astAddr s c) 1
  match astWord s c with
  | none => t
  | some w => if wbit w 63 then walkReads t c.die va (wfld w 48 0) 3 else t

/-- The poisoned word that a walk for an address has met, if it has: the address-space word or a table word (R503). -/
def xlatePoison (s : State) (c : Ctx) (va : Nat) : Option Nat :=
  match astWord s c with
  | none => some (astAddr s c)
  | some w => if wbit w 63 then walkPoison s va (wfld w 48 0) 3 else none

/-- The cache of the unit that makes an access keeps the translation used, with its address-space word (R505), and a poisoned table word that
a walk met is recorded (R503). The walk takes the execution entry from its die's copy, which it fills (R491). -/
def xlateNote (s : State) (c : Ctx) (va : Nat) : State :=
  let va := va % 2 ^ 49
  let s := if s.tlb.any (tlbHit c va) then s else ptFill s c.die .pxt c.part
  if s.tlb.any (tlbHit c va) || !ptValid s c.die .pxt c.part then s
  else
    let t := walkAll s c va
    match leafOf t c va, xlatePoison t c va with
    | some (pte, size), _ =>
      { t with tlb := tlbAdd t.tlb ⟨c.die, c.unit, c.part, c.asid, va / size * size, size, pte, (astWord t c).getD 0⟩ }
    | none, some a => deferred t c.die bCoh 0xFF 0x0305 0x00 (w64 a) 0 0
    | none, none => t

/-- The context of a codelet access (R500). -/
def codeletCtx (die part asid : Nat) : Ctx := ⟨die, part, asid, true, true, false, 0⟩

/-- A unit of the context's die reads `n` words of a page at their homes (R306), once its translation has been looked up. -/
def unitNote (s : State) (c : Ctx) (va n : Nat) : State :=
  let s := xlateNote s c va
  match translate s c .read va with
  | .ok pa => unitRead s c.die pa n
  | .error _ => s

/-- A translated read of one word: the word, or the cause with the address as the access named it (R504, R326). -/
def readVa (s : State) (c : Ctx) (va : Nat) : Except Nat Word :=
  match translate s c .read va with
  | .error e => .error e
  | .ok pa => if isPoisoned s pa then .error tPoison else .ok (peek s pa)

end Sys2Proof.Machine
end

