-- ==== Sys2Proof/Machine/Token.lean ====
section
/-! DEFINITION. The token plane's shared operations: flit fields and check bits, home spars and routes, injection into the
mesh, frame handles, traps to be delivered, watermarks and Ratline records (spec 02 to 04). -/

namespace Sys2Proof.Machine

/-! ### Units -/

/-- The physical PE in a service slot of a spar, 15 for none (R532). -/
def slotPe (s : State) (g slot : Nat) : Nat :=
  if slot < 8 then fld (getReg s (g / 32) (bClu (g % 32)) rCluPemap) (4 * slot + 3) (4 * slot)
  else getF s (g / 32) (bClu (g % 32)) rCluPectl 3 0
/-- The service slot that a physical PE serves, 15 for none. -/
def peSlot (s : State) (g p : Nat) : Nat := ((firstBelow 9 fun k => slotPe s g k == p).getD 15)
/-- The spar acts: its die is live, its block enabled, its power on, and it is in service. -/
def sparLive (s : State) (g : Nat) : Bool :=
  dieLive s (g / 32) && blkEn s (g / 32) (bClu (g % 32)) && !(getSpar s g).out && !(getSpar s g).gated
/-- The spar runs in item mode (R141). -/
def itemMode (s : State) (g : Nat) : Bool := getF s (g / 32) (bClu (g % 32)) rCluSchctl 31 31 == 1
/-- A CLU counter of a spar counts. -/
def countClu (s : State) (g word : Nat) : State := count s (g / 32) (bClu (g % 32)) word
/-- A CLU counter rises by `n`. -/
def countCluN (s : State) (g word n : Nat) : State := countF s (g / 32) (bClu (g % 32)) word 31 0 n

/-! ### Flits (R41, R42, R92 to R95) -/

abbrev kValue : Nat := 0
abbrev kSignal : Nat := 1
abbrev kCompletion : Nat := 2
abbrev kTrap : Nat := 3

/-- ROUTE from its fields (R92). -/
@[irreducible] def mkRoute (vc cls die dest : Nat) : BitVec 12 :=
  BitVec.ofNat 12 (vc % 4 * 2 ^ 10 + cls % 4 * 2 ^ 8 + die % 8 * 2 ^ 5 + dest % 32)
/-- The original kind: KIND bits [130:128] (R42). -/
def origKind (f : Flit) : Nat := f.kind.toNat % 8
/-- ROUTE holds a value that is never produced (R92). -/
def routeBad (f : Flit) : Bool := flitVc f == 3 || flitCls f == 3 || (flitCls f == 2 && decide (16 ≤ flitDest f))
/-- A KIND or ROUTE value that is never produced (R42, R43, R92). A purge's KIND is ignored (R92). -/
def neverProduced (f : Flit) : Bool := routeBad f || flitCls f != 1 && decide (4 ≤ origKind f)
/-- The 144 protected bits of a flit (R41). -/
@[irreducible] def flitData (f : Flit) : Nat :=
  f.route.toNat * 2 ^ 132 + f.kind.toNat * 2 ^ 128 + f.tag.toNat * 2 ^ 64 + f.value.toNat
/-- The flit that 144 bits spell. -/
def flitOfData (n : Nat) : Flit := ⟨BitVec.ofNat 12 (n / 2 ^ 132), BitVec.ofNat 4 (n / 2 ^ 128), w64 (n / 2 ^ 64), w64 n⟩

/-- The codes of the 72 data bits: 3, 5, 6, 7, 9, ... 79 (R94). -/
def secdedCodes : List Nat := (List.range 80).filter fun n => decide (3 ≤ n) && !(n == 4 || n == 8 || n == 16 || n == 32 || n == 64)

/-- The low seven check bits of 72 data bits (R94). -/
@[irreducible] def secdedLow (d : Nat) : Nat :=
  ((List.range 72).zip secdedCodes).foldl (fun c p => if bitOf d p.1 then c ^^^ p.2 else c) 0

/-- The check bits of 72 data bits (R94). -/
@[irreducible] def secded (d : Nat) : Nat := secdedLow d + 2 ^ 7 * b2n (parity 72 d != parity 7 (secdedLow d))

/-- What the check of one half finds (R94). -/
inductive HalfCheck
  | clean | fixed (d : Nat) | bad
  deriving DecidableEq, Repr

/-- The check of 72 received data bits and 8 received check bits (R94). -/
@[irreducible] def checkHalf (d c : Nat) : HalfCheck :=
  let syn := (secdedLow d ^^^ c) % 2 ^ 7
  let p := parity 72 d != parity 8 c
  if !p then (if syn = 0 then .clean else .bad)
  else if syn = 0 ∨ (List.range 7).any (fun j => syn == 2 ^ j) then .fixed d
  else
    match secdedCodes.idxOf? syn with
    | some i => .fixed (d ^^^ 2 ^ i)
    | none => .bad

/-- What the check of a received flit finds; `err` is the pattern of bits that changed on the way (R94, R95). -/
inductive FlitCheck
  | clean (f : Flit) | fixed (f : Flit)
  /-- uncorrectable; the tag bits [63:8] where the high half checked clean -/
  | bad (tag : Word)
  deriving DecidableEq, Repr

/-- What the checks of the two halves of a flit say together, `lo` and `hi` being the bits received: in a half without error they go on as
they are (R94, R95). -/
def joinHalves (lo hi : Nat) : HalfCheck → HalfCheck → FlitCheck
  | .bad, .clean => .bad (w64 (hi / 2 ^ 0 * 2 ^ 8))
  | .bad, _ => .bad 0
  | _, .bad => .bad 0
  | .clean, .clean => .clean (flitOfData (hi * 2 ^ 72 + lo))
  | .fixed l, .clean => .fixed (flitOfData (hi * 2 ^ 72 + l))
  | .clean, .fixed h => .fixed (flitOfData (h * 2 ^ 72 + lo))
  | .fixed l, .fixed h => .fixed (flitOfData (h * 2 ^ 72 + l))

/-- The check of a flit on receipt (R94, R95). -/
@[irreducible] def checkFlit (f : Flit) (err : BitVec 160) : FlitCheck :=
  let lo := fld (flitData f) 71 0
  let hi := fld (flitData f) 143 72
  let rlo := lo ^^^ fld err.toNat 71 0
  let rhi := hi ^^^ fld err.toNat 143 72
  joinHalves rlo rhi (checkHalf rlo (secded lo ^^^ fld err.toNat 151 144)) (checkHalf rhi (secded hi ^^^ fld err.toNat 159 152))

/-- What follows from the check of a flit: the flit that goes on, if one does, and what is counted and recorded (R95). -/
def flitChecked (s : State) (die block unit det : Nat) (inj : Bool) : FlitCheck → Option Flit × State
  | .clean g => (some g, s)
  | .fixed g => (some g, report (countF s die bSch rSchFlitcnt 15 0 1) die block unit det cCorrected 0x00 0 g.tag 0 inj)
  | .bad t => (none, report (countF s die bSch rSchFlitcnt 31 16 1) die block unit det cDeferred 0x06 0 t 0 inj)

/-- A flit is checked on receipt, counted and recorded: the flit that goes on, if one does (R95). An armed CHECKINV inverts check bits of
the flit's low half, in the order of R94 (R546; DESIGN CHOICE: log 142). -/
def recvFlit (s : State) (die block unit det : Nat) (f : Flit) (err : BitVec 160) : Option Flit × State :=
  match armed s die det block unit 1 with
  | none => flitChecked s die block unit det false (checkFlit f err)
  | some j =>
    flitChecked (injUse s die) die block unit det (j.mask % 256 != 0) (checkFlit f (err ^^^ BitVec.ofNat 160 (j.mask % 256 * 2 ^ 144)))

/-! ### Home spars and routes (R86 to R93, R112 to R115) -/

/-- home_hash of a frame (R89). -/
@[irreducible] def homeHash (part frame : Nat) : Nat :=
  fld frame 7 0 ^^^ rotl 8 (fld frame 15 8) 1 ^^^ rotl 8 (fld frame 23 16) 2 ^^^ fld frame 24 24
    ^^^ (rotl 8 (fld part 7 0) 6 ^^^ fld part 9 8)

/-- The home spar of a frame, as a unit computes it from the entry that it sees; none without a valid home (R89, R90). -/
def homeOf (s : State) (u part frame : Nat) : Option Nat :=
  if ptValid s u .pmt part then
    let g := pmtHome s u part + homeHash part frame % 2 ^ pmtLog2H s u part
    if g < 32 * nDies s.part then some g else none
  else none

/-- Ports of a router as numbers. -/
def portNo : MeshPort → Nat
  | .north => 0
  | .south => 1
  | .east => 2
  | .west => 3
  | .unit => 4
  | .sch => 5

/-- The router at which a flit on die `d` leaves the mesh (R112, R113). -/
def exitRouter (s : State) (d : Nat) (f : Flit) : Nat :=
  if flitDie f = d then (if flitCls f = 2 then 34 + flitDest f % 16 / 4 else flitDest f)
  else if linkFor s d (flitDie f) = 0 then 39 else 32

/-- The output port of router `r` of die `d` that a flit takes: first along x, then along y (R113). -/
def outPort (s : State) (d r : Nat) (f : Flit) : MeshPort :=
  let e := exitRouter s d f
  if e % 8 < r % 8 then .west
  else if r % 8 < e % 8 then .east
  else if e / 8 < r / 8 then .north
  else if r / 8 < e / 8 then .south
  else if flitDie f = d then .unit
  else if r = 39 then .east else .west

def getRouter (s : State) (d r : Nat) : Router := tget (fun _ => Router.init) (getDie s d).routers r
def modRouter (s : State) (d r : Nat) (f : Router → Router) : State :=
  modDie s d fun x => { x with routers := tmod (fun _ => Router.init) x.routers r f }

/-- The VC of a flit as a queue index: 1 for VC1 and 0 otherwise. -/
def vcBit (f : Flit) : Nat := if flitVc f = 1 then 1 else 0

/-- Places of a router input for a VC (R113). -/
def inputCap (v : Nat) : Nat := if v = 1 then 4 else 8

/-- A router's local input takes waiting flits of its units while it has room (R113). -/
def refillSrc (s : State) (d r : Nat) (p : MeshPort) (v : Nat) : State :=
  let x := getRouter s d r
  let k := 2 * portNo p + v
  match tget (fun _ => []) x.src k with
  | [] => s
  | f :: rest =>
    if (tget (fun _ => []) x.q k).length < inputCap v then
      modRouter s d r fun x =>
        { x with src := tset (fun _ => []) x.src k rest, q := tmod (fun _ => []) x.q k (· ++ [f]) }
    else s

/-- A unit hands a flit to its router's local port (R112). -/
def inject (s : State) (d r : Nat) (p : MeshPort) (f : Flit) : State :=
  refillSrc (modRouter s d r fun x => { x with src := tmod (fun _ => []) x.src (2 * portNo p + vcBit f) (· ++ [f]) })
    d r p (vcBit f)

/-! ### Frame handles (R54 to R59) -/

/-- A handle enters the tail of the quarantine FIFO; the 65,537th from the tail leaves for the free list (R58, R59). DESIGN CHOICE (log
139): no rule writes `STATE` of a handle that goes from the FIFO to the free list, or that a discarded scope gives back, and its descriptor
keeps QUARANTINE until the frame is allocated. -/
def enterQuar (h : PartHw) (f : Nat) : PartHw :=
  let q := h.quar ++ [f]
  match q with
  | [] => h
  | a :: rest => if 65536 < q.length then { h with quar := rest, free := h.free ++ [a] } else { h with quar := q }

/-- A purge is complete: its frame's handle enters the FIFO, or under DESTROY its descriptor becomes FREE, which the purge of an earlier
generation leaves to the purge that DESTROY has sent (R58, R498). -/
def purgeDone (s : State) (d : Nat) (tag : Word) : State :=
  let f := tagFrame tag
  if (getHw s (tagPart tag)).destroying then
    if (tagGen tag + 1) % 64 = frGen s d f then setFrame s d f (frGen s d f) fsFree else s
  else modHw s (tagPart tag) fun h => enterQuar h f

/-- The last station before a die on the way from another die (R115, R542). -/
def stationBefore (s : State) (d t : Nat) : Nat :=
  if linkFor s d t = 0 then (t + nDies s.part - 1) % nDies s.part else (t + 1) % nDies s.part

/-- A flit or message for a withdrawn die is discarded at the last station before it (R542). -/
def deadTo (s : State) (d t : Nat) : State := count s (stationBefore s d t) bMdr rMdrDeadflit

/-- A source has no home for a flit (R90). -/
def noHome (s : State) (d : Nat) (tag : Word) : State :=
  deferred (count s d bSch rSchNohomecnt) d bSch 0xFF 0x0403 0x06 0 tag 0

/-- A flit's class 0 token as its source builds it (R86, R92, R93). -/
def mkToken (g : Nat) (kind : Nat) (tag value : Word) : Flit :=
  ⟨mkRoute (if tagPrio tag = 0 then 1 else 0) 0 (g / 32) (g % 32), BitVec.ofNat 4 kind, tag, value⟩

/-- A purge flit (R92, R93). -/
def mkPurge (g : Nat) (tag : Word) : Flit := ⟨mkRoute 1 1 (g / 32) (g % 32), 0, tag, 0⟩

/-- A token as its source builds it, with the home spar that the source computes; where it computes none the flit never leaves (R90). -/
def homeToken (s : State) (u kind : Nat) (tag value : Word) : Flit := mkToken ((homeOf s u (tagPart tag) (tagFrame tag)).getD 0) kind tag value
/-- A purge as its source builds it (R57). -/
def homePurge (s : State) (u : Nat) (tag : Word) : Flit := mkPurge ((homeOf s u (tagPart tag) (tagFrame tag)).getD 0) tag

/-- A PE releases an output (R63, R158). -/
def peRelease (s : State) (k : Nat) (o : Output) : State := modPe s k fun p => { p with out := p.out ++ [o] }

/-- A unit at a router's port sends a token (R86, R90, R93). -/
def sendToken (s : State) (u r : Nat) (p : MeshPort) (kind : Nat) (tag value : Word) : State :=
  match homeOf s u (tagPart tag) (tagFrame tag) with
  | some g => inject (ptFill s u .pmt (tagPart tag)) (uDie u) r p (mkToken g kind tag value)
  | none => noHome s (uDie u) tag

/-- A unit has no home for a purge: the handle of its frame is free at once (R58, R90). -/
def purgeLost (s : State) (d : Nat) (tag : Word) : State := purgeDone (noHome s d tag) d tag

/-- The SCH block of die `d` sends a purge for a frame (R57, R90, R498). -/
def sendPurge (s : State) (d : Nat) (tag : Word) : State :=
  match homeOf s d (tagPart tag) (tagFrame tag) with
  | some g => inject s d 34 .sch (mkPurge g tag)
  | none => purgeLost s d tag

/-- A frame of the range of a partition under DESTROY is purged as R57 treats a freed frame (R498); a descriptor whose first word is poisoned
is abandoned (R326). -/
def destroyFrame (s : State) (p f : Nat) : State :=
  let r := readClean s 0 (descAddr s 0 f) 1
  let s := r.2
  let st := frState s 0 f
  if !r.1 ∨ st = fsFree then s
  else
    let g := frGen s 0 f
    let s := if st = fsLive then pxtLive s 0 p (-1) else s
    sendPurge (setFrame s 0 f ((g + 1) % 64) fsQuar) 0 (mkTag p f g 0 0 0)

/-- Admission of a partition as a die sees it (R168). -/
def admissionClosed (s : State) (d part : Nat) : Bool :=
  (getDie s d).closed.any (fun x => x.1 == part) || pptFclose s d part

/-- The partition has a graph-mode spar (R81). DESIGN CHOICE (log 148): a spar of its home block on a die that is not populated, which R88
rules out, counts as one. -/
def hasGraphSpar (s : State) (u part : Nat) : Bool :=
  ptValid s u .pmt part &&
    (List.range (2 ^ pmtLog2H s u part)).any fun i => !itemMode s (pmtHome s u part + i)

/-- A handle that an allocation would take, and the lists without it (R54, R55). -/
def takeHandle (h : PartHw) : Option (Nat × PartHw) :=
  match h.free with
  | f :: rest => some (f, { h with free := rest })
  | [] =>
    match h.quar with
    | f :: rest => some (f, { h with quar := rest })
    | [] => none

/-- Why an allocation gives no handle, or the handle (R54, R55, R169, R326, R498, R677). -/
inductive Alloc
  | got (frame : Nat) (hw : PartHw) (body : Nat)
  /-- a word of the handle's descriptor is poisoned: the handle is abandoned -/
  | lost (hw : PartHw) (addr : Nat)
  | empty | closed
  | fault (cause : Nat) (body : Nat)
  deriving DecidableEq, Repr

/-- A unit's allocation of a frame for a partition under an address-space ID: the check and the handle (R54, R677). -/
def tryAlloc (s : State) (u part asid : Nat) : Alloc :=
  let d := uDie u
  if admissionClosed s d part || (getHw s part).destroying || pxtPstate s part != 1 then .closed
  else if !hasGraphSpar s u part then .empty
  else
    match takeHandle (getHw s part) with
    | none => .empty
    | some (f, h) =>
      match firstBelow 3 fun j => isPoisoned s (descAddr s d f + j) with
      | some j => .lost h (descAddr s d f + j)
      | none =>
        match translate s (codeletCtx d part asid) .write (frBody s d f) with
        | .error e => .fault e (frBody s d f)
        | .ok pa => .got f h pa

/-- What a unit's allocation reads: the descriptor of the handle that it would take, and the translation of its body (R306, R503). -/
def allocNote (s : State) (u part asid : Nat) : State :=
  let d := uDie u
  if admissionClosed s d part || (getHw s part).destroying || pxtPstate s part != 1 || !hasGraphSpar s u part then s
  else
    match takeHandle (getHw s part) with
    | none => s
    | some (f, _) =>
      let s := unitRead (unitRead s d (ptAddr s 0 .pxt part + 7) 1) d (descAddr s d f) 3
      if (firstBelow 3 fun j => isPoisoned s (descAddr s d f + j)).isSome then s
      else xlateNote s (codeletCtx d part asid) (frBody s d f)

/-- A unit abandons a handle whose descriptor it cannot read (R326). -/
def allocLost (s : State) (d part : Nat) (h : PartHw) (addr : Nat) : State := hwPoison (modHw s part fun _ => h) d addr

/-- A handle's descriptor becomes LIVE with its GRAPH and ASID, the LIVE count rises, and the user word goes into body word 0 (R54). A
descriptor with a poisoned word is abandoned (R326). -/
def makeLive (s : State) (d part asid graph f bodyPa : Nat) (user : Word) : State :=
  let a := descAddr s d f
  let s := unitRead s d a 1
  if isPoisoned s a then hwPoison s d a
  else
    let s := store s d a (wput (wput (peek s a) 47 46 fsLive) 45 40 asid)
    let s := store s d (a + 2) (w64 (graph % 2 ^ 49))
    store (pxtLive s d part 1) d bodyPa user

/-- The allocation is made: the lists without the handle, and its frame LIVE (R54). -/
def doAlloc (s : State) (d part asid graph f : Nat) (h : PartHw) (bodyPa : Nat) (user : Word) : State :=
  makeLive (modHw s part fun _ => h) d part asid graph f bodyPa user

/-- The tag base that an allocation returns (R54). -/
def tagBase (s : State) (d part f : Nat) : Word := mkTag part f (frGen s d f) 0 0 2

/-- An allocation that returned no handle is counted (R55, R156). -/
def countAllocFail (s : State) (d part : Nat) (closed : Bool) : State :=
  let s := pptCount s d part 2
  if closed then pptCount s d part 3 else s

/-! ### Traps -/

/-- A unit has raised a trap; its delivery is the command TRAP_DELIVERY (R76). -/
def addTrap (s : State) (t : Trap) : State := { s with traps := s.traps ++ [t] }

/-- A trap of the matching unit or the scheduler (R77). -/
def unitTrap (s : State) (src g part cause : Nat) (tag : Word) (addr : Word) (byTrap : Bool := false) : State :=
  addTrap s ⟨src, 0, g / 32, g % 32, 15, part, cause, 0, byTrap, 0, tag, 0, addr, timeOf s (g / 32)⟩

/-! ### Watermarks (R147) -/

/-- The crossings between two occupancies: whether the high and the low crossing count, and the side after them. -/
def crossing (hi lo old new : Nat) (side : Side) : Bool × Bool × Side :=
  if hi ≤ lo then (false, false, side)
  else if old < hi ∧ hi ≤ new ∧ side ≠ .high then (true, false, .high)
  else if lo < old ∧ new ≤ lo ∧ side ≠ .low then (false, true, .low)
  else (false, false, side)

/-- The side on which the hysteresis starts after a watermark write (R147). -/
def startSide (hi lo occ : Nat) : Side := if hi ≤ occ then .high else if occ ≤ lo then .low else .neither

/-- A watermark register pair, in units of `n`, judged between two occupancies: crossing counts and edge events (R147, R166, R391). -/
def watermarkN (n : Nat) (s : State) (die blk wm xc evHi evLo old new : Nat) (side : Side) : State × Side :=
  let c := crossing (n * getF s die blk wm 31 16) (n * getF s die blk wm 15 0) old new side
  let s := if c.1 then evRaise (countF s die blk xc 31 16 1) die evHi else s
  let s := if c.2.1 then evRaise (countF s die blk xc 15 0 1) die evLo else s
  (s, c.2.2)

/-- A watermark register pair in units of one (R147). -/
abbrev watermark := watermarkN 1

/-- The input queue of a spar has changed from `old` flits (R146). -/
def iqMark (s : State) (g old : Nat) : State :=
  let r := watermark s (g / 32) (bClu (g % 32)) rCluIqwm rCluIqxc (8 * (g % 32)) (8 * (g % 32) + 1) old (getSpar s g).iq.length (getSpar s g).iqSide
  modSpar r.1 g fun x => { x with iqSide := r.2 }

/-- The ready lists of a spar have changed from `old` places (R146). -/
def rlMark (s : State) (g old : Nat) : State :=
  let r := watermark s (g / 32) (bClu (g % 32)) rCluRlwm rCluRlxc (8 * (g % 32) + 2) (8 * (g % 32) + 3) old (getSpar s g).rl.length (getSpar s g).rlSide
  modSpar r.1 g fun x => { x with rlSide := r.2 }

/-- The flow arbiter of a die has changed from `old` entries (R146). -/
def flMark (s : State) (die old : Nat) : State :=
  let r := watermark s die bSch rSchFlwm rSchFlxc 0x100 0x101 old (getDie s die).flows.length (getDie s die).flSide
  modDie r.1 die fun x => { x with flSide := r.2 }

/-! ### Ratline (R148 to R150) -/

/-- A scheduling event of a spar, or of die `die`'s arbiter for it: filtered, sampled and staged (R149, R150). Of each 2^`SAMPLE` events
that pass, DESIGN CHOICE (log 125), the first one counted is kept, and the `DIE` field of an arbiter's event is the requesting spar's die.
DEDUCED (log 125): an arbiter's event goes through the filters and the ring of the arbiter's die, is counted with its requesting spar's
events, and stands in that die's staging queue of the spar's number. `GAP` is the spar's own: it is kept with the spar whose event was
dropped. -/
def ratEvent (s : State) (die g type level part slot : Nat) (item : Bool) (tag : Word) (info : Nat) (fkey : Word) : State :=
  let q := gspar die (g % 32)
  let cfg := getReg s die bRtl rRtlCfg
  let pf := getReg s die bRtl rRtlPfilt
  let pm := fld pf 25 16
  if !(blkEn s die bRtl && bitOf cfg (9 + type) && bitOf cfg (18 + level) && bitOf (getReg s die bRtl rRtlSparmask) (g % 32)
      && (part &&& pm) == (fld pf 9 0 &&& pm)) then s
  else
    let x := getSpar s q
    let keep := (getSpar s g).sample % 2 ^ fld cfg 25 22 == 0
    let s := modSpar s g fun x => { x with sample := x.sample + 1 }
    if !keep then s
    else if 16 ≤ x.staging.length then modSpar (count s die bRtl rRtlDropcnt) g fun x => { x with gap := true }
    else
      let w2 := type * 2 ^ 60 + b2n (getSpar s g).gap * 2 ^ 59 + b2n item * 2 ^ 58 + level * 2 ^ 56 + g / 32 * 2 ^ 53 + g % 32 * 2 ^ 48
        + slot % 16 * 2 ^ 44 + part * 2 ^ 34 + info % 2 ^ 32
      modSpar (modSpar s g fun x => { x with gap := false }) q fun x => { x with staging := x.staging ++ [⟨timeOf s die, tag, w64 w2, fkey⟩] }

/-! ### Spill rings (R111, R165 to R168) -/

/-- The base of a spar's spill ring region (R111). -/
def sprBase (s : State) (g : Nat) : Nat := baseOf s (g / 32) (bClu (g % 32)) rCluSprbaseHi

/-- A slot of a spill ring is written, word 2 last (R111). -/
def writeSlot (s : State) (d g n : Nat) (tag value : Word) (cls kind : Nat) : State :=
  let a := sprBase s g + 16 + 4 * (n % 2 ^ 20)
  let s := store s d a tag
  let s := store s d (a + 1) value
  let s := store s d (a + 3) (timeOf s d)
  store s d (a + 2) (w64 (2 ^ 63 + cls * 2 ^ 38 + kind * 2 ^ 32 + n % 2 ^ 32))

/-- A producer holds a slot of a full ring (R165, R166). Whether 65,536 UCLK have passed since the last hold is a free
value: the model counts no clock cycles. -/
def holdSlot (s : State) (d g : Nat) (h : Hold) : State :=
  let s := count s d bSch rSchSrholdcnt
  let f := takeFree s
  let s := if (getSpar s g).heldLately && !wbit f.1 0 then f.2
    else deferred f.2 (g / 32) (bClu (g % 32)) 0xFF 0x0404 0x00 0 h.tag 0
  modSpar s g fun x => { x with heldLately := true, holds := x.holds ++ [h] }

/-- A producer on die `d` reserves the next slot of a spar's ring and writes it, or holds it (R111, R165). One that reads a poisoned TAIL or
HEAD abandons the slot (R326). -/
def appendSlot (s : State) (d g : Nat) (p : Producer) (tag value : Word) (cls kind : Nat) : State :=
  let b := sprBase s g
  let r := farAdd s d b 1
  let n := r.1.toNat
  if isPoisoned s b then r.2
  else
    let s := unitRead r.2 d (b + 1) 1
    if isPoisoned s (b + 1) then hwPoison s d (b + 1)
    else if n - (peek s (b + 1)).toNat < 2 ^ 20 then writeSlot s d g n tag value cls kind
    else holdSlot s d g ⟨n, tag, value, cls, kind, p⟩

/-- Notices of a spar go to every populated die (R168). -/
def sendNotice (s : State) (g part : Nat) (close : Bool) : State :=
  { s with notices := s.notices ++ (List.range (nDies s.part)).map fun d => ⟨d, g, part, close⟩ }

/-- A slot of a partition is counted on append by the spar's own units; the quota's close notice follows (R167, R168). -/
def countSlot (s : State) (g part : Nat) : State :=
  let s := modSpar s g fun x => { x with slots := tmod (fun _ => 0) x.slots part (· + 1) }
  let n := tget (fun _ => 0) (getSpar s g).slots part
  if pptQuota s (g / 32) part ≤ n ∧ part ∉ (getSpar s g).notClosed then
    sendNotice (modSpar s g fun x => { x with notClosed := part :: x.notClosed }) g part true
  else s

/-- A slot of a partition is consumed: the count falls, and an open notice may follow (R167, R168). -/
def uncountSlot (s : State) (g part : Nat) : State :=
  let s := modSpar s g fun x => { x with slots := tmod (fun _ => 0) x.slots part (· - 1) }
  let n := tget (fun _ => 0) (getSpar s g).slots part
  if n ≤ pptQuota s (g / 32) part / 2 ∧ part ∈ (getSpar s g).notClosed then
    sendNotice (modSpar s g fun x => { x with notClosed := x.notClosed.filter (· != part) }) g part false
  else s

/-- A spar's own unit appends a flit: counted for the flit's partition, unless poison has made the unit abandon the slot (R163, R167,
R326). -/
def spillOwn (s : State) (g : Nat) (p : Producer) (tag value : Word) (cls kind : Nat) : State :=
  let t := appendSlot s (g / 32) g p tag value cls kind
  if isPoisoned s (sprBase s g) || isPoisoned s (sprBase s g + 1) then t else countSlot t g (tagPart tag)

end Sys2Proof.Machine
end

