-- ==== Sys2Proof/Machine/Ops.lean ====
section
/-! DEFINITION. How a command's effect becomes an outcome, and operations on lists of messages that wait. -/

namespace Sys2Proof.Machine

/-- The outcomes of a command. -/
abbrev Out := Host.Outcome State Fault Refusal

/-- A command at a unit of die `d`: on an unpopulated die nothing exists that could act, and nothing happens (R3 to R5). -/
def onDie (s : State) (d : Nat) (t : State) : Out := .next (if d < nDies s.part then t else s)

/-- A command that acts while its unit acts; a unit that is fenced, withdrawn, disabled or gone does nothing (R541, R544,
R560). -/
def unitDo (s : State) (d : Nat) (live : Bool) (t : State) : Out := onDie s d (if live then t else s)

/-! ### Register writes (R222, R223, R552, R553, R557, R562) -/

/-- The die of an index, its block, and its word by the form of the index (R550). -/
def idxDie (i : Nat) : Nat := fld i 30 28
def idxBlk (i : Nat) : Nat := fld i 27 20
def idxAlias (i : Nat) : Bool := bitOf i 31
def idxWord (i : Nat) : Nat := if idxAlias i then fld i 19 5 else fld i 19 0

/-- The access raises a bus error (R552, R557). -/
def busBad (s : State) (i : Nat) (write : Bool) : Bool :=
  let d := idxDie i
  let b := idxBlk i
  decide (nDies s.part ≤ d) || !implemented s.part d b (idxWord i)
    || ((getDie s d).withdrawn && (!(b == bSys || b == bMdr) || (!write && (getDie s d).blkOut.contains bMdr)))

/-- A bus error is counted where it belongs (R553). -/
def busCount (s : State) (i : Nat) : State :=
  let d := if idxDie i < nDies s.part ∧ (getDie s (idxDie i)).withdrawn = false then idxDie i else 0
  setReg (count s d bSys rSysBuserrcnt) d bSys rSysBuserridx i

/-- An ignored write is counted once (R559). -/
def reject (s : State) (d b : Nat) : State := count s d b rBlkCfgrej

/-- A write of the register at word `w` of block `b` of die `d` reaches the block: it raises no bus error, the die has not been withdrawn,
and the block is not in reset (R541, R552, R562). -/
def regOpen (s : State) (d b w : Nat) : Bool :=
  !busBad s (regIdx d b w) true && !(getDie s d).withdrawn && !(getDie s d).rstBusy.contains b

/-- What a write of a register does before its effect: it raises a bus error, is counted as ignored at a withdrawn die or a block in
reset, or takes effect. -/
def regTake (s : State) (d b w : Nat) (t : State) : State :=
  if busBad s (regIdx d b w) true then busCount s (regIdx d b w)
  else if (getDie s d).withdrawn ∧ ¬(b = bMdr ∧ w = rMdrLogack) then reject s 0 bMdr
  else if (getDie s d).rstBusy.contains b then reject s d b
  else t

/-- A command that is a write of the register at word `w` of block `b` of die `d`; `live` says that the block takes commands. -/
def regDo (s : State) (d b w : Nat) (live : Bool) (t : State) : Out := .next (regTake s d b w (if live then t else s))

/-! ### Registers as they were written (R560) -/

/-- A value with the bits of a mask taken from another. -/
def merged (old v m : Nat) : Nat := (old - (old &&& m)) ||| (v &&& m)

def noCsr (_ : Nat) : Option Csr := none
/-- The RWD bits of a word. -/
def rwdBits (b w : Nat) : Nat := ((rowOf b w).map (·.rwd)).getD 0
/-- The fields of a register as they were last written (R560). -/
def regStored (s : State) (d b w : Nat) : Nat :=
  match tget noCsr s.rwdHeld (regIdx d b w) with
  | some v => merged (getReg s d b w) v.toNat (rwdBits b w)
  | none => getReg s d b w
/-- RWD fields are written that the block reads into use at its next enabling. -/
def setHeld (s : State) (d b w v : Nat) : State := { s with rwdHeld := tset noCsr s.rwdHeld (regIdx d b w) (some (w32 v)) }

/-! ### Command registers (R566) -/

/-- The start field of a command register; `cc` is 1 for `CCGO`. -/
def cmdKey (d b w cc : Nat) : Nat := 2 * regIdx d b w + cc

/-- A command that has been started still runs, and its busy field reads 1 (R566). -/
def cmdRuns (s : State) (d b w cc : Nat) : Bool := decide ((timeOf s d).toNat < tget (fun _ => 0) s.cmdBusy (cmdKey d b w cc))

/-- The longest time that the spec gives a command, in counts of TIMEBASE: 50 µs for a gating request, 10 ms for the programming of a fuse, and
48 PCLK for an invalidation of L1D lines, at most 36 counts (R315, R602, R616, R639). -/
def cmdBound (b w : Nat) : Option Nat :=
  if b = bPwr ∧ w = rPwrGate then some 50000 else if b = bFus ∧ w = rFusProg then some 10000000
  else if blkKind b = some .clu ∧ w = rCluL1ctl then some 36 else none

/-- A command begins; the count of TIMEBASE at which it ends is free, within the time that the spec gives it, if any (R566; DESIGN CHOICE: log
72). -/
def cmdBegin (s : State) (d b w cc : Nat) : State :=
  let f := takeFree s
  let n := (cmdBound b w).elim f.1.toNat fun m => f.1.toNat % (m + 1)
  { f.2 with cmdBusy := tset (fun _ => 0) s.cmdBusy (cmdKey d b w cc) ((timeOf s d).toNat + n) }

/-- A start field is set: its command runs from now on, and has its effect; while the one before it runs nothing starts, the other fields of
the write take their values, and the write is counted (R566). -/
def startCmd (s : State) (d b w cc : Nat) (fields effect : State → State) : State :=
  if cmdRuns s d b w cc then reject (fields s) d b else effect (cmdBegin s d b w cc)

/-- A command of a register of the block runs (R559, R566). -/
def blkRuns (s : State) (d b : Nat) : Bool :=
  s.cmdBusy.any fun e => fld (e.1 / 2) 30 28 == d && fld (e.1 / 2) 27 20 == b && decide ((timeOf s d).toNat < e.2)

/-! ### Parity of configuration registers (R567) -/

/-- The bits of a register under its parity bit: its RW and RWD fields. -/
def parityBits (b w : Nat) : Nat := ((rowOf b w).map fun r => r.rw ||| r.rwd).getD 0

/-- The parity bit of a written register is right again, or wrong by an injection (R546, R567). -/
def parityWrite (s : State) (d b w : Nat) : State :=
  let x := b * 2 ^ 20 + w
  let s := modDie s d fun y => { y with perr := y.perr.filter (·.word != x) }
  match (getDie s d).inj with
  | some j =>
    if j.det = 0x0F04 ∧ j.block = b ∧ j.mode = 1 then
      let s := injUse s d
      if bitOf j.mask 0 then modDie s d fun y => { y with perr := ⟨x, getReg s d b w, true⟩ :: y.perr } else s
    else s
  | none => s

/-- A command at a spar (R563, R539, R635). -/
def sparDo (s : State) (die spar : Nat) (t : State) : Out := unitDo s die (sparLive s (gspar die spar)) t

/-- A command at the SCH block of a die. -/
def schDo (s : State) (die : Nat) (t : State) : Out := unitDo s die (dieLive s die && blkEn s die bSch) t

/-- A list without its element at an index. -/
def dropAt {α : Type} (l : List α) (k : Nat) : List α := l.take k ++ l.drop (k + 1)

/-- A list with its element at an index replaced. -/
def setAt {α : Type} (l : List α) (k : Nat) (a : α) : List α := l.set k a

/-- A stable insertion by a key. -/
def insertBy {α : Type} (key : α → Nat) (a : α) : List α → List α
  | [] => [a]
  | b :: t => if key a < key b then a :: b :: t else b :: insertBy key a t

/-- A stable sort by a key. -/
def sortBy {α : Type} (key : α → Nat) (l : List α) : List α := l.foldl (fun acc a => insertBy key a acc) []

/-- The element with the least key, the first of them, with its index. -/
def minBy {α : Type} (key : α → Nat) (l : List α) : Option (α × Nat) := (sortBy (fun p => key p.1) l.zipIdx).head?

end Sys2Proof.Machine
end

