-- ==== Sys2Proof/Machine/Chan.lean ====
section
/-! DEFINITION. The channel subsystem's shared operations: ledger entries, the partition channel table, completions, the
journal and the ledger port (spec 12: R371 to R384). -/

namespace Sys2Proof.Machine

def getWork (s : State) (i : Nat) : Work := tget (fun _ => Work.init) s.works i
def modWork (s : State) (i : Nat) (f : Work → Work) : State := { s with works := tmod (fun _ => Work.init) s.works i f }
def getCtrl (s : State) (c : Nat) : Ctrl := tget (fun _ => Ctrl.init) s.ctrls c
def modCtrl (s : State) (c : Nat) (f : Ctrl → Ctrl) : State := { s with ctrls := tmod (fun _ => Ctrl.init) s.ctrls c f }

/-- An event reaches an engine's event queue (R427, R428). -/
def evPush (s : State) (k kind : Nat) (v0 v1 : Word) : State := modEng s k fun e => { e with evq := e.evq ++ [(kind, v0, v1)] }

/-! ### Ledger entries (R373) -/

abbrev lFree : Nat := 0
abbrev lCompleted : Nat := 1
abbrev lFailed : Nat := 2
abbrev lInDoubt : Nat := 3
abbrev lAccepting : Nat := 4
abbrev lOpen : Nat := 5
abbrev lActive : Nat := 6
abbrev lAborting : Nat := 7
abbrev lClosing : Nat := 8

def ldgFirst (s : State) (d : Nat) : Nat := getReg s d bChn rChnLdgfirst
def ldgCount (s : State) (d : Nat) : Nat := getReg s d bChn rChnLdgcount
/-- The die whose ledger range holds an index (R373). -/
def ldgDie (s : State) (i : Nat) : Option Nat :=
  firstBelow (nDies s.part) fun d => decide (ldgFirst s d ≤ i) && decide (i < ldgFirst s d + ldgCount s d)
def ldgAddr (s : State) (d i : Nat) : Nat := baseOf s d bChn rChnLdgbaseHi + 16 * (i - ldgFirst s d)
/-- A word of a ledger entry; 0 for an index in no range. -/
def ent (s : State) (i w : Nat) : Word :=
  match ldgDie s i with
  | some d => peek s (ldgAddr s d i + w)
  | none => 0
/-- A field of a ledger entry. -/
def entF (s : State) (i w hi lo : Nat) : Nat := wfld (ent s i w) hi lo
/-- A word of a ledger entry written. -/
def setEnt (s : State) (i w : Nat) (v : Word) : State :=
  match ldgDie s i with
  | some d => store s d (ldgAddr s d i + w) v
  | none => s
/-- A field of a ledger entry written; the ledger port reads the word first, and leaves a poisoned one as it is (R326, R327, R374). -/
def setEntF (s : State) (i w hi lo v : Nat) : State :=
  match ldgDie s i with
  | some d => unitMod s d (ldgAddr s d i + w) fun x => wput x hi lo v
  | none => s
/-- A unit of die `d` reads the defined words of a ledger entry: whether none of them is poisoned (R306, R326, R373). -/
def entClean (s : State) (d i : Nat) : Bool × State :=
  match ldgDie s i with
  | some e => readClean s d (ldgAddr s e i) 10
  | none => (true, s)
/-- A unit of die `d` acts on a ledger entry that it reads; an entry with a poisoned word is abandoned (R326). -/
def onEntry (s : State) (d i : Nat) (f : State → State) : State :=
  let r := entClean s d i
  if r.1 then f r.2 else r.2

def entState (s : State) (i : Nat) : Nat := entF s i 0 63 60
def entReason (s : State) (i : Nat) : Nat := entF s i 0 59 48
def entKind (s : State) (i : Nat) : Nat := entF s i 0 47 44
def entDur (s : State) (i : Nat) : Bool := wbit (ent s i 0) 43
def entOwner (s : State) (i : Nat) : Nat := engKey (entF s i 0 39 37) (entF s i 0 36 33)
def entTries (s : State) (i : Nat) : Nat := entF s i 0 32 30
def entGen (s : State) (i : Nat) : Nat := entF s i 0 29 24
def entPart (s : State) (i : Nat) : Nat := entF s i 3 63 54
def entAsid (s : State) (i : Nat) : Nat := entF s i 3 53 48
def entDesc (s : State) (i : Nat) : Nat := entF s i 5 48 0
/-- A word of the exchange's descriptor (R365). -/
def descWord (s : State) (i w : Nat) : Word := peek s (entDesc s i + w)
/-- The state is terminal. -/
def isTerminal (st : Nat) : Bool := st == lCompleted || st == lFailed || st == lInDoubt

/-- STATE moves to CLOSING with its reason, detail and decision; no timer runs (R373, R375). -/
def closeWith (s : State) (i reason detail : Nat) (inDoubt : Bool) : State :=
  let s := setEnt (setEntF (setEntF s i 0 63 60 lClosing) i 0 59 48 reason) i 7 0
  modWork (setEntF s i 8 63 32 detail) i fun w => { w with inDoubt := inDoubt }

/-! Reason codes (R376). -/
abbrev rsBadDesc : Nat := 0x001
abbrev rsBadKind : Nat := 0x002
abbrev rsBadLen : Nat := 0x003
abbrev rsPriv : Nat := 0x004
abbrev rsQuota : Nat := 0x005
abbrev rsLedgerFull : Nat := 0x006
abbrev rsDurQuota : Nat := 0x007
abbrev rsJournalFull : Nat := 0x008
abbrev rsLedgerDev : Nat := 0x009
abbrev rsRdvBad : Nat := 0x00A
abbrev rsPower : Nat := 0x00B
abbrev rsJournalErr : Nat := 0x00C
abbrev rsNoTarget : Nat := 0x00D
abbrev rsNoNum : Nat := 0x00E
abbrev rsNoPart : Nat := 0x00F
abbrev rsXlate : Nat := 0x101
abbrev rsProt : Nat := 0x102
abbrev rsPoison : Nat := 0x103
abbrev rsNvmeStatus : Nat := 0x104
abbrev rsNvmeTimeout : Nat := 0x105
abbrev rsNvmeLost : Nat := 0x106
abbrev rsNoFrame : Nat := 0x107
abbrev rsXform : Nat := 0x108
abbrev rsHxp : Nat := 0x109
abbrev rsTakeover : Nat := 0x10A
abbrev rsPowerLost : Nat := 0x10B
abbrev rsDieLost : Nat := 0x10C
abbrev rsListLen : Nat := 0x10D

/-! Exchange kinds (R366). -/
abbrev xkMove : Nat := 1
abbrev xkRead : Nat := 2
abbrev xkWrite : Nat := 3
abbrev xkFlush : Nat := 4
abbrev xkRaw : Nat := 5
abbrev xkSend : Nat := 6
abbrev xkRecv : Nat := 7
/-- The kind runs as an NVMe command. -/
def isNvme (k : Nat) : Bool := decide (xkRead ≤ k) && decide (k ≤ xkRaw)

/-! ### Occupancies and their watermarks (R391) -/

/-- The ledger range of a die has changed from `old` entries that are not FREE. -/
def ldgMark (s : State) (d old : Nat) : State :=
  let r := watermarkN 256 s d bChn rChnLdgwm rChnLdgxc 0x210 0x211 old (getChan s d).live.length (getDie s d).ledSide
  modDie r.1 d fun x => { x with ledSide := r.2 }

/-- Journal slots in use plus reserved: three for each open durable exchange (R382, R391, R675). -/
def jOcc (c : Chan) : Nat := c.jnext - c.jhead + (c.reserved.map (·.2)).sum

/-- The journal of a die has changed from an occupancy. -/
def jMark (s : State) (d old : Nat) : State :=
  let r := watermarkN 256 s d bChn rChnJwm rChnJxc 0x212 0x213 old (jOcc (getChan s d)) (getDie s d).jSide
  modDie r.1 d fun x => { x with jSide := r.2 }

/-- The entry of an index is taken, or given back as FREE. -/
def ldgTake (s : State) (d i : Nat) : State :=
  ldgMark (modChan s d fun c => { c with live := i :: c.live }) d (getChan s d).live.length
def ldgFree (s : State) (d i : Nat) : State :=
  ldgMark (modChan s d fun c => { c with live := c.live.filter (· != i) }) d (getChan s d).live.length

/-- A FREE index of a die: the search starts at a free value, since the spec does not say which one is taken. -/
def pickIndex (s : State) (d : Nat) : Option Nat × State :=
  let live := (getChan s d).live
  let n := ldgCount s d
  if n ≤ live.length then (none, s)
  else
    let f := takeFree s
    let j := (List.range (live.length + 1)).find? fun j => !live.contains (ldgFirst s d + (f.1.toNat + j) % n)
    (j.map fun j => ldgFirst s d + (f.1.toNat + j) % n, f.2)

/-! ### The partition channel table and completions (R372, R378) -/

def pctAddr (s : State) (d p : Nat) : Nat := baseOf s d bChn rChnPctbaseHi + 8 * p
def pctWord (s : State) (d p w : Nat) : Word := peek s (pctAddr s d p + w)
def pctOk (s : State) (d p : Nat) : Bool := !isPoisoned s (pctAddr s d p) && wbit (pctWord s d p 0) 63
/-- A counter of a channel table entry changed by far add, whether or not the entry is valid (R372, R378). -/
def pctAdd (s : State) (d p w : Nat) (k : Word) : State := (farAdd s d (pctAddr s d p + w) k).2

/-- The slot of a completion ring that the next record takes; none where the ring is full. A poisoned TAIL, HEAD or word 0 of the slot makes
it not free, and is counted (R326, R378). -/
def crSlot (s : State) (d b n : Nat) : Option Nat × State :=
  let r := readClean s d b 2
  let s := r.2
  let a := b + 16 + 8 * ((peek s b).toNat % n)
  if !r.1 ∨ n ≤ (peek s b - peek s (b + 1)).toNat then (none, s)
  else
    let r := readClean s d a 1
    (if r.1 && peek r.2 a == 0 then some a else none, r.2)

/-- A completion record takes the next slot of its partition's ring, where it has room; it is dropped where the entry is not valid, and with
an entry that has a poisoned word (R326, R378). -/
def crTake (s : State) (d p : Nat) (words : List Word) : Bool × State :=
  let r := readClean s d (pctAddr s d p) 2
  let s := r.2
  if !r.1 ∨ !pctOk s d p then (true, s)
  else
    let b := wfld (pctWord s d p 1) 48 0
    let x := crSlot s d b (2 ^ wfld (pctWord s d p 1) 53 49)
    match x.1 with
    | none => (false, x.2)
    | some a =>
      let s := store (stores x.2 d (a + 1) (words.drop 1)) d a (words.headD 0)
      (true, store s d b (peek s b + 1))

/-- A completion record is written, or held with its count and event (R375, R378). -/
def crWrite (s : State) (d p : Nat) (h : HeldRec) : Bool × State :=
  let r := crTake s d p h.words
  if r.1 then r else (false, evRaise (modChan (pctAdd r.2 d p 5 1) d fun c => { c with held := c.held ++ [h] }) d 0x215)

/-- The value of a COMPLETION token (R73). -/
def doneValue (state reason ledger len : Nat) : Word :=
  w64 (state * 2 ^ 60 + reason * 2 ^ 48 + ledger * 2 ^ 24 + min len (2 ^ 24 - 1))

/-- The completion token, where the tag asks for one (R40, R377). -/
def doneToken (s : State) (d e : Nat) (ctag : Word) (v : Word) : State :=
  if tagFrame ctag = 0 then s else sendToken s (uCen (engKey d e)) (34 + e / 4) .unit kCompletion (wput ctag 1 0 0) v

/-- A completion record (R378). -/
def doneRecord (s : State) (d state reason kind : Nat) (xnum user ctag : Word) (ledger detail xlen : Nat) : List Word :=
  [w64 (state * 2 ^ 60 + reason * 2 ^ 48 + kind * 2 ^ 44), xnum, user, ctag, w64 ledger,
    w64 (detail % 2 ^ 32 * 2 ^ 32 + xlen % 2 ^ 32), timeOf s d, 0]

/-- A refusal is delivered: FAILED, with LEDGER and LEN 0 (R369). -/
def refuse (s : State) (k part : Nat) (ctag user : Word) (kind reason : Nat) (rec : Bool) : State :=
  let d := k / 16
  let s := if reason = rsNoPart then s else pctAdd s d part 4 1
  let s := doneToken s d (k % 16) ctag (doneValue lFailed reason 0 0)
  if reason ≠ rsNoPart ∧ (rec ∨ tagFrame ctag = 0) then
    let r := crWrite s d part ⟨part, doneRecord s d lFailed reason kind 0 user ctag 0 0 0, none, k⟩
    if r.1 then r.2 else modEng r.2 k fun e => { e with blocked := true }
  else s

/-! ### The journal (R380 to R384) -/

/-- The ledger device is in service (R382). -/
def ldevUp (s : State) (d : Nat) : Bool :=
  (getF s d bChn rChnLdev 31 30 == 1 || getF s d bChn rChnLdev 31 30 == 2) && !(getChan s d).ldevLost
def jSize (s : State) (d : Nat) : Nat := 2 ^ getF s d bChn rChnJcfg 31 27

/-- A record is appended to the die's journal (R382); an open durable exchange keeps its reservation of three slots (R675). -/
def jPut (s : State) (d : Nat) (r : JRec) : State :=
  let old := jOcc (getChan s d)
  jMark (modChan s d fun c =>
    { c with jrecs := c.jrecs ++ [{ r with seq := c.jnext, durable := false }], jnext := c.jnext + 1, jsince := c.jsince + 1 }) d old

/-- The record is the newest of an exchange of the die that is not retired. -/
def isOpenRec (s : State) (d : Nat) (r : JRec) : Bool :=
  (r.typ == 1 || r.typ == 3) && (getChan s d).live.contains r.index && ent s r.index 1 == r.xnum

/-- A RELOG copy of the record that holds HEAD, once HEAD is half a turn behind (R382). -/
def relog (s : State) (d : Nat) : State :=
  let c := getChan s d
  match c.jrecs.find? fun r => r.seq == c.jhead with
  | some r =>
    if jSize s d / 2 < c.jnext - c.jhead ∧ isOpenRec s d r ∧ !(c.jrecs.any fun q => decide (r.seq < q.seq) && isOpenRec s d q && q.xnum == r.xnum)
    then jPut s d { r with typ := 3, eng := none } else s
  | none => s

/-- A record is appended, and the head copied where that is due. -/
def jAppend (s : State) (d : Nat) (r : JRec) : State := relog (jPut s d r) d

/-- HEAD advances to the oldest record still needed by an open durable exchange, or to the next SEQ (R382). -/
def advanceHead (s : State) (d : Nat) : State :=
  let c := getChan s d
  let needed := c.jrecs.filter fun r =>
    isOpenRec s d r && !(c.jrecs.any fun q => decide (r.seq < q.seq) && q.durable && isOpenRec s d q && q.xnum == r.xnum)
  let head := (needed.map (·.seq)).foldl min c.jnext
  jMark (modChan s d fun c => { c with jhead := max c.jhead head }) d (jOcc c)

/-- A record of a kind with nothing in it. -/
def blankRec (typ : Nat) (xnum : Word) : JRec := ⟨typ, 0, xnum, 0, 0, 0, false, 0, 0, 0, 0, 0, 0, 0, 2 ^ 24, none, false⟩

/-- The ACCEPT record of an entry (R381). -/
def acceptRec (s : State) (i psrc : Nat) : JRec :=
  { blankRec 1 (ent s i 1) with
    part := entPart s i, asid := entAsid s i, kind := entKind s i, rdv := wbit (ent s i 0) 42,
    nlb := if isNvme (entKind s i) then wfld (descWord s i 8) 15 0 else 0, user := ent s i 4, tgt := descWord s i 6,
    slba := descWord s i 7, psrc := psrc, index := i }

/-- The TERM record of an entry (R381). -/
def termRec (s : State) (i : Nat) : JRec :=
  { blankRec 2 (ent s i 1) with state := entState s i, reason := entReason s i, user := w64 (entF s i 8 31 0), index := i }

/-- The Masthead is in service (R31). -/
def mastheadUp (s : State) : Bool := !(getDie s 0).blkOut.contains bMst

/-- The multiple of 2^20 that a NUMBLK record must cover before the count may pass it (R384). -/
def numMultiple (c : Chan) : Nat := (c.count + 2 ^ 20 - 1) / 2 ^ 20 * 2 ^ 20
/-- The next number may be assigned (R384). -/
def numReady (c : Chan) : Bool := c.count % 2 ^ 20 != 0 || decide (c.count + 2 ^ 21 ≤ c.limit)

/-! ### The ledger port (R374) -/

/-- The release of a completion with its terminal state: the token, and the record where one is due (R374, R377). -/
def release (s : State) (d i : Nat) : State :=
  let st := entState s i
  let e := entOwner s i % 16
  let xlen := entF s i 8 31 0
  let s := doneToken s d e (ent s i 2) (doneValue st (entReason s i) i xlen)
  if wbit (ent s i 0) 41 then
    let w := doneRecord s d st (entReason s i) (entKind s i) (ent s i 1) (ent s i 4) (ent s i 2) i (entF s i 8 63 32) xlen
    let r := crWrite s d (entPart s i) ⟨entPart s i, w, some i, entOwner s i⟩
    if r.1 then setEntF r.2 i 0 40 40 1 else r.2
  else setEntF s i 0 40 40 1

/-- A write of word 0 through the ledger port: a move to a terminal state releases the completion in the same action, and
queues the TERM record of a durable exchange (R374, R375, R383). -/
def ledgerPort (s : State) (i : Nat) (w0 : Word) : State :=
  match ldgDie s i with
  | none => s
  | some d =>
    let old := entState s i
    let s := setEnt s i 0 w0
    if isTerminal (entState s i) && !isTerminal old then
      let s := if entState s i = lInDoubt then pctAdd s d (entPart s i) 6 1 else s
      let s := release s d i
      if entDur s i && ldevUp s d then jAppend s d (termRec s i) else s
    else s

/-- The decision of an entry in CLOSING is written as its terminal state (R375). -/
def termDecide (s : State) (i : Nat) : State :=
  if entState s i = lClosing then
    let t := if entReason s i = 0 then lCompleted else if (getWork s i).inDoubt then lInDoubt else lFailed
    ledgerPort s i (wput (ent s i 0) 63 60 t)
  else s

/-- A terminal entry whose completion is delivered, and whose TERM record is durable where it has one, becomes FREE (R375). -/
def retire (s : State) (d i : Nat) : State :=
  let s := pctAdd s d (entPart s i) 2 (-1)
  let s := if entDur s i then pctAdd s d (entPart s i) 3 (-1) else s
  let s := setEntF s i 0 63 60 lFree
  let old := jOcc (getChan s d)
  let s := jMark (modChan s d fun c => { c with reserved := tdel c.reserved i }) d old
  let s := { s with works := tdel s.works i }
  advanceHead (ldgFree s d i) d

end Sys2Proof.Machine
end

