-- ==== Sys2Proof/Machine/Stream.lean ====
section
/-! DEFINITION. Movement on the stream network, within a die and over the links (spec 01: R24, R25; 14: R428). A transfer
of payload at the root, Furl, Woad and memory ports happens whole within its step, and its beats' credits are back at the end of it (log
135); what a receiver withholds stays on the stream plane. -/

namespace Sys2Proof.Machine

/-! ### Discards in front of units that are gone (R539, R542) -/

/-- A flit is discarded and counted in `MDR_DEADFLIT`; a purge then counts as complete. -/
def deadFlit (s : State) (d : Nat) (f : Flit) : State :=
  let s := count s d bMdr rMdrDeadflit
  if flitCls f = 1 then purgeDone s d f.tag else s

/-! ### Movement on the stream plane (R24, R25, R428) -/

/-- An item enters the port that receives it at die `d`. A frame for a serving engine that has left service goes to the one that serves for
it (R388). The ports of a withdrawn die drain what reaches them and put nothing out (R541). -/
def strmEnter (s : State) (d : Nat) (x : StrmItem) : State :=
  if strmDie x = d then
    if (getDie s d).withdrawn then s else
    match x with
    | .inbound a k n f => modDie s d fun y => { y with strm := y.strm ++ [.inbound a (servingFor s k) n f] }
    | .outbound _ _ sub l => if heldBack s d x then modDie s d fun y => { y with macTx := y.macTx ++ [x] } else give s (.frame d sub l)
  else modLink s d (linkFor s d (strmDie x)) fun l => { l with strm := l.strm ++ [x] }

/-- The Ethernet MAC of a die hands on the oldest frame in its receive buffer, where the next receiver has credits. -/
def macMove (s : State) (d : Nat) : Option State :=
  match (getDie s d).mac with
  | [] => none
  | x :: rest => if strmRoom s d x (strmBeats x) then some (strmEnter (modDie s d fun y => { y with mac := rest }) d x) else none

/-- The header ports of a die's engines hand on the oldest frame that an engine sends, where the next receiver has credits (R25). -/
def hdrMove (s : State) (d : Nat) : Option State :=
  match (getDie s d).hdr with
  | [] => none
  | x :: rest => if strmRoom s d x (strmBeats x) then some (strmEnter (modDie s d fun y => { y with hdr := rest }) d x) else none

/-- The Ethernet MAC of a die sends the oldest frame that it has held back and whose priority is no longer paused (R419). -/
def pauseEnd (s : State) (d : Nat) : Option State :=
  match (getDie s d).macTx.find? fun x => !heldBack s d x with
  | some (.outbound a b sub l) => some (give (modDie s d fun y => { y with macTx := y.macTx.erase (.outbound a b sub l) }) (.frame d sub l))
  | _ => none

/-- The frame of the raw transmit buffer goes out once its priority is not paused; nothing that the MAC has held back longer waits behind it
(R419, R420). -/
def rawMove (s : State) (d : Nat) : Option State :=
  match (getDie s d).rawTx with
  | .outbound a b sub l :: rest =>
    if heldBack s d (.outbound a b sub l) then none else some (give (modDie s d fun y => { y with rawTx := rest }) (.frame d sub l))
  | _ => none

/-- A link's stream sender hands on the next beat of its oldest item, in a slot of its class; with the last beat the item has crossed (R24,
R28). -/
def linkMove (s : State) (d k : Nat) : Option State :=
  match (getLink s d k).strm with
  | [] => none
  | x :: rest =>
    if strmReady s d k && linkGrants s d k .stream then
      let t := slotUsed s d k .stream
      if (getLink s d k).beats + 1 < strmBeats x then some (modLink t d k fun l => { l with beats := l.beats + 1 })
      else some (strmEnter (modLink t d k fun l => { l with strm := rest, beats := 0 }) (linkPeer s d k).1 x)
    else none

/-- A header port delivers its oldest frame while that engine's event queue has an entry that is neither in use nor reserved; else it
withholds the credit, and the frames behind it wait (R428). -/
def portMove (s : State) (d p : Nat) : Option State :=
  match portHolds s d p with
  | .inbound a k n f :: _ =>
    if evUsed s k < 256 then
      let s := modDie s d fun y => { y with strm := y.strm.erase (.inbound a k n f) }
      let g := takeFree s
      some (modEng (evPush g.2 k 4 g.1 (w64 (b2n f.shroudB))) k fun e => { e with hxq := e.hxq ++ [f] })
    else none
  | _ => none

/-- The first of several movements that can happen. -/
def firstMove (s : State) : List (State → Option State) → Option State
  | [] => none
  | f :: fs => (f s).elim (firstMove s fs) some

/-- Everything that can move on the stream plane of the package. -/
def strmMoves (s : State) : List (State → Option State) :=
  (List.range (nDies s.part)).flatMap fun d =>
    [fun s => pauseEnd s d, fun s => rawMove s d, fun s => portMove s d 0, fun s => portMove s d 1, fun s => linkMove s d 0, fun s => linkMove s d 1, fun s => macMove s d,
     fun s => hdrMove s d]

/-- The stream plane holds something. -/
def strmBusy (s : State) : Bool :=
  s.dies.any fun e => !e.2.mac.isEmpty || !e.2.macTx.isEmpty || !e.2.rawTx.isEmpty || !e.2.hdr.isEmpty || !e.2.strm.isEmpty || e.2.links.any fun l => !l.2.strm.isEmpty

/-- The stream plane moves on while anything can move. -/
def strmRun : Nat → State → State
  | 0, s => s
  | n + 1, s => (firstMove s (strmMoves s)).elim s (strmRun n)

/-- A bound on the movements of the whole stream plane: each item moves out of its port, beat by beat over at most seven links, and into its
engine. -/
def strmSteps (s : State) : Nat :=
  let n (l : List StrmItem) : Nat := (l.map fun x => 3 + 7 * strmBeats x).sum
  (s.dies.map fun e => n e.2.mac + n e.2.macTx + n e.2.rawTx + n e.2.hdr + n e.2.strm + (e.2.links.map fun l => n l.2.strm).sum).sum

/-- The stream plane settles: what has credits and slots moves within the step; under the package fence no port sends (R544). -/
def strmSettle (s : State) : State := if strmBusy s && !s.fatal then strmRun (strmSteps s) s else s

/-- An engine of die `d` sends an item through its header port, where it waits behind what found no credit (R24, R25). -/
def strmSend (s : State) (d : Nat) (x : StrmItem) : State := strmSettle (modDie s d fun y => { y with hdr := y.hdr ++ [x] })

/-- A header port of a die's engines holds a credit of the link ports to which it sends (R24, R439). -/
def headerCredit (s : State) (d : Nat) : Bool := (getDie s d).hdr.isEmpty && [0, 1].all fun k => beatsFit (getLink s d k).strm 1 false

end Sys2Proof.Machine
end

