-- ==== Sys2Proof/Machine/Mesh.lean ====
section
/-! DEFINITION. The token mesh and the die-to-die links: router grants, credit pools, and the ESCAPE way into a spill ring
(spec 03: R112 to R118; 17: R539, R540, R542). -/

namespace Sys2Proof.Machine

/-- A flit enters a sender's queue, where it has room; a flit for a withdrawn neighbour is discarded (R116, R542). -/
def toTx (s : State) (d k : Nat) (f : Flit) (fromMesh : Bool) : Option State :=
  let nb := (linkPeer s d k).1
  if flitDie f = nb ∧ (getDie s nb).withdrawn then some (deadFlit s d f)
  else
    let i := 2 * poolOf s d k f + vcBit f
    if (tget (fun _ => []) (getLink s d k).tx i).length < inputCap (vcBit f) then
      some (modLink s d k fun l => { l with tx := tmod (fun _ => []) l.tx i (· ++ [(f, fromMesh)]) })
    else none

/-- A credit of a pool starts its way back to the sender (R116). -/
def creditBack (s : State) (d k i : Nat) : State :=
  let p := linkPeer s d k
  modLink s p.1 p.2 fun l => { l with back := tmod (fun _ => 0) l.back i (· + 1) }

/-- The head of a receiver's pool buffer moves on: into the mesh of its die, or to the next link (R113, R116). -/
def drainRx (s : State) (d k i : Nat) : State :=
  match tget (fun _ => []) (getLink s d k).rx i with
  | [] => s
  | f :: rest =>
    let moved : Option State :=
      if flitDie f = d then
        let r := if k = 0 then 39 else 32
        let p := if k = 0 then 2 else 3
        if (tget (fun _ => []) (getRouter s d r).q (2 * p + vcBit f)).length < inputCap (vcBit f) then
          some (modRouter s d r fun x => { x with q := tmod (fun _ => []) x.q (2 * p + vcBit f) (· ++ [f]) })
        else none
      else toTx s d (linkFor s d (flitDie f)) f false
    match moved with
    | some s => creditBack (modLink s d k fun l => { l with rx := tset (fun _ => []) l.rx i rest }) d k i
    | none => s

/-- Every pool buffer of a receiver is tried once. -/
def drainAll (s : State) (d k : Nat) : State := (List.range 6).foldl (fun s i => drainRx s d k i) s

/-! ### The mesh (R112 to R114) -/

/-- The neighbour of a router at an output, and the port at which the flit arrives there. -/
def meshNext (r : Nat) : MeshPort → Option (Nat × Nat)
  | .north => if 8 ≤ r then some (r - 8, 1) else none
  | .south => if r < 32 then some (r + 8, 0) else none
  | .east => if r % 8 < 7 then some (r + 1, 3) else none
  | .west => if 0 < r % 8 then some (r - 1, 2) else none
  | _ => none

/-- The place behind an output takes a flit; `none` while it has no room (R113, R114, R116). DESIGN CHOICE (log 149): the ingress of an engine
has the places of a router's input. -/
def hopTo (s : State) (d r : Nat) (out : MeshPort) (f : Flit) : Option State :=
  match out, meshNext r out with
  | _, some (r', p) =>
    if (tget (fun _ => []) (getRouter s d r').q (2 * p + vcBit f)).length < inputCap (vcBit f) then
      some (modRouter s d r' fun x => { x with q := tmod (fun _ => []) x.q (2 * p + vcBit f) (· ++ [f]) })
    else none
  | .east, none => if r = 39 then toTx s d 0 f true else none
  | .west, none => if r = 32 then toTx s d 1 f true else none
  | .unit, none =>
    if r < 32 then
      let g := gspar d r
      if (getSpar s g).out then some (deadFlit s d f)
      else if (getSpar s g).arr.any fun x => vcBit x == vcBit f then none
      else some (modSpar s g fun x => { x with arr := x.arr ++ [f] })
    else if 34 ≤ r ∧ r < 38 then
      let e := 4 * (r - 34) + flitDest f % 4
      if ((tget (fun _ => []) (getDie s d).engIn e).filter fun x => vcBit x == vcBit f).length < inputCap (vcBit f) then
        some (modDie s d fun x => { x with engIn := tmod (fun _ => []) x.engIn e (· ++ [f]) })
      else none
    else none
  | _, none => none

/-- The inputs of a router whose head flit of a VC can take an output now, in round robin (R113). -/
def hopCandidates (s : State) (d r : Nat) (out : MeshPort) (v : Nat) : List (Nat × Flit) :=
  let x := getRouter s d r
  let last := tget (fun _ => 5) x.rr (2 * portNo out + v)
  ((List.range 6).map fun j => (last + 1 + j) % 6).filterMap fun p =>
    match tget (fun _ => []) x.q (2 * p + v) with
    | f :: _ => if outPort s d r f = out ∧ (hopTo s d r out f).isSome then some (p, f) else none
    | [] => none

/-- The fetch agent's replies enter the local port while it has room (R161). -/
def refillReplies (s : State) (g : Nat) : State :=
  match (getSpar s g).replies with
  | [] => s
  | f :: rest =>
    let k := 2 * portNo .unit + vcBit f
    if (tget (fun _ => []) (getRouter s (g / 32) (g % 32)).q k).length < inputCap (vcBit f) then
      modRouter (modSpar s g fun x => { x with replies := rest }) (g / 32) (g % 32) fun x =>
        { x with q := tmod (fun _ => []) x.q k (· ++ [f]) }
    else s

/-- What fills the place that a granted flit leaves at an input. -/
def refillInput (s : State) (d r p v : Nat) : State :=
  if p = 4 then
    let s := refillSrc s d r .unit v
    if r < 32 then refillReplies s (gspar d r) else s
  else if p = 5 then refillSrc s d r .sch v
  else if r = 39 ∧ p = 2 then drainAll s d 0
  else if r = 32 ∧ p = 3 then drainAll s d 1
  else s

/-- A flit of an input is granted the output (R113). DESIGN CHOICE (log 139): each VC1 grant since the output's last VC0 grant counts towards
the 16, also one that was made while no VC0 flit waited. -/
def grantHop (s : State) (d r : Nat) (out : MeshPort) (v : Nat) (c : Nat × Flit) : State :=
  match hopTo s d r out c.2 with
  | some s =>
    let s := modRouter s d r fun x =>
      { x with q := tmod (fun _ => []) x.q (2 * c.1 + v) (·.drop 1), rr := tset (fun _ => 5) x.rr (2 * portNo out + v) c.1,
               cnt := tset (fun _ => 0) x.cnt (portNo out) (if v = 1 then tget (fun _ => 0) x.cnt (portNo out) + 1 else 0) }
    refillInput s d r c.1 v
  | none => s

/-- MESH_HOP: an output of a router grants one flit; VC1 goes ahead, but one grant in 16 is VC0's (R113). -/
def meshHop (s : State) (d r : Nat) (out : MeshPort) : State :=
  let c1 := hopCandidates s d r out 1
  let c0 := hopCandidates s d r out 0
  let due := decide (15 ≤ tget (fun _ => 0) (getRouter s d r).cnt (portNo out))
  match c1, c0 with
  | x :: _, [] => grantHop s d r out 1 x
  | x :: _, y :: _ => if due then grantHop s d r out 0 y else grantHop s d r out 1 x
  | [], y :: _ => grantHop s d r out 0 y
  | [], [] => s

/-- MESH_HOP (R113). -/
def execMeshHop (die router : Nat) (out : MeshPort) (s : State) : Out :=
  unitDo s die (dieLive s die) (meshHop s die router out)

/-! ### Moving over a link (R95, R116 to R118) -/

/-- The station acts: a withdrawn die keeps its through-path only (R541). -/
def stationLive (s : State) (d pool : Nat) : Bool :=
  decide (d < nDies s.part) && !s.fatal && (!(getDie s d).withdrawn || pool == 0)

/-- A checked flit takes its place in a receiver's buffer; where the check discarded it, its credit goes back (R95). -/
def landFlit (s : State) (d k i : Nat) : Option Flit → State
  | some f => drainRx (modLink s d k fun l => { l with rx := tmod (fun _ => []) l.rx i (· ++ [f]) }) d k i
  | none => creditBack s d k i

/-- A flit arrives over a link (R95). -/
def arriveLink (s : State) (d k i : Nat) (f : Flit) (err : BitVec 160) : State :=
  let r := recvFlit s d bSys (2 * d + k) 0x0401 f err
  landFlit r.2 d k i r.1

/-- LINK_FLIT_RECEIVE: the head of the neighbour's sender queue of a pool crosses with its credits, in a slot of the token class (R28, R116,
R117, R119). -/
def linkReceive (s : State) (d k pool v : Nat) (err : BitVec 160) : State :=
  let p := linkPeer s d k
  let i := 2 * pool + v
  let l := getLink s p.1 p.2
  match tget (fun _ => []) l.tx i with
  | [] => s
  | (f, mesh) :: rest =>
    let free := poolCredits pool v - tget (fun _ => 0) l.used i
    if l.out || (getLink s d k).out || decide (free < (if pool = 0 ∧ mesh then 2 else 1)) then s
    else
      match tokenSlot s p.1 p.2 with
      | none => s
      | some s =>
      let s := modLink s p.1 p.2 fun l => { l with tx := tset (fun _ => []) l.tx i rest, used := tmod (fun _ => 0) l.used i (· + 1) }
      drainAll (arriveLink s d k i f err) p.1 (1 - p.2)

/-- LINK_FLIT_RECEIVE (R116). -/
def execLinkFlitReceive (die link : Nat) (pool : Pool) (vc1 : Bool) (err : BitVec 160) (s : State) : Out :=
  unitDo s die (stationLive s die (poolNo pool)) (strmSettle (linkReceive s die link (poolNo pool) (b2n vc1) err))

/-- ESCAPE_SEND: the head of a THROUGH or EXIT_SPAR queue has waited 256 FCLK without its credits; it crosses on VC2 in a slot of the token
class (R28, R118, R119). -/
def escapeSend (s : State) (d k pool v : Nat) : State :=
  let i := 2 * pool + v
  let l := getLink s d k
  match tget (fun _ => []) l.tx i with
  | [] => s
  | (f, mesh) :: rest =>
    let free := poolCredits pool v - tget (fun _ => 0) l.used i
    if l.out || l.escUsed || decide (1 < pool) || flitCls f == 2 || decide ((if pool = 0 ∧ mesh then 2 else 1) ≤ free) then s
    else
      match tokenSlot s d k with
      | none => s
      | some s =>
      let p := linkPeer s d k
      let s := modLink s d k fun l => { l with tx := tset (fun _ => []) l.tx i rest, escUsed := true }
      let f := { f with route := mkRoute 2 (flitCls f) (flitDie f) (flitDest f) }
      let s := modLink s p.1 p.2 fun l => { l with esc := some f }
      drainAll (count s d bSch (if k = 0 then rSchLnkesc0 else rSchLnkesc1)) d (1 - k)

/-- ESCAPE_SEND (R118). -/
def execEscapeSend (die link : Nat) (pool : Pool) (vc1 : Bool) (s : State) : Out :=
  unitDo s die (stationLive s die (poolNo pool)) (escapeSend s die link (poolNo pool) (b2n vc1))

/-- The ESCAPE credit goes back to the sender (R118). -/
def escapeFree (s : State) (d k : Nat) : State :=
  let p := linkPeer s d k
  modLink s p.1 p.2 fun l => { l with escUsed := false }

/-- ESCAPE_RECEIVE: a VC2 flit is checked and written into the spill ring of the spar that it names; the credit stays while
the slot is held (R118, R165). -/
def escapeReceive (s : State) (d k : Nat) (err : BitVec 160) : State :=
  match (getLink s d k).esc with
  | none => s
  | some f =>
    let s := modLink s d k fun l => { l with esc := none }
    let r := recvFlit s d bSys (2 * d + k) 0x0401 f err
    r.1.elim (escapeFree r.2 d k) fun f =>
      let g := gspar (flitDie f) (flitDest f)
      if (getDie s (flitDie f)).withdrawn then escapeFree (deadFlit r.2 d f) d k
      else
        let s := appendSlot r.2 d g (.link d k) f.tag f.value (flitCls f) (if flitCls f = 1 then 0 else 8 + origKind f)
        if (getSpar s g).holds.any fun h => h.producer == .link d k then s else escapeFree s d k

/-- ESCAPE_RECEIVE (R118). -/
def execEscapeReceive (die link : Nat) (err : BitVec 160) (s : State) : Out :=
  unitDo s die (stationLive s die 0) (escapeReceive s die link err)

/-- CREDIT_RETURN: a returned credit becomes usable at the sender (R116). -/
def creditReturn (s : State) (d k i : Nat) : State :=
  if tget (fun _ => 0) (getLink s d k).back i = 0 then s
  else modLink s d k fun l => { l with back := tmod (fun _ => 0) l.back i (· - 1), used := tmod (fun _ => 0) l.used i (· - 1) }

/-- CREDIT_RETURN (R116). -/
def execCreditReturn (die link : Nat) (pool : Pool) (vc1 : Bool) (s : State) : Out :=
  unitDo s die (stationLive s die (poolNo pool)) (creditReturn s die link (2 * poolNo pool + b2n vc1))

end Sys2Proof.Machine
end

