-- ==== Sys2Proof/Machine/Sched.lean ====
section
/-! DEFINITION. The scheduler: ready lists, dissolving, dispatch, flows and their arbiters, item rings and the Ratline ring
(spec 04: R125 to R151, R678). -/

namespace Sys2Proof.Machine

/-! ### Flows -/

/-- flow_hash (R136). -/
@[irreducible] def flowHash (part k : Nat) : Nat := fld k 15 0 ^^^ fld k 31 16 ^^^ fld k 47 32 ^^^ fld k 63 48 ^^^ part % 2 ^ 10

/-- The die of a flow's arbiter, as a unit computes it (R136). -/
def flowDie (s : State) (u part : Nat) (key : Word) : Nat :=
  pstFdie s u part + flowHash part key.toNat % 2 ^ pstLog2Fd s u part

/-- A spar sends a flow message; one for a withdrawn die is discarded on the way (R140, R542). -/
def sendFlow (s : State) (k : FlowKind) (g part : Nat) (key : Word) (slot : Nat) (who : FlowWho) : State :=
  let d := flowDie s (uSpar g) part key
  if (getDie s d).withdrawn then deadTo s (g / 32) d
  else { s with flowMsgs := s.flowMsgs ++ [⟨k, d, part, key, g, slot, who⟩] }

/-- What an entry's messages tell of it. -/
def flowWho (i : Inst) : FlowWho := ⟨i.tag, i.level, i.item⟩

/-- The entry uses a request slot (R137). DESIGN CHOICE (log 140): the spec does not say when a slot is free again; it stays in use until
the instance ends or is purged. -/
def usesSlot (i : Inst) : Bool := i.flow == .requested || i.flow == .refused || i.flow == .held

/-- The request slots of a spar in use (R137). -/
def slotsUsed (s : State) (g : Nat) : List Nat :=
  (((getSpar s g).rl.filter usesSlot).map (·.slot))
    ++ (List.range 9).filterMap fun p =>
        match (getPe s (peKey g p)).inst with
        | some i => if usesSlot i then some i.slot else none
        | none => none

/-- The order of entries on the ready lists (R126, R131). -/
def rlKey (i : Inst) : Nat := i.level * 2 ^ 64 + i.seq

/-- Waiting entries take free request slots and send their requests, in the order of R131 (R137). -/
def assignSlots (s : State) (g : Nat) : Nat → State
  | 0 => s
  | n + 1 =>
    match firstBelow 64 fun k => k ∉ slotsUsed s g with
    | none => s
    | some k =>
      match minBy (fun i => if i.flow = .slotWait then rlKey i else 2 ^ 80) (getSpar s g).rl with
      | some (i, j) =>
        if i.flow = .slotWait then
          let s := modSpar s g fun x => { x with rl := setAt x.rl j { i with flow := .requested, slot := k } }
          assignSlots (sendFlow s .request g i.part i.key k (flowWho i)) g n
        else s
      | none => s

/-- The flow of an instance that has ended, or of a purged entry, is released (R138, R129). -/
def releaseFlow (s : State) (g : Nat) (i : Inst) : State :=
  if i.flow = .held then sendFlow s .release g i.part i.key i.slot (flowWho i) else s

/-! ### Ready lists -/

/-- Places used in a level (R125). -/
def levelUsed (s : State) (g l : Nat) : Nat := ((getSpar s g).rl.filter (·.level == l)).length

/-- Places that a partition holds in a level. -/
def partUsed (s : State) (g part l : Nat) : Nat := ((getSpar s g).rl.filter fun i => i.level == l && i.part == part).length

/-- A partition has a place in a level (R127, R128). -/
def hasPlace (s : State) (g part l : Nat) : Bool :=
  decide (levelUsed s g l < 256) && decide (partUsed s g part l < pstRlcap s (uSpar g) part)

/-- An event of an entry for Ratline (R148). -/
def ratInst (s : State) (g type : Nat) (i : Inst) (slot info : Nat) (fkey : Word := 0) : State :=
  ratEvent s (g / 32) g type i.level i.part slot i.item i.tag info fkey

/-- The tag of operand `p` of an instance. -/
def opTag (i : Inst) (p : Nat) : Word := i.tag + w64 (4 * p)

/-- An instance is dissolved into the spar's spill ring (R128, R106). DEDUCED (log 126): R165 names no effect of a holding scheduler, which
goes on and may hold several slots. -/
def dissolve (s : State) (g : Nat) (i : Inst) : State :=
  let n := max 1 i.arity
  let s := countClu (ratInst s g 7 i 0 n) g rCluRldiscnt
  (List.range n).foldl (fun s p =>
    spillOwn s g .scheduler (opTag i p) (i.ops.getD p 0) 0 (8 + i.kinds.getD p 0)) s

/-- A complete instance is discarded for want of a scheduling entry or of an arbiter (R678). -/
def discardNoEntry (s : State) (g : Nat) (i : Inst) : State :=
  deferred (countClu s g rCluMisadcnt) (g / 32) bSch 0xFF 0x0406 0x06 0 i.tag 0

/-- An entry enters a ready list (R125, R126). -/
def enter (s : State) (g : Nat) (i : Inst) : State :=
  let old := (getSpar s g).rl.length
  let s := modSpar s g fun x => { x with rl := x.rl ++ [{ i with seq := x.seq }], seq := x.seq + 1 }
  assignSlots (rlMark (ratInst (ptFill s (uSpar g) .pst i.part) g 0 i 0 (if i.item then 0 else i.arity)) g old) g 64

/-- A flow's arbiter lies on a populated die (R678). -/
def arbiterExists (s : State) (g : Nat) (i : Inst) (key : Word) : Bool :=
  decide (flowDie s (uSpar g) i.part key < nDies s.part)

/-- A complete graph-mode instance reaches the scheduler, with its codelet's `FLOW_SRC` and `FLOW_SEL` (R125, R128, R133,
R135, R678). DESIGN CHOICE (log 140): the ILLEGAL check of R135 comes before the search for a place, and leaves no ENQ record. -/
def enterReady (s : State) (g : Nat) (i : Inst) (src sel : Nat) : State :=
  let port := sel % 8
  if !ptValid s (uSpar g) .pst i.part then discardNoEntry s g i
  else if src = 3 ∨ (src = 1 ∧ i.arity ≤ port) then unitTrap s 2 g i.part tIllegal i.tag 0 i.byTrap
  else if src = 1 ∧ !arbiterExists s g i (i.ops.getD port 0) then discardNoEntry s g i
  else if !hasPlace s g i.part i.level then dissolve s g i
  else
    enter s g (if src = 0 then { i with flow := .none }
      else if src = 1 then { i with flow := .slotWait, key := i.ops.getD port 0 }
      else { i with flow := .keyWait, key := w64 sel })

/-- An entry leaves its ready list. -/
def rlRemove (s : State) (g k : Nat) : State :=
  let old := (getSpar s g).rl.length
  rlMark (modSpar s g fun x => { x with rl := dropAt x.rl k }) g old

/-- READY_PROMOTE: an entry has stayed 4,096 PCLK in level 3 or 2 (R127). DEDUCED (log 125): its PROM record carries, and is filtered by,
the level into which it has moved. -/
def promote (s : State) (g k : Nat) : State :=
  match (getSpar s g).rl[k]? with
  | some i =>
    if 2 ≤ i.level ∧ hasPlace s g i.part (i.level - 1) then
      ratInst (modSpar s g fun x => { x with rl := setAt x.rl k { i with level := i.level - 1 } }) g 2
        { i with level := i.level - 1 } 0 0
    else s
  | none => s

/-- READY_PROMOTE (R127). -/
def execReadyPromote (die spar : Nat) (entry : Nat) (s : State) : Out :=
  sparDo s die spar (promote s (gspar die spar) entry)

/-- A word of a frame as the spar L2 gives it, which asks the home for a line that it does not hold: the word or a cause, and none where the
home cannot serve it yet (R135, R319, R323). -/
def l2Read (s : State) (c : Ctx) (g va : Nat) : Option (Except Nat Word × State) :=
  let s := xlateNote s c va
  match translate s c .read va with
  | .error e => some (.error e, s)
  | .ok pa =>
    if !backed s pa then some (.error tPoison, noteRead s c.die pa)
    else (lineForRead s g (pa / 16)).map fun s => (if l2Poisoned s g pa then .error tPoison else .ok (l2Word s g pa), s)

/-- FLOW_KEY_RETURN: the frame-word key read of an entry returns, through the spar L2 (R135, R678). DESIGN CHOICE (log 127): the word is read
when the command comes, so that a store made visible since the entry entered its level is seen. -/
def keyReturn (s : State) (g k : Nat) : State :=
  match (getSpar s g).rl[k]? with
  | some i =>
    if i.flow = .keyWait then
      let va := i.body + i.key.toNat
      match l2Read s (codeletCtx (g / 32) i.part i.asid) g va with
      | none => s
      | some (.error e, s) => unitTrap (rlRemove s g k) 2 g i.part e i.tag (w64 (va % 2 ^ 49)) i.byTrap
      | some (.ok key, s) =>
        if !arbiterExists s g i key then discardNoEntry (rlRemove s g k) g i
        else
          assignSlots (modSpar s g fun x => { x with rl := setAt x.rl k { i with flow := .slotWait, key := key } }) g 64
    else s
  | none => s

/-- FLOW_KEY_RETURN (R135). -/
def execFlowKeyReturn (die spar : Nat) (entry : Nat) (s : State) : Out :=
  sparDo s die spar (keyReturn s (gspar die spar) entry)

/-! ### Dispatch (R130 to R132, R68, R531) -/

/-- Output places that an output takes; a purge or TRAP token, which no instruction sends, takes none (R158). -/
def outPlaces : Output → Nat
  | .fetch _ words _ => words.length
  | .flit f => if flitCls f = 1 ∨ (flitCls f = 0 ∧ origKind f = kTrap) then 0 else 1
  | .post _ _ _ _ _ _ _ => 1

/-- Free output places of a PE (R158). -/
def freePlaces (p : Pe) : Nat := 64 - ((p.held ++ p.out).map outPlaces).sum

/-- The physical PE in a service slot is available to the scheduler (R130). -/
def peAvailable (s : State) (g slot : Nat) : Bool :=
  let k := slotPe s g slot
  decide (k < 9) && (getPe s (peKey g k)).inst.isNone && (getPe s (peKey g k)).leaving.isNone
    && decide (16 ≤ freePlaces (getPe s (peKey g k)))

/-- The service slots of available PEs, in round robin after the slot chosen last (R131). -/
def availableSlots (s : State) (g : Nat) : List Nat :=
  ((List.range 9).map fun j => ((getSpar s g).rr + 1 + j) % 9).filter (peAvailable s g)

/-- The registers of a PE when it starts an instance (R68). -/
def startRegs (i : Inst) : Regs :=
  let ops := if i.item then i.ops.take 2 else i.ops.take i.arity
  let d0 : Tab Word := ops.zipIdx.foldl (fun t p => tset (fun _ => 0) t p.2 p.1) []
  { d := tset (fun _ => 0) d0 31 i.tag
    a := tset (fun _ => 0) (tset (fun _ => 0) [] 0 (BitVec.ofNat 49 (if i.item then 0 else i.body))) 1 (BitVec.ofNat 49 i.constBase)
    m := []
    w := []
    flags := 0
    pc := BitVec.ofNat 51 i.entry }

/-- A PE starts an instance (R68, R66). -/
def startPe (s : State) (g k : Nat) (i : Inst) (pair : Option (Bool × Nat)) : State :=
  modPe s (peKey g k) fun p =>
    { p with inst := some i, regs := startRegs i, chk := startRegs i, sb := [], held := [], taken := [], frees := [], gates := [],
             scopes := 0, retries := 0, decimal := false, opWait := false, pair := pair,
             scratch := [], cfg := w64 (ptWord s (g / 32) .pxt i.part 0) }

/-- The partition's instances run in assurance mode on this spar's die: its `ASSURE`, or `ASSUREALL` (R529, R620). -/
def assured (s : State) (g part : Nat) : Bool :=
  getF s 0 bPwr rPwrMode 30 30 == 1 || ptValid s (g / 32) .pxt part && pxtAssure s (g / 32) part

/-- The entry may be dispatched with the number of PEs available (R130, R131, R531). -/
def dispatchable (s : State) (g avail : Nat) (i : Inst) : Bool :=
  (i.flow == .none || i.flow == .held) && (if assured s g i.part then decide (2 ≤ avail) else decide (1 ≤ avail))

/-- The instance starts on one PE, or on a pair with the lower service slot leading (R131, R529). -/
def startOn (s : State) (g : Nat) (i : Inst) (slots : List Nat) : State × Nat :=
  let a := slots.getD 0 0
  let b := slots.getD 1 0
  if assured s g i.part then
    let lead := min a b
    let chk := max a b
    let s := startPe s g (slotPe s g lead) i (some (true, slotPe s g chk))
    let s := startPe s g (slotPe s g chk) i (some (false, slotPe s g lead))
    (modSpar s g fun x => { x with rr := b }, lead)
  else (modSpar (startPe s g (slotPe s g a) i none) g fun x => { x with rr := a }, a)

/-- One dispatch of the scheduler (R131). -/
def dispatchOne (s : State) (g : Nat) : State :=
  let slots := availableSlots s g
  match minBy (fun i => if dispatchable s g slots.length i then rlKey i else 2 ^ 80) (getSpar s g).rl with
  | some (i, k) =>
    if dispatchable s g slots.length i then
      let r := startOn (rlRemove s g k) g i slots
      let f := takeFree r.1
      let s := modHw (ptFill f.2 (g / 32) .pxt i.part) i.part fun h => { h with fired := true, lastFire := timeOf f.2 (g / 32) }
      ratInst s g 1 i r.2 f.1.toNat
    else s
  | none => s

/-- DISPATCH: one PCLK of the scheduler (R131); in level 2 every second PCLK, with at most one entry (R626). -/
def execDispatch (die spar : Nat) (s : State) : Out :=
  let t := dispatchOne s (gspar die spar)
  sparDo s die spar (if s.pw.level2 then t else dispatchOne t (gspar die spar))

/-! ### Flow arbiters (R136 to R139) -/

/-- Entries of the arbiter of a die (R136). -/
def flows (s : State) (d : Nat) : List FlowEntry := (getDie s d).flows

/-- An arbiter's entries replaced, with its watermark judged. -/
def setFlows (s : State) (d : Nat) (l : List FlowEntry) : State :=
  let old := (flows s d).length
  flMark (modDie s d fun x => { x with flows := l }) d old

/-- Two messages or entries name one flow. -/
def sameFlow (part : Nat) (key : Word) (e : FlowEntry) : Bool := e.part == part && e.key == key

/-- An event of the arbiter of die `d`, recorded with the requesting spar and with what the spar's message told of its entry (R148,
R149). -/
def ratFlow (s : State) (d type g part : Nat) (key : Word) (w : FlowWho) : State := ratEvent s d g type w.level part 0 w.item w.tag 0 key

/-- A message leaves an arbiter for a spar. -/
def grantTo (s : State) (d : Nat) (e : FlowEntry) : State :=
  ratFlow { s with flowMsgs := s.flowMsgs ++ [⟨.grant, d, e.part, e.key, e.spar, e.slot, e.who⟩] } d 4 e.spar e.part e.key e.who

/-- The spar's entry for a refused request (R137). -/
def markRefused (s : State) (m : FlowMsg) : State :=
  modSpar s m.spar fun x =>
    { x with rl := x.rl.map fun i =>
        if i.flow = .requested ∧ i.slot = m.slot ∧ i.part = m.part ∧ i.key = m.key then { i with flow := .refused } else i }

/-- The arbiter of die `d` takes one request (R137). A refusal goes back to a spar of another die in slots of the coherence class, and while it
finds none the request waits (R140). -/
def admitFlow (s : State) (d : Nat) (m : FlowMsg) : State :=
  let l := flows s d
  let own := !(l.any fun e => e.reserved && e.spar == m.spar)
  let shared := decide ((l.filter fun e => !e.reserved).length < 4096 - 32 * nDies s.part)
  if own || shared then
    let held := !(l.any (sameFlow m.part m.key))
    let e : FlowEntry := ⟨m.part, m.key, m.spar, m.slot, held, own, m.who⟩
    let s := setFlows s d (l ++ [e])
    if held then grantTo s d e else ratFlow s d 3 m.spar m.part m.key m.who
  else
    match cohCross s d (m.spar / 32) with
    | some s => markRefused (count s d bSch rSchFlownakcnt) m
    | none => { s with flowMsgs := s.flowMsgs ++ [m] }

/-- The messages at the named indices. -/
def pickAt {α : Type} (l : List α) (ks : List Nat) : List α := ks.filterMap fun k => l[k]?

/-- A list without its elements at the named indices. -/
def dropAll {α : Type} (l : List α) (ks : List Nat) : List α := (l.zipIdx.filter fun p => p.2 ∉ ks).map (·.1)

/-- The requests that arrive in one cycle, each flow's in round robin of the requesting spar (R139). DESIGN CHOICE (log 149): flows
go in the order of their first message, and each starts from the pointer that the one before has left. -/
def admitAll (s : State) (d : Nat) : Nat → List FlowMsg → State
  | 0, _ => s
  | _, [] => s
  | n + 1, m :: rest =>
    let mine := m :: rest.filter fun x => x.part == m.part && x.key == m.key
    let others := rest.filter fun x => !(x.part == m.part && x.key == m.key)
    let ptr := (getDie s d).flowRr
    let ordered := sortBy (fun x => (x.spar + 255 - ptr % 256) % 256) mine
    let s := if 2 ≤ mine.length then modDie s d fun x => { x with flowRr := (ordered.headD m).spar } else s
    admitAll (ordered.foldl (fun s x => admitFlow s d x) s) d n others

/-- The named messages that are requests to the arbiter of a die. -/
def requestsAt (s : State) (die : Nat) (msgs : List Nat) : List Nat :=
  msgs.eraseDups.filter fun k => s.flowMsgs[k]?.any fun m => m.kind == .request && m.die == die

/-- A flow message crosses from another die in slots of the coherence class of the links; one of the same die has its own path (R140). -/
def flowCross (s : State) (m : FlowMsg) : Option State := cohCross s (flowEnds m).1 (flowEnds m).2

/-- The requests at the named indices that reach the arbiter's die, and the links after them. -/
def crossRequests (s : State) (ks : List Nat) : List Nat × State :=
  ks.foldl (fun (a : List Nat × State) k =>
    match s.flowMsgs[k]? with
    | some m => (flowCross a.2 m).elim a fun t => (a.1 ++ [k], t)
    | none => a) ([], s)

/-- FLOW_REQUEST: the requests among the named messages arrive at a die's arbiter in one cycle (R137, R139). -/
def execFlowRequest (die : Nat) (msgs : List Nat) (s : State) : Out :=
  let x := crossRequests s (requestsAt s die msgs)
  schDo s die (admitAll { x.2 with flowMsgs := dropAll s.flowMsgs x.1 } die x.1.length (pickAt s.flowMsgs x.1))

/-- 256 PCLK after a refusal the spar sends the request of a slot again (R137). -/
def askAgain (s : State) (g slot : Nat) : State :=
  match (getSpar s g).rl.zipIdx.find? fun p => p.1.flow == .refused && p.1.slot == slot with
  | some (i, k) =>
    sendFlow (modSpar s g fun x => { x with rl := setAt x.rl k { i with flow := .requested } }) .request g i.part i.key slot (flowWho i)
  | none => s

/-- FLOW_REQUEST_RETRY (R137). -/
def execFlowRequestRetry (die spar : Nat) (slot : Nat) (s : State) : Out := sparDo s die spar (askAgain s (gspar die spar) slot)

/-- A grant arrives at its spar; one for an entry that has been cancelled is answered with a release (R137, R139). -/
def takeGrant (s : State) (die msg : Nat) : State :=
    match s.flowMsgs[msg]? with
    | some m =>
      if m.kind = .grant ∧ m.spar / 32 = die ∧ dieLive s die then
        (flowCross s m).elim s fun s =>
        let s := { s with flowMsgs := dropAt s.flowMsgs msg }
        match (getSpar s m.spar).rl.zipIdx.find? fun p =>
            p.1.flow == .requested && p.1.slot == m.slot && p.1.part == m.part && p.1.key == m.key with
        | some (i, k) => modSpar s m.spar fun x => { x with rl := setAt x.rl k { i with flow := .held } }
        | none => sendFlow s .release m.spar m.part m.key m.slot m.who
      else s
    | none => s

/-- FLOW_GRANT (R137). -/
def execFlowGrant (die : Nat) (msg : Nat) (s : State) : Out := onDie s die (takeGrant s die msg)

/-- The oldest WAIT entry of a flow becomes HELD and is granted (R138). -/
def grantNext (s : State) (d part : Nat) (key : Word) : State :=
  match (flows s d).zipIdx.find? fun p => !p.1.held && sameFlow part key p.1 with
  | some (e, k) =>
    grantTo (modDie s d fun x => { x with flows := setAt x.flows k { e with held := true } }) d { e with held := true }
  | none => s

/-- A release reaches the arbiter (R138). -/
def takeRelease (s : State) (die msg : Nat) : State :=
    match s.flowMsgs[msg]? with
    | some m =>
      if m.kind = .release ∧ m.die = die then
        (flowCross s m).elim s fun s =>
        let s := { s with flowMsgs := dropAt s.flowMsgs msg }
        match (flows s die).zipIdx.find? fun p => p.1.held && sameFlow m.part m.key p.1 && p.1.spar == m.spar with
        | some (_, k) =>
          grantNext (ratFlow (setFlows s die (dropAt (flows s die) k)) die 5 m.spar m.part m.key m.who) die m.part m.key
        | none => s
      else s
    | none => s

/-- FLOW_RELEASE (R138). -/
def execFlowRelease (die : Nat) (msg : Nat) (s : State) : Out := schDo s die (takeRelease s die msg)

/-- A cancel reaches the arbiter and removes the WAIT entry; where the entry is HELD its grant is on the way and the spar answers
it with a release (R139). -/
def takeCancel (s : State) (die msg : Nat) : State :=
    match s.flowMsgs[msg]? with
    | some m =>
      if m.kind = .cancel ∧ m.die = die then
        (flowCross s m).elim s fun s =>
        let s := { s with flowMsgs := dropAt s.flowMsgs msg }
        match (flows s die).zipIdx.find? fun p =>
            !p.1.held && sameFlow m.part m.key p.1 && p.1.spar == m.spar && p.1.slot == m.slot with
        | some (_, k) => setFlows s die (dropAt (flows s die) k)
        | none => s
      else s
    | none => s

/-- FLOW_CANCEL (R139). -/
def execFlowCancel (die : Nat) (msg : Nat) (s : State) : Out := schDo s die (takeCancel s die msg)

/-! ### Purge of fired instances (R58, R129) -/

/-- The entry belongs to a generation of a frame. -/
def ofGen (tag : Word) (i : Inst) : Bool :=
  !i.item && tagPart i.tag == tagPart tag && tagFrame i.tag == tagFrame tag && tagGen i.tag == tagGen tag

/-- A purged entry: its grant is released, or its request cancelled, and it is counted (R58, R129). -/
def purgeEntry (s : State) (g : Nat) (i : Inst) : State :=
  let s := countClu (ratInst s g 6 i 0 0) g rCluStalecnt
  if i.flow = .held then releaseFlow s g i
  else if i.flow = .requested then sendFlow s .cancel g i.part i.key i.slot (flowWho i)
  else s

/-- The scheduler removes the old generation of a frame from its ready lists (R129). -/
def purgeReady (s : State) (g : Nat) (tag : Word) : State :=
  let old := (getSpar s g).rl
  let s := rlMark (modSpar s g fun x => { x with rl := x.rl.filter fun i => !ofGen tag i }) g old.length
  assignSlots ((old.filter (ofGen tag)).foldl (fun s i => purgeEntry s g i) s) g 64

/-! ### Item mode (R141 to R144) -/

/-- The base of the item ring of member `i` (R141). -/
def itemRing (s : State) (u part i : Nat) : Nat := pstWq s u part + i * (16 + 8 * 2 ^ pstLog2N s u part)

/-- The work item's level (R82). -/
def itemLevel (w1 : Word) : Nat := max 1 (wfld w1 33 32)

/-- What an item codelet starts with: constant base and first parcel, none where the graph does not name it (R144). -/
def itemCode (s : State) (c : Ctx) (graph codelet : Nat) : Option (Nat × Nat) :=
  match readVa s c graph, readVa s c (graph + 1), readVa s c (graph + 2), readVa s c (graph + 4 + codelet) with
  | .ok w0, .ok w1, .ok w2, .ok e =>
    if codelet < wfld w0 63 46 then some (wfld w1 48 0, (wfld w2 50 0 + wfld e 31 0) % 2 ^ 51) else none
  | _, _, _, _ => none

/-- A work item enters a ready list (R125, R133). -/
def enterItem (s : State) (g part asid : Nat) (w0 w1 a0 a1 : Word) (constBase entry : Nat) : State :=
  let flow : FlowState := if wfld w1 31 0 = 0 then .none else .slotWait
  enter s g
    { tag := w1, item := true, graph := wfld w0 48 0, part := part, asid := asid, level := itemLevel w1, ops := [a0, a1],
      kinds := [0, 0], arity := 2, byTrap := false, seq := 0, flow := flow, key := w64 (wfld w1 31 0), slot := 0, body := 0,
      constBase := constBase, entry := entry }

/-- The slot at HEAD of the spar's item ring is taken (R144); a poisoned HEAD names none (R326). DESIGN CHOICE (log 128): a poisoned word among words 0 to 4 frees the slot,
though its `VALID` and `LAP` cannot be judged then. -/
def itemTake (s : State) (g : Nat) : State :=
  let d := g / 32
  let part := getF s d (bClu (g % 32)) rCluSchctl 25 16
  let u := uSpar g
  let m := g - pstItemBase s u part
  if !(itemMode s g && ptValid s u .pst part && pstIv s u part && decide (pstItemBase s u part ≤ g) && decide (m < 2 ^ pstLog2I s u part))
  then s
  else
    let b := itemRing s u part m
    let head := peek s (b + 1)
    let a := b + 16 + 8 * (head.toNat % 2 ^ pstLog2N s u part)
    let w4 := peek s (a + 4)
    let w1 := peek s (a + 1)
    let done (s : State) : State := store (store s d (a + 4) 0) d (b + 1) (head + 1)
    let s := unitRead s d (b + 1) 1
    if isPoisoned s (b + 1) then hwPoison s d (b + 1)
    else
    let s := unitRead s d a 5
    match (List.range 5).find? fun k => isPoisoned s (a + k) with
    | some k => done (hwPoison s d (a + k))
    | none =>
      if !(wbit w4 63 && wfld w4 31 0 == wfld head 31 0 && hasPlace s g part (itemLevel w1)) then s
      else
        let c := codeletCtx d part (wfld w4 45 40)
        let graph := wfld (peek s a) 48 0
        let s := unitNote (unitNote s c graph 4) c (graph + 4 + wfld w1 63 46) 1
        match itemCode s c graph (wfld w1 63 46) with
        | some (cb, e) =>
          if wfld w1 31 0 ≠ 0 ∧ nDies s.part ≤ flowDie s u part (w64 (wfld w1 31 0)) then
            done (deferred (countClu s g rCluMisadcnt) d bSch 0xFF 0x0406 0x06 0 w1 0)
          else done (enterItem s g part (wfld w4 45 40) (peek s a) w1 (peek s (a + 2)) (peek s (a + 3)) cb e)
        | none => done (unitTrap (countClu s g rCluMisadcnt) 2 g part tMisaddr w1 0)

/-- ITEM_TAKE (R144). -/
def execItemTake (die spar : Nat) (s : State) : Out := sparDo s die spar (itemTake s (gspar die spar))

/-- How a post ends: written, turned away by a full ring, or abandoned at a poisoned word (R143, R326). -/
inductive Post
  | done | full | lost
  deriving DecidableEq, Repr

/-- A post is tried: the bounded far add reserves a slot, which is then written. On a full ring the add changes no word, and is a request to
the home all the same (R143, R330). -/
def tryPost (s : State) (u part asid g : Nat) (w0 w1 w2 w3 : Word) : Post × State :=
  let d := uDie u
  let b := itemRing s u part (g - pstItemBase s u part)
  let tail := peek s b
  let s := unitRead s d (b + 1) 1
  if isPoisoned s (b + 1) then (.lost, hwPoison s d (b + 1))
  else if isPoisoned s b then (.lost, (farAdd s d b 1).2)
  else if (tail - peek s (b + 1)).toNat < 2 ^ pstLog2N s u part then
    let a := b + 16 + 8 * (tail.toNat % 2 ^ pstLog2N s u part)
    let s := (farAdd s d b 1).2
    let s := stores s d a [w0, w1, w2, w3]
    let s := store s d (a + 5) (timeOf s d)
    (.done, store s d (a + 4) (w64 (2 ^ 63 + asid % 64 * 2 ^ 40 + wfld tail 31 0)))
  else (.full, unitTakes s d .amoFar (b / 16))

/-- The member of the item set that a post goes to, and the round robin after it (R142). -/
def postMember (s : State) (u part target rr : Nat) (w1 : Word) : Nat × Nat :=
  let n := 2 ^ pstLog2I s u part
  if target % 256 = 255 then
    if wfld w1 31 0 ≠ 0 then (flowHash part (wfld w1 31 0) % n, rr) else (rr % n, (rr + 1) % n)
  else (target % 256 % n, rr)

/-! ### The Ratline ring (R150, R151) -/

/-- A record of a spar's staging queue reaches the ring, or is dropped (R151). -/
def ratWrite (s : State) (die spar : Nat) : State :=
  let g := gspar die spar
  match (getSpar s g).staging with
  | [] => s
  | r :: rest =>
    let s := modSpar s g fun x => { x with staging := rest }
    let cfg := getReg s die bRtl rRtlCfg
    let k := getReg s die bRtl rRtlWptr
    let n := 2 ^ fld cfg 30 26
    if bitOf cfg 31 ∧ n ≤ k then count s die bRtl rRtlDropcnt
    else
      let a := baseOf s die bRtl rRtlBaseHi + 4 * (k % n)
      setReg (stores s die a [r.time, r.tag, r.info, r.fkey]) die bRtl rRtlWptr ((k + 1) % 2 ^ 32)

/-- RATLINE_RECORD_WRITE: the die's Ratline takes one staged record of a spar (R150, R151). -/
def execRatlineRecordWrite (die spar : Nat) (s : State) : Out :=
  unitDo s die (dieLive s die && blkEn s die bRtl) (ratWrite s die spar)

end Sys2Proof.Machine
end

