-- ==== Sys2Proof/Machine/Match.lean ====
section
/-! DEFINITION. The matching unit and spar ingress: the firing rule, the matching store, misses, evictions, purges, diversion
and the spill ring (spec 02 R44 to R49, R58; 03 R96 to R111; 05 R162 to R168, R186). -/

namespace Sys2Proof.Machine

/-! ### Keys, sets and buckets (R98, R108) -/

abbrev keyPart (k : Nat) : Nat := fld k 58 49
abbrev keyFrame (k : Nat) : Nat := fld k 48 24
abbrev keyGen (k : Nat) : Nat := fld k 23 18
abbrev keyCodelet (k : Nat) : Nat := fld k 17 0

/-- set_hash (R98). -/
@[irreducible] def setHash (k : Nat) : Nat :=
  let f := keyFrame k
  fld f 10 0 ^^^ fld f 21 11 ^^^ fld f 24 22 ^^^ rotl 11 (fld (keyCodelet k) 10 0) 4 ^^^ fld (keyCodelet k) 17 11
    ^^^ keyGen k * 32 ^^^ keyPart k

/-- The spill bucket of a frame, as its first word's offset in the partition's area (R108). -/
def bucketOff (log2e frame : Nat) : Nat := 256 * ((frame ^^^ frame / 2 ^ 11) % 2 ^ (log2e - 4))

/-- The filter counter of a frame (R108). -/
def filterIndex (part frame : Nat) : Nat := fld frame 13 0 ^^^ fld frame 24 14 * 8 ^^^ part

/-- The spill bucket's first word address, as the spar's matching unit sees the partition's entry. -/
def bucketAt (s : State) (g part frame : Nat) : Nat := pmtMsa s (uSpar g) part + bucketOff (pmtLog2E s (uSpar g) part) frame

def filterOf (s : State) (g part frame : Nat) : Nat := tget (fun _ => 0) (getSpar s g).filter (filterIndex part frame)

/-- A filter counter rises; at 255 it stays for good (R108). -/
def filterUp (s : State) (g part frame : Nat) : State :=
  modSpar s g fun x => { x with filter := tmod (fun _ => 0) x.filter (filterIndex part frame) fun n => min 255 (n + 1) }

/-- A filter counter falls, unless it is saturated (R108). -/
def filterDown (s : State) (g part frame : Nat) : State :=
  modSpar s g fun x =>
    { x with filter := tmod (fun _ => 0) x.filter (filterIndex part frame) fun n => if n = 255 then 255 else n - 1 }

/-! ### Matching store entries -/

/-- No entry in a way. -/
def noMatch (_ : Nat) : Option Match := none

/-- The entry in a way of a set. -/
def wayOf (s : State) (g set w : Nat) : Option Match := tget noMatch (getSpar s g).store (8 * set + w)

def setWay (s : State) (g set w : Nat) (m : Option Match) : State :=
  modSpar s g fun x => { x with store := tset noMatch x.store (8 * set + w) m }

/-- The way that holds a key. -/
def wayHit (s : State) (g set key : Nat) : Option Nat :=
  firstBelow 8 fun w => match wayOf s g set w with
    | some m => m.key == key
    | none => false

/-- The lowest free way of a set. -/
def wayFree (s : State) (g set : Nat) : Option Nat := firstBelow 8 fun w => (wayOf s g set w).isNone

/-- The victim of a full set: the largest age, then the lowest way (R102). -/
def victim (s : State) (g set : Nat) : Nat :=
  let age (w : Nat) : Nat := match wayOf s g set w with
    | some m => m.age
    | none => 0
  (List.range 8).foldl (fun b w => if age b < age w then w else b) 0

/-- A way is touched: it takes age 0 and every other valid way of the set grows older (R102). -/
def touch (s : State) (g set w : Nat) : State :=
  (List.range 8).foldl (fun s v =>
    match wayOf s g set v with
    | some m => setWay s g set v (some { m with age := if v = w then 0 else min 7 (m.age + 1) })
    | none => s) s

/-- The operand of a token joins an entry (R46). -/
def addOperand (m : Match) (f : Flit) : Match :=
  let p := tagPort f.tag
  let v : Word := if origKind f = kSignal then 0 else f.value
  { m with present := m.present ||| 2 ^ p, prio := min m.prio (tagPrio f.tag), kinds := putFld m.kinds (3 * p + 2) (3 * p) (origKind f),
           ops := tset (fun _ => 0) m.ops p v }

/-- A new entry made by a token (R46). -/
def newMatch (f : Flit) (arity : Nat) : Match := addOperand ⟨tagKey f.tag, 0, 3, arity, 0, 0, [], false⟩ f

/-- Every port of the codelet holds its operand (R46). -/
def complete (m : Match) : Bool := m.present % 2 ^ m.arity == 2 ^ m.arity - 1

/-- The operand of a port is held. -/
def held (m : Match) (p : Nat) : Bool := bitOf m.present p

/-- The operands that an entry holds, counted. -/
def operandCount (m : Match) : Nat := popcount 8 m.present

/-! ### Firing (R46 to R48, R68) -/

/-- What a token's codelet is known by: its frame and its codelet line. -/
def instOf (fr : FrameLine) (cl : CodeletLine) (tag : Word) (arity : Nat) (ops : List Word) (kinds : List Nat) : Inst :=
  { tag := tag, item := false, graph := fr.graph, part := fr.part, asid := fr.asid, level := tagPrio tag, ops := ops, kinds := kinds,
    arity := arity, byTrap := kinds.any (· == kTrap), seq := 0, flow := .none, key := 0, slot := 0, body := fr.body,
    constBase := cl.constBase, entry := (cl.codeBase + wfld cl.entry 31 0) % 2 ^ 51 }

/-- A complete instance goes to the scheduler (R46, R125). -/
def fire (s : State) (g : Nat) (fr : FrameLine) (cl : CodeletLine) (tag : Word) (arity : Nat) (ops : List Word) (kinds : List Nat) : State :=
  enterReady s g (instOf fr cl tag arity ops kinds) (wfld cl.entry 59 58) (wfld cl.entry 57 46)

/-- A token fires its codelet of arity 0 or 1 directly (R46). -/
def fireDirect (s : State) (g : Nat) (fr : FrameLine) (cl : CodeletLine) (f : Flit) (arity : Nat) : State :=
  fire s g fr cl f.tag arity [if origKind f = kSignal then 0 else f.value] [origKind f]

/-- A complete match fires with the key as its tag, PORT 0 and the smallest PRIO (R46, R48). -/
def fireMatch (s : State) (g : Nat) (fr : FrameLine) (cl : CodeletLine) (m : Match) : State :=
  fire s g fr cl (w64 (m.key * 32 + m.prio)) m.arity ((List.range m.arity).map fun p => tget (fun _ => 0) m.ops p)
    ((List.range m.arity).map fun p => fld m.kinds (3 * p + 2) (3 * p))

/-- A token is misaddressed (R45, R77). -/
def misaddressed (s : State) (g : Nat) (f : Flit) : State :=
  unitTrap (countClu s g rCluMisadcnt) 1 g (tagPart f.tag) tMisaddr f.tag f.value

/-- A token is a duplicate operand (R47). -/
def duplicate (s : State) (g : Nat) (f : Flit) : State :=
  unitTrap (countClu s g rCluDupopcnt) 1 g (tagPart f.tag) tDupop f.tag f.value

/-! ### Caches (R100, R101) -/

def cachedFrame (s : State) (g part frame : Nat) : Option FrameLine :=
  (getSpar s g).fcache.find? fun l => l.part == part && l.frame == frame

def cachedCodelet (s : State) (g : Nat) (fr : FrameLine) (c : Nat) : Option CodeletLine :=
  (getSpar s g).ccache.find? fun l => l.part == fr.part && l.asid == fr.asid && l.graph == fr.graph && l.index == c

/-- A frame enters the frame-state cache of 4,096 frames; the oldest leaves. -/
def cacheFrame (s : State) (g : Nat) (l : FrameLine) : State :=
  modSpar s g fun x => { x with fcache := (l :: x.fcache).take 4096 }

/-- A codelet enters the codelet cache of 1,024 entries; the oldest leaves. -/
def cacheCodelet (s : State) (g : Nat) (l : CodeletLine) : State :=
  modSpar s g fun x => { x with ccache := (l :: x.ccache).take 1024 }

/-- What a frame descriptor read shows a matching unit (R45, R100). -/
def readFrame (s : State) (d part frame : Nat) : Option FrameLine :=
  let st := frState s d frame
  if (st == fsLive || st == fsFixed) && frPart s d frame == part then
    some ⟨frame, part, st, frGen s d frame, frAsid s d frame, frBody s d frame, frGraph s d frame⟩
  else none

/-- The four words of the graph header (R34) and the codelet entry as they are read under the frame's address space; `none` makes the
token misaddressed (R45). -/
def readCodelet (s : State) (d : Nat) (fr : FrameLine) (c : Nat) : Option CodeletLine :=
  let x := codeletCtx d fr.part fr.asid
  match readVa s x fr.graph, readVa s x (fr.graph + 1), readVa s x (fr.graph + 2), readVa s x (fr.graph + 3) with
  | .ok w0, .ok w1, .ok w2, .ok _ =>
    if c < wfld w0 63 46 then
      match readVa s x (fr.graph + 4 + c) with
      | .ok e =>
        if wfld e 63 60 ≤ 8 then some ⟨fr.part, fr.asid, fr.graph, c, wfld w0 63 46, wfld w1 48 0, wfld w2 50 0, e⟩ else none
      | .error _ => none
    else none
  | _, _, _, _ => none

/-- The port check of R45. -/
def portOk (arity port : Nat) : Bool := if arity ≤ 1 then port == 0 else decide (port < arity)

/-! ### The store path (R103, R104) -/

/-- A token meets its entry in a way of the store. -/
def hitWay (s : State) (g : Nat) (fr : FrameLine) (cl : CodeletLine) (set w : Nat) (m : Match) (f : Flit) : State :=
  if held m (tagPort f.tag) then duplicate s g f
  else
    let m := addOperand m f
    if complete m then fireMatch (touch (setWay s g set w none) g set w) g fr cl m
    else touch (setWay s g set w (some m)) g set w

/-- A new entry takes a way; a victim moves to the eviction buffer, and `none` says that the buffer is full (R104). -/
def install (s : State) (g : Nat) (m : Match) : Option State :=
  let set := setHash m.key
  match wayFree s g set with
  | some w => some (touch (setWay s g set w (some m)) g set w)
  | none =>
    if 8 ≤ (getSpar s g).evb.length then none
    else
      let w := victim s g set
      match wayOf s g set w with
      | some v =>
        let s := modSpar s g fun x => { x with evb := x.evb ++ [v] }
        some (touch (setWay s g set w (some m)) g set w)
      | none => none

/-- A token of arity 2 to 8 with both caches hit and nothing spilled: it matches in the store or makes an entry (R103,
R104). -/
def storePath (s : State) (g : Nat) (fr : FrameLine) (cl : CodeletLine) (arity : Nat) (f : Flit) : Option State :=
  let set := setHash (tagKey f.tag)
  match wayHit s g set (tagKey f.tag) with
  | some w =>
    match wayOf s g set w with
    | some m => some (hitWay s g fr cl set w m f)
    | none => none
  | none => install s g (newMatch f arity)

/-- A key is in the eviction buffer. -/
def inEvb (s : State) (g key : Nat) : Bool := (getSpar s g).evb.any (·.key == key)

/-- A key waits in the miss buffer. -/
def inMiss (s : State) (g key : Nat) : Bool := (getSpar s g).miss.any fun f => tagKey f.tag == key

/-- A flit moves to the miss buffer; `none` while it is full (R105). -/
def toMiss (s : State) (g : Nat) (f : Flit) : Option State :=
  if (getSpar s g).miss.length < 64 then some (modSpar s g fun x => { x with miss := x.miss ++ [f] }) else none

/-- A flit whose KIND or ROUTE is never produced is discarded, counted and recorded (R43, R92). -/
def dropNever (s : State) (g : Nat) (f : Flit) : State :=
  deferred (countClu s g rCluMisadcnt) (g / 32) (bClu (g % 32)) 0xFF 0x0402 0x06 0 f.tag 0

/-- The matching pipeline handles one token; `none` says that the pipeline waits (R45, R46, R103 to R105). DEDUCED (log 122): a frame
with a spill filter count goes by way of the miss buffer even where the store holds the token's entry, since R105 makes no exception for
a hit. -/
def pipeline (s : State) (g : Nat) (f : Flit) : Option State :=
  let key := tagKey f.tag
  if neverProduced f then some (dropNever s g f)
  else if itemMode s g then some (misaddressed s g f)
  else if inMiss s g key || inEvb s g key then toMiss s g f
  else
    match cachedFrame s g (tagPart f.tag) (tagFrame f.tag) with
    | none => toMiss s g f
    | some fr =>
      if fr.gen ≠ tagGen f.tag then some (countClu s g rCluStalecnt)
      else
        match cachedCodelet s g fr (tagCodelet f.tag) with
        | none => toMiss s g f
        | some cl =>
          let arity := wfld cl.entry 63 60
          if !portOk arity (tagPort f.tag) then some (misaddressed s g f)
          else if arity ≤ 1 then some (fireDirect s g fr cl f arity)
          else if filterOf s g fr.part fr.frame ≠ 0 then toMiss s g f
          else storePath s g fr cl arity f

/-- The flit that the pipeline takes next: the oldest on VC1 goes ahead (R96, R162). -/
def nextIq (s : State) (g : Nat) : Option (IqPlace × Nat) :=
  minBy (fun p => if flitVc p.flit = 1 then 0 else 1) (getSpar s g).iq

/-- A place of the input queue is freed. -/
def iqRemove (s : State) (g k : Nat) : State :=
  let old := (getSpar s g).iq.length
  iqMark (modSpar s g fun x => { x with iq := dropAt x.iq k }) g old

/-- The pipeline takes the next flit of the input queue, a token; one that must wait stays in the pipeline (R104, R105). -/
def takeQueued (s : State) (g : Nat) : State :=
  match nextIq s g with
  | some (p, k) =>
    if flitCls p.flit = 1 then s
    else
      match pipeline s g p.flit with
      | some t => iqRemove t g k
      | none => modSpar (iqRemove s g k) g fun x => { x with pipe := some p.flit }
  | none => s

/-- The flit at which the pipeline stands is tried again: nothing behind it passes it (R104, R105). -/
def takeStanding (s : State) (g : Nat) (f : Flit) : State :=
  match pipeline s g f with
  | some t => modSpar t g fun x => { x with pipe := none }
  | none => s

/-- The pipeline takes the next of the flits that come back from the miss buffer (R105). -/
def takeReentry (s : State) (g : Nat) (f : Flit) (rest : List Flit) : State :=
  match pipeline s g f with
  | some t => modSpar t g fun x => { x with reentry := rest }
  | none => s

/-- TOKEN_ARRIVAL: the flit at which the pipeline stands goes first, then flits that come back from the miss buffer, then the input queue. A
flit that stalled at step 3 only to wait behind its key in the miss buffer stays behind the flits of that key that come back (R44, R45, R99,
R104, R105). -/
def takeToken (s : State) (g : Nat) : State :=
  match (getSpar s g).pipe, (getSpar s g).reentry with
  | some p, f :: rest =>
    if (f :: rest).any fun x => tagKey x.tag == tagKey p.tag then takeReentry s g f rest else takeStanding s g p
  | some p, [] => takeStanding s g p
  | none, f :: rest => takeReentry s g f rest
  | none, [] => takeQueued s g

/-- TOKEN_ARRIVAL (R45). -/
def execTokenArrival (die spar : Nat) (s : State) : Out := sparDo s die spar (takeToken s (gspar die spar))

/-! ### Probe and refill (R105, R110) -/

/-- A bucket line's words of an entry (R110). -/
def lineWords (m : Match) : List Word :=
  w64 (2 ^ 63 + m.present * 2 ^ 55 + m.prio * 2 ^ 53 + m.arity * 2 ^ 49 + m.kinds * 2 ^ 25) :: w64 (m.key * 32)
    :: ((List.range 8).map (fun p => if held m p then tget (fun _ => 0) m.ops p else 0) ++ [0, 0, 0, 0, 0, 0])

/-- The entry that a bucket line holds (R110). -/
def lineMatch (s : State) (a : Nat) : Match :=
  let w0 := peek s a
  let present := wfld w0 62 55
  ⟨wfld (peek s (a + 1)) 63 5, present, wfld w0 54 53, wfld w0 52 49, 0, wfld w0 48 25,
    (List.range 8).foldl (fun t p => tset (fun _ => 0) t p (if bitOf present p then peek s (a + 2 + p) else 0)) [], false⟩

/-- A word of the line's first ten is poisoned. -/
def linePoison (s : State) (a : Nat) : Option Nat := (firstBelow 10 fun j => isPoisoned s (a + j)).map (a + ·)

/-- The first line of a bucket that satisfies a condition on its words 0 and 1; poisoned lines are passed over. -/
def findLine (s : State) (b : Nat) (p : Word → Word → Bool) : Option Nat :=
  (firstBelow 16 fun i => (linePoison s (b + 16 * i)).isNone && p (peek s (b + 16 * i)) (peek s (b + 16 * i + 1))).map (b + 16 * ·)

/-- Lines of a bucket that a poisoned word makes unreadable are abandoned and recorded (R326). -/
def notePoison (s : State) (d b : Nat) : State :=
  (List.range 16).foldl (fun s i =>
    match linePoison s (b + 16 * i) with
    | some a => hwPoison s d a
    | none => s) s

/-- The flit's entry is in the frame's bucket: it is refilled and its line freed (R105). -/
def refill (s : State) (g : Nat) (fr : FrameLine) (cl : CodeletLine) (f : Flit) (a : Nat) : Option State :=
  let m := lineMatch s a
  let free (s : State) : State :=
    filterDown (store (countClu s g rCluMsrefcnt) (g / 32) a (wput (peek s a) 63 63 0)) g fr.part fr.frame
  if held m (tagPort f.tag) then (install s g m).map fun s => duplicate (free s) g f
  else
    let m := addOperand m f
    if complete m then some (fireMatch (free s) g fr cl m) else (install s g m).map free

/-- A flit of the miss buffer with its frame and codelet at hand (R105, step 4). DEDUCED (log 122): under a matching table entry with
`V` = 0 no spill area is named, and the line counts as not found, as R106 has it for the eviction engine. -/
def resolve (s : State) (g : Nat) (fr : FrameLine) (cl : CodeletLine) (f : Flit) : Option State :=
  let arity := wfld cl.entry 63 60
  let set := setHash (tagKey f.tag)
  if !portOk arity (tagPort f.tag) then some (misaddressed s g f)
  else if arity ≤ 1 then some (fireDirect s g fr cl f arity)
  else if (wayHit s g set (tagKey f.tag)).isSome ∨ filterOf s g fr.part fr.frame = 0 ∨ !ptValid s (uSpar g) .pmt fr.part then
    storePath s g fr cl arity f
  else
    let b := bucketAt s g fr.part fr.frame
    let s := notePoison (unitRead s (g / 32) b 256) (g / 32) b
    match findLine s b fun w0 w1 => wbit w0 63 && wfld w1 63 5 == tagKey f.tag with
    | some a => refill s g fr cl f a
    | none => storePath s g fr cl arity f

/-- The data of a miss-buffer flit returns (R100, R105). -/
def probe (s : State) (g : Nat) (f : Flit) : Option State :=
  let d := g / 32
  let part := tagPart f.tag
  let frame := tagFrame f.tag
  let held := cachedFrame s g part frame
  let s := if held.isNone then unitRead s d (descAddr s d frame) 3 else s
  match (if held.isNone then firstBelow 3 fun j => isPoisoned s (descAddr s d frame + j) else none) with
  | some j => some (hwPoison s d (descAddr s d frame + j))
  | none =>
    match (match held with
      | some l => some l
      | none => readFrame s d part frame) with
    | none => some (countClu s g rCluStalecnt)
    | some fr =>
      let s := if held.isNone then cacheFrame s g fr else s
      if fr.gen ≠ tagGen f.tag then some (countClu s g rCluStalecnt)
      else
        match cachedCodelet s g fr (tagCodelet f.tag) with
        | some cl => resolve s g fr cl f
        | none =>
          let s := unitNote (unitNote s (codeletCtx d part fr.asid) fr.graph 4) (codeletCtx d part fr.asid) (fr.graph + 4 + tagCodelet f.tag) 1
          match readCodelet s d fr (tagCodelet f.tag) with
          | some cl => resolve (cacheCodelet s g cl) g fr cl f
          | none => some (misaddressed s g f)

/-- The flits that waited behind a key leave the miss buffer for the pipeline, ahead of the input queue (R105, step 5). -/
def reenter (s : State) (g key : Nat) : State :=
  modSpar s g fun x =>
    { x with miss := x.miss.filter fun f => tagKey f.tag != key, reentry := x.reentry ++ x.miss.filter fun f => tagKey f.tag == key }

/-- PROBE_DATA_RETURN for the flit at an index of the miss buffer, the first there of its key (R99, R105). -/
def probeReturn (s : State) (g k : Nat) : State :=
  match (getSpar s g).miss[k]? with
  | some f =>
    if ((getSpar s g).miss.take k).any (fun x => tagKey x.tag == tagKey f.tag) || inEvb s g (tagKey f.tag) then s
    else
      match probe (modSpar s g fun x => { x with miss := dropAt x.miss k }) g f with
      | some t => reenter t g (tagKey f.tag)
      | none => s
  | none => s

/-- PROBE_DATA_RETURN (R105). -/
def execProbeDataReturn (die spar : Nat) (entry : Nat) (s : State) : Out :=
  sparDo s die spar (probeReturn s (gspar die spar) entry)

/-! ### Eviction (R106) -/

/-- A producer of this spar holds a spill-ring slot (R165). -/
def holding (s : State) (g : Nat) (p : Producer) : Bool := (getSpar s g).holds.any (·.producer == p)

/-- The head of the eviction buffer is replaced or removed. -/
def evbHead (s : State) (g : Nat) (m : Option Match) : State :=
  modSpar s g fun x => { x with evb := m.toList ++ x.evb.drop 1 }

/-- One operand of a victim goes to the spill ring with its original kind (R106). -/
def spillOperand (s : State) (g : Nat) (m : Match) (p : Nat) : State :=
  spillOwn s g .matcher (w64 (m.key * 32 + 4 * p + m.prio)) (tget (fun _ => 0) m.ops p) 0 (8 + fld m.kinds (3 * p + 2) (3 * p))

/-- The victim's operands are spilled in port order until a slot has to be held; the entry stays while one is (R106, R165). -/
def dissolveVictim (s : State) (g : Nat) (m : Match) : Nat → State
  | 0 => evbHead (countClu s g rCluMsdiscnt) g none
  | n + 1 =>
    match firstBelow 8 (held m) with
    | none => evbHead (countClu s g rCluMsdiscnt) g none
    | some p =>
      let s := spillOperand s g m p
      let m := { m with present := m.present - 2 ^ p, dissolving := true }
      if holding s g .matcher then evbHead s g (some m) else dissolveVictim s g m n

/-- The eviction engine empties one entry of the buffer (R106). -/
def evict (s : State) (g : Nat) : State :=
  match (getSpar s g).evb with
  | [] => s
  | m :: _ =>
    let d := g / 32
    let part := keyPart m.key
    let frame := keyFrame m.key
    if holding s g .matcher then s
    else if m.dissolving then dissolveVictim s g m 8
    else
      let s := ptFill s (uSpar g) .pmt part
      if !ptValid s (uSpar g) .pmt part then evbHead (countCluN s g rCluOrphcnt (operandCount m)) g none
      else
      let b := bucketAt s g part frame
      let s := notePoison (unitRead s d b 256) d b
      match findLine s b fun w0 _ => !wbit w0 63 with
      | some a => evbHead (filterUp (countClu (stores s d a (lineWords m)) g rCluMsevcnt) g part frame) g none
      | none => dissolveVictim s g m 8

/-- EVICTION (R106). -/
def execEviction (die spar : Nat) (s : State) : Out := sparDo s die spar (evict s (gspar die spar))

/-! ### Ingress, shares and diversion (R162, R163) -/

/-- Places of a partition in the input queue. -/
def iqHeld (x : Spar) (part : Nat) : Nat := (x.iq.filter fun p => tagPart p.flit.tag == part).length

/-- Which kind of place an arriving flit takes: `some true` a reserved one, `some false` a general one, `none` no room
(R162). -/
def placeFor (s : State) (g : Nat) (f : Flit) : Option Bool :=
  let x := getSpar s g
  let part := tagPart f.tag
  let res := x.iq.filter (·.reserved)
  let gen := x.iq.length - res.length
  if flitVc f = 1 ∧ res.length < 256 ∧ (res.filter fun p => tagPart p.flit.tag == part).length < 32 then some true
  else if iqHeld x part < pptQshare s (g / 32) part ∧ gen < 1792 then some false
  else none

/-- A flit takes a place of the input queue. -/
def iqEnter (s : State) (g : Nat) (f : Flit) (reserved refill : Bool) : State :=
  let old := (getSpar s g).iq.length
  let s := ptFill s (g / 32) .ppt (tagPart f.tag)
  iqMark (modSpar s g fun x => { x with iq := x.iq ++ [⟨f, reserved, refill⟩] }) g old

/-- The flit that waits at a spar's ingress on a VC. -/
def atIngress (s : State) (g : Nat) (vc1 : Bool) : Option Flit := (getSpar s g).arr.find? fun f => (flitVc f == 1) == vc1

/-- The flit at ingress is taken off the router. -/
def leaveIngress (s : State) (g : Nat) (vc1 : Bool) : State :=
  modSpar s g fun x => { x with arr := x.arr.filter fun f => !((flitVc f == 1) == vc1) }

/-- A flit is written to the spill ring by ingress, with its class and kind (R111, R163). DEDUCED: one that is never produced has no
slot that spells it, and is discarded here as R43 has it (R92). -/
def divertFlit (s : State) (g : Nat) (f : Flit) : State :=
  let s := countClu s g rCluDivcnt
  if neverProduced f then dropNever s g f
  else if flitCls f = 1 then spillOwn s g .ingress f.tag f.value 1 0 else spillOwn s g .ingress f.tag f.value 0 (8 + origKind f)

/-- A flit at ingress is checked and taken, diverted, or left where it is; a holding ingress takes nothing (R95, R162, R163, R165). -/
def ingress (s : State) (g : Nat) (vc1 : Bool) (err : BitVec 160) : State :=
  match atIngress s g vc1 with
  | none => s
  | some f =>
    let diverted := tagPart f.tag ∈ (getSpar s g).divert
    let place := placeFor s g f
    if holding s g .ingress || (!diverted && place.isNone) then s
    else
      let r := recvFlit (leaveIngress s g vc1) (g / 32) (bClu (g % 32)) 0xFF 0x0111 f err
      r.1.elim r.2 fun f => if diverted then divertFlit r.2 g f else iqEnter r.2 g f (place.getD false) false

/-- FLIT_INGRESS (R162). -/
def execFlitIngress (die spar : Nat) (vc1 : Bool) (err : BitVec 160) (s : State) : Out :=
  sparDo s die spar (ingress s (gspar die spar) vc1 err)

/-- A flit of the partition waits at ingress without room (R163). -/
def stuckAt (s : State) (g part : Nat) : Bool :=
  (getSpar s g).arr.any fun f => tagPart f.tag == part && (placeFor s g f).isNone

/-- DIVERSION_START: a flit of the partition has found no room for 256 FCLK (R163). -/
def execDiversionStart (die spar part : Nat) (s : State) : Out :=
  let g := gspar die spar
  sparDo s die spar
    (if stuckAt s g part && !((getSpar s g).divert.contains part) then
      modSpar s g fun x => { x with divert := x.divert ++ [part] }
    else s)

/-- DIVERSION_END: the diversion has lasted 1,024 FCLK and the partition holds at most half its share (R163). -/
def execDiversionEnd (die spar part : Nat) (s : State) : Out :=
  let g := gspar die spar
  sparDo s die spar
    (if iqHeld (getSpar s g) part ≤ pptQshare s die part / 2 then
      modSpar s g fun x => { x with divert := x.divert.filter (· != part) }
    else s)

/-! ### Spill rings (R111, R165, R166, R186) -/

/-- SPILL_RING_APPEND: the partition manager appends a token to a spar's ring by the producer protocol (R111, R186). DESIGN CHOICE
(log 149): the producer's die of R165, at which a hold of it counts, is the ring's own. -/
def execSpillRingAppend (die spar : Nat) (tag value : Word) (kind : BitVec 2) (s : State) : Out :=
  unitDo s die (dieLive s die) (appendSlot s die (gspar die spar) .manager tag value 0 (8 + kind.toNat))

/-- The die whose unit holds a slot. -/
def holderDie (g : Nat) : Producer → Nat
  | .link d _ => d
  | _ => g / 32

/-- A held slot is written once there is room, or abandoned where HEAD is poisoned; a link receiver then gives the ESCAPE credit back (R118,
R165, R326). -/
def holdRetry (s : State) (g k : Nat) : State :=
  match (getSpar s g).holds[k]? with
  | none => s
  | some h =>
    let d := holderDie g h.producer
    let b := sprBase s g + 1
    let s := unitRead s d b 1
    let gone (s : State) : State := modSpar s g fun x => { x with holds := dropAt x.holds k }
    let freed (s : State) : State :=
      match h.producer with
      | .link d l => escapeFree s d l
      | _ => s
    if isPoisoned s b then freed (gone (hwPoison s d b))
    else if h.slot - (peek s b).toNat < 2 ^ 20 then freed (writeSlot (gone s) d g h.slot h.tag h.value h.cls h.kind)
    else s

/-- SPILL_RING_HOLD_RETRY (R165). -/
def execSpillRingHoldRetry (die spar : Nat) (hold : Nat) (s : State) : Out :=
  unitDo s die (dieLive s die) (holdRetry s (gspar die spar) hold)

/-- The flit that a ring slot spells (R111, R162): KIND bit [131] is set, and a token of PRIO 0 goes with VC1. -/
def slotFlit (g : Nat) (tag value w2 : Word) : Flit :=
  let cls := wfld w2 39 38
  ⟨mkRoute (if cls = 1 ∨ tagPrio tag = 0 then 1 else 0) cls (g / 32) (g % 32), BitVec.ofNat 4 (8 + wfld w2 34 32), tag, value⟩

/-- The slot at HEAD is taken into the input queue (R111, R167). DESIGN CHOICE (log 149): a poisoned slot that is abandoned is not consumed,
and its partition's count stays. -/
def ringConsume (s : State) (g : Nat) : State :=
  let d := g / 32
  let b := sprBase s g
  let head := peek s (b + 1)
  let a := b + 16 + 4 * (head.toNat % 2 ^ 20)
  let w2 := peek s (a + 2)
  let done (s : State) : State := store (store s d (a + 2) 0) d (b + 1) (head + 1)
  if 1024 ≤ (getSpar s g).iq.length then s
  else
    let s := unitRead s d (b + 1) 1
    if isPoisoned s (b + 1) then hwPoison s d (b + 1)
    else
    let s := unitRead s d a 4
    match firstBelow 4 fun j => isPoisoned s (a + j) with
    | some j => if backed s (a + j) then done (hwPoison s d (a + j)) else hwPoison s d (a + j)
    | none =>
      if wbit w2 63 && wfld w2 31 0 == wfld head 31 0 then
        let f := slotFlit g (peek s a) (peek s (a + 1)) w2
        uncountSlot (iqEnter (done s) g f false true) g (tagPart f.tag)
      else s

/-- SPILL_RING_CONSUME (R111). -/
def execSpillRingConsume (die spar : Nat) (s : State) : Out := sparDo s die spar (ringConsume s (gspar die spar))

/-- The spar measures its ring; a measurement that reads a poisoned word is abandoned (R166, R326). -/
def ringMeasure (s : State) (g : Nat) : State :=
  let d := g / 32
  let b := sprBase s g
  let s := unitRead s d b 2
  match firstBelow 2 fun j => isPoisoned s (b + j) with
  | some j => hwPoison s d (b + j)
  | none =>
  let occ := (peek s b - peek s (b + 1)).toNat
  let old := getF s d (bClu (g % 32)) rCluSrocc 20 0
  let s := setF s d (bClu (g % 32)) rCluSrocc 20 0 (min occ (2 ^ 20))
  let r := watermarkN 32 s d (bClu (g % 32)) rCluSrwm rCluSrxc (8 * (g % 32) + 4) (8 * (g % 32) + 5) old
    (min occ (2 ^ 20)) (getSpar s g).srSide
  modSpar r.1 g fun x => { x with srSide := r.2 }

/-- SPILL_RING_MEASURE (R166). -/
def execSpillRingMeasure (die spar : Nat) (s : State) : Out := sparDo s die spar (ringMeasure s (gspar die spar))

/-! ### Purges (R58, R109) -/

/-- A key belongs to the generation that a purge names. -/
def keyOfPurge (tag : Word) (k : Nat) : Bool := keyPart k == tagPart tag && keyFrame k == tagFrame tag && keyGen k == tagGen tag

/-- PURGE: the next flit of the input queue is a purge, no flit waits in the pipeline, and fewer than 16 purges are in progress
(R104, R105, R109). -/
def takePurge (s : State) (g : Nat) : State :=
  match nextIq s g with
  | some (p, k) =>
    if flitCls p.flit ≠ 1 ∨ (getSpar s g).pipe.isSome ∨ (getSpar s g).reentry ≠ [] then s
    else if routeBad p.flit then dropNever (iqRemove s g k) g p.flit
    else if (getSpar s g).purges.length < 16 then
      let t := p.flit.tag
      modSpar (iqRemove s g k) g fun x =>
        { x with purges := x.purges ++ [t], fcache := x.fcache.filter fun l => !(l.part == tagPart t && l.frame == tagFrame t) }
    else s
  | none => s

/-- PURGE (R109). -/
def execPurge (die spar : Nat) (s : State) : Out := sparDo s die spar (takePurge s (gspar die spar))

/-- The old generation's lines of the frame's spill bucket are freed, and their operands counted; a poisoned line is abandoned (R109,
R326). -/
def purgeBucket (s : State) (g : Nat) (tag : Word) : State :=
  let s := ptFill s (uSpar g) .pmt (tagPart tag)
  if ptValid s (uSpar g) .pmt (tagPart tag) then
    let b := bucketAt s g (tagPart tag) (tagFrame tag)
    let s := notePoison (unitRead s (g / 32) b 256) (g / 32) b
    (List.range 16).foldl (fun s i =>
      let a := b + 16 * i
      if wbit (peek s a) 63 && keyOfPurge tag (wfld (peek s (a + 1)) 63 5) && (linePoison s a).isNone then
        let s := countCluN s g rCluOrphcnt (popcount 8 (wfld (peek s a) 62 55))
        filterDown (store s (g / 32) a (wput (peek s a) 63 63 0)) g (tagPart tag) (tagFrame tag)
      else s) s
  else s

/-- Background removal of a generation from the store, the eviction buffer, the miss buffer and the bucket (R58, R109). -/
def purgeMatch (s : State) (g : Nat) (tag : Word) : State :=
  let x := getSpar s g
  let gone := x.store.filter fun p => match p.2 with
    | some m => keyOfPurge tag m.key
    | none => false
  let evGone := x.evb.filter fun m => keyOfPurge tag m.key
  let missGone := x.miss.filter fun f => keyOfPurge tag (tagKey f.tag)
  let ops := ((gone.filterMap fun p => p.2.map operandCount) ++ evGone.map operandCount).sum + missGone.length
  let s := countCluN s g rCluOrphcnt ops
  let s := modSpar s g fun x =>
    { x with store := gone.foldl (fun t p => tset noMatch t p.1 none) x.store, evb := x.evb.filter fun m => !keyOfPurge tag m.key,
             miss := x.miss.filter fun f => !keyOfPurge tag (tagKey f.tag) }
  purgeBucket s g tag

/-- PURGE_COMPLETE: removal for the oldest purge in progress ends, in the matching unit and in the scheduler (R58, R109,
R129). -/
def finishPurge (s : State) (g : Nat) : State :=
  match (getSpar s g).purges with
  | [] => s
  | t :: rest =>
    let s := modSpar s g fun x => { x with purges := rest }
    purgeDone (purgeReady (purgeMatch s g t) g t) (g / 32) t

/-- The frame indices of a partition's range (R490). -/
def frameRange (s : State) (p : Nat) : List Nat := (List.range (pxtFcount s 0 p)).map fun j => pxtFbase s 0 p + j

/-- The gate's line (R172). -/
def gateLine (s : State) (d part gate : Nat) : Nat := pptGt s d part + 16 * gate

/-- The gate exists under the entry in force on the gate unit's die (R174). -/
def gateExists (s : State) (d part gate : Nat) : Bool := pptGv s d part && decide (gate < 2 ^ pptLog2G s d part)

/-- The waiters of a gate (R172). -/
def gateWaiters (s : State) (d part gate : Nat) : Nat :=
  let w := peek s (gateLine s d part gate + 1)
  (wfld w 63 32 + 2 ^ 32 - wfld w 31 0) % 2 ^ 32

/-- The gates of a partition, each with the die of its gate unit (R172, R173). -/
def partGates (s : State) (p : Nat) : List (Nat × Nat) :=
  ((List.range (2 ^ pptLog2G s 0 p)).map fun g => (pstFdie s 0 p + g % 2 ^ pstLog2Fd s 0 p, g)).filter fun e => gateExists s e.1 p e.2

/-- No request of a partition waits in the ring of a gate of its (R172, R498; DEDUCED: log 74), besides gates whose counts poison hides. -/
def gatesEmpty (s : State) (p : Nat) : Bool :=
  (partGates s p).all fun e => isPoisoned s (gateLine s e.1 p e.2 + 1) || gateWaiters s e.1 p e.2 == 0

/-- Nothing of a partition under DESTROY is left: every purge is complete, no instance runs, and no request of it waits at a gate
unit or a flow arbiter (R498). That a purge is complete shows in its descriptor's `STATE`, but for descriptors that poison hides. -/
def destroyIdle (s : State) (p : Nat) : Bool :=
  (frameRange s p).all (fun f => frState s 0 f == fsFree || isPoisoned s (descAddr s 0 f))
    && !(s.pes.any fun c => (c.2.inst.map fun i => i.part == p).getD false)
    && gatesEmpty s p && !(s.gateMsgs.any fun m => m.op.part == p) && !(s.flowMsgs.any fun m => m.part == p)
    && (List.range (nDies s.part)).all fun d => !((getDie s d).flows.any fun e => e.part == p)

/-- The partition under DESTROY, if there is one (R498). -/
def destroyingPart (s : State) : Option Nat := (s.hw.find? fun h => h.2.destroying).map (·.1)

/-- What the SCH block of die 0 reads while a DESTROY runs: the first words of the descriptors, and the counts of the gates (R306, R498). -/
def destroyReads (s : State) (p : Nat) : State :=
  (partGates s p).foldl (fun s e => unitRead s e.1 (gateLine s e.1 p e.2 + 1) 1) ((frameRange s p).foldl (fun s f => unitRead s 0 (descAddr s 0 f) 1) s)

/-- A DESTROY that has nothing left to wait for ends: `PSTATE` becomes NONE (R498). -/
def destroySettle (s : State) : State :=
  match destroyingPart s with
  | some p =>
    let s := destroyReads s p
    if destroyIdle s p then
      modHw (unitMod s 0 (ptAddr s 0 .pxt p + 7) fun w => wput w 63 62 0) p fun h => { h with destroying := false, free := [], quar := [] }
    else s
  | none => s

/-- PURGE_COMPLETE (R58, R498). -/
def execPurgeComplete (die spar : Nat) (s : State) : Out := sparDo s die spar (destroySettle (finishPurge s (gspar die spar)))

end Sys2Proof.Machine
end

