-- ==== Sys2Proof/Machine/Progress.lean ====
section
/-! DEFINITION. Admission notices, loop gates, the fetch agent's replies and the delivery of traps (spec 02 R72, R76, R79; 05 R168,
R172 to R176, R677). -/

namespace Sys2Proof.Machine

/-! ### Admission (R168) -/

/-- Each closing of admission on die 0 adds 1 to `CLOSES`, whether a notice or `FCLOSE` makes it; `was` says whether it was closed before
(R168). -/
def noteClosing (s : State) (d part : Nat) (was : Bool) : State :=
  if d = 0 ∧ !was ∧ admissionClosed s d part then pptCount s d part 4 else s

/-- ADMISSION_NOTICE: the oldest waiting notice of a spar for this die, which comes on the coherence class of the links, updates the die's
count (R168). -/
def takeNotice (s : State) (die k : Nat) : State :=
  match s.notices[k]? with
  | some n =>
    if n.die ≠ die ∨ (s.notices.take k).any (fun m => m.die == die && m.spar == n.spar) then s
    else
      (cohCross s (n.spar / 32) die).elim s fun s =>
      let s := ptFill s die .ppt n.part
      let was := admissionClosed s die n.part
      let s := { s with notices := dropAt s.notices k }
      let s := modDie s die fun x =>
        { x with closed := let rest := x.closed.filter (· != (n.part, n.spar)); if n.close then rest ++ [(n.part, n.spar)] else rest }
      noteClosing s die n.part was
  | none => s

/-- ADMISSION_NOTICE (R168). -/
def execAdmissionNotice (die : Nat) (msg : Nat) (s : State) : Out := schDo s die (takeNotice s die msg)

/-! ### Loop gates (R172 to R176) -/

/-- A waiter entry of a gate (R172). -/
def waiterAt (s : State) (d part gate n : Nat) : Nat :=
  let w := 2 ^ pptLog2W s d part
  pptGt s d part + 16 * 2 ^ pptLog2G s d part + 4 * w * gate + 4 * (n % w)

/-- A half of a gate word changed: `hi` says bits [63:32]. -/
def gateSet (s : State) (d a : Nat) (hi : Bool) (v : Nat) : State :=
  unitMod s d a fun w => if hi then wput w 63 32 v else wput w 31 0 v

/-- A VALUE token of a gate unit to a reply tag, with R40 and R39 applied (R174). -/
def gateReply (s : State) (d part : Nat) (rtag v : Word) : State :=
  let tag := wput (if tagPrio rtag = 0 then wput rtag 1 0 1 else rtag) 63 54 part
  sendToken s d 34 .sch kValue tag v

/-- A refused request is counted and answered with 0 (R174). -/
def gateRefuse (s : State) (d part gate : Nat) (rtag : Word) : State :=
  let a := gateLine s d part gate + 3
  gateReply (pptCount (gateSet s d a true (wfld (peek s a) 63 32 + 1)) d part 6) d part rtag 0

/-- The gate waits for a later attempt, or no longer (R174). -/
def gateWait (s : State) (d part gate : Nat) (w : Bool) : State :=
  let rest := s.gateWaits.filter (· != (d, part, gate))
  { s with gateWaits := if w then rest ++ [(d, part, gate)] else rest }

/-- A grant attempt on a gate line that has been read: waiters are granted in order while the gate is below its limit and frames are to be
had (R174, R677). A waiter entry with a poisoned word is abandoned (R326). -/
def gateAttempt (s : State) (d part gate : Nat) : Nat → State
  | 0 => gateWait s d part gate false
  | n + 1 =>
    let a := gateLine s d part gate
    let head := wfld (peek s (a + 1)) 31 0
    if head = wfld (peek s (a + 1)) 63 32 ∨ wfld (peek s a) 63 32 ≤ wfld (peek s a) 31 0 then gateWait s d part gate false
    else
      let e := waiterAt s d part gate head
      let r := readClean s d e 3
      let s := r.2
      let asid := wfld (peek s (e + 1)) 63 58
      if !r.1 then gateAttempt (gateSet s d (a + 1) false (head + 1)) d part gate n
      else
      let s := allocNote s d part asid
      let rtag := peek s e
      let graph := wfld (peek s (e + 1)) 48 0
      let user := peek s (e + 2)
      match tryAlloc s d part asid with
      | .got f h pa =>
        let s := doAlloc s d part asid graph f h pa user
        let s := gateSet s d a false (wfld (peek s a) 31 0 + 1)
        let s := gateSet s d (a + 1) false (head + 1)
        let s := store s d (a + 2) (peek s (a + 2) + 1)
        gateAttempt (gateReply s d part rtag (tagBase s d part f)) d part gate n
      | .lost h x => gateWait (allocLost s d part h x) d part gate true
      | .fault _ _ =>
        let s := gateSet s d (a + 1) false (head + 1)
        let s := gateRefuse s d part gate rtag
        gateAttempt (deferred s d bSch 0xFF 0x0406 0x06 0 rtag 0) d part gate n
      | _ => gateWait s d part gate true

/-- An attempt over all waiters. -/
def gateTry (s : State) (d part gate : Nat) : State := gateAttempt s d part gate (gateWaiters s d part gate)

/-- A request reaches its gate unit (R174). A gate line with a poisoned word makes the unit abandon the message (R326). -/
def gateRequest (s : State) (d : Nat) (o : GateOp) : State :=
  if !gateExists s d o.part o.gate then gateReply s d o.part o.rtag 0
  else
    let a := gateLine s d o.part o.gate
    let r := readClean s d a 4
    let s := r.2
    if !r.1 then s
    else
    let tail := wfld (peek s (a + 1)) 63 32
    if gateWaiters s d o.part o.gate < 2 ^ pptLog2W s d o.part ∧ wfld (peek s a) 63 32 ≠ 0 then
      let e := waiterAt s d o.part o.gate tail
      let s := stores s d e [o.rtag, w64 (o.asid % 64 * 2 ^ 58 + o.graph % 2 ^ 49), o.uword, 0]
      gateTry (gateSet s d (a + 1) true (tail + 1)) d o.part o.gate
    else gateTry (gateRefuse s d o.part o.gate o.rtag) d o.part o.gate

/-- A release reaches its gate unit (R175). -/
def gateRelease (s : State) (d : Nat) (o : GateOp) : State :=
  if !gateExists s d o.part o.gate then s
  else
    let a := gateLine s d o.part o.gate
    let r := readClean s d a 4
    let s := r.2
    if !r.1 then s
    else
    let c := wfld (peek s a) 31 0
    let s := if c = 0 then gateSet s d (a + 3) false (wfld (peek s (a + 3)) 31 0 + 1) else gateSet s d a false (c - 1)
    gateTry s d o.part o.gate

/-- A gate message at an index is handled when it is of the kind. -/
def gateMsg (s : State) (die k : Nat) (release : Bool) : State :=
  match s.gateMsgs[k]? with
  | some m =>
    if m.die = die ∧ m.op.release = release then
      let s := ptFill { s with gateMsgs := dropAt s.gateMsgs k } die .ppt m.op.part
      if release then gateRelease s die m.op else gateRequest s die m.op
    else s
  | none => s

/-- GATE_REQUEST (R174). -/
def execGateRequest (die : Nat) (msg : Nat) (s : State) : Out := schDo s die (gateMsg s die msg false)

/-- GATE_RELEASE (R175). -/
def execGateRelease (die : Nat) (msg : Nat) (s : State) : Out := schDo s die (gateMsg s die msg true)

/-- A gate that waits tries again; a gate line with a poisoned word is abandoned (R326). -/
def gateRetry (s : State) (d part gate : Nat) : State :=
  if s.gateWaits.contains (d, part, gate) && gateExists s d part gate then
    let r := readClean s d (gateLine s d part gate) 4
    if r.1 then gateTry r.2 d part gate else r.2
  else s

/-- GATE_GRANT_RETRY: a gate that waits tries again after 4,096 PCLK or when admission reopens (R174). -/
def execGateGrantRetry (die part : Nat) (gate : Nat) (s : State) : Out := schDo s die (gateRetry s die part gate)

/-! ### The fetch agent (R70, R72, R161) -/

/-- FETCH_REPLY: a word that the agent asked for returns: its reply token, or the POISON trap (R72). -/
def fetchReply (s : State) (g k : Nat) : State :=
  match (getSpar s g).fetches[k]? with
  | some j =>
    let s := unitRead (modSpar s g fun x => { x with fetches := dropAt x.fetches k }) (g / 32) j.pa 1
    if isPoisoned s j.pa then
      unitTrap s 1 g j.part tPoison j.tag (w64 j.va)
    else
      match homeOf s (uSpar g) (tagPart j.tag) (tagFrame j.tag) with
      | some h =>
        let f := mkToken h kValue j.tag (peek s j.pa)
        refillReplies { modSpar s g (fun x => { x with replies := x.replies ++ [f] }) with fetchMoves := s.fetchMoves ++ [f] } g
      | none => noHome s (g / 32) j.tag
  | none => s

/-- FETCH_REPLY (R72). -/
def execFetchReply (die spar : Nat) (req : Nat) (s : State) : Out := sparDo s die spar (fetchReply s (gspar die spar) req)

/-! ### Trap delivery (R76, R77, R79) -/

/-- The words of a trap record (R77). -/
def trapWords (t : Trap) : List Word :=
  [w64 (t.cause * 2 ^ 56 + t.detail % 2 ^ 8 * 2 ^ 48 + b2n t.byTrap * 2 ^ 47 + min 255 t.scopes * 2 ^ 32), t.tag, w64 t.parcel,
    t.addr, t.time, w64 (t.src * 2 ^ 12 + t.die * 2 ^ 9 + t.spar * 2 ^ 4 + t.slot % 16), 0, 0]

/-- A record is written, word 0 last (R77). -/
def writeTrap (s : State) (d a : Nat) (t : Trap) : State :=
  store (stores s d (a + 1) ((trapWords t).drop 1)) d a ((trapWords t).headD 0)

/-- The TRAP token of a partition's handler: a PE's takes its place behind what the PE has released, a matching unit's or scheduler's
goes to its router (R76, R120). -/
def trapToken (s : State) (t : Trap) (v : Word) : State :=
  let f := pxtTframe s t.die t.part
  let g := gspar t.die t.spar
  let tag := mkTag t.part f (frGen s t.die f) (pxtHcodelet s t.die t.part) 0 0
  if t.src = 0 then peRelease s (peKey g t.pe) (.flit (homeToken s (uSpar g) kTrap tag v)) else sendToken s (uSpar g) t.spar .unit kTrap tag v

/-- The trapping unit delivers a trap (R76, R79). Where TAIL is poisoned the unit abandons the record, and the ring's full rule follows
(R326). -/
def deliver (s : State) (t : Trap) : State :=
  if !ptValid s t.die .pxt t.part then deferred s t.die bSch 0xFF 0x0406 0x06 0 t.tag (w64 t.cause)
  else
    let b := pxtTrbase s t.die t.part
    let r := farAdd (ptFill s t.die .pxt t.part) t.die b 1
    let k := r.1.toNat % 2 ^ pxtLog2Tr s t.die t.part
    let a := b + 16 + 8 * k
    let lost := isPoisoned s b
    let s := if lost then r.2
      else
        let s := unitRead r.2 t.die a 1
        if isPoisoned s a then hwPoison s t.die a else s
    let free := !lost && peek s a == 0 && !isPoisoned s a
    let s := if free then writeTrap s t.die a t
      else evRaise (modHw s t.part fun h => { h with trapOvf := h.trapOvf + 1 }) 0 (0x400 + t.part)
    if t.byTrap then evRaise s 0 (0x800 + t.part)
    else trapToken s t (if free then w64 k else w64 (2 ^ 63))

/-- TRAP_DELIVERY: a trap that a unit has raised is delivered (R76). -/
def execTrapDelivery (trap : Nat) (s : State) : Out :=
  match s.traps[trap]? with
  | some t => unitDo s t.die (dieLive s t.die) (deliver { s with traps := dropAt s.traps trap } t)
  | none => .next s

end Sys2Proof.Machine
end

