-- ==== Sys2Proof/Machine/Pe.lean ====
section
/-! DEFINITION. A PE's commit scope, its end and its departure from service (spec 02 R56, R57, R61 to R67, R80; 09 R280 to R285;
10 R308 to R313; 17 R533 to R536; 04 R138). -/

namespace Sys2Proof.Machine

/-- The service slot that a PE serves (R532). -/
def slotOf (s : State) (k : Nat) : Nat := peSlot s (peSpar k) (peNo k)

/-- The reservation of an agent is lost (R290), and with it its place in the order of `lr` requests (R292). -/
def dropResv (s : State) (agent : Nat) : State :=
  { s with resvs := s.resvs.filter fun r => r.agent != agent, lrQueue := s.lrQueue.filter fun q => q.1 != agent }

/-! ### Discarding a scope (R56, R61, R80, R250) -/

/-- A handle goes back to the head of the free list (R56). -/
def giveBack (s : State) (part : Nat) (t : Taken) : State := modHw s part fun h => { h with free := t.frame :: h.free }

/-- The PE's request at the decimal sequencer is withdrawn, or its result will be dropped (R250). -/
def dropDecimal (s : State) (k : Nat) : State :=
  modSpar (modPe s k fun p => { p with decimal := false }) (peSpar k) fun x =>
    { x with decWait := x.decWait.filter fun j => j.pe != peNo k,
             decRun := x.decRun.map fun j => if j.pe = peNo k then { j with live := false } else j }

/-- The partner of a PE in paired firing (R529). -/
def partner (s : State) (k : Nat) : Option Nat := ((getPe s k).pair).map fun x => peKey (peSpar k) x.2

/-- The PE that leads the instance of a PE (R529). -/
def leader (s : State) (k : Nat) : Nat :=
  match (getPe s k).pair with
  | some (false, q) => peKey (peSpar k) q
  | _ => k

/-- A scope's held effects are discarded, with the decimal request of the PE that checks it (R56, R61, R250, R529). -/
def discardScope (s : State) (k : Nat) : State :=
  let p := getPe s k
  let part := match p.inst with
    | some i => i.part
    | none => 0
  let s := p.taken.foldl (fun s t => giveBack s part t) s
  let s := dropDecimal (modPe s k fun p => { p with sb := [], held := [], taken := [], frees := [], gates := [] }) k
  match partner s k with
  | some q => dropDecimal s q
  | none => s

/-! ### The commit point (R63, R281) -/

/-- Scratch words are kept in the store buffer under keys from 2^49 up (R310, R311). -/
abbrev scratchKey : Nat := 2 ^ 49

/-- One held word becomes visible, or is written into scratch (R63, R311). -/
def commitWord (s : State) (k a : Nat) (v : Word) : State :=
  if scratchKey ≤ a then modPe s k fun p => { p with scratch := tset (fun _ => 0) p.scratch (a - scratchKey) v }
  else if !backed s a then s
  else l1dWrite (coreStore s (peDie k) (peSpar k) a v (some k)) k a v

/-- What a scope has stored where nothing answers is discarded and counted, once for each line. DEDUCED (log 153): the commit point writes a
line in one access (R303). -/
def commitUnbacked (s : State) (k : Nat) (sb : Tab (Option Word)) : State :=
  (sb.filter fun e => decide (e.1 < scratchKey) && !backed s e.1 &&
      !(sb.any fun x => decide (x.1 < e.1) && x.1 / 16 == e.1 / 16 && !backed s x.1)).foldl (fun s e => unbacked s (peDie k) e.1) s

/-- The lines of memory that a scope has stored to. -/
def heldLines (p : Pe) : List Nat := ((p.sb.filter fun e => decide (e.1 < scratchKey)).map fun e => e.1 / 16).eraseDups

/-- The spar L2 has every line of the scope EXCLUSIVE for its commit point: those that it has lost since the stores are asked for again
(R281, R323). None where one of them must be waited for. -/
def ownHeld (s : State) (k : Nat) : Option State :=
  (heldLines (getPe s k)).foldl (fun o la => o.bind fun s => (lineForWrite s (peSpar k) la).map (·.2)) (some s)

/-- A handle that the scope holds is made a LIVE frame (R54, R56, R100). DEDUCED (log 74): a frame that becomes LIVE while DESTROY of its
partition runs is purged with the others of the range (R498). -/
def commitTaken (s : State) (d part : Nat) (t : Taken) : State :=
  let s := makeLive s d part t.asid t.graph t.frame t.pa t.user
  if (getHw s part).destroying then destroyFrame s part t.frame else s

/-- A gated operation leaves for its gate unit (R173, R175). -/
def sendGate (s : State) (u : Nat) (o : GateOp) : State :=
  let t := pstFdie s u o.part + o.gate % 2 ^ pstLog2Fd s u o.part
  if (getDie s t).withdrawn then deadTo s (uDie u) t else { s with gateMsgs := s.gateMsgs ++ [⟨t, o⟩] }

/-- A trap record of the PE's instance (R77). -/
def peTrapRec (s : State) (k src cause detail addr parcel : Nat) (i : Inst) : Trap :=
  ⟨src, peNo k, peDie k, peSpar k % 32, slotOf s k, i.part, cause, detail, i.byTrap, (getPe s k).scopes, i.tag, parcel, w64 addr,
    timeOf s (peDie k)⟩

/-- A frame is freed at the commit point, when it is still LIVE at its generation; the purge goes behind the outputs that the PE has
released (R57, R120, R175, R273). A free that fails there writes a trap record, in which DEDUCED (log 124) `SCOPES` does not count the
scope whose commit point is under way. A descriptor with a poisoned word is abandoned (R326). -/
def commitFree (s : State) (k : Nat) (i : Inst) (x : Nat × Nat × Option Nat) : State :=
  let d := peDie k
  let f := x.1
  let s := unitRead s d (descAddr s d f) 1
  if isPoisoned s (descAddr s d f) then hwPoison s d (descAddr s d f)
  else if frState s d f = fsLive ∧ frPart s d f = i.part ∧ frGen s d f = x.2.1 then
    let s := pxtLive (setFrame s d f ((x.2.1 + 1) % 64) fsQuar) d i.part (-1)
    let s := peRelease s k (.flit (homePurge s (uSpar (peSpar k)) (mkTag i.part f x.2.1 0 0 0)))
    match x.2.2 with
    | some g => sendGate s (uSpar (peSpar k)) ⟨true, i.part, g, 0, 0, 0, 0⟩
    | none => s
  else addTrap s (peTrapRec s k 0 tFrame 0 0 0 i)

/-- The commit point: stores and frames first, then outputs and gated requests, then frees; a new scope starts (R63). -/
def commitPoint (s : State) (k : Nat) : State :=
  match (getPe s k).inst with
  | none => s
  | some i =>
    let p := getPe s k
    let s := p.taken.reverse.foldl (fun s t => commitTaken s (peDie k) i.part t) s
    let s := p.sb.foldl (fun s e => match e.2 with
      | some v => commitWord s k e.1 v
      | none => s) (commitUnbacked s k p.sb)
    let s := p.gates.foldl (fun s o => sendGate s (uSpar (peSpar k)) o) s
    let s := modPe s k fun p => { p with sb := [], taken := [], gates := [], held := [], frees := [], out := p.out ++ p.held }
    let s := p.frees.foldl (fun s x => commitFree s k i x) s
    modPe s k fun p => { p with chk := p.regs, scopes := p.scopes + 1, retries := 0 }

/-- Whether the PE must wait for 16 free output places before its next scope (R159); the time of waiting is counted when it
ends. -/
def awaitPlaces (s : State) (k : Nat) : State :=
  modPe s k fun p => { p with opWait := decide (freePlaces p < 16) }

/-- A PE's wait at a commit point ends, and the PCLK it waited, a free value, are counted (R159). -/
def waitEnds (s : State) (k : Nat) : State :=
  if (getPe s k).opWait then
    let f := takeFree s
    countCluN (modPe f.2 k fun p => { p with opWait := false }) (peSpar k) rCluOpwait (f.1.toNat % 2 ^ 32)
  else s

/-- Places have become free: a PE that waited at a commit point goes on (R159). -/
def placesFreed (s : State) (k : Nat) : State := if 16 ≤ freePlaces (getPe s k) then waitEnds s k else s

/-! ### Leaving service (R533 to R536) -/

/-- A field of the PE maps of a spar written. -/
def setSlotPe (s : State) (g slot p : Nat) : State :=
  if slot < 8 then setF s (g / 32) (bClu (g % 32)) rCluPemap (4 * slot + 3) (4 * slot) p
  else setF s (g / 32) (bClu (g % 32)) rCluPectl 3 0 p

/-- `CLU_PESTAT_n` of a PE: 0 active, 1 spare, 2 testing, 3 retired. -/
def peStat (s : State) (g p : Nat) : Nat := getF s (g / 32) (bClu (g % 32)) rCluPestat (2 * p + 1) (2 * p)
/-- The state of a PE; the Masthead enters each retirement into the ageing log (R535). -/
def setPeStat (s : State) (g p v : Nat) : State :=
  let s := if v = 3 ∧ peStat s g p ≠ 3 then { s with ageDue := s.ageDue ++ [⟨3, g / 32, [], 0, 0, g % 32, p, 0⟩] } else s
  setF s (g / 32) (bClu (g % 32)) rCluPestat (2 * p + 1) (2 * p) v

/-- The spar runs under topsail (R536). -/
def topsail (s : State) (g : Nat) : Bool := getF s (g / 32) (bClu (g % 32)) rCluPectl 31 31 == 1

/-- The lowest spare PE of a spar (R533). -/
def sparePe (s : State) (g : Nat) : Option Nat := firstBelow 9 fun p => peStat s g p == 1

/-- A spare takes a slot with its L1D invalidated and its scratch cleared (R533). -/
def fillSlot (s : State) (g slot p : Nat) : State :=
  modPe (setPeStat (setSlotPe s g slot p) g p 0) (peKey g p) fun x => { x with l1d := [], scratch := [] }

/-- Die 0 has lost its service: no spar of it has a PE in service, or no core of it has a pair (R543). -/
def serviceLost (s : State) : Bool :=
  ((List.range 32).all fun x => (getSpar s x).out || (List.range 9).all fun k => decide (8 < slotPe s x k))
    || ((List.range 8).all fun c => getF s 0 bMdr rMdrPairmap (4 * c + 3) (4 * c) == 15)

/-- The loss of the service of die 0 is FATAL (R543). -/
def checkService (s : State) : State :=
  if serviceLost s then report s 0 bSys 0xFF 0x0F11 cFatal 0x0C 0 0 0 else s

/-- A PE leaves service, for its built-in test or for good; a spare takes its slot where there is one (R533 to R535). The
second part says whether one did. -/
def departPe (s : State) (k : Nat) (retire : Bool) : State × Bool :=
  let g := peSpar k
  let slot := slotOf s k
  let s := setPeStat s g (peNo k) (if retire then 3 else 2)
  let s := modPe s k fun p => { p with leaving := none, departs := p.departs + 1 }
  if slot = 15 then (s, false)
  else
    let s := setSlotPe s g slot 15
    match (if topsail s g then none else sparePe s g) with
    | some p => (fillSlot s g slot p, true)
    | none => (checkService s, false)

/-- The ACTION of a departure: a spare was substituted, or there was none (R519). -/
def departAction (sub : Bool) : Nat := if sub then 0x03 else 0x04

/-! ### The end of an instance (R138, R529) -/

/-- The PE is due to leave service for a margin failure, which retires it (R631). -/
def marginDue (s : State) (k : Nat) : Bool := (getPe s k).leaving == some 0x0713

/-- A PE leaves for its built-in test, or for good where a margin failure is due (R533, R631). -/
def departTest (s : State) (k : Nat) (margin : Bool) : State × Bool :=
  let r := departPe s k margin
  (if margin then count r.1 (peDie k) bUmb rUmbMargret else r.1, r.2)

/-- A PE stops running its instance; one that was to leave service then leaves (R528, R534, R631). -/
def clearPe (s : State) (k : Nat) : State :=
  let s := waitEnds (dropResv (dropDecimal s k) k) k
  let s := modPe s k fun p => { p with inst := none, sb := [], held := [], taken := [], frees := [], gates := [], pair := none }
  match (getPe s k).leaving with
  | some det =>
    let r := departTest s k (marginDue s k)
    report r.1 (peDie k) (bClu (peSpar k % 32)) (peNo k) det (if r.2 then cCorrected else cDeferred) (departAction r.2) 0 0 0
  | none => s

/-- An instance ends: its flow is released, its PE or pair is free, and Ratline sees the end (R138, R148). -/
def endInst (s : State) (k cause : Nat) : State :=
  match (getPe s k).inst with
  | none => s
  | some i =>
    let f := takeFree s
    let s := ratInst f.2 (peSpar k) 8 i (slotOf s k) (cause * 2 ^ 24 + f.1.toNat % 2 ^ 24)
    let mate := partner s k
    let s := clearPe (releaseFlow s (peSpar k) i) k
    let s := match mate with
      | some m => clearPe s m
      | none => s
    assignSlots s (peSpar k) 64

/-- A trap ends the instance: its scope is discarded and the trap is to be delivered (R80, R76). -/
def peTrap (s : State) (k src cause detail addr parcel : Nat) : State :=
  match (getPe s k).inst with
  | none => s
  | some i =>
    let r := peTrapRec s k src cause detail addr parcel i
    endInst (addTrap (discardScope s k) r) k cause

/-- A scope is discarded and its checkpoint restored (R66, R524). -/
def rollback (s : State) (k : Nat) : State :=
  dropResv (modPe (discardScope s k) k fun p => { p with regs := p.chk }) k

/-- RUNLIMIT: the instance has run for longer than its limit; a pair's scope is the leader's (R69, R529). DESIGN CHOICE
(log 148): `PARCEL` of its record is the next instruction's address. -/
def execRunlimit (pe : PeId) (s : State) : Out :=
  let pe := peOf pe
  let l := leader s pe
  sparDo s (peDie pe) (peSpar pe % 32)
    (if (getPe s l).decimal then s else peTrap s l 0 tRunlimit 0 0 (getPe s l).regs.pc.toNat)

/-! ### Outputs leave (R142, R143, R158 to R161) -/

/-- Where an output goes, for the order of R160. -/
inductive OutDest
  | spar (die dest vc : Nat) | engine (die dest vc : Nat) | agent | ring (part spar : Nat)
  deriving DecidableEq, Repr

def outDest : Output → OutDest
  | .flit f => if flitCls f = 2 then .engine (flitDie f) (flitDest f) (flitVc f) else .spar (flitDie f) (flitDest f) (flitVc f)
  | .fetch _ _ _ => .agent
  | .post part _ g _ _ _ _ => .ring part g

/-- An earlier output with the same destination is still in the buffer (R160). -/
def outBlocked (p : Pe) (n : Nat) (o : Output) : Bool := (p.out.take n).any fun x => outDest x == outDest o

/-- A router's local port takes a flit when it has room and nothing waits before it (R158). -/
def routerTakes (s : State) (d r : Nat) (f : Flit) : Option State :=
  let k := 2 * portNo .unit + vcBit f
  let x := getRouter s d r
  if (tget (fun _ => []) x.src k).isEmpty && decide ((tget (fun _ => []) x.q k).length < inputCap (vcBit f)) then
    some (modRouter s d r fun x => { x with q := tmod (fun _ => []) x.q k (· ++ [f]) })
  else none

/-- The words of a fetch as the agent reads them, with the tag of each reply (R70). -/
def fetchJobs (part : Nat) (words : List (Nat × Nat)) (tag : Word) : List FetchJob :=
  words.zipIdx.map fun p => ⟨part, p.1.1, p.1.2, tag + w64 (4 * p.2)⟩

/-- The agent takes a fetch request when it has a place for each reply (R161). -/
def agentTakes (s : State) (g part : Nat) (words : List (Nat × Nat)) (tag : Word) : Option State :=
  let x := getSpar s g
  if x.fetches.length + x.replies.length + words.length ≤ 512 then
    let s := modHw s part fun h => { h with opened := true }
    some (modSpar s g fun x => { x with fetches := x.fetches ++ fetchJobs part words tag })
  else none

/-- An output that has left frees its places (R158, R159). -/
def outGone (s : State) (k n : Nat) : State := placesFreed (modPe s k fun p => { p with out := dropAt p.out n }) k

/-- An output leaves where something has taken it, and else stays. -/
def leftBy (s : State) (k n : Nat) (taken : Option State) : State := taken.elim s fun s => outGone s k n

/-- A released output leaves a PE when its router, agent or ring accepts it (R158, R160). -/
def outLeave (s : State) (k n : Nat) : State :=
  match (getPe s k).out[n]? with
  | none => s
  | some o =>
    if outBlocked (getPe s k) n o then s
    else
      let d := peDie k
      let u := uSpar (peSpar k)
      match o with
      | .flit f =>
        if flitCls f = 2 then leftBy s k n (routerTakes s d (peSpar k % 32) f)
        else
          match homeOf s u (tagPart f.tag) (tagFrame f.tag) with
          | some _ => leftBy s k n (routerTakes (ptFill s u .pmt (tagPart f.tag)) d (peSpar k % 32) f)
          | none => outGone (if flitCls f = 1 then purgeLost s d f.tag else noHome s d f.tag) k n
      | .fetch part words tag => leftBy s k n (agentTakes s (peSpar k) part words tag)
      | .post part asid g w0 w1 w2 w3 =>
        let r := tryPost s u part asid g w0 w1 w2 w3
        if r.1 = .full then r.2 else outGone r.2 k n

/-- OUTPUT_LEAVE (R158). -/
def execOutputLeave (pe : PeId) (out : Nat) (s : State) : Out :=
  let pe := peOf pe
  sparDo s (peDie pe) (peSpar pe % 32) (outLeave s pe out)

/-- FETCH_REQUEST: the spar's fetch agent is asked for a released fetch of the PE (R161). -/
def execFetchRequest (pe : PeId) (out : Nat) (s : State) : Out :=
  let pe := peOf pe
  sparDo s (peDie pe) (peSpar pe % 32)
    (match (getPe s pe).out[out]? with
    | some (.fetch _ _ _) => outLeave s pe out
    | _ => s)

/-- WQPOST_RETRY: 64 PCLK later the PE tries a held post again (R143). -/
def execWqpostRetry (pe : PeId) (out : Nat) (s : State) : Out :=
  let pe := peOf pe
  sparDo s (peDie pe) (peSpar pe % 32)
    (match (getPe s pe).out[out]? with
    | some (.post _ _ _ _ _ _ _) => outLeave s pe out
    | _ => s)

end Sys2Proof.Machine
end

