-- ==== Sys2Proof/Machine/Sup.lean ====
section
/-! DEFINITION. Supervisor logical cores and the event controller's offers: levels, taking an exception and returning from
one, the fence of a pair, routing, acceptance and completion (spec 11: R342 to R362; 17: R537). -/

namespace Sys2Proof.Machine

/-! ### Cores -/

/-- The agent number of a logical core's reservation. -/
def supAgent (c : Nat) : Nat := 2304 + c

/-! Special registers by number (R348). -/
abbrev zStatus : Nat := 0x00
abbrev zArith : Nat := 0x01
abbrev zCtx : Nat := 0x02
abbrev zTime : Nat := 0x03
abbrev zBpctl : Nat := 0x04
abbrev zBpkeyLo : Nat := 0x05
abbrev zBpkeyHi : Nat := 0x06
abbrev zEvsrc : Nat := 0x07
abbrev zEvdone : Nat := 0x08
abbrev zLcid : Nat := 0x09
/-- VBAR, EPC, ESTAT, ESYND, EADDR and ESCR of level 1 or 2 lie from here. -/
abbrev zLevel (l : Nat) : Nat := 0x10 * l
abbrev zDbgctl : Nat := 0x40

/-- A stored special register. -/
def spr (s : State) (c n : Nat) : Word := tget sprReset (getSup s c).spr n
def setSpr (s : State) (c n : Nat) (v : Word) : State := modSup s c fun x => { x with spr := tset sprReset x.spr n v }

/-- The level at which a core runs (R349). -/
def levelOf (s : State) (c : Nat) : Nat := wfld (spr s c zStatus) 1 0
/-- `EXC1` or `EXC2`. -/
def excOf (s : State) (c l : Nat) : Bool := wbit (spr s c zStatus) (3 + l)
/-- `IE1` or `IE2`. -/
def ieOf (s : State) (c l : Nat) : Bool := wbit (spr s c zStatus) (1 + l)

/-- The translation context of a thread (R500, R504). -/
def threadCtx (s : State) (c : Nat) : Ctx :=
  let v := spr s c zCtx
  ⟨c / 8, wfld v 25 16, wfld v 5 0, levelOf s c == 0, false, levelOf s c == 2, 0⟩

/-- The core runs its program: a pair serves it, and its die acts (R342, R353, R544). -/
def supLive (s : State) (c : Nat) : Bool := dieLive s (c / 8) && (getSup s c).on

/-- The copies of the pair have halted at an instruction boundary: `RAWHALT` is set and the raw debug-halt input asserted (R355). -/
def rawHalted (s : State) (c : Nat) : Bool := s.rawHalt && wbit (spr s c zDbgctl) 0

/-! ### Returned and completed events (R360) -/

/-- An offer goes back: the source is PENDING again (R360). -/
def evReturn (s : State) (g : Nat) : State :=
  let d := g / 4096
  let k := g % 4096
  count (setEv s d k evPending (bitOf (evCfg s d k) 23)) d bEvc rEvcRetcnt

/-- The source of an event that a fenced core had accepted: as for completion, counted as returned (R360). -/
def evFenced (s : State) (g : Nat) : State :=
  if evState s (g / 4096) (g % 4096) = evActive then count (evFinish s (g / 4096) (g % 4096)) (g / 4096) bEvc rEvcRetcnt else s

/-- The offers in a core's slots go back (R360). -/
def returnOffers (s : State) (c : Nat) : State :=
  let x := getSup s c
  let s := (x.openOffer.toList ++ x.sealedOffer.toList).foldl (fun s g => evReturn s g) s
  modSup s c fun x => { x with openOffer := none, sealedOffer := none }

/-! ### The fence of a pair (R353, R537, R538) -/

/-- The physical pair that serves a logical core, 15 for none (R537). -/
def pairOf (s : State) (c : Nat) : Nat := getF s (c / 8) bMdr rMdrPairmap (4 * (c % 8) + 3) (4 * (c % 8))
def setPairOf (s : State) (c j : Nat) : State := setF s (c / 8) bMdr rMdrPairmap (4 * (c % 8) + 3) (4 * (c % 8)) j
/-- `MDR_PAIRSTAT` of a pair: 0 serving, 1 spare, 2 testing, 3 retired. -/
def pairStat (s : State) (d j : Nat) : Nat := getF s d bMdr rMdrPairstat (2 * j + 1) (2 * j)
def setPairStat (s : State) (d j v : Nat) : State := setF s d bMdr rMdrPairstat (2 * j + 1) (2 * j) v

/-- The core stops: its registers, special registers and reservation are lost (R353). -/
def stopCore (s : State) (c : Nat) : State := modSup (dropResv s (supAgent c)) c fun _ => Sup.init

/-- The lowest spare pair of a die takes the logical core and is held in reset; without one the core has no pair, nor one in reset (R537). -/
def mapSpare (s : State) (c : Nat) : State × Bool :=
  match firstBelow 9 fun j => pairStat s (c / 8) j == 1 with
  | some j =>
    (modDie (setPairStat (setPairOf s c j) (c / 8) j 0) (c / 8) fun x => { x with pairReset := x.pairReset ||| 2 ^ (c % 8) }, true)
  | none =>
    let s := modDie s (c / 8) fun x => { x with pairReset := if bitOf x.pairReset (c % 8) then x.pairReset - 2 ^ (c % 8) else x.pairReset }
    (checkService (setPairOf s c 15), false)

/-- The pair that serves a core is fenced: offers and accepted events go back, the fence event is raised, the fault is
recorded with `det` and `info`, and a spare pair is mapped (R353, R360, R537). -/
def fencePair (s : State) (c det : Nat) (info : Word) (inj : Bool := false) : State :=
  let d := c / 8
  let j := pairOf s c
  if 8 < j then s
  else
    let s := (getSup s c).actives.foldl (fun s g => evFenced s g) (returnOffers s c)
    let s := loseCache (stopCore s c) (256 + c)
    let s := modDie (setPairStat s d j 2) d fun x => { x with pairFences := tmod (fun _ => 0) x.pairFences j (· + 1) }
    let r := mapSpare (evRaise s d (0x104 + j)) c
    report r.1 d bSys j det cContained (if r.2 then 0x08 else 0x09) 0 0 info inj

/-! ### Taking an exception and returning (R343, R345, R346) -/

/-- ESTAT: the level and the STATUS bits in force (R345). -/
def statusBits (s : State) (c : Nat) : Word := w64 (wfld (spr s c zStatus) 5 0)

/-- Entry to level `l` (R345): `vec` is the offset of the vector, `epc` the parcel address saved. -/
def enterLevel (s : State) (c l vec cause detail call : Nat) (addr : Word) (epc : Nat) : State :=
  let z := zLevel l
  let st := spr s c zStatus
  let s := dropResv s (supAgent c)
  let s := setSpr s c (z + 1) (w64 (epc % 2 ^ 51))
  let s := setSpr s c (z + 2) (w64 (wfld st 5 0))
  let s := setSpr s c (z + 3) (w64 (cause * 2 ^ 56 + detail % 2 ^ 8 * 2 ^ 48 + call % 2 ^ 5 * 2 ^ 40))
  let s := setSpr s c (z + 4) addr
  let st := wput (wput (wput st 1 0 l) (1 + l) (1 + l) 0) (3 + l) (3 + l) 1
  let s := setSpr s c zStatus st
  let target := wfld (spr s c z) 50 0 / 2 ^ 10 * 2 ^ 10 + vec
  modSup s c fun x => { x with waiting := false, regs := { x.regs with pc := BitVec.ofNat 51 target } }

/-- The level that takes a synchronous exception (R343). -/
def takingLevel (l : Nat) : Nat := if l = 2 then 2 else 1

/-- A synchronous exception of the instruction at `epc` (R343, R345, R346). -/
def syncExc (s : State) (c cause detail : Nat) (addr : Word) (epc : Nat) : State :=
  let l := takingLevel (levelOf s c)
  if excOf s c l then
    if l = 2 then fencePair s c 0x0202 (w64 tDouble)
    else enterLevel s c 2 0x000 tDouble cause 0 addr epc
  else enterLevel s c l 0x000 cause detail 0 addr epc

/-- `eret` at level `l`: level and IE come back from ESTAT, EXC is cleared, and the core goes on at EPC (R345). -/
def leaveLevel (s : State) (c l : Nat) : State :=
  let z := zLevel l
  let e := spr s c (z + 2)
  let st := spr s c zStatus
  let st := wput (wput (wput st 1 0 (wfld e 1 0)) (1 + l) (1 + l) (wfld e (1 + l) (1 + l))) (3 + l) (3 + l) 0
  let s := setSpr (dropResv s (supAgent c)) c zStatus st
  modSup s c fun x => { x with regs := { x.regs with pc := BitVec.ofNat 51 (wfld (spr s c (z + 1)) 50 0) } }

/-- The Masthead releases a core, or a mapped pair starts: PL2, every register 0, the predictor empty, at VBAR2 + 0x300, with the VBAR2 of
the configuration record (R342). DESIGN CHOICE (log 150): the start address uses bits [9:0] of VBAR2 too, which R345 has the vectors ignore. -/
def startCore (s : State) (c : Nat) : State :=
  let s := setSpr (stopCore s c) c (zLevel 2) (s.mst.vbar2.setWidth 64)
  modSup s c fun x => { x with on := true, regs := { x.regs with pc := s.mst.vbar2 + 0x300 } }

/-! ### Routing and acceptance (R361, R362) -/

/-- A core can take an offer of a world from source `k` of die `d` (R361). -/
def canTake (s : State) (d k c : Nat) (shut : Bool) : Bool :=
  decide (c < 8 * nDies s.part)
  && (if c < 32 then bitOf (getReg s d bEvc (rEvcTgtLo + k)) c else bitOf (getReg s d bEvc (rEvcTgtHi + k)) (c - 32))
  && bitOf (getReg s (c / 8) bEvc rEvcCoreEn) (c % 8)
  && supLive s c
  && (if shut then (getSup s c).sealedOffer.isNone else (getSup s c).openOffer.isNone)

/-- The first candidate for a source, after `LAST` (R361). -/
def candidate (s : State) (d k : Nat) : Option Nat :=
  let last := fld (evCfg s d k) 21 16
  ((List.range 64).map fun j => (last + 1 + j) % 64).find? fun c => canTake s d k c (evSealed s d k)

/-- The source is ready to be routed (R360, R361). -/
def routable (s : State) (d k : Nat) : Bool :=
  dieLive s d && blkEn s d bEvc && evState s d k == evPending && bitOf (evCfg s d k) 31

/-- The sources of the package that are PENDING, as global source numbers. -/
def pendingSources (s : State) : List Nat :=
  s.csr.filterMap fun e =>
    let w := fld e.1 19 0
    if fld e.1 27 20 = bEvc ∧ rEvcCfg ≤ w ∧ w < rEvcCfg + 4096 ∧ fld e.2.toNat 25 24 = evPending then
      some (4096 * fld e.1 30 28 + (w - rEvcCfg))
    else none

/-- The order of sources that contend for one slot (R361). -/
def sourceRank (s : State) (g : Nat) : Nat := fld (evCfg s (g / 4096) (g % 4096)) 29 28 * 2 ^ 15 + g

/-- A source of another rank takes the slot in this cycle (R361). -/
def outranked (s : State) (d k c : Nat) : Bool :=
  (pendingSources s).any fun g =>
    routable s (g / 4096) (g % 4096) && evSealed s (g / 4096) (g % 4096) == evSealed s d k
      && candidate s (g / 4096) (g % 4096) == some c && decide (sourceRank s g < sourceRank s (4096 * d + k))

/-- An offer is placed in a core's slot (R360, R361); a core in `wfe` goes on (R362). -/
def placeOffer (s : State) (d k c : Nat) : State :=
  let shut := evSealed s d k
  let s := setReg (enNow s d k) d bEvc (rEvcCfg + k) (putFld (putFld (evCfg s d k) 25 24 evOffered) 21 16 c)
  modSup s c fun x =>
    if shut then { x with sealedOffer := some (4096 * d + k), waiting := false }
    else { x with openOffer := some (4096 * d + k), waiting := false }

/-- EVENT_RAISE: the input of a local source of a die is raised, or withdrawn, by the unit that owns it; no unit does so for the other
sources (R359, R360). -/
def execEventRaise (die : Nat) (source : SourceInput) (s : State) : Out :=
  unitDo s die (dieLive s die && unitRaises die source.no) (evInput s die source.no source.on)

/-- The controller routes a PENDING source in one cycle: to its candidate, unless another source outranks it there (R361). -/
def routeEvent (s : State) (die k : Nat) : State :=
  if routable s die k then (candidate s die k).elim s fun c => if outranked s die k c then s else placeOffer s die k c else s

/-- EVENT_ROUTE (R361). -/
def execEventRoute (die : Nat) (source : Nat) (s : State) : Out := onDie s die (routeEvent s die (source % 4096))

/-- An open-world offer can be accepted (R362). -/
def acceptsOpen (s : State) (c : Nat) : Bool :=
  (getSup s c).openOffer.isSome && decide (levelOf s c < 2) && ieOf s c 1 && !excOf s c 1
/-- A sealed-world offer can be accepted (R362). -/
def acceptsSealed (s : State) (c : Nat) : Bool := (getSup s c).sealedOffer.isSome && ieOf s c 2 && !excOf s c 2

/-- EVENT_ACCEPT: the core accepts an offer at an instruction boundary; which one where both can be is a free value (R343,
R345, R362). -/
def acceptEvent (s : State) (c : Nat) : State :=
  let o := acceptsOpen s c
  let z := acceptsSealed s c
  let epc := (getSup s c).regs.pc.toNat
  if o && z then
    let f := takeFree s
    enterLevel f.2 c (if wbit f.1 0 then 2 else 1) 0x100 tEvent 0 0 0 epc
  else if z then enterLevel s c 2 0x100 tEvent 0 0 0 epc
  else if o then enterLevel s c 1 0x100 tEvent 0 0 0 epc
  else s

/-- EVENT_ACCEPT (R362). -/
def execEventAccept (core : SupId) (s : State) : Out :=
  let c := supOf core
  unitDo s (c / 8) (supLive s c && !rawHalted s c) (acceptEvent s c)

/-- A source is set by software (R360, R363). -/
def evSoft (s : State) (d k : Nat) : State := evTake s d k true true

/-- EVC_SET (R363). -/
def execEvcSet (die : Nat) (source : Nat) (s : State) : Out :=
  regDo s die bEvc rEvcSet (dieLive s die) (setF (evSoft s die (source % 4096)) die bEvc rEvcSet 11 0 source)

/-- A completion removes the source from the core that had accepted it. -/
def forgetActive (s : State) (g : Nat) : State :=
  (List.range 64).foldl (fun s c =>
    if (getSup s c).actives.contains g then modSup s c fun x => { x with actives := x.actives.filter (· != g) } else s) s

/-- A source is completed (R360, R362). -/
def completeSource (s : State) (g : Nat) : State := forgetActive (evComplete s (g / 4096) (g % 4096)) g

/-- EVC_DONE (R362). -/
def execEvcDone (die : Nat) (source : Nat) (s : State) : Out :=
  regDo s die bEvc rEvcDone (dieLive s die) (setF (completeSource s (4096 * die + source % 4096)) die bEvc rEvcDone 11 0 source)

/-- `EVC_CORE_EN` takes a value; a core whose bit is cleared gives its offers back (R360, R363). -/
def writeCoreEn (s : State) (die v : Nat) : State :=
  let old := getReg s die bEvc rEvcCoreEn
  let s := setF s die bEvc rEvcCoreEn 7 0 v
  (List.range 8).foldl (fun s c => if bitOf old c && !bitOf v c then returnOffers s (8 * die + c) else s) s

/-- EVC_CORE_EN_WRITE (R363). -/
def execEvcCoreEnWrite (die : Nat) (value : Csr) (s : State) : Out :=
  regDo s die bEvc rEvcCoreEn (dieLive s die) (parityWrite (writeCoreEn s die value.toNat) die bEvc rEvcCoreEn)

/-- LOCKSTEP_MISMATCH: the comparator of a pair finds a difference; `valueClass` names the class of the value (R352, R353). -/
def execLockstepMismatch (core : SupId) (valueClass : Nat) (s : State) : Out :=
  let c := supOf core
  unitDo s (c / 8) (supLive s c) (fencePair s c 0x0201 (w64 valueClass))

end Sys2Proof.Machine
end

