-- ==== Sys2Proof/Machine/Operands.lean ====
section
/-! DEFINITION. The operands of Quadyl instructions: the register classes, the fields' ranges and the addressing modes
(spec 06: R193 to R197, R205, R208 to R214). -/

namespace Sys2Proof.Machine

/-- What runs an instruction: a PE by its key, or a supervisor core by its global number (R190). -/
inductive Hart
  | pe (k : Nat) | sup (c : Nat)
  deriving DecidableEq, Repr

/-- The die of a hart. -/
def hartDie : Hart → Nat
  | .pe k => peDie k
  | .sup c => c / 8

/-- The number of the L2 cache of a hart. -/
def cacheOf : Hart → Nat
  | .pe k => peSpar k
  | .sup c => 256 + c

/-- The registers of a hart. -/
def hartRegs (s : State) : Hart → Regs
  | .pe k => (getPe s k).regs
  | .sup c => (getSup s c).regs

/-- The registers of a hart changed. -/
def modRegs (s : State) (h : Hart) (f : Regs → Regs) : State :=
  match h with
  | .pe k => modPe s k fun p => { p with regs := f p.regs }
  | .sup c => modSup s c fun x => { x with regs := f x.regs }

/-- The parcel address of the next instruction. -/
def hartPc (s : State) (h : Hart) : Nat := (hartRegs s h).pc.toNat
/-- The program counter set (R201: mod 2^51). -/
def setPc (s : State) (h : Hart) (pc : Nat) : State := modRegs s h fun r => { r with pc := BitVec.ofNat 51 pc }

/-! Register classes (R193). -/
def getD (s : State) (h : Hart) (r : Nat) : Word := tget (fun _ => 0) (hartRegs s h).d r
def setD (s : State) (h : Hart) (r : Nat) (v : Word) : State := modRegs s h fun x => { x with d := tset (fun _ => 0) x.d r v }
def getA (s : State) (h : Hart) (r : Nat) : Nat := (tget (fun _ => (0 : BitVec 49)) (hartRegs s h).a r).toNat
/-- An A register takes the low 49 bits of a value (R195). -/
def setA (s : State) (h : Hart) (r v : Nat) : State :=
  modRegs s h fun x => { x with a := tset (fun _ => 0) x.a r (BitVec.ofNat 49 v) }
def getM (s : State) (h : Hart) (r : Nat) : Word := tget (fun _ => 0) (hartRegs s h).m r
def setM (s : State) (h : Hart) (r : Nat) (v : Word) : State := modRegs s h fun x => { x with m := tset (fun _ => 0) x.m r v }
def getW (s : State) (h : Hart) (r : Nat) : Wide := tget (fun _ => 0) (hartRegs s h).w r
def setW (s : State) (h : Hart) (r : Nat) (v : Wide) : State := modRegs s h fun x => { x with w := tset (fun _ => 0) x.w r v }
/-- The two halves of a W register (R197). -/
def loHalf (v : Wide) : Word := w64 v.toNat
def hiHalf (v : Wide) : Word := w64 (v.toNat / 2 ^ 64)
def mkWide (hi lo : Word) : Wide := BitVec.ofNat 128 (hi.toNat * 2 ^ 64 + lo.toNat)

/-- The partition and address-space ID under which a hart's accesses translate (R500). -/
def hartPart (s : State) : Hart → Nat
  | .pe k => match (getPe s k).inst with
    | some i => i.part
    | none => 0
  | .sup c => wfld (spr s c zCtx) 25 16
def hartAsid (s : State) : Hart → Nat
  | .pe k => match (getPe s k).inst with
    | some i => i.asid
    | none => 0
  | .sup c => wfld (spr s c zCtx) 5 0

/-- The translation context of a hart (R500, R504). -/
def hartCtx (s : State) (h : Hart) : Ctx :=
  match h with
  | .pe k => codeletCtx (peDie k) (hartPart s h) (hartAsid s h)
  | .sup c => ⟨c / 8, hartPart s h, hartAsid s h, levelOf s c == 0, false, levelOf s c == 2, 0⟩

/-! Addressing (R208 to R214). -/

/-- An address plus a signed displacement, mod 2^49 (R195). -/
def addA (a : Nat) (d : Int) : Nat := ((Int.ofNat a + d) % 2 ^ 49).toNat

/-- The displacement, sign-extended (R205). -/
def dispOf : Disp → Int
  | .d9 v => v.toInt
  | .d25 v => v.toInt

/-- Parcels of a MEM or MEML instruction (R203). -/
def dispLen : Disp → Nat
  | .d9 _ => 2
  | .d25 _ => 3

/-- The modulo step (R213). -/
def modStep (a : Nat) (d : Int) (len : Nat) : Nat :=
  let k := clog2 25 len
  let base := a / 2 ^ k * 2 ^ k
  base + ((Int.ofNat (a - base) + d) % (len : Int)).toNat

/-- The `w`-bit value with its bits in reverse order (R214). -/
def revBits (w v : Nat) : Nat := ((List.range w).map fun i => b2n (bitOf v (w - 1 - i)) * 2 ^ i).sum

/-- The bit-reversed step (R214). -/
def brevStep (a : Nat) (d : Int) (w : Nat) : Nat :=
  let t := (revBits w (a % 2 ^ w) + revBits w (d % 2 ^ w).toNat) % 2 ^ w
  a / 2 ^ w * 2 ^ w + revBits w t

/-- The effective address of a memory operand and the new value of its A register; none where the mode is reserved or not
accepted, `MR` is not 0 where it must be, or the M register holds no valid length or width (R202, R209, R212 to R214). -/
def effective (s : State) (h : Hart) (m : MemOp) (offOnly : Bool) : Option (Nat × Nat) :=
  let a := getA s h m.ab
  let d := dispOf m.disp
  let v := getM s h m.mr
  let mode := m.mode.toNat
  if offOnly && mode != 0 then none
  else
    match mode with
    | 0 => if m.mr = 0 then some (addA a d, a) else none
    | 1 => if m.mr = 0 then some (addA a d, addA a d) else none
    | 2 => if m.mr = 0 then some (a, addA a d) else none
    | 3 => let n := wfld v 24 0
           if 1 ≤ n ∧ n ≤ 2 ^ 24 then some (a, modStep a d n) else none
    | 4 => let w := wfld v 52 48
           if 1 ≤ w ∧ w ≤ 24 then some (a, brevStep a d w) else none
    | _ => none

end Sys2Proof.Machine
end

