-- ==== Sys2Proof/Machine/Flags.lean ====
section
/-! DEFINITION. The sticky flags, the trap enables and the rounding modes (spec 07: R226 to R229). -/

namespace Sys2Proof.Machine

/-! Bit positions of R226. -/
abbrev fDOV : Nat := 64
abbrev fDZ : Nat := 32

/-- The sticky flags (R226). -/
def hartFlags (s : State) (h : Hart) : Nat := (hartRegs s h).flags.toNat
def setFlags (s : State) (h : Hart) (v : Nat) : State := modRegs s h fun r => { r with flags := BitVec.ofNat 7 v }
/-- Flags that an instruction raised without a trap. -/
def raiseFlags (s : State) (h : Hart) (x : Nat) : State := setFlags s h (hartFlags s h ||| x)

/-- `TRAPEN` [5:0] (R227). -/
def trapen (s : State) : Hart → Nat
  | .pe k => wfld (getPe s k).cfg 49 44
  | .sup c => wfld (spr s c zArith) 5 0
/-- `RMODE` (R227). -/
def rmode (s : State) : Hart → Nat
  | .pe k => wfld (getPe s k).cfg 43 41
  | .sup c => wfld (spr s c zArith) 10 8

/-- The rounding mode in force under an `RM` field; none for an invalid encoding (R228). -/
def roundMode (s : State) (h : Hart) (rm : Nat) : Option Nat :=
  if rm ≤ 4 then some rm
  else if rm = 7 then some (if rmode s h ≤ 4 then rmode s h else 0)
  else none

end Sys2Proof.Machine
end

