-- ==== Sys2Proof/Machine/Issue.lean ====
section
/-! DEFINITION. One instruction of a core: its fetch, its end, its trap or exception, and the commit scope around it (spec 06:
R190, R192, R199 to R202; 02: R61 to R66, R80; 17: R529; 04: R159). -/

namespace Sys2Proof.Machine

/-- How an instruction ends. -/
inductive Res
  /-- the core goes on at the next instruction -/
  | next (s : State)
  /-- a taken branch or jump -/
  | jump (s : State) (target : Nat)
  /-- the instruction has set the program counter itself, or it waits -/
  | done (s : State)
  | trap (s : State) (cause detail addr : Nat)

/-- An invalid encoding or operand (R202). -/
def illegal (s : State) : Res := .trap s tIllegal 0 0

/-- The first word of the scratch range (R310). -/
abbrev scratchBase : Nat := 2 ^ 49 - 512
def isScratch (va : Nat) : Bool := decide (scratchBase ≤ va)

/-- The address lies in the scratch range of a codelet (R310). -/
def scratchAt (h : Hart) (va : Nat) : Bool :=
  match h with
  | .pe _ => isScratch va
  | .sup _ => false

/-- What an access of a hart leaves in the translation unit: nothing for a scratch address, which is never translated (R310, R505). -/
def hartNote (s : State) (h : Hart) (va : Nat) : State := if scratchAt h va then s else xlateNote s (hartCtx s h) va

/-- Why a word of code cannot be fetched (R201, R310, R344). Whether the root port answers a fetch from device space with a bus error is a
free value. -/
def fetchWordFail (s : State) (h : Hart) (wa : Nat) : Option Nat :=
  if scratchAt h wa then some tProt
  else
    match translate s (hartCtx s h) .fetch wa with
    | .error e => some e
    | .ok pa =>
      match region s pa with
      | .device _ _ => if wbit (Config.freeWord s.fresh) 0 then some tBuserr else none
      | _ => if l2Poisoned s (cacheOf h) pa then some tPoison else none

/-- The word addresses of the `n` parcels from `pc` (R199, R201). -/
def parcelWords (pc n : Nat) : List Nat := (List.range n).map fun j => (pc + j) % 2 ^ 51 / 4

/-- The first word of an instruction that cannot be fetched: its cause and address (R201). -/
def fetchFail (s : State) (h : Hart) (pc n : Nat) : Option (Nat × Nat) :=
  (parcelWords pc n).findSome? fun wa => (fetchWordFail s h wa).map fun e => (e, wa)

/-- A line of code is read through the core's L1I and its L2, where the home gives it if neither holds it (R305, R308, R319); none where
the home cannot serve it yet (R323). -/
def fetchCode (s : State) (h : Hart) (la : Nat) : Option State :=
  match h with
  | .pe k => if (getPe s k).l1i.contains la then some s else (lineForRead s (peSpar k) la).map fun s => fillPeL1i s k la
  | .sup c => if (getSup s c).l1i.contains la then some s else (lineForRead s (256 + c) la).map fun s => fillSupL1i s c la

/-- The words of an instruction that its fetch reads: each word once, up to the first that cannot be fetched (R201). -/
def codeWords (s : State) (h : Hart) (pc n : Nat) : List Nat :=
  let ws := (parcelWords pc n).eraseDups
  (match ws.findIdx? fun wa => (fetchWordFail s h wa).isSome with
    | some i => ws.take (i + 1)
    | none => ws).filter fun wa => !scratchAt h wa

/-- The fetch of one word: what it leaves in the translation unit, the counters and the caches (R303, R305, R505). -/
def codeWord (s : State) (h : Hart) (wa : Nat) : Option State :=
  let s := hartNote s h wa
  match translate s (hartCtx s h) .fetch wa with
  | .ok pa =>
    match region s pa with
    | .device d o => let f := takeFree s; some { f.2 with given := f.2.given ++ [.devRead d o 1] }
    | .unbacked => some (unbacked s (hartDie h) pa)
    | _ => fetchCode s h (pa / 16)
  | .error _ => some s

/-- The fetch of an instruction; none where a line of its code must be waited for (R323). -/
def fetchInstr (s : State) (h : Hart) (pc n : Nat) : Option State :=
  (codeWords s h pc n).foldl (fun o wa => o.bind fun s => codeWord s h wa) (some s)

/-- Fetch and execution of one instruction of `n` parcels; one whose code is not there yet is issued again. -/
def runInstr (h : Hart) (n : Nat) (body : Hart → State → Res) (s : State) : Res :=
  let pc := hartPc s h
  match fetchInstr s h pc n with
  | none => .done s
  | some t =>
    match fetchFail s h pc n with
    | some (e, wa) => .trap t e 0 wa
    | none => body h t

/-- The checker of a pair in paired firing sees what the leader sees (R529). -/
def mirror (s : State) (k : Nat) : State :=
  let p := getPe s k
  match p.pair with
  | some (true, q) =>
    modPe s (peKey (peSpar k) q) fun x =>
      { x with regs := p.regs, chk := p.chk, sb := p.sb, scratch := p.scratch, scopes := p.scopes, retries := p.retries }
  | _ => s

/-- A decimal request of a PE, or of the PE that checks it, has no result yet (R247, R529). -/
def decStalled (s : State) (k : Nat) : Bool :=
  (getPe s k).decimal || (match (getPe s k).pair with
    | some (true, q) => (getPe s (peKey (peSpar k) q)).decimal
    | _ => false)

/-- A PE can issue: it runs an instance, is not stalled, and does not merely check (R80, R159, R247, R529). -/
def peIssues (s : State) (k : Nat) : Bool :=
  let p := getPe s k
  p.inst.isSome && !decStalled s k && !p.opWait && !(match p.pair with
    | some (false, _) => true
    | _ => false)

/-- A PE after an instruction. -/
def peAfter (k pc n : Nat) : Res → State
  | .next s => mirror (setPc s (.pe k) (pc + n)) k
  | .jump s t => mirror (setPc s (.pe k) t) k
  | .done s => mirror s k
  | .trap s cause detail addr => peTrap s k 0 cause detail addr pc

/-- A supervisor core after an instruction (R343 to R346). -/
def supAfter (c pc n : Nat) : Res → State
  | .next s => setPc s (.sup c) (pc + n)
  | .jump s t => setPc s (.sup c) t
  | .done s => s
  | .trap s cause detail addr => syncExc s c cause detail (w64 addr) pc

/-- One instruction of `n` parcels on a core. -/
def instrDo (core : CoreId) (n : Nat) (body : Hart → State → Res) (s : State) : Out :=
  match core with
  | .pe p =>
    let k := peOf p
    sparDo s p.die p.spar
      (if peIssues s k then peAfter k (hartPc s (.pe k)) n (runInstr (.pe k) n body s) else s)
  | .sup p =>
    let c := supOf p
    unitDo s p.die (supLive s c)
      (if (getSup s c).waiting || rawHalted s c then s else supAfter c (hartPc s (.sup c)) n (runInstr (.sup c) n body s))

/-- An instruction that only a codelet may execute (R190). -/
def codeletOnly (body : Nat → State → Res) : Hart → State → Res
  | .pe k, s => body k s
  | .sup _, s => illegal s

/-- An instruction of the privileged extension with its minimum level (R192, R220). -/
def privileged (lvl : Nat) (body : Nat → State → Res) : Hart → State → Res
  | .pe _, s => .trap s tPriv 0 0
  | .sup c, s => if levelOf s c < lvl then .trap s tPriv 0 0 else body c s

/-! ### Commit scopes (R61 to R66) -/

/-- A commit point that leads to another scope, and the wait for 16 free output places (R63, R159). -/
def commitAwait (s : State) (k : Nat) : State := awaitPlaces (commitPoint s k) k

/-- The instruction goes on at its commit point once the spar L2 has every line of the scope, and waits until then (R281). -/
def atCommit (s : State) (k : Nat) (run : State → Res) : Res :=
  match ownHeld s k with
  | some s => run s
  | none => .done s

/-- Distinct lines that a scope has stored to (R64). -/
def scopeLines (p : Pe) : List Nat := (p.sb.map fun e => e.1 / 16).eraseDups

/-- Outputs of the scope (R64). -/
def scopeOuts (p : Pe) : Nat := (p.held.map outPlaces).sum

/-- The instruction runs within the scope's limits; past them the partition's `SCOPE_OVF` policy decides (R64, R65). -/
def inScope (s : State) (k : Nat) (past : Pe → Bool) (run : State → Res) : Res :=
  if past (getPe s k) then
    if wbit (getPe s k).cfg 62 then
      atCommit s k fun s =>
        let s := commitAwait s k
        if (getPe s k).opWait then .done s else run s
    else .trap s tScopeOvf 0 0
  else run s

/-- An output of the scope is held (R61, R158). -/
def holdOut (s : State) (k : Nat) (o : Output) : Res :=
  inScope s k (fun p => decide (16 < scopeOuts p + outPlaces o)) fun s =>
    .next (modPe s k fun p => { p with held := p.held ++ [o] })

/-- An atomic instruction's commit point before it (R62, R285); a thread needs none (R289). None where the scope's lines must be waited
for. -/
def atomicPoint (s : State) : Hart → Option State
  | .pe k => (ownHeld s k).map fun s => commitPoint s k
  | .sup _ => some s

/-- After an atomic instruction: the checkpoint with its result in place, and the next scope (R66, R159). -/
def atomicDone (s : State) (h : Hart) (pc n : Nat) : Res :=
  match h with
  | .pe k => .done (awaitPlaces (modPe (setPc s h (pc + n)) k fun p => { p with chk := p.regs, retries := 0 }) k)
  | .sup _ => .next s

end Sys2Proof.Machine
end

