-- ==== Sys2Proof/Machine/Integer.lean ====
section
/-! DEFINITION. The integer, immediate, move, compact and flag instructions (spec 07: R231; 08: R258 to R262). -/

namespace Sys2Proof.Machine

/-- 1 for true (R260). -/
def boolWord (b : Bool) : Word := if b then 1 else 0

/-- Zero bits above the highest one bit (R260). -/
def clz (x : Word) : Nat := ((List.range 64).find? fun i => wbit x (63 - i)).getD 64
/-- Zero bits below the lowest one bit (R260). -/
def ctz (x : Word) : Nat := ((List.range 64).find? fun i => wbit x i).getD 64
/-- Bit i of the result is bit 63 - i (R260). -/
def brev (x : Word) : Word := w64 (revBits 64 x.toNat)
/-- Byte k of the result is byte 7 - k (R260). -/
def bswap (x : Word) : Word :=
  w64 (((List.range 8).map fun k => wfld x (8 * (7 - k) + 7) (8 * (7 - k)) * 2 ^ (8 * k)).sum)

/-- The shifts and the rotate of `shi`, and those of R260, by kind: 0 `sll`, 1 `srl`, 2 `sra`, 3 `ror` (R231, R261). -/
def shift (k : Nat) (x : Word) (n : Nat) : Word :=
  match k with
  | 0 => x <<< n
  | 1 => x >>> n
  | 2 => x.sshiftRight n
  | _ => x.rotateRight n

/-- The result of a two-operand integer operation by `FN`; none for an unassigned value (R260). -/
def intBinary (fn : Nat) (x y : Word) : Option Word :=
  let n := wfld y 5 0
  match fn with
  | 0x000 => some (x + y)
  | 0x001 => some (x - y)
  | 0x002 => some (x &&& y)
  | 0x003 => some (x ||| y)
  | 0x004 => some (x ^^^ y)
  | 0x005 => some (x &&& ~~~y)
  | 0x006 => some (x ||| ~~~y)
  | 0x007 => some (~~~(x ^^^ y))
  | 0x008 => some (shift 0 x n)
  | 0x009 => some (shift 1 x n)
  | 0x00A => some (shift 2 x n)
  | 0x00B => some (x.rotateLeft n)
  | 0x00C => some (shift 3 x n)
  | 0x00D => some (x * y)
  | 0x010 => some (boolWord (x.slt y))
  | 0x011 => some (boolWord (x.ult y))
  | 0x012 => some (boolWord (x == y))
  | 0x013 => some (boolWord (x != y))
  | 0x014 => some (if x.slt y then x else y)
  | 0x015 => some (if x.slt y then y else x)
  | 0x016 => some (if x.ult y then x else y)
  | 0x017 => some (if x.ult y then y else x)
  | _ => none

/-- The result of a one-operand integer operation by `FN` (R260). -/
def intUnary (fn : Nat) (x : Word) : Option Word :=
  match fn with
  | 0x018 => some (-x)
  | 0x020 => some (w64 (clz x))
  | 0x021 => some (w64 (ctz x))
  | 0x022 => some (w64 (popcount 64 x.toNat))
  | 0x023 => some (brev x)
  | 0x024 => some (bswap x)
  | _ => none

/-- The result of an RR `OP` 0x00 instruction: a unary operation needs `RS2` = 0 (R260). -/
def intReg (fn rs2 : Nat) (x y : Word) : Option Word :=
  match intBinary fn x y with
  | some v => some v
  | none => if rs2 = 0 then intUnary fn x else none

/-- A result written to a D register, or an invalid encoding. -/
def writeD (s : State) (h : Hart) (rd : Nat) : Option Word → Res
  | some v => .next (setD s h rd v)
  | none => illegal s

/-- INT_REG_OP (R260). -/
def execIntRegOp (core : CoreId) (rd rs1 rs2 : Nat) (fn : BitVec 9) (s : State) : Out :=
  instrDo core 2 (fun h s => writeD s h rd (intReg fn.toNat rs2 (getD s h rs1) (getD s h rs2))) s

/-! ### Immediates (R261) -/

/-- The bit-field instructions' fields: pos and len; none for an invalid encoding (R261). -/
def posLen (imm : BitVec 14) : Option (Nat × Nat) :=
  let pos := fld imm.toNat 11 6
  let len := fld imm.toNat 5 0 + 1
  if fld imm.toNat 13 12 = 0 ∧ pos + len ≤ 64 then some (pos, len) else none

/-- Bits [pos + len - 1 : pos] of a word, zero-extended. -/
def extu (x : Word) (pos len : Nat) : Word := w64 (wfld x (pos + len - 1) pos)
/-- The same, sign-extended from bit len - 1. -/
def exts (x : Word) (pos len : Nat) : Word :=
  let v := wfld x (pos + len - 1) pos
  w64 (if bitOf v (len - 1) then 2 ^ 64 - 2 ^ len + v else v)
/-- A field of a word replaced by the low bits of another. -/
def ins (old x : Word) (pos len : Nat) : Word := wput old (pos + len - 1) pos x.toNat

/-- The instructions of RI 0x10 to 0x1A (R261). -/
def riOp (s : State) (h : Hart) (op : RiOp) (rd rs1 : Nat) (imm : BitVec 14) : Res :=
  let x := getD s h rs1
  let i : Word := imm.signExtend 64
  match op with
  | .addi => writeD s h rd (some (x + i))
  | .andi => writeD s h rd (some (x &&& i))
  | .ori => writeD s h rd (some (x ||| i))
  | .xori => writeD s h rd (some (x ^^^ i))
  | .slti => writeD s h rd (some (boolWord (x.slt i)))
  | .sltiu => writeD s h rd (some (boolWord (x.ult i)))
  | .shi => writeD s h rd (if fld imm.toNat 11 6 = 0 then some (shift (fld imm.toNat 13 12) x (fld imm.toNat 5 0)) else none)
  | .extu => writeD s h rd ((posLen imm).map fun p => extu x p.1 p.2)
  | .exts => writeD s h rd ((posLen imm).map fun p => exts x p.1 p.2)
  | .ins => writeD s h rd ((posLen imm).map fun p => ins (getD s h rd) x p.1 p.2)
  | .addai => if rd < 16 ∧ rs1 < 16 then .next (setA s h rd (addA (getA s h rs1) imm.toInt)) else illegal s

/-- The instructions of RI32 0x00 to 0x03 (R261). -/
def ri32Op (s : State) (h : Hart) (op : Ri32Op) (rd fn3 : Nat) (imm : BitVec 32) : Res :=
  let x := getD s h rd
  let sx : Word := imm.signExtend 64
  match op with
  | .li32 =>
    writeD s h rd
      (match fn3 with
      | 0 => some sx
      | 1 => some (w64 imm.toNat)
      | 2 => some (wput x 63 32 imm.toNat)
      | 3 => some (wput x 31 0 imm.toNat)
      | _ => none)
  | .addi32 => writeD s h rd (if fn3 = 0 then some (x + sx) else none)
  | .logic32 =>
    writeD s h rd
      (match fn3 with
      | 0 => some (x &&& sx)
      | 1 => some (x ||| sx)
      | 2 => some (x ^^^ sx)
      | _ => none)
  | .lia32 =>
    if 16 ≤ rd then illegal s
    else
      match fn3 with
      | 0 => .next (setA s h rd imm.toNat)
      | 1 => .next (setA s h rd (addA (getA s h rd) imm.toInt))
      | _ => illegal s

/-- `li48` and `lia48` (R261). -/
def imm48Op (s : State) (h : Hart) (lia : Bool) (rd fn3 : Nat) (imm : BitVec 48) : Res :=
  if lia then
    if rd < 16 ∧ fn3 = 0 then .next (setA s h rd imm.toNat) else illegal s
  else
    writeD s h rd
      (match fn3 with
      | 0 => some (imm.signExtend 64)
      | 1 => some (w64 imm.toNat)
      | _ => none)

/-- Parcels of an instruction with an immediate. -/
def immLen : ImmOp → Nat
  | .ri _ _ _ _ => 2
  | .ri32 _ _ _ _ => 3
  | .imm48 _ _ _ _ => 4

/-- INT_IMM_OP (R261). -/
def execIntImmOp (core : CoreId) (op : ImmOp) (s : State) : Out :=
  instrDo core (immLen op) (fun h s =>
    match op with
    | .ri o rd rs1 imm => riOp s h o rd rs1 imm
    | .ri32 o rd fn3 imm => ri32Op s h o rd fn3.toNat imm
    | .imm48 lia rd fn3 imm => imm48Op s h lia rd fn3.toNat imm) s

/-! ### Moves (R262) -/

/-- The moves of RR 0x05 (R262). -/
def moveRr (s : State) (h : Hart) (fn rd rs1 rs2 : Nat) : Res :=
  let ok (a b : Nat) : Bool := decide (rd < a) && decide (rs1 < b)
  if fn ≠ 3 ∧ rs2 ≠ 0 then illegal s
  else
    match fn with
    | 0 => if ok 16 32 then .next (setA s h rd (getD s h rs1).toNat) else illegal s
    | 1 => if ok 32 16 then .next (setD s h rd (w64 (getA s h rs1))) else illegal s
    | 2 => if ok 16 16 then .next (setA s h rd (getA s h rs1)) else illegal s
    | 3 => if ok 16 16 then .next (setA s h rd (getA s h rs1 + (getD s h rs2).toNat)) else illegal s
    | 4 => if ok 8 32 then .next (setM s h rd (getD s h rs1)) else illegal s
    | 5 => if ok 32 8 then .next (setD s h rd (getM s h rs1)) else illegal s
    | 6 => if ok 32 4 then .next (setD s h rd (loHalf (getW s h rs1))) else illegal s
    | 7 => if ok 32 4 then .next (setD s h rd (hiHalf (getW s h rs1))) else illegal s
    | _ => illegal s

/-- The moves of WR 0x2E (R262). -/
def moveWr (s : State) (h : Hart) (fn wd ws rs1 rs2 : Nat) : Res :=
  match fn with
  | 0 => if ws = 0 then .next (setW s h wd (mkWide (getD s h rs2) (getD s h rs1))) else illegal s
  | 1 => if rs1 = 0 ∧ rs2 = 0 then .next (setW s h wd (getW s h ws)) else illegal s
  | _ => illegal s

/-- CLASS_MOVE (R262). -/
def execClassMove (core : CoreId) (op : MoveForm) (s : State) : Out :=
  instrDo core 2 (fun h s =>
    match op with
    | .rr rd rs1 rs2 fn => moveRr s h fn.toNat rd rs1 rs2
    | .wr wd ws rs1 rs2 fn => moveWr s h fn.toNat wd ws rs1 rs2) s

/-! ### Compact instructions (R258) -/

/-- The C16 instructions (R258). -/
def compactOp (s : State) (h : Hart) (op rd rs : Nat) : Res :=
  let x := getD s h rd
  let y := getD s h rs
  let sx : Word := (BitVec.ofNat 5 rs).signExtend 64
  match op with
  | 0x1 => .next (setD s h rd y)
  | 0x2 => .next (setD s h rd (x + y))
  | 0x3 => .next (setD s h rd (x - y))
  | 0x4 => .next (setD s h rd (x &&& y))
  | 0x5 => .next (setD s h rd (x ||| y))
  | 0x6 => .next (setD s h rd (x ^^^ y))
  | 0x7 => .next (setD s h rd (x + sx))
  | 0x8 => .next (setD s h rd (shift 0 x rs))
  | 0x9 => .next (setD s h rd (shift 1 x rs))
  | 0xA => .next (setD s h rd (shift 2 x rs))
  | 0xB => .next (setD s h rd sx)
  | 0xC => if rd < 16 then .next (setA s h rd y.toNat) else illegal s
  | 0xD => if rs < 16 then .next (setD s h rd (w64 (getA s h rs))) else illegal s
  | 0xE => if rd < 16 then .next (setA s h rd (getA s h rd + y.toNat)) else illegal s
  | _ => illegal s

/-- R257 assigns a major opcode of two parcels. -/
def opAssigned (n : Nat) : Bool :=
  [0x00, 0x02, 0x03, 0x04, 0x05, 0x06, 0x07, 0x08, 0x09, 0x0A, 0x3E].contains n || (decide (0x10 ≤ n) && decide (n ≤ 0x1C))
    || (decide (0x20 ≤ n) && decide (n ≤ 0x25)) || (decide (0x2C ≤ n) && decide (n ≤ 0x3C))

/-- R257 assigns an encoding, so that it belongs to some row of the table. -/
def assigned : Encoding → Bool
  | .sub v => decide (v.toNat ≤ 7)
  | .op2 v => opAssigned v.toNat
  | .op3 v => decide (v.toNat ≤ 3) || (decide (0x10 ≤ v.toNat) && decide (v.toNat ≤ 0x15))
      || (decide (0x1C ≤ v.toNat) && decide (v.toNat ≤ 0x22))
  | .op4 v => [0x00, 0x01, 0x08, 0x09, 0x0C, 0x0D].contains v.toNat
  | .fn op v =>
    let n := v.toNat
    match op.toNat with
    | 0x08 => decide (n ≤ 3) || (decide (8 ≤ n) && decide (n ≤ 0x14))
    | 0x09 => decide (n ≤ 2) || (decide (0x100 ≤ n) && decide (n ≤ 0x1FF))
    | 0x0A => decide (n ≤ 3)
    | 0x2C => [0x000, 0x001, 0x010, 0x011, 0x012, 0x014, 0x015, 0x016, 0x020, 0x021].contains n
    | 0x2D => decide (n ≤ 1)
    | 0x2E => decide (n ≤ 1)
    | o => opAssigned o

/-- Parcels of an encoding (R203). -/
def encParcels : Encoding → Nat
  | .sub _ => 1
  | .op2 _ => 2
  | .op3 _ => 3
  | .op4 _ => 4
  | .fn _ _ => 2

/-- COMPACT_INSTRUCTION (R258). An encoding that R257 does not assign is no row of its own, and raises ILLEGAL here (R202, DESIGN CHOICE:
log entry 130); an assigned one is another row's and does nothing here. -/
def execCompactInstruction (core : CoreId) (op : CompactOp) (rd rs : Fin 32) (s : State) : Out :=
  match op with
  | .c16 op => instrDo core 1 (fun h s => compactOp s h op rd rs) s
  | .other e => instrDo core (encParcels e) (fun _ s => if assigned e then .done s else illegal s) s

/-! ### The sticky flags (R226, R261) -/

/-- RDFLG (R261). -/
def execRdflg (core : CoreId) (rd rs1 : Nat) (imm14 : BitVec 14) (s : State) : Out :=
  instrDo core 2 (fun h s => writeD s h rd (if rs1 = 0 ∧ imm14 = 0 then some (w64 (hartFlags s h)) else none)) s

/-- CLRFLG (R261). -/
def execClrflg (core : CoreId) (rd rs1 : Nat) (imm14 : BitVec 14) (s : State) : Out :=
  instrDo core 2 (fun h s =>
    if rd = 0 ∧ rs1 = 0 ∧ fld imm14.toNat 13 7 = 0 then
      .next (modRegs s h fun r => { r with flags := r.flags &&& ~~~BitVec.ofNat 7 imm14.toNat })
    else illegal s) s

end Sys2Proof.Machine
end

