-- ==== Sys2Proof/Machine/WideOps.lean ====
section
/-! DEFINITION. Carry chains, widening multiplication and division in W registers (spec 07: R232 to R235; 08: R263). -/

namespace Sys2Proof.Machine

/-- `addc` (R232). -/
def addc (ws : Wide) (x y : Word) : Wide := BitVec.ofNat 128 (x.toNat + y.toNat + b2n (bitOf ws.toNat 64))

/-- `subc`: the difference mod 2^65 (R232). -/
def subc (ws : Wide) (x y : Word) : Wide :=
  BitVec.ofNat 128 ((2 ^ 65 + x.toNat - y.toNat - b2n (bitOf ws.toNat 64)) % 2 ^ 65)

/-- The exact product of two words as a 128-bit value: 0 both unsigned, 1 both signed, 2 first signed (R233). -/
def mulWide (k : Nat) (x y : Word) : Wide :=
  match k with
  | 0 => x.setWidth 128 * y.setWidth 128
  | 1 => x.signExtend 128 * y.signExtend 128
  | _ => x.signExtend 128 * y.setWidth 128

/-- Quotient low and remainder high, for a divisor that is not 0 (R234, R235). -/
def divWide (signed : Bool) (x y : Word) : Wide :=
  if signed then mkWide (BitVec.ofInt 64 (x.toInt.tmod y.toInt)) (BitVec.ofInt 64 (x.toInt.tdiv y.toInt))
  else mkWide (x % y) (x / y)

/-- ADDC_SUBC (R232). -/
def execAddcSubc (core : CoreId) (wd ws rs1 rs2 : Nat) (fn : BitVec 10) (s : State) : Out :=
  instrDo core 2 (fun h s =>
    match fn.toNat with
    | 0 => .next (setW s h wd (addc (getW s h ws) (getD s h rs1) (getD s h rs2)))
    | 1 => .next (setW s h wd (subc (getW s h ws) (getD s h rs1) (getD s h rs2)))
    | _ => illegal s) s

/-- MULW (R233, R263). -/
def execMulw (core : CoreId) (wd ws rs1 rs2 : Nat) (fn : BitVec 10) (s : State) : Out :=
  instrDo core 2 (fun h s =>
    let p (k : Nat) : Wide := mulWide k (getD s h rs1) (getD s h rs2)
    let plain (k : Nat) : Res := if ws = 0 then .next (setW s h wd (p k)) else illegal s
    let acc (k : Nat) : Res := .next (setW s h wd (getW s h ws + p k))
    match fn.toNat with
    | 0x10 => plain 0
    | 0x11 => plain 1
    | 0x12 => plain 2
    | 0x14 => acc 0
    | 0x15 => acc 1
    | 0x16 => acc 2
    | _ => illegal s) s

/-- A division, with the case of a zero divisor (R235). -/
def divide (s : State) (h : Hart) (signed : Bool) (wd rs1 rs2 : Nat) : Res :=
  let x := getD s h rs1
  let y := getD s h rs2
  if y = 0 then
    if bitOf (trapen s h) 5 then .trap s tDz 0 0
    else .next (raiseFlags (setW s h wd (mkWide x 0)) h fDZ)
  else .next (setW s h wd (divWide signed x y))

/-- DIVS_DIVU (R234, R235). -/
def execDivsDivu (core : CoreId) (wd ws rs1 rs2 : Nat) (fn : BitVec 10) (s : State) : Out :=
  instrDo core 2 (fun h s =>
    if ws ≠ 0 then illegal s
    else
      match fn.toNat with
      | 0x20 => divide s h true wd rs1 rs2
      | 0x21 => divide s h false wd rs1 rs2
      | _ => illegal s) s

end Sys2Proof.Machine
end

