-- ==== Sys2Proof/Machine/Float.lean ====
section
/-! DEFINITION. The floating-point instructions (spec 07: R229, R236 to R242; 08: R265 to R267). -/

namespace Sys2Proof.Machine

/-- An operand of a binary32 or binary64 operation (R194). -/
def fpArg (dbl : Bool) (x : Word) : Nat := if dbl then x.toNat else wfld x 31 0
def fpFmt (dbl : Bool) : Fmt := if dbl then fmtD else fmtS

/-- The exceptions that an instruction raised: a trap where one is enabled, else the sticky flags and the result (R229). -/
def fpResult (s : State) (h : Hart) (x : Nat) (run : State → Res) : Res :=
  if x &&& (trapen s h % 32) ≠ 0 then .trap s tFp (x &&& (trapen s h % 32)) 0 else run (raiseFlags s h x)

/-- A value and its exceptions, written to a D register (R229). -/
def fpWrite (s : State) (h : Hart) (rd : Nat) (r : Nat × Nat) : Res :=
  fpResult s h r.2 fun s => .next (setD s h rd (w64 r.1))

/-- The result of an operation that rounds, by `FN`[5:0] (R265). -/
def fpRounded (f : Fmt) (rm op rs2 : Nat) (x y z : Nat) : Option (Nat × Nat) :=
  match op with
  | 0x00 => some (fAdd f rm false x y)
  | 0x01 => some (fAdd f rm true x y)
  | 0x02 => some (fMul f rm x y)
  | 0x03 => some (fDiv f rm x y)
  | 0x04 => if rs2 = 0 then some (fSqrt f rm x) else none
  | 0x05 => some (fMadd f rm x y z)
  | 0x0C => if rs2 = 0 then some (fRound f rm x) else none
  | _ => none

/-- The sign bit of a format. -/
def signBit (f : Fmt) : Nat := 2 ^ (f.fb + f.eb)

/-- The result of an operation that does not round, by `FN`[5:0] (R238, R241, R265). -/
def fpPlain (f : Fmt) (op rs2 : Nat) (x y : Nat) : Option (Nat × Nat) :=
  let mag := x % signBit f
  match op with
  | 0x08 => some (fMinMax f false false x y)
  | 0x09 => some (fMinMax f true false x y)
  | 0x0A => some (fMinMax f false true x y)
  | 0x0B => some (fMinMax f true true x y)
  | 0x0D => if rs2 = 0 then some (x ^^^ signBit f, 0) else none
  | 0x0E => if rs2 = 0 then some (mag, 0) else none
  | 0x0F => some (mag + b2n (fSign f y) * signBit f, 0)
  | 0x11 => some (fCmp f 0 x y)
  | 0x12 => some (fCmp f 1 x y)
  | 0x13 => some (fCmp f 2 x y)
  | 0x14 => some (fCmp f 3 x y)
  | _ => none

/-- An instruction of RR 0x02 or 0x03 besides `fcat` (R265). -/
def fpOp (s : State) (h : Hart) (dbl : Bool) (rd rs1 rs2 fn : Nat) : Res :=
  let f := fpFmt dbl
  let x := fpArg dbl (getD s h rs1)
  let y := fpArg dbl (getD s h rs2)
  let z := fpArg dbl (getD s h rd)
  let rm := fld fn 8 6
  let op := fld fn 5 0
  let r := match roundMode s h rm with
    | none => none
    | some m =>
      match fpRounded f m op rs2 x y z with
      | some r => some r
      | none => if rm = 0 then fpPlain f op rs2 x y else none
  match r with
  | some r => fpWrite s h rd r
  | none => illegal s

/-- FP_OPERATION (R265). -/
def execFpOperation (core : CoreId) (dbl : Bool) (rd rs1 rs2 : Nat) (fn : BitVec 9) (s : State) : Out :=
  instrDo core 2 (fun h s => fpOp s h dbl rd rs1 rs2 fn.toNat) s

/-- FCAT (R266). -/
def execFcat (core : CoreId) (dbl : Bool) (rd rs1 rs2 : Nat) (fn : BitVec 9) (s : State) : Out :=
  instrDo core 2 (fun h s =>
    if fn.toNat = 0x10 ∧ rs2 = 0 then .next (setD s h rd (w64 (fClass (fpFmt dbl) (fpArg dbl (getD s h rs1))))) else illegal s) s

/-- The result of a conversion by `FN`[5:0] (R241, R242, R267). -/
def convert (op rm : Nat) (x : Word) : Option (Nat × Nat) :=
  let a := fpArg false x
  let b := x.toNat
  match op with
  | 0x00 => some (fConvert fmtS fmtD rm a)
  | 0x01 => some (fConvert fmtD fmtS rm b)
  | 0x02 => some (fToInt fmtS true rm a)
  | 0x03 => some (fToInt fmtS false rm a)
  | 0x04 => some (fToInt fmtD true rm b)
  | 0x05 => some (fToInt fmtD false rm b)
  | 0x06 => some (fFromInt fmtS true rm b)
  | 0x07 => some (fFromInt fmtS false rm b)
  | 0x08 => some (fFromInt fmtD true rm b)
  | 0x09 => some (fFromInt fmtD false rm b)
  | _ => none

/-- FCVT (R267). -/
def execFcvt (core : CoreId) (rd rs1 rs2 : Nat) (fn : BitVec 9) (s : State) : Out :=
  instrDo core 2 (fun h s =>
    let rm := fld fn.toNat 8 6
    let op := fld fn.toNat 5 0
    match roundMode s h rm with
    | none => illegal s
    | some m =>
      if rs2 ≠ 0 ∨ (op = 0 ∧ rm ≠ 0) then illegal s
      else
        match convert op m (getD s h rs1) with
        | some r => fpWrite s h rd r
        | none => illegal s) s

end Sys2Proof.Machine
end

