-- ==== Sys2Proof/Machine/Decimal.lean ====
section
/-! DEFINITION. Packed decimal and the spar's decimal sequencer (spec 07: R243 to R250; 08: R264). -/

namespace Sys2Proof.Machine

/-- Nibble `k` of a value (R243). -/
def nibble (v k : Nat) : Nat := v / 16 ^ k % 16

/-- The nibble is valid at its place: a sign or a digit (R243). -/
def nibbleOk (v k : Nat) : Bool :=
  if k = 0 then nibble v 0 == 0xC || nibble v 0 == 0xD || nibble v 0 == 0xF else decide (nibble v k ≤ 9)

/-- The lowest nibble that is not valid in a value of `n` digits (R243, R246). -/
def badNibble (v n : Nat) : Option Nat := firstBelow (n + 1) fun k => !nibbleOk v k

/-- The magnitude of a valid value of `n` digits. -/
def decMag (v n : Nat) : Nat := ((List.range n).map fun k => nibble v (k + 1) * 10 ^ k).sum

/-- A value of `n` digits from magnitude and sign (R243, R245). -/
def decPack (m : Nat) (neg : Bool) (n : Nat) : Nat :=
  (if neg then 0xD else 0xC) + ((List.range n).map fun k => m / 10 ^ k % 10 * 16 ^ (k + 1)).sum

/-- dec_addsub: the packed result and whether it overflowed (R245). -/
def decAddSub (a b na nb : Nat) (sub : Bool) (n : Nat) : Nat × Bool :=
  let sa := nibble a 0 == 0xD
  let sb := (nibble b 0 == 0xD) != sub
  let ma := decMag a na
  let mb := decMag b nb
  let r : Nat × Bool := if sa = sb then (ma + mb, sa) else if mb ≤ ma then (ma - mb, sa) else (mb - ma, sb)
  let m := r.1 % 10 ^ n
  (decPack m (r.2 && m != 0) n, decide (10 ^ n ≤ r.1))

/-- The result of `pchk` on a value of `n` digits (R246). -/
def decCheck (v n : Nat) : Word :=
  match badNibble v n with
  | none => 0
  | some k =>
    w64 (2 ^ 7 + b2n (!nibbleOk v 0) * 2 ^ 6 + b2n ((List.range n).any fun j => !nibbleOk v (j + 1)) * 2 ^ 5 + k)

/-- The outcome of a decimal operation: none is the packed-decimal data exception; else the value and `DOV` (R244, R245). -/
def decResult (op : Nat) (wide : Bool) (a b : Wide) : Option (Wide × Bool) :=
  let na := if wide then 31 else 15
  if op = 2 then some ((decCheck a.toNat na).setWidth 128, false)
  else if (badNibble a.toNat na).isSome || (badNibble b.toNat 15).isSome then none
  else
    let r := decAddSub a.toNat b.toNat na 15 (op == 1) na
    some (BitVec.ofNat 128 r.1, r.2)

/-- The result of a decimal operation written: `padd.w` and `psub.w` write a W register, the others a D register. -/
def decWrite (s : State) (h : Hart) (op : Nat) (wide : Bool) (rd : Nat) (r : Wide × Bool) : State :=
  let s := if wide && op != 2 then setW s h rd r.1 else setD s h rd (loHalf r.1)
  if r.2 then raiseFlags s h fDOV else s

/-- A decimal instruction: a codelet's request goes to its spar's sequencer and the PE stalls, and a PE that checks it makes a request of its
own; a supervisor core computes itself (R247, R529). -/
def decIssue (op : Nat) (wide : Bool) (rd : Nat) (a b : Wide) (h : Hart) (s : State) : Res :=
  match h with
  | .pe k =>
    let ask (s : State) (k : Nat) : State :=
      modSpar (modPe s k fun p => { p with decimal := true }) (peSpar k) fun x =>
        { x with decWait := x.decWait ++ [⟨peNo k, op, wide, rd, a, b, true⟩] }
    .done (match (getPe s k).pair with
      | some (true, q) => ask (ask s k) (peKey (peSpar k) q)
      | _ => ask s k)
  | .sup _ =>
    match decResult op wide a b with
    | some r => .next (decWrite s h op wide rd r)
    | none => .trap s tDecimal 0 0

/-- `padd` and `psub` (R245, R264). -/
def decArith (op : Nat) (f : DecForm) (h : Hart) (s : State) : Res :=
  match f with
  | .d rd rs1 rs2 => decIssue op false rd ((getD s h rs1).setWidth 128) ((getD s h rs2).setWidth 128) h s
  | .w wd ws rs1 rs2 => if rs2 ≠ 0 then illegal s else decIssue op true wd (getW s h ws) ((getD s h rs1).setWidth 128) h s

/-- PADD (R245). -/
def execPadd (core : CoreId) (op : DecForm) (s : State) : Out := instrDo core 2 (decArith 0 op) s
/-- PSUB (R245). -/
def execPsub (core : CoreId) (op : DecForm) (s : State) : Out := instrDo core 2 (decArith 1 op) s

/-- PCHK (R246, R264). -/
def execPchk (core : CoreId) (wide : Bool) (rd rs1 rs2 : Nat) (s : State) : Out :=
  instrDo core 2 (fun h s =>
    if rs2 ≠ 0 ∨ (wide ∧ 4 ≤ rs1) then illegal s
    else decIssue 2 wide rd (if wide then getW s h rs1 else (getD s h rs1).setWidth 128) 0 h s) s

/-- The index of the waiting request that comes first in round robin after the PE accepted last (R247). -/
def decNext (x : Spar) : Option (DecJob × Nat) := minBy (fun j => (j.pe + 8 - x.decRr % 9) % 9) x.decWait

/-- The sequencer accepts a request when it is idle (R247, R248). -/
def decAccept (s : State) (g : Nat) : State :=
  let x := getSpar s g
  match x.decRun, decNext x with
  | none, some (j, k) => modSpar s g fun x => { x with decRun := some j, decRr := j.pe, decWait := dropAt x.decWait k }
  | _, _ => s

/-- DECIMAL_REQUEST_ACCEPT (R247). -/
def execDecimalRequestAccept (die spar : Nat) (s : State) : Out := sparDo s die spar (decAccept s (gspar die spar))

end Sys2Proof.Machine
end

