-- ==== Sys2Proof/Machine/Branch.lean ====
section
/-! DEFINITION. Branches and jumps, and the branch predictor of a supervisor core (spec 06: R215 to R219; 11: R356 to R358). -/

namespace Sys2Proof.Machine

/-! ### The predictor (R356 to R358) -/

/-- The predictor's mode: 0 TAG, 1 SCRAMBLE, 2 OFF (R358). -/
def bpMode (s : State) (c : Nat) : Nat := min 2 (wfld (spr s c zBpctl) 1 0)
def bpCtag (s : State) (c : Nat) : Nat := wfld (spr s c zBpctl) 31 16
/-- The key of R357: the secret under SCRAMBLE, else 0. -/
def bpKey (s : State) (c : Nat) : Nat :=
  if bpMode s c = 1 then wfld (spr s c zBpkeyHi) 31 0 * 2 ^ 32 + wfld (spr s c zBpkeyLo) 31 0 else 0

/-- dir_index (R357). -/
def dirIndex (pc gh key : Nat) : Nat :=
  let h := fld pc 15 0 ^^^ fld pc 31 16 ^^^ fld pc 50 40 ^^^ fld gh 15 0 ^^^ rotl 16 (fld gh 31 16) 5
  rotl 16 (h ^^^ fld key 15 0) (fld key 19 16) ^^^ fld key 47 32

/-- btb_set (R357). -/
def btbSet (pc key : Nat) : Nat := fld pc 10 0 ^^^ fld pc 21 11 ^^^ fld pc 32 22 ^^^ fld key 58 48

/-- A direction counter: value 1 and tag 0 before it is written (R358). -/
def dirInit (_ : Nat) : Nat × Nat := (1, 0)

/-- A conditional branch with its outcome updates its counter and the history (R356, R358). -/
def predictDir (s : State) (c pc : Nat) (taken : Bool) : State :=
  let i := dirIndex pc (getSup s c).hist.toNat (bpKey s c)
  let old := tget dirInit (getSup s c).dirs i
  let v := if bpMode s c = 0 ∧ old.2 ≠ bpCtag s c then 1 else old.1
  let v' := if taken then min 3 (v + 1) else v - 1
  let tag := if bpMode s c = 0 then bpCtag s c else old.2
  modSup s c fun x => { x with dirs := tset dirInit x.dirs i (v', tag), hist := x.hist <<< 1 ||| BitVec.ofNat 32 (b2n taken) }

def noBtb (_ : Nat) : Option Btb := none

/-- The way of a set that holds a branch: its own, else a free one, else the one used longest ago (R356). -/
def btbWay (x : Sup) (set pc mode ctag : Nat) : Nat :=
  let at_ (w : Nat) : Option Btb := tget noBtb x.btb (4 * set + w)
  let live (e : Btb) : Bool := decide (mode ≠ 0) || e.ctag == ctag
  match firstBelow 4 fun w => (match at_ w with
    | some e => e.pc == pc && live e
    | none => false) with
  | some w => w
  | none =>
    match firstBelow 4 fun w => (match at_ w with
      | some e => !live e
      | none => true) with
    | some w => w
    | none =>
      ((minBy (fun w => match at_ w with
        | some e => e.stamp
        | none => 0) (List.range 4)).map (·.1)).getD 0

/-- A taken branch or a jump takes its place in the target buffer (R356, R358). -/
def predictTarget (s : State) (c pc target kind : Nat) : State :=
  let mode := bpMode s c
  let set := btbSet pc (bpKey s c)
  modSup s c fun x =>
    let w := btbWay x set pc mode (bpCtag s c)
    { x with stamp := x.stamp + 1, btb := tset noBtb x.btb (4 * set + w) (some ⟨pc, target, kind, bpCtag s c, x.stamp + 1⟩) }

/-- What a branch or jump leaves in the predictor of a supervisor core; a PE has none (R255, R358). -/
def predict (s : State) (h : Hart) (pc target kind : Nat) (taken : Bool) : State :=
  match h with
  | .pe _ => s
  | .sup c =>
    if bpMode s c = 2 then s
    else
      let s := if kind = 0 then predictDir s c pc taken else s
      if taken then predictTarget s c pc target kind else s

/-- FLUSH: the target buffer is emptied, the counters are 1 and the history is 0 (R358). -/
def bpFlush (s : State) (c : Nat) : State := modSup s c fun x => { x with btb := [], dirs := [], hist := 0 }

/-! ### Branches (R216 to R218) -/

/-- The comparison of a floating-point branch: its number for fCmp (R218). -/
def fpBranch (s : State) (h : Hart) (dbl : Bool) (k : Nat) (rs1 rs2 : Nat) (run : State → Bool → Res) : Res :=
  let r := fCmp (fpFmt dbl) k (fpArg dbl (getD s h rs1)) (fpArg dbl (getD s h rs2))
  fpResult s h r.2 fun s => run s (r.1 == 1)

/-- A branch whose condition is known: it goes on, or to its own address plus the offset (R217). -/
def branchTo (h : Hart) (off : Int) (s : State) (taken : Bool) : Res :=
  let pc := hartPc s h
  let target := ((Int.ofNat pc + off) % 2 ^ 51).toNat
  let s := predict s h pc target 0 taken
  if taken then .jump s target else .next s

/-- The conditions of R216. -/
def branchIf (s : State) (h : Hart) (op : BrOp) (rs1 rs2 : Nat) (off : Int) : Res :=
  let x := getD s h rs1
  let y := getD s h rs2
  let go := branchTo h off
  match op with
  | .eq => go s (x == y)
  | .ne => go s (x != y)
  | .lt => go s (x.slt y)
  | .ge => go s (!x.slt y)
  | .ltu => go s (x.ult y)
  | .geu => go s (!x.ult y)
  | .aeq => if rs1 < 16 ∧ rs2 < 16 then go s (getA s h rs1 == getA s h rs2) else illegal s
  | .flt dbl => fpBranch s h dbl 1 rs1 rs2 go
  | .feq dbl => fpBranch s h dbl 0 rs1 rs2 go
  | .funo dbl => fpBranch s h dbl 3 rs1 rs2 go

/-- The branch has a long form (R206). -/
def hasLong : BrOp → Bool
  | .flt _ => false
  | .feq _ => false
  | .funo _ => false
  | _ => true

def branchLen : BranchForm → Nat
  | .brl _ _ _ _ => 3
  | _ => 2

/-- COND_BRANCH (R216 to R218). -/
def execCondBranch (core : CoreId) (op : BranchForm) (s : State) : Out :=
  instrDo core (branchLen op) (fun h s =>
    match op with
    | .br o rs1 rs2 off => branchIf s h o rs1 rs2 off.toInt
    | .brl o rs1 rs2 off => if hasLong o then branchIf s h o rs1 rs2 off.toInt else illegal s
    | .bi rs imm off => branchTo h off.toInt s (getD s h rs == imm.signExtend 64)) s

/-- A jump (R219). -/
def jumpTo (s : State) (h : Hart) (target kind : Nat) : Res := .jump (predict s h (hartPc s h) target kind true) target

/-- The link: the parcel address of the next instruction (R219). -/
def linkWord (s : State) (h : Hart) (n : Nat) : Word := w64 ((hartPc s h + n) % 2 ^ 51)

/-- JMP (R219). -/
def execJmp (core : CoreId) (rl : Nat) (target : BitVec 51) (s : State) : Out :=
  instrDo core 4 (fun h s => if rl = 0 then jumpTo s h target.toNat 1 else illegal s) s

/-- CALL (R219). -/
def execCall (core : CoreId) (rl : Nat) (target : BitVec 51) (s : State) : Out :=
  instrDo core 4 (fun h s => jumpTo (setD s h rl (linkWord s h 4)) h target.toNat 2) s

/-- JR (R219). -/
def execJr (core : CoreId) (rd rs1 rs2 : Nat) (fn : BitVec 9) (s : State) : Out :=
  instrDo core 2 (fun h s =>
    if rs2 = 0 ∧ fn = 0 then
      let target := wfld (getD s h rs1) 50 0
      jumpTo (if rd = 0 then s else setD s h rd (linkWord s h 2)) h target 3
    else illegal s) s

end Sys2Proof.Machine
end

