-- ==== Sys2Proof/Machine/LoadStore.lean ====
section
/-! DEFINITION. Loads, stores, reservations and atomic memory operations (spec 08: R268 to R270; 09: R269, R280, R283 to R292; 10:
R303, R308 to R314, R326, R329 to R331). -/

namespace Sys2Proof.Machine

/-! ### Loads -/

/-- The scratch word lies in a converted line (R310). -/
def scratchOk (s : State) (k va : Nat) : Bool := decide ((va - scratchBase) / 16 < scratchLines s (peSpar k))

/-- How a data access ends: a value, a cause with the address as the access named it, or not yet. -/
inductive Got (α : Type)
  | ok (v : α) (s : State)
  | bad (cause addr : Nat) (s : State)
  /-- its home cannot serve it yet: the instruction waits (R292, R321) -/
  | wait

/-- An instruction goes on with what a data access answers. -/
def Got.run {α : Type} (g : Got α) (s : State) (f : α → State → Res) : Res :=
  match g with
  | .ok v t => f v t
  | .bad e a t => .trap t e 0 a
  | .wait => .done s

/-- A PE's load of a word of memory, after the scope's own store buffer: from its L1D where that is on and holds the line, else from the
spar L2, which asks the home for a line that it does not hold (R308, R313, R314). -/
def l1dLoad (s : State) (k pa va : Nat) : Got Word :=
  let hit := if l1dOn s k then (getPe s k).l1d.find? fun l => l.line == pa / 16 else none
  match hit with
  | some l =>
    let s := l1dFill s k (pa / 16)
    if bitOf l.psn (pa % 16) then .bad tPoison va s else .ok (l.words.getD (pa % 16) 0) s
  | none =>
    match lineForRead s (peSpar k) (pa / 16) with
    | none => .wait
    | some s =>
      let t := if l1dOn s k then l1dFill s k (pa / 16) else s
      if l2Poisoned s (peSpar k) pa then .bad tPoison va t else .ok (l2Word s (peSpar k) pa) t

/-- A word that a scope loads from memory: its own held value, the user word of a frame it has taken, or memory (R54, R61). -/
def peWord (s : State) (k pa va : Nat) : Got Word :=
  match tget (fun _ => none) (getPe s k).sb pa with
  | some v => .ok v s
  | none =>
    match (getPe s k).taken.find? fun t => t.pa == pa with
    | some t => .ok t.user s
    | none => if backed s pa then l1dLoad s k pa va else .bad tPoison va (noteRead s (peDie k) pa)

/-- A scratch word as the running scope sees it (R311). -/
def scratchWord (s : State) (k va : Nat) : Word :=
  match tget (fun _ => none) (getPe s k).sb (scratchKey + (va - scratchBase)) with
  | some v => v
  | none => tget (fun _ => 0) (getPe s k).scratch (va - scratchBase)

/-- A supervisor's read of `n` words of device space: one access, which answers with values that nothing here gives, or with a bus error
(R298, R344). -/
def devLoad (s : State) (d o va n : Nat) : Got (List Word) :=
  let e := takeFree s
  let t := { e.2 with given := e.2.given ++ [.devRead d o n] }
  if wbit e.1 0 then .bad tBuserr va t
  else
    let r := (List.range n).foldl (fun (a : List Word × State) _ => let f := takeFree a.2; (a.1 ++ [f.1], f.2)) ([], t)
    .ok r.1 r.2

/-- A supervisor's load of `n` words of one line of memory, from its L1D and L2 (R288, R305). -/
def supWords (s : State) (c pa va n : Nat) : Got (List Word) :=
  match region s pa with
  | .device d o => devLoad s d o va n
  | .unbacked => .bad tPoison va (noteRead s (c / 8) pa)
  | _ =>
    match lineForRead s (256 + c) (pa / 16) with
    | none => .wait
    | some s =>
      let s := fillSupL1d s c (pa / 16)
      match (List.range n).find? fun j => l2Poisoned s (256 + c) (pa + j) with
      | some j => .bad tPoison (va + j) s
      | none => .ok ((List.range n).map fun j => l2Word s (256 + c) (pa + j)) s

/-- A load of `n` words by a hart; they lie in one line (R268, R278). -/
def loadWords (s : State) (h : Hart) (va n : Nat) : Got (List Word) :=
  match h with
  | .pe k =>
    let one (s : State) (va : Nat) : Got Word :=
      if isScratch va then (if scratchOk s k va then .ok (scratchWord s k va) s else .bad tProt va s)
      else
        let s' := xlateNote s (hartCtx s h) va
        match translate s (hartCtx s h) .read va with
        | .error e => .bad e va s'
        | .ok pa => peWord s' k pa va
    (List.range n).foldl (fun g j =>
      match g with
      | .ok vs s =>
        match one s (va + j) with
        | .ok v s => .ok (vs ++ [v]) s
        | .bad e a s => .bad e a s
        | .wait => .wait
      | .bad e a s => .bad e a s
      | .wait => .wait) (.ok [] s)
  | .sup c =>
    let s' := xlateNote s (hartCtx s h) va
    match translate s (hartCtx s h) .read va with
    | .error e => .bad e va s'
    | .ok pa => supWords s' c pa va n

/-- LD (R268, R210). -/
def execLd (core : CoreId) (op : MemOp) (s : State) : Out :=
  instrDo core (dispLen op.disp) (fun h s =>
    match effective s h op false with
    | none => illegal s
    | some (ea, na) =>
      (loadWords s h ea 1).run s fun v s => .next (setA (setD s h op.rt (v.getD 0 0)) h op.ab na)) s

/-- LDW (R268, R197). -/
def execLdw (core : CoreId) (op : MemOp) (s : State) : Out :=
  instrDo core (dispLen op.disp) (fun h s =>
    if 4 ≤ op.rt.val then illegal s
    else
      match effective s h op false with
      | none => illegal s
      | some (ea, na) =>
        if ea % 2 = 1 then illegal s
        else
          (loadWords s h ea 2).run s fun v s => .next (setA (setW s h op.rt (mkWide (v.getD 1 0) (v.getD 0 0))) h op.ab na)) s

/-! ### Stores (R210, R211, R268, R280) -/

/-- The words of a store buffer entry are held by the scope (R61, R280). -/
def holdWords (s : State) (k key : Nat) (vs : List Word) : State :=
  modPe s k fun p => { p with sb := vs.zipIdx.foldl (fun t e => tset (fun _ => none) t (key + e.2) (some e.1)) p.sb }

/-- The first store of a scope to a line asks for the line EXCLUSIVE, which makes nothing visible; where the home cannot give it yet, it is
asked for again at the commit point (R280, R323). -/
def askLine (s : State) (k key : Nat) : State :=
  if key < scratchKey ∧ !(scopeLines (getPe s k)).contains (key / 16) then ((lineForWrite s (peSpar k) (key / 16)).map (·.2)).getD s else s

/-- A store of a scope: held within its limits (R61, R64). -/
def peStore (s : State) (k key : Nat) (vs : List Word) (fin : State → State) : Res :=
  inScope s k (fun p => decide (16 ≤ (scopeLines p).length) && !(scopeLines p).contains (key / 16)) fun s =>
    .next (fin (holdWords (askLine s k key) k key vs))

/-- A supervisor's store: into its L2, which must own the line; or into the posted queue of a root port, whose answer may be an error
(R288, R298, R344). -/
def supStore (s : State) (c pa va : Nat) (vs : List Word) (fin : State → State) : Res :=
  match region s pa with
  | .device d o =>
    let e := takeFree { s with given := s.given ++ [.devWrite d o vs] }
    if wbit e.1 0 then .trap e.2 tBuserr 0 va else .next (fin e.2)
  | _ =>
    match lineForWrite s (256 + c) (pa / 16) with
    | none => .done s
    | some r =>
      let s := if backed s pa then fillSupL1d r.2 c (pa / 16) else r.2
      .next (fin (coreStores s c pa vs))

/-- A store of one or two words of one line by a hart; `fin` is what else the instruction writes. -/
def storeWords (s : State) (h : Hart) (va : Nat) (vs : List Word) (fin : State → State) : Res :=
  let s' := xlateNote s (hartCtx s h) va
  match h with
  | .pe k =>
    if isScratch va then
      (if scratchOk s k va then peStore s k (scratchKey + (va - scratchBase)) vs fin else .trap s tProt 0 va)
    else
      match translate s (hartCtx s h) .write va with
      | .error e => .trap s' e 0 va
      | .ok pa => peStore s' k pa vs fin
  | .sup c =>
    match translate s (hartCtx s h) .write va with
    | .error e => .trap s' e 0 va
    | .ok pa => supStore s' c pa va vs fin

/-- ST (R268). -/
def execSt (core : CoreId) (op : MemOp) (s : State) : Out :=
  instrDo core (dispLen op.disp) (fun h s =>
    match effective s h op false with
    | none => illegal s
    | some (ea, na) => storeWords s h ea [getD s h op.rt] fun s => setA s h op.ab na) s

/-- STW (R268, R197). -/
def execStw (core : CoreId) (op : MemOp) (s : State) : Out :=
  instrDo core (dispLen op.disp) (fun h s =>
    if 4 ≤ op.rt.val then illegal s
    else
      match effective s h op false with
      | none => illegal s
      | some (ea, na) =>
        if ea % 2 = 1 then illegal s
        else
          let v := getW s h op.rt
          storeWords s h ea [loHalf v, hiHalf v] fun s => setA s h op.ab na) s

/-! ### Reservations (R269, R290, R292) -/

/-- The agent number of a hart. -/
def agentOf : Hart → Nat
  | .pe k => k
  | .sup c => supAgent c

/-- The reservation of a hart. -/
def resvOf (s : State) (h : Hart) : Option Resv := s.resvs.find? fun r => r.agent == agentOf h

/-- The address of an atomic access translates: read, and write where `acc` asks for it; scratch is not reached (R310, R504). -/
def atomicAddr (s : State) (h : Hart) (acc : Acc) (va : Nat) : Except Nat Nat :=
  if scratchAt h va then .error tProt else translate s (hartCtx s h) acc va

/-- An atomic instruction after its commit point: `body` gets the address and what is left to do; a home that cannot serve it yet leaves the
instruction, its commit point included, to be issued again (R285, R292). -/
def atomicDo (s : State) (h : Hart) (acc : Acc) (ea : Nat) (body : Nat → State → Res) : Res :=
  match atomicPoint s h with
  | none => .done s
  | some t =>
    let u := hartNote t h ea
    match atomicAddr u h acc ea with
    | .error e => .trap u e 0 ea
    | .ok pa => body pa u

/-- The word that an atomic instruction reads in its own L2, or where its page is device space, from there (R269, R270, R298). -/
def atomicWord (s : State) (h : Hart) (pa va : Nat) : Got Word :=
  match region s pa with
  | .device d o =>
    match devLoad s d o va 1 with
    | .ok v s => .ok (v.getD 0 0) s
    | .bad e a s => .bad e a s
    | .wait => .wait
  | .unbacked => .bad tPoison va (noteRead s (hartDie h) pa)
  | _ => if l2Poisoned s (cacheOf h) pa then .bad tPoison va s else .ok (l2Word s (cacheOf h) pa) s

/-- An atomic instruction's write: into its own L2, or into the posted queue of a root port, which may answer with a bus error (R298,
R344). -/
def atomicStore (s : State) (h : Hart) (pa va : Nat) (v : Word) : Got Unit :=
  match region s pa with
  | .device d o =>
    let e := takeFree { s with given := s.given ++ [.devWrite d o [v]] }
    if wbit e.1 0 then .bad tBuserr va e.2 else .ok () e.2
  | _ => .ok () (coreStore s (hartDie h) (cacheOf h) pa v (match h with
    | .pe _ => none
    | .sup c => some c))

/-- The `lr` of an agent for a line may be served: no other agent's hold keeps the line, and no `lr` that came before it waits (R292). -/
def lrTurn (s : State) (agent la : Nat) : Bool :=
  !(s.resvs.any fun r => r.holding && r.line == 16 * la && r.agent != agent) &&
    (match s.lrQueue.find? fun q => q.2 == la with
    | some q => q.1 == agent
    | none => true)

/-- An `lr` that must wait takes its place in the order of arrival (R292). -/
def lrWaits (s : State) (agent la : Nat) : State :=
  if s.lrQueue.any fun q => q.1 == agent && q.2 == la then s
  else { s with lrQueue := s.lrQueue.filter (fun q => q.1 != agent) ++ [(agent, la)] }

/-- The core's L2 holds the line of an address EXCLUSIVE; device space has no line (R285, R292). -/
def ownLine (s : State) (h : Hart) (pa : Nat) : Option (Bool × State) :=
  match region s pa with
  | .device _ _ => some (false, s)
  | _ => lineForWrite s (cacheOf h) (pa / 16)

/-- LR (R269, R285, R292). -/
def execLr (core : CoreId) (op : MemOp) (s : State) : Out :=
  instrDo core (dispLen op.disp) (fun h s =>
    match effective s h op true with
    | none => illegal s
    | some (ea, _) =>
      let pc := hartPc s h
      atomicDo s h .read ea fun pa t =>
        if !lrTurn t (agentOf h) (pa / 16) then .done (lrWaits s (agentOf h) (pa / 16))
        else
          match ownLine t h pa with
          | none => .done (lrWaits s (agentOf h) (pa / 16))
          | some r =>
            (atomicWord r.2 h pa ea).run s fun v u =>
              let u := setD (dropResv u (agentOf h)) h op.rt v
              atomicDone { u with resvs := u.resvs ++ [⟨agentOf h, lineOf pa, true⟩] } h pc (dispLen op.disp)) s

/-- SC (R269). -/
def execSc (core : CoreId) (op : MemOp) (s : State) : Out :=
  instrDo core (dispLen op.disp) (fun h s =>
    match effective s h op true with
    | none => illegal s
    | some (ea, _) =>
      let pc := hartPc s h
      atomicDo s h .readWrite ea fun pa t =>
        let hit := match resvOf t h with
          | some r => r.line == lineOf pa
          | none => false
        if !hit then atomicDone (setD (dropResv t (agentOf h)) h op.rt 1) h pc (dispLen op.disp)
        else
          match ownLine t h pa with
          | none => .done s
          | some r =>
            (atomicStore (dropResv r.2 (agentOf h)) h pa ea (getD t h op.rt)).run s fun _ u =>
              atomicDone (setD u h op.rt 0) h pc (dispLen op.disp)) s

/-- The core behind a command that names one: it acts, and its hart. -/
def hartDo (core : CoreId) (f : Hart → State → State) (s : State) : Out :=
  match core with
  | .pe p => sparDo s p.die p.spar (f (.pe (peOf p)) s)
  | .sup p => unitDo s p.die (supLive s (supOf p)) (f (.sup (supOf p)) s)

/-- RESERVATION_TIMEOUT (R290). -/
def execReservationTimeout (core : CoreId) (s : State) : Out := hartDo core (fun h s => dropResv s (agentOf h)) s

/-- LR_HOLD_EXPIRE: the hold ends; the reservation stays until something takes the line (R292). -/
def execLrHoldExpire (core : CoreId) (s : State) : Out :=
  hartDo core (fun h s =>
    { s with resvs := s.resvs.map fun r => if r.agent = agentOf h then { r with holding := false } else r }) s

/-! ### Atomic memory operations (R270, R329 to R331) -/

/-- The counter of an address (R331). -/
def predictorIndex (wa : Nat) : Nat := fld wa 9 4 ^^^ fld wa 15 10

/-- The contention predictor of a hart after an atomic operation: `took` is what the home reports, that another cache had to give the line
up (R331). -/
def contention (s : State) (h : Hart) (pa : Nat) (took : Bool) : State :=
  let f (t : Tab Nat) : Tab Nat := tmod (fun _ => 0) t (predictorIndex pa) fun n => if took then min 3 (n + 1) else n - 1
  match h with
  | .pe k => modPe s k fun p => { p with predict := f p.predict }
  | .sup c => modSup s c fun x => { x with predict := f x.predict }

/-- The counter's value for an address. -/
def predictorCount (s : State) (h : Hart) (pa : Nat) : Nat :=
  match h with
  | .pe k => tget (fun _ => 0) (getPe s k).predict (predictorIndex pa)
  | .sup c => tget (fun _ => 0) (getSup s c).predict (predictorIndex pa)

/-- The operation runs far: by its placement, by `COH_AMOCTL.POLICY`, or by the predictor (R331). -/
def amoFar (s : State) (h : Hart) (place pa : Nat) : Bool :=
  match place with
  | 1 => false
  | 2 => true
  | _ =>
    match getF s (hartDie h) bCoh rCohAmoctl 1 0 with
    | 1 => false
    | 2 => true
    | _ => decide (2 ≤ predictorCount s h pa)

/-- The line of an atomic operation: for a near one the requester's L2 gets it EXCLUSIVE, for a far one no cache keeps a copy (R329,
R330); device space has no line. -/
def amoLine (s : State) (h : Hart) (far : Bool) (pa : Nat) : Option (Bool × State) :=
  if !backed s pa then some (false, s)
  else if far then homeNow s (pa / 16) (reqOf .amoFar (cacheId (cacheOf h)))
  else lineForWrite s (cacheOf h) (pa / 16)

/-- What an atomic operation does once its line is where it is performed: on the LLC copy for a far one, in the requester's L2 for a near
one (R329, R330). -/
def amoDo (s : State) (h : Hart) (far : Bool) (pa ea : Nat) (f : Word → Option Word) (fin : Word → State → Res) : Res :=
  if far && backed s pa then
    if isPoisoned s pa then .trap s tPoison 0 ea
    else
      match f (peek s pa) with
      | none => illegal s
      | some v => fin (peek s pa) (poke s pa v)
  else
    (atomicWord s h pa ea).run s fun old u =>
      match f old with
      | none => illegal u
      | some v => (atomicStore u h pa ea v).run s fun _ u => fin old u

/-- AMO (R270). -/
def execAmo (core : CoreId) (rd rs1 rs2 : Nat) (fn : BitVec 9) (s : State) : Out :=
  instrDo core 2 (fun h s =>
    let place := fld fn.toNat 8 7
    let op := fld fn.toNat 3 0
    if place = 3 ∨ fld fn.toNat 6 4 ≠ 0 ∨ 9 < op ∨ 16 ≤ rs1 then illegal s
    else
      let pc := hartPc s h
      let ea := getA s h rs1
      atomicDo s h .readWrite ea fun pa t =>
        let far := amoFar t h place pa
        match amoLine t h far pa with
        | none => .done s
        | some r =>
          amoDo r.2 h far pa ea (fun old => amoResult op old (getD t h rs2) (getD t h rd))
            (fun old u => atomicDone (setD (contention u h pa r.1) h rd old) h pc 2)) s

end Sys2Proof.Machine
end

