-- ==== Sys2Proof/Machine/Coherence.lean ====
section
/-! DEFINITION. The commands at the homes of lines: requests, memory data, snoops and their answers, patrol scrub, and the L1D
invalidation (spec 09: R295, R296; 10: R315, R318 to R324, R328). -/

namespace Sys2Proof.Machine

/-- The snoops of a pass leave the home: one to each cache of its die, and two round the ring where other dies are asked (R321, R322). What
counts as the answer of a die that failed links have cut off, and so withdrawn, is found where its snoop would be (R540, R542). -/
def sendSnoops (s : State) (la : Nat) (inv : Bool) (ts : List Nat) : State :=
  let h := homeDie la
  let here := ts.filter fun t => decide (t < 1000)
  let s := { s with snoops := s.snoops ++ here.map fun t => ⟨la, t, inv, 0, 0, true⟩ }
  if ts.all fun t => decide (t < 1000) then s
  else
    let n := nDies s.part
    let cut := (List.range (n - 1 - ringReach s h 0 - ringReach s h 1)).map fun j => (h + ringReach s h 0 + 1 + j) % n
    let s := { s with snoops := s.snoops ++ cut.map fun d => ⟨la, 1000 + d, inv, 0, 0, true⟩ }
    [0, 1].foldl (fun s k =>
      if ringReach s h k = 0 then s
      else sendRing s h k ⟨la, 1000 + (linkPeer s h k).1, inv, k, ringReach s h k - 1, false⟩) s

/-! ### Requests (R318, R321, R323) -/

/-- A request on a line that its slice holds: performed at once, or behind its snoops (R321). -/
def takeHeld (s : State) (la : Nat) (l : HomeLine) (r : HomeReq) : State :=
  match r.kind with
  | .wb => perform s la l r false
  | _ =>
    let s := useLine s la
    let l := (llcLine s la).getD l
    let ts := if needsSnoop s la l r (freeHint s la r) then snoopTargets s la l (notAsked s la r) else []
    if ts.isEmpty then perform s la l r false
    else sendSnoops (setTx s la (some ⟨.snooping, some r, ts, []⟩)) la (snoopInv r.kind) ts

/-- The write names every byte of the line, so that it needs no memory read (R332). -/
def wholeLine (r : HomeReq) : Bool := (r.kind == .devWr || r.kind == .devWrH) && r.mask == BitVec.allOnes 128

/-- A request on an absent line whose way is free: a memory read, or for a whole-line write the line at once (R321, R332). -/
def readLine (s : State) (la : Nat) (r : HomeReq) (q : List HomeJob) : State :=
  if wholeLine r then
    let s := installLine (setTx s la none) la
    takeHeld s la ((llcLine s la).getD ⟨0, 0, false, false, 0⟩) r
  else setTx s la (some ⟨.memread, some r, [], q⟩)

/-- A request on an absent line: a victim of a full set is cleared first, by an invalidating pass where it has holders (R318, R321). -/
def takeAbsent (s : State) (la : Nat) (r : HomeReq) (q : List HomeJob) : State :=
  match wayFor s la with
  | .room => readLine s la r q
  | .busy => setTx s la (some ⟨.way, some r, [], q⟩)
  | .victim v =>
    match llcLine s v with
    | none => readLine s la r q
    | some l =>
      let ts := snoopTargets s v l none
      if ts.isEmpty then readLine (setLlc s v none) la r q
      else sendSnoops (setTx (setTx s la (some ⟨.way, some r, [], q⟩)) v (some ⟨.evicting, none, ts, []⟩)) v true ts

/-- A home with no transaction on the line takes a request (R321). -/
def takeReq (s : State) (la : Nat) (r : HomeReq) : State :=
  match llcLine s la with
  | some l => takeHeld s la l r
  | none =>
    match r.kind with
    | .wb => count s (homeDie la) bCoh rCohLatecnt
    | _ => takeAbsent s la r []

/-- A request enters a home: behind a transaction on its line, or at once; the input queue has let it through (R321, R323). -/
def enterHome (s : State) (la : Nat) (r : HomeReq) : State :=
  match homeTx s la with
  | some t => setTx s la (some { t with queue := t.queue ++ [.req r] })
  | none => takeReq s la r

/-- A request arrives at its slice: in the input queue while others wait there or 64 transactions run (R321, R323). -/
def arrive (s : State) (la : Nat) (r : HomeReq) : State :=
  let sl := homeSlice s la
  if !(sliceWait s sl).isEmpty || (homeTx s la).isNone && decide (64 ≤ sliceBusy s sl) then setWait s sl (sliceWait s sl ++ [(la, r)])
  else enterHome s la r

/-- What waited behind a transaction goes on in its order (R321, R323). -/
def enterJob (s : State) (la : Nat) : HomeJob → State
  | .req r => enterHome s la r
  | .scrub c =>
    match homeTx s la with
    | some t => setTx s la (some { t with queue := t.queue ++ [.scrub c] })
    | none => scrubRead s la c

/-- A slice's input queue moves while transactions are free, first in first out (R321). -/
def drainSlice (sl : Nat) : Nat → State → State
  | 0, s => s
  | n + 1, s =>
    match sliceWait s sl with
    | [] => s
    | (la, r) :: rest =>
      if (homeTx s la).isNone && decide (64 ≤ sliceBusy s sl) then s
      else drainSlice sl n (enterHome (setWait s sl rest) la r)

/-- The absent lines of a slice that wait for a way are tried again (R318). -/
def drainWays (s : State) (sl : Nat) : State :=
  (s.homeTx.filter fun e => homeSlice s e.1 == sl).foldl (fun s e =>
    match homeTx s e.1 with
    | some t =>
      match t.phase, t.req with
      | .way, some r => takeAbsent (setTx s e.1 none) e.1 r t.queue
      | _, _ => s
    | none => s) s

/-- Accesses of one agent that must keep their order: a later one goes to its home when the earlier writes of the same agent have been
performed (R295, R296). -/
def postedReady (ps : List Posted) (i : Nat) : Bool :=
  match ps[i]? with
  | none => false
  | some p => !p.sent && !(ps.take i).any fun q => q.req.id == p.req.id && q.req.kind != .devRd

/-- The accesses that root ports and units hold go to their homes as their order allows. -/
def pumpPosted : Nat → State → State
  | 0, s => s
  | n + 1, s =>
    match firstBelow s.posted.length fun i => postedReady s.posted i with
    | none => s
    | some i =>
      match s.posted[i]? with
      | none => s
      | some p =>
        pumpPosted n (donePosted (arrive { s with posted := s.posted.set i { p with sent := true } } p.line p.req))
where
  /-- Accesses that their homes have performed leave the list: nothing of a home holds them any more. -/
  donePosted (s : State) : State :=
    { s with posted := s.posted.filter fun p => !p.sent || (s.homeTx.any fun e =>
        e.1 == p.line && (e.2.any fun t => t.req == some p.req || t.queue.contains (.req p.req))) ||
      (s.sliceQ.any fun e => e.2.contains (p.line, p.req)) }

/-- What follows when homes have moved: ways, input queues, and the order of the agents' accesses. -/
def settleHome (s : State) (la : Nat) : State :=
  let sl := homeSlice s la
  let s := drainSlice sl ((sliceWait s sl).length) (drainWays s sl)
  pumpPosted (s.posted.length + 1) (pumpPosted.donePosted s)

/-- A transaction has ended: what waited on its line goes on, then the slice (R321). -/
def drainHome (s : State) (la : Nat) (q : List HomeJob) : State := settleHome (q.foldl (fun s j => enterJob s la j) s) la

/-- The home's slice acts: its die is live and its COH block enabled. -/
def homeLive (s : State) (la : Nat) : Bool := dieLive s (homeDie la) && blkEn s (homeDie la) bCoh

/-- A command at the home of a line. -/
def homeDo (s : State) (la : Nat) (t : State) : Out := unitDo s (homeDie la) (homeLive s la) t

/-- The agent's accesses keep their order: those of devices and of units that keep no copy, besides channel engines (R295 to R297). -/
def ordered : AgentId → Bool
  | .pe _ => false
  | .sup _ => false
  | .engine _ _ => false
  | .unit _ _ _ => true
  | .function _ _ => true

/-- A request reaches its home (R295, R296, R321). -/
def homeRequest (s : State) (la : Nat) (r : HomeReq) : State :=
  if ordered r.id then settleHome { s with posted := s.posted ++ [⟨la, r, false⟩] } la else settleHome (arrive s la r) la

/-- A read of a line that nothing backs is answered with 16 poisoned words; a write of one is discarded (R303). -/
def unbackedReply (s : State) (la : Nat) (r : HomeReq) : State :=
  match r.kind with
  | .wb => s
  | .devWr => s
  | .devWrH => s
  | _ => homeReply s r la (peeks s (16 * la) 16) (linePsn s la)

/-- HOME_REQUEST (R319, R321), which comes over the links in slots of the coherence class (R27, R28). Device space is not cached, and has no
home; a request for a line that nothing backs, whatever die it names, is counted at its requester, and a read of it gives 16 poisoned words
(R302, R303). -/
def execHomeRequest (line : BitVec 45) (req : HomeReq) (s : State) : Out :=
  let la := line.toNat
  match region s (16 * la) with
  | .unbacked => .next (if dieLive s (idDie req.id) then unbackedReply (unbacked s (idDie req.id) (16 * la)) la req else s)
  | .device _ _ => .next s
  | _ => homeDo s la ((cohCross s (idDie req.id) (homeDie la)).elim s fun s => homeRequest s la req)

/-- MEMREAD_DATA: the line is installed and the request evaluated again (R321). -/
def memreadData (s : State) (la : Nat) (check : MemCheck) : State :=
  match homeTx s la with
  | some t =>
    match t.phase, t.req with
    | .memread, some r =>
      let s := installLine (setTx (lineRead s la check) la none) la
      drainHome (takeHeld s la ((llcLine s la).getD ⟨0, 0, false, false, 0⟩) r) la t.queue
    | _, _ => s
  | none => s

/-- MEMREAD_DATA (R321). -/
def execMemreadData (line : BitVec 45) (check : MemCheck) (s : State) : Out :=
  homeDo s line.toNat (memreadData s line.toNat check)

/-! ### Snoops (R320, R322, R323) -/

/-- A ring snoop is passed on by the die that it visits, before its own lookup (R322). -/
def passOn (s : State) (k : Nat) (n : Snoop) : State :=
  let d := n.dest - 1000
  let p := linkPeer s d (1 - n.link)
  let s := slotUsed s p.1 n.link .coherence
  let s := ringCredit { s with snoops := s.snoops.set k { n with passed := true } } p.1 n.link
  if n.left = 0 then s else sendRing s d n.link { n with dest := 1000 + (linkPeer s d n.link).1, left := n.left - 1 }

/-- A snoop is looked up at its cache or die, and its answer starts its way (R320). -/
def lookup (s : State) (k : Nat) (n : Snoop) : State :=
  let d := destDie n.dest
  if !(getDie s d).withdrawn && !dieLive s d || destHeld s n.line n.dest && !(getDie s d).withdrawn || s.fatal then s
  else
    let r := snoopOne { s with snoops := dropAt s.snoops k } n.dest n.line n.inv
    if r.1 = 4 then r.2 else { r.2 with answers := s.answers ++ [⟨n.line, n.dest, r.1⟩] }

/-- A snoop arrives (R320, R322). -/
def snoopReceive (s : State) (k : Nat) : State :=
  match s.snoops[k]? with
  | none => s
  | some n =>
    if n.passed then lookup s k n
    else if linkGrants s (linkPeer s (n.dest - 1000) (1 - n.link)).1 n.link .coherence then
      lookup (passOn s k n) k { n with passed := true }
    else s

/-- SNOOP_RECEIVE (R320). -/
def execSnoopReceive (snoop : Nat) (s : State) : Out := .next (strmSettle (snoopReceive s snoop))

/-- A pass is over, and `l` is the home line as it leaves it: the request is performed, or the victim is gone (R318, R321). -/
def endPass (s : State) (la : Nat) (t : HomeTx) (l : HomeLine) : State :=
  let s := setTx s la none
  match t.req with
  | some r => drainHome (perform (setLlc s la (some l)) la l r false) la t.queue
  | none => drainHome (setLlc s la none) la t.queue

/-- The pass on a line sends SNP_INV. -/
def txInv (t : HomeTx) : Bool := t.req.all fun r => snoopInv r.kind

/-- A pass of snoops runs. -/
def inPass (t : HomeTx) : Bool := t.phase == .snooping || t.phase == .evicting

/-- SNOOP_TIMEOUT: the line is poisoned, no holder is tracked, and the request is completed (R324). -/
def snoopTimeout (s : State) (la : Nat) : State :=
  match homeTx s la with
  | some t =>
    if inPass t then
      let s := passLate (dropSnoops s la) la t.due
      match llcLine s la with
      | some l => endPass s la t { l with hs := 0, pres := 0, remote := false }
      | none => drainHome (setTx s la none) la t.queue
    else s
  | none => s

/-- A home takes a snoop answer (R321), which has come by the route of R115 in slots of the coherence class (R322); one that it does not wait
for is counted and discarded, and one of a withdrawn die that owned the line poisons it (R542). Under an armed PERTURB the slice treats the
snoop as unanswered until its timer has expired (R546). -/
def snoopAnswer (s : State) (k : Nat) : State :=
  match s.answers[k]? with
  | none => s
  | some a =>
    match (if (getDie s (destDie a.src)).withdrawn then some s else cohCross s (destDie a.src) (homeDie a.line)) with
    | none => s
    | some s =>
    let s := { s with answers := dropAt s.answers k }
    if !homeLive s a.line then s
    else
      match homeTx s a.line with
      | some t =>
        if (armed s (homeDie a.line) 0x0303 bCoh (sliceHash a.line) 3).isSome then s
        else if inPass t && t.due.contains a.src then
          if a.kind = 3 then snoopTimeout s a.line
          else
            let l := (llcLine s a.line).getD ⟨0, 0, false, false, 0⟩
            let l := if a.kind = 2 then { l with dirty := true } else l
            let s := setLlc s a.line (some l)
            let t := { t with due := t.due.erase a.src }
            if t.due.isEmpty then endPass s a.line t (afterPass l (txInv t)) else setTx s a.line (some t)
        else count s (homeDie a.line) bCoh rCohLatecnt
      | none => count s (homeDie a.line) bCoh rCohLatecnt

/-- SNOOP_ANSWER (R321). -/
def execSnoopAnswer (answer : Nat) (s : State) : Out := .next (snoopAnswer s answer)

/-- SNOOP_TIMEOUT (R324). -/
def execSnoopTimeout (line : BitVec 45) (s : State) : Out := homeDo s line.toNat (snoopTimeout s line.toNat)

/-- PATROL_SCRUB_READ: a line of a populated channel, in its order with the other requests for it (R328). -/
def execPatrolScrubRead (line : BitVec 45) (check : LineCheck) (s : State) : Out :=
  let la := line.toNat
  let d := homeDie la
  let dram := match region s (16 * la) with
    | .dram _ _ => true
    | _ => false
  unitDo s d (dieLive s d && blkEn s d bMem && getF s d bMem rMemScrub 31 31 == 1 && dram) (enterJob s la (.scrub check))

/-- L1D_INVALIDATE (R315). -/
def l1dInvalidate (s : State) (g : Nat) : State :=
  let en := regStored s (g / 32) (bClu (g % 32)) rCluL1ctl
  let s := if cmdRuns s (g / 32) (bClu (g % 32)) rCluL1ctl 0 then s else cmdBegin s (g / 32) (bClu (g % 32)) rCluL1ctl 0
  (List.range 9).foldl (fun s p => if bitOf en p then s else modPe s (peKey g p) fun x => { x with l1d := [] }) s

/-- L1D_INVALIDATE (R315). -/
def execL1dInvalidate (die spar : Nat) (s : State) : Out :=
  regDo s die (0x20 + spar) rCluL1ctl (dieLive s die && !(getSpar s (gspar die spar)).gated) (l1dInvalidate s (gspar die spar))

end Sys2Proof.Machine
end

