-- ==== Sys2Proof/Machine/Dataflow.lean ====
section
/-! DEFINITION. Tokens, fetches, frames, exchange issue and work-item posts (spec 02: R39, R40, R54 to R57, R70, R71; 04: R142,
R143; 05: R173, R175; 08: R271 to R274; 12: R367, R368). -/

namespace Sys2Proof.Machine

/-- The running instance of a PE; a PE that issues has one. -/
def instOfPe (s : State) (k : Nat) (f : Inst → Res) : Res :=
  match (getPe s k).inst with
  | some i => f i
  | none => .done s

/-- A tag operand with the issuing partition in place of its own (R40). -/
def ownTag (part : Nat) (t : Word) : Word := wput t 63 54 part

/-- `send` gives a tag of `PRIO` 0 the priority 1 (R39). -/
def raisePrio (t : Word) : Word := if tagPrio t = 0 then wput t 1 0 1 else t

/-- A token instruction (R271): `urgent` for `sendp`, `signal` for the `.sig` forms. -/
def sendOp (rd rs1 rs2 : Nat) (urgent signal : Bool) : Hart → State → Res :=
  codeletOnly fun k s => instOfPe s k fun i =>
    if rd ≠ 0 ∨ (signal ∧ rs2 ≠ 0) then illegal s
    else
      let t := ownTag i.part (getD s (.pe k) rs1)
      let t := if urgent then wput t 1 0 0 else raisePrio t
      let v := if signal then 0 else getD s (.pe k) rs2
      holdOut s k (.flit (homeToken s (uSpar (peSpar k)) (if signal then kSignal else kValue) t v))

/-- SEND (R271, R39). -/
def execSend (core : CoreId) (rd rs1 rs2 : Nat) (s : State) : Out := instrDo core 2 (sendOp rd rs1 rs2 false false) s
/-- SEND_SIG (R271). -/
def execSendSig (core : CoreId) (rd rs1 rs2 : Nat) (s : State) : Out := instrDo core 2 (sendOp rd rs1 rs2 false true) s
/-- SENDP (R271, R39). -/
def execSendp (core : CoreId) (rd rs1 rs2 : Nat) (s : State) : Out := instrDo core 2 (sendOp rd rs1 rs2 true false) s
/-- SENDP_SIG (R271). -/
def execSendpSig (core : CoreId) (rd rs1 rs2 : Nat) (s : State) : Out := instrDo core 2 (sendOp rd rs1 rs2 true true) s

/-- The words of a fetch, each translated and checked: the first that fails, or all with their physical addresses (R71). -/
def fetchWords (s : State) (h : Hart) : List Nat → Except (Nat × Nat) (List (Nat × Nat))
  | [] => .ok []
  | va :: vs =>
    match atomicAddr s h .read va with
    | .error e => .error (e, va)
    | .ok pa =>
      match fetchWords s h vs with
      | .error e => .error e
      | .ok l => .ok ((va, pa) :: l)

/-- FETCH (R70, R71). DESIGN CHOICE (log 141): a port above 7 raises ILLEGAL before any word is translated. -/
def execFetch (core : CoreId) (rd rs1 rs2 : Nat) (n : Nat) (s : State) : Out :=
  instrDo core 2 (codeletOnly fun k s => instOfPe s k fun i =>
    let h := Hart.pe k
    let tag := raisePrio (ownTag i.part (getD s h rs2))
    if rd ≠ 0 ∨ 16 ≤ rs1 ∨ 7 < tagPort tag + n then illegal s
    else
      let vas := (List.range (n + 1)).map fun j : Nat => addA (getA s h rs1) (Int.ofNat j)
      let s' := vas.foldl (fun s va => hartNote s h va) s
      match fetchWords s h vas with
      | .error (e, va) => .trap s' e 0 va
      | .ok ws => holdOut s' k (.fetch i.part ws tag)) s

/-! ### Frames -/

/-- Body word 0 of a frame that the scope takes holds the user word: a word that the scope has already stored there gives way to it, and its
line stays one of the scope's lines (R54, R64). -/
def retake (sb : Tab (Option Word)) (pa : Nat) (user : Word) : Tab (Option Word) :=
  if (tget (fun _ => none) sb pa).isSome then tset (fun _ => none) sb pa (some user) else sb

/-- FALLOC (R54, R55, R677). -/
def execFalloc (core : CoreId) (rd rs1 rs2 : Nat) (s : State) : Out :=
  instrDo core 2 (codeletOnly fun k s => instOfPe s k fun i =>
    let h := Hart.pe k
    let d := peDie k
    let s := allocNote s (uSpar (peSpar k)) i.part i.asid
    let fail (s : State) (closed : Bool) : Res := .next (setD (countAllocFail s d i.part closed) h rd 0)
    match tryAlloc s (uSpar (peSpar k)) i.part i.asid with
    | .empty => fail s false
    | .closed => fail s true
    | .lost hw a => fail (allocLost s d i.part hw a) false
    | .fault e body => .trap s e 0 body
    | .got f hw pa =>
      let t : Taken := ⟨f, wfld (getD s h rs1) 48 0, i.asid, getD s h rs2, pa⟩
      let s := modHw s i.part fun _ => hw
      let s := modPe s k fun p => { p with taken := t :: p.taken, sb := retake p.sb pa t.user }
      .next (setD s h rd (tagBase s d i.part f))) s

/-- A gate exists for the issuing partition (R173). -/
def gateOk (s : State) (d part gate : Nat) : Bool := gateExists s d part gate

/-- FALLOC_G (R173, R271). -/
def execFallocG (core : CoreId) (rd rs1 rs2 : Nat) (s : State) : Out :=
  instrDo core 2 (codeletOnly fun k s => instOfPe s k fun i =>
    let h := Hart.pe k
    let x := getD s h rs1
    let g := wfld x 60 49
    if !gateOk s (peDie k) i.part g then illegal s
    else
      .next (modPe s k fun p =>
        { p with gates := p.gates ++ [⟨false, i.part, g, getD s h rd, i.asid, wfld x 48 0, getD s h rs2⟩] })) s

/-- The frame of a tag may be freed by the scope (R57, R273): LIVE, or taken in this scope, owned, at the operand's generation,
and not named by an earlier free of the scope. -/
def mayFree (s : State) (k : Nat) (i : Inst) (tag : Word) : Bool :=
  let d := peDie k
  let f := tagFrame tag
  let p := getPe s k
  (frState s d f == fsLive || p.taken.any (·.frame == f)) && frPart s d f == i.part && frGen s d f == tagGen tag
    && !(p.frees.any (·.1 == f))

/-- A frame is freed at the commit point, with or without a gate (R57, R175), once its descriptor has been read (R306); a poisoned word of
it is counted, and shows no frame that could be freed (R326). -/
def freeOp (k : Nat) (i : Inst) (rs1 : Nat) (gate : Option Nat) (s : State) : Res :=
  let tag := getD s (.pe k) rs1
  let a := descAddr s (peDie k) (tagFrame tag)
  let s := unitRead s (peDie k) a 1
  if isPoisoned s a then .trap (hwPoison s (peDie k) a) tFrame 0 0
  else if mayFree s k i tag then .next (modPe s k fun p => { p with frees := p.frees ++ [(tagFrame tag, tagGen tag, gate)] })
  else .trap s tFrame 0 0

/-- FFREE (R57, R273). -/
def execFfree (core : CoreId) (rd rs1 rs2 : Nat) (s : State) : Out :=
  instrDo core 2 (codeletOnly fun k s => instOfPe s k fun i =>
    if rd ≠ 0 ∨ rs2 ≠ 0 then illegal s else freeOp k i rs1 none s) s

/-- FFREE_G (R175, R273). DESIGN CHOICE (log 141): a gate number out of range raises ILLEGAL before FRAME is judged. -/
def execFfreeG (core : CoreId) (rd rs1 rs2 : Nat) (s : State) : Out :=
  instrDo core 2 (codeletOnly fun k s => instOfPe s k fun i =>
    let g := wfld (getD s (.pe k) rs2) 11 0
    if rd ≠ 0 ∨ !gateOk s (peDie k) i.part g then illegal s else freeOp k i rs1 (some g) s) s

/-! ### Exchange issue (R272, R367, R368) -/

/-- The engine that `CHN_ISSMAP` gives spar `n` of a die, or its logical core `n` - 32 (R368, R391). -/
def issEngine (s : State) (die n : Nat) : Nat := getF s die bChn (rChnIssmap + n / 8) (4 * (n % 8) + 3) (4 * (n % 8))

/-- The exchange-issue flit (R92, R367). -/
def issueFlit (die eng : Nat) (tag : Word) (sup : Bool) (pl asid pa : Nat) : Flit :=
  ⟨mkRoute 0 2 die eng, 0, tag, w64 (b2n sup * 2 ^ 63 + pl % 4 * 2 ^ 61 + asid % 64 * 2 ^ 54 + pa)⟩

/-- XISSUE (R272); a core with 16 issue flits that no intake has taken waits (R431). -/
def execXissue (core : CoreId) (rd rs1 rs2 : Nat) (s : State) : Out :=
  instrDo core 2 (fun h s =>
    if rd ≠ 0 ∨ 16 ≤ rs1 then illegal s
    else
      let va := getA s h rs1
      let tag := ownTag (hartPart s h) (getD s h rs2)
      let s' := hartNote s h va
      match atomicAddr s h .read va with
      | .error e => .trap s' e 0 va
      | .ok pa =>
        match h with
        | .pe k =>
          holdOut s' k (.flit (issueFlit (peDie k) (issEngine s (peDie k) (peSpar k % 32)) tag false 0 (hartAsid s h) pa))
        | .sup c =>
          let e := issEngine s (c / 8) (32 + c % 8)
          let f := issueFlit (c / 8) e tag true (levelOf s c) (hartAsid s h) pa
          if 16 ≤ (s.supIssues.filter fun x => x.2 == c).length then .done s
          else .next (inject { s' with supIssues := s'.supIssues ++ [(16 * (c / 8) + e, c)] } (c / 8) (34 + e / 4) .unit f)) s

/-! ### Work items (R142, R143, R274) -/

/-- The round robin of a posting hart. -/
def postRr (s : State) : Hart → Nat
  | .pe k => (getPe s k).post
  | .sup c => (getSup s c).post
def setPostRr (s : State) (h : Hart) (v : Nat) : State :=
  match h with
  | .pe k => modPe s k fun p => { p with post := v }
  | .sup c => modSup s c fun x => { x with post := v }

/-- The reader of the partition tables that serves a hart: a PE's spar, a supervisor core's die. -/
def hartUnit : Hart → Nat
  | .pe k => uSpar (peSpar k)
  | .sup c => c / 8

/-- WQPOST (R142, R143, R274). DESIGN CHOICE (log 123): the round robin of a PE's members moves when the instruction executes, and a scope
that is discarded does not move it back; a supervisor core's moves also where the ring is full. -/
def execWqpost (core : CoreId) (wd ws rs1 rs2 : Nat) (fn : BitVec 10) (s : State) : Out :=
  instrDo core 2 (fun h s =>
    let u := hartUnit h
    let part := hartPart s h
    if rs2 ≠ 0 ∨ fld fn.toNat 9 8 ≠ 0 ∨ !(ptValid s u .pst part && pstIv s u part) then illegal s
    else
      let a := getW s h ws
      let b := getW s h wd
      let m := postMember s u part (fld fn.toNat 7 0) (postRr s h) (hiHalf a)
      let g := pstItemBase s u part + m.1
      match h with
      | .pe k =>
        match holdOut s k (.post part (hartAsid s h) g (loHalf a) (hiHalf a) (loHalf b) (hiHalf b)) with
        | .next s => .next (setD (setPostRr s h m.2) h rs1 0)
        | r => r
      | .sup _ =>
        let s := setPostRr s h m.2
        let r := tryPost s u part (hartAsid s h) g (loHalf a) (hiHalf a) (loHalf b) (hiHalf b)
        .next (setD r.2 h rs1 (if r.1 = .done then 0 else 1))) s

end Sys2Proof.Machine
end

