-- ==== Sys2Proof/Machine/Hashes.lean ====
section
/-! DEFINITION. The hash functions and checks that the spec names by standard: SHA-2 (FIPS 180-4), SHA-3 (FIPS 202), HMAC
(FIPS 198-1), CRC-32C (R463), CRC-32 and Adler-32 (R461), on lists of bytes. -/

namespace Sys2Proof.Machine

/-- The big-endian number that bytes spell. -/
def beNat (l : List Nat) : Nat := l.foldl (fun a b => a * 256 + b % 256) 0
/-- The `n` bytes of a number, most significant first. -/
def beBytes (n v : Nat) : List Nat := ((List.range n).map fun i => v / 2 ^ (8 * i) % 256).reverse
/-- The little-endian number that bytes spell. -/
@[irreducible] def leNat (l : List Nat) : Nat := l.foldr (fun b a => a * 256 + b % 256) 0
/-- The `n` bytes of a number, least significant first. -/
def leBytes (n v : Nat) : List Nat := (List.range n).map fun i => v / 2 ^ (8 * i) % 256
/-- The parts of a list of `n` elements each, the last one maybe shorter. -/
def chunks {α : Type} (n : Nat) (l : List α) : List (List α) :=
  (List.range ((l.length + n - 1) / n)).map fun i => (l.drop (n * i)).take n
/-- Bytewise exclusive-or, as long as the shorter list. -/
def xorBytes (a b : List Nat) : List Nat := List.zipWith (· ^^^ ·) a b

/-- The largest `r` below 2^bits with `r ^ k ≤ v`. -/
def intRoot (k v : Nat) : Nat → Nat → Nat
  | 0, r => r
  | bits + 1, r => intRoot k v bits (if (r + 2 ^ bits) ^ k ≤ v then r + 2 ^ bits else r)

/-- A prime. -/
def isPrime (n : Nat) : Bool := decide (2 ≤ n) && (List.range n).all fun d => d < 2 || n % d != 0
/-- The primes of which the SHA-2 constants are roots. -/
def primes : List Nat := ((List.range 420).filter isPrime).take 80

/-! ### SHA-2 -/

/-- The parameters of a SHA-2 function: word size, rounds and the rotations of its four functions. -/
structure Sha2 where
  w : Nat
  rounds : Nat
  /-- rotations of Σ0 and Σ1, and rotations and shift of σ0 and σ1 -/
  rot : List (List Nat)
  init : List Nat
  out : Nat
  deriving DecidableEq, Repr

/-- Fractional bits of the square roots of primes. -/
def sqrtFrac (w : Nat) (ps : List Nat) : List Nat := ps.map fun p => intRoot 2 (p * 2 ^ (2 * w)) (w + 8) 0 % 2 ^ w
/-- Fractional bits of the cube roots of primes. -/
def cbrtFrac (w : Nat) (ps : List Nat) : List Nat := ps.map fun p => intRoot 3 (p * 2 ^ (3 * w)) (w + 8) 0 % 2 ^ w

def rot256 : List (List Nat) := [[2, 13, 22], [6, 11, 25], [7, 18, 3], [17, 19, 10]]
def rot512 : List (List Nat) := [[28, 34, 39], [14, 18, 41], [1, 8, 7], [19, 61, 6]]
def sha256 : Sha2 := ⟨32, 64, rot256, sqrtFrac 32 (primes.take 8), 32⟩
def sha384 : Sha2 := ⟨64, 80, rot512, sqrtFrac 64 ((primes.drop 8).take 8), 48⟩
def sha512 : Sha2 := ⟨64, 80, rot512, sqrtFrac 64 (primes.take 8), 64⟩

/-- Right rotation of a `w`-bit word. -/
def rotr (w v k : Nat) : Nat := rotl w v (w - k)

/-- Exclusive-or of two rotations and either a third rotation or a shift. -/
def shaMix (p : Sha2) (i x : Nat) (shift : Bool) : Nat :=
  let r := p.rot.getD i []
  rotr p.w x (r.getD 0 0) ^^^ rotr p.w x (r.getD 1 0) ^^^ (if shift then x / 2 ^ r.getD 2 0 else rotr p.w x (r.getD 2 0))

/-- The message schedule of a block, newest word first. -/
def shaSchedule (p : Sha2) : Nat → List Nat → List Nat
  | 0, l => l
  | n + 1, l =>
    let x := shaMix p 3 (l.getD 1 0) true + l.getD 6 0 + shaMix p 2 (l.getD 14 0) true + l.getD 15 0
    shaSchedule p n (x % 2 ^ p.w :: l)

/-- One round on the eight working variables. -/
def shaRound (p : Sha2) (v : List Nat) (kw : Nat × Nat) : List Nat :=
  let g := fun i => v.getD i 0
  let m := 2 ^ p.w
  let ch := (g 4 &&& g 5) ^^^ ((m - 1 - g 4) &&& g 6)
  let maj := (g 0 &&& g 1) ^^^ (g 0 &&& g 2) ^^^ (g 1 &&& g 2)
  let t1 := g 7 + shaMix p 1 (g 4) false + ch + kw.1 + kw.2
  let t2 := shaMix p 0 (g 0) false + maj
  [(t1 + t2) % m, g 0, g 1, g 2, (g 3 + t1) % m, g 4, g 5, g 6]

/-- A block is taken into the hash value. -/
def shaBlock (p : Sha2) (ks : List Nat) (h : List Nat) (b : List Nat) : List Nat :=
  let ws := (chunks (p.w / 8) b).map beNat
  let sched := (shaSchedule p (p.rounds - 16) ws.reverse).reverse
  let v := (ks.zip sched).foldl (shaRound p) h
  List.zipWith (fun a b => (a + b) % 2 ^ p.w) h v

/-- A SHA-2 digest. -/
def sha2 (p : Sha2) (msg : List Nat) : List Nat :=
  let bl := p.w * 2
  let pad := (bl - (msg.length + 1 + p.w / 4) % bl) % bl
  let m := msg ++ [0x80] ++ List.replicate pad 0 ++ beBytes (p.w / 4) (8 * msg.length)
  let ks := cbrtFrac p.w (primes.take p.rounds)
  (((chunks bl m).foldl (shaBlock p ks) p.init).flatMap (beBytes (p.w / 8))).take p.out

/-! ### SHA-3 -/

/-- Keccak's rotation offsets, by lane x + 5 y: the walk of FIPS 202, lane by lane. -/
def rhoOffsets : Nat → Nat → Nat → Nat → List (Nat × Nat)
  | 0, _, _, _ => []
  | n + 1, t, x, y => (x + 5 * y, (t + 1) * (t + 2) / 2 % 64) :: rhoOffsets n (t + 1) y ((2 * x + 3 * y) % 5)

/-- The bit `rc(t)` of FIPS 202. -/
def keccakRc : Nat → Nat → Bool
  | 0, r => bitOf r 0
  | t + 1, r => keccakRc t (if r < 128 then 2 * r else (2 * r) ^^^ 0x171)

/-- The round constant of a round. -/
def roundConst (i : Nat) : Nat := ((List.range 7).map fun j => b2n (keccakRc ((7 * i + j) % 255) 1) * 2 ^ (2 ^ j - 1)).sum

/-- The step χ for one lane: it mixes the lanes of its row. -/
def chiRow (p : List Nat) (k : Nat) : Nat :=
  let r := 5 * (k / 5)
  let g := fun x => p.getD (r + x % 5) 0
  g (k % 5) ^^^ ((2 ^ 64 - 1 - g (k % 5 + 1)) &&& g (k % 5 + 2))

/-- One round of Keccak-f[1600] on 25 lanes. -/
def keccakRound (a : List Nat) (i : Nat) : List Nat :=
  let g := fun (l : List Nat) k => l.getD k 0
  let c := (List.range 5).map fun x => g a x ^^^ g a (x + 5) ^^^ g a (x + 10) ^^^ g a (x + 15) ^^^ g a (x + 20)
  let d := (List.range 5).map fun x => g c ((x + 4) % 5) ^^^ rotl 64 (g c ((x + 1) % 5)) 1
  let th := (List.range 25).map fun k => g a k ^^^ g d (k % 5)
  let offs := rhoOffsets 24 0 1 0
  let rho := (List.range 25).map fun k => rotl 64 (g th k) ((offs.lookup k).getD 0)
  let pi := (List.range 25).map fun k => g rho ((k % 5 + 3 * (k / 5)) % 5 + 5 * (k % 5))
  let chi := (List.range 25).map (chiRow pi)
  match chi with
  | [] => []
  | h :: t => (h ^^^ roundConst i) :: t

/-- A SHA-3 digest of `n` bytes. -/
def sha3 (n : Nat) (msg : List Nat) : List Nat :=
  let rate := 200 - 2 * n
  let pad := rate - msg.length % rate
  let tail := if pad = 1 then [0x86] else 0x06 :: (List.replicate (pad - 2) 0 ++ [0x80])
  let absorb := fun a b =>
    let lanes := (chunks 8 b).map leNat
    let x := (List.range 25).map fun k => a.getD k 0 ^^^ lanes.getD k 0
    (List.range 24).foldl keccakRound x
  let st := (chunks rate (msg ++ tail)).foldl absorb (List.replicate 25 0)
  (st.flatMap (leBytes 8)).take n

/-! ### HMAC -/

/-- HMAC with a SHA-2 function. -/
def hmac (p : Sha2) (key msg : List Nat) : List Nat :=
  let bl := p.w * 2
  let k := if bl < key.length then sha2 p key else key
  let k := k ++ List.replicate (bl - k.length) 0
  sha2 p (k.map (· ^^^ 0x5C) ++ sha2 p (k.map (· ^^^ 0x36) ++ msg))

/-! ### Check values -/

/-- One reflected CRC step of a bit, eight times. -/
def crcByte (poly : Nat) : Nat → Nat → Nat
  | 0, c => c
  | n + 1, c => crcByte poly n (if c % 2 = 1 then c / 2 ^^^ poly else c / 2)

/-- A reflected 32-bit CRC, started at all ones and complemented. -/
def crc32With (poly : Nat) (l : List Nat) : Nat :=
  (l.foldl (fun c b => crcByte poly 8 (c ^^^ b % 256)) 0xFFFFFFFF) ^^^ 0xFFFFFFFF

/-- CRC-32C (R463). -/
def crc32c (l : List Nat) : Nat := crc32With 0x82F63B78 l
/-- The CRC-32 of gzip (R461). -/
def crc32 (l : List Nat) : Nat := crc32With 0xEDB88320 l
/-- Adler-32 (R461). -/
def adler32 (l : List Nat) : Nat :=
  let r := l.foldl (fun (p : Nat × Nat) b => let a := (p.1 + b % 256) % 65521; (a, (p.2 + a) % 65521)) (1, 0)
  r.2 * 65536 + r.1

end Sys2Proof.Machine
end

