-- ==== Sys2Proof/Machine/Flash.lean ====
section
/-! DEFINITION. The boot flash and its ageing log (spec 19: R581; 20: R633). -/

namespace Sys2Proof.Machine

/-- A byte of the flash that nothing has programmed is erased. -/
def flDflt (_ : Nat) : Byte := 255
/-- A byte of the flash. -/
def flByte (s : State) (a : Nat) : Nat := (tget flDflt s.flash a).toNat
/-- Bytes of the flash. -/
def flBytes (s : State) (a n : Nat) : List Nat := (List.range n).map fun j => flByte s (a + j)
/-- Bytes programmed from an offset on. -/
def flProgram (s : State) (a : Nat) : List Nat → State
  | [] => s
  | b :: t => flProgram { s with flash := tset flDflt s.flash a (BitVec.ofNat 8 b) } (a + 1) t
/-- A range erased to 0xFF. -/
def flErase (s : State) (a n : Nat) : State := { s with flash := s.flash.filter fun c => decide (c.1 < a) || decide (a + n ≤ c.1) }
/-- Nothing in a range has been programmed. -/
def flBlank (s : State) (a n : Nat) : Bool := !(s.flash.any fun c => decide (a ≤ c.1) && decide (c.1 < a + n))

/-- Offsets of the log's two halves (R581, R633). -/
def ageHalf (h : Nat) : Nat := 0x100000 + 0x80000 * h
def ageMagic : Nat := 0x554D4231

/-- The 31 words of a record before its check word (R633). -/
def ageWords (seq rtc : Nat) (r : AgeRec) : List Nat :=
  [ageMagic * 2 ^ 32 + r.typ * 2 ^ 28 + r.die * 2 ^ 25, seq, rtc % 2 ^ 48]
    ++ (List.range 16).map (fun k => (List.range 4).foldl (fun a j => a + r.mon.getD (4 * k + j) 0 % 65536 * 2 ^ (16 * j)) 0)
    ++ [r.offs % 2 ^ 20 + r.cap % 4 * 2 ^ 20, r.spar % 32 * 256 + r.pe % 16, r.limit % 2 ^ 64]
    ++ List.replicate 9 0

/-- The 256 bytes of a record (R633). -/
def ageBytes (seq rtc : Nat) (r : AgeRec) : List Nat :=
  let b := (ageWords seq rtc r).flatMap (leBytes 8)
  b ++ leBytes 8 (crc32c b)

/-- A valid record in 256 bytes: its SEQ and content (R633). -/
def ageParse (b : List Nat) : Option (Nat × AgeRec) :=
  let w := (chunks 8 b).map leNat
  let at' (k : Nat) := w.getD k 0
  if fld (at' 0) 63 32 = ageMagic ∧ fld (at' 31) 31 0 = crc32c (b.take 248) then
    some (at' 1, ⟨fld (at' 0) 31 28, fld (at' 0) 27 25,
      (List.range 64).map (fun m => fld (at' (3 + m / 4)) (16 * (m % 4) + 15) (16 * (m % 4))),
      fld (at' 19) 19 0, fld (at' 19) 21 20, fld (at' 20) 12 8, fld (at' 20) 3 0, at' 21⟩)
  else none

/-- Records before the first free location of a half (R633). -/
def ageFill (s : State) (h : Nat) : Nat :=
  (firstBelow 2048 fun j => flBlank s (ageHalf h + 256 * j) 256).getD 2048

/-- The valid records of a half, in their order. -/
def ageRead (s : State) (h : Nat) : List (Nat × AgeRec) :=
  (List.range (ageFill s h)).filterMap fun j => ageParse (flBytes s (ageHalf h + 256 * j) 256)

def ageMax (l : List (Nat × AgeRec)) : Nat := (l.map (·.1)).foldl max 0

/-- The half in force: the one that holds the largest SEQ. -/
def ageForce (s : State) : Nat := if ageMax (ageRead s 0) < ageMax (ageRead s 1) then 1 else 0

/-- The records in force in order of SEQ. -/
def ageLog (s : State) : List AgeRec := (sortBy (·.1) (ageRead s (ageForce s))).map (·.2)
/-- The next SEQ of the log. -/
def ageSeq (s : State) : Nat := ageMax (ageRead s (ageForce s)) + 1

/-- The state of a die in the log: its latest BASE and the later REPLAN and RETIRE records (R633). -/
def ageOf (s : State) (d : Nat) : List AgeRec :=
  ((ageLog s).filter fun r => r.die == d && decide (1 ≤ r.typ) && decide (r.typ ≤ 3)).foldl
    (fun acc r => if r.typ = 1 then [r] else if acc = [] then [] else acc ++ [r]) []

/-- The largest NUMBLK limit of a die in the log, 0 for none (R384, R633). -/
def ageLimit (s : State) (d : Nat) : Nat :=
  (((ageLog s).filter fun r => r.typ == 5 && r.die == d).map (·.limit)).foldl max 0

/-- The real-time clock (R614). -/
def rtcNow (s : State) : Nat := getF s 0 bPwr rPwrRtcHi 15 0 * 2 ^ 32 + getReg s 0 bPwr rPwrRtcLo

/-- The BASE record of a die as its baselines stand (R633, R634). -/
def baseRec (s : State) (d : Nat) : AgeRec := ⟨1, d, (List.range 64).map fun m => getF s d bUmb (rUmbMon + m) 31 16, 0, 0, 0, 0, 0⟩
/-- The REPLAN record of a die as its offsets and its cap stand, with the medians of its latest re-plan; of a die that has had none they are
open, and the record takes its baselines (R633; DESIGN CHOICE: log entry 151). -/
def stateRec (s : State) (d : Nat) (l : List AgeRec) : AgeRec :=
  let mon := ((l.filter (·.typ == 2)).getLast?.map (·.mon)).getD (baseRec s d).mon
  ⟨2, d, mon, getReg s d bUmb rUmbOffset, (getDie s d).cap, 0, 0, 0⟩

/-- What a full half is rewritten as: for each die its BASE, its state, its retirements and its limit (R633). -/
def ageCompact (s : State) : List AgeRec :=
  (List.range (nDies s.part)).flatMap fun d =>
    let l := ageOf s d
    [((l.filter (·.typ == 1)).getLast?).getD (baseRec s d), stateRec s d l] ++ l.filter (·.typ == 3)
      ++ (if ageLimit s d = 0 then [] else [⟨5, d, [], 0, 0, 0, 0, ageLimit s d⟩])

/-- Records programmed in a half from its first free location on. -/
def agePut (s : State) (h seq : Nat) : List AgeRec → State
  | [] => s
  | r :: t => agePut (flProgram s (ageHalf h + 256 * ageFill s h) (ageBytes seq (rtcNow s) r)) h (seq + 1) t

/-- A record appended to the ageing log; a full half is left for the other one (R633). A LOST record stays with the log. -/
def ageAppend (s : State) (r : AgeRec) : State :=
  let h := ageForce s
  if ageFill s h < 2048 then agePut s h (ageSeq s) [r]
  else
    let keep := (ageLog s).filter (·.typ == 4)
    agePut (flErase s (ageHalf (1 - h)) 0x80000) (1 - h) (ageSeq s) (keep.take 1 ++ ageCompact s ++ [r])

/-! ### A power collapse or RESET_N while the flash is written (R598, R599) -/

/-- Bytes that an update command had not come to: those from an offset to the end of its range read as they did before it. -/
def flUndo (s : State) (a n : Nat) (held : List Host.Cell) : State :=
  { s with flash := (held.filter fun c => decide (a ≤ c.1) && decide (c.1 < a + n)).foldl (fun t c => tset flDflt t c.1 c.2) (flErase s a n).flash }

/-- What the command that runs has written when it is cut off: the first part of its range, a free number of bytes of it, or of the commit
record a part without its check word, so that the record fails its CRC. -/
def flCut (s : State) : FlashJob → State
  | .append a =>
    let f := takeFree s
    flUndo f.2 (a + f.1.toNat % 124) (128 - f.1.toNat % 124) []
  | .erase a n held =>
    let f := takeFree s
    flUndo f.2 (a + f.1.toNat % n) (n - f.1.toNat % n) held
  | .program a n =>
    let f := takeFree s
    flUndo f.2 (a + f.1.toNat % n) (n - f.1.toNat % n) []

end Sys2Proof.Machine
end

