-- ==== Sys2Proof/Machine/Cipher.lean ====
section
/-! DEFINITION. AES-256 and its modes that the spec names by standard: CTR and GCM (SP 800-38A, 38D), XTS (IEEE 1619) and key
wrap (SP 800-38F), on lists of bytes (spec 15 R471, R475; 12 R381; 13 R399). -/

namespace Sys2Proof.Machine

/-- Multiplication by x in the AES field. -/
def xtime (a : Nat) : Nat := if a < 128 then 2 * a else (2 * a) ^^^ 0x11B
/-- Product in the AES field. -/
def gmul (a b : Nat) : Nat → Nat
  | 0 => 0
  | n + 1 => (if bitOf b 0 then a else 0) ^^^ gmul (xtime a) (b / 2) n
/-- Inverse in the AES field, 0 for 0. -/
def ginv (a : Nat) : Nat := ((List.range 256).find? fun b => gmul a b 8 == 1).getD 0
/-- The S-box. -/
def sboxOf (a : Nat) : Nat :=
  let b := ginv a
  b ^^^ rotl 8 b 1 ^^^ rotl 8 b 2 ^^^ rotl 8 b 3 ^^^ rotl 8 b 4 ^^^ 0x63
def sboxTab : List Nat := (List.range 256).map sboxOf
def sbox (a : Nat) : Nat := sboxTab.getD a 0
def sboxInv (a : Nat) : Nat := (sboxTab.idxOf? a).getD 0

/-- The 60 words of the key schedule, newest first, from the 8 words of the key reversed. -/
def aesExpand : Nat → List (List Nat) → List (List Nat)
  | 0, l => l
  | n + 1, l =>
    let i := l.length
    let t := l.headD []
    let t :=
      if i % 8 = 0 then
        xorBytes ((t.drop 1 ++ t.take 1).map sbox) [(List.range (i / 8 - 1)).foldl (fun r _ => xtime r) 1, 0, 0, 0]
      else if i % 8 = 4 then t.map sbox else t
    aesExpand n (xorBytes t (l.getD 7 []) :: l)

/-- The 15 round keys of a 32-byte key. -/
def aesKeys (key : List Nat) : List (List Nat) :=
  (chunks 4 (aesExpand 52 (chunks 4 key).reverse).reverse).map List.flatten

/-- The rows of the state shifted left, or right. -/
def shiftRows (inv : Bool) (b : List Nat) : List Nat :=
  (List.range 16).map fun i => b.getD ((i + (if inv then 16 - 4 * (i % 4) else 4 * (i % 4))) % 16) 0

/-- The columns multiplied by a circulant matrix. -/
def mixColumns (m : List Nat) (b : List Nat) : List Nat :=
  (List.range 16).map fun i =>
    (List.range 4).foldl (fun a j => a ^^^ gmul (b.getD (i / 4 * 4 + (i % 4 + j) % 4) 0) (m.getD j 0) 8) 0

/-- AES on one block. -/
def aesEnc (ks : List (List Nat)) (b : List Nat) : List Nat :=
  let k := fun i => ks.getD i []
  let b := (List.range 13).foldl
    (fun b i => xorBytes (mixColumns [2, 3, 1, 1] (shiftRows false (b.map sbox))) (k (i + 1))) (xorBytes b (k 0))
  xorBytes (shiftRows false (b.map sbox)) (k 14)

/-- The inverse of AES on one block. -/
def aesDec (ks : List (List Nat)) (b : List Nat) : List Nat :=
  let k := fun i => ks.getD i []
  let b := (List.range 13).foldl
    (fun b i => mixColumns [14, 11, 13, 9] (xorBytes ((shiftRows true b).map sboxInv) (k (13 - i)))) (xorBytes b (k 14))
  xorBytes ((shiftRows true b).map sboxInv) (k 0)

/-- Counter mode from a counter block, with the low `n` bits of the block counting (R471). -/
def aesCtr (ks : List (List Nat)) (n : Nat) (ctr : Nat) (data : List Nat) : List Nat :=
  ((chunks 16 data).zipIdx.map fun p =>
    xorBytes p.1 (aesEnc ks (beBytes 16 (ctr / 2 ^ n * 2 ^ n + (ctr + p.2) % 2 ^ n)))).flatten

/-- Product in the field of GCM, bit 0 the most significant. -/
def ghashMul (x y : Nat) : Nat → Nat → Nat → Nat
  | 0, z, _ => z
  | n + 1, z, v =>
    ghashMul x y n (if bitOf x n then z ^^^ v else z) (if v % 2 = 1 then v / 2 ^^^ 0xE1 * 2 ^ 120 else v / 2)

/-- GHASH of whole blocks. -/
def ghash (h : Nat) (l : List Nat) : Nat := (chunks 16 l).foldl (fun y b => ghashMul (y ^^^ beNat b) 0 128 0 h) 0
/-- Bytes padded with zeros to a whole number of `n`-byte units. -/
def padTo (n : Nat) (l : List Nat) : List Nat := l ++ List.replicate ((n - l.length % n) % n) 0

/-- The GCM tag of a ciphertext with its additional data. -/
def gcmTag (ks : List (List Nat)) (iv aad ct : List Nat) : List Nat :=
  let h := beNat (aesEnc ks (List.replicate 16 0))
  let s := ghash h (padTo 16 aad ++ padTo 16 ct ++ beBytes 8 (8 * aad.length) ++ beBytes 8 (8 * ct.length))
  xorBytes (beBytes 16 s) (aesEnc ks (iv ++ [0, 0, 0, 1]))

/-- GCM's counter mode: the same for both directions. -/
def gcmCrypt (ks : List (List Nat)) (iv data : List Nat) : List Nat := aesCtr ks 32 (beNat (iv ++ [0, 0, 0, 2])) data

/-- The tweak of a block within a data unit. -/
def xtsTweak : Nat → Nat → Nat
  | 0, t => t
  | n + 1, t => xtsTweak n (if 2 ^ 127 ≤ t then (2 * t) % 2 ^ 128 ^^^ 0x87 else 2 * t)

/-- XTS over whole data units of `u` bytes, the first one numbered `n` (R471). -/
def xts (dec : Bool) (k1 k2 : List (List Nat)) (u n : Nat) (data : List Nat) : List Nat :=
  ((chunks u data).zipIdx.map fun p =>
    let t0 := leNat (aesEnc k2 (leBytes 16 (n + p.2)))
    ((chunks 16 p.1).zipIdx.map fun q =>
      let t := leBytes 16 (xtsTweak q.2 t0)
      xorBytes (if dec then aesDec k1 (xorBytes q.1 t) else aesEnc k1 (xorBytes q.1 t)) t).flatten).flatten

/-- One step of the key unwrap: the integrity register and the blocks. -/
def kwStep (ks : List (List Nat)) (n : Nat) (p : List Nat × List (List Nat)) (t : Nat) : List Nat × List (List Nat) :=
  let i := (t - 1) % n
  let b := aesDec ks (beBytes 8 (beNat p.1 ^^^ t) ++ p.2.getD i [])
  (b.take 8, p.2.set i (b.drop 8))

/-- AES key unwrap of a blob: the key, or none where the integrity check fails (R475). -/
def keyUnwrap (ks : List (List Nat)) (blob : List Nat) : Option (List Nat) :=
  let bs := chunks 8 (blob.drop 8)
  let n := bs.length
  let r := ((List.range (6 * n)).map fun t => 6 * n - t).foldl (kwStep ks n) (blob.take 8, bs)
  if r.1 = List.replicate 8 0xA6 then some r.2.flatten else none

end Sys2Proof.Machine
end

