-- ==== Sys2Proof/Machine/Deflate.lean ====
section
/-! DEFINITION. Furl and unfurl: the DEFLATE stream, its wrappers and its checks, on lists of bytes (spec 15: R459 to R464). -/

namespace Sys2Proof.Machine

/-- The bits of bytes, least significant first (RFC 1951). -/
def bitsOf (l : List Nat) : List Bool := l.flatMap fun b => (List.range 8).map (bitOf b)
/-- The number that bits spell, least significant first. -/
def bitsNat (l : List Bool) : Nat := l.foldr (fun b a => 2 * a + b2n b) 0
/-- Whole bytes from bits, the last one filled with zeros. -/
def packBits (l : List Bool) : List Nat := (chunks 8 l).map bitsNat

/-! ### Unfurl -/

/-- The next `n` bits as a number. -/
def takeBits (n : Nat) (l : List Bool) : Option (Nat × List Bool) :=
  if l.length < n then none else some (bitsNat (l.take n), l.drop n)

/-- The symbols that have a code of a length, in order. -/
def symsOfLen (lens : List Nat) (n : Nat) : List Nat :=
  (lens.zipIdx.filter fun p => p.1 == n).map (·.2)

/-- Canonical decoding of one symbol: `code` and `first` as RFC 1951 counts them. -/
def huffSym (lens : List Nat) : Nat → Nat → Nat → Nat → List Bool → Option (Nat × List Bool)
  | 0, _, _, _, _ => none
  | _, _, _, _, [] => none
  | fuel + 1, n, code, first, b :: bs =>
    let code := code + b2n b
    let ss := symsOfLen lens n
    if code < first + ss.length then some (ss.getD (code - first) 0, bs)
    else huffSym lens fuel (n + 1) (2 * code) (2 * (first + ss.length)) bs

def huff (lens : List Nat) (l : List Bool) : Option (Nat × List Bool) := huffSym lens 15 1 0 0 l

/-- A set of code lengths is valid: its codes fill the code space exactly, or it holds at most one code, of length 1. -/
def codeOk (lens : List Nat) (one : Bool) : Bool :=
  let used := lens.filter (· != 0)
  let sum := (used.map fun n => 2 ^ (15 - n)).sum
  decide (sum = 2 ^ 15) || (one && (used == [] || used == [1]))

/-- Base and extra bits of the length symbols 257 to 285. -/
def lenBase : List Nat := [3, 4, 5, 6, 7, 8, 9, 10, 11, 13, 15, 17, 19, 23, 27, 31, 35, 43, 51, 59, 67, 83, 99, 115, 131, 163, 195, 227, 258]
def lenExtra (i : Nat) : Nat := if i < 8 ∨ i = 28 then 0 else (i - 4) / 4
/-- Base and extra bits of the distance symbols. -/
def distExtra (i : Nat) : Nat := if i < 4 then 0 else (i - 2) / 2
def distBase (i : Nat) : Nat := if i < 4 then i + 1 else 2 ^ (i / 2) + i % 2 * 2 ^ distExtra i + 1

/-- A match copied onto the output, which is held last byte first. -/
def copyBack : Nat → Nat → List Nat → List Nat
  | 0, _, o => o
  | n + 1, d, o => copyBack n d (o.getD (d - 1) 0 :: o)

/-- The length and distance of a match whose length symbol is `s`, and the bits after them. -/
def readMatch (dl : List Nat) (s : Nat) (l : List Bool) : Option (Nat × Nat × List Bool) := do
  let x ← takeBits (lenExtra (s - 257)) l
  let d ← huff dl x.2
  let y ← takeBits (distExtra d.1) d.2
  if 29 < d.1 then none else some (lenBase.getD (s - 257) 0 + x.1, distBase d.1 + y.1, y.2)

/-- The symbols of a block up to its end-of-block symbol. -/
def inflateSyms (ll dl : List Nat) : Nat → List Bool → List Nat → Option (List Bool × List Nat)
  | 0, _, _ => none
  | fuel + 1, l, o =>
    match huff ll l with
    | none => none
    | some (s, l) =>
      if s < 256 then inflateSyms ll dl fuel l (s :: o)
      else if s = 256 then some (l, o)
      else if 285 < s then none
      else
        (readMatch dl s l).elim none fun m =>
          if o.length < m.2.1 then none else inflateSyms ll dl fuel m.2.2 (copyBack m.1 m.2.1 o)

/-- The code lengths of a dynamic block: `n` of them. -/
def readLens (cl : List Nat) (n : Nat) : Nat → List Bool → List Nat → Option (List Nat × List Bool)
  | 0, _, _ => none
  | fuel + 1, l, acc =>
    if acc.length = n then some (acc, l)
    else if n < acc.length then none
    else
      match huff cl l with
      | none => none
      | some (s, l) =>
        if s < 16 then readLens cl n fuel l (acc ++ [s])
        else
          match takeBits (if s = 16 then 2 else if s = 17 then 3 else 7) l with
          | none => none
          | some (x, l) =>
            if s = 16 ∧ acc = [] then none
            else
              readLens cl n fuel l
                (acc ++ (if s = 16 then List.replicate (3 + x) (acc.getLastD 0) else List.replicate ((if s = 17 then 3 else 11) + x) 0))

/-- The order of the code-length code lengths. -/
def clOrder : List Nat := [16, 17, 18, 0, 8, 7, 9, 6, 10, 5, 11, 4, 12, 3, 13, 2, 14, 1, 15]

/-- The two code-length lists of a dynamic block. -/
def dynLens (l : List Bool) : Option (List Nat × List Nat × List Bool) :=
  match takeBits 14 l with
  | none => none
  | some (h, l) =>
    let nl := h % 32 + 257
    let nd := h / 32 % 32 + 1
    let nc := h / 1024 + 4
    if 286 < nl then none
    else
      match takeBits (3 * nc) l with
      | none => none
      | some (c, l) =>
        let cl := (List.range 19).map fun s => match clOrder.idxOf? s with
          | some i => if i < nc then c / 2 ^ (3 * i) % 8 else 0
          | none => 0
        if !codeOk cl false then none
        else
          match readLens cl (nl + nd) 400 l [] with
          | none => none
          | some (lens, l) =>
            let ll := lens.take nl
            let dl := lens.drop nl
            if ll.getD 256 0 = 0 ∨ !codeOk ll true ∨ !codeOk dl true then none else some (ll, dl, l)

/-- The code lengths of a fixed block. -/
def fixedLL : List Nat := List.replicate 144 8 ++ List.replicate 112 9 ++ List.replicate 24 7 ++ List.replicate 8 8

/-- A stored block: its bytes from the next byte boundary. -/
def storedBlock (l : List Bool) (o : List Nat) : Option (List Bool × List Nat) :=
  let l := l.drop (l.length % 8)
  match takeBits 32 l with
  | none => none
  | some (h, l) =>
    let n := h % 65536
    if h / 65536 ≠ 65535 - n ∨ l.length < 8 * n then none
    else some (l.drop (8 * n), ((chunks 8 (l.take (8 * n))).map bitsNat).reverse ++ o)

/-- The blocks of a stream up to the one with BFINAL: the bits after it and the output, last byte first. -/
def inflateBlocks : Nat → List Bool → List Nat → Option (List Bool × List Nat)
  | 0, _, _ => none
  | fuel + 1, l, o =>
    match takeBits 3 l with
    | none => none
    | some (h, l) =>
      let r :=
        if h / 2 = 0 then storedBlock l o
        else if h / 2 = 1 then inflateSyms fixedLL (List.replicate 32 5) (l.length + 1) l o
        else if h / 2 = 2 then
          match dynLens l with
          | some (ll, dl, l) => inflateSyms ll dl (l.length + 1) l o
          | none => none
        else none
      match r with
      | none => none
      | some (l, o) => if h % 2 = 1 then some (l, o) else inflateBlocks fuel l o

/-- A raw stream: the output and the bytes after the stream (R461, R464). -/
def inflate (l : List Nat) : Option (List Nat × List Nat) :=
  match inflateBlocks (8 * l.length + 1) (bitsOf l) [] with
  | some (rest, o) => some (o.reverse, l.drop (l.length - rest.length / 8))
  | none => none

/-- The failures of UNFURL (R469). -/
abbrev xDeflateBad : Nat := 0x10
abbrev xWrapBad : Nat := 0x11
abbrev xCheckFail : Nat := 0x12
abbrev xLenMismatch : Nat := 0x13

/-- The bytes after the zero byte that ends a string; none where it does not end. -/
def dropString (l : List Nat) : Option (List Nat) := (l.idxOf? 0).map fun i => l.drop (i + 1)

/-- A gzip header: the bytes after it (R461). -/
def gzipHeader (l : List Nat) : Option (List Nat) :=
  let flg := l.getD 3 0
  if l.length < 10 ∨ l.take 3 ≠ [0x1F, 0x8B, 8] ∨ 32 ≤ flg then none
  else
    let l := l.drop 10
    let l := if bitOf flg 2 then (if l.length < 2 ∨ l.length < 2 + leNat (l.take 2) then none else some (l.drop (2 + leNat (l.take 2)))) else some l
    let l := l.bind fun l => if bitOf flg 3 then dropString l else some l
    let l := l.bind fun l => if bitOf flg 4 then dropString l else some l
    l.bind fun l => if bitOf flg 1 then (if l.length < 2 then none else some (l.drop 2)) else some l

/-- A zlib header: the bytes after it (R461). -/
def zlibHeader (l : List Nat) : Option (List Nat) :=
  if l.length < 2 ∨ l.getD 0 0 % 16 ≠ 8 ∨ 8 ≤ l.getD 0 0 / 16 ∨ (l.getD 0 0 * 256 + l.getD 1 0) % 31 ≠ 0 ∨ bitOf (l.getD 1 0) 5 then none else some (l.drop 2)

/-- A Furl frame's header: its original length and the bytes after it (R462). -/
def frameHeader (l : List Nat) : Option (Nat × List Nat) :=
  if l.length < 16 ∨ l.take 8 ≠ [0x4F, 0x58, 0x46, 0x31, 1, 0, 0, 0] then none else some (beNat ((l.drop 8).take 8), l.drop 16)

/-- The stream of a wrapper with its checks, made in the order of R464; `chk` answers for the output and the bytes after it. -/
def unfurlBody (l : List Nat) (chk : List Nat → List Nat → Option Nat) : Except Nat (List Nat) :=
  match inflate l with
  | none => .error xDeflateBad
  | some (o, t) =>
    match chk o t with
    | some e => .error e
    | none => .ok o

/-- UNFURL with a wrapper (R461, R464): the output or the failure. -/
def unfurl (wrap : Nat) (l : List Nat) : Except Nat (List Nat) :=
  match wrap with
  | 0 => unfurlBody l fun _ _ => none
  | 1 =>
    match zlibHeader l with
    | none => .error xWrapBad
    | some b => unfurlBody b fun o t => if t.length < 4 ∨ beNat (t.take 4) ≠ adler32 o then some xCheckFail else none
  | 2 =>
    match gzipHeader l with
    | none => .error xWrapBad
    | some b => unfurlBody b fun o t =>
        if t.length < 8 ∨ leNat ((t.drop 4).take 4) ≠ o.length % 2 ^ 32 then some xLenMismatch
        else if leNat (t.take 4) ≠ crc32 o then some xCheckFail else none
  | _ =>
    match frameHeader l with
    | none => .error xWrapBad
    | some (n, b) => unfurlBody b fun o t =>
        if o.length ≠ n then some xLenMismatch
        else if t.length < 4 ∨ beNat (t.take 4) ≠ crc32c o then some xCheckFail else none

/-! ### Furl -/

/-- A literal or a match (R459). -/
inductive FurlTok
  | lit (b : Nat) | copy (len dist : Nat)
  deriving DecidableEq, Repr

/-- The hash of three bytes at a position (R459). -/
def furlHash (inp : List Nat) (i : Nat) : Nat :=
  ((inp.getD i 0 * 2 ^ 7) ^^^ (inp.getD (i + 1) 0 * 2 ^ 3) ^^^ inp.getD (i + 2) 0) % 2 ^ 15

/-- The common run of two positions, at most `max` bytes. -/
def commonRun (inp : List Nat) (c i : Nat) : Nat → Nat
  | 0 => 0
  | n + 1 => if inp.getD c 0 = inp.getD i 0 then 1 + commonRun inp (c + 1) (i + 1) n else 0

/-- The positions 1 to k after a match's start enter the hash table (R459). -/
def furlInsert (inp : List Nat) (heads : List (Nat × Nat)) (i k : Nat) : List (Nat × Nat) :=
  ((List.range k).map fun j => i + 1 + j).foldl (fun h p => if p + 3 ≤ inp.length then (furlHash inp p, p) :: h else h) heads

/-- The matching of R459; `heads` lists (hash, position) with the latest first. -/
def furlMatch (inp : List Nat) : Nat → Nat → List (Nat × Nat) → List FurlTok
  | 0, _, _ => []
  | fuel + 1, i, heads =>
    if inp.length ≤ i then []
    else
      let h := furlHash inp i
      let fits := decide (i + 3 ≤ inp.length)
      let c := if fits then heads.lookup h else none
      let heads := if fits then (h, i) :: heads else heads
      let room := min 258 (min inp.length ((i / 65536 + 1) * 65536) - i)
      let m := match c with
        | some c => if i - c ≤ 32768 then some (commonRun inp c i room, i - c) else none
        | none => none
      match m with
      | some (n, d) =>
        if 3 ≤ n then .copy n d :: furlMatch inp fuel (i + n) (furlInsert inp heads i (n - 1))
        else .lit (inp.getD i 0) :: furlMatch inp fuel (i + 1) heads
      | none => .lit (inp.getD i 0) :: furlMatch inp fuel (i + 1) heads

/-- The bytes that a token stands for. -/
def tokLen : FurlTok → Nat
  | .lit _ => 1
  | .copy n _ => n

/-- The tokens of block `k`, by the position at which each starts. -/
def blockToks (toks : List FurlTok) (k : Nat) : List FurlTok :=
  ((toks.foldl (fun (p : Nat × List (Nat × FurlTok)) t => (p.1 + tokLen t, (p.1, t) :: p.2)) (0, [])).2.reverse.filter
    fun p => p.1 / 65536 == k).map (·.2)

/-! The optimal length-limited code lengths of R460, by merging packages of the lighter symbols. -/

/-- Neighbours of a list of packages, joined two by two. -/
def pairUp : List (Nat × List Nat) → List (Nat × List Nat)
  | a :: b :: t => (a.1 + b.1, a.2 ++ b.2) :: pairUp t
  | _ => []

/-- The packages of a depth: the symbols with their counts, and the joined packages of the depth below, by weight. -/
def packages (items : List (Nat × List Nat)) : Nat → List (Nat × List Nat)
  | 0 => []
  | n + 1 => sortBy (·.1) (items ++ pairUp (packages items n))

/-- One assignment of optimal code lengths of at most `limit` bits; a lone symbol takes one bit. -/
def packLens (limit : Nat) (freq : List Nat) : List Nat :=
  let items := (freq.zipIdx.filter fun p => p.1 != 0).map fun p => (p.1, [p.2])
  if items.length ≤ 1 then freq.map fun f => if f = 0 then 0 else 1
  else
    let used := ((packages items limit).take (2 * items.length - 2)).flatMap (·.2)
    (List.range freq.length).map fun s => used.count s

/-- Bits that code lengths spend on symbols with these counts. -/
def codeCost (freq lens : List Nat) : Nat := (List.zipWith (· * ·) freq lens).sum

/-- Code lengths make a code of at most `limit` bits for exactly the symbols that occur. -/
def lensFit (limit : Nat) (freq lens : List Nat) : Bool :=
  lens.length == freq.length && (List.zipWith (fun f n => (f == 0) == (n == 0)) freq lens).all id && lens.all (decide <| · ≤ limit)
    && codeOk lens true

/-- The code lengths that Furl takes: an optimal assignment; which one of several is a free value (R460). -/
def furlLens (limit : Nat) (freq : List Nat) : List Nat :=
  let best := packLens limit freq
  let pick := Config.furlLens limit freq
  if lensFit limit freq pick ∧ codeCost freq pick = codeCost freq best then pick else best

/-- The bits of a symbol's canonical code, most significant first (RFC 1951). -/
def codeBits (lens : List Nat) (s : Nat) : List Bool :=
  let n := lens.getD s 0
  let first := (List.range n).foldl (fun c b => 2 * (c + if b = 0 then 0 else lens.count b)) 0
  let code := first + (lens.take s).count n
  (List.range n).map fun j => bitOf code (n - 1 - j)

/-- A number in `n` bits, least significant first. -/
def numBits (n x : Nat) : List Bool := (List.range n).map (bitOf x)

/-- Indexes of a match's length and distance symbols. -/
def lenSym (n : Nat) : Nat := (lenBase.filter (decide <| · ≤ n)).length - 1
def distSym (d : Nat) : Nat := ((List.range 30).filter fun i => decide (distBase i ≤ d)).length - 1

/-- The literal or length symbol of a token, and its distance symbol. -/
def tokSym : FurlTok → Nat
  | .lit b => b
  | .copy n _ => 257 + lenSym n
def tokDist : FurlTok → Option Nat
  | .lit _ => none
  | .copy _ d => some (distSym d)

/-- The bits of a token under the codes of its block (RFC 1951). -/
def tokBits (ll dl : List Nat) : FurlTok → List Bool
  | .lit b => codeBits ll b
  | .copy n d =>
    codeBits ll (257 + lenSym n) ++ numBits (lenExtra (lenSym n)) (n - lenBase.getD (lenSym n) 0)
      ++ codeBits dl (distSym d) ++ numBits (distExtra (distSym d)) (d - distBase (distSym d))

/-- How many times each symbol below `n` occurs. -/
def counts (n : Nat) (l : List Nat) : List Nat := (List.range n).map fun s => l.count s

/-- A list of code lengths cut after its last length that is not 0, but not below `low`; how many of the zeros after it stay is a free
value. -/
def sentLens (which low : Nat) (lens : List Nat) : List Nat :=
  let least := max low (lens.length - (lens.reverse.takeWhile (· == 0)).length)
  lens.take (least + Config.furlPad which lens % (lens.length - least + 1))

/-- Extra bits of a code-length symbol. -/
def runBits (s : Nat) : Nat := if s = 16 then 2 else if s = 17 then 3 else if s = 18 then 7 else 0

/-- The code lengths that code-length symbols with their extra bits stand for; none where they stand for nothing (RFC 1951). -/
def runLens : List (Nat × Nat) → List Nat → Option (List Nat)
  | [], acc => some acc
  | (s, x) :: t, acc =>
    if 18 < s ∨ 2 ^ runBits s ≤ x ∨ (s = 16 ∧ acc = []) then none
    else
      runLens t (acc ++ (if s < 16 then [s] else if s = 16 then List.replicate (3 + x) (acc.getLastD 0)
        else List.replicate ((if s = 17 then 3 else 11) + x) 0))

/-- The code-length symbols that Furl sends for a sequence of lengths: any that stand for it, as a free value says (R460). -/
def furlRuns (lens : List Nat) : List (Nat × Nat) :=
  let pick := Config.furlRuns lens
  if runLens pick [] = some lens then pick else lens.map fun n => (n, 0)

/-- A dynamic-Huffman block after its BFINAL bit, from its own symbol counts (R460). -/
def dynBlock (toks : List FurlTok) : List Bool :=
  let ll := furlLens 15 (counts 286 (toks.map tokSym ++ [256]))
  let dl := furlLens 15 (counts 30 (toks.filterMap tokDist))
  let sl := sentLens 0 257 ll
  let sd := sentLens 1 1 dl
  let runs := furlRuns (sl ++ sd)
  let cl := furlLens 7 (counts 19 (runs.map (·.1)))
  let sc := sentLens 2 4 (clOrder.map fun s => cl.getD s 0)
  [false, true] ++ numBits 5 (sl.length - 257) ++ numBits 5 (sd.length - 1) ++ numBits 4 (sc.length - 4)
    ++ sc.flatMap (numBits 3) ++ runs.flatMap (fun r => codeBits cl r.1 ++ numBits (runBits r.1) r.2)
    ++ toks.flatMap (tokBits ll dl) ++ codeBits ll 256

/-- The bits of one stored block at a bit position, with its BFINAL. -/
def storedBits (pos : Nat) (final : Bool) (l : List Nat) : List Bool :=
  [final, false, false] ++ List.replicate ((8 - (pos + 3) % 8) % 8) false
    ++ bitsOf (leBytes 2 l.length ++ leBytes 2 (65535 - l.length) ++ l)

/-- The stored form of a block of input bytes (R460). -/
def storedForm (pos : Nat) (final : Bool) (l : List Nat) : List Bool :=
  if l.length < 65536 then storedBits pos final l
  else
    let a := storedBits pos false (l.take 32768)
    a ++ storedBits (pos + a.length) final (l.drop 32768)

/-- The raw stream of FURL (R460): each block dynamic, or stored where that is shorter. -/
def furlRaw (inp : List Nat) : List Nat :=
  let toks := furlMatch inp (inp.length + 1) 0 []
  let blocks := chunks 65536 inp
  packBits (blocks.zipIdx.foldl (fun acc b =>
    let final := decide (b.2 + 1 = blocks.length)
    let dyn := final :: dynBlock (blockToks toks b.2)
    let st := storedForm acc.length final b.1
    acc ++ (if st.length < dyn.length then st else dyn)) [])

/-- FURL with a wrapper (R461, R462). -/
def furl (wrap : Nat) (inp : List Nat) : List Nat :=
  let raw := furlRaw inp
  match wrap with
  | 0 => raw
  | 1 => [0x78, 0x01] ++ raw ++ beBytes 4 (adler32 inp)
  | 2 => [0x1F, 0x8B, 8, 0, 0, 0, 0, 0, 0, 0xFF] ++ raw ++ leBytes 4 (crc32 inp) ++ leBytes 4 inp.length
  | _ => [0x4F, 0x58, 0x46, 0x31, 1, 0, 0, 0] ++ beBytes 8 inp.length ++ raw ++ beBytes 4 (crc32c inp)

end Sys2Proof.Machine
end

