-- ==== Sys2Proof/Machine/Chain.lean ====
section
/-! DEFINITION. Exchange buffers and transform chains: buffer lists, the chain descriptor, its checks, what its stages compute,
and where the output and the results go (spec 12 R365; 15 R454 to R473). -/

namespace Sys2Proof.Machine

/-! ### Buffers of an exchange (R365, R504) -/

/-- The context under which a serving engine on die `d` translates for an exchange (R365, R500, R504). -/
def xCtx (s : State) (d i : Nat) : Ctx :=
  let w := getWork s i
  ⟨d, entPart s i, entAsid s i, !(w.sup && decide (1 ≤ w.pl)), true, w.sup && w.pl == 2, 1 + servingFor s (entOwner s i) % 16⟩

/-- The reason of an exchange for a cause of a translated access. -/
def causeReason (c : Nat) : Nat := if c = tXlate then rsXlate else if c = tProt then rsProt else rsPoison

/-- A word of the exchange's partition read by the serving engine. -/
def xRead (s : State) (c : Ctx) (va : Nat) : Except Nat Word :=
  match readVa s c va with
  | .ok v => .ok v
  | .error e => .error (causeReason e)

/-- The entries of a buffer list: word address and length, up to the entry of length 0; LISTLEN without one in 256 (R365). -/
def readList (s : State) (c : Ctx) (va : Nat) : Nat → Except Nat (List (Nat × Nat))
  | 0 => .error rsListLen
  | n + 1 =>
    match xRead s c va, xRead s c (va + 1) with
    | .error e, _ => .error e
    | _, .error e => .error e
    | .ok a, .ok l =>
      if l = 0 then .ok []
      else
        match readList s c (va + 2) n with
        | .error e => .error e
        | .ok t => .ok ((wfld a 48 0, l.toNat) :: t)

/-- The buffers that word 2 or 3 of a descriptor names: one buffer of `len` words, or its list. -/
def buffers (s : State) (c : Ctx) (w : Word) (len : Nat) : Except Nat (List (Nat × Nat)) :=
  if wbit w 63 then readList s c (wfld w 48 0) 256 else .ok [(wfld w 48 0, len)]

/-- The words of buffers, by virtual address. -/
def bufAddrs (l : List (Nat × Nat)) : List Nat := l.flatMap fun b => (List.range b.2).map fun j => b.1 + j

/-- The first reason for which buffers cannot be read, or written (R375). -/
def bufFault (s : State) (c : Ctx) (acc : Acc) (l : List (Nat × Nat)) : Option Nat :=
  (bufAddrs l).findSome? fun va =>
    match translate s c acc va with
    | .error e => some (causeReason e)
    | .ok pa => if acc = .read ∧ isPoisoned s pa then some rsPoison else none

/-- The pages of a stretch of words: their translations enter the cache of the unit, and a poisoned table word is recorded (R424, R503,
R505). -/
def notePages (s : State) (c : Ctx) (va n : Nat) : State :=
  ((List.range ((va % 8192 + n + 8191) / 8192)).map fun k => max va ((va / 8192 + k) * 8192)).foldl (fun s a => xlateNote s c a) s

/-- The pages of buffers. -/
def noteBufs (s : State) (c : Ctx) (l : List (Nat × Nat)) : State := l.foldl (fun s b => notePages s c b.1 b.2) s

/-- The pages of the buffers that word 2 or 3 of a descriptor names, and of their list. -/
def noteSide (s : State) (c : Ctx) (w : Word) (len : Nat) : State :=
  let s := if wbit w 63 then xlateNote s c (wfld w 48 0) else s
  match buffers s c w len with
  | .error _ => s
  | .ok l => noteBufs (if wbit w 63 then notePages s c (wfld w 48 0) (2 * (l.length + 1)) else s) c l

/-- The lines of buffers are read at their homes (R306). -/
def readBufs (s : State) (c : Ctx) (l : List (Nat × Nat)) : State :=
  (l.flatMap fun b => (List.range b.2).filterMap fun j => if j = 0 ∨ (b.1 + j) % 16 = 0 then some (b.1 + j) else none).foldl
    (fun s va =>
      let s := xlateNote s c va
      match translate s c .read va with
      | .ok pa => unitReads s c.die pa
      | .error _ => s) s

/-- The words that buffers hold; none when one is poisoned or no longer readable. -/
def bufWords (s : State) (c : Ctx) (l : List (Nat × Nat)) : Except Nat (List Word) :=
  match bufFault s c .read l with
  | some e => .error e
  | none => .ok ((bufAddrs l).map fun va =>
      match translate s c .read va with
      | .ok pa => peek s pa
      | .error _ => 0)

/-- The first word of a line is written with the hint of its exchange: the home takes the line for it, and gives it to the target of a
hint that it honours (R335, R336). -/
def hintStore (s : State) (die : Nat) (hint : BitVec 16) (wa : Nat) (v : Word) : State :=
  if !backed s wa then unbacked s die wa
  else
    match homeNow s (wa / 16) { reqOf .devWrH (unitId die) with wideTag := true, hint := hint } with
    | some r => poke r.2 wa v
    | none => store s die wa v

/-- A word stored by the engine at a virtual address; one that is not the first of its line goes where the line is. -/
def xStore (s : State) (c : Ctx) (hint : BitVec 16) (va : Nat) (first : Bool) (v : Word) : State :=
  let lead : Bool := first || va % 16 == 0
  let s := if lead then xlateNote s c va else s
  match translate s c .write va with
  | .ok pa =>
    if lead then hintStore s c.die hint pa v
    else if backed s pa then poke s pa v else unbacked s c.die pa
  | .error _ => s

/-- Words stored at rising addresses with a write hint. -/
def xStores (s : State) (c : Ctx) (hint : BitVec 16) (va : Nat) (ws : List Word) : State :=
  ws.zipIdx.foldl (fun s p => xStore s c hint (va + p.2) (p.2 == 0) p.1) s

/-- Words fill buffers in order: the state and the words left over. -/
def fillBufs (s : State) (c : Ctx) (hint : BitVec 16) : List (Nat × Nat) → List Word → State × List Word
  | [], ws => (s, ws)
  | b :: bs, ws => fillBufs (xStores s c hint b.1 (ws.take b.2)) c hint bs (ws.drop b.2)

/-- `HINT` of an exchange's descriptor (R365). -/
def hintOf (s : State) (i : Nat) : BitVec 16 := BitVec.ofNat 16 (wfld (descWord s i 0) 47 32)

/-- The bytes of words in ascending byte address (R11). -/
def bytesOf (l : List Word) : List Nat := l.flatMap fun v => leBytes 8 v.toNat
/-- Words from bytes, the last one filled with zero bytes. -/
def wordsOf (l : List Nat) : List Word := (chunks 8 l).map fun b => w64 (leNat b)

/-! ### The chain descriptor (R455, R471) -/

/-- A stage of a chain. -/
structure Stage where
  op : Nat
  mode : Nat
  du : Bool
  key : Nat
  p1 : Word
  p2 : Word
  /-- its reserved bits are 0 -/
  clean : Bool
  deriving DecidableEq, Repr

/-- The address of an exchange's chain descriptor, 0 for none. -/
def xformOf (s : State) (i : Nat) : Nat := wfld (descWord s i 5) 48 0

/-- The 16 words of the chain descriptor in memory, as the issue check reads them (R455). -/
def chainWords (s : State) (c : Ctx) (i : Nat) : Except Nat (List Word) :=
  match bufWords s c [(xformOf s i, 16)] with
  | .ok l => .ok l
  | .error e => .error e

/-- The chain descriptor of an exchange: the words that its issue check has read (R455). -/
def chainOf (s : State) (i : Nat) : List Word := (getWork s i).chain

/-- Stage `j` of a descriptor. -/
def stageAt (l : List Word) (j : Nat) : Stage :=
  let w := fun k => l.getD (4 + 4 * j + k) 0
  ⟨wfld (w 0) 63 60, wfld (w 0) 59 56, wbit (w 0) 55, wfld (w 0) 11 0, w 1, w 2, wfld (w 0) 54 12 == 0 && w 3 == 0⟩

def nst (l : List Word) : Nat := wfld (l.getD 0 0) 63 62
def stagesOf (l : List Word) : List Stage := (List.range (nst l)).map (stageAt l)
def chainRes (l : List Word) : Nat := wfld (l.getD 2 0) 48 0
def chainOvf (l : List Word) : Nat := wfld (l.getD 1 0) 48 0
def chainTrim (l : List Word) : Nat := wfld (l.getD 0 0) 2 0

def isFurl (t : Stage) : Bool := t.op == 1 || t.op == 2
def isWoad (t : Stage) : Bool := decide (3 ≤ t.op) && decide (t.op ≤ 6)
def usesKey (t : Stage) : Bool := t.op == 3 || t.op == 4 || t.op == 6
def isXts (t : Stage) : Bool := (t.op == 3 || t.op == 4) && t.mode == 2
/-- The key slots of a stage: two for XTS (R471). -/
def stageKeys (t : Stage) : List Nat := if !usesKey t then [] else if isXts t then [t.key, t.key + 1] else [t.key]

/-- OP, MODE and the parameters of a stage are valid (R455, R471). -/
def stageOk (t : Stage) : Bool :=
  t.clean && (isFurl t || isWoad t)
  && (if isFurl t then t.mode % 4 == 0
      else if t.op = 3 ∨ t.op = 4 then decide (1 ≤ t.mode) && decide (t.mode ≤ 3)
      else if t.op = 5 then decide (4 ≤ t.mode) && decide (t.mode ≤ 9)
      else decide (10 ≤ t.mode) && decide (t.mode ≤ 12))
  && (isXts t || !t.du) && (usesKey t || t.key == 0) && (!isXts t || t.key % 2 == 0)
  && (if t.op = 3 ∨ t.op = 4 then
        (if t.mode = 1 then wfld t.p2 31 0 == 0 else if t.mode = 2 then t.p2 == 0 else true)
      else t.p1 == 0 && t.p2 == 0)

/-- A chain of an NVMe read or write. -/
def isNvmeChain (kind : Nat) : Bool := kind == xkRead || kind == xkWrite

/-- R456 check 1. -/
def chainOk (l : List Word) (kind : Nat) : Bool :=
  let st := stagesOf l
  decide (1 ≤ nst l)
  && wfld (l.getD 0 0) 61 3 == 0 && wfld (l.getD 1 0) 63 49 == 0 && wfld (l.getD 2 0) 63 49 == 0 && l.getD 3 0 == 0
  && (l.drop (4 + 4 * nst l)).all (· == 0) && st.all stageOk
  && decide ((st.filter isFurl).length ≤ 1) && decide ((st.filter isWoad).length ≤ 2)
  && decide ((st.filter fun t => t.op == 5 || t.op == 6).length ≤ 1)
  && chainRes l % 16 == 0
  && (chainRes l != 0 || !(st.any fun t => t.op == 5 || t.op == 6 || (isFurl t && !isNvmeChain kind)))

/-- Bytes of a data unit of XTS. -/
def xtsUnit (t : Stage) : Nat := if t.du then 4096 else 512

/-- The input length of a stage is one it takes (R471). -/
def lenOk (t : Stage) (n : Nat) : Bool :=
  if t.op = 4 ∧ t.mode = 1 then decide (16 ≤ n) else if t.op = 4 ∧ t.mode = 2 then n % xtsUnit t == 0 else true

/-- The output length of a stage, none where it depends on the data (R459, R471). -/
def lenAfter (t : Stage) (n : Nat) : Option Nat :=
  if isFurl t then none
  else if t.mode = 1 then some (if t.op = 3 then n + 16 else n - 16)
  else if t.mode = 2 ∧ t.op = 3 then some ((n + xtsUnit t - 1) / xtsUnit t * xtsUnit t)
  else some n

/-- The first stage whose input length is known beforehand and is not one it takes (R456 check 2). -/
def lensBad : List (Stage × Nat) → Nat → Option Nat
  | [], _ => none
  | (t, j) :: ts, n =>
    if !lenOk t n then some j
    else
      match lenAfter t n with
      | some m => lensBad ts m
      | none => none

/-- A slot of the vault (R472). -/
def vaultSlot (s : State) (k : Nat) : Option KeySlot := tget (fun _ => none) s.vault k

/-- The `USE` bit of a stage's operation (R473). -/
def useBit (t : Stage) : Nat := if t.op = 3 then 0 else if t.op = 4 then 1 else 2

/-- A stage may use a slot (R473). -/
def mayUse (k : KeySlot) (use part : Nat) (sealedWork : Bool) : Bool :=
  bitOf k.uses use && (sealedWork || (!k.shut && (k.anyp || k.owner == part)))

/-- The status of a key check: KEYEMPTY, KEYDENY or none (R456). -/
def keyCheck (s : State) (t : Stage) (part : Nat) (sealedWork : Bool) : Option Nat :=
  (stageKeys t).findSome? fun k =>
    match vaultSlot s k with
    | none => some 5
    | some v => if mayUse v (useBit t) part sealedWork then none else some 4

/-- A status of R469: stage and code. -/
def xstatus (stage code : Nat) : Nat := stage * 2 ^ 28 + code
/-- The stage index of a failure of the chain as a whole. -/
abbrev wholeChain : Nat := 15

/-- Furl and Woad weights of a partition (R477). -/
def pttFsh (s : State) (d p : Nat) : Nat := if ptValid s d .ptt p then fld (ptWord s d .ptt p 0) 62 55 else 0
def pttWsh (s : State) (d p : Nat) : Nat := if ptValid s d .ptt p then fld (ptWord s d .ptt p 0) 54 47 else 0

/-- The input bytes of a chain (R458). -/
def chainLen (s : State) (i : Nat) (l : List Word) : Nat := 8 * wfld (descWord s i 4) 31 0 - chainTrim l

/-- Bytes that an NVMe read or write moves, from the block size of its namespace (R366). -/
def blockSize (s : State) (w6 : Word) : Nat := tget (fun _ => 512) (getCtrl s (wfld w6 63 32)).blocks (wfld w6 31 0)
def nvmeBytes (s : State) (i : Nat) : Nat := (wfld (descWord s i 8) 15 0 + 1) * blockSize s (descWord s i 6)

/-- CHAIN_CHECK: the checks of R456 in order; stage and code of the first that fails. The source of an NVMe read holds what the device
reads. -/
def chainCheck (s : State) (d i : Nat) (l : List Word) : Option (Nat × Nat) :=
  let st := stagesOf l
  let sealedWork := (getWork s i).sup && (getWork s i).pl == 2
  if !chainOk l (entKind s i) then some (wholeChain, 1)
  else if entKind s i = xkRead ∧ nvmeBytes s i < 8 * wfld (descWord s i 4) 31 0 then some (0, 2)
  else
    match lensBad st.zipIdx (chainLen s i l) with
    | some j => some (j, 2)
    | none =>
      if (st.any isFurl && pttFsh s d (entPart s i) == 0) || (st.any isWoad && pttWsh s d (entPart s i) == 0) then some (wholeChain, 3)
      else st.zipIdx.findSome? fun t => (keyCheck s t.1 (entPart s i) sealedWork).map fun c => (t.2, c)

/-! ### What the stages compute (R457 to R464, R471) -/

/-- What a chain has computed: bytes, CRC and digest. -/
structure ChainOut where
  bytes : List Nat
  crc : Nat
  digest : List Nat
  deriving DecidableEq, Repr

/-- The key bytes of a slot; zeros for an empty one, which no running stage names. -/
def keyBytes (s : State) (k : Nat) : List Nat := ((vaultSlot s k).map (·.key)).getD (List.replicate 32 0)

/-- A digest of R471. -/
def digestOf (mode : Nat) (l : List Nat) : List Nat :=
  if mode = 4 then sha2 sha256 l else if mode = 5 then sha2 sha384 l else if mode = 6 then sha2 sha512 l
  else if mode = 7 then sha3 32 l else if mode = 8 then sha3 48 l else sha3 64 l

/-- A MAC of R471. -/
def macOf (mode : Nat) (key l : List Nat) : List Nat :=
  hmac (if mode = 10 then sha256 else if mode = 11 then sha384 else sha512) key l

/-- The 96-bit IV of a GCM stage (R471). -/
def gcmIv (t : Stage) : List Nat := beBytes 8 t.p1.toNat ++ beBytes 4 (wfld t.p2 63 32)

/-- One stage on its whole input: its output, or the code of its failure. -/
def runStage (s : State) (t : Stage) (o : ChainOut) : Except Nat ChainOut :=
  let x := o.bytes
  let k1 := aesKeys (keyBytes s t.key)
  if t.op = 1 then .ok ⟨furl (t.mode / 4) x, crc32c x, o.digest⟩
  else if t.op = 2 then
    match unfurl (t.mode / 4) x with
    | .ok y => .ok ⟨y, crc32c y, o.digest⟩
    | .error e => .error e
  else if t.op = 5 then .ok { o with digest := digestOf t.mode x }
  else if t.op = 6 then .ok { o with digest := macOf t.mode (keyBytes s t.key) x }
  else if t.mode = 1 then
    if t.op = 3 then
      let ct := gcmCrypt k1 (gcmIv t) x
      .ok { o with bytes := ct ++ gcmTag k1 (gcmIv t) [] ct }
    else if x.length < 16 then .error 2
    else
      let ct := x.take (x.length - 16)
      if gcmTag k1 (gcmIv t) [] ct = x.drop (x.length - 16) then .ok { o with bytes := gcmCrypt k1 (gcmIv t) ct } else .error 0x20
  else if t.mode = 2 then
    let k2 := aesKeys (keyBytes s (t.key + 1))
    if t.op = 3 then .ok { o with bytes := xts false k1 k2 (xtsUnit t) t.p1.toNat (padTo (xtsUnit t) x) }
    else if x.length % xtsUnit t ≠ 0 then .error 2
    else .ok { o with bytes := xts true k1 k2 (xtsUnit t) t.p1.toNat x }
  else .ok { o with bytes := aesCtr k1 128 (t.p1.toNat * 2 ^ 64 + t.p2.toNat) x }

/-- The stages in order: the output, or the stage that failed and its code. -/
def runStages (s : State) : List (Stage × Nat) → ChainOut → Except (Nat × Nat) ChainOut
  | [], o => .ok o
  | (t, j) :: ts, o =>
    match runStage s t o with
    | .error e => .error (j, e)
    | .ok o' => runStages s ts o'

/-! ### Output and results (R465 to R467) -/

/-- Where an output that did not fit went: buffers of the overflow chain used, and words in the last of them. -/
structure Overflow where
  left : List Word
  used : Nat
  lastw : Nat
  /-- reason and detail of a failure -/
  fail : Option (Nat × Nat)
  deriving DecidableEq, Repr

/-- Words continue into the overflow chain at `ovf`, whose entries are read when output first reaches them (R465, R466); the pages of an entry
and of its buffer are looked up (R503). -/
def fillOvf (s : State) (c : Ctx) (hint : BitVec 16) (ovf : Nat) : Nat → Nat → Overflow → State × Overflow
  | 0, _, o => (s, if o.left = [] then o else { o with fail := some (rsXform, xstatus wholeChain 8) })
  | n + 1, j, o =>
    if o.left = [] then (s, o)
    else if ovf = 0 then (s, { o with fail := some (rsXform, xstatus wholeChain 8) })
    else
      let s := unitNote s c (ovf + 2 * j) 2
      match xRead s c (ovf + 2 * j), xRead s c (ovf + 2 * j + 1) with
      | .error e, _ => (s, { o with fail := some (e, 0) })
      | _, .error e => (s, { o with fail := some (e, 0) })
      | .ok a, .ok l =>
        let len := l.toNat
        if len = 0 then (s, { o with fail := some (rsXform, xstatus wholeChain 8) })
        else if len % 16 ≠ 0 ∨ len < 512 ∨ 2097152 < len then (s, { o with fail := some (rsXform, xstatus wholeChain 9) })
        else
          let s := notePages s c (wfld a 48 0) (min len o.left.length)
          match bufFault s c .write [(wfld a 48 0, min len o.left.length)] with
          | some e => (s, { o with fail := some (e, 0) })
          | none =>
            fillOvf (xStores s c hint (wfld a 48 0) (o.left.take len)) c hint ovf n (j + 1)
              ⟨o.left.drop len, o.used + 1, min len o.left.length, none⟩

/-- Words that the overflow chain at `ovf` can take: those of its buffers before the first entry that ends it or fails (R465). -/
def ovfWords (s : State) (c : Ctx) (ovf : Nat) : Nat → Nat → Nat
  | 0, _ => 0
  | n + 1, j =>
    match xRead s c (ovf + 2 * j), xRead s c (ovf + 2 * j + 1) with
    | .ok a, .ok l =>
      if l = 0 ∨ l.toNat % 16 ≠ 0 ∨ l.toNat < 512 ∨ 2097152 < l.toNat ∨ (bufFault s c .write [(wfld a 48 0, l.toNat)]).isSome then 0
      else l.toNat + ovfWords s c ovf n (j + 1)
    | _, _ => 0

/-- Free values for the words of a result area that a failure leaves undefined (R467). -/
def freeWords : Nat → State → List Word × State
  | 0, s => ([], s)
  | n + 1, s =>
    let f := takeFree s
    let r := freeWords n f.2
    (f.1 :: r.1, r.2)

/-- The result area of a chain that failed: only word 0 is defined (R467). -/
def failResult (s : State) (c : Ctx) (hint : BitVec 16) (res status : Nat) : State :=
  if res = 0 then s
  else
    let f := freeWords 15 s
    xStores f.2 c hint res (w64 status :: f.1)

/-- The result area of a chain that ended well (R467). -/
def okResult (s : State) (c : Ctx) (hint : BitVec 16) (res inb : Nat) (o : ChainOut) (v : Overflow) : State :=
  if res = 0 then s
  else
    xStores s c hint res ([0, w64 inb, w64 o.bytes.length, w64 o.crc, w64 (v.used * 2 ^ 32 + v.lastw), 0, 0, 0]
      ++ wordsOf (o.digest ++ List.replicate (64 - o.digest.length) 0))

/-- The words of an exchange's source (R365). -/
def sourceWords (s : State) (c : Ctx) (i : Nat) : Except Nat (List Word) :=
  match buffers s c (descWord s i 2) (wfld (descWord s i 4) 31 0) with
  | .error e => .error e
  | .ok l => bufWords s c l

/-- The lines of an exchange's source, and of the list that names it, are read at their homes (R306). -/
def readSource (s : State) (c : Ctx) (i : Nat) : State :=
  let w := descWord s i 2
  match buffers s c w (wfld (descWord s i 4) 31 0) with
  | .error _ => s
  | .ok l => readBufs (if wbit w 63 then readBufs s c [(wfld w 48 0, 2 * (l.length + 1))] else s) c l

/-- The words that the destination holds: a list's, or `LEN` words and, with a chain, as many as the output takes up to LEN. -/
def destBufs (s : State) (c : Ctx) (i : Nat) : Except Nat (List (Nat × Nat)) :=
  buffers s c (descWord s i 3) (wfld (descWord s i 4) 31 0)

/-- The result area of an exchange is written (R467). -/
def resWritten (s : State) (i : Nat) : State := modWork s i fun w => { w with resDone := true }

/-- Output of an exchange may have come out as far as `n` words when it failed (R470). -/
def cameTo (s : State) (i n : Nat) : State := modWork s i fun w => { w with reach := n }

/-- As much output as its destination takes may have come out. -/
abbrev anyReach : Nat := 2 ^ 32

/-- XLEN of an entry, saturating (R373). -/
def setXlen (s : State) (i n : Nat) : State := setEntF s i 8 31 0 (min n (2 ^ 32 - 1))

/-- The output of a chain goes to where its kind sends it (R454); the exchange closes on a failure, and one that has exhausted its
destination counts the words written (R466). -/
def chainOutput (s : State) (c : Ctx) (i : Nat) (l : List Word) (inb : Nat) (o : ChainOut) : State :=
  let kind := entKind s i
  let ws := wordsOf o.bytes
  let h := hintOf s i
  if kind = xkWrite then
    if nvmeBytes s i < o.bytes.length then
      closeWith (resWritten (failResult s c h (chainRes l) (xstatus wholeChain 7)) i) i rsXform (xstatus wholeChain 7) false
    else
      let data := ws ++ List.replicate (nvmeBytes s i / 8 - ws.length) 0
      modWork (okResult s c h (chainRes l) inb o ⟨[], 0, 0, none⟩) i fun w => { w with data := data, chainDone := true, resDone := true }
  else if kind = xkSend then
    modWork (okResult s c h (chainRes l) inb o ⟨[], 0, 0, none⟩) i fun w => { w with data := ws, chainDone := true, resDone := true }
  else
    match destBufs s c i with
    | .error e => closeWith (cameTo s i anyReach) i e 0 false
    | .ok bs =>
      let r := fillBufs s c h bs ws
      let v := fillOvf r.1 c h (chainOvf l) 4096 0 ⟨r.2, 0, 0, none⟩
      let s := if kind = xkMove ∨ v.2.fail = some (rsXform, xstatus wholeChain 8) then setXlen v.1 i (ws.length - v.2.left.length) else v.1
      match v.2.fail with
      | some (e, det) =>
        let s := if e = rsXform then resWritten (failResult s c h (chainRes l) det) i else s
        closeWith (cameTo s i (ws.length - v.2.left.length)) i e det false
      | none => modWork (okResult s c h (chainRes l) inb o v.2) i fun w => { w with chainDone := true, resDone := true }

/-- A stage ended with a status: counted in its block (R483). -/
def countXerr (s : State) (d : Nat) (t : Stage) : State :=
  if isFurl t then count s d bFrl rFrlXerrcnt else count s d bWad rWadXerrcnt

/-- A chain ends its exchange FAILED with a status, which its result area holds (R375, R467, R469, R483). -/
def chainError (s : State) (d i stage code : Nat) : State :=
  let l := chainOf s i
  let s := if stage < wholeChain then countXerr s d (stageAt l stage) else s
  closeWith (resWritten (failResult s (xCtx s d i) (hintOf s i) (chainRes l) (xstatus stage code)) i) i rsXform (xstatus stage code) false

/-- The chain of an exchange is abandoned. -/
def dropChain (s : State) (d i : Nat) : State :=
  { s with xforms := tmod (fun _ => XfDie.init) s.xforms d fun x => { x with jobs := x.jobs.filter (·.index != i) } }

/-- The words of a turn among a chain's input words: `n` bytes after the first `k` (R458, R478). -/
def turnCut {α : Type} (k n : Nat) (l : List α) : List α := (l.drop (k / 8)).take ((n + 7) / 8)

/-- The input words of a chain's turn, from the source, or from what the device has read (R454). -/
def turnWords (s : State) (c : Ctx) (i k n : Nat) : Except Nat (List Word) :=
  if entKind s i = xkRead then .ok (turnCut k n (getWork s i).data)
  else
    match buffers s c (descWord s i 2) (wfld (descWord s i 4) 31 0) with
    | .error e => .error e
    | .ok l => bufWords s c ((turnCut k n (bufAddrs l)).map fun va => (va, 1))

/-- The lines of a turn's input are read at their homes, and before the first turn those of the list that names them (R306). -/
def turnReads (s : State) (c : Ctx) (i k n : Nat) : State :=
  let w := descWord s i 2
  match buffers s c w (wfld (descWord s i 4) 31 0) with
  | .error _ => s
  | .ok l =>
    if entKind s i = xkRead then s
    else
      readBufs (if wbit w 63 ∧ k = 0 then readBufs s c [(wfld w 48 0, 2 * (l.length + 1))] else s) c
        (((turnCut k n (bufAddrs l)).zipIdx.filter fun p => p.2 == 0 || p.1 % 16 == 0).map fun p => (p.1, 1))

/-- The last turn of a chain has run on all its input: its output and results are written, or the exchange closes with the failure (R375,
R456, R467, R482). -/
def chainFinish (s : State) (d i : Nat) (inp : List Word) : State :=
  let l := chainOf s i
  let bytes := (bytesOf inp).take (chainLen s i l)
  match runStages s (stagesOf l).zipIdx ⟨bytes, 0, []⟩ with
  | .ok o => chainOutput s (xCtx s d i) i l bytes.length o
  | .error (j, e) => chainError (cameTo s i anyReach) d i j e

end Sys2Proof.Machine
end

