-- ==== Sys2Proof/Machine/HxpWire.lean ====
section
/-! DEFINITION. HXP on the wire: the session and association tables, the header, keys and protection, the Ethernet, IP and UDP
encapsulation, and the checks of a received frame (spec 13: R394 to R402, R419). -/

namespace Sys2Proof.Machine

def getSess (s : State) (i : Nat) : Sess := tget (fun _ => Sess.init) s.sess i
def modSess (s : State) (i : Nat) (f : Sess → Sess) : State := { s with sess := tmod (fun _ => Sess.init) s.sess i f }
def getAssoc (s : State) (i : Nat) : Assoc := tget (fun _ => Assoc.init) s.assocs i
def modAssoc (s : State) (i : Nat) (f : Assoc → Assoc) : State := { s with assocs := tmod (fun _ => Assoc.init) s.assocs i f }

/-! ### The tables (R394, R395); every die holds the same bases (R423) -/

def atAddr (s : State) (i : Nat) : Nat := baseOf s 0 bHxp rHxpAtbaseHi + 32 * i
def atWord (s : State) (i w : Nat) : Word := peek s (atAddr s i + w)
def atF (s : State) (i w hi lo : Nat) : Nat := wfld (atWord s i w) hi lo
def atOk (s : State) (i : Nat) : Bool := wbit (atWord s i 0) 63
/-- The part is the association's initiator. -/
def isInit (s : State) (i : Nat) : Bool := !wbit (atWord s i 0) 62
def prefB (s : State) (i : Nat) : Bool := wbit (atWord s i 0) 61
def isV6 (s : State) (i : Nat) : Bool := wbit (atWord s i 0) 60
def rAid (s : State) (i : Nat) : Nat := atF s i 0 31 0
/-- Die and sub-port of a shroud. -/
def shDie (s : State) (i : Nat) (b : Bool) : Nat := if b then atF s i 1 58 56 else atF s i 1 63 61
def shSub (s : State) (i : Nat) (b : Bool) : Nat := if b then atF s i 1 55 54 else atF s i 1 60 59
def shVlan (s : State) (i : Nat) (b : Bool) : Nat := if b then atF s i 1 41 30 else atF s i 1 53 42
/-- A 128-bit address field. -/
def atAddr128 (s : State) (i w : Nat) : Nat := (atWord s i w).toNat * 2 ^ 64 + (atWord s i (w + 1)).toNat
def lAddr (s : State) (i : Nat) (b : Bool) : Nat := atAddr128 s i (if b then 4 else 2)
def rAddr (s : State) (i : Nat) (b : Bool) : Nat := atAddr128 s i (if b then 8 else 6)
def nhMac (s : State) (i : Nat) (b : Bool) : Nat := atF s i (if b then 11 else 10) 47 0
def assocEng (s : State) (i : Nat) : Nat := engKey (shDie s i false) (atF s i 0 59 56)
/-- `LSTATE`, `LSHR`, `AUP`, `BUP` and `EPOCH` of word 13. -/
def lState (s : State) (i : Nat) : Nat := atF s i 13 63 62
def lShrB (s : State) (i : Nat) : Bool := wbit (atWord s i 13) 61
def shUp (s : State) (i : Nat) (b : Bool) : Bool := wbit (atWord s i 13) (if b then 59 else 60)
def epoch (s : State) (i : Nat) : Nat := atF s i 13 31 0
/-- A field of word 13 written by the engine. -/
def setAt13 (s : State) (i hi lo v : Nat) : State := store s (shDie s i false) (atAddr s i + 13) (wput (atWord s i 13) hi lo v)

abbrev ssClosed : Nat := 0
abbrev ssListen : Nat := 1
abbrev ssOpening : Nat := 2
abbrev ssOpen : Nat := 3
abbrev ssClosing : Nat := 4

def stAddr (s : State) (i : Nat) : Nat := baseOf s 0 bHxp rHxpStbaseHi + 32 * i
def stWord (s : State) (i w : Nat) : Word := peek s (stAddr s i + w)
def stF (s : State) (i w hi lo : Nat) : Nat := wfld (stWord s i w) hi lo
def stOk (s : State) (i : Nat) : Bool := wbit (stWord s i 0) 63
def stState (s : State) (i : Nat) : Nat := stF s i 0 62 60
def stConf (s : State) (i : Nat) : Bool := wbit (stWord s i 0) 59
def stAssoc (s : State) (i : Nat) : Nat := stF s i 0 58 47
def stDie (s : State) (i : Nat) : Nat := stF s i 0 46 44
def stEng (s : State) (i : Nat) : Nat := engKey (stDie s i) (stF s i 0 43 40)
def stRsid (s : State) (i : Nat) : Nat := stF s i 0 31 0
def stPart (s : State) (i : Nat) : Nat := stF s i 1 63 54
def stAsid (s : State) (i : Nat) : Nat := stF s i 1 53 48
def stLog2Out (s : State) (i : Nat) : Nat := stF s i 1 47 44
def stMaxMsg (s : State) (i : Nat) : Nat := min 131072 (stF s i 1 43 26)
def stCodelet (s : State) (i : Nat) : Nat := stF s i 1 25 8
def stGraph (s : State) (i : Nat) : Nat := stF s i 2 48 0
def stLog2Rb (s : State) (i : Nat) : Nat := stF s i 3 63 59
def stRxr (s : State) (i : Nat) : Nat := stF s i 3 48 0
def stSnd (s : State) (i : Nat) : Nat := stF s i 4 48 0
def stMap (s : State) (i : Nat) : Nat := stF s i 5 48 0
/-- STATE of a session written by the engine. -/
def setSt (s : State) (i v : Nat) : State := store s (stDie s i) (stAddr s i) (wput (stWord s i 0) 62 60 v)

/-- Serial comparison of 32-bit counts (R407). -/
def serBefore (a b : Nat) : Bool := let d := (b + 2 ^ 32 - a % 2 ^ 32) % 2 ^ 32; decide (1 ≤ d) && decide (d ≤ 2 ^ 31 - 1)
def serAfter (a b : Nat) : Bool := serBefore b a

/-! ### Headers (R397) -/

/-- An HXP header. -/
structure Hdr where
  typ : Nat
  rel : Bool
  plen : Nat
  dst : Nat
  seq : Nat
  epoch : Nat
  xnum : Word
  ack : Nat
  credit : Nat
  segno : Nat
  segcnt : Nat
  keyph : Nat
  deriving DecidableEq, Repr

/-- A header of a type with every other field 0. -/
def hdr0 (typ dst : Nat) : Hdr := ⟨typ, false, 0, dst, 0, 0, 0, 0, 0, 0, 0, 0⟩

/-- The 40 bytes of a header (R397). -/
def hdrBytes (h : Hdr) : List Nat :=
  [16 + h.typ % 16, 128 * b2n h.rel] ++ beBytes 2 h.plen ++ beBytes 4 h.dst ++ beBytes 4 h.seq ++ beBytes 4 h.epoch
    ++ beBytes 8 h.xnum.toNat ++ beBytes 4 h.ack ++ beBytes 4 h.credit ++ beBytes 2 h.segno ++ beBytes 2 h.segcnt
    ++ [h.keyph % 256, 0, 0, 0]

/-- A field of bytes, big-endian. -/
def beAt (l : List Nat) (off n : Nat) : Nat := beNat ((l.drop off).take n)

/-- The header that 40 bytes spell. -/
def parseHdr (l : List Nat) : Hdr :=
  ⟨l.getD 0 0 % 16, bitOf (l.getD 1 0) 7, beAt l 2 2, beAt l 4 4, beAt l 8 4, beAt l 12 4, w64 (beAt l 16 8), beAt l 24 4,
    beAt l 28 4, beAt l 32 2, beAt l 34 2, l.getD 36 0⟩

/-! ### Keys (R399, R400) -/

/-- The bytes of an ASCII string. -/
def ascii (t : String) : List Nat := t.toList.map Char.toNat

/-- The key derivation of R399. -/
def kdf (km : List Nat) (lbl dir : Nat) (a b na nb ph : Nat) : List Nat :=
  hmac sha256 km (ascii "HXP1" ++ [lbl, dir] ++ beBytes 4 a ++ beBytes 4 b ++ beBytes 8 na ++ beBytes 8 nb ++ beBytes 4 ph)

/-- The master key of an association. -/
def masterKey (s : State) (i : Nat) : Option (List Nat) := (vaultSlot s (atF s i 12 11 0)).map (·.key)

/-- The direction byte of frames that this end sends, or receives. -/
def dirByte (s : State) (i : Nat) (sent : Bool) : Nat := if isInit s i == sent then 0x49 else 0x52

/-- The association ID of this end. -/
def aidOf (i : Nat) : Nat := 2 ^ 31 + i

/-- An association key (R399). -/
def assocKey (s : State) (i : Nat) (sent : Bool) (ph : Nat) (km : List Nat) : List Nat :=
  let x := getAssoc s i
  let own := aidOf i
  let r := rAid s i
  kdf km 0x41 (dirByte s i sent) (if isInit s i then own else r) (if isInit s i then r else own) x.nonceI.toNat x.nonceR.toNat ph

/-- A session key (R399). -/
def sessKey (s : State) (n : Nat) (sent : Bool) (ph : Nat) (km : List Nat) : List Nat :=
  let x := getSess s n
  let i := stAssoc s n
  let r := stRsid s n
  kdf km 0x53 (dirByte s i sent) (if isInit s i then n else r) (if isInit s i then r else n) x.nonceI.toNat x.nonceR.toNat ph

/-- The key under which derived keys are wrapped (R399). -/
def wrapKey (s : State) : Option (List Nat) := (vaultSlot s (getF s 0 bHxp rHxpWkey 11 0)).map (·.key)

/-- A derived key that is held for a direction and a phase, where it can be unwrapped (R399, R474). -/
def heldKey (s : State) (l : List DKey) (sent : Bool) (ph : Nat) : Option (List Nat) :=
  (l.find? fun k => k.sent == sent && k.ph == ph).bind fun k => if wrapKey s = some k.wrap then some k.key else none

/-- Keys with one more, in the place of one for the same direction and phase. -/
def putKey (l : List DKey) (k : DKey) : List DKey := k :: l.filter fun x => !(x.sent == k.sent && x.ph == k.ph)

/-- An association key is derived and held (R399, R403); without its master key, or a key to wrap it under, none is. -/
def deriveAssoc (s : State) (i : Nat) (sent : Bool) (ph : Nat) : State :=
  match masterKey s i, wrapKey s with
  | some km, some w => modAssoc s i fun x => { x with keys := putKey x.keys ⟨sent, ph, assocKey s i sent ph km, w⟩ }
  | _, _ => s

/-- A session key is derived and held (R399, R404). -/
def deriveSess (s : State) (n : Nat) (sent : Bool) (ph : Nat) : State :=
  match masterKey s (stAssoc s n), wrapKey s with
  | some km, some w => modSess s n fun x => { x with keys := putKey x.keys ⟨sent, ph, sessKey s n sent ph km, w⟩ }
  | _, _ => s

/-- The keys of an opening: phase 0 for sending, phases 0 and 1 for receiving (R400). -/
def openAssocKeys (s : State) (i : Nat) : State :=
  let s := modAssoc s i fun x => { x with keys := [] }
  deriveAssoc (deriveAssoc (deriveAssoc s i true 0) i false 0) i false 1
def openSessKeys (s : State) (n : Nat) : State :=
  let s := modSess s n fun x => { x with keys := [] }
  deriveSess (deriveSess (deriveSess s n true 0) n false 0) n false 1

/-- The frame is protected by the session's key: DATA, ACK and NAK (R398). -/
def bySession (typ : Nat) : Bool := typ == 1 || typ == 2 || typ == 3

/-- The IV of a frame (R399). -/
def hxpIv (h : Hdr) : List Nat := beBytes 12 (h.dst * 2 ^ 64 + h.seq * 2 ^ 32 + h.keyph % 256 * 2 ^ 24 + h.typ * 2 ^ 20)

/-- The tag of an association's OPEN or OPEN_ACK (R399). -/
def openTag (km : List Nat) (hb payload : List Nat) : List Nat := (hmac sha256 km (ascii "HXP1" ++ [0x4F] ++ hb ++ payload)).take 16

/-- A protected frame body: header, payload and tag (R399). -/
def protect (key : List Nat) (conf : Bool) (h : Hdr) (payload : List Nat) : List Nat :=
  let ks := aesKeys key
  let hb := hdrBytes h
  if conf then
    let ct := gcmCrypt ks (hxpIv h) payload
    hb ++ ct ++ gcmTag ks (hxpIv h) hb ct
  else hb ++ payload ++ gcmTag ks (hxpIv h) (hb ++ payload) []

/-- The plain payload of a protected body, where its tag verifies (R399, R401 step 5). -/
def unprotect (key : List Nat) (conf : Bool) (hb body tag : List Nat) : Option (List Nat) :=
  let ks := aesKeys key
  let iv := hxpIv (parseHdr hb)
  if conf then (if gcmTag ks iv hb body = tag then some (gcmCrypt ks iv body) else none)
  else if gcmTag ks iv (hb ++ body) [] = tag then some body else none

/-! ### Ethernet, IP and UDP (R396, R419) -/

/-- The Internet checksum of bytes. -/
def inetSum (l : List Nat) : Nat :=
  let t := ((chunks 2 (padTo 2 l)).map beNat).sum
  let f := t % 65536 + t / 65536
  let f := f % 65536 + f / 65536
  65535 - (f % 65536 + f / 65536)

/-- The bytes over which UDP's checksum runs besides the datagram. -/
def pseudo (v6 : Bool) (src dst len : Nat) : List Nat :=
  if v6 then beBytes 16 src ++ beBytes 16 dst ++ beBytes 4 len ++ [0, 0, 0, 17]
  else beBytes 4 src ++ beBytes 4 dst ++ [0, 17] ++ beBytes 2 len

/-- A UDP datagram with its checksum. -/
def udpBytes (v6 : Bool) (src dst sport dport : Nat) (body : List Nat) : List Nat :=
  let len := 8 + body.length
  let h := fun (c : Nat) => beBytes 2 sport ++ beBytes 2 dport ++ beBytes 2 len ++ beBytes 2 c
  let c := inetSum (pseudo v6 src dst len ++ h 0 ++ body)
  h (if c = 0 then 65535 else c) ++ body

/-- The IP header before a datagram; `id` is what the spec leaves open: the IPv6 flow label or the IPv4 identification. -/
def ipHeader (v6 : Bool) (dscp id src dst len : Nat) : List Nat :=
  if v6 then beBytes 4 (6 * 2 ^ 28 + dscp * 2 ^ 22 + id % 2 ^ 20) ++ beBytes 2 len ++ [17, 64] ++ beBytes 16 src ++ beBytes 16 dst
  else
    let h := fun (c : Nat) => [0x45, dscp * 4] ++ beBytes 2 (20 + len) ++ beBytes 2 id ++ [0x40, 0, 64, 17] ++ beBytes 2 c
      ++ beBytes 4 src ++ beBytes 4 dst
    h (inetSum (h 0))

/-- A MAC address of a sub-port (R422). -/
def macOfPort (s : State) (d k : Nat) : Nat :=
  getReg s d bHxp (rHxpMacHi + 2 * k) * 2 ^ 32 + getReg s d bHxp (rHxpMacHi + 2 * k + 1)

/-- The Ethernet frame that carries an HXP frame on a shroud (R396). -/
def encap (s : State) (i : Nat) (b : Bool) (id : Nat) (body : List Nat) : List Nat :=
  let d := shDie s i b
  let udp := getF s d bHxp rHxpCfg 31 16
  let v6 := isV6 s i
  let dgram := udpBytes v6 (lAddr s i b) (rAddr s i b) udp (atF s i 1 15 0) body
  let tag := if shVlan s i b = 0 then []
    else [0x81, 0x00] ++ beBytes 2 (getF s d bHxp rHxpCfg 9 7 * 2 ^ 13 + shVlan s i b)
  beBytes 6 (nhMac s i b) ++ beBytes 6 (macOfPort s d (shSub s i b)) ++ tag ++ (if v6 then [0x86, 0xDD] else [0x08, 0x00])
    ++ ipHeader v6 (getF s d bHxp rHxpCfg 15 10) id (lAddr s i b) (rAddr s i b) dgram.length ++ dgram

/-- Sub-ports of a die's port under `HXP_PORT.BRK` (R419). -/
def subPorts (s : State) (d : Nat) : Nat :=
  match getF s d bHxp rHxpPort 31 30 with
  | 1 => 2
  | 2 => 4
  | _ => 1

/-- A sub-port has link (R419, R422). -/
def portUp (s : State) (d k : Nat) : Bool := decide (k < subPorts s d) && bitOf (getF s d bHxp rHxpPort 3 0) k

/-- Bytes as they are held in the state. -/
def toBytes (l : List Nat) : List Byte := l.map (BitVec.ofNat 8)
def ofBytes (l : List Byte) : List Nat := l.map (·.toNat)

/-- A frame body leaves on a shroud from an engine of die `e`, where the port has link; the copy of a DATA frame also needs the shroud UP
(R406). It goes over the ring where the port is on another die. -/
def sendOn (s : State) (e i : Nat) (b data : Bool) (body : List Nat) : State :=
  let d := shDie s i b
  if portUp s d (shSub s i b) && (!data || shUp s i b) then
    let f := takeFree s
    strmSend f.2 e (.outbound e d (shSub s i b) (toBytes (encap s i b f.1.toNat body)))
  else s

/-- A frame body leaves on both shrouds. -/
def sendBoth (s : State) (e i : Nat) (data : Bool) (body : List Nat) : State :=
  sendOn (sendOn s e i false data body) e i true data body

/-! ### Receiving (R401 steps 2 to 5) -/

/-- A frame as its port reads it. -/
structure IpFrame where
  v6 : Bool
  src : Nat
  dst : Nat
  dport : Nat
  ulen : Nat
  sumOk : Bool
  body : List Nat
  deriving DecidableEq, Repr

/-- The UDP datagram of an IP payload. -/
def parseUdp (v6 : Bool) (src dst : Nat) (l : List Nat) : Option IpFrame :=
  if l.length < 8 then none
  else
    let n := beAt l 4 2
    let sum := beAt l 6 2
    let ok := (sum = 0 ∧ v6 = false) ∨ (sum ≠ 0 ∧ inetSum (pseudo v6 src dst n ++ l.take n) = 0)
    some ⟨v6, src, dst, beAt l 2 2, n, decide ok, (l.take n).drop 8⟩

/-- Ethertype, IP header and UDP of a frame; none where the frame is not plain UDP over IP (R401 step 2). -/
def parseFrame (l : List Nat) : Option IpFrame :=
  let off := if beAt l 12 2 = 0x8100 then 18 else 14
  let typ := beAt l (off - 2) 2
  let p := l.drop off
  if typ = 0x86DD then
    if p.length < 40 ∨ p.getD 0 0 / 16 ≠ 6 ∨ p.getD 6 0 ≠ 17 then none
    else parseUdp true (beAt p 8 16) (beAt p 24 16) ((p.drop 40).take (beAt p 4 2))
  else if typ = 0x0800 then
    if p.length < 20 ∨ p.getD 0 0 ≠ 0x45 ∨ beAt p 6 2 % 2 ^ 14 ≠ 0 ∨ p.getD 9 0 ≠ 17 ∨ inetSum (p.take 20) ≠ 0 then none
    else parseUdp false (beAt p 12 4) (beAt p 16 4) ((p.drop 20).take (beAt p 2 2 - 20))
  else none

/-- The associations of the package. -/
def assocIdx : List Nat := List.range 4096

/-- The address is the local address, on this port, of some valid association (R401 step 2). -/
def localAddr (s : State) (d sub : Nat) (f : IpFrame) : Bool :=
  assocIdx.any fun i => atOk s i && isV6 s i == f.v6 &&
    [false, true].any fun b => shDie s i b == d && shSub s i b == sub && lAddr s i b == f.dst

/-- A payload length is one that a type has (R397, R398). -/
def plenOk (typ n : Nat) : Bool :=
  n % 8 == 0 && (if typ = 1 then decide (8 ≤ n) && decide (n ≤ 8192) else if typ = 4 ∨ typ = 5 then n == 16 else n == 0)

/-- The fields that a type does not use are 0 (R397, R398). -/
def fieldsOk (h : Hdr) : Bool :=
  (!h.rel || h.typ == 9 || h.typ == 10)
  && (h.typ == 1 || (h.xnum == 0 && h.segno == 0 && h.segcnt == 0))
  && (h.typ != 1 || (decide (1 ≤ h.segcnt) && decide (h.segcnt ≤ 128) && decide (h.segno < h.segcnt)))
  && (h.typ == 2 || h.typ == 3 || (h.ack == 0 && h.credit == 0))
  && (h.typ == 2 || h.typ == 3 || h.typ == 9 || h.typ == 10 || h.epoch == 0)

/-- The session or association that a destination names for a type (R395, R398). -/
def target (s : State) (h : Hdr) : Option (Option Nat × Nat) :=
  if h.dst < 65536 then
    if stOk s h.dst && atOk s (stAssoc s h.dst) && decide (h.typ ≤ 8) then some (some h.dst, stAssoc s h.dst) else none
  else if 2 ^ 31 ≤ h.dst ∧ h.dst < 2 ^ 31 + 4096 then
    let i := h.dst - 2 ^ 31
    if atOk s i && (h.typ == 4 || h.typ == 5 || (decide (9 ≤ h.typ) && decide (h.typ ≤ 11))) then some (none, i) else none
  else none

/-- The shroud of an association on which a frame from an address arrives at a port (R401 step 4). -/
def arrivalShroud (s : State) (i d sub src : Nat) : Option Bool :=
  [false, true].find? fun b => shDie s i b == d && shSub s i b == sub && rAddr s i b == src

/-- The phases that a receiver holds which `KEYPH` can name: the current one, the next, and the one before while it is held (R400). -/
def phases (ph : Nat) (old : Bool) (keyph : Nat) : List Nat :=
  ([ph, ph + 1] ++ (if old ∧ 0 < ph then [ph - 1] else [])).filter fun p => p % 256 == keyph

/-- The ID that a frame's `DST_ID` holds (R395). -/
def frDst (f : HxFrame) : Nat := f.session.getD (aidOf f.assoc)

/-- The header of a received frame (R397). -/
def frHdr (f : HxFrame) : Hdr :=
  ⟨f.typ, f.rel, f.payload.length, frDst f, f.seq, f.epoch, f.xnum, f.ack, f.credit, f.segno, f.segcnt, f.keyph⟩

/-- The plain payload of a frame whose tag verifies at its serving engine, with the key phase that it used (R399, R401 step 5). -/
def verify (s : State) (f : HxFrame) : Option (List Nat × Nat) :=
  let i := f.assoc
  let hb := hdrBytes (frHdr f)
  let body := ofBytes f.payload
  let tag := ofBytes f.tag
  let try' (ks : List DKey) (ps : List Nat) (conf : Bool) : Option (List Nat × Nat) :=
    ps.findSome? fun p => (heldKey s ks false p).bind fun key => (unprotect key conf hb body tag).map fun x => (x, p)
  let byAssoc (conf : Bool) : Option (List Nat × Nat) :=
    if (getAssoc s i).phase ≠ 2 then none else try' (getAssoc s i).keys (phases (getAssoc s i).phRx false f.keyph) conf
  match f.session with
  | none =>
    if f.typ = 4 ∨ f.typ = 5 then (masterKey s i).bind fun km => if openTag km hb body = tag then some (body, 0) else none
    else byAssoc false
  | some n =>
    if bySession f.typ then
      let x := getSess s n
      if stState s n ≠ ssOpen ∧ stState s n ≠ ssClosing then none
      else try' x.keys (phases x.phRx x.phCut.isSome f.keyph) (stConf s n)
    else byAssoc (stConf s n)

end Sys2Proof.Machine
end

