-- ==== Sys2Proof/Machine/Nvme.lean ====
section
/-! DEFINITION. NVMe commands of the engines: queue slots, submission, completion, timeouts, reissues and lost controllers
(spec 12: R366, R387; 15: R454). -/

namespace Sys2Proof.Machine

/-- Queue pairs of an engine at a controller, and slots of each (R387, R391). -/
def nvPairs (s : State) (d : Nat) : Nat := min 64 (max 1 (getF s d bChn rChnNvmeq 22 16))
def nvDepth (s : State) (d c : Nat) : Nat := min (min 1024 (max 2 (getF s d bChn rChnNvmeq 10 0))) (getCtrl s c).mqes

/-- Controller and target words of an exchange. -/
def xCtrl (s : State) (i : Nat) : Nat := wfld (descWord s i 6) 63 32
def xNsid (s : State) (i : Nat) : Nat := wfld (descWord s i 6) 31 0

/-- A free slot at a controller, queue pair and slot, while the event queue has an entry to reserve for the completion (R428; DESIGN CHOICE:
the first slot in order; the spec does not say which). -/
def nvSlot (s : State) (k c : Nat) : Option (Nat × Nat) :=
  let n := nvDepth s (k / 16) c
  if 256 ≤ evUsed s k then none
  else (firstBelow (nvPairs s (k / 16) * n) fun j =>
    !((getEng s k).cmds.any fun m => m.eng == k && m.ctrl == c && m.pair == j / n && m.slot == j % n)).map fun j => (j / n, j % n)

/-- The CID of a command (R387). -/
def nvCid (gen slot : Nat) : Nat := gen % 64 * 2 ^ 10 + slot % 2 ^ 10

/-- The opcode of an NVMe kind: Flush 0, Write 1, Read 2 (NVM command set). -/
def nvOp (kind : Nat) : Nat := if kind = xkFlush then 0 else if kind = xkWrite then 1 else 2

/-- TIMEBASE at which a command times out (R387). -/
def nvDue (s : State) (d : Nat) : Word := timeOf s d + w64 (max 1 (getF s d bChn rChnNvmetmo 15 0) * 1000000)

/-- The exchange reads its source, or writes its destination (R366). -/
def hasSource (s : State) (i : Nat) : Bool :=
  let k := entKind s i
  k == xkMove || k == xkWrite || k == xkSend || (k == xkRaw && wfld (descWord s i 8) 1 0 == 1)
def hasDest (s : State) (i : Nat) : Bool :=
  let k := entKind s i
  k == xkMove || k == xkRead || (k == xkRaw && wfld (descWord s i 8) 1 0 == 2)

/-- A byte range joins the last one where it follows it. -/
def joinRange (l : List (Nat × Nat)) (r : Nat × Nat) : List (Nat × Nat) :=
  match l.getLast? with
  | some t => if t.1 + t.2 = r.1 then l.dropLast ++ [(t.1, t.2 + r.2)] else l ++ [r]
  | none => [r]

/-- The pieces of a byte range that 4 KiB pages cut (PRESUMED: the page of the NVMe base specification's default). -/
def prpPieces (r : Nat × Nat) : List (Nat × Nat) :=
  (List.range ((r.1 % 4096 + r.2 + 4095) / 4096)).map fun j =>
    let a := max r.1 ((r.1 / 4096 + j) * 4096)
    (a, min (r.1 + r.2) ((r.1 / 4096 + j + 1) * 4096) - a)

/-- The staged units of `n` bytes: their byte addresses, in the root port's staging buffer or in reserved memory, are stated nowhere and
free (R454). -/
def stagedData : Nat → Nat → State → List (Nat × Nat) × State
  | 0, _, s => ([], s)
  | u + 1, n, s =>
    let f := takeFree s
    let r := stagedData u (n - 4096) f.2
    ((f.1.toNat / 4096 * 4096, min 4096 n) :: r.1, r.2)

/-- What the data pointer of an exchange's command names: the byte address and bytes of each SGL data block, or of each page; the staged
units for a command with a chain (R387, R454). -/
def nvData (s : State) (k i : Nat) (sgl : Bool) : List (Nat × Nat) × State :=
  let c := xCtx s (k / 16) i
  let src := hasSource s i
  if !(src || hasDest s i) then ([], s)
  else if xformOf s i ≠ 0 ∧ isNvmeChain (entKind s i) then stagedData ((nvmeBytes s i + 4095) / 4096) (nvmeBytes s i) s
  else
    match buffers s c (descWord s i (if src then 2 else 3)) (wfld (descWord s i 4) 31 0) with
    | .error _ => ([], s)
    | .ok bs =>
      let l := ((bufAddrs bs).filterMap fun va => (translate s c (if src then .read else .write) va).toOption).foldl
        (fun l pa => joinRange l (8 * pa, 8)) []
      (if sgl then l else l.flatMap prpPieces, s)

/-- The two words of a data pointer; the address of a list, in reserved memory of the engine's die, is stated nowhere: a free value
(PRESUMED: the layout of the NVMe base specification; R387). -/
def nvPointer (s : State) (sgl : Bool) (l : List (Nat × Nat)) : Word × Word × State :=
  let f := takeFree s
  match l with
  | [] => (0, 0, s)
  | [(a, n)] => (w64 a, if sgl then w64 n else 0, s)
  | (a, _) :: (b, _) :: t =>
    if sgl then (f.1, w64 (0x30 * 2 ^ 56 + 16 * l.length), f.2) else (w64 a, if t.isEmpty then w64 b else f.1, if t.isEmpty then s else f.2)

/-- The command of an exchange is submitted in a slot (R387). -/
def nvSubmit (s : State) (k i pair slot : Nat) : State :=
  let c := xCtrl s i
  let gen := entGen s i
  let cid := nvCid gen slot
  let s := modEng s k fun e => { e with cmds := e.cmds ++ [⟨c, pair, slot, k, i, gen, false, false⟩] }
  let s := modWork (setEnt s i 7 (nvDue s (k / 16))) i fun w => { w with cmdOut := true }
  let sgl := (getCtrl s c).sgl
  let r := nvData s k i sgl
  let l := r.1
  let s := r.2
  if entKind s i = xkRaw then
    let p := nvPointer s sgl l
    let w := peeks s (entDesc s i + 8) 8
    give p.2.2 (.nvmeRaw k c pair
      ([wput (wput (w.getD 0 0) 31 16 cid) 15 14 (b2n sgl), w.getD 1 0, w.getD 2 0, p.1, p.2.1] ++ w.drop 5) sgl l)
  else
    let w8 := descWord s i 8
    give s (.nvme k c pair cid (nvOp (entKind s i)) (xNsid s i) (descWord s i 7) (wfld w8 15 0) (wbit w8 16) sgl l)

/-- The admin commands that bring a controller up: Identify, then a completion and a submission queue for each pair of each engine of
the die whose root port holds it (R387; opcodes PRESUMED from the NVMe base specification). -/
def nvSetup (s : State) (c : Nat) : State :=
  let d := (getCtrl s c).die
  { s with given := s.given ++ .nvmeAdmin c 6 0 0 :: ((List.range 16).flatMap fun e =>
      (List.range (nvPairs s d)).flatMap fun q => [.nvmeAdmin c 5 (engKey d e) q, .nvmeAdmin c 1 (engKey d e) q]) }

/-- The exchange's command leaves its slot; one whose completion has not come keeps its entry of the event queue for it (R428). -/
def nvDrop (s : State) (k i : Nat) : State :=
  modEng s k fun e =>
    { e with cmds := e.cmds.filter (·.index != i), late := e.late ++ e.cmds.filter fun m => m.index == i && !m.came }

/-- An exchange leaves an engine's list. -/
def unserve (s : State) (k i : Nat) : State := modEng s k fun e => { e with serve := e.serve.filter (·.1 != i) }
/-- An exchange enters OPEN at its serving engine: the last of the list (R375). -/
def serveLast (s : State) (k i : Nat) : State := modEng (unserve s k i) k fun e => { e with serve := e.serve ++ [(i, false)] }

/-- An exchange that cannot be reissued ends under R387. -/
def nvFail (s : State) (i reason detail : Nat) : State :=
  let k := entKind s i
  if (k = xkWrite ∨ k = xkRaw) ∧ (getWork s i).unconfirmed then
    closeWith s i (if reason = rsNvmeLost then rsNvmeLost else rsNvmeTimeout) 0 true
  else closeWith s i reason detail false

/-- A reissue, or the end after the third one (R375, R387). -/
def nvRetry (s : State) (k i reason detail : Nat) : State :=
  let s := nvDrop s k i
  if entTries s i < 3 then
    let s := setEntF s i 0 32 30 (entTries s i + 1)
    let s := setEntF s i 0 29 24 ((entGen s i + 1) % 64)
    serveLast (setEnt (setEntF s i 0 63 60 lOpen) i 7 0) k i
  else nvFail s i reason detail

/-- The chain of an exchange becomes a job of the transform scheduler (R478). -/
def chainStart (s : State) (d i : Nat) : State :=
  let l := chainOf s i
  let st := stagesOf l
  let j : ChainJob :=
    ⟨i, entPart s i, chainLen s i l, 0, st.any (·.op == 1), st.any (·.op == 2), (st.filter isWoad).length,
      st.flatMap stageKeys, none, none, []⟩
  { s with xforms := tmod (fun _ => XfDie.init) s.xforms d fun x => { x with jobs := x.jobs ++ [j] } }

/-- Every transfer of an exchange is done: it closes with no reason (R375). -/
def closeOk (s : State) (i : Nat) : State := closeWith s i 0 0 false

/-- A successful completion (R375, R387): a read's words go to its destination, or to its chain. -/
def nvSuccess (s : State) (k i : Nat) (data : List Word) : State :=
  let d := k / 16
  let kind := entKind s i
  let s := modWork (setEnt (nvDrop s k i) i 7 0) i fun w => { w with cmdOut := false }
  let len := wfld (descWord s i 4) 31 0
  if kind = xkRead then
    if xformOf s i ≠ 0 then chainStart (modWork (setXlen s i (nvmeBytes s i / 8)) i fun w => { w with data := data }) d i
    else
      let c := xCtx s d i
      match destBufs s c i with
      | .error e => closeWith s i e 0 false
      | .ok bs => closeOk (setXlen (fillBufs s c (hintOf s i) bs (data.take len)).1 i len) i
  else if kind = xkWrite then closeOk (setXlen s i (nvmeBytes s i / 8)) i
  else if kind = xkRaw then
    let c := xCtx s d i
    let op := wfld (descWord s i 8) 7 0
    let s := match destBufs s c i with
      | .ok bs => if op % 4 = 2 then (fillBufs s c (hintOf s i) bs (data.take len)).1 else s
      | .error _ => s
    closeOk (setXlen s i (if op % 4 = 0 then 0 else len)) i
  else closeOk (setXlen s i 0) i

/-- The outcome of a completion entry's dword 3 for an ACTIVE exchange (R387). -/
def nvOutcome (s : State) (k i dw3 : Nat) (data : List Word) : State :=
  if fld dw3 31 17 = 0 then nvSuccess s k i data
  else if bitOf dw3 31 then closeWith (nvDrop s k i) i rsNvmeStatus dw3 false
  else nvRetry s k i rsNvmeStatus dw3

/-- The command is the one that a completion entry names. -/
def cidOf (m : NvCmd) (k0 c pair cid : Nat) : Bool :=
  m.eng == k0 && m.ctrl == c && m.pair == pair && nvCid m.gen m.slot == cid

/-- The event of a completion stands in the entry that its command has reserved; a completion of no operation of the engine raises none
(R427, R428). -/
def nvEvent (s : State) (k k0 c pair cid : Nat) : State :=
  let v := w64 (c * 2 ^ 32 + pair)
  if (getEng s k).cmds.any fun m => cidOf m k0 c pair cid && !m.came then
    evPush (modEng s k fun e =>
      { e with cmds := e.cmds.map fun m => if cidOf m k0 c pair cid then { m with came := true } else m }) k 3 v 0
  else if (getEng s k).late.any fun m => cidOf m k0 c pair cid then
    evPush (modEng s k fun e => { e with late := e.late.eraseP fun m => cidOf m k0 c pair cid }) k 3 v 0
  else s

/-- NVME_COMPLETION: a completion entry arrives at a queue pair of an engine (R387). -/
def nvmeCompletion (s : State) (k0 c pair cid dw3 : Nat) (data : List Word) : State :=
  let k := servingFor s k0
  let s := nvEvent s k k0 c pair cid
  match (getEng s k).cmds.find? fun m => m.eng == k0 && m.ctrl == c && m.pair == pair && m.slot == cid % 2 ^ 10 with
  | none => count s (k / 16) bChn rChnNvlate
  | some m =>
    if cid / 2 ^ 10 % 64 ≠ entGen s m.index then count s (k / 16) bChn rChnNvlate
    else if entState s m.index = lActive then nvOutcome s k m.index dw3 data
    else s

/-- NVME_COMPLETION (R387). -/
def execNvmeCompletion (die eng : Nat) (ctrl : BitVec 16) (pair : Nat) (cid : BitVec 16) (dw3 : BitVec 32) (data : List Word)
    (s : State) : Out :=
  unitDo s die (engUp s (servingFor s (engKey die eng)))
    (nvmeCompletion s (engKey die eng) ctrl.toNat pair cid.toNat dw3.toNat data)

/-- An exchange's command is timed out: the engine sends Abort for its CID, and waits for it for 1 s (R373, R387). -/
def nvAbort (s : State) (k : Nat) (m : NvCmd) : State :=
  let s := setEnt (setEntF s m.index 0 63 60 lAborting) m.index 7 (timeOf s (k / 16) + w64 1000000000)
  let s := modEng s k fun e => { e with cmds := e.cmds.map fun x => if x.index = m.index then { x with aborting := true } else x }
  give s (.nvmeAbort m.eng m.ctrl m.pair (nvCid m.gen m.slot))

/-- NVME_TIMEOUT (R387). -/
def nvmeTimeout (s : State) (k i : Nat) : State :=
  match (getEng s k).cmds.find? (·.index == i) with
  | some m => if entState s i = lActive then nvAbort s k m else s
  | none => s

/-- NVME_TIMEOUT: the timer of an exchange's command expires (R387). -/
def execNvmeTimeout (die eng : Nat) (index : BitVec 24) (s : State) : Out :=
  unitDo s die (engUp s (engKey die eng)) (nvmeTimeout s (engKey die eng) index.toNat)

/-- ABORT_DONE: the abort completes, or 1 s has passed without it (R375, R387). -/
def abortDone (s : State) (k i : Nat) (confirmed : Bool) : State :=
  if entState s i = lAborting ∧ (getEng s k).cmds.any (·.index == i) then
    nvRetry (if confirmed then s else modWork s i fun w => { w with unconfirmed := true }) k i rsNvmeTimeout 0
  else s

/-- ABORT_DONE (R375). -/
def execAbortDone (die eng : Nat) (index : BitVec 24) (confirmed : Bool) (s : State) : Out :=
  unitDo s die (engUp s (engKey die eng)) (abortDone s (engKey die eng) index.toNat confirmed)

/-- Every engine of the package. -/
def allEngs (s : State) : List Nat := List.range (16 * nDies s.part)

/-- Every outstanding command at a controller counts as timed out (R387). -/
def timeOutAll (s : State) (c : Nat) : State :=
  (allEngs s).foldl (fun s k =>
    ((getEng s k).cmds.filter fun m => m.ctrl == c && !m.aborting).foldl (fun s m => nvAbort s k m) s) s

/-- Every ledger index of the package that is not FREE. -/
def allLive (s : State) : List Nat := (List.range (nDies s.part)).flatMap fun d => (getChan s d).live

/-- The completion of a refusal for entries that wait for a journal that has failed (R375). -/
def journalErr (s : State) (d i : Nat) : State :=
  let part := entPart s i
  let ctag := ent s i 2
  let user := ent s i 4
  let kind := entKind s i
  let recDue := wbit (ent s i 0) 41
  let acc := (getWork s i).acc
  let s := pctAdd (pctAdd s d part 2 (-1)) d part 3 (-1)
  let old := jOcc (getChan s d)
  let s := jMark (modChan s d fun c => { c with reserved := tdel c.reserved i }) d old
  let s := { ldgFree (setEntF s i 0 63 60 lFree) d i with works := tdel s.works i }
  refuse s acc part ctag user kind rsJournalErr recDue

/-- The ledger device leaves service: every die's journal stops, entries in ACCEPTING are refused, source 0x214 is raised
(R375, R382). -/
def ldevLeaves (s : State) : State :=
  (List.range (nDies s.part)).foldl (fun s d =>
    if ldevUp s d then
      let s := evRaise (modChan s d fun c => { c with ldevLost := true, jrecs := c.jrecs.filter (·.durable) }) d 0x214
      ((getChan s d).live.filter fun i => entState s i == lAccepting).foldl (fun s i => journalErr s d i) s
    else s) s

/-- A controller leaves service: its exchanges end with NVME_LOST, their commands without a confirmed abort (R387), and so does the ledger
device behind it (R382). -/
def ctrlLost (s : State) (c : Nat) : State :=
  let s := modCtrl s c fun x => { x with out := true }
  let s := { s with engs := s.engs.map fun p => (p.1, { p.2 with late := p.2.late.filter (·.ctrl != c) }) }
  let s := (allLive s).foldl (fun s i =>
    if isNvme (entKind s i) ∧ xCtrl s i = c ∧ (entState s i = lOpen ∨ entState s i = lActive ∨ entState s i = lAborting) then
      let k := servingFor s (entOwner s i)
      let s := if (getEng s k).cmds.any (·.index == i) then modWork s i fun w => { w with unconfirmed := true } else s
      nvFail (dropChain (modEng s k fun e => { e with cmds := e.cmds.filter (·.index != i) }) (k / 16) i) i rsNvmeLost 0
    else s) s
  if getF s 0 bChn rChnLdev 31 30 = 2 ∧ getF s 0 bChn rChnLdev 15 0 = c then ldevLeaves s else s

/-- CONTROLLER_FATAL: a fatal status or a failed link resets the controller once; its commands count as timed out (R387). -/
def execControllerFatal (ctrl : BitVec 16) (s : State) : Out :=
  let c := ctrl.toNat
  .next (if s.fatal || (getCtrl s c).out then s
    else if (getCtrl s c).wasReset then ctrlLost s c
    else nvSetup (give (timeOutAll (modCtrl s c fun x => { x with wasReset := true }) c) (.nvmeReset c)) c)

/-- CONTROLLER_RESET_TIMEOUT: the reset has failed within 10 s (R387). -/
def execControllerResetTimeout (ctrl : BitVec 16) (s : State) : Out :=
  let c := ctrl.toNat
  .next (if s.fatal || (getCtrl s c).out || !(getCtrl s c).wasReset then s else ctrlLost s c)

end Sys2Proof.Machine
end

