-- ==== Sys2Proof/Machine/Hxp.lean ====
section
/-! DEFINITION. HXP at the serving engines: sending and receiving, sessions, the duplicate map and the steering lease (spec 13:
R402 to R420; 02 R60; 05 R171). -/

namespace Sys2Proof.Machine

/-- A counter of the HXP block of a die counts. -/
def countHxp (s : State) (d word : Nat) : State := count s d bHxp word

/-! ### Control frames (R398, R402) -/

/-- The next association control count, and its key phase (R400, R402). -/
def nextAssocCtl (s : State) (i : Nat) : State :=
  let x := getAssoc s i
  let n := (x.ctlTx + 1) % 2 ^ 32
  let s := modAssoc s i fun x => { x with ctlTx := n }
  if 2 ^ 31 - 1 ≤ (n + 2 ^ 32 - x.phCtl) % 2 ^ 32 then
    deriveAssoc (modAssoc s i fun y => { y with phTx := x.phTx + 1, phCtl := n, keys := y.keys.filter fun k => !k.sent }) i true (x.phTx + 1)
  else s

/-- A frame body under the association key, with the next association control count. -/
def assocBody (s : State) (i : Nat) (conf : Bool) (h : Hdr) (payload : List Nat) : Option (List Nat) × State :=
  let s := nextAssocCtl s i
  let x := getAssoc s i
  ((heldKey s x.keys true x.phTx).map fun key =>
    protect key conf { h with seq := x.ctlTx, keyph := x.phTx % 256, plen := payload.length } payload, s)

/-- A control frame of an association on one shroud. -/
def sendAssocOn (s : State) (i : Nat) (b : Bool) (h : Hdr) : State :=
  match assocBody s i false h [] with
  | (some f, s) => sendOn s (shDie s i false) i b false f
  | (none, s) => s

/-- LEASE and LEASE_ACK (R398). -/
def sendLease (s : State) (i : Nat) (typ : Nat) (rel : Bool) (ep : Nat) (b : Bool) : State :=
  sendAssocOn s i b { hdr0 typ (rAid s i) with rel := rel, epoch := ep }

/-- A control frame of a session under the association key, on both shrouds (R398). -/
def sendSessBoth (s : State) (n typ : Nat) (payload : List Nat) : State :=
  let i := stAssoc s n
  match assocBody s i (stConf s n && payload != []) (hdr0 typ (stRsid s n)) payload with
  | (some f, s) => sendBoth s (stDie s n) i false f
  | (none, s) => s

/-- An association's OPEN or OPEN_ACK (R398, R399, R403). -/
def sendAssocOpen (s : State) (i typ : Nat) (nonce : Word) : State :=
  let s := nextAssocCtl s i
  match masterKey s i with
  | none => s
  | some km =>
    let payload := beBytes 8 nonce.toNat ++ beBytes 4 (aidOf i) ++ [0, 0, 0, 0]
    let hb := hdrBytes { hdr0 typ (rAid s i) with seq := (getAssoc s i).ctlTx, plen := 16 }
    sendBoth s (shDie s i false) i false (hb ++ payload ++ openTag km hb payload)

/-- A session's OPEN or OPEN_ACK (R398). -/
def sendSessOpen (s : State) (n typ : Nat) (nonce : Word) : State :=
  sendSessBoth s n typ (beBytes 8 nonce.toNat ++ beBytes 4 n ++ beBytes 4 (stMaxMsg s n))

/-- The end is steering (R415). -/
def steering (s : State) (i : Nat) : Bool := lState s i == 2

/-- A sender of a session moves to its next key phase (R400): it keeps the last one for frames that are sent again. -/
def nextSessPhase (s : State) (n ctl seq : Nat) : State :=
  let ph := (getSess s n).phTx + 1
  deriveSess (modSess s n fun x =>
    { x with phTx := ph, phCtl := ctl, phSeq := seq, keys := x.keys.filter fun k => !k.sent || decide (ph ≤ k.ph + 1) }) n true ph

/-- ACK or NAK on the steering shroud (R410, R411, R415). -/
def sendAckNak (s : State) (n typ ack credit : Nat) : State :=
  let i := stAssoc s n
  if !steering s i then s
  else
    let y := getSess s n
    let c := (y.ctlTx + 1) % 2 ^ 32
    let s := modSess s n fun x => { x with ctlTx := c }
    let s := if 2 ^ 31 - 1 ≤ (c + 2 ^ 32 - y.phCtl) % 2 ^ 32 then nextSessPhase s n c y.txNext else s
    let x := getSess s n
    match heldKey s x.keys true x.phTx with
    | none => s
    | some key =>
      let h := { hdr0 typ (stRsid s n) with seq := x.ctlTx, epoch := epoch s i, ack := ack, credit := credit, keyph := x.phTx % 256 }
      sendOn s (stDie s n) i (lShrB s i) false (protect key false h [])

/-- The receive ring of a session is empty (R409, R410). -/
def rxRingEmpty (s : State) (n : Nat) : Bool := (getSess s n).kept == [] && peek s (stRxr s n) == peek s (stRxr s n + 1)

/-- The receiver holds its credit (R410). -/
def creditHeld (s : State) (n : Nat) : Bool :=
  let d := stDie s n
  (getChan s d).inbound.any (·.session == n) || rxRingEmpty s n ||
    (match (getSess s n).lastHold with
      | some t => decide ((timeOf s d - t).toNat < 100000)
      | none => false)

/-- The receiver drops the phase before its current one once every frame of it is acknowledged (R400). -/
def dropPhase (x : Sess) : Sess :=
  if x.phCut.any fun q => !serBefore x.acked q then
    { x with phCut := none, keys := x.keys.filter fun k => k.sent || decide (x.phRx ≤ k.ph) }
  else x

/-- ACK with the receiver's base and credit (R410). -/
def sendAck (s : State) (n : Nat) : State :=
  let x := getSess s n
  let credit := if creditHeld s n then x.credit else (x.base + 65536) % 2 ^ 32
  if steering s (stAssoc s n) then
    sendAckNak (modSess s n fun x => dropPhase { x with credit := credit, acked := x.base }) n 2 x.base credit
  else s

/-! ### Sending messages (R405, R406, R417) -/

/-- The words of an HXP_SEND's message. -/
def msgWords (s : State) (i : Nat) : List Word := (getWork s i).data

/-- A DATA frame of a segment (R397, R398, R406). -/
def dataBody (s : State) (n : Nat) (g : TxSeg) (key : List Nat) : List Nat :=
  let h := { hdr0 1 (stRsid s n) with
    seq := g.seq, xnum := ent s g.index 1, segno := g.segno, segcnt := g.segcnt, keyph := g.phase % 256, plen := 8 * g.words.length }
  protect key (stConf s n) h (bytesOf g.words)

/-- A DATA frame leaves on both shrouds (R406); its time is noted (R411). -/
def sendSeg (s : State) (n : Nat) (g : TxSeg) : State :=
  let s := modSess s n fun x =>
    { x with unacked := x.unacked.map fun q => if q.seq = g.seq then { q with sentAt := timeOf s (stDie s n) } else q }
  match heldKey s (getSess s n).keys true g.phase with
  | some key => sendBoth s (stDie s n) (stAssoc s n) true (dataBody s n g key)
  | none => s

/-- A retransmission, counted on the serving die (R411). -/
def resendSeg (s : State) (n : Nat) (g : TxSeg) : State := sendSeg (countHxp s (stDie s n) rHxpRetxcnt) n g

/-- The next segment of a message is sent for the first time. A sequence before the one at which the phase started is no advance of the
count: it was allocated earlier and waited for credit (R400, R407). -/
def firstSend (s : State) (n i : Nat) : State :=
  let w := getWork s i
  let seq := (w.firstSeq.getD 0 + w.segNext) % 2 ^ 32
  let x := getSess s n
  let adv := (seq + 2 ^ 32 - x.phSeq) % 2 ^ 32
  let s := if 2 ^ 31 - 1 ≤ adv ∧ adv < 2 ^ 31 + 65536 then nextSessPhase s n x.ctlTx seq else s
  let g : TxSeg := ⟨seq, i, w.segNext, w.segCnt, (getSess s n).phTx, ((msgWords s i).drop (1024 * w.segNext)).take 1024, 0⟩
  let s := modWork (modSess s n fun x => { x with unacked := x.unacked ++ [g] }) i fun w => { w with segNext := w.segNext + 1 }
  sendSeg s n g

/-- Segments of a message are sent while the session is OPEN and the peer's credit allows; a CLOSING one sends nothing new (R404, R407). -/
def sendSegs (s : State) (n i : Nat) : Nat → State
  | 0 => s
  | fuel + 1 =>
    let w := getWork s i
    if stState s n == ssOpen && w.firstSeq.isSome && decide (w.segNext < w.segCnt)
        && serBefore ((w.firstSeq.getD 0 + w.segNext) % 2 ^ 32) (getSess s n).txCredit then
      sendSegs (firstSend s n i) n i fuel
    else s

/-- The session index of an HXP_SEND (R405). -/
def sendSession (s : State) (i : Nat) : Nat := wfld (descWord s i 6) 15 0

/-- The serving engine sends what waits for credit, message by message. -/
def pump (s : State) (n : Nat) : State :=
  let k := servingFor s (stEng s n)
  ((getEng s k).serve.filter fun p => entKind s p.1 == xkSend && entState s p.1 == lActive && sendSession s p.1 == n).foldl
    (fun s p => sendSegs s n p.1 128) s

/-- Address of a send record (R417). -/
def sndAddr (s : State) (n j : Nat) : Nat := stSnd s n + 2 * j
/-- The send record that holds an exchange number, or a free one (R417). -/
def sndFind (s : State) (n : Nat) (xnum : Word) : Option Nat :=
  firstBelow (2 ^ stLog2Out s n) fun j => wbit (peek s (sndAddr s n j + 1)) 0 && peek s (sndAddr s n j) == xnum
def sndFree (s : State) (n : Nat) : Option Nat := firstBelow (2 ^ stLog2Out s n) fun j => !wbit (peek s (sndAddr s n j + 1)) 0

/-- A send record is cleared once its exchange is terminal (R417). -/
def sndClear (s : State) (i : Nat) : State :=
  let n := sendSession s i
  match sndFind s n (ent s i 1) with
  | some j => store s (stDie s n) (sndAddr s n j + 1) 0
  | none => s

/-- The segments of a message that have been acknowledged, from its first path sequence (R412). -/
def segsAcked (s : State) (n first cnt : Nat) : Nat :=
  let a := ((getSess s n).txAck + 2 ^ 32 - first) % 2 ^ 32
  if a < 2 ^ 31 then min cnt a else 0

/-- The segments of a message that have been sent: those acknowledged, and those up to the last that waits for its acknowledgement. -/
def segsSent (s : State) (n i first cnt : Nat) : Nat :=
  (((getSess s n).unacked.filter (·.index == i)).map fun g => g.segno + 1).foldl max (segsAcked s n first cnt)

/-- A segment of an HXP_SEND has been sent: its record says so also after a take-over (R417, R418). -/
def segSent (s : State) (n i : Nat) : Bool :=
  match sndFind s n (ent s i 1) with
  | some j =>
    let w := peek s (sndAddr s n j + 1)
    decide (0 < segsSent s n i (wfld w 63 32) (wfld w 31 16))
  | none => false

/-- The exchange waits in OPEN, in its place, and is counted once (R375, R390, R421). -/
def sendWait (s : State) (k i : Nat) : State :=
  let s := setEntF s i 0 63 60 lOpen
  if (getEng s k).serve.any fun p => p.1 == i && !p.2 then
    count (modEng s k fun e => { e with serve := e.serve.map fun p => if p.1 = i then (i, true) else p }) (k / 16) bChn rChnQwait
  else s

/-- HXP_SEND_START: the message is numbered, its record written, and its segments sent; a take-over engine sends what waits for its
acknowledgement again, and goes on behind it (R405, R417). -/
def sendStart (s : State) (i : Nat) : State :=
  let n := sendSession s i
  let d := stDie s n
  let w := getWork s i
  let ws := msgWords s i
  let ready := xformOf s i = 0 ∨ w.chainDone = true
  if entKind s i ≠ xkSend ∨ entState s i ≠ lActive ∨ w.firstSeq.isSome ∨ ¬ready then s
  else if stState s n ≠ ssOpen ∧ !segSent s n i then closeWith s i rsHxp 1 false
  else
    let src := if xformOf s i ≠ 0 then Except.ok ws else sourceWords s (xCtx s d i) i
    match src with
    | .error e => closeWith s i e 0 false
    | .ok ws =>
      if (getSess s n).peerMax < ws.length then closeWith s i rsHxp 2 false
      else
        let cnt := (ws.length + 1023) / 1024
        match sndFind s n (ent s i 1) with
        | some j =>
          let first := wfld (peek s (sndAddr s n j + 1)) 63 32
          let s := modWork s i fun w =>
            { w with data := ws, words := ws.length, firstSeq := some first, segCnt := cnt, sendSlot := j,
                     segNext := segsSent s n i first cnt }
          sendSegs (((getSess s n).unacked.filter (·.index == i)).foldl (fun s g => resendSeg s n g) s) n i 128
        | none =>
          match sndFree s n with
          | none => sendWait s (servingFor s (entOwner s i)) i
          | some j =>
            let first := (getSess s n).txNext
            if !serBefore first (getSess s n).txCredit then sendWait s (servingFor s (entOwner s i)) i
            else
            let s := store (store s d (sndAddr s n j) (ent s i 1)) d (sndAddr s n j + 1) (w64 (first * 2 ^ 32 + cnt * 2 ^ 16 + 1))
            let s := modWork s i fun w =>
              { w with data := ws, words := ws.length, firstSeq := some first, segNext := 0, segCnt := cnt, sendSlot := j }
            sendSegs (modSess s n fun x => { x with txNext := (first + cnt) % 2 ^ 32 }) n i 128

/-- HXP_SEND_START (R405). -/
def execHxpSendStart (die eng : Nat) (index : BitVec 24) (s : State) : Out :=
  unitDo s die (engUp s (engKey die eng) && servingFor s (entOwner s index.toNat) == engKey die eng) (sendStart s index.toNat)

/-! ### The end of a session (R404, R418) -/

/-- An inbound exchange that fails is delivered as a completion record (R171). -/
def recvFail (s : State) (i reason detail : Nat) : State :=
  closeWith (setEntF (setEnt s i 2 0) i 0 41 41 1) i reason detail false

/-- The outcomes of R418 for the exchanges of a session. -/
def endExchanges (s : State) (n cause : Nat) : State :=
  (allLive s).foldl (fun s i =>
    let st := entState s i
    if st ≠ lOpen ∧ st ≠ lActive then s
    else if entKind s i = xkSend ∧ sendSession s i = n then
      let t := dropChain s (servingFor s (entOwner s i) / 16) i
      if segSent s n i then closeWith t i rsHxp cause true else closeWith t i rsHxp 3 false
    else s) s

/-- Inbound messages of a session end, and their buffers are kept for its next message (R418). -/
def endInbound (s : State) (n : Nat) : State :=
  let d := stDie s n
  let waiting := (getChan s d).inbound.filter (·.session == n)
  let s := (getSess s n).rx.foldl (fun s m =>
    match m.index with
    | some i => modSess (recvFail s i rsHxp 3) n fun x => { x with kept := x.kept ++ [m.buffer] }
    | none => s) s
  let s := waiting.foldl (fun s b => modSess (recvFail s b.index rsHxp 3) n fun x => { x with kept := x.kept ++ [b.buffer] }) s
  modChan s d fun c => { c with inbound := c.inbound.filter (·.session != n) }

/-- Ending a session: its exchanges reach the outcomes of R418. -/
def endSession (s : State) (n cause : Nat) : State :=
  modSess (endInbound (endExchanges s n cause) n) n fun x =>
    { x with unacked := [], rx := [], closeSent := false, expiries := 0, opens := 0, keys := [], phCut := none }

/-- The session is CLOSED: ended, with source 0x283 (R404). -/
def closeSession (s : State) (n cause : Nat) : State := evRaise (endSession (setSt s n ssClosed) n cause) (stDie s n) 0x283

/-- The session opens: its keys derive, base and counts start at 0 (R399, R402, R404); the frame that opens it has just arrived. -/
def openSession (s : State) (n : Nat) (peerMax : Nat) : State :=
  openSessKeys (modSess (setSt s n ssOpen) n fun x =>
    { x with peerMax := peerMax, base := 0, credit := 65536, acked := 0, txNext := 0, txAck := 0, txCredit := 65536, ctlTx := 0,
             ctlRx := some 0, phTx := 0, phRx := 0, phSeq := 0, phCtl := 0, closeSent := false, unacked := [], expiries := 0, rx := [],
             lastHold := none, lastAuth := timeOf s (stDie s n), phCut := none }) n

/-- The duplicate map of a session starts empty. -/
def clearMap (s : State) (n : Nat) : State :=
  (List.range 1024).foldl (fun s j => if peek s (stMap s n + j) = 0 then s else store s (stDie s n) (stMap s n + j) 0) s

/-- A message of the session has begun to be sent and is not acknowledged whole (R404, R412). -/
def sendsOpen (s : State) (n : Nat) : Bool :=
  (getEng s (servingFor s (stEng s n))).serve.any fun p =>
    entKind s p.1 == xkSend && (entState s p.1 == lActive || entState s p.1 == lOpen) && sendSession s p.1 == n && segSent s n p.1

/-- CLOSE goes out once every sent message is acknowledged (R404). -/
def tryClose (s : State) (n : Nat) : State :=
  if stState s n = ssClosing ∧ (getSess s n).unacked = [] ∧ sendsOpen s n = false ∧ (getSess s n).closeSent = false then
    modSess (sendSessBoth s n 6 []) n fun x => { x with closeSent := true }
  else s

/-- The sessions of an association. -/
def sessionsOf (s : State) (i : Nat) : List Nat :=
  ((s.sess.map (·.1)).filter fun n => stOk s n && stAssoc s n == i)

/-- A session's first OPEN with a fresh nonce (R404). -/
def startSession (s : State) (n : Nat) : State :=
  let f := takeFree s
  sendSessOpen (modSess f.2 n fun x => { x with nonceI := f.1, opens := 1 }) n 4 f.1

/-- An association's OPEN with a fresh nonce (R403). -/
def startAssoc (s : State) (i : Nat) : State :=
  let f := takeFree s
  sendAssocOpen (modAssoc f.2 i fun x => { x with phase := 1, nonceI := f.1, ctlRx := none, openRx := none }) i 4 f.1

/-- The association has opened: its keys derive, and counts start at 0 (R399, R402, R403); the frame that opens it has just arrived. -/
def openAssoc (s : State) (i : Nat) (ni nr : Word) (openSeq : Nat) : State :=
  openAssocKeys (modAssoc s i fun x =>
    { x with phase := 2, nonceI := ni, nonceR := nr, ctlTx := 0, ctlRx := some 0, openRx := some openSeq, phTx := 0, phRx := 0, phCtl := 0,
             lastAuth := timeOf s (shDie s i false) }) i

/-- The association closes: its sessions end as RESET does (R403, R404). -/
def resetSessions (s : State) (i : Nat) : State :=
  (sessionsOf s i).foldl (fun s n =>
    if stState s n = ssOpen ∨ stState s n = ssClosing then closeSession (sendSessBoth s n 8 []) n 4 else s) s

/-! ### Frames of R404 -/

/-- The nonce, the sender's ID and MAXMSG of an OPEN payload (R398). -/
def openNonce (f : HxFrame) : Word := w64 (beAt (ofBytes f.payload) 0 8)
def openId (f : HxFrame) : Nat := beAt (ofBytes f.payload) 8 4
def openMax (f : HxFrame) : Nat := beAt (ofBytes f.payload) 12 4

/-- TIMEBASE has moved on by 10 ms without an authenticated frame (R403, R404). -/
def silent (now last : Word) : Bool := decide (10000000 ≤ (now - last).toNat)

/-- An association's OPEN at the responder (R403). -/
def takeAssocOpen (s : State) (k : Nat) (f : HxFrame) : State :=
  let i := f.assoc
  let x := getAssoc s i
  let d := k / 16
  if isInit s i ∨ openId f ≠ rAid s i then countHxp s d rHxpBadcnt
  else if x.phase = 2 ∧ openNonce f = x.nonceI then
    if x.openRx.any fun q => !serAfter f.seq q then countHxp s d rHxpDupcnt
    else sendAssocOpen (modAssoc s i fun x => { x with openRx := some f.seq }) i 5 x.nonceR
  else if x.phase = 2 ∧ !silent (timeOf s d) x.lastAuth then s
  else
    let s := if x.phase = 2 then resetSessions s i else s
    let g := takeFree s
    sendAssocOpen (openAssoc g.2 i (openNonce f) g.1 f.seq) i 5 g.1

/-- A session's OPEN (R404). -/
def takeSessOpen (s : State) (k n : Nat) (f : HxFrame) : State :=
  let d := k / 16
  let accept := fun (s : State) =>
    let g := takeFree s
    let s := modSess g.2 n fun x => { x with nonceI := openNonce f, nonceR := g.1 }
    sendSessOpen (clearMap (openSession s n (openMax f)) n) n 5 g.1
  if openId f ≠ stRsid s n then countHxp s d rHxpBadcnt
  else if stState s n = ssOpening then countHxp s d rHxpBadcnt
  else if stState s n = ssListen then accept s
  else if stState s n = ssOpen ∧ silent (timeOf s d) (getSess s n).lastAuth then accept (endSession s n 4)
  else s

/-- The lease is claimed on the preferred shroud, or on the other where only that one is UP (R414). -/
def claimShroud (s : State) (i : Nat) : Bool := if !shUp s i (prefB s i) && shUp s i (!prefB s i) then !prefB s i else prefB s i

/-- LSTATE and the working lease state (R394, R414). -/
def setLease (s : State) (i : Nat) (l : Lease) : State :=
  let v := match l with
    | .none => 0
    | .claiming => 1
    | .releasing => 1
    | .steering => 2
    | .lapsed => 0
  modAssoc (setAt13 s i 63 62 v) i fun x => { x with lease := l }

/-- The initiator claims an epoch on a shroud (R414). -/
def claim (s : State) (i ep : Nat) (b : Bool) : State :=
  let s := setAt13 (setLease s i .claiming) i 31 0 ep
  sendLease (modAssoc s i fun x => { x with claimB := b }) i 9 false ep b

/-- An association's OPEN_ACK at the initiator (R403, R414). -/
def takeAssocAck (s : State) (k : Nat) (f : HxFrame) : State :=
  let i := f.assoc
  let x := getAssoc s i
  if !isInit s i ∨ openId f ≠ rAid s i then countHxp s (k / 16) rHxpBadcnt
  else if x.phase ≠ 1 then countHxp s (k / 16) rHxpDupcnt
  else
    let s := claim (openAssoc s i x.nonceI (openNonce f) f.seq) i 1 (claimShroud s i)
    ((sessionsOf s i).filter fun n => stState s n == ssOpening).foldl (fun s n => startSession s n) s

/-- A session's OPEN_ACK (R404). -/
def takeSessAck (s : State) (k n : Nat) (f : HxFrame) : State :=
  if openId f ≠ stRsid s n then countHxp s (k / 16) rHxpBadcnt
  else if stState s n = ssOpening then
    clearMap (openSession (modSess s n fun x => { x with nonceR := openNonce f }) n (openMax f)) n
  else s

/-- CLOSE is answered and ends the session; CLOSE_ACK ends a CLOSING one; RESET ends it unanswered (R404). -/
def takeClose (s : State) (n : Nat) : State :=
  if stState s n = ssOpen ∨ stState s n = ssClosing then closeSession (sendSessBoth s n 7 []) n 4 else s
def takeCloseAck (s : State) (n : Nat) : State := if stState s n = ssClosing then closeSession s n 4 else s
def takeReset (s : State) (n : Nat) : State :=
  if stState s n = ssOpen ∨ stState s n = ssClosing then closeSession s n 4 else s

/-! ### ACK and NAK at the sender (R407, R411, R412, R415) -/

/-- The frame's shroud and epoch are those on which the end steers (R415). -/
def onSteering (s : State) (f : HxFrame) : Bool :=
  steering s f.assoc && lShrB s f.assoc == f.shroudB && epoch s f.assoc == f.epoch

/-- Messages whose last path sequence is acknowledged are complete (R412). -/
def completeSends (s : State) (n : Nat) : State :=
  let k := servingFor s (stEng s n)
  ((getEng s k).serve.filter fun p => entKind s p.1 == xkSend && entState s p.1 == lActive && sendSession s p.1 == n).foldl
    (fun s p =>
      let w := getWork s p.1
      match w.firstSeq with
      | some q =>
        if 0 < w.segCnt ∧ w.segNext = w.segCnt ∧ serAfter (getSess s n).txAck ((q + w.segCnt - 1) % 2 ^ 32) then
          closeOk (setXlen s p.1 w.words) p.1
        else s
      | none => s) s

/-- An accepted ACK (R407, R411, R412). -/
def takeAck (s : State) (n : Nat) (f : HxFrame) : State :=
  let x := getSess s n
  let moved := serAfter f.ack x.txAck && !serAfter f.ack x.txNext
  let s := if moved then
      modSess s n fun x => { x with txAck := f.ack, unacked := x.unacked.filter fun g => !serBefore g.seq f.ack, expiries := 0 }
    else s
  let s := if serAfter f.credit x.txCredit then modSess s n fun x => { x with txCredit := f.credit } else s
  tryClose (pump (completeSends s n) n) n

/-- An accepted NAK: the named frames are sent again at once (R411). -/
def takeNak (s : State) (n : Nat) (f : HxFrame) : State :=
  ((getSess s n).unacked.filter fun g => !serBefore g.seq f.ack && !serAfter g.seq f.credit).foldl (fun s g => resendSeg s n g) s

/-! ### DATA at the receiver (R408, R409) -/

def mapBit (s : State) (n k : Nat) : Bool := wbit (peek s (stMap s n + k / 64)) (k % 64)
def setMapBit (s : State) (n k : Nat) (v : Bool) : State :=
  store s (stDie s n) (stMap s n + k / 64) (wput (peek s (stMap s n + k / 64)) (k % 64) (k % 64) (b2n v))

/-- base moves past the sequences that have arrived (R408). -/
def advanceBase (s : State) (n : Nat) : Nat → State
  | 0 => s
  | fuel + 1 =>
    let b := (getSess s n).base
    if mapBit s n (b % 65536) then
      advanceBase (modSess (setMapBit s n (b % 65536) false) n fun x => { x with base := (b + 1) % 2 ^ 32 }) n fuel
    else s

/-- The frame of an inbound message, or a wait for one (R60, R171, R677). -/
def inboundTry (s : State) (d : Nat) (b : Inbound) : State :=
  let part := entPart s b.index
  let asid := entAsid s b.index
  let keep := fun (s : State) (closed : Bool) =>
    let s := countAllocFail s d part closed
    if (getChan s d).inbound.any (·.index == b.index) then s else modChan s d fun c => { c with inbound := c.inbound ++ [b] }
  let drop := fun (s : State) => modChan s d fun c => { c with inbound := c.inbound.filter (·.index != b.index) }
  let s := allocNote (ptFill s d .ppt part) (uCen (entOwner s b.index)) part asid
  match tryAlloc s (uCen (entOwner s b.index)) part asid with
  | .empty => keep s false
  | .closed => keep s true
  | .lost h a => keep (allocLost s d part h a) false
  | .fault e _ => recvFail (drop s) b.index (causeReason e) 0
  | .got f h pa =>
    let s := doAlloc s d part asid (stGraph s b.session) f h pa (ent s b.index 1)
    let s := store s d (pa + 1) (w64 b.buffer)
    closeOk (setEnt (drop s) b.index 2 (mkTag part f (frGen s d f) (stCodelet s b.session) 0 0)) b.index

/-- A message whose last path sequence base has passed (R409). -/
def rxDone (s : State) (n : Nat) (m : RxMsg) : State :=
  let d := stDie s n
  let s := modSess s n fun x => { x with rx := x.rx.filter (·.first != m.first) }
  match m.index with
  | none => s
  | some i =>
    match m.fail with
    | some e => recvFail s i e 0
    | none =>
      let s := setXlen s i m.words
      if stGraph s n = 0 then closeOk s i else inboundTry s d ⟨i, n, m.buffer, timeOf s d⟩

/-- Messages behind base complete, in path sequence order: none while an earlier one of the session waits for a frame (R171, R409). -/
def rxComplete (s : State) (n : Nat) : State :=
  let base := (getSess s n).base
  (sortBy (fun (m : RxMsg) => (m.first + 2 ^ 32 + 2 ^ 31 - base) % 2 ^ 32)
    ((getSess s n).rx.filter fun m => !serBefore base ((m.first + m.segcnt) % 2 ^ 32))).foldl
    (fun s m => if (getChan s (stDie s n)).inbound.any (·.session == n) then s else rxDone s n m) s

/-- A buffer for a message: one kept from an ended message, else the ring's next (R409, R418). -/
def takeBuffer (s : State) (n : Nat) : Option (Nat × State) :=
  match (getSess s n).kept with
  | b :: rest => some (b, modSess s n fun x => { x with kept := rest })
  | [] =>
    let h := peek s (stRxr s n)
    if h = peek s (stRxr s n + 1) then none
    else some (wfld (peek s (stRxr s n + 16 + h.toNat % 2 ^ stLog2Rb s n)) 48 0, store s (stDie s n) (stRxr s n) (h + 1))

/-- An HXP_RECV ledger entry (R409); none where the die or the partition has no room, or no number can be assigned yet. -/
def recvEntry (s : State) (n : Nat) (user : Word) : Option (Nat × State) :=
  let d := stDie s n
  let part := stPart s n
  let r := pickIndex s d
  match r.1 with
  | none => none
  | some i =>
    let q := wfld (pctWord s d part 0) 47 24
    if !pctOk s d part || decide (q ≤ (pctWord s d part 2).toNat) || !numReady (getChan s d) then none
    else
      let s := ldgTake (pctAdd r.2 d part 2 1) d i
      let xnum := w64 (d * 2 ^ 61 + (getChan s d).count)
      let s := modChan s d fun c => { c with count := c.count + 1 }
      let recDue := b2n (stGraph s n == 0)
      let k := stEng s n
      let w0 := lActive * 2 ^ 60 + xkRecv * 2 ^ 44 + recDue * 2 ^ 41 + k / 16 * 2 ^ 37 + k % 16 * 2 ^ 33
      let f := freeWords 6 s
      let a := ldgAddr s d i
      some (i, stores f.2 d a ([w64 w0, xnum, 0, w64 (part * 2 ^ 54 + stAsid s n * 2 ^ 48), user, 0, timeOf s d, 0, 0, 0] ++ f.1))

/-- A segment is stored in its message's buffer (R409). -/
def placeSegment (s : State) (n : Nat) (m : RxMsg) (f : HxFrame) : State :=
  match m.index with
  | none => s
  | some i =>
    let c := xCtx s (stDie s n) i
    let ws := wordsOf (ofBytes f.payload)
    let va := m.buffer + 1024 * f.segno
    let s := notePages s c va ws.length
    let bad := bufFault s c .write [(va, ws.length)]
    let s := if bad.isSome then s else xStores s c 0 va ws
    modSess s n fun x => { x with rx := x.rx.map fun q =>
      if q.first = m.first then
        { q with words := if f.segno + 1 = f.segcnt then 1024 * f.segno + ws.length else q.words, fail := if q.fail.isSome then q.fail else bad }
      else q }

/-- The path sequences of an oversize message are recorded as received (R409). -/
def recordWhole (s : State) (n first cnt : Nat) : State :=
  (List.range cnt).foldl (fun s j =>
    let q := (first + j) % 2 ^ 32
    if serBefore q (getSess s n).base then s else setMapBit s n (q % 65536) true) s

/-- The receiver takes a phase as current when it accepts the first frame of it, and holds the one before until every frame of that is
acknowledged (R400); `keyph` then holds the whole phase that the tag verified under: those of a session lie before the first path sequence seen under the new phase, or before the credit given. -/
def notePhase (s : State) (f : HxFrame) : State :=
  let ph := f.keyph
  match f.session with
  | some n =>
    if bySession f.typ then
      let x := getSess s n
      let q := if f.typ = 1 then f.seq else x.credit
      if x.phRx < ph then deriveSess (modSess s n fun x => { x with phRx := ph, phCut := some q }) n false (ph + 1)
      else if ph = x.phRx ∧ (x.phCut.any fun c => serBefore q c) then modSess s n fun x => { x with phCut := some q }
      else s
    else noteAssoc s
  | none => if f.typ = 4 ∨ f.typ = 5 then s else noteAssoc s
where
  /-- An association's frames are not acknowledged by number, so its last phase goes at once. -/
  noteAssoc (s : State) : State :=
    let ph := f.keyph
    if (getAssoc s f.assoc).phRx < ph then
      deriveAssoc (modAssoc s f.assoc fun x => { x with phRx := ph, keys := x.keys.filter fun k => k.sent || decide (ph ≤ k.ph) })
        f.assoc false (ph + 1)
    else s

/-- take_segment (R409): whether the segment was taken. -/
def takeSegment (s : State) (n : Nat) (f : HxFrame) : Bool × State :=
  let first := (f.seq + 2 ^ 32 - f.segno) % 2 ^ 32
  match (getSess s n).rx.find? (·.first == first) with
  | some m => (true, placeSegment s n m f)
  | none =>
    if stMaxMsg s n < 1024 * f.segcnt then
      (false, recordWhole (countHxp s (stDie s n) rHxpBadcnt) n first f.segcnt)
    else if rxRingEmpty s n then (false, s)
    else
      match recvEntry s n f.xnum with
      | none => (false, s)
      | some (i, s) =>
        match takeBuffer s n with
        | none => (false, s)
        | some (b, s) =>
          let m : RxMsg := ⟨first, f.segcnt, some i, b, 0, none⟩
          (true, placeSegment (modSess s n fun x => { x with rx := x.rx ++ [m] }) n m f)

/-- A DATA frame at its serving engine (R408). -/
def takeData (s : State) (k n : Nat) (f : HxFrame) : State :=
  let d := k / 16
  let x := getSess s n
  let dist := (f.seq + 2 ^ 32 - x.base) % 2 ^ 32
  let m := f.seq % 65536
  if 2 ^ 31 ≤ dist then sendAck (countHxp s d rHxpDupcnt) n
  else if 65536 ≤ dist then countHxp s d rHxpOowcnt
  else if mapBit s n m then countHxp s d rHxpDupcnt
  else
    let r := takeSegment s n f
    let s := if r.1 then setMapBit (notePhase r.2 f) n m true
      else modSess (countHxp r.2 d rHxpRxhold) n fun x => { x with lastHold := some (timeOf s d) }
    let s := rxComplete (advanceBase s n 65536) n
    if 64 ≤ ((getSess s n).base + 2 ^ 32 - (getSess s n).acked) % 2 ^ 32 then sendAck s n else s

/-! ### The steering lease (R414 to R416) -/

/-- LEASE at the responder (R414). -/
def takeLease (s : State) (k : Nat) (f : HxFrame) : State :=
  let i := f.assoc
  let x := getAssoc s i
  if isInit s i then s
  else if x.lease = .steering then
    if f.epoch = epoch s i ∧ f.shroudB = lShrB s i then
      if f.rel then sendLease (setLease s i .none) i 10 true f.epoch f.shroudB else sendLease s i 10 false f.epoch f.shroudB
    else countHxp s (k / 16) rHxpStalecnt
  else if serAfter f.epoch (epoch s i) then
    let s := setAt13 (setAt13 (setLease s i .steering) i 31 0 f.epoch) i 61 61 (b2n f.shroudB)
    sendLease s i 10 false f.epoch f.shroudB
  else countHxp s (k / 16) rHxpStalecnt

/-- LEASE_ACK at the initiator: it steers on the claimed shroud, and a failback that ends on the preferred one is complete; what no row
of R414 names does nothing (R17, R414, R416). -/
def takeLeaseAck (s : State) (f : HxFrame) : State :=
  let i := f.assoc
  let x := getAssoc s i
  if !isInit s i then s
  else if x.lease = .claiming ∧ f.epoch = epoch s i then
    let s := setAt13 (setLease s i .steering) i 61 61 (b2n x.claimB)
    if x.failback then
      let s := modAssoc s i fun x => { x with failback := false }
      if x.claimB = prefB s i then evRaise s (shDie s i false) 0x282 else s
    else s
  else if x.lease = .releasing ∧ f.rel then claim s i ((epoch s i + 1) % 2 ^ 32) (prefB s i)
  else s

/-! ### Arrival of a frame (R401, R413, R420) -/

/-- A frame goes to the raw receive ring of its die, or is dropped (R420). -/
def rawReceive (s : State) (d sub : Nat) (l : List Nat) : State :=
  let b := baseOf s d bHxp rHxpRawbaseHi
  let n := 2 ^ getF s d bHxp rHxpRawcfg 31 28
  let tail := peek s b
  if n ≤ (tail - peek s (b + 1)).toNat then evRaise (countHxp s d rHxpRawdrop) d 0x285
  else
    let a := b + 16 + 1280 * (tail.toNat % n)
    let s := stores s d (a + 1) (timeOf s d :: wordsOf l)
    let s := store s d a (w64 (2 ^ 63 + sub * 2 ^ 16 + l.length))
    evRaise (store s d b (tail + 1)) d 0x284

/-- A shroud of an association is UP or DOWN; each change raises source 0x280 (R413). -/
def setUp (s : State) (i : Nat) (b up : Bool) : State :=
  let bit := if b then 59 else 60
  if shUp s i b == up then s else evRaise (setAt13 s i bit bit (b2n up)) (shDie s i false) 0x280

/-- The time of an authenticated frame of an association, or of a session of it (R403, R404). -/
def noteTime (s : State) (f : HxFrame) (now : Word) : State :=
  let s := modAssoc s f.assoc fun x => { x with lastAuth := now }
  match f.session with
  | some n => modSess s n fun x => { x with lastAuth := now }
  | none => s

/-- The serving engine of a frame (R401). -/
def frameEng (s : State) (t : Option Nat) (i : Nat) : Nat :=
  servingFor s (match t with
    | some n => stEng s n
    | none => assocEng s i)

/-- Steps 3 and 4 of R401 for a frame of `len` bytes addressed to HXP: it then waits in the MAC's receive buffer for the stream plane. -/
def hxpArrive (s : State) (d sub len : Nat) (f : IpFrame) : State :=
  let hb := f.body.take 40
  let h := parseHdr hb
  let bad := countHxp s d rHxpBadcnt
  if !f.sumOk ∨ f.body.length < 56 ∨ f.ulen ≠ 40 + h.plen + 16 + 8 ∨ f.body.length ≠ 56 + h.plen then bad
  else if hb.getD 0 0 / 16 ≠ 1 ∨ hdrBytes h ≠ (16 + h.typ) :: hb.drop 1 ∨ h.typ = 0 ∨ 11 < h.typ ∨ !plenOk h.typ h.plen ∨ !fieldsOk h then bad
  else
    match target s h with
    | none => bad
    | some (t, i) =>
      match arrivalShroud s i d sub f.src with
      | none => bad
      | some b =>
        let fr : HxFrame :=
          ⟨t, i, b, h.typ, h.rel, h.seq, h.epoch, h.xnum, h.ack, h.credit, h.segno, h.segcnt, h.keyph,
            toBytes ((f.body.drop 40).take h.plen), toBytes (f.body.drop (40 + h.plen))⟩
        modDie s d fun x => { x with mac := x.mac ++ [.inbound d (frameEng s t i) len fr] }

/-- Bytes that the MAC's receive buffer of a die holds for frames that wait for the stream plane. -/
def macHeld (s : State) (d : Nat) : Nat :=
  ((getDie s d).mac.map fun x => match x with
    | .inbound _ _ n _ => n
    | .outbound _ _ _ l => l.length).sum

/-- A priority flow control frame for a port that has it on: MAC control, opcode 0x0101 (R419; PRESUMED from IEEE 802.1Qbb: log entry
145). -/
def isPfc (s : State) (d : Nat) (l : List Nat) : Bool :=
  (l.drop 12).take 4 == [0x88, 0x08, 0x01, 0x01] && l.take 6 == [0x01, 0x80, 0xC2, 0x00, 0x00, 0x01]
    && decide (34 ≤ l.length) && getF s d bHxp rHxpPort 29 22 != 0

/-- Each priority that the frame names, and for which the port has flow control on, pauses for its quanta of 512 bit times (R419). -/
def pfcTake (s : State) (d sub : Nat) (l : List Nat) : State :=
  (List.range 8).foldl (fun s p =>
    if bitOf (l.getD 17 0) p ∧ bitOf (getF s d bHxp rHxpPort 29 22) p then
      let ns := (beAt l (18 + 2 * p) 2 * 64 * subPorts s d + 99) / 100
      modDie s d fun x => { x with pfc := tset (fun _ => 0) x.pfc (8 * sub + p) (if ns = 0 then 0 else timeOf s d + w64 ns) }
    else s) s

/-- HXP_FRAME_RECEIVE: the port's checks of a frame that arrives, with whether FCS is right; the MAC buffer of 2 MiB holds the frames that
wait, and `room` says whether what arrives at the same time leaves room in it (R401, R419, R421). -/
def frameReceive (s : State) (d sub : Nat) (l : List Nat) (room fcs : Bool) : State :=
  if subPorts s d ≤ sub then s
  else if !room || decide (2 ^ 21 < macHeld s d + l.length) then countHxp s d rHxpRxdrop
  else if 9216 < l.length then countHxp s d rHxpBadcnt
  else if fcs && isPfc s d l then strmSettle (pfcTake s d sub l)
  else
    match parseFrame l with
    | none => rawReceive s d sub l
    | some f =>
      if fcs && localAddr s d sub f && f.dport == getF s d bHxp rHxpCfg 31 16 then strmSettle (hxpArrive s d sub l.length f)
      else rawReceive s d sub l

/-- The HXP block of a die acts. -/
def hxpDo (s : State) (die : Nat) (t : State) : Out := unitDo s die (dieLive s die && blkEn s die bHxp) t

/-- HXP_FRAME_RECEIVE (R401). -/
def execHxpFrameReceive (die : Nat) (sub : Fin 4) (frame : List Byte) (room fcs : Bool) (s : State) : Out :=
  hxpDo s die (frameReceive s die sub (ofBytes frame) room fcs)

/-! ### The engine takes its next frame -/

/-- A control frame's SEQ is after the last one accepted under its count (R402). -/
def ctlFresh (s : State) (f : HxFrame) : Bool :=
  let last := match f.session with
    | some n => if bySession f.typ then (getSess s n).ctlRx else (getAssoc s f.assoc).ctlRx
    | none => (getAssoc s f.assoc).ctlRx
  match last with
  | some q => serAfter f.seq q
  | none => true

/-- The count of an accepted control frame (R402). -/
def ctlNote (s : State) (f : HxFrame) : State :=
  match f.session with
  | some n => if bySession f.typ then modSess s n fun x => { x with ctlRx := some f.seq } else modAssoc s f.assoc fun x => { x with ctlRx := some f.seq }
  | none => modAssoc s f.assoc fun x => { x with ctlRx := some f.seq }

/-- A control frame is taken where its count is fresh and the end accepts its shroud and epoch, else discarded and counted (R402,
R415). -/
def ctlTakeIf (s : State) (k : Nat) (f : HxFrame) (ok : Bool) (run : State → State) : State :=
  if !ctlFresh s f then countHxp s (k / 16) rHxpDupcnt
  else if !ok then countHxp s (k / 16) rHxpStalecnt
  else run (notePhase (ctlNote s f) f)

/-- A control frame is taken where its count is fresh, else discarded and counted (R402). -/
def ctlTake (s : State) (k : Nat) (f : HxFrame) (run : State → State) : State := ctlTakeIf s k f true run

/-- The oldest frame leaves an engine's staging, with its event where no context has taken that (R427). -/
def popFrame (e : Eng) : Eng :=
  let n := (e.evq.filter fun v => v.1 == 4).length
  { e with hxq := e.hxq.drop 1,
           evq := if n = e.hxq.length then (e.evq.find? fun v => v.1 == 4).elim e.evq e.evq.erase else e.evq }

/-- A frame at its serving engine: its tag is judged, its shroud and time are noted, and it is handled, its phase noted where it is accepted (R400, R401 steps 5 and 6,
R413). The time before an OPEN counts for the OPEN itself (R403, R404). -/
def handleFrame (s : State) (k : Nat) (f : HxFrame) (run : HxFrame → State → State) : State :=
  match verify s f with
  | none => countHxp s (k / 16) rHxpAuthcnt
  | some (payload, ph) =>
    let s := setUp s f.assoc f.shroudB true
    let now := timeOf s (k / 16)
    let g := { f with payload := toBytes payload, keyph := ph }
    if f.typ = 4 then noteTime (run g s) f now else run g (noteTime s f now)

/-- The engine takes its oldest frame where it has the type; the entry that it frees goes to what the stream plane withholds (R428). -/
def hxpTake (die eng typ : Nat) (run : Nat → HxFrame → State → State) (s : State) : Out :=
  let k := engKey die eng
  unitDo s die (engUp s k)
    (match (getEng s k).hxq with
      | f :: _ => if f.typ = typ then strmSettle (handleFrame (modEng s k popFrame) k f fun f s => run k f s) else s
      | [] => s)

/-- A frame of a session. -/
def onSession (f : HxFrame) (run : Nat → State → State) (s : State) : State :=
  match f.session with
  | some n => run n s
  | none => s

/-- DATA (R408). -/
def execData (die eng : Nat) (s : State) : Out := hxpTake die eng 1 (fun k f => onSession f fun n s => takeData s k n f) s
/-- ACK (R415). -/
def execAck (die eng : Nat) (s : State) : Out :=
  hxpTake die eng 2 (fun k f => onSession f fun n s => ctlTakeIf s k f (onSteering s f) fun s => takeAck s n f) s
/-- NAK (R411, R415). -/
def execNak (die eng : Nat) (s : State) : Out :=
  hxpTake die eng 3 (fun k f => onSession f fun n s => ctlTakeIf s k f (onSteering s f) fun s => takeNak s n f) s
/-- OPEN (R403, R404). -/
def execOpen (die eng : Nat) (s : State) : Out :=
  hxpTake die eng 4 (fun k f s =>
    match f.session with
    | some n => ctlTake s k f fun s => takeSessOpen s k n f
    | none => takeAssocOpen s k f) s
/-- OPEN_ACK (R403, R404). -/
def execOpenAck (die eng : Nat) (s : State) : Out :=
  hxpTake die eng 5 (fun k f s =>
    match f.session with
    | some n => ctlTake s k f fun s => takeSessAck s k n f
    | none => takeAssocAck s k f) s
/-- CLOSE (R404). -/
def execClose (die eng : Nat) (s : State) : Out :=
  hxpTake die eng 6 (fun k f => onSession f fun n s => ctlTake s k f fun s => takeClose s n) s
/-- CLOSE_ACK (R404). -/
def execCloseAck (die eng : Nat) (s : State) : Out :=
  hxpTake die eng 7 (fun k f => onSession f fun n s => ctlTake s k f fun s => takeCloseAck s n) s
/-- RESET (R404). -/
def execReset (die eng : Nat) (s : State) : Out :=
  hxpTake die eng 8 (fun k f => onSession f fun n s => ctlTake s k f fun s => takeReset s n) s
/-- LEASE (R414). -/
def execLease (die eng : Nat) (s : State) : Out := hxpTake die eng 9 (fun k f s => ctlTake s k f fun s => takeLease s k f) s
/-- LEASE_ACK (R414). -/
def execLeaseAck (die eng : Nat) (s : State) : Out := hxpTake die eng 10 (fun k f s => ctlTake s k f fun s => takeLeaseAck s f) s
/-- PROBE keeps its shroud UP, which its arrival has done (R413). -/
def execProbe (die eng : Nat) (s : State) : Out := hxpTake die eng 11 (fun k f s => ctlTake s k f fun s => s) s

/-! ### Timers -/

/-- A command at the engine of a session, or of an association. -/
def sessDo (s : State) (n : Nat) (t : State) : Out := unitDo s (stDie s n) (stOk s n && engUp s (frameEng s (some n) (stAssoc s n))) t
def assocDo (s : State) (i : Nat) (t : State) : Out := unitDo s (shDie s i false) (atOk s i && engUp s (frameEng s none i)) t

/-- OPEN_RESEND: 10 ms without OPEN_ACK (R403, R404). -/
def openResend (s : State) : HxpTarget → State
  | .assoc i => if (getAssoc s i.val).phase = 1 then sendAssocOpen s i 4 (getAssoc s i.val).nonceI else s
  | .session n =>
    let x := getSess s n.val
    if stState s n ≠ ssOpening ∨ x.opens = 0 then s
    else if x.opens < 8 then sendSessOpen (modSess s n fun x => { x with opens := x.opens + 1 }) n 4 x.nonceI
    else evRaise (modSess (setSt s n ssClosed) n fun x => { x with opens := 0 }) (stDie s n) 0x283

/-- OPEN_RESEND (R404). -/
def execOpenResend (target : HxpTarget) (s : State) : Out :=
  match target with
  | .assoc i => assocDo s i (openResend s target)
  | .session n => sessDo s n (openResend s target)

/-- CLOSING_TIMEOUT: 100 ms without CLOSE_ACK (R404). -/
def execClosingTimeout (session : Fin 65536) (s : State) : Out :=
  sessDo s session (if stState s session = ssClosing then closeSession s session 4 else s)

/-- ACK_TIMER (R410). -/
def execAckTimer (session : Fin 65536) (s : State) : Out :=
  sessDo s session (if stState s session = ssOpen ∨ stState s session = ssClosing then sendAck s session else s)

/-- The last missing path sequence of the run that starts at base, where a later one has arrived (R411). -/
def missingRun (s : State) (n : Nat) : Option Nat :=
  let b := (getSess s n).base
  ((List.range 65535).find? fun j => mapBit s n ((b + j + 1) % 65536)).map fun j => (b + j) % 2 ^ 32

/-- NAK_TIMER (R411). -/
def execNakTimer (session : Fin 65536) (s : State) : Out :=
  let n := session.val
  sessDo s n (if stState s n = ssOpen ∨ stState s n = ssClosing then
      match missingRun s n with
      | some last => sendAckNak s n 3 (getSess s n).base last
      | none => s
    else s)

/-- The retransmission timeout of a session in counts of TIMEBASE: `RTO`, doubled for each expiry without progress (R411, R423). -/
def retxTime (s : State) (n : Nat) : Nat :=
  max 1 (getF s (stDie s n) bHxp rHxpTmr 7 0) * 100000 * 2 ^ (getSess s n).expiries

/-- The unacknowledged frames whose last transmission is older than the timeout. -/
def retxOld (s : State) (n : Nat) : List TxSeg :=
  (getSess s n).unacked.filter fun g => decide (retxTime s n ≤ (timeOf s (stDie s n) - g.sentAt).toNat)

/-- RETRANSMIT_TIMEOUT: the frames that are older than the timeout are sent again; the eighth expiry without progress ends the session
(R411). -/
def retxTimeout (s : State) (n : Nat) : State :=
  let old := retxOld s n
  if old = [] then s
  else
    let s := modSess s n fun x => { x with expiries := x.expiries + 1 }
    if 8 ≤ (getSess s n).expiries then closeSession (sendSessBoth s n 8 []) n 5
    else old.foldl (fun s g => resendSeg s n g) s

/-- RETRANSMIT_TIMEOUT (R411). -/
def execRetransmitTimeout (session : Fin 65536) (s : State) : Out :=
  sessDo s session (if stState s session = ssOpen ∨ stState s session = ssClosing then retxTimeout s session else s)

/-- SHROUD_DOWN: 1 ms without an authenticated frame on a shroud (R413). -/
def execShroudDown (assoc : Fin 4096) (shroudB : Bool) (s : State) : Out := assocDo s assoc (setUp s assoc shroudB false)

/-- PROBE_TIMER: 250 µs with nothing sent on a shroud (R413). -/
def execProbeTimer (assoc : Fin 4096) (shroudB : Bool) (s : State) : Out :=
  assocDo s assoc (if (getAssoc s assoc.val).phase = 2 then sendAssocOn s assoc shroudB (hdr0 11 (rAid s assoc)) else s)

/-- LEASE_RENEWAL: 500 µs since the last LEASE (R414). -/
def execLeaseRenewal (assoc : Fin 4096) (s : State) : Out :=
  let i := assoc.val
  assocDo s i
    (if !isInit s i then s
     else match (getAssoc s i).lease with
      | .claiming =>
        let b := claimShroud s i
        sendLease (modAssoc s i fun x => { x with claimB := b }) i 9 false (epoch s i) b
      | .steering => sendLease s i 9 false (epoch s i) (getAssoc s i).claimB
      | _ => s)

/-- LEASE_END: an end stops steering (R414). -/
def execLeaseEnd (assoc : Fin 4096) (s : State) : Out :=
  let i := assoc.val
  assocDo s i
    (match (getAssoc s i).lease with
      | .steering => setLease s i (if isInit s i then .lapsed else .none)
      | .releasing => modAssoc (setLease s i .lapsed) i fun x => { x with failback := false }
      | _ => s)

/-- LEASE_LAPSED_RECLAIM: 100 µs after the lease ended (R414). -/
def execLeaseLapsedReclaim (assoc : Fin 4096) (s : State) : Out :=
  let i := assoc.val
  assocDo s i
    (if (getAssoc s i).lease = .lapsed then
      evRaise (claim s i ((epoch s i + 1) % 2 ^ 32) (claimShroud s i)) (shDie s i false) 0x281
     else s)

/-- FAILBACK: the preferred shroud has been UP for 50 ms while the other one steers (R416). -/
def execFailback (assoc : Fin 4096) (s : State) : Out :=
  let i := assoc.val
  let x := getAssoc s i
  assocDo s i
    (if isInit s i && x.lease == .steering && lShrB s i != prefB s i && shUp s i (prefB s i) then
      sendLease (modAssoc (setLease s i .releasing) i fun x => { x with failback := true }) i 9 true (epoch s i) x.claimB
     else s)

/-! ### Commands of `HXP_SCMD` and `HXP_RAWTX` (R403, R404, R420, R422) -/

/-- An association is commanded to open (R403). -/
def cmdAssoc (s : State) (i : Nat) : State :=
  if atOk s i && isInit s i && (getAssoc s i).phase == 0 then startAssoc s i else s

/-- A session is commanded to open (R403, R404). -/
def cmdOpen (s : State) (n : Nat) : State :=
  let i := stAssoc s n
  if !stOk s n || !atOk s i || stState s n != ssClosed then s
  else if isInit s i then
    let s := modSess (setSt s n ssOpening) n fun x => { x with opens := 0, lastHold := some (timeOf s (stDie s n)) }
    if (getAssoc s i).phase = 2 then startSession s n else cmdAssoc s i
  else setSt s n ssListen

/-- A session is commanded to close (R404). -/
def cmdClose (s : State) (n : Nat) : State :=
  if stOk s n && stState s n == ssOpen then tryClose (setSt s n ssClosing) n else s

/-- The fields of `HXP_SCMD` that a write leaves (R423). -/
def scmd (s : State) (d cmd index : Nat) : State := setReg s d bHxp rHxpScmd (cmd * 2 ^ 28 + index)

/-- A command of the HXP block's registers (R423). -/
def hxpReg (s : State) (d w : Nat) (t : State) : Out := regDo s d bHxp w (dieLive s d && blkEn s d bHxp) t

/-- The CMD event of a session's or an association's command, at its engine: the word written, and the die of the register (R427; log
entry 146). -/
def scmdEvent (s : State) (d cmd index : Nat) : State :=
  let word := w64 (2 ^ 31 + cmd * 2 ^ 28 + index)
  if (cmd = 1 ∨ cmd = 2) ∧ stOk s index = true then evPush s (frameEng s (some index) (stAssoc s index)) 10 word (w64 d)
  else if cmd = 3 ∧ atOk s (index % 4096) = true then evPush s (frameEng s none (index % 4096)) 10 word (w64 d)
  else s

/-- `HXP_SCMD` with GO (R403, R404, R423, R427). -/
def scmdGo (s : State) (d cmd index : Nat) : State :=
  startCmd s d bHxp rHxpScmd 0 (fun s => scmd s d cmd index) fun s =>
    let s := scmdEvent (scmd s d cmd index) d cmd index
    match cmd with
    | 1 => cmdOpen s index
    | 2 => cmdClose s index
    | 3 => cmdAssoc s (index % 4096)
    | _ => s

/-- HXP_OPEN_SESSION (R404). -/
def execHxpOpenSession (die : Nat) (session : Fin 65536) (s : State) : Out := hxpReg s die rHxpScmd (scmdGo s die 1 session)
/-- HXP_CLOSE_SESSION (R404). -/
def execHxpCloseSession (die : Nat) (session : Fin 65536) (s : State) : Out := hxpReg s die rHxpScmd (scmdGo s die 2 session)
/-- HXP_OPEN_ASSOCIATION (R403). -/
def execHxpOpenAssociation (die : Nat) (assoc : Fin 4096) (s : State) : Out := hxpReg s die rHxpScmd (scmdGo s die 3 assoc)

/-- The frame in the raw transmit buffer, which follows the raw receive ring, is sent; the MAC drops and counts one of more than 9,216 bytes
(R419, R420, R423). While the one before it is still being sent, nothing starts, and the write is counted (DEDUCED from R566: log 151). -/
def rawTx (s : State) (d len sub : Nat) : State :=
  let a := baseOf s d bHxp rHxpRawbaseHi + 16 + 1280 * 2 ^ getF s d bHxp rHxpRawcfg 31 28
  if !(getDie s d).rawTx.isEmpty then reject s d bHxp
  else if 9216 < len then countHxp s d rHxpBadcnt
  else if portUp s d sub then
    let x : StrmItem := .outbound d d sub (toBytes ((bytesOf (peeks s a ((len + 7) / 8))).take len))
    strmSettle (modDie (unitRead s d a ((len + 7) / 8)) d fun y => { y with rawTx := [x] })
  else s

/-- HXP_RAWTX (R420). -/
def execHxpRawtx (die : Nat) (len : BitVec 14) (sub : Fin 4) (s : State) : Out := 
  hxpReg s die rHxpRawtx (rawTx (setReg s die bHxp rHxpRawtx (len.toNat * 2 ^ 16 + sub)) die len.toNat sub)

end Sys2Proof.Machine
end

