-- ==== Sys2Proof/Machine/Journal.lean ====
section
/-! DEFINITION. The journal regions of the ledger device: the control block, the words of a record, and the reading of a region
(spec 12: R380, R381, R384, R386). -/

namespace Sys2Proof.Machine

/-- The control values in force: the copy with the larger `CBSEQ` (R380). -/
def jCtl (c : Chan) : JCtl := if c.ctlB.seq ≤ c.ctlA.seq then c.ctlA else c.ctlB

/-- The control block is written: the copy that is not in force takes the values of now (R380, R382). The model keeps no record below
HEAD, but for one that has still to take its slot. -/
def controlPut (s : State) (d : Nat) : State :=
  let new : JCtl := ⟨(jCtl (getChan s d)).seq + 1, (getChan s d).jhead, getF s d bChn rChnJcfg 31 27, getF s d bChn rChnJkey 11 0⟩
  modChan s d fun c =>
    { c with ctlA := if c.ctlB.seq ≤ c.ctlA.seq then c.ctlA else new, ctlB := if c.ctlB.seq ≤ c.ctlA.seq then new else c.ctlB,
             jsince := 0, jrecs := c.jrecs.filter fun r => decide (c.jhead ≤ r.seq) || !r.durable }

/-- The round keys of a region's journal key (R381); an empty slot counts as 32 bytes of 0 (DESIGN CHOICE: log entry 49). -/
def jKeys (s : State) (d : Nat) : List (List Nat) := aesKeys (keyBytes s (jCtl (getChan s d)).key)

/-- The IV of a record: concat(0b0_0000, die, SEQ, 0x0000_0000) (R381). -/
def jIv (d seq : Nat) : List Nat := beBytes 1 d ++ beBytes 7 seq ++ [0, 0, 0, 0]

/-- Words 1 to 6 of a record in clear (R381). -/
def jBody (r : JRec) : List Word :=
  let kept := r.typ == 1 || r.typ == 3
  [r.xnum,
    w64 (if r.typ = 2 then r.state % 16 * 2 ^ 60 + r.reason % 2 ^ 12 * 2 ^ 48
      else r.part % 1024 * 2 ^ 54 + r.asid % 64 * 2 ^ 48 + r.kind % 16 * 2 ^ 44 + b2n r.rdv * 2 ^ 43 + r.nlb % 2 ^ 16),
    r.user, r.tgt, r.slba, w64 (if kept && r.rdv then r.psrc % 2 ^ 49 else 0)]

/-- The eight words of a record in its slot: word 0 in clear, words 1 to 6 encrypted, and the first 64 bits of the tag (R381). -/
def jWords (ks : List (List Nat)) (d : Nat) (r : JRec) : List Word :=
  let w0 := w64 (r.typ % 16 * 2 ^ 60 + r.seq % 2 ^ 56)
  let ct := gcmCrypt ks (jIv d r.seq) (bytesOf (jBody r))
  w0 :: wordsOf (ct ++ (gcmTag ks (jIv d r.seq) (bytesOf [w0]) ct).take 8)

/-- The record that eight words hold, where their tag verifies (R381, R386). -/
def jParse (ks : List (List Nat)) (d : Nat) (ws : List Word) : Option JRec :=
  let w0 := ws.getD 0 0
  let seq := wfld w0 55 0
  let ct := bytesOf ((ws.drop 1).take 6)
  if (gcmTag ks (jIv d seq) (bytesOf [w0]) ct).take 8 = bytesOf [ws.getD 7 0] then
    let b := wordsOf (gcmCrypt ks (jIv d seq) ct)
    let w (j : Nat) := b.getD j 0
    let t := wfld w0 63 60
    some { blankRec t (w 0) with
      seq := seq, part := if t = 2 then 0 else wfld (w 1) 63 54, asid := if t = 2 then 0 else wfld (w 1) 53 48,
      kind := if t = 2 then 0 else wfld (w 1) 47 44, rdv := t != 2 && wbit (w 1) 43, nlb := wfld (w 1) 15 0,
      state := if t = 2 then wfld (w 1) 63 60 else 0, reason := if t = 2 then wfld (w 1) 59 48 else 0,
      user := w 2, tgt := w 3, slba := w 4, psrc := wfld (w 5) 48 0, durable := true }
  else none

/-- A record is written into its slot, `SEQ` mod `JSIZE` (R380). -/
def slotPut (s : State) (d : Nat) (r : JRec) : State :=
  modChan s d fun c => { c with slots := tset (fun _ => []) c.slots (r.seq % 2 ^ (jCtl c).log2) (jWords (jKeys s d) d r) }

/-- The engines of die 0 can write the next record of a region: its slot is free (R382), and they have not stopped (R385). -/
def jFree (s : State) (d : Nat) : Bool :=
  decide ((getChan s d).jnext - (getChan s d).jhead < 2 ^ (jCtl (getChan s d)).log2) && (getChan s 0).jstop.isNone

/-- A record takes the next `SEQ`, and its slot at once where that is free; else it waits for it (R382). -/
def putRec (s : State) (d : Nat) (r : JRec) : State :=
  let r := { r with seq := (getChan s d).jnext, durable := jFree s d }
  let t := modChan s d fun c => { c with jrecs := c.jrecs ++ [r], jnext := c.jnext + 1 }
  if jFree s d then slotPut t d r else t

/-- A record is appended and written at once, by the engines that replay a region (R386); on an NVMe device PAD records fill the rest of
its 4 KiB block (R380). -/
def putDurable (s : State) (d : Nat) (r : JRec) : State :=
  let s := putRec s d r
  if getF s d bChn rChnLdev 31 30 = 2 then
    (List.range ((64 - (getChan s d).jnext % 64) % 64)).foldl (fun s _ => if jFree s d then putRec s d (blankRec 15 0) else s) s
  else s

/-- The record in a slot of a region, where its tag verifies. -/
def slotRec (s : State) (d j : Nat) : Option JRec :=
  match tget (fun _ => []) (getChan s d).slots j with
  | [] => none
  | ws => jParse (jKeys s d) d ws

/-- Records from a SEQ on, until one fails its tag or does not follow its predecessor, or the ring has been read (R386). -/
def readRun (s : State) (d : Nat) : Nat → Nat → List JRec
  | 0, _ => []
  | n + 1, q =>
    match slotRec s d (q % 2 ^ (jCtl (getChan s d)).log2) with
    | some r => if r.seq = q then r :: readRun s d n (q + 1) else []
    | none => []

/-- The records of a die's journal that are read at start, from `HEAD` upward (R386). -/
def replayRecs (s : State) (d : Nat) : List JRec := readRun s d (getChan s d).slots.length (jCtl (getChan s d)).head

/-- The largest NUMBLK limit in a die's region, 0 for none (R384). -/
def regionLimit (s : State) (d : Nat) : Nat :=
  ((getChan s d).slots.filterMap fun e =>
    match slotRec s d e.1 with
    | some r => if r.typ = 5 then some r.xnum.toNat else none
    | none => none).foldl max 0

end Sys2Proof.Machine
end

