-- ==== Sys2Proof/Machine/Exchange.lean ====
section
/-! DEFINITION. Acceptance of exchanges: the engine's intake, the checks of an issue flit, refusals, ledger entries, hand-offs,
and the journal that makes an acceptance durable (spec 12: R367 to R371, R380 to R384; 14: R430; 16: R492). -/

namespace Sys2Proof.Machine

/-! ### The checks of an issue flit (R369) -/

/-- What an issue flit says (R367), with the descriptor's words where they can be read. -/
structure IssueReq where
  /-- accepting engine, 16 * die + engine -/
  eng : Nat
  tag : Word
  sup : Bool
  pl : Nat
  asid : Nat
  desc : Nat
  words : Option (List Word)
  deriving DecidableEq, Repr

/-- The request of an issue flit at an engine. -/
def issueReq (s : State) (k : Nat) (f : Flit) : IssueReq :=
  let a := wfld f.value 48 0
  let ok := a % 16 = 0 ∧ !((List.range 16).any fun j => isPoisoned s (a + j))
  ⟨k, f.tag, wbit f.value 63, if wbit f.value 63 then wfld f.value 62 61 else 0, wfld f.value 59 54, a,
    if ok then some (peeks s a 16) else none⟩

namespace IssueReq
def die (r : IssueReq) : Nat := r.eng / 16
def part (r : IssueReq) : Nat := tagPart r.tag
/-- A word of the descriptor. -/
def word (r : IssueReq) (j : Nat) : Word := (r.words.getD []).getD j 0
def kind (r : IssueReq) : Nat := wfld (r.word 0) 63 60
def dur (r : IssueReq) : Bool := wbit (r.word 0) 59
def recBit (r : IssueReq) : Bool := wbit (r.word 0) 58
def rdv (r : IssueReq) : Bool := wbit (r.word 0) 57
def len (r : IssueReq) : Nat := wfld (r.word 4) 31 0
def xform (r : IssueReq) : Nat := wfld (r.word 5) 48 0
def ctrl (r : IssueReq) : Nat := wfld (r.word 6) 63 32
def nsid (r : IssueReq) : Nat := wfld (r.word 6) 31 0
def session (r : IssueReq) : Nat := wfld (r.word 6) 15 0
end IssueReq

/-- The lengths agree (R365, R366). -/
def issueLenOk (s : State) (r : IssueReq) : Bool :=
  decide (r.len ≠ 0) &&
    (!(r.xform == 0 && (r.kind == xkRead || r.kind == xkWrite))
      || r.len * 8 == (wfld (r.word 8) 15 0 + 1) * blockSize s (r.word 6))

/-- A namespace grant of a partition (R492). -/
def grants (s : State) (d p : Nat) : List Word :=
  ((List.range 8).map fun g => baseOf s d bPrt rPrtNgtbaseHi + 8 * p + g).filterMap fun a =>
    if isPoisoned s a ∨ !wbit (peek s a) 63 then none else some (peek s a)

/-- The target is granted to the partition (R492). -/
def targetOk (s : State) (r : IssueReq) : Bool :=
  let g := grants s r.die r.part
  let names (w : Word) := wfld w 47 32 == r.ctrl && wfld w 31 0 == r.nsid
  if r.kind = xkRead then g.any names
  else if r.kind = xkWrite ∨ r.kind = xkFlush then g.any fun w => names w && !wbit w 62
  else if r.kind = xkRaw then g.any fun w => wfld w 47 32 == r.ctrl && !wbit w 62
  else if r.kind = xkSend then stOk s r.session && stPart s r.session == r.part
  else true

/-- The context in which an exchange's buffers are reached from a die (R365, R500). -/
def issueCtx (r : IssueReq) : Ctx := ⟨r.die, r.part, r.asid, !(r.sup && decide (1 ≤ r.pl)), true, r.sup && r.pl == 2, 1 + r.eng % 16⟩

/-- The physical address of a source that is one contiguous buffer in CXL memory (R369). -/
def persistentSource (s : State) (r : IssueReq) : Option Nat :=
  let va := wfld (r.word 2) 48 0
  if wbit (r.word 2) 63 then none
  else
    match translate s (issueCtx r) .read va with
    | .error _ => none
    | .ok pa =>
      let good := (List.range r.len).all fun j =>
        (match translate s (issueCtx r) .read (va + j) with
          | .ok q => q == pa + j
          | .error _ => false) &&
        (match region s (pa + j) with
          | .cxl _ _ => true
          | _ => false)
      if good then some pa else none

/-- A re-driven exchange has the form that R369 asks for. -/
def rdvOk (s : State) (r : IssueReq) : Bool :=
  r.dur && r.xform == 0 && (r.kind == xkFlush || r.kind == xkWrite) && (persistentSource s r).isSome

/-- A power-fail warning is in force on a die (R385, R391). -/
def pfail (s : State) (d : Nat) : Bool := getF s d bChn rChnStat 31 31 == 1

/-- The issuer may issue an NVME_RAW (R366). -/
def rawOk (s : State) (r : IssueReq) : Bool :=
  r.sup && (r.pl == 1 || r.pl == 2) && wbit (pctWord s r.die r.part 0) 62

/-- The journal has room for one more durable exchange (R382). -/
def jRoom (s : State) (d : Nat) : Bool := decide (jOcc (getChan s d) + 3 + 64 ≤ jSize s d)

/-- The bounded far add on a count of the channel table entry does not succeed: the count is at its quota, or its word is poisoned
(R326, R369). -/
def quotaFull (s : State) (d p w quota : Nat) : Bool :=
  isPoisoned s (pctAddr s d p + w) || decide (quota ≤ (pctWord s d p w).toNat)

/-- What the checks of R369 say: a refusal, a wait for an exchange number, or acceptance. -/
inductive Verdict
  | refuse (reason : Nat) | wait | accept
  deriving DecidableEq, Repr

/-- EXCHANGE_REFUSAL and the order of the checks (R369). -/
def issueCheck (s : State) (r : IssueReq) : Verdict :=
  let d := r.die
  let p := r.part
  if pfail s d then .refuse rsPower
  else if !pctOk s d p then .refuse rsNoPart
  else if r.words = none then .refuse rsBadDesc
  else if r.kind = 0 ∨ 7 ≤ r.kind then .refuse rsBadKind
  else if r.kind = xkRaw ∧ !rawOk s r then .refuse rsPriv
  else if !issueLenOk s r then .refuse rsBadLen
  else if !targetOk s r then .refuse rsNoTarget
  else if r.rdv ∧ !rdvOk s r then .refuse rsRdvBad
  else if quotaFull s d p 2 (wfld (pctWord s d p 0) 47 24) then .refuse rsQuota
  else if ldgCount s d ≤ (getChan s d).live.length then .refuse rsLedgerFull
  else if r.dur ∧ quotaFull s d p 3 (wfld (pctWord s d p 0) 23 0) then .refuse rsDurQuota
  else if r.dur ∧ !ldevUp s d then .refuse rsLedgerDev
  else if r.dur ∧ !jRoom s d then .refuse rsJournalFull
  else if numReady (getChan s d) then .accept
  else if ldevUp s d ∨ mastheadUp s then .wait
  else .refuse rsNoNum

/-! ### Acceptance (R370, R375) -/

/-- The serving engine of an accepted exchange (R370). -/
def servingEngine (s : State) (r : IssueReq) : Nat :=
  if isNvme r.kind then engKey (getCtrl s r.ctrl).die (r.eng % 16)
  else if r.kind = xkSend then stEng s r.session
  else r.eng

/-- Free values for the words of an entry whose content is not defined (R373). -/
def freeEnt : Nat → State → Nat → State
  | 0, s, _ => s
  | n + 1, s, i => let f := takeFree s; freeEnt n (setEnt f.2 i (15 - n) f.1) i

/-- The channel subsystem of a die is lost: the die is withdrawn, or no engine is in service (R388, R389). -/
def chanLost (s : State) (d : Nat) : Bool :=
  (getDie s d).withdrawn || (List.range 16).all fun e => (getEng s (engKey d e)).out

/-- The hand-off flit of an entry (R367). -/
def handoffFlit (s : State) (i : Nat) : Flit :=
  ⟨mkRoute 0 2 (entOwner s i / 16) (entOwner s i % 16), 1, ent s i 1, w64 i⟩

/-- An entry is OPEN: its serving engine takes it, by a hand-off where it is another engine (R370). -/
def openEntry (s : State) (i : Nat) : State :=
  let k := (getWork s i).acc
  if chanLost s (entOwner s i / 16) then closeWith s i rsDieLost 0 true
  else if servingFor s (entOwner s i) = servingFor s k then serveLast s (servingFor s (entOwner s i)) i
  else inject s (k / 16) (34 + k % 16 / 4) .unit (handoffFlit s i)

/-- A ledger entry in state `st` at an index (R373). -/
def writeEntry (s : State) (r : IssueReq) (i st : Nat) (xnum : Word) : State :=
  let o := servingEngine s r
  let w0 := st * 2 ^ 60 + r.kind * 2 ^ 44 + b2n r.dur * 2 ^ 43 + b2n r.rdv * 2 ^ 42
    + b2n (tagFrame r.tag == 0 || r.recBit) * 2 ^ 41 + o / 16 % 8 * 2 ^ 37 + o % 16 * 2 ^ 33
  let t := timeOf s r.die
  let ws := [w64 w0, xnum, r.tag, w64 (r.part * 2 ^ 54 + r.asid * 2 ^ 48), r.word 1, w64 r.desc, t, 0, 0, 0]
  freeEnt 6 (ws.zipIdx.foldl (fun s p => setEnt s i p.2 p.1) s) i

/-- The exchange is accepted: number, entry, and the ACCEPT record of a durable one (R370, R375). -/
def acceptIssue (s : State) (r : IssueReq) : State :=
  let d := r.die
  match pickIndex s d with
  | (none, s) => s
  | (some i, s) =>
    let xnum := w64 (d * 2 ^ 61 + (getChan s d).count)
    let psrc := if r.rdv then (persistentSource s r).getD 0 else 0
    let s := pctAdd s d r.part 2 1
    let s := if r.dur then pctAdd s d r.part 3 1 else s
    let s := ldgTake (modChan s d fun c => { c with count := c.count + 1 }) d i
    let s := modWork s i fun _ => { Work.init with acc := r.eng, sup := r.sup, pl := r.pl }
    let s := writeEntry s r i (if r.dur then lAccepting else lOpen) xnum
    if r.dur then
      let old := jOcc (getChan s d)
      let s := jMark (modChan s d fun c => { c with reserved := tset (fun _ => 0) c.reserved i 3 }) d old
      jAppend s d (acceptRec s i psrc)
    else openEntry s i

/-- A refusal; the KIND and USER of a descriptor that cannot be read are stated nowhere: free values (R369, R378). -/
def refuseIssue (s : State) (r : IssueReq) (reason : Nat) : State :=
  let a := pctAddr s r.die r.part + (if reason = rsQuota then 2 else 3)
  let s := if (reason = rsQuota ∨ reason = rsDurQuota) ∧ isPoisoned s a then hwPoison s r.die a else s
  match r.words with
  | some _ => refuse s r.eng r.part r.tag (r.word 1) r.kind reason r.recBit
  | none =>
    let f := takeFree s
    let g := takeFree f.2
    refuse g.2 r.eng r.part r.tag f.1 (g.1.toNat % 16) reason false

/-! ### The intake (R163, R369, R430) -/

/-- A hand-off is taken: an OPEN entry that names this engine is served (R370). -/
def takeHandoff (s : State) (k : Nat) (f : Flit) : State :=
  let i := wfld f.value 23 0
  if ent s i 1 = f.tag ∧ entState s i = lOpen ∧ servingFor s (entOwner s i) = k ∧ !((getEng s k).serve.any fun p => p.1 == i)
  then serveLast s k i else s

/-- An exchange of a partition is outstanding in this luff interval (R179). -/
def noteOpen (s : State) (part : Nat) : State := modHw s part fun h => { h with opened := true }

/-- The grants of a partition are read at their homes; one that is poisoned is abandoned (R306, R326, R492). -/
def readGrants (s : State) (d p : Nat) : State :=
  (List.range 8).foldl (fun s g => (readClean s d (baseOf s d bPrt rPrtNgtbaseHi + 8 * p + g) 1).2) s

/-- The lines that the checks of an issue read at their homes, the channel table entry, the descriptor and the grants, and the pages of a source that
they look up (R306, R369, R424). -/
def issueReads (s : State) (r : IssueReq) : State :=
  let s := unitRead s r.die (pctAddr s r.die r.part) 8
  let s := if r.desc % 16 = 0 then unitRead s r.die r.desc 16 else s
  let s := if isNvme r.kind then readGrants s r.die r.part else s
  if r.rdv ∧ !wbit (r.word 2) 63 then notePages s (issueCtx r) (wfld (r.word 2) 48 0) r.len else s

/-- The oldest flit of an intake acts, and goes to the contexts: none when it waits (R369, R378, R384). -/
def intakeHead (s : State) (k : Nat) : Option State :=
  match (getEng s k).intake with
  | [] => none
  | f :: t =>
    let next := modEng s k fun e => { e with intake := t, flitq := e.flitq ++ [f] }
    if (getEng s k).blocked then none
    else if origKind f = 1 then some (takeHandoff next k f)
    else
      let r := issueReq s k f
      let next := noteOpen (issueReads next r) r.part
      match issueCheck s r with
      | .wait => none
      | .refuse reason => some (refuseIssue next r reason)
      | .accept => some (acceptIssue next r)

/-- The intake acts in order until a flit waits. -/
def drainIntake (s : State) (k : Nat) : Nat → State
  | 0 => s
  | n + 1 =>
    match intakeHead s k with
    | none => s
    | some s => drainIntake s k n

/-- Every flit that an intake holds acts, as far as none waits. -/
def drain (s : State) (k : Nat) : State := drainIntake s k (getEng s k).intake.length

/-- Flits in an engine's intake queue (R430). -/
def intakeLen (s : State) (k : Nat) : Nat := (getEng s k).intake.length + (getEng s k).flitq.length

/-- Address of a slot of an engine's intake spill ring (R430). -/
def inSlot (s : State) (k n : Nat) : Nat := baseOf s (k / 16) (bCen (k % 16)) rCenInbaseHi + 4 * (n % 2 ^ 15)
/-- Slots of the ring in use. -/
def inUsed (s : State) (k : Nat) : Nat := (getEng s k).ringTail - (getEng s k).ringHead

/-- A flit takes a slot of the spill ring: bit 1 of the valid word marks a hand-off (DESIGN CHOICE: the spec gives the word no
layout). -/
def spillIntake (s : State) (k : Nat) (f : Flit) : State :=
  let a := inSlot s k (getEng s k).ringTail
  let s := stores s (k / 16) a [f.tag, f.value, w64 (1 + 2 * origKind f), timeOf s (k / 16)]
  count (modEng s k fun e => { e with ringTail := e.ringTail + 1 }) (k / 16) (bCen (k % 16)) rCenInspill

/-- A RESCAN event is pending: it lies in the event queue (R427, R430). -/
def rescanDue (s : State) (k : Nat) : Bool := (getEng s k).evq.any fun e => e.1 == 9

/-- A dropped hand-off raises RESCAN unless it is pending (R430). -/
def dropHandoff (s : State) (k : Nat) : State :=
  let s := count s (k / 16) (bCen (k % 16)) rCenHodrop
  if rescanDue s k then s else evPush (modEng s k fun e => { e with rescan := true }) k 9 0 0

/-- The intake has room: a place in its queue, or a slot of its spill ring, which a hand-off takes only while 20,480 slots are free (R430). -/
def intakeRoom (s : State) (k : Nat) (f : Flit) : Bool := decide (intakeLen s k < 768) || f.kind != 0 || decide (inUsed s k < 2 ^ 15)

/-- The intake takes a checked flit; one with a ROUTE that is never produced, or with a wrong KIND, is discarded and recorded (R92, R367,
R430). -/
def intakeTake (s : State) (k : Nat) (f : Flit) : State :=
  if routeBad f then deferred s (k / 16) (bCen (k % 16)) 0xFF 0x0402 0x06 0 f.tag 0
  else if 2 ≤ f.kind.toNat then
    deferred (count s (k / 16) bChn rChnBadflit) (k / 16) (bCen (k % 16)) 0xFF 0x0504 0x06 0 f.tag 0
  else if intakeLen s k < 768 then drain (modEng s k fun e => { e with intake := e.intake ++ [f] }) k
  else if f.kind = 1 ∧ 2 ^ 15 - inUsed s k < 20480 then dropHandoff s k
  else spillIntake s k f

/-- The oldest flit that the mesh holds for an engine is received where its KIND is a hand-off's or not (R92, R95, R431). -/
def engineReceive (s : State) (d e : Nat) (hand : Bool) (err : BitVec 160) : State :=
  match tget (fun _ => []) (getDie s d).engIn e with
  | [] => s
  | f :: t =>
    if (f.kind == 1) ≠ hand ∨ !intakeRoom s (servingFor s (engKey d e)) f then s
    else
      let s := modDie s d fun x => { x with engIn := tset (fun _ => []) x.engIn e t }
      let s := if wbit f.value 63 ∧ !hand then { s with supIssues := s.supIssues.eraseP fun x => x.1 == engKey d e } else s
      let r := recvFlit s d (bCen e) 0xFF 0x0505 f err
      r.1.elim r.2 fun g => intakeTake r.2 (servingFor s (engKey d e)) g

/-- EXCHANGE_ISSUE (R369). -/
def execExchangeIssue (die eng : Nat) (err : BitVec 160) (s : State) : Out :=
  unitDo s die (engUp s (servingFor s (engKey die eng))) (engineReceive s die eng false err)

/-- HANDOFF (R370). -/
def execHandoff (die eng : Nat) (err : BitVec 160) (s : State) : Out :=
  unitDo s die (engUp s (servingFor s (engKey die eng))) (engineReceive s die eng true err)

/-- Slots move back in order while the queue holds fewer than 512 flits (R430); one with a poisoned word is abandoned (R326). -/
def unspill (s : State) (k0 k : Nat) : Nat → State
  | 0 => s
  | n + 1 =>
    if intakeLen s k < 512 ∧ 0 < inUsed s k0 then
      let a := inSlot s k0 (getEng s k0).ringHead
      let f : Flit := ⟨mkRoute 0 2 (k / 16) (k % 16), if wbit (peek s (a + 2)) 1 then 1 else 0, peek s a, peek s (a + 1)⟩
      let r := readClean s (k / 16) a 4
      let s := modEng (store r.2 (k / 16) (a + 2) 0) k0 fun e => { e with ringHead := e.ringHead + 1 }
      unspill (if r.1 then modEng s k fun e => { e with intake := e.intake ++ [f] } else s) k0 k n
    else s

/-- INTAKE_SPILL_MOVE (R430). -/
def execIntakeSpillMove (die eng : Nat) (s : State) : Out :=
  let k := servingFor s (engKey die eng)
  unitDo s die (engUp s k) (drain (unspill s (engKey die eng) k 512) k)

/-- The RESCAN event leaves the queue as the routine takes it; where a context has taken it, that runs until its END (R427, R451). -/
def rescanTaken (s : State) (k : Nat) : State :=
  match (getEng s k).evq.find? fun v => v.1 == 9 with
  | some v =>
    let s := modEng s k fun e => { e with evq := e.evq.erase v }
    modEng s k fun e => { e with rescan := rescanRuns s k }
  | none => s

/-- RESCAN: OPEN entries that name the engine and are not served yet are taken (R430). -/
def rescanEngine (s : State) (k : Nat) : State :=
  if (getEng s k).rescan then
    let found := (sortBy id (allLive s)).filter fun i =>
      entState s i == lOpen && servingFor s (entOwner s i) == k && !((getEng s k).serve.any fun p => p.1 == i)
    found.foldl (fun s i => serveLast s k i) (rescanTaken s k)
  else s

/-- RESCAN (R430). -/
def execRescan (die eng : Nat) (s : State) : Out :=
  unitDo s die (engUp s (engKey die eng)) (rescanEngine s (engKey die eng))

/-! ### The journal (R375, R380 to R384) -/

/-- What a durable record does, where `top` is the highest `SEQ` that is durable now (R375, R382 to R384, R427). -/
def recDurable (s : State) (d top : Nat) (r : JRec) : State :=
  let mine := (getChan s d).live.contains r.index && ent s r.index 1 == r.xnum
  let s := match r.eng with
    | some k => evPush s k 8 (w64 top) 0
    | none => s
  if r.typ = 5 then modChan s d fun c => { c with limit := max c.limit r.xnum.toNat }
  else if !mine then s
  else if r.typ = 1 ∨ r.typ = 3 then
    let s := setEntF s r.index 9 55 0 r.seq
    if r.typ = 1 ∧ entState s r.index = lAccepting then
      openEntry (setEntF (setEnt s r.index 6 (timeOf s d)) r.index 0 63 60 lOpen) r.index
    else s
  else if r.typ = 2 then modWork s r.index fun w => { w with termDone := true }
  else s

/-- Records of a die that are not durable yet, up to a SEQ, and whose writes may start (R382, R385). -/
def jReady (c : Chan) (size seq : Nat) : List JRec :=
  c.jrecs.filter fun r => !r.durable && decide (r.seq ≤ seq) && decide (r.seq - c.jhead < size) &&
    (match c.jstop with
      | some n => decide (r.seq < n)
      | none => true)

/-- The engines of a die. -/
def dieEngs (d : Nat) : List Nat := (List.range 16).map fun e => engKey d e

/-- The intakes of a die go on, where a number or a record was awaited. -/
def drainDie (s : State) (d : Nat) : State := (dieEngs d).foldl (fun s k => if engUp s k then drain s k else s) s

/-- An NVMe ledger device takes whole 4 KiB blocks: PAD records fill the rest of the block that holds the newest record up to a SEQ
(R380); each takes a SEQ of its own (DESIGN CHOICE: so that no IV is used twice). -/
def padBlock (s : State) (d seq : Nat) : State :=
  let c := getChan s d
  let last := min seq (c.jnext - 1) / 64 * 64 + 63
  if getF s d bChn rChnLdev 31 30 = 2 ∧ jReady c (jSize s d) seq ≠ [] then
    (List.range (last + 1 - c.jnext)).foldl (fun s _ => jPut s d (blankRec 15 0)) s
  else s

/-- The records that a write of the ledger device makes durable: those up to a SEQ, or the whole blocks that hold them. -/
def blockEnd (s : State) (d seq : Nat) : Nat :=
  if getF s d bChn rChnLdev 31 30 = 2 then min seq ((getChan s d).jnext - 1) / 64 * 64 + 63 else seq

/-- JOURNAL_DURABLE: the records of a die up to a SEQ stand in their slots; then HEAD advances and its record is copied where due. -/
def journalDurable (s : State) (d seq : Nat) : State :=
  let stop := blockEnd s d seq
  let s := padBlock s d seq
  let l := jReady (getChan s d) (jSize s d) stop
  let s := l.foldl (fun s r => slotPut s d r) s
  let s := modChan s d fun c => { c with jrecs := c.jrecs.map fun r => if l.any fun q => q.seq == r.seq then { r with durable := true } else r }
  let s := l.foldl (fun s r => recDurable s d ((l.map (·.seq)).foldl max 0) r) s
  let s := relog (advanceHead s d) d
  if l.any fun r => r.typ == 5 then drainDie s d else s

/-- JOURNAL_DURABLE (R375). -/
def execJournalDurable (die : Nat) (seq : BitVec 56) (s : State) : Out :=
  unitDo s die (dieLive s die && ldevUp s die) (journalDurable s die seq.toNat)

/-- JOURNAL_WRITE_FAIL (R382). -/
def execJournalWriteFail (s : State) : Out := .next (if s.fatal then s else ldevLeaves s)

/-- JOURNAL_CONTROL_REWRITE: the control block takes HEAD, after 65,536 records or while HEAD has moved (R380, R382). -/
def controlRewrite (s : State) (d : Nat) : State :=
  let c := getChan s d
  if 65536 ≤ c.jsince ∨ (jCtl c).head ≠ c.jhead then controlPut s d else s

/-- JOURNAL_CONTROL_REWRITE; from step 3 of R385 no write of the journal region starts (R382, R385). -/
def execJournalControlRewrite (die : Nat) (s : State) : Out :=
  unitDo s die (dieLive s die && ldevUp s die && ((getChan s die).jstop).isNone) (controlRewrite s die)

/-- NUMBLK: the limit that the count needs is put into the journal, or into the ageing log by the Masthead, whose failed write is
recorded (R384, R633). -/
def numBlock (s : State) (d : Nat) (flashOk : Bool) : State :=
  let c := getChan s d
  let limit := numMultiple c + 2 ^ 21
  if limit ≤ c.limit ∨ c.jrecs.any (fun r => r.typ == 5 && decide (limit ≤ r.xnum.toNat)) then s
  else if ldevUp s d then jAppend s d (blankRec 5 (w64 limit))
  else if mastheadUp s then
    if flashOk then
      drainDie (modChan (ageAppend s ⟨5, d, [], 0, 0, 0, 0, limit⟩) d fun c => { c with limit := limit }) d
    else deferred s 0 bUmb 0xFF 0x0714 0 0 0 0
  else drainDie s d

/-- NUMBLK (R384). -/
def execNumblk (die : Nat) (flashOk : Bool) (s : State) : Out :=
  unitDo s die (dieLive s die && !(chanLost s die)) (numBlock s die flashOk)

end Sys2Proof.Machine
end

