-- ==== Sys2Proof/Machine/Serve.lean ====
section
/-! DEFINITION. Serving exchanges: the start of the work, transfers, terminal states, retirement, and completion records that
were held (spec 12: R374, R375, R378, R390; 15: R454 to R456). -/

namespace Sys2Proof.Machine

/-! ### Whether the work can start (R375, R390) -/

/-- The target queue of an exchange: the controller of an NVMe kind, the session of an HXP_SEND, one queue for the rest
(DESIGN CHOICE: the spec names no queue for a MOVE). -/
def targetQueue (s : State) (i : Nat) : Nat × Nat :=
  let k := entKind s i
  if isNvme k then (0, xCtrl s i) else if k = xkSend then (1, sendSession s i) else (2, 0)

/-- The exchange is the oldest of its target queue that waits at the engine in OPEN (R375). -/
def firstOpen (s : State) (k i : Nat) : Bool :=
  ((getEng s k).serve.find? fun p => entState s p.1 == lOpen && targetQueue s p.1 == targetQueue s i).any fun p => p.1 == i

/-- ACTIVE exchanges that an engine serves (R390). -/
def activeCount (s : State) (k : Nat) : Nat := ((getEng s k).serve.filter fun p => entState s p.1 == lActive).length

/-- Units of the staging buffer that an exchange needs; output above 1 MiB is staged in memory (R454). -/
def stageUnits (s : State) (i : Nat) : Nat :=
  if xformOf s i ≠ 0 ∧ isNvmeChain (entKind s i) ∧ nvmeBytes s i ≤ 2 ^ 20 then (nvmeBytes s i + 4095) / 4096 else 0

/-- Units that other exchanges use of the staging buffer of the root port that an exchange's controller is behind; a reissue keeps its own. -/
def stagedUnits (s : State) (i : Nat) : Nat :=
  (s.works.map fun p => if p.1 ≠ i ∧ p.2.staged ≠ 0 ∧ (getCtrl s (xCtrl s p.1)).die = (getCtrl s (xCtrl s i)).die then p.2.staged else 0).sum

/-- The target's queue or window has room for the exchange (R390, R407, R417). -/
def targetRoom (s : State) (k i : Nat) : Bool :=
  if isNvme (entKind s i) then (nvSlot s k (xCtrl s i)).isSome
  else if entKind s i = xkSend then
    let n := sendSession s i
    stState s n != ssOpen || (sndFind s n (ent s i 1)).isSome
      || ((sndFree s n).isSome && serBefore (getSess s n).txNext (getSess s n).txCredit)
  else true

/-- There is room for the exchange to start. -/
def startRoom (s : State) (k i : Nat) : Bool :=
  decide (activeCount s k < 4096) && decide (stagedUnits s i + stageUnits s i ≤ 256) && targetRoom s k i

/-- The exchange waits in OPEN and is counted once (R390, R391). -/
def queueWait (s : State) (k i : Nat) : State :=
  if (getEng s k).serve.any fun p => p.1 == i && !p.2 then
    count (modEng s k fun e => { e with serve := e.serve.map fun p => if p.1 = i then (i, true) else p }) (k / 16) bChn rChnQwait
  else s

/-! ### The issue check (R365, R375, R455) -/

/-- The words that a list's entries hold. -/
def bufTotal (l : List (Nat × Nat)) : Nat := (l.map (·.2)).sum

/-- The first reason for which the buffers of an exchange fail the issue check. -/
def sideFault (s : State) (c : Ctx) (i : Nat) (src : Bool) : Option Nat :=
  let len := wfld (descWord s i 4) 31 0
  match buffers s c (descWord s i (if src then 2 else 3)) len with
  | .error e => some e
  | .ok l =>
    let short := if src then bufTotal l ≠ len else xformOf s i = 0 ∧ bufTotal l < len
    if short then some rsListLen else bufFault s c (if src then .read else .write) l

/-- The issue check at the serving engine: the first reason that fails it (R375). -/
def issueFault (s : State) (d i : Nat) : Option Nat :=
  let c := xCtx s d i
  let f1 := if hasSource s i then sideFault s c i true else none
  let f2 := if hasDest s i then sideFault s c i false else none
  let f3 := if xformOf s i = 0 then none
    else match chainWords s c i with
      | .error e => some e
      | .ok _ => none
  (f1.or f2).or f3

/-- The pages that the issue check looks up (R424, R503): of the source, the destination and the chain descriptor. -/
def issueNote (s : State) (d i : Nat) : State :=
  let c := xCtx s d i
  let len := wfld (descWord s i 4) 31 0
  let s := if hasSource s i then noteSide s c (descWord s i 2) len else s
  let s := if hasDest s i then noteSide s c (descWord s i 3) len else s
  if xformOf s i = 0 then s else unitNote s c (xformOf s i) 16

/-! ### The start (R375, R456) -/

/-- The NVMe command of an ACTIVE exchange is submitted where a slot is free. -/
def nvStart (s : State) (k i : Nat) : State :=
  match nvSlot s k (xCtrl s i) with
  | some (pair, slot) => nvSubmit s k i pair slot
  | none => s

/-- The work of an exchange in ACTIVE begins: its chain is checked first and runs before a write, a move or a send (R454,
R456). -/
def beginWork (s : State) (k i : Nat) : State :=
  let d := k / 16
  let kind := entKind s i
  if xformOf s i = 0 ∨ (getWork s i).chainDone then
    if isNvme kind then nvStart s k i else s
  else
    let s := ptFill s d .ptt (entPart s i)
    match chainCheck s d i (chainOf s i) with
    | some (st, code) => chainError s d i st code
    | none => if kind = xkRead then nvStart s k i else chainStart s d i

/-- The engine reads the descriptor of an exchange at its home: whether no word of it is poisoned, which fails the exchange (R306, R326). -/
def readDesc (s : State) (d i : Nat) : Bool × State :=
  let s := unitRead s d (entDesc s i) 16
  ((firstBelow 16 fun j => isPoisoned s (entDesc s i + j)).isNone, s)

/-- EXCHANGE_START (R375): the first exchange of its target queue starts where there is room, and the others wait behind it; one whose chain has ended submits its
command once a slot is free. -/
def exchangeStart (s : State) (k i : Nat) : State :=
  if entState s i = lActive then
    if isNvme (entKind s i) ∧ entKind s i ≠ xkRead ∧ (getWork s i).chainDone ∧ !((getEng s k).cmds.any (·.index == i)) then nvStart s k i else s
  else if entState s i ≠ lOpen then s
  else if !firstOpen s k i then queueWait s k i
  else if !startRoom s k i then queueWait s k i
  else
    let r := readDesc s (k / 16) i
    let s := if r.1 then issueNote r.2 (k / 16) i else r.2
    let chain := if !r.1 ∨ xformOf s i = 0 then [] else (chainWords s (xCtx s (k / 16) i) i).toOption.getD []
    match (if r.1 then issueFault s (k / 16) i else some rsPoison) with
    | some e => closeWith (modWork s i fun w => { w with chain := chain }) i e 0 false
    | none =>
      let units := stageUnits s i
      beginWork (modWork (setEnt (setEntF s i 0 63 60 lActive) i 7 0) i fun w =>
        { w with staged := units, started := true, chain := chain }) k i

/-- The engine serves the exchange. -/
def serves (s : State) (k i : Nat) : Bool := (getEng s k).serve.any fun p => p.1 == i

/-- EXCHANGE_START (R375). -/
def execExchangeStart (die eng : Nat) (index : BitVec 24) (s : State) : Out :=
  unitDo s die (engUp s (engKey die eng) && serves s (engKey die eng) index.toNat) (onEntry s die index.toNat fun s => exchangeStart s (engKey die eng) index.toNat)

/-! ### Transfers done and terminal states (R297, R374, R375) -/

/-- Words of an exchange's source before the first that cannot be read. -/
def readable (s : State) (c : Ctx) (i : Nat) : Nat :=
  match buffers s c (descWord s i 2) (wfld (descWord s i 4) 31 0) with
  | .error _ => 0
  | .ok l => ((bufAddrs l).findIdx? fun va => (bufFault s c .read [(va, 1)]).isSome).getD 0

/-- The words of a MOVE without a chain are written to its destination. -/
def moveWords (s : State) (d i : Nat) : State :=
  let c := xCtx s d i
  let len := wfld (descWord s i 4) 31 0
  match sourceWords s c i, destBufs s c i with
  | .error e, _ => closeWith (cameTo s i (readable s c i)) i e 0 false
  | _, .error e => closeWith s i e 0 false
  | .ok ws, .ok bs => closeOk (setXlen (fillBufs (readSource s c i) c (hintOf s i) bs (ws.take len)).1 i len) i

/-- TRANSFER_DONE: every transfer of the exchange is done and visible (R375). -/
def transferDone (s : State) (k i : Nat) : State :=
  let kind := entKind s i
  if entState s i ≠ lActive then s
  else if (kind = xkMove ∨ kind = xkRead) ∧ xformOf s i ≠ 0 then (if (getWork s i).chainDone then closeOk s i else s)
  else if kind = xkMove then moveWords s (k / 16) i
  else s

/-- TRANSFER_DONE (R375). -/
def execTransferDone (die eng : Nat) (index : BitVec 24) (s : State) : Out :=
  unitDo s die (engUp s (engKey die eng) && serves s (engKey die eng) index.toNat) (onEntry s die index.toNat fun s => transferDone s (engKey die eng) index.toNat)

/-- Words that the NVMe command of an exchange moves (R366). -/
def cmdWords (s : State) (i : Nat) : Nat :=
  if entKind s i = xkFlush then 0
  else if entKind s i = xkRaw then (if hasSource s i || hasDest s i then wfld (descWord s i 4) 31 0 else 0)
  else nvmeBytes s i / 8

/-- An NVMe command that has not succeeded: the words that the device read or wrote, a free number of those that it moves, are its `XLEN`
(R377). -/
def lostXlen (s : State) (i : Nat) : State :=
  if isNvme (entKind s i) ∧ (getWork s i).cmdOut then
    let f := takeFree s
    setXlen f.2 i (f.1.toNat % (cmdWords s i + 1))
  else s

/-- Words of its destination, from the first on, that a failed exchange leaves undefined: those that the device wrote, those that a MOVE has
written, or a free number up to where the output had come (R377, R470). -/
def spoilCount (s : State) (i cap : Nat) : Nat × State :=
  let w := getWork s i
  let x := entF s i 8 31 0
  if isNvme (entKind s i) ∧ xformOf s i = 0 then (if w.cmdOut then min x cap else 0, s)
  else if 0 < x ∧ entKind s i = xkMove then (min x cap, s)
  else
    let f := takeFree s
    (f.1.toNat % (min w.reach cap + 1), f.2)

/-- The destination of an exchange that fails, with the overflow chain that its output has reached, holds undefined data up to the point of
failure, which `XLEN` of a MOVE counts (R377, R466, R470). -/
def spoilDest (s : State) (i : Nat) : State :=
  if entReason s i = 0 ∨ !(getWork s i).started then s
  else
    let s := lostXlen s i
    if !hasDest s i then s
    else
      let c := xCtx s (entOwner s i / 16) i
      match destBufs s c i with
      | .error _ => s
      | .ok bs =>
        let ovf := chainOvf (chainOf s i)
        let n := spoilCount s i (bufTotal bs + if ovf = 0 then 0 else ovfWords s c ovf 4096 0)
        let w := freeWords n.1 n.2
        let r := fillBufs w.2 c (hintOf s i) bs w.1
        let t := (fillOvf r.1 c (hintOf s i) ovf 4096 0 ⟨r.2, 0, 0, none⟩).1
        if entKind s i = xkMove then setXlen t i n.1 else t

/-- The result area of an exchange that failed with no status of its chain: word 0 is written with `STATUS` 0 (R467; DEDUCED: log 155). -/
def failedResult (s : State) (i : Nat) : State :=
  let w := getWork s i
  if entReason s i ≠ 0 ∧ w.chain ≠ [] ∧ !w.resDone then
    resWritten (failResult s (xCtx s (entOwner s i / 16) i) (hintOf s i) (chainRes w.chain) 0) i
  else s

/-- The terminal state of an entry in CLOSING is written; its engine, its staging units and its send record are released (R374,
R417, R454). -/
def terminalWrite (s : State) (i : Nat) : State :=
  if entState s i = lClosing then
    let k := servingFor s (entOwner s i)
    let s := termDecide (failedResult (spoilDest s i) i) i
    let s := if entKind s i = xkSend then sndClear s i else s
    modWork (nvDrop (unserve s k i) k i) i fun w => { w with staged := 0, data := [] }
  else s

/-- TERMINAL_STATE_WRITE (R374). -/
def execTerminalStateWrite (die : Nat) (index : BitVec 24) (s : State) : Out :=
  unitDo s die (dieLive s die && ldgDie s index.toNat == some die) (onEntry s die index.toNat fun s => terminalWrite s index.toNat)

/-- LEDGER_RETIRE: a terminal entry whose completions are delivered, and whose TERM record is durable, becomes FREE (R375). -/
def ledgerRetire (s : State) (d i : Nat) : State :=
  if isTerminal (entState s i) && wbit (ent s i 0) 40 && (!entDur s i || (getWork s i).termDone) then retire s d i else s

/-- LEDGER_RETIRE (R375). -/
def execLedgerRetire (die : Nat) (index : BitVec 24) (s : State) : Out :=
  unitDo s die (dieLive s die && ldgDie s index.toNat == some die && (getChan s die).live.contains index.toNat)
    (onEntry s die index.toNat fun s => ledgerRetire s die index.toNat)

/-- COMPLETION_RECORD_RETRY: a held record is written where its ring has room (R375, R378). -/
def recordRetry (s : State) (d k : Nat) : State :=
  match (getChan s d).held[k]? with
  | none => s
  | some h =>
    let r := crTake s d h.part h.words
    if !r.1 then r.2
    else
      let s := modChan r.2 d fun c => { c with held := dropAt c.held k }
      match h.index with
      | some i => setEntF s i 0 40 40 1
      | none =>
        let e := servingFor s h.eng
        let more := (getChan s d).held.any fun q => q.index.isNone && servingFor s q.eng == e
        drain (modEng s e fun x => { x with blocked := more }) e

/-- COMPLETION_RECORD_RETRY (R375). -/
def execCompletionRecordRetry (die : Nat) (held : Nat) (s : State) : Out := unitDo s die (dieLive s die) (recordRetry s die held)

end Sys2Proof.Machine
end

