-- ==== Sys2Proof/Machine/TakeOver.lean ====
section
/-! DEFINITION. Engines that leave service, take-over, lost dies, the power-fail steps of the journal, and the in-doubt report
(spec 12: R385, R386, R388, R389). -/

namespace Sys2Proof.Machine

/-! ### Take-over (R388, R482) -/

/-- A restarted exchange in the engine's list: an HXP_SEND keeps its place, so that those that hold a send record come before those that
wait for one (R417); any other is the last (R375). -/
def serveAgain (s : State) (k i : Nat) : State :=
  if entKind s i = xkSend ∧ (getEng s k).serve.any (·.1 == i) then
    modEng s k fun e => { e with serve := e.serve.map fun p => if p.1 = i then (i, false) else p }
  else serveLast s k i

/-- An exchange starts again from its descriptor at an engine, with the next GEN (R388). -/
def restart (s : State) (k i : Nat) : State :=
  let aborting := entState s i = lAborting
  let s := dropChain (nvDrop s k i) (k / 16) i
  let s := setEntF s i 0 29 24 ((entGen s i + 1) % 64)
  if entKind s i = xkRaw then closeWith s i rsTakeover 0 true
  else
    let s := modWork s i fun w =>
      { w with data := [], chainDone := false, staged := 0, firstSeq := none, segNext := 0, unconfirmed := w.unconfirmed || aborting,
               resDone := false, reach := 0 }
    serveAgain (setEnt (setEntF s i 0 63 60 lOpen) i 7 0) k i

/-- OWNDIE and OWNENG of an entry name an engine. -/
def setOwner (s : State) (i k : Nat) : State := setEntF (setEntF s i 0 39 37 (k / 16)) i 0 36 33 (k % 16)

/-- The row of R388 for an entry that engine `k` takes. -/
def takeEntry (s : State) (k i : Nat) : State :=
  let s := setOwner s i k
  let st := entState s i
  if st = lAccepting then
    match ldgDie s i with
    | some d =>
      if ldevUp s d then
        let s := if wbit (ent s i 0) 42 then xlateNote s (xCtx s d i) (wfld (descWord s i 2) 48 0) else s
        let psrc := if wbit (ent s i 0) 42 then
            (match translate s (xCtx s d i) .read (wfld (descWord s i 2) 48 0) with
              | .ok a => a
              | .error _ => 0)
          else 0
        jAppend s d (acceptRec s i psrc)
      else s
    | none => s
  else if st = lOpen then (if serves s k i then s else serveLast s k i)
  else if st = lActive then
    if entKind s i = xkRecv ∨ (getEng s k).cmds.any (·.index == i) then s else restart s k i
  else if st = lAborting then restart s k i
  else if st = lClosing then terminalWrite s i
  else s

/-- `CHN_ISSMAP` names the take-over engine in place of the failed one (R388). -/
def remap (s : State) (d e e' : Nat) : State :=
  (List.range 40).foldl (fun s n =>
    if issEngine s d n = e then setF s d bChn (rChnIssmap + n / 8) (4 * (n % 8) + 3) (4 * (n % 8)) e' else s) s

/-- Entries on other dies that a lost die serves end IN_DOUBT at their accepting engines (R389). -/
def loseDie (s : State) (d : Nat) : State :=
  (allLive s).foldl (fun s i =>
    let st := entState s i
    if entOwner s i / 16 = d ∧ ldgDie s i ≠ some d ∧ (st = lOpen ∨ st = lActive ∨ st = lAborting ∨ st = lClosing)
    then closeWith (dropChain s d i) i rsDieLost 0 true else s) s

/-- The take-over engine adopts what the failed engine holds (R388). -/
def adopt (s : State) (f k : Nat) : State :=
  let x := getEng s f
  let s := modEng s k fun e =>
    { e with intake := e.intake ++ x.intake, flitq := e.flitq ++ x.flitq, blocked := e.blocked || x.blocked,
             serve := e.serve ++ x.serve, cmds := e.cmds ++ x.cmds, late := e.late ++ x.late, hxq := e.hxq ++ x.hxq }
  modEng s f fun e =>
    { e with intake := [], flitq := [], blocked := false, serve := [], cmds := [], late := [], hxq := [], rescan := false, adopted := true }

/-- TAKEOVER: the lowest-numbered engine of the die in service takes a failed engine's work (R388); without one the die's channel
subsystem is lost (R389). -/
def takeOver (s : State) (f : Nat) : State :=
  let d := f / 16
  let k := servingFor s f
  if !(getEng s f).out ∨ (getEng s f).adopted then s
  else if k = f then loseDie (modEng s f fun e => { e with adopted := true }) d
  else
    let served := (getEng s f).serve.map (·.1)
    let mine := (sortBy id ((getChan s d).live.filter fun i => entOwner s i == f))
    let s := adopt (remap s d (f % 16) (k % 16)) f k
    let s := (served ++ mine.filter fun i => !served.contains i).foldl (fun s i => takeEntry s k i) s
    let s := evPush (evRaise s d (0x200 + f % 16)) k 7 (w64 (f % 16)) 0
    drain s k

/-- TAKEOVER (R388). -/
def execTakeover (die eng : Nat) (s : State) : Out := unitDo s die (dieLive s die) (takeOver s (engKey die eng))

/-- An engine leaves service on a CONTAINED fault (R388). -/
def engineOut (s : State) (k det : Nat) (inj : Bool := false) : State :=
  report (modEng s k fun e => { e with out := true }) (k / 16) (bCen (k % 16)) 0xFF det cContained 0x07 0 0 0 inj

/-- An engine misses its heartbeat limit; an armed PERTURB has suppressed its heartbeats (R388, R546). -/
def watchdog (s : State) (die eng : Nat) : State :=
  match armed s die 0x0503 (bCen (eng % 16)) 0xFF 3 with
  | none => engineOut s (engKey die eng) 0x0503
  | some _ => engineOut (injUse s die) (engKey die eng) 0x0503 true

/-- ENGINE_WATCHDOG (R388). -/
def execEngineWatchdog (die eng : Nat) (s : State) : Out :=
  unitDo s die (engUp s (engKey die eng)) (watchdog s die eng)

/-! ### Power-fail steps (R385) -/

/-- PFAIL_JOURNAL_STOP: 500 µs after the warning no further journal write is started; how many of the records that are not durable
had started is free. -/
def execPfailJournalStop (s : State) : Out :=
  .next ((List.range (nDies s.part)).foldl (fun s d =>
    let c := getChan s d
    if dieLive s d && pfail s d && c.jstop.isNone then
      let f := takeFree s
      let open' := c.jrecs.filter fun r => !r.durable
      let first := ((open'.map (·.seq)).foldl min c.jnext)
      modChan f.2 d fun c => { c with jstop := some (first + f.1.toNat % (open'.length + 1)) }
    else s) s)

/-- PFAIL_GPF_START: the root port of a CXL ledger device starts Global Persistent Flush. -/
def execPfailGpfStart (s : State) : Out :=
  let d := getF s 0 bChn rChnLdev 29 27
  .next (if !s.fatal && pfail s 0 && getF s 0 bChn rChnLdev 31 30 == 1 && dieLive s d then give s (.flush d) else s)

/-! ### The in-doubt report (R386) -/

/-- An entry of the report. -/
structure DoubtEntry where
  state : Nat
  reason : Nat
  rec' : JRec
  redriven : Bool
  jterm : Bool
  die : Nat
  xlen : Nat
  deriving DecidableEq, Repr

/-- Terminal state and reason of a re-driven write or flush (R387). -/
def redriveEnd (kind : Nat) : Redrive → Nat × Nat
  | .done => (lCompleted, 0)
  | .status dw3 u =>
    if bitOf dw3.toNat 31 then (lFailed, rsNvmeStatus)
    else if kind = xkWrite ∧ u then (lInDoubt, rsNvmeTimeout) else (lFailed, rsNvmeStatus)
  | .timeout u => if kind = xkWrite ∧ u then (lInDoubt, rsNvmeTimeout) else (lFailed, rsNvmeTimeout)
  | .lost u => if kind = xkWrite ∧ u then (lInDoubt, rsNvmeLost) else (lFailed, rsNvmeLost)

/-- An exchange with an ACCEPT record and no TERM record is re-driven: its command leaves, with the FUA bit free, which no record
keeps; its source is the one that the record names, and its TERM record is written (R381, R386). -/
def redrive (s : State) (d : Nat) (r : JRec) (o : Redrive) : State × DoubtEntry :=
  let f := takeFree s
  let c := wfld r.tgt 63 32
  let e := redriveEnd r.kind o
  let bytes := (r.nlb + 1) * blockSize s r.tgt
  let xlen := if r.kind = xkWrite ∧ o = .done then bytes / 8 else 0
  let sgl := (getCtrl s c).sgl
  let data := if r.kind = xkWrite then (if sgl then [(8 * r.psrc, bytes)] else prpPieces (8 * r.psrc, bytes)) else []
  let s := give f.2 (.nvme 0 c 0 0 (nvOp r.kind) (wfld r.tgt 31 0) r.slba r.nlb (f.1.toNat % 2 == 1) sgl data)
  (putDurable s d { blankRec 2 r.xnum with state := e.1, reason := e.2, user := w64 xlen }, ⟨e.1, e.2, r, true, false, d, xlen⟩)

/-- The exchanges of a die's journal in order of their numbers: the state, the entries, and the outcomes left over; none when an
outcome is missing. -/
def replayDie (d : Nat) (terms : List JRec) : List JRec → State → List Redrive → Option (State × List DoubtEntry × List Redrive)
  | [], s, os => some (s, [], os)
  | r :: l, s, os =>
    match terms.find? fun t => t.xnum == r.xnum with
    | some t => (replayDie d terms l s os).map fun x => (x.1, ⟨t.state, t.reason, r, false, true, d, 0⟩ :: x.2.1, x.2.2)
    | none =>
      if r.rdv then
        match os with
        | [] => none
        | o :: os =>
          let e := redrive s d r o
          (replayDie d terms l e.1 os).map fun x => (x.1, e.2 :: x.2.1, x.2.2)
      else (replayDie d terms l s os).map fun x => (x.1, ⟨lInDoubt, rsPowerLost, r, false, false, d, 0⟩ :: x.2.1, x.2.2)

/-- One record for each exchange number that has an ACCEPT or a RELOG record. -/
def acceptsOf (l : List JRec) : List JRec :=
  sortBy (·.xnum.toNat) ((l.filter fun r => r.typ == 1 || r.typ == 3).foldl
    (fun acc r => if acc.any fun q => q.xnum == r.xnum then acc else acc ++ [r]) [])

/-- Every die in order. -/
def replayAll : List Nat → State → List Redrive → Option (State × List DoubtEntry)
  | [], s, _ => some (s, [])
  | d :: ds, s, os =>
    let l := replayRecs s d
    let head := (jCtl (getChan s d)).head
    let s := modChan s d fun c => { c with jrecs := l, jhead := head, jnext := head + l.length }
    match replayDie d (l.filter fun r => r.typ == 2) (acceptsOf l) s os with
    | none => none
    | some (s, es, os) => (replayAll ds s os).map fun x => (x.1, es ++ x.2)

/-- The eight words of an entry of the report (R386). -/
def doubtWords (e : DoubtEntry) : List Word :=
  [w64 (e.state * 2 ^ 60 + e.reason * 2 ^ 48 + e.rec'.kind * 2 ^ 44 + b2n e.rec'.rdv * 2 ^ 43 + b2n e.redriven * 2 ^ 42
      + b2n e.jterm * 2 ^ 41 + e.die * 2 ^ 38 + e.rec'.part * 2 ^ 28),
    e.rec'.xnum, e.rec'.user, e.rec'.tgt, e.rec'.slba, w64 e.rec'.nlb, w64 e.xlen, 0]

/-- The header line of the report (R386). -/
def doubtHeader (l : List DoubtEntry) : List Word :=
  let n (p : DoubtEntry → Bool) := min (2 ^ 16 - 1) (l.filter p).length
  [w64 l.length,
    w64 (n (·.state == lCompleted) * 2 ^ 48 + n (·.state == lFailed) * 2 ^ 32 + n (·.state == lInDoubt) * 2 ^ 16 + n (·.redriven))]
    ++ List.replicate 14 0

/-- The journals of every die are read, also of one that has been left out; exchanges re-driven with the outcomes given, and the report written; none where an outcome is missing
(R386). -/
def journalReplay (s : State) (os : List Redrive) : Option State :=
  (replayAll (if ldevUp s 0 then List.range (nDies s.part) else []) s os).map fun p =>
    let s := stores p.1 0 (baseOf p.1 0 bChn rChnIdrbaseHi) (doubtHeader p.2 ++ p.2.flatMap doubtWords)
    let s := setReg s 0 bChn rChnIdrstat (2 ^ 31 + min (2 ^ 31 - 1) p.2.length)
    evRaise s 0 0x216

/-- IDR_ACK: each die appends an EPOCH record and sets HEAD past it, in the control block too (R386). For a die that is out of service
the engines of die 0, which have read its region, write both (DESIGN CHOICE: log entry 49). After the stop of R385 nothing is written: the
record waits. -/
def idrAck (s : State) : State :=
  let n := getF s 0 bChn rChnIdrstat 30 0
  let s := setF s 0 bChn rChnIdrstat 31 31 0
  (List.range (nDies s.part)).foldl (fun s d =>
    if ldevUp s 0 then
      let s := if dieLive s d && ldevUp s d then jPut s d (blankRec 4 (w64 n)) else putDurable s d (blankRec 4 (w64 n))
      let old := jOcc (getChan s d)
      let by' := if dieLive s d && ldevUp s d then d else 0
      let s := jMark (modChan s d fun c => { c with jhead := c.jnext }) d old
      if (getChan s by').jstop.isNone then controlPut s d else s
    else s) s

/-- IDR_ACK (R386). -/
def execIdrAck (s : State) : Out := 
  regDo s 0 bChn rChnIdrack (dieLive s 0 && getF s 0 bChn rChnIdrstat 31 31 == 1) (idrAck s)

end Sys2Proof.Machine
end

