-- ==== Sys2Proof/Machine/Transform.lean ====
section
/-! DEFINITION. The transform scheduler, the key caches and the key vault (spec 15: R472 to R482). -/

namespace Sys2Proof.Machine

/-- A job of a die changed. -/
def modJob (s : State) (d i : Nat) (f : ChainJob → ChainJob) : State :=
  modXf s d fun x => { x with jobs := x.jobs.map fun j => if j.index = i then f j else j }

/-- Furl and Woad engines of a die in service (R481, R483). -/
def furlUp (s : State) (d : Nat) : List Nat :=
  if dieLive s d && blkEn s d bFrl then (List.range 2).filter fun e => !(getXf s d).furlOut.contains e && !(getXf s d).furlGated.contains e else []
def woadUp (s : State) (d : Nat) : List Nat :=
  if dieLive s d && blkEn s d bWad then (List.range 2).filter fun e => !(getXf s d).woadOut.contains e && !(getXf s d).woadGated.contains e else []

/-- A chain ends FAILED with a status; one whose exchange has ended is abandoned (R375, R467, R469, R483). -/
def chainFail (s : State) (d i stage code : Nat) : State :=
  let begun := (getXf s d).jobs.any fun j => j.index == i && (decide (0 < j.done) || j.running.isSome)
  let s := dropChain (if begun then cameTo s i anyReach else s) d i
  if entState s i = lActive then chainError s d i stage code else s

/-! ### Pipes, engines and keys of a turn (R474, R478) -/

/-- A furl or unfurl pipe of a Furl engine is free. -/
def pipeFree (x : XfDie) (unfurl : Bool) (e : Nat) : Bool :=
  !(x.jobs.any fun j => (j.running.map fun r => r.1 == some e && (if unfurl then j.unfurl else j.furl)).getD false)
def woadFree (x : XfDie) (e : Nat) : Bool := !(x.jobs.any fun j => (j.running.map fun r => r.2.1.contains e).getD false)

/-- The engines that a turn takes: the lowest-numbered free ones (DESIGN CHOICE); with one Woad engine left, both Woad stages use
it. None while some are not free. -/
def turnEngines (s : State) (d : Nat) (j : ChainJob) : Option (Option Nat × List Nat) :=
  let x := getXf s d
  let fs := (furlUp s d).filter (pipeFree x j.unfurl)
  let ws := ((woadUp s d).filter (woadFree x)).take (min j.woads (woadUp s d).length)
  if (j.furl || j.unfurl) && fs == [] then none
  else if ws.length < min j.woads (woadUp s d).length then none
  else some (if j.furl || j.unfurl then fs.head? else none, ws)

/-- The Woad engine of each key slot of a chain: stages take the engines in order. -/
def keyPlaces (s : State) (d i : Nat) (ws : List Nat) : List (Nat × Nat) :=
  ((stagesOf (chainOf s i)).filter isWoad).zipIdx.flatMap fun t =>
    (stageKeys t.1).map fun k => (ws.getD (t.2 % max 1 ws.length) 0, k)

def cached (s : State) (d e : Nat) : List Nat := tget (fun _ => []) (getXf s d).kcache e
/-- A key is the most recently used of an engine's cache of 64 (R474). -/
def cacheKey (s : State) (d e k : Nat) : State :=
  modXf s d fun x => { x with kcache := tmod (fun _ => []) x.kcache e fun l => (k :: l.filter (· != k)).take 64 }

/-- The first stage whose key has left the vault or may no longer be used (R473). -/
def keysBad (s : State) (d i : Nat) : Option (Nat × Nat) :=
  let sealedWork := (getWork s i).sup && (getWork s i).pl == 2
  (stagesOf (chainOf s i)).zipIdx.findSome? fun t => (keyCheck s t.1 (entPart s i) sealedWork).map fun c => (t.2, c)

/-! ### The scheduler (R478) -/

/-- A partition's oldest waiting turn. -/
def oldestTurn (x : XfDie) (p : Nat) : Option ChainJob := x.jobs.find? fun j => j.part == p && j.running == none
/-- Bytes of a chain's next turn (R478). -/
def turnSize (j : ChainJob) : Nat := min (2 ^ 20) (j.total - j.done)
/-- Partitions with a waiting turn, in increasing order from `last` + 1, wrapping. -/
def waitingParts (x : XfDie) : List Nat :=
  let ps := ((x.jobs.filter fun j => j.running == none).map (·.part)).eraseDups
  sortBy (fun p => (p + 1024 - (x.last + 1)) % 1024) ps

/-- The deficits of a partition allow its oldest turn. -/
def deficitOk (x : XfDie) (j : ChainJob) : Bool :=
  (!(j.furl || j.unfurl) || decide (turnSize j ≤ tget (fun _ => 0) x.dF j.part))
    && (j.woads == 0 || decide (turnSize j ≤ tget (fun _ => 0) x.dW j.part))

/-- Deficits of partitions with no waiting turn are cleared (R478). -/
def clearIdle (x : XfDie) : XfDie :=
  let ps := waitingParts x
  { x with dF := x.dF.filter fun p => ps.contains p.1, dW := x.dW.filter fun p => ps.contains p.1 }

/-- The partitions of a pass are visited in order until one of them has a turn that its deficits allow; a partition's weights are those of
its cached entry (R477). -/
def visit (s : State) (d : Nat) : List Nat → State × Option Nat
  | [] => (modXf s d fun x => { x with pass := [] }, none)
  | p :: ps =>
    match oldestTurn (getXf s d) p with
    | none => visit s d ps
    | some j =>
      let s := ptFill s d .ptt p
      let s := modXf s d fun x =>
        { x with dF := tmod (fun _ => 0) x.dF p (· + pttFsh s d p * 65536), dW := tmod (fun _ => 0) x.dW p (· + pttWsh s d p * 65536) }
      if deficitOk (getXf s d) j then (modXf s d fun x => { x with last := p, visiting := true, pass := ps }, some j.index)
      else visit s d ps

/-- The rest of a pass; then the deficits of idle partitions are cleared and a new pass begins over the partitions with a waiting turn
(R478). -/
def rounds (s : State) (d : Nat) : Nat → State × Option Nat
  | 0 => (s, none)
  | n + 1 =>
    match visit s d (getXf s d).pass with
    | (s, some i) => (s, some i)
    | (s, none) => rounds (modXf (modXf s d clearIdle) d fun x => { x with pass := waitingParts x }) d n

/-- The turn that the scheduler reserves for next: another one of the partition that it visits, else one of the rest of the pass or of
further passes, of which 16 give any turn its deficit, since a turn is at most 16 times 65,536 bytes (R478). -/
def chooseTurn (s : State) (d : Nat) : State × Option Nat :=
  let x := getXf s d
  match x.reserved with
  | some i => (s, some i)
  | none =>
    let more := if x.visiting then (oldestTurn x x.last).filter (deficitOk x) else none
    match more with
    | some j => (s, some j.index)
    | none => rounds (modXf s d fun x => { x with visiting := false }) d 18

/-- A turn's state is read back from its slots (R306, R480). -/
def restoreState (s : State) (d : Nat) (v : Option (Nat × Nat) × List (Nat × Nat)) : State :=
  let s := v.1.elim s fun p => unitRead s d (saveAddr s d false p.1 p.2) (saveWords false)
  v.2.foldl (fun s p => unitRead s d (saveAddr s d true p.1 p.2) (saveWords true)) s

/-- The chain's turn starts on its pipes and engines (R478). -/
def startTurn (s : State) (d : Nat) (j : ChainJob) (fe : Option Nat) (ws : List Nat) : State :=
  let n := turnSize j
  let s := (keyPlaces s d j.index ws).foldl (fun s p => cacheKey s d p.1 p.2) s
  let s := j.saved.elim s (restoreState s d)
  let s := modJob s d j.index fun j => { j with running := some (fe, ws, n), saved := none }
  let s := modXf s d fun x =>
    { x with reserved := if x.reserved = some j.index then none else x.reserved,
             dF := if j.furl || j.unfurl then tmod (fun _ => 0) x.dF j.part (· - n) else x.dF,
             dW := if j.woads = 0 then x.dW else tmod (fun _ => 0) x.dW j.part (· - n) }
  let s := if j.furl || j.unfurl then count s d bFrl rFrlTurncnt else s
  if j.woads = 0 then s else count s d bWad rWadTurncnt

/-- A chain for which no engine of a kind is left fails with NOENGINE (R481). -/
def noEngine (s : State) (d : Nat) : State :=
  ((getXf s d).jobs.filter fun j => ((j.furl || j.unfurl) && furlUp s d == []) || (j.woads != 0 && woadUp s d == [])).foldl
    (fun s j => chainFail s d j.index 15 0xA) s

/-- TRANSFORM_TURN_START: the scheduler's next turn starts once its pipes, engines and keys are there (R474, R478). -/
def turnStart (s : State) (d : Nat) : State :=
  let s := noEngine s d
  let r := chooseTurn s d
  match r.2 with
  | none => r.1
  | some i =>
    let s := modXf r.1 d fun x => { x with reserved := some i }
    match (getXf s d).jobs.find? (·.index == i) with
    | none => modXf s d fun x => { x with reserved := none }
    | some j =>
      match keysBad s d i with
      | some (st, c) => modXf (chainFail s d i st c) d fun x => { x with reserved := none }
      | none =>
        match turnEngines s d j with
        | none => s
        | some (fe, ws) =>
          if (keyPlaces s d i ws).all fun p => (cached s d p.1).contains p.2 then startTurn s d j fe ws else s

/-- TRANSFORM_TURN_START (R478). -/
def execTransformTurnStart (die : Nat) (s : State) : Out := unitDo s die (dieLive s die) (turnStart s die)

/-- The lowest free save slot of an engine, if any (R480; which one is a DESIGN CHOICE, log entry 144). -/
def freeSlot (x : XfDie) (woad : Bool) (e : Nat) : Option Nat := firstBelow (saveSlots woad) fun n => !(savedOn x woad e).contains n

/-- A free save slot on every engine of a turn, none where one has none (R480). -/
def canSave (x : XfDie) (fe : Option Nat) (ws : List Nat) : Option (Option (Nat × Nat) × List (Nat × Nat)) :=
  let w := ws.filterMap fun e => (freeSlot x true e).map fun n => (e, n)
  let f := fe.bind fun e => (freeSlot x false e).map fun n => (e, n)
  if f.isSome == fe.isSome && w.length == ws.length then some (f, w) else none

/-- A turn's state is written into its slots: its form is stated nowhere, so that the words are free (R480). -/
def saveState (s : State) (d : Nat) (v : Option (Nat × Nat) × List (Nat × Nat)) : State :=
  let put (woad : Bool) (s : State) (p : Nat × Nat) : State :=
    let w := freeWords (saveWords woad) s
    stores w.2 d (saveAddr s d woad p.1 p.2) w.1
  v.2.foldl (put true) (v.1.elim s (put false s))

/-- A chain whose last turn has run: its output is written, and a write's command submitted (R454, R467). -/
def chainEnd (s : State) (d i : Nat) (inp : List Word) : State :=
  let s := chainFinish (dropChain s d i) d i inp
  if entState s i = lActive ∧ entKind s i = xkWrite ∧ (getWork s i).chainDone then nvStart s (servingFor s (entOwner s i)) i else s

/-- A turn that has run on its input: the chain ends, waits as a new turn with its state saved, or runs on without a save slot (R478,
R480). -/
def turnDone (s : State) (d : Nat) (j : ChainJob) (fe : Option Nat) (ws : List Nat) : State :=
  if j.total ≤ j.done then chainEnd s d j.index j.inp
  else
    let x := { getXf s d with jobs := (getXf s d).jobs.filter (·.index != j.index) }
    match canSave x fe ws with
    | some v => saveState (modXf s d fun _ => { x with jobs := x.jobs ++ [{ j with saved := some v }] }) d v
    | none => startTurn (modXf s d fun x => { x with jobs := x.jobs.map fun q => if q.index = j.index then j else q }) d j fe ws

/-- How far output may have come when a turn's input cannot be read: not at all where that is the first word of the chain. -/
def turnReach (s : State) (c : Ctx) (i k n : Nat) : Nat :=
  match k, turnWords s c i 0 (min n 8) with
  | 0, .error _ => 0
  | _, _ => anyReach

/-- TURN_END: the turn has taken its input, of which a poisoned or unreadable word ends the exchange (R375, R482). -/
def turnEnd (s : State) (d i : Nat) : State :=
  match (getXf s d).jobs.find? (·.index == i) with
  | none => s
  | some j =>
    match j.running with
    | none => s
    | some (fe, ws, n) =>
      let c := xCtx s d i
      if entState s i ≠ lActive then dropChain s d i
      else
        match turnWords s c i j.done n with
        | .error e => closeWith (cameTo (dropChain s d i) i (turnReach s c i j.done n)) i e 0 false
        | .ok l => turnDone (turnReads s c i j.done n) d { j with done := j.done + n, running := none, inp := j.inp ++ l } fe ws

/-- TURN_END (R480). -/
def execTurnEnd (die : Nat) (index : BitVec 24) (s : State) : Out := unitDo s die (dieLive s die) (turnEnd s die index.toNat)

/-- KEY_CACHE_FETCH: a miss fetches the key from the vault and is counted (R474). -/
def keyFetch (s : State) (d e k : Nat) : State :=
  if (vaultSlot s k).isSome ∧ !(cached s d e).contains k then cacheKey (count s d bWad rWadKcmiss) d e k else s

/-- KEY_CACHE_FETCH (R474). -/
def execKeyCacheFetch (die : Nat) (woad : Fin 2) (slot : BitVec 12) (s : State) : Out :=
  unitDo s die ((woadUp s die).contains woad) (keyFetch s die woad slot.toNat)

/-! ### Loss of an engine (R481) -/

/-- A Furl or Woad engine leaves service: its chains start again from their first byte. -/
def xformOut (s : State) (d : Nat) (woad : Bool) (e : Nat) : State :=
  let onIt (v : Option Nat × List Nat) := if woad then v.2.contains e else v.1 == some e
  let savedIt (v : Option (Nat × Nat) × List (Nat × Nat)) := onIt (v.1.map (·.1), v.2.map (·.1))
  let s := modXf s d fun x =>
    { x with
      furlOut := if woad then x.furlOut else e :: x.furlOut
      woadOut := if woad then e :: x.woadOut else x.woadOut
      kcache := if woad then tdel x.kcache e else x.kcache
      jobs := restartJobs (fun j => (j.running.map fun r => onIt (r.1, r.2.1)).getD false || (j.saved.map savedIt).getD false) x.jobs }
  noEngine (evRaise s d (0x300 + 2 * b2n woad + e)) d

/-- XFORM_ENGINE_LOSS: the engine's CONTAINED fault is recorded, and it leaves service (R481). -/
def execXformEngineLoss (die : Nat) (woad : Bool) (eng : Fin 2) (s : State) : Out :=
  unitDo s die ((if woad then woadUp s die else furlUp s die).contains eng.val)
    (xformOut (report s die (if woad then bWad else bFrl) eng (if woad then 0x0602 else 0x0601) cContained 0x07 0 0 0) die woad eng)

/-! ### The key vault (R472, R475, R476) -/

/-- Attributes from `WAD_KVATTR` with a key (R475). -/
def withAttr (s : State) (key : List Nat) : KeySlot :=
  let a := getReg s 0 bWad rWadKvattr
  ⟨key, fld a 31 22, bitOf a 21, bitOf a 20, fld a 19 15⟩

def setSlot (s : State) (k : Nat) (v : Option KeySlot) : State := { s with vault := tset (fun _ => none) s.vault k v }

/-- Bytes at `WAD_KVADDR`; none where a word is poisoned or unbacked (R475). -/
def kvBytes (s : State) (n : Nat) : Option (List Nat) :=
  let a := baseOf s 0 bWad rWadKvaddrHi
  if (List.range n).any fun j => isPoisoned s (a + j) then none else some (bytesOf (peeks s a n))

/-- The stage of a chain that holds a key. -/
def holdsStage (s : State) (i k : Nat) : Option Nat :=
  (stagesOf (chainOf s i)).findIdx? fun t => (stageKeys t).contains k

/-- Every cached copy of a slot is discarded; a chain that holds the key ends with KEYGONE (R476). -/
def forgetKey (s : State) (k : Nat) : State :=
  (List.range (nDies s.part)).foldl (fun s d =>
    let s := modXf s d fun x => { x with kcache := (x.kcache.map fun c => (c.1, c.2.filter (· != k))).filter fun c => c.2 != [] }
    ((getXf s d).jobs.filter fun j => (j.running.isSome || j.saved.isSome) && j.keys.contains k).foldl
      (fun s j => chainFail s d j.index ((holdsStage s j.index k).getD 15) 6) s) s

/-- What a vault command does: its ERR code, or the state (R475). -/
def kvEffect (s : State) (cmd src dst : Nat) : Except Nat State :=
  let dest := vaultSlot s dst
  let from' := vaultSlot s src
  match cmd with
  | 1 =>
    if dest.isSome then .error 1
    else let f := freeWords 4 s; .ok (setSlot f.2 dst (some (withAttr s (bytesOf f.1))))
  | 2 =>
    match dest, from' with
    | none, some v =>
      if !bitOf v.uses 3 then .error 2
      else match kvBytes s 5 with
        | none => .error 4
        | some b => match keyUnwrap (aesKeys v.key) b with
          | none => .error 3
          | some key => .ok (setSlot s dst (some (withAttr s key)))
    | _, _ => .error 1
  | 3 =>
    match dest, from' with
    | none, some v =>
      if !bitOf v.uses 4 then .error 2
      else match kvBytes s 8 with
        | none => .error 4
        | some b => .ok (setSlot s dst (some (withAttr s (hmac sha256 v.key b))))
    | _, _ => .error 1
  | 4 =>
    match dest with
    | none => .error 1
    | some v => .ok (forgetKey (setSlot s dst (some (withAttr s v.key))) dst)
  | 5 => .ok (forgetKey (setSlot s dst none) dst)
  | _ => .ok s

/-- The words at `WAD_KVADDR` that a command reads (R306, R475). -/
def kvRead (s : State) (cmd : Nat) : State :=
  if cmd = 2 then unitRead s 0 (baseOf s 0 bWad rWadKvaddrHi) 5
  else if cmd = 3 then unitRead s 0 (baseOf s 0 bWad rWadKvaddrHi) 8 else s

/-- A vault command: its fields are stored, its result in `ERR`, and source 0x304 raised when it completes (R475, R483). -/
def kvRun (s : State) (cmd src dst : Nat) : State :=
  let put (s : State) (err : Nat) := setReg s 0 bWad rWadKvcmd (cmd * 2 ^ 27 + err * 2 ^ 24 + src * 2 ^ 12 + dst)
  if cmd = 0 ∨ 6 ≤ cmd then put s (getF s 0 bWad rWadKvcmd 26 24)
  else
    let s := kvRead s cmd
    match kvEffect s cmd src dst with
    | .error e => evRaise (put s e) 0 0x304
    | .ok t => evRaise (put t 0) 0 0x304

/-- `WAD_KVCMD` with GO (R475, R476). -/
def kvCommand (s : State) (cmd src dst : Nat) : State :=
  startCmd s 0 bWad rWadKvcmd 0 (fun s => setReg s 0 bWad rWadKvcmd (cmd * 2 ^ 27 + getF s 0 bWad rWadKvcmd 26 24 * 2 ^ 24 + src * 2 ^ 12 + dst))
    fun s => kvRun s cmd src dst

/-- A vault command while the WAD block of die 0 acts. -/
def kvDo (s : State) (cmd src dst : Nat) : Out := regDo s 0 bWad rWadKvcmd (dieLive s 0 && blkEn s 0 bWad) (kvCommand s cmd src dst)

/-- KV_GEN (R475). -/
def execKvGen (src dst : BitVec 12) (s : State) : Out := kvDo s 1 src.toNat dst.toNat
/-- KV_IMPORT (R475). -/
def execKvImport (src dst : BitVec 12) (s : State) : Out := kvDo s 2 src.toNat dst.toNat
/-- KV_DERIVE (R475). -/
def execKvDerive (src dst : BitVec 12) (s : State) : Out := kvDo s 3 src.toNat dst.toNat
/-- KV_SETATTR (R475, R476). -/
def execKvSetattr (src dst : BitVec 12) (s : State) : Out := kvDo s 4 src.toNat dst.toNat
/-- KV_ZERO (R475, R476). -/
def execKvZero (src dst : BitVec 12) (s : State) : Out := kvDo s 5 src.toNat dst.toNat

/-- FRL_PTTCMD with GO: the cached copies of a transform table entry go (R477, R483). -/
def pttCommand (s : State) (d p : Nat) : State :=
  let fields (s : State) : State := setF s d bFrl rFrlPttcmd 9 0 p
  startCmd s d bFrl rFrlPttcmd 0 fields fun s => ptInvalidate (fields s) d .ptt p

/-- FRL_PTTCMD (R477). -/
def execFrlPttcmd (die : Nat) (part : Nat) (s : State) : Out :=
  regDo s die bFrl rFrlPttcmd (dieLive s die && blkEn s die bFrl) (pttCommand s die part)

end Sys2Proof.Machine
end

