-- ==== Sys2Proof/Machine/Micro.lean ====
section
/-! DEFINITION. The sequencers of the channel engines: contexts and events, microwords, micro-traps, and the loading of the stores
(spec 14: R424 to R447). -/

namespace Sys2Proof.Machine

def getCtx (s : State) (k c : Nat) : MCtx := tget (fun _ => MCtx.init) (getSeq s k).ctxs c
def modCtx (s : State) (k c : Nat) (f : MCtx → MCtx) : State :=
  modSeq s k fun q => { q with ctxs := tmod (fun _ => MCtx.init) q.ctxs c f }
def vReg (x : MCtx) (j : Nat) : Word := tget (fun _ => 0) x.v j

/-! ### Events (R427, R428) -/

/-- A context starts on an event of a kind (R427). -/
def startCtx (s : State) (k c kind : Nat) (v0 v1 : Word) : State :=
  modCtx s k c fun x =>
    { x with busy := true, upc := 8 * kind, sp := 0, stk := [], v := tset (fun _ => 0) (tset (fun _ => 0) [] 0 v0) 1 v1, xid := 0,
             xctx := 0, asleep := false, trap := false, kind := kind }

/-- CONTEXT_TAKE_EVENT: an idle context, the lowest-numbered (DESIGN CHOICE), takes the oldest event or the oldest flit, in turn
where there are both (R427). -/
def takeEvent (s : State) (k : Nat) : State :=
  match firstBelow 16 fun c => !(getCtx s k c).busy with
  | none => s
  | some c =>
    let e := getEng s k
    match e.evq, e.flitq with
    | [], [] => s
    | (kind, v0, v1) :: t, fs =>
      if fs ≠ [] ∧ e.tookEvent then
        match fs with
        | [] => s
        | f :: ft =>
          startCtx (modEng s k fun e => { e with flitq := ft, tookEvent := false }) k c (b2n (origKind f == 1)) f.tag f.value
      else startCtx (modEng s k fun e => { e with evq := t, tookEvent := true }) k c kind v0 v1
    | [], f :: ft => startCtx (modEng s k fun e => { e with flitq := ft, tookEvent := false }) k c (b2n (origKind f == 1)) f.tag f.value

/-- CONTEXT_TAKE_EVENT (R427). -/
def execContextTakeEvent (die eng : Nat) (s : State) : Out :=
  unitDo s die (engUp s (engKey die eng)) (strmSettle (takeEvent s (engKey die eng)))

/-! ### Words of the stores (R432, R433) -/

/-- The microword and nano-word at a context's micro address. -/
structure UWord where
  micro : Nat
  nano : Nat
  deriving DecidableEq, Repr

namespace UWord
def seq (w : UWord) : Nat := fld w.micro 23 22
def nanoAddr (w : UWord) : Nat := fld w.micro 21 13
def yld (w : UWord) : Bool := bitOf w.micro 12
def ba (w : UWord) : Nat := fld w.micro 11 0
def cyc (w : UWord) : Nat := fld w.nano 159 158
def ncond (w : UWord) : Nat := fld w.nano 157 155
/-- The selector of condition `i`. -/
def csel (w : UWord) (i : Nat) : Nat := fld w.nano (136 + 6 * i) (131 + 6 * i)
def alu (w : UWord) : Nat := fld w.nano 130 126
def a (w : UWord) : Nat := fld w.nano 125 120
def b (w : UWord) : Nat := fld w.nano 119 114
def d (w : UWord) : Nat := fld w.nano 113 108
def mem (w : UWord) : Nat := fld w.nano 107 104
def io (w : UWord) : Nat := fld w.nano 103 100
def ctl (w : UWord) : Nat := fld w.nano 99 96
def fen (w : UWord) : Bool := bitOf w.nano 95
def fsrc (w : UWord) : Nat := fld w.nano 94 89
def fpos (w : UWord) : Nat := fld w.nano 88 83
def flen (w : UWord) : Nat := fld w.nano 82 77
def fdest (w : UWord) : Nat := fld w.nano 76 71
def lit (w : UWord) : Nat := fld w.nano 63 0
end UWord

/-- The words that a context's microword names. -/
def uWord (s : State) (k c : Nat) : UWord :=
  let m := tget (fun _ => 0) s.ustores.emicro (getCtx s k c).upc
  ⟨m, tget (fun _ => 0) s.ustores.enano (fld m 21 13)⟩

/-! ### Operands (R434) -/

def srcOk (n : Nat) : Bool := decide (n ≤ 0x25) || (decide (0x28 ≤ n) && decide (n ≤ 0x2F))
def destOk (trap : Bool) (n : Nat) : Bool :=
  decide (n ≤ 0x1F) || n == 0x21 || n == 0x24 || n == 0x25 ||
    (trap && (n == 0x28 || (decide (0x2B ≤ n) && decide (n ≤ 0x2F))))

/-- A source operand (R434). -/
def uSrc (s : State) (k c : Nat) (w : UWord) (n : Nat) : Word :=
  let x := getCtx s k c
  if n ≤ 0xF then vReg x n
  else if n ≤ 0x1F then tget (fun _ => 0) (getSeq s k).g (n - 0x10)
  else if n = 0x20 then w64 w.lit
  else if n = 0x22 then x.mdr
  else if n = 0x23 then timeOf s (k / 16)
  else if n = 0x24 then w64 x.xid
  else if n = 0x25 then x.xctx
  else if n = 0x28 then w64 x.mtpc
  else if n = 0x29 then w64 x.mtcause
  else if n = 0x2A then x.mtdata
  else if 0x2B ≤ n ∧ n ≤ 0x2E then tget (fun _ => 0) x.stk (n - 0x2B)
  else if n = 0x2F then w64 x.sp
  else 0

/-- A destination written; `XID` is written by its own operation (R434). -/
def uDest (s : State) (k c n : Nat) (v : Word) : State :=
  if n ≤ 0xF then modCtx s k c fun x => { x with v := tset (fun _ => 0) x.v n v }
  else if n ≤ 0x1F then modSeq s k fun q => { q with g := tset (fun _ => 0) q.g (n - 0x10) v }
  else if n = 0x25 then modCtx s k c fun x => { x with xctx := v }
  else if n = 0x28 then modCtx s k c fun x => { x with mtpc := v.toNat % 4096 }
  else if 0x2B ≤ n ∧ n ≤ 0x2E then modCtx s k c fun x => { x with stk := tset (fun _ => 0) x.stk (n - 0x2B) (w64 (wfld v 11 0)) }
  else if n = 0x2F then modCtx s k c fun x => { x with sp := min 4 v.toNat }
  else s

/-- The microword reads `MDR`. -/
def readsMdr (w : UWord) : Bool := w.a == 0x22 || w.b == 0x22 || (w.fen && w.fsrc == 0x22)

/-! ### The ALU, the field unit and the conditions (R433, R435, R439) -/

/-- Bytes of a word reversed, and bytes of each half. -/
def revBytes (n v : Nat) : Nat := leNat ((leBytes n v).reverse)

/-- The ALU: its result and its carry or borrow (R435, R439). -/
def uAlu (op : Nat) (a b : Word) : Word × Bool :=
  match op with
  | 0 => (a, false)
  | 1 => (a + b, decide (2 ^ 64 ≤ a.toNat + b.toNat))
  | 2 => (a - b, decide (a.toNat < b.toNat))
  | 3 => (a &&& b, false)
  | 4 => (a ||| b, false)
  | 5 => (a ^^^ b, false)
  | 6 => (a <<< (b.toNat % 64), false)
  | 7 => (a >>> (b.toNat % 64), false)
  | 8 => (w64 (revBytes 8 a.toNat), false)
  | 9 => (w64 (revBytes 4 (wfld a 63 32) * 2 ^ 32 + revBytes 4 (wfld a 31 0)), false)
  | _ => (w64 ((wfld a 31 0 + 2 ^ 32 - wfld b 31 0) % 2 ^ 32), false)

/-- The field unit's value (R433). -/
def uField (v : Word) (pos len : Nat) : Word := w64 (v.toNat / 2 ^ pos % 2 ^ (len + 1))

def cselOk (n : Nat) : Bool := decide (n ≤ 9) || (decide (0x10 ≤ n) && decide (n ≤ 0x2F))

/-- A condition (R439). -/
def uCond (s : State) (k c n : Nat) (r : Word) (carry : Bool) : Bool :=
  let x := getCtx s k c
  if n = 1 then true
  else if n = 2 then r == 0
  else if n = 3 then wbit r 63
  else if n = 4 then carry
  else if n = 5 then x.pend.isSome
  else if n = 6 then x.expired
  else if n = 7 then headerCredit s (k / 16)
  else if n = 8 then pfail s (k / 16)
  else if n = 9 then x.trap
  else if 0x10 ≤ n then wbit r (n - 0x10)
  else false

/-- c of R438. -/
def uConds (s : State) (k c : Nat) (w : UWord) (r : Word) (carry : Bool) : Nat :=
  ((List.range w.ncond).map fun i => b2n (uCond s k c (w.csel i) r carry) * 2 ^ i).sum

/-! ### Micro-traps (R440, R441) -/

/-- An invalid code of R434 to R439. -/
def illNano (x : MCtx) (w : UWord) : Bool :=
  !(srcOk w.a && srcOk w.b && destOk x.trap w.d) || (w.fen && !(srcOk w.fsrc && destOk x.trap w.fdest))
    || decide (0xA < w.alu) || decide (0xA < w.mem) || decide (4 < w.io) || decide (3 < w.ctl) || decide (4 < w.ncond)
    || ((List.range w.ncond).any fun i => !cselOk (w.csel i))
    || ((w.mem == 7 || w.mem == 8) && w.cyc == 0)
    || (w.ctl == 3 && !x.trap) || (x.trap && (w.seq == 2 || w.seq == 3))

/-- The context in which a translating memory operation runs (R436, R504). -/
def uCtx (s : State) (k c : Nat) : Ctx :=
  let x := getCtx s k c
  let w := getWork s x.xid
  ⟨k / 16, wfld x.xctx 25 16, wfld x.xctx 5 0, !(x.xid != 0 && w.sup && decide (1 ≤ w.pl)), true, x.xid != 0 && w.sup && w.pl == 2, 1 + k % 16⟩

/-- The micro-trap that a microword takes: cause and data; the first in this order (DEDUCED). -/
def uTrap (s : State) (k c : Nat) (w : UWord) : Option (Nat × Word) :=
  let x := getCtx s k c
  let a := wfld (uSrc s k c w w.a) 48 0
  if illNano x w then some (6, w64 (w.nanoAddr * 2 ^ 32 + w.micro))
  else if w.seq = 2 ∧ 4 ≤ x.sp then some (1, 0)
  else if w.seq = 3 ∧ x.sp = 0 then some (2, 0)
  else if readsMdr w ∧ x.mdrBad.isSome then x.mdrBad
  else if w.mem = 3 ∨ w.mem = 4 then
    match translate s (uCtx s k c) (if w.mem = 3 then .read else .write) a with
    | .error e => some (3, w64 (a + b2n (e == tProt) * 2 ^ 63))
    | .ok _ => none
  else none

/-- MICRO_TRAP: a context enters trap mode, or a double micro-trap stops its engine (R441). -/
def microTrap (s : State) (k c cause : Nat) (data : Word) : State :=
  let x := getCtx s k c
  if x.trap then
    report (modEng s k fun e => { e with out := true }) (k / 16) (bCen (k % 16)) 0xFF 0x0502 cContained 0x07 0 0
      (w64 (c * 2 ^ 16 + x.mtcause * 2 ^ 8 + cause))
  else
    count (modCtx s k c fun x =>
      { x with trap := true, mtpc := x.upc, mtcause := cause, mtdata := data, mdrBad := if cause = 4 then none else x.mdrBad,
               upc := 0xF00 + 16 * cause }) (k / 16) (bCen (k % 16)) rCenMtcnt

/-! ### Stalls (R425, R428, R429, R443) -/

/-- What the microword writes to `XID`, if it does (R434). -/
def xidWrite (s : State) (k c : Nat) (w : UWord) : Option Nat :=
  let f := uField (uSrc s k c w w.fsrc) w.fpos w.flen
  let r := (uAlu w.alu (uSrc s k c w w.a) (uSrc s k c w w.b)).1
  if w.fen ∧ w.fdest = 0x24 then some (wfld f 23 0) else if w.d = 0x24 then some (wfld r 23 0) else none

/-- A context other than `c` holds an index, or waits for it ahead of `c`; a holder that writes its own index again does not wait. -/
def xidBusy (s : State) (k c i : Nat) : Bool :=
  i != 0 && (getCtx s k c).xid != i && (((getSeq s k).ctxs.any fun p => p.1 != c && p.2.busy && p.2.xid == i)
    || ((getSeq s k).xwait.find? fun p => p.2 == i).any fun p => p.1 != c)

/-- Entries of the event queue that the microword's operations reserve (R428). -/
def needsEvent (w : UWord) : Nat := b2n (w.io == 1 || w.io == 3) + b2n (w.mem == 8)
/-- The microword issues an operation whose result goes to `MDR`. -/
def writesMdr (w : UWord) : Bool := w.mem == 1 || w.mem == 3 || w.mem == 5 || w.mem == 6 || w.mem == 8 || w.mem == 0xA

/-- A context stalls at its microword. -/
def stalled (s : State) (k c : Nat) : Bool :=
  let x := getCtx s k c
  let w := uWord s k c
  ((getSeq s k).rewrite.any fun r => r.1 == c)
    || ((uTrap s k c w).isNone || (readsMdr w && x.pend.isSome && !illNano x w)) &&
      ((x.pend.isSome && (readsMdr w || writesMdr w))
        || ((xidWrite s k c w).any fun i => xidBusy s k c i)
        || (needsEvent w != 0 && decide (256 < evUsed s k + needsEvent w)))

/-- A context holds an event and neither waits nor stalls (R425). -/
def ctxReady (s : State) (k c : Nat) : Bool :=
  let x := getCtx s k c
  x.busy && !x.asleep && !stalled s k c

/-- The contexts in the order in which the sequencer comes to them: the one that runs, then in round robin after it (R425). -/
def ctxOrder (s : State) (k : Nat) : List Nat :=
  let q := getSeq s k
  (if q.running then [q.cur] else []) ++ (List.range 16).map fun j => (q.cur + 1 + j) % 16

/-- The context that runs next (R425). -/
def nextCtx (s : State) (k : Nat) : Option Nat := (ctxOrder s k).find? (ctxReady s k)

/-- The index that a context is about to write and has to wait for: its microword could run but for that (R429). -/
def wantsXid (s : State) (k c : Nat) : Option Nat :=
  let x := getCtx s k c
  let w := uWord s k c
  if x.busy && !x.asleep && !((getSeq s k).rewrite.any fun r => r.1 == c) && (uTrap s k c w).isNone
      && !(x.pend.isSome && (readsMdr w || writesMdr w)) then (xidWrite s k c w).filter (xidBusy s k c)
  else none

/-- The contexts that the sequencer comes to before it finds one that is ready: each that has to wait for the index that it writes joins
the list, in that order (R425, R429). -/
def noteWaits (s : State) (k : Nat) : State :=
  ((ctxOrder s k).takeWhile fun c => !ctxReady s k c).foldl (fun s c =>
    if (getSeq s k).xwait.any fun p => p.1 == c then s
    else (wantsXid s k c).elim s fun i => modSeq s k fun q => { q with xwait := q.xwait ++ [(c, i)] }) s

/-! ### One microword (R436 to R438) -/

/-- A record in plain form from V8 to V15 (R381, R436). -/
def planRec (s : State) (k c : Nat) : JRec :=
  let v := fun j => vReg (getCtx s k c) j
  let t := wfld (v 8) 63 60
  { blankRec t (v 9) with
    part := if t = 2 then 0 else wfld (v 10) 63 54, asid := if t = 2 then 0 else wfld (v 10) 53 48,
    kind := if t = 2 then 0 else wfld (v 10) 47 44, rdv := t != 2 && wbit (v 10) 43, nlb := wfld (v 10) 15 0,
    state := if t = 2 then wfld (v 10) 63 60 else 0, reason := if t = 2 then wfld (v 10) 59 48 else 0, user := v 11,
    tgt := v 12, slba := v 13, psrc := wfld (v 14) 48 0, index := (getCtx s k c).xid, eng := some k }

def setPend (s : State) (k c : Nat) (p : MPend) : State := modCtx s k c fun x => { x with pend := some p, mdrBad := none }

/-- The memory operation of a microword (R436). -/
def uMem (s : State) (k c : Nat) (w : UWord) : State :=
  let d := k / 16
  let av := uSrc s k c w w.a
  let a := wfld av 48 0
  let b := uSrc s k c w w.b
  match w.mem with
  | 1 => setPend (unitRead s d a 1) k c (.read a a)
  | 2 => store s d a b
  | 3 => match translate s (uCtx s k c) .read a with
    | .ok pa => setPend (unitRead s d pa 1) k c (.read pa a)
    | .error _ => s
  | 4 => match translate s (uCtx s k c) .write a with
    | .ok pa => store s d pa b
    | .error _ => s
  | 5 => if isPoisoned s a then setPend s k c (.read a a) else let r := farAdd s d a b; setPend r.2 k c (.value r.1)
  | 6 =>
    if isPoisoned s a then setPend s k c (.read a a)
    else if (peek s a).toNat < b.toNat then setPend (farAdd s d a 1).2 k c (.value 1) else setPend s k c (.value 0)
  | 7 => ledgerPort s (wfld av 23 0) b
  | 8 =>
    if ldevUp s d then setPend (jAppend s d (planRec s k c)) k c (.value (w64 (getChan s d).jnext))
    else let f := takeFree s; setPend f.2 k c (.value f.1)
  | 9 => match region s a with
    | .device e o => give s (.devWrite e o [b])
    | _ => s
  | 0xA =>
    let f := takeFree (match region s a with
      | .device e o => give s (.devRead e o 1)
      | _ => s)
    setPend f.2 k c (.value f.1)
  | _ => s

/-- The interface operation of a microword (R436). -/
def uIo (s : State) (k c : Nat) (w : UWord) : State :=
  let a := uSrc s k c w w.a
  let b := uSrc s k c w w.b
  match w.io with
  | 1 =>
    let s := unitRead s (k / 16) (wfld a 48 0) 4
    modSeq (give s (.stream k (getSeq s k).nextStream (peeks s (wfld a 48 0) 4))) k fun q =>
      { q with streams := q.streams ++ [(q.nextStream, c)], nextStream := q.nextStream + 1 }
  | 2 => inject s (k / 16) (34 + k % 16 / 4) .unit ⟨mkRoute 0 2 (wfld b 6 4) (wfld b 3 0), 1, a, w64 (getCtx s k c).xid⟩
  | 3 => modCtx s k c fun x => { x with timer := some (a, x.xid), expired := false }
  | 4 => evRaise s (k / 16) (wfld a 11 0)
  | _ => s

/-- A context writes `XID`: the index it held is released, and it leaves the list of waiting contexts (R429). -/
def setXid (s : State) (k c i : Nat) : State :=
  modSeq (modCtx s k c fun x => { x with xid := i }) k fun q => { q with xwait := q.xwait.filter fun p => p.1 != c }

/-- Something that the context waits for may still come (R436). -/
def awaits (s : State) (k c : Nat) : Bool :=
  let x := getCtx s k c
  x.timer.isSome || x.pend.isSome || (getSeq s k).streams.any fun p => p.2 == c

/-- The next micro address and stack (R438, R442). -/
def uNext (s : State) (k c : Nat) (w : UWord) (cond : Nat) : State :=
  modCtx s k c fun x =>
    let up := (x.upc + 1) % 4096
    if w.ctl = 3 then { x with trap := false, upc := x.mtpc }
    else
      match w.seq with
      | 0 => { x with upc := up }
      | 1 => { x with upc := w.ba ||| cond }
      | 2 => { x with stk := tset (fun _ => 0) x.stk x.sp (w64 up), sp := x.sp + 1, upc := w.ba ||| cond }
      | _ => { x with sp := x.sp - 1, upc := wfld (tget (fun _ => 0) x.stk (x.sp - 1)) 11 0 ||| cond }

/-- The control operation, and whether the context gives up the sequencer (R425, R436). -/
def uCtl (s : State) (k c : Nat) (w : UWord) : State :=
  let s :=
    match w.ctl with
    | 1 =>
      let t := modCtx (setXid s k c 0) k c fun x => { x with busy := false, trap := false }
      if (getCtx s k c).kind = 9 then modEng t k fun e => { e with rescan := rescanRuns t k } else t
    | 2 => if awaits s k c then modCtx s k c fun x => { x with asleep := true } else s
    | _ => s
  modSeq s k fun q => { q with cur := c, running := !(w.yld || w.ctl == 1 || w.ctl == 2) }

/-- A microword without a micro-trap: sources are read before any destination is written, its operations are issued first, and its
conditions are taken at its end (R434, R437). -/
def uRun (s : State) (k c : Nat) (w : UWord) : State :=
  let alu := uAlu w.alu (uSrc s k c w w.a) (uSrc s k c w w.b)
  let fv := uField (uSrc s k c w w.fsrc) w.fpos w.flen
  let xw := xidWrite s k c w
  let s := uIo (uMem s k c w) k c w
  let cond := uConds s k c w alu.1 alu.2
  let s := uDest s k c w.d alu.1
  let s := if w.fen then uDest s k c w.fdest fv else s
  let s := match xw with
    | some i => setXid s k c i
    | none => s
  uCtl (uNext s k c w cond) k c w

/-- The check of a store word: corrected words are counted and recorded; none where the context stalls (R443). -/
def storeRead (s : State) (k c : Nat) (nano : Bool) (a : Nat) : LineCheck → State × Bool
  | .clean => (s, true)
  | .corrected =>
    (report (count s (k / 16) (bCen (k % 16)) rCenStcecnt) (k / 16) (bCen (k % 16)) 0xFF 0x0501 cCorrected 0x00 0 0 0, true)
  | .uncorrectable => (modSeq s k fun q => { q with rewrite := q.rewrite ++ [(c, nano, a)] }, false)

/-- The translation that a microword needs enters the engine's cache (R424, R503). -/
def uNote (s : State) (k c : Nat) (w : UWord) : State :=
  if (w.mem = 3 ∨ w.mem = 4) ∧ illNano (getCtx s k c) w = false then xlateNote s (uCtx s k c) (wfld (uSrc s k c w w.a) 48 0) else s

/-- One microword of the context that the sequencer runs (R425, R437). -/
def microStep (s : State) (k : Nat) (micro nano : LineCheck) : State :=
  let s := noteWaits s k
  (nextCtx s k).elim s fun c =>
    let s := modSeq s k fun q => { q with cur := c, running := true }
    let w := uWord s k c
    let a := storeRead s k c false (getCtx s k c).upc micro
    if !a.2 then a.1
    else
      let b := storeRead a.1 k c true w.nanoAddr nano
      if !b.2 then b.1
      else
        let s := uNote b.1 k c w
        (uTrap s k c w).elim (uRun s k c w) fun t => microTrap s k c t.1 t.2

/-- MICROWORD (R437). -/
def execMicroword (die eng : Nat) (micro nano : LineCheck) (s : State) : Out :=
  unitDo s die (engUp s (engKey die eng) && s.ustores.on) (microStep s (engKey die eng) micro nano)

/-- LONGRUN: the context that runs takes the micro-trap (R426, R440). -/
def longRun (s : State) (k : Nat) : State :=
  let q := getSeq s k
  if q.running ∧ (getCtx s k q.cur).busy then microTrap s k q.cur 5 0 else s

/-- LONGRUN (R426). -/
def execLongrun (die eng : Nat) (s : State) : Out :=
  unitDo s die (engUp s (engKey die eng) && s.ustores.on) (longRun s (engKey die eng))

/-- MEMORY_READ_COMPLETE: the word arrives in `MDR`, or the read's failure waits there; a sleeping context resumes (R436, R437,
R440). -/
def readComplete (s : State) (k c : Nat) : State :=
  match (getCtx s k c).pend with
  | none => s
  | some (.value v) => modCtx s k c fun x => { x with mdr := v, pend := none, asleep := false }
  | some (.read pa a) =>
    if isPoisoned s pa then
      let f := takeFree s
      modCtx f.2 k c fun x => { x with mdr := f.1, mdrBad := some (4, w64 a), pend := none, asleep := false }
    else modCtx s k c fun x => { x with mdr := peek s pa, pend := none, asleep := false }

/-- MEMORY_READ_COMPLETE (R437). -/
def execMemoryReadComplete (die eng : Nat) (ctx : Fin 16) (s : State) : Out :=
  unitDo s die (engUp s (engKey die eng)) (readComplete s (engKey die eng) ctx)

/-- CONTEXT_TIMER_EXPIRE: a TIMER event with the timer's index; a sleeping context resumes (R427, R436). -/
def timerExpire (s : State) (k c : Nat) : State :=
  match (getCtx s k c).timer with
  | none => s
  | some (t, i) => evPush (modCtx s k c fun x => { x with timer := none, expired := true, asleep := false }) k 5 (w64 i) t

/-- CONTEXT_TIMER_EXPIRE (R436). -/
def execContextTimerExpire (die eng : Nat) (ctx : Fin 16) (s : State) : Out :=
  unitDo s die (engUp s (engKey die eng)) (timerExpire s (engKey die eng) ctx)

/-- STREAM_COMMAND_COMPLETE: the oldest command of a context completes with its status (R427, R436). -/
def streamComplete (s : State) (k c : Nat) (status : Word) : State :=
  match (getSeq s k).streams.find? fun p => p.2 == c with
  | none => s
  | some p =>
    let s := modSeq s k fun q => { q with streams := q.streams.erase p }
    evPush (modCtx s k c fun x => { x with asleep := false }) k 2 (w64 p.1) status

/-- STREAM_COMMAND_COMPLETE (R436). -/
def execStreamCommandComplete (die eng : Nat) (ctx : Fin 16) (status : Word) (s : State) : Out :=
  unitDo s die (engUp s (engKey die eng)) (streamComplete s (engKey die eng) ctx status)

/-! ### Stores (R443 to R446) -/

def shadowBase (s : State) : Nat := baseOf s 0 bChn rChnUshadowHi

/-- A nano-word from its three words (R444). -/
def nanoOf (l : List Word) : Nat := (l.getD 0 0).toNat + (l.getD 1 0).toNat * 2 ^ 64 + wfld (l.getD 2 0) 31 0 * 2 ^ 128

/-- A store from words of the shadow: microwords, or nano-words of three words each (R444). -/
def microStore (l : List Word) : Tab Nat := (l.zipIdx.map fun p => (p.2, wfld p.1 23 0)).filter fun p => p.2 != 0
def nanoStore (l : List Word) : Tab Nat :=
  ((chunks 3 l).zipIdx.map fun p =>
    (p.2, nanoOf p.1)).filter fun p => p.2 != 0

/-- The CRC of a store as it is read back, in the layout of its section (R444, R446). -/
def microCrc (t : Tab Nat) (n : Nat) : Nat := crc32c ((List.range n).flatMap fun a => leBytes 8 (tget (fun _ => 0) t a))
def nanoCrc (t : Tab Nat) (n : Nat) : Nat := crc32c ((List.range n).flatMap fun a => leBytes 24 (tget (fun _ => 0) t a))

/-- Words of a store (R446). -/
def storeSize (n : Nat) : Nat := if n = 0 then 4096 else if n = 1 then 512 else if n = 2 then 1024 else 128

/-- A patch record applied (R445). -/
def patchStore (u : UStores) (r : List Word) : UStores :=
  let a := wfld (r.getD 0 0) 43 32
  let m := wfld (r.getD 1 0) 23 0
  let n := nanoOf (r.drop 1)
  match wfld (r.getD 0 0) 63 62 with
  | 0 => { u with emicro := tset (fun _ => 0) u.emicro a m }
  | 1 => { u with enano := tset (fun _ => 0) u.enano a n }
  | 2 => { u with smicro := tset (fun _ => 0) u.smicro a m }
  | _ => { u with snano := tset (fun _ => 0) u.snano a n }

/-- Every CEN and CLU block of every populated die is disabled (R446). -/
def storesIdle (s : State) : Bool :=
  (List.range (nDies s.part)).all fun d =>
    ((List.range 16).all fun e => !blkEn s d (bCen e)) && ((List.range 32).all fun g => !blkEn s d (bClu g))

/-- The patch records of the shadow (R445). -/
def patchRecs (s : State) : List (List Word) :=
  let b := shadowBase s + 7168
  (List.range (wfld (peek s b) 15 0)).map fun j => peeks s (b + 16 + 4 * j) 4

/-- The words of the shadow that hold an engine store word: of a patched word its last record (R444, R445). -/
def shadowWord (s : State) (nano : Bool) (a : Nat) : List Nat :=
  let b := shadowBase s
  let mine := if getF s 0 bChn rChnUload 29 29 = 1 then
      (patchRecs s).zipIdx.filter fun r => wfld (r.1.getD 0 0) 63 62 == b2n nano && wfld (r.1.getD 0 0) 43 32 == a
    else []
  match mine.getLast? with
  | some r => (List.range (if nano then 3 else 1)).map fun j => b + 7168 + 17 + 4 * r.2 + j
  | none => if nano then (List.range 3).map fun j => b + 4112 + 3 * a + j else [b + 16 + a]

/-- STORE_REWRITE: the loader writes the oldest word that waits from the shadow, and its context goes on; where a word of the shadow cannot
be read the engine leaves service (R443). The stores of every engine hold the same words (log entry 67). -/
def storeRewrite (s : State) (k : Nat) : State :=
  match (getSeq s k).rewrite with
  | [] => s
  | (_, nano, a) :: rest =>
    let l := shadowWord s nano a
    if l.any fun p => isPoisoned s p then engineOut s k 0x0501
    else
      let r := l.foldl (fun s p => unitRead s 0 p 1) s
      let t := modSeq r k fun q => { q with rewrite := rest }
      let w := l.map (peek s)
      let u := if nano then { t.ustores with enano := tset (fun _ => 0) t.ustores.enano a (nanoOf w) }
        else { t.ustores with emicro := tset (fun _ => 0) t.ustores.emicro a (wfld (w.getD 0 0) 23 0) }
      report (count { t with ustores := u } (k / 16) (bCen (k % 16)) rCenStcecnt) (k / 16) (bCen (k % 16)) 0xFF 0x0501 cCorrected 0x00 0 0 0

/-- STORE_REWRITE (R443). -/
def execStoreRewrite (die eng : Nat) (s : State) : Out := unitDo s die (engUp s (engKey die eng)) (storeRewrite s (engKey die eng))

/-- The four stores that the loader writes, and the CRCs that it compares with, by the steps of R446: an error code, or both. What a step
cannot read stops it. -/
def loadStores (s : State) (pat : Bool) : Except Nat (UStores × List Nat) :=
  let b := shadowBase s
  let pb := b + 7168
  let header (a m : Nat) := wfld (peek s a) 63 32 == m && wfld (peek s a) 31 16 == 1
  if !storesIdle s then .error 4
  else if (List.range 16).any fun j => isPoisoned s (b + j) || (pat && isPoisoned s (pb + j)) then .error 3
  else if !header b 0x4D435331 || (pat && !header pb 0x4D435031) then .error 1
  else if pat && (List.range (4 * wfld (peek s pb) 15 0)).any fun j => isPoisoned s (pb + 16 + j) then .error 3
  else if pat && (patchRecs s).any fun r => decide (storeSize (wfld (r.getD 0 0) 63 62) ≤ wfld (r.getD 0 0) 43 32) then .error 2
  else if (List.range 7040).any fun j => isPoisoned s (b + 16 + j) then .error 3
  else
    let u : UStores := ⟨microStore (peeks s (b + 16) 4096), nanoStore (peeks s (b + 4112) 1536), microStore (peeks s (b + 5648) 1024),
      nanoStore (peeks s (b + 6672) 384), true⟩
    let u := if pat then (patchRecs s).foldl patchStore u else u
    let c := if pat then pb else b
    .ok (u, [wfld (peek s (c + 1)) 63 32, wfld (peek s (c + 1)) 31 0, wfld (peek s (c + 2)) 63 32, wfld (peek s (c + 2)) 31 0])

/-- The CRCs of the four stores as read back. -/
def storeCrcs (u : UStores) : List Nat := [microCrc u.emicro 4096, nanoCrc u.enano 512, microCrc u.smicro 1024, nanoCrc u.snano 128]

/-- The store loader runs (R446, R451). -/
def uload (s : State) (pat : Bool) : State :=
  let put (s : State) (err : Nat) := setReg s 0 bChn rChnUload (b2n pat * 2 ^ 29 + err * 2 ^ 26)
  match loadStores s pat with
  | .error e => { put s e with ustores := { s.ustores with on := s.ustores.on && e == 4 } }
  | .ok (u, want) =>
    let got := storeCrcs u
    let s := got.zipIdx.foldl (fun s p => setReg s 0 bChn (rChnUcrc + p.2) p.1) s
    if got = want then { put s 0 with ustores := u } else { put s 5 with ustores := { u with on := false } }

/-- `CHN_ULOAD` with GO (R446, R566). -/
def uloadGo (s : State) (pat : Bool) : State :=
  startCmd s 0 bChn rChnUload 0 (fun s => setF s 0 bChn rChnUload 29 29 (b2n pat)) fun s => uload s pat
/-- CHN_ULOAD (R446). -/
def execChnUload (pat : Bool) (s : State) : Out := regDo s 0 bChn rChnUload (dieLive s 0) (uloadGo s pat)

end Sys2Proof.Machine
end

