-- ==== Sys2Proof/Machine/Luff.lean ====
section
/-! DEFINITION. The luff detector, and inbound exchanges that wait for a frame (spec 05: R171, R179 to R181). -/

namespace Sys2Proof.Machine

/-! ### What a partition holds (R179, R181) -/

/-- Every spar of the dies that have not been withdrawn, and every PE of a spar (R542). -/
def allSpars (s : State) : List Nat := (List.range (32 * nDies s.part)).filter fun g => !(getDie s (g / 32)).withdrawn
def sparPes (g : Nat) : List Nat := (List.range 9).map fun p => peKey g p

def keyOwner (k : Nat) : Nat := tagPart (w64 (k * 32))
/-- The partition of an output. -/
def outPart : Output → Nat
  | .flit f => tagPart f.tag
  | .fetch p _ _ => p
  | .post p _ _ _ _ _ _ => p

/-- Lines of the matching spill area that hold an entry of the partition (R110). -/
def spilledLines (s : State) (p : Nat) : Nat :=
  if ptValid s 0 .pmt p then
    ((List.range (2 ^ pmtLog2E s 0 p)).filter fun j => wbit (peek s (pmtMsa s 0 p + 16 * j)) 63).length
  else 0

/-- Partial matches of a partition: in matching stores, eviction buffers and the spill area. -/
def partialMatches (s : State) (p : Nat) : Nat :=
  ((allSpars s).map fun g =>
    ((getSpar s g).store.filter fun c => (c.2.map fun m => keyOwner m.key == p).getD false).length
      + ((getSpar s g).evb.filter fun m => keyOwner m.key == p).length).sum + spilledLines s p

/-- Ready-list entries of a partition. -/
def readyEntries (s : State) (p : Nat) : Nat := ((allSpars s).map fun g => ((getSpar s g).rl.filter fun i => i.part == p).length).sum
/-- Counted spill-ring slots of a partition (R167). -/
def countedSlots (s : State) (p : Nat) : Nat := ((allSpars s).map fun g => tget (fun _ => 0) (getSpar s g).slots p).sum
/-- Gate waiters of a partition (R172). -/
def gateWaitersAll (s : State) (p : Nat) : Nat :=
  if pptGv s 0 p then ((List.range (2 ^ pptLog2G s 0 p)).map fun j => gateWaiters s 0 p j).sum else 0

/-- The `W_` flags of a luff record, `W_IQ` first (R181). DESIGN CHOICE (log 149): a flit that stands in the matching pipeline, or comes back
from the miss buffer, counts under `W_MATCH`. -/
def pendFlags (s : State) (p : Nat) : List Bool :=
  let ss := (allSpars s).map (getSpar s)
  [ ss.any (fun x => x.divert.contains p || x.iq.any fun q => tagPart q.flit.tag == p),
    decide (0 < partialMatches s p)
      || ss.any (fun x => (x.miss ++ x.reentry ++ x.pipe.toList).any fun f => tagPart f.tag == p),
    decide (0 < countedSlots s p),
    decide (0 < readyEntries s p),
    decide (0 < gateWaitersAll s p),
    (allSpars s).any (fun g => (sparPes g).any fun k => ((getPe s k).held ++ (getPe s k).out).any fun o => outPart o == p),
    ptValid s 0 .pst p && pstIv s 0 p && (List.range (2 ^ pstLog2I s 0 p)).any (fun i =>
      peek s (itemRing s 0 p i) != peek s (itemRing s 0 p i + 1)),
    (List.range (nDies s.part)).any (fun d => !(getDie s d).withdrawn && (getChan s d).inbound.any fun b => entPart s b.index == p) ]

/-- An exchange-issue flit of the partition. -/
def issueOf (p : Nat) (f : Flit) : Bool := flitCls f == 2 && origKind f == 0 && tagPart f.tag == p

/-- An exchange-issue flit of the partition has left its PE and has not come to an engine: it lies in an output buffer, in the mesh, at a link
or at an engine's ingress. -/
def issueMoves (s : State) (p : Nat) : Bool :=
  (allSpars s).any (fun g => (sparPes g).any fun k => (getPe s k).out.any fun o => match o with
      | .flit f => issueOf p f
      | _ => false)
    || s.dies.any fun e =>
      e.2.routers.any (fun r => (r.2.q ++ r.2.src).any fun q => q.2.any (issueOf p))
        || e.2.links.any (fun l => l.2.tx.any (fun q => q.2.any fun f => issueOf p f.1) || l.2.rx.any fun q => q.2.any (issueOf p))
        || e.2.engIn.any fun q => q.2.any (issueOf p)

/-- An issue of the partition lies in an engine's intake queue or in its intake spill ring (R430). -/
def issueWaits (s : State) (p k : Nat) : Bool :=
  (getEng s k).intake.any (fun f => tagPart f.tag == p && origKind f == 0)
    || (List.range (inUsed s k)).any fun j =>
        let a := inSlot s k ((getEng s k).ringHead + j)
        !wbit (peek s (a + 2)) 1 && tagPart (peek s a) == p

/-- A reply of a fetch agent has not arrived: it waits at its agent, or lies in the mesh, at a link or at its spar's port (R179). An ESCAPE
changes its route alone (R118). -/
def replyMoves (s : State) (r : Flit) : Bool :=
  let same (f : Flit) : Bool := f.tag == r.tag && f.value == r.value && f.kind == r.kind
  s.spars.any (fun g => g.2.replies.any same || g.2.arr.any same) || s.dies.any fun e =>
    e.2.routers.any (fun x => (x.2.q ++ x.2.src).any fun q => q.2.any same)
      || e.2.links.any fun l => l.2.tx.any (fun q => q.2.any fun f => same f.1) || l.2.rx.any (fun q => q.2.any same) || l.2.esc.any same

/-- A fetch of the partition has been released, and a reply of it has not arrived: the request waits in a PE's output buffer or at its agent,
or a reply is on its way (R161, R179; DEDUCED: log 129). -/
def fetchOpen (s : State) (p : Nat) : Bool :=
  (allSpars s).any (fun g => (getSpar s g).fetches.any (fun j => j.part == p) || (sparPes g).any fun k => (getPe s k).out.any fun o =>
      match o with
      | .fetch q _ _ => q == p
      | _ => false)
    || s.fetchMoves.any fun f => tagPart f.tag == p && replyMoves s f

/-- An exchange issued by the partition is not yet terminal, or a fetch reply is outstanding (R179). -/
def openNow (s : State) (p : Nat) : Bool :=
  (allLive s).any (fun i => entPart s i == p && entKind s i != xkRecv && !isTerminal (entState s i))
    || issueMoves s p || (allEngs s).any (issueWaits s p) || fetchOpen s p

/-! ### The detector (R179 to R181) -/

def getLuff (s : State) (p : Nat) : Luff := tget (fun _ => Luff.init) s.luffs p
def setLuff (s : State) (p : Nat) (l : Luff) : State := { s with luffs := tset (fun _ => Luff.init) s.luffs p l }

/-- Every summary of an interval reaches the detector: each die that is not withdrawn acts, with the SCH block of its gate unit and the COH
block whose messages carry summaries (R179, R180, R542). DEDUCED (log 129): a unit that does not act sends none. -/
def luffComplete (s : State) : Bool :=
  (List.range (nDies s.part)).all fun d => (getDie s d).withdrawn || (dieLive s d && blkEn s d bSch && blkEn s d bCoh)

/-- The summaries of the interval that has ended reach the detector; an interval whose summaries are incomplete counts as FIRED (R179,
R180). -/
def luffSummary (s : State) (p : Nat) : State :=
  let h := getHw s p
  setLuff s p { getLuff s p with
    fired := h.fired || !luffComplete s, pend := (pendFlags s p).any id, opened := h.opened || openNow s p, lastFire := h.lastFire,
    due := true }

/-- A new interval begins for a partition (R179). -/
def newInterval (s : State) (p : Nat) : State := let now := openNow s p; modHw s p fun h => { h with fired := false, opened := now }

/-- The partition's `PSTATE` as the detector reads it is LIVE; a poisoned word is abandoned (R306, R326, R498). -/
def luffLive (s : State) (p : Nat) : Bool × State :=
  let r := readClean s 0 (ptAddr s 0 .pxt p + 7) 1
  (r.1 && pxtPstate r.2 p == 1, r.2)

/-- The partitions whose `LUFFW` is not 0 (R156). -/
def luffParts (s : State) : List Nat := (List.range 1024).filter fun p => ptValid s 0 .ppt p && pptLuffw s 0 p != 0

/-- One partition's part in the end of an interval: the detector watches it while `LUFFW` is not 0 and `PSTATE` is LIVE (R156, R179, R180,
R498). -/
def luffPart (s : State) (p : Nat) : State :=
  let r := luffLive (ptFill s 0 .ppt p) p
  if r.1 then luffSummary r.2 p else r.2

/-- Every watched partition's summary, and the start of the next interval for every partition; replies that have arrived are forgotten. -/
def luffInterval (s : State) : State :=
  let s := (luffParts s).foldl luffPart s
  let s := (s.hw.map (·.1)).foldl newInterval s
  { s with fetchMoves := s.fetchMoves.filter (replyMoves s) }

/-- LUFF_INTERVAL_END: TIMEBASE has reached a multiple of 1,000 (R179). -/
def execLuffIntervalEnd (s : State) : Out := .next (if s.fatal then s else luffInterval s)

/-- The home spars of a partition (R87). -/
def homeBlock (s : State) (p : Nat) : List Nat :=
  if ptValid s 0 .pmt p then (List.range (2 ^ pmtLog2H s 0 p)).map fun i => pmtHome s 0 p + i else []

/-- A luff record (R181), whose flags and counts are sampled as the report is written (DESIGN CHOICE: log 129); the pool is empty where `falloc` would find no handle (R154). -/
def luffWords (s : State) (p : Nat) (l : Luff) : List Word :=
  let sat (n : Nat) := min n (2 ^ 32 - 1)
  let flags := ((pendFlags s p).zipIdx.map fun b => b2n b.1 * 2 ^ (39 - b.2)).sum
  let srfull := (homeBlock s p).any fun g => (getSpar s g).holds != []
  let empty := (getHw s p).free == [] && (getHw s p).quar == []
  [w64 (p * 2 ^ 54 + b2n (admissionClosed s 0 p) * 2 ^ 53 + b2n srfull * 2 ^ 52 + b2n empty * 2 ^ 51 + flags
      + pptLuffw s 0 p),
    timeOf s 0, l.lastFire, w64 (sat (countedSlots s p) * 2 ^ 32 + sat (partialMatches s p)),
    w64 (sat (readyEntries s p) * 2 ^ 32 + sat (gateWaitersAll s p)), w64 (wfld (peek s (ptAddr s 0 .pxt p + 6)) 31 0), 0, 0]

/-- A report: record or drop, event, and count (R181). `SCH_LUFFWPTR` advances modulo 2^32, DESIGN CHOICE (log 129): R181 lets it advance
with every report, and R188's saturation would stop the ring. -/
def luffReport (s : State) (p : Nat) (l : Luff) : State :=
  let k := getReg s 0 bSch rSchLuffwptr
  let a := baseOf s 0 bSch rSchLuffbaseHi + 8 * (k % 256)
  let ws := luffWords s p l
  let s := (readClean s 0 a 1).2
  let s := if peek s a = 0 ∧ isPoisoned s a = false then store (stores s 0 (a + 1) (ws.drop 1)) 0 a (ws.headD 0) else count s 0 bSch rSchLuffdrop
  let s := setReg s 0 bSch rSchLuffwptr ((k + 1) % 2 ^ 32)
  pptCount (evRaise s 0 0x102) 0 p 5

/-- The run count and armed bit after an interval, from its flags (R180). -/
def luffCount (l : Luff) : Luff :=
  if l.fired then { l with run := 0, armed := true, due := false }
  else if l.pend && !l.opened then { l with run := l.run + 1, due := false } else { l with run := 0, due := false }

/-- Run count, armed bit and report of one partition for the interval that has ended (R180). -/
def luffJudge (s : State) (p : Nat) : State :=
  if !(getLuff s p).due then s
  else
    let r := if ptValid s 0 .ppt p && pptLuffw s 0 p != 0 then luffLive s p else (false, s)
    let s := r.2
    if !r.1 then setLuff s p { getLuff s p with due := false }
    else
    let l := luffCount (getLuff s p)
    if l.armed ∧ l.run = pptLuffw s 0 p then luffReport (setLuff s p { l with armed := false }) p l else setLuff s p l

/-- LUFF_EVALUATE: the detector evaluates an interval for one partition (R180; DESIGN CHOICE, log 129: the command names it). -/
def execLuffEvaluate (part : Nat) (s : State) : Out := schDo s 0 (luffJudge s part)

/-! ### Inbound exchanges (R171) -/

/-- INBOUND_ALLOC_RETRY: the allocation of a waiting inbound exchange is tried again; then those behind it complete (R409). -/
def inboundRetry (s : State) (d k : Nat) : State :=
  match (getChan s d).inbound[k]? with
  | none => s
  | some b => rxComplete (inboundTry s d b) b.session

/-- INBOUND_ALLOC_RETRY (R171). -/
def execInboundAllocRetry (die : Nat) (entry : Nat) (s : State) : Out :=
  unitDo s die (dieLive s die && !(chanLost s die)) (inboundRetry s die entry)

/-- INBOUND_ALLOC_TIMEOUT: an inbound exchange that has waited 10 ms fails with NO_FRAME. -/
def inboundTimeout (s : State) (d k : Nat) : State :=
  match (getChan s d).inbound[k]? with
  | none => s
  | some b => rxComplete (recvFail (modChan s d fun c => { c with inbound := dropAt c.inbound k }) b.index rsNoFrame 0) b.session

/-- INBOUND_ALLOC_TIMEOUT (R171). -/
def execInboundAllocTimeout (die : Nat) (entry : Nat) (s : State) : Out :=
  unitDo s die (dieLive s die && !(chanLost s die)) (inboundTimeout s die entry)

end Sys2Proof.Machine
end

