-- ==== Sys2Proof/Machine/Partition.lean ====
section
/-! DEFINITION. The partition manager's command registers: invalidations, CREATE and DESTROY, mailboxes and ring doorbells (spec 03:
R88, R101, R121; 04: R124; 05: R157, R180; 16: R491 to R499, R507 to R510). -/

namespace Sys2Proof.Machine

/-- A command of the SCH block's registers takes effect while the block is enabled (R560). -/
def schCommand (s : State) (d w : Nat) (t : State) : Out := regDo s d bSch w (dieLive s d && blkEn s d bSch) t

/-- The field PART of an SCH command register. -/
def schPart (w d p : Nat) (s : State) : State := setF s d bSch w 9 0 p

/-- SCH_INVCMD with PMTGO (R88, R121). -/
def invPmt (s : State) (d p : Nat) : State :=
  startCmd s d bSch rSchInvcmd 0 (schPart rSchInvcmd d p) fun s => ptInvalidate (schPart rSchInvcmd d p s) d .pmt p
/-- SCH_INVCMD with CCGO: the codelet caches of every spar of the die are emptied (R101). -/
def invCc (s : State) (d p : Nat) : State :=
  startCmd s d bSch rSchInvcmd 1 (schPart rSchInvcmd d p) fun s =>
    (List.range 32).foldl (fun s g => modSpar s (gspar d g) fun x => { x with ccache := [] }) (schPart rSchInvcmd d p s)
/-- SCH_PSTCMD with GO (R124). -/
def pstCommand (s : State) (d p : Nat) : State :=
  startCmd s d bSch rSchPstcmd 0 (schPart rSchPstcmd d p) fun s => ptInvalidate (schPart rSchPstcmd d p s) d .pst p

/-- What SCH_PPTCMD does: the entry is read again, and die 0's command re-arms the luff detector for the partition (R157, R180). -/
def pptRenew (s : State) (d p : Nat) : State :=
  let was := admissionClosed s d p
  let s := ptFill (ptInvalidate (schPart rSchPptcmd d p s) d .ppt p) d .ppt p
  let s := noteClosing s d p was
  if d = 0 then setLuff s p { getLuff s p with run := 0, armed := true } else s
/-- SCH_PPTCMD with GO (R157). -/
def pptCommand (s : State) (d p : Nat) : State :=
  startCmd s d bSch rSchPptcmd 0 (schPart rSchPptcmd d p) fun s => pptRenew s d p

/-- SCH_INV_PMT (R121). -/
def execSchInvPmt (die part : Nat) (s : State) : Out := schCommand s die rSchInvcmd (invPmt s die part)
/-- SCH_INV_CC (R101). -/
def execSchInvCc (die part : Nat) (s : State) : Out := schCommand s die rSchInvcmd (invCc s die part)
/-- SCH_PSTCMD (R124). -/
def execSchPstcmd (die part : Nat) (s : State) : Out := schCommand s die rSchPstcmd (pstCommand s die part)
/-- SCH_PPTCMD (R157). -/
def execSchPptcmd (die part : Nat) (s : State) : Out := schCommand s die rSchPptcmd (pptCommand s die part)

/-! ### SCH_PXTCMD (R491, R494, R498, R510) -/

/-- The fields that a write of `SCH_PXTCMD` leaves. -/
def pxtFields (s : State) (d op p err : Nat) : State := setReg s d bSch rSchPxtcmd (op * 2 ^ 28 + err * 2 ^ 25 + p)
def pxtErr (s : State) (d : Nat) : Nat := getF s d bSch rSchPxtcmd 27 25

/-- A command while another one runs, among them DESTROY on die 0, is ignored and counted; its other fields are stored (R510, R566). -/
def pxtBusy (s : State) (d op p : Nat) (effect : State → State) : State :=
  let s := destroySettle s
  let fields (s : State) : State := pxtFields s d op p (pxtErr s d)
  if d = 0 ∧ (destroyingPart s).isSome then reject (fields s) d bSch else startCmd s d bSch rSchPxtcmd 0 fields effect

/-- INV: the cached copies of an execution entry go (R491). -/
def pxtInv (s : State) (d p : Nat) : State := ptInvalidate (pxtFields s d 0 p (pxtErr s d)) d .pxt p

/-- PXT_INV (R491). -/
def execPxtInv (die part : Nat) (s : State) : Out :=
  schCommand s die rSchPxtcmd (pxtBusy s die 0 part fun s => pxtInv s die part)

/-- The trap frame lies in the range and is FIXED (R494). -/
def trapFrameOk (s : State) (p : Nat) : Bool :=
  let f := pxtTframe s 0 p
  decide (pxtFbase s 0 p ≤ f) && decide (f < pxtFbase s 0 p + pxtFcount s 0 p) && frState s 0 f == fsFixed

/-- Every descriptor of the range is FREE or FIXED, owned by the partition, and none is frame 0 (R494). -/
def rangeOk (s : State) (p : Nat) : Bool :=
  (frameRange s p).all fun f => f != 0 && (frState s 0 f == fsFree || frState s 0 f == fsFixed) && frPart s 0 f == p

/-- The check of CREATE that fails first (R494). -/
def createErr (s : State) (p : Nat) : Nat :=
  if !ptValid s 0 .pxt p then 1 else if pxtPstate s p ≠ 0 then 4 else if !trapFrameOk s p then 2 else if !rangeOk s p then 3 else 0

/-- The descriptors of the range that CREATE and DESTROY read (R306, R494). -/
def readRange (s : State) (p : Nat) : State := (frameRange s p).foldl (fun s f => unitRead s 0 (descAddr s 0 f) 4) s

/-- CREATE builds the free list, and the partition is LIVE (R180, R494). -/
def create (s : State) (p : Nat) : State :=
  let e := createErr s p
  let s := pxtFields (if e = 0 ∨ e = 3 then readRange s p else s) 0 1 p e
  if e = 0 then
    let free := (frameRange s p).filter fun f => frState s 0 f == fsFree
    let a := ptAddr s 0 .pxt p
    let s := modHw (store (store s 0 (a + 6) 0) 0 (a + 7) (w64 (2 ^ 62))) p fun h => { h with free := free, quar := [] }
    setLuff s p Luff.init
  else s

/-- CREATE (R494). -/
def execCreate (part : Nat) (s : State) : Out :=
  schCommand s 0 rSchPxtcmd (pxtBusy s 0 1 part fun s => create s part)

/-- The check of DESTROY that fails first (R498). -/
def destroyErr (s : State) (p : Nat) : Nat :=
  if !ptValid s 0 .pxt p then 1 else if pxtPstate s p ≠ 1 then 4
  else if pctOk s 0 p && pctWord s 0 p 2 != 0 then 5 else 0

/-- DESTROY sends a purge for every frame; it ends once nothing of the partition is left (R498). -/
def destroy (s : State) (p : Nat) : State :=
  let e := destroyErr s p
  let s := pxtFields s 0 2 p e
  if e = 0 then
    let s := modHw (unitMod (readRange s p) 0 (ptAddr s 0 .pxt p + 7) fun w => wput w 63 62 2) p fun h => { h with destroying := true }
    destroySettle ((frameRange s p).foldl (fun s f => destroyFrame s p f) s)
  else s

/-- DESTROY (R498). -/
def execDestroy (part : Nat) (s : State) : Out :=
  schCommand s 0 rSchPxtcmd (pxtBusy s 0 2 part fun s => destroy s part)

/-! ### Tenant channels (R507 to R510) -/

/-- The part has mailboxes (R507). -/
def hasMailbox (s : State) : Bool := s.part != .p7808

/-- The two words of a doorbell: `IBUSY` and `OBUSY` are bits 0 and 1. -/
def mailBusy (s : State) (p bit : Nat) : Bool := bitOf (getReg s 0 bPrt (rPrtMbdb + p)) bit
def setMail (s : State) (p bit : Nat) (v : Bool) : State := setF s 0 bPrt (rPrtMbdb + p) bit bit (b2n v)

/-- IGO (`out` false) or OGO: ignored and counted while the message is not acknowledged (R507, R508). -/
def mailGo (s : State) (p : Nat) (out : Bool) : State :=
  if mailBusy s p (b2n out) then count s 0 bPrt rPrtMbrej
  else evRaise (setMail s p (b2n out) true) 1 ((if out then 0x800 else 0x400) + p)

/-- IACK or OACK (R508). -/
def mailAck (s : State) (p : Nat) (out : Bool) : State := setMail s p (b2n out) false

/-- A command of die 0's PRT block; on a part that has no such register its location is RSV, a bus error (R510, R552). -/
def prtDo (s : State) (w : Nat) (t : State) : Out := regDo s 0 bPrt w (dieLive s 0 && blkEn s 0 bPrt) t

/-- MAILBOX_IGO (R508). -/
def execMailboxIgo (part : Nat) (s : State) : Out := prtDo s (rPrtMbdb + part) (mailGo s part false)
/-- MAILBOX_IACK (R508). -/
def execMailboxIack (part : Nat) (s : State) : Out := prtDo s (rPrtMbdb + part) (mailAck s part false)
/-- MAILBOX_OGO (R508). -/
def execMailboxOgo (part : Nat) (s : State) : Out := prtDo s (rPrtMbdb + part) (mailGo s part true)
/-- MAILBOX_OACK (R508). -/
def execMailboxOack (part : Nat) (s : State) : Out := prtDo s (rPrtMbdb + part) (mailAck s part true)

/-- RING_DOORBELL: IGO or OGO raises the source of the tenant channel (R509). -/
def ringBell (s : State) (p : Nat) (out : Bool) : State := evRaise s 1 ((if out then 0x800 else 0x400) + p)
/-- RING_DOORBELL (R509). -/
def execRingDoorbell (part : Nat) (out : Bool) (s : State) : Out := prtDo s (rPrtRingdb + part) (ringBell s part out)

end Sys2Proof.Machine
end

