-- ==== Sys2Proof/Machine/Blocks.lean ====
section
/-! DEFINITION. Blocks: running and idle, enabling, disabling, and the reset of a block (spec 18: R559 to R565). -/

namespace Sys2Proof.Machine

/-- Madder has taken the block's unit out of service (R559, R565). -/
def unitTaken (s : State) (d b : Nat) : Bool :=
  match blkKind b with
  | some .clu => (getSpar s (gspar d (b - 0x20))).out
  | some .cen => (getEng s (engKey d (b - 0x40))).out
  | some .frl => (getXf s d).furlOut.contains 0 && (getXf s d).furlOut.contains 1
  | some .wad => (getXf s d).woadOut.contains 0 && (getXf s d).woadOut.contains 1
  | _ => (getDie s d).blkOut.contains b

/-- A spar holds no work. -/
def sparIdle (s : State) (g : Nat) : Bool :=
  let x := getSpar s g
  x.arr.isEmpty && x.iq.isEmpty && x.evb.isEmpty && x.miss.isEmpty && x.reentry.isEmpty && x.pipe.isNone && x.purges.isEmpty && x.rl.isEmpty && x.fetches.isEmpty
    && x.replies.isEmpty && x.decWait.isEmpty && x.decRun.isNone
    && (List.range 9).all fun p => (getPe s (peKey g p)).inst.isNone && (getPe s (peKey g p)).out.isEmpty

/-- The block holds no work in flight: a command that runs is work (R559, R566). For HXP these are frames and segments that have not been taken or acknowledged, and for EVC the
sources that are not IDLE (DESIGN CHOICE: log 143). -/
def blkIdle (s : State) (d b : Nat) : Bool :=
  !blkRuns s d b &&
  match blkKind b with
  | some .clu => sparIdle s (gspar d (b - 0x20))
  | some .cen =>
    let k := engKey d (b - 0x40)
    let x := getEng s k
    x.intake.isEmpty && x.flitq.isEmpty && x.evq.isEmpty && x.serve.isEmpty && x.cmds.isEmpty && x.hxq.isEmpty
      && !((List.range 16).any fun c => (getCtx s k c).busy)
  | some .hxp =>
    (getDie s d).mac.isEmpty && (getDie s d).macTx.isEmpty && (getDie s d).rawTx.isEmpty && (List.range 16).all (fun e => (getEng s (engKey d e)).hxq.isEmpty)
      && !(s.sess.any fun e => stDie s e.1 == d && (!e.2.unacked.isEmpty || !e.2.rx.isEmpty))
  | some .rtl => (List.range 32).all fun n => (getSpar s (gspar d n)).staging.isEmpty
  | some .evc => !((List.range 4096).any fun k => evState s d k != evIdle)
  | some .chn => (getChan s d).live.isEmpty && (getChan s d).held.isEmpty
  | some .frl => (getXf s d).jobs.all fun j => (j.running.map fun r => r.1.isNone).getD true
  | some .wad => (getXf s d).jobs.all fun j => (j.running.map fun r => r.2.1.isEmpty).getD true
  | some .sch => !(d == 0 && (destroyingPart s).isSome) && (getDie s d).flows.isEmpty && !(s.flowMsgs.any fun m => m.die == d) && !(s.gateMsgs.any fun m => m.die == d)
  | some .coh => !(s.homeTx.any fun e => homeDie e.1 == d)
  | _ => true

/-- `BLK_STAT` (R559). -/
def blkStat (s : State) (d b : Nat) : Nat :=
  b2n (blkEn s d b && !unitTaken s d b) + 2 * b2n (blkIdle s d b) + 4 * b2n ((getDie s d).rstBusy.contains b)

/-- Words of a block in parity mismatch: since the parity bit went wrong nothing has changed the register's RW and RWD fields (R567). -/
def mismWords (s : State) (d b : Nat) : List Nat :=
  ((getDie s d).perr.filter fun x => x.word / 2 ^ 20 == b && (getReg s d b (x.word % 2 ^ 20) ^^^ x.value) &&& parityBits b (x.word % 2 ^ 20) == 0).map (·.word % 2 ^ 20)
/-- `BLK_PERR` (R559). -/
def blkPerr (s : State) (d b : Nat) : Nat :=
  match mismWords s d b with
  | [] => 0
  | w :: l => 2 ^ 31 + l.foldl min w


/-- A write from the open world to a held block is refused where it clears EN or sets RST (R564). -/
def openSrc (src : CsrSrc) : Bool :=
  match src with
  | .pl1 => true
  | .port => true
  | .i3c => true
  | _ => false
def heldFrom (s : State) (d b : Nat) (src : CsrSrc) : Bool := openSrc src && getF s d b rBlkCtl 31 31 == 1

/-- The header of FUS is read-only as every register of the block, and the writes of software do not reach it (R569, R605). -/
def ctlFixed (b : Nat) : Bool := b == bFus
/-- A register of DBG or FUS is sealed: a write from the open world does not reach it (R223, R569). -/
def ctlShut (b : Nat) (src : CsrSrc) : Bool := (b == bDbg || b == bFus) && openSrc src

/-- EN goes to 0; SYS cannot be disabled (R560). -/
def blkDisable (s : State) (d b : Nat) (src : CsrSrc) : State :=
  if b = bSys then reject s d b
  else if blkEn s d b && heldFrom s d b src then reject s d b
  else parityWrite (setF s d b rBlkCtl 0 0 0) d b rBlkCtl

/-! ### RWD fields in use (R560) -/

/-- The register word belongs to the block. -/
def wordOf (i d b : Nat) : Bool := fld i 30 28 == d && fld i 27 20 == b

/-- The block reads its RWD fields into use (R560). -/
def takeRwd (s : State) (d b : Nat) : State :=
  let s' := (s.rwdHeld.filter fun e => wordOf e.1 d b).foldl (fun s e => setReg s d b (fld e.1 19 0) (regStored s d b (fld e.1 19 0))) s
  { s' with rwdHeld := s.rwdHeld.filter fun e => !wordOf e.1 d b }

/-- Slot 8 of a spar as `TOPSAIL` asks for when its block is enabled: under topsail the spare PE fills it, else the PE in it is spare
(R536). -/
def topsailSlot (s : State) (g : Nat) : State :=
  match topsail s g, slotPe s g 8, sparePe s g with
  | true, 15, some p => fillSlot s g 8 p
  | false, p, _ => if p = 15 then s else setSlotPe (setPeStat s g p 1) g 8 15
  | _, _, _ => s

/-- EN goes to 1, unless a parity mismatch, a reset in progress or a unit out of service forbids it (R565); MST of a die besides
die 0, and FUS, keep EN at 0 (R569, R605). The block's RWD fields come into use (R560). -/
def blkEnable (s : State) (d b : Nat) : State :=
  if (b = bMst ∧ d ≠ 0) ∨ ctlFixed b then s
  else if blkEn s d b then parityWrite s d b rBlkCtl
  else if mismWords s d b ≠ [] ∨ (getDie s d).rstBusy.contains b ∨ unitTaken s d b then reject s d b
  else
    let s := parityWrite (setF (takeRwd s d b) d b rBlkCtl 0 0 1) d b rBlkCtl
    if blkKind b = some .clu then topsailSlot s (gspar d (b - 0x20)) else s

/-! ### Reset of a block (R562) -/

/-- The bits of a word that a block reset leaves: ROC fields, which show their cause as it stands (R555), where the cause is no state of the
block that the reset clears, as the PE and pair maps and states, which stay retired until the next start (R535, R538), event inputs, links,
clocks, offsets and what the start found; and the registers of the standby domain, which have no Reset value of their own (R613, R639). -/
def keptBits (b w : Nat) : Nat :=
  let all : Nat := 2 ^ 32 - 1
  match blkKind b with
  | some .clu => if w = rCluPemap ∨ w = rCluPestat then all else if w = rCluPectl then 0xF else 0
  | some .mdr => if w = rMdrPairmap ∨ w = rMdrPairstat then all else 0
  | some .pwr => if w = rPwrRtcHi ∨ w = rPwrRtcLo ∨ w = rPwrTamper then all else if w = rPwrReef then 0x3F0 else 0
  | some .clk => if w = rClkStat then 0xFFFFFFFC else if w = rClkTbskew then all else 0
  | some .umb => if w = rUmbOffset ∨ w = rUmbStat then all else if rUmbMon ≤ w then 0xFFFF else 0
  | some .hxp => if w = rHxpPort then 0xF else 0
  | some .evc => if rEvcCfg ≤ w ∧ w < rEvcTgtLo then 2 ^ 22 else 0
  | some .chn => if w = rChnStat then 2 ^ 31 else if w = rChnIdrstat then all else 0
  | some .mst => if w < rMstUpdcmd then all else if w = rMstUpdcmd then 0xF80000 else 0
  | _ => 0

/-- The registers of a block return to their reset values, `HOLD` and the bits of `keptBits` apart (R562). -/
def resetRegs (s : State) (d b : Nat) : State :=
  let hold := getF s d b rBlkCtl 31 31
  let own := s.csr.filter fun e => wordOf e.1 d b && decide (0x10 ≤ fld e.1 19 0) && keptBits b (fld e.1 19 0) != 0
  let s' := { s with
    csr := s.csr.filter fun e => !wordOf e.1 d b,
    rwdHeld := s.rwdHeld.filter fun e => !wordOf e.1 d b, cmdBusy := s.cmdBusy.filter fun e => !wordOf (e.1 / 2) d b,
    dies := tmod (fun _ => Die.init) s.dies d fun x => { x with perr := x.perr.filter fun p => p.word / 2 ^ 20 != b } }
  own.foldl (fun t e =>
    let w := fld e.1 19 0
    setReg t d b w (merged (getReg t d b w) e.2.toNat (keptBits b w))) (setF s' d b rBlkCtl 31 31 hold)

/-- A PE without what a block reset clears. -/
def peClear (p : Pe) : Pe := { Pe.init with departs := p.departs, leaky := p.leaky }

/-- A spar's internal state is cleared: the unit itself stays in or out of service, gated or not (R315, R562, R635). -/
def sparClear (s : State) (g : Nat) : State :=
  let x := getSpar s g
  let s := modSpar s g fun _ => { Spar.init with out := x.out, gated := x.gated }
  let s := { s with pcache := s.pcache.filter fun l => l.unit != uSpar g, caches := s.caches.filter fun e => e.1 / 2 ^ 45 != g, resvs := s.resvs.filter fun r => r.agent / 9 != g,
                    strays := s.strays.filter fun x => x.cache != g, lrQueue := s.lrQueue.filter fun q => q.1 / 9 != g }
  (List.range 9).foldl (fun s p => modPe s (peKey g p) peClear) s

/-- The internal state of a block after a block reset; of EVC the die's sources are IDLE again, and its cores give back the offers of other
dies' sources with `EVC_CORE_EN` (R360). -/
def blkClear (s : State) (d b : Nat) : State :=
  match blkKind b with
  | some .clu => sparClear s (gspar d (b - 0x20))
  | some .cen =>
    let k := engKey d (b - 0x40)
    let x := getEng s k
    { modEng s k fun _ => { Eng.init with out := x.out, adopted := x.adopted } with
      mseqs := tdel s.mseqs k, pcache := s.pcache.filter fun l => l.unit != uCen k,
      tlb := s.tlb.filter fun l => !(l.die == k / 16 && l.unit == 1 + k % 16) }
  | some .chn =>
    modChan s d fun c => { Chan.init with jrecs := c.jrecs.filter (·.durable), jnext := c.jnext, jhead := c.jhead, ctlA := c.ctlA,
                                          ctlB := c.ctlB, slots := c.slots, ldevLost := c.ldevLost, count := c.count, limit := c.limit }
  | some .frl => xformClear { s with pcache := s.pcache.filter fun l => !(l.unit == d && l.table == .ptt) } d false
  | some .wad => xformClear s d true
  | some .sch =>
    modDie { s with pcache := s.pcache.filter fun l => !(l.unit == d && l.table != .ptt), gateWaits := s.gateWaits.filter fun w => w.1 != d } d
      fun x => { x with flows := [], flowRr := 255, flSide := .neither, closed := [] }
  | some .coh =>
    { s with llc := s.llc.filter fun e => homeDie e.1 != d, homeTx := s.homeTx.filter fun e => homeDie e.1 != d,
             sliceQ := s.sliceQ.filter fun e => e.1 / 32 != d, lrQueue := s.lrQueue.filter fun q => homeDie q.2 != d,
             posted := s.posted.filter fun p => !p.sent || homeDie p.line != d }
  | some .xlt => { s with tlb := s.tlb.filter fun l => !(l.die == d && l.unit == 0) }
  | some .rtl =>
    (List.range 32).foldl (fun s n => modSpar s (gspar d n) fun x => { x with staging := [], sample := 0, gap := false }) s
  | some .evc =>
    let s := (List.range 64).foldl (fun s c => modSup s c fun e =>
        { e with openOffer := e.openOffer.filter (· / 4096 != d), sealedOffer := e.sealedOffer.filter (· / 4096 != d),
                 actives := e.actives.filter (· / 4096 != d) }) s
    (List.range 8).foldl (fun s c => returnOffers s (8 * d + c)) (modDie s d fun x => { x with evOldEn := [], evOldType := [] })
  | some .mdr => modDie s d fun x => { x with inj := none }
  | _ => s

/-- A block reset: registers and internal state, with RSTBUSY until it is complete (R562). -/
def blkReset (s : State) (d b : Nat) : State :=
  modDie (resetRegs (blkClear s d b) d b) d fun x => { x with rstBusy := b :: x.rstBusy.filter (· != b) }

/-- A write of `BLK_CTL` (R559 to R565). -/
def writeBlkCtl (s : State) (d b v : Nat) (src : CsrSrc) : State :=
  if ctlFixed b then s
  else if (getDie s d).rstBusy.contains b then reject s d b
  else
    let en := bitOf v 0
    let rst := bitOf v 1
    if heldFrom s d b src && (rst || (!en && blkEn s d b)) then reject s d b
    else
      let s := if openSrc src then s else setF s d b rBlkCtl 31 31 (v / 2 ^ 31 % 2)
      let s := if bitOf v 2 then setReg s d b rBlkCfgrej 0 else s
      if rst then
        let s' := if en then s else if b = bSys then s else setF s d b rBlkCtl 0 0 0
        if blkEn s' d b then reject s' d b
        else if en then reject (blkReset s' d b) d b else blkReset s' d b
      else if en then blkEnable s d b else blkDisable s d b src

/-- A command that writes `BLK_CTL`; a write from the open world does not reach a sealed one (R569). -/
def ctlDo (s : State) (d b : Nat) (src : CsrSrc) (t : State) : Out := regDo s d b rBlkCtl (!ctlShut b src && !ctlFixed b) t

/-- BLK_ENABLE (R560, R565). -/
def execBlkEnable (die : Nat) (blk : BitVec 8) (src : CsrSrc) (s : State) : Out :=
  ctlDo s die blk.toNat src (blkEnable s die blk.toNat)

/-- BLK_DISABLE (R560, R564). -/
def execBlkDisable (die : Nat) (blk : BitVec 8) (src : CsrSrc) (s : State) : Out :=
  ctlDo s die blk.toNat src (blkDisable s die blk.toNat src)

/-- BLK_RST: a write of `BLK_CTL` that sets RST, with the other bits as written (R562, R564). -/
def execBlkRst (die : Nat) (blk : BitVec 8) (value : Csr) (src : CsrSrc) (s : State) : Out :=
  ctlDo s die blk.toNat src (writeBlkCtl s die blk.toNat (value ||| 2).toNat src)

/-- BLK_RESET_DONE (R562). -/
def execBlkResetDone (die : Nat) (blk : BitVec 8) (s : State) : Out :=
  onDie s die (modDie s die fun x => { x with rstBusy := x.rstBusy.filter (· != blk.toNat) })

/-- BLK_CLRREJ (R559): a write of `BLK_CTL` by a source that reaches it. -/
def execBlkClrrej (die : Nat) (blk : BitVec 8) (s : State) : Out :=
  ctlDo s die blk.toNat .pl2 (setReg s die blk.toNat rBlkCfgrej 0)

end Sys2Proof.Machine
end

