-- ==== Sys2Proof/Machine/Control.lean ====
section
/-! DEFINITION. The control instructions of X16 (spec 08: R259; 09: R284, R289, R299; 11: R343, R345, R362). -/

namespace Sys2Proof.Machine

/-- An X16 instruction whose `ARG` must be 0 (R259). -/
def noArg (arg : BitVec 5) (body : Hart → State → Res) (h : Hart) (s : State) : Res :=
  if arg = 0 then body h s else illegal s

/-- NOP (R259). -/
def execNop (core : CoreId) (arg : BitVec 5) (s : State) : Out := instrDo core 1 (noArg arg fun _ s => .next s) s

/-- COMMIT: the commit point, with the checkpoint at the next instruction, and the wait for output places (R62, R63, R66, R159). -/
def execCommit (core : CoreId) (arg : BitVec 5) (s : State) : Out :=
  instrDo core 1 (noArg arg (codeletOnly fun k s =>
    atCommit s k fun s => .done (commitAwait (setPc s (.pe k) (hartPc s (.pe k) + 1)) k))) s

/-- END: the commit point, and the instance ends (R62, R138). -/
def execEnd (core : CoreId) (arg : BitVec 5) (s : State) : Out :=
  instrDo core 1 (noArg arg (codeletOnly fun k s => atCommit s k fun s => .done (endInst (commitPoint s k) k 0))) s

/-- FENCE: accesses are performed when their instructions execute, so nothing is left to order (R284, R289). -/
def execFence (core : CoreId) (arg : BitVec 5) (s : State) : Out := instrDo core 1 (noArg arg fun _ s => .next s) s

/-- FENCE_DEV (R220, R299). -/
def execFenceDev (core : CoreId) (arg : BitVec 5) (s : State) : Out :=
  instrDo core 1 (noArg arg (privileged 0 fun _ s => .next s)) s

/-- ERET (R345). -/
def execEret (core : CoreId) (arg : BitVec 5) (s : State) : Out :=
  instrDo core 1 (noArg arg (privileged 1 fun c s =>
    let l := levelOf s c
    if l < wfld (spr s c (zLevel l + 2)) 1 0 then illegal s else .done (leaveLevel s c l))) s

/-- WFE: the core waits unless an offer is in one of its slots (R362); its reservation is lost (R290). -/
def execWfe (core : CoreId) (arg : BitVec 5) (s : State) : Out :=
  instrDo core 1 (noArg arg (privileged 0 fun c s =>
    .next (modSup (dropResv s (supAgent c)) c fun x => { x with waiting := x.openOffer.isNone && x.sealedOffer.isNone }))) s

/-- SYS (R220, R343, R345). -/
def execSys (core : CoreId) (arg : BitVec 5) (s : State) : Out :=
  instrDo core 1 (privileged 0 fun c s =>
    let l := levelOf s c
    if l = 2 then .trap s tPriv 0 0
    else .done (enterLevel s c (l + 1) 0x200 tSys 0 arg.toNat 0 (hartPc s (.sup c) + 1))) s

end Sys2Proof.Machine
end

