-- ==== Sys2Proof/Machine/Service.lean ====
section
/-! DEFINITION. Retry, units and dies that leave service, and what a detector's report does (spec 17: R512 to R547). -/

namespace Sys2Proof.Machine

/-! ### Codelet retry (R524 to R530) -/

/-- A PE and its partner in paired firing. -/
def mates (s : State) (k : Nat) : List Nat := k :: (partner s k).toList

/-- A PE that was to leave service at the end of its instance leaves now for another cause. -/
def notLeaving (s : State) (k : Nat) : State := modPe s k fun p => { p with leaving := none }

/-- The instance of a PE ends with RETRY_FAIL; `src` says who delivers the trap, which names the failed PE (R526). -/
def retryFail (s : State) (k src : Nat) : State :=
  let l := leader s k
  match (getPe s l).inst with
  | none => s
  | some i =>
    let r := { peTrapRec s l src tRetryFail 0 0 (getPe s l).chk.pc.toNat i with pe := peNo k, slot := slotOf s k }
    endInst (addTrap (discardScope s l) r) l tRetryFail

/-- The unit under which a PE's transient error is recorded: a report of the decimal sequencer names the spar's (R449, R517). -/
def transientUnit (k det : Nat) : Nat := if det = 0x0112 then 0xFF else peNo k

/-- The instance ends with RETRY_FAIL, its PE or both PEs of its pair leave service, and the fault is CONTAINED (R526, R530). -/
def escalate (s : State) (k det src : Nat) (info : Word) (inj : Bool) : State :=
  let note (s : State) (cls act : Nat) (addr tag : Word) := report s (peDie k) (bClu (peSpar k % 32)) (transientUnit k det) det cls act addr tag info inj
  match (getPe s k).inst with
  | none => note s cCorrected 0x00 0 0
  | some i =>
    let addr := w64 (getPe s (leader s k)).chk.pc.toNat
    let margins := (partner s k).toList.map fun m => (m, marginDue s m)
    let margin := marginDue s k
    let r := departTest (retryFail ((mates s k).foldl notLeaving s) k src) k margin
    note (margins.foldl (fun s m => (departTest s m.1 m.2).1) r.1) cContained (departAction r.2) addr i.tag

/-- One retry of a PE: its checkpoint comes back, and its counters rise; a PE that waits for output places goes on waiting (R159, R524,
R528). -/
def retryPe (s : State) (k det : Nat) : State :=
  let limit := getF s (peDie k) bMdr rMdrRtycfg 27 20
  modPe (rollback s k) k fun p =>
    { p with retries := p.retries + 1, leaky := p.leaky + 1,
             leaving := if limit ≠ 0 ∧ limit ≤ p.leaky + 1 ∧ p.leaving = none then some det else p.leaving }

/-- A transient error of the PE's current scope: a retry, or the escalation when none is left (R524, R526, R530). -/
def transient (s : State) (k det src : Nat) (info : Word) (inj : Bool) : State :=
  let d := peDie k
  let u := transientUnit k det
  match (getPe s k).inst with
  | none => report s d (bClu (peSpar k % 32)) u det cCorrected 0x00 0 0 info inj
  | some i =>
    let l := leader s k
    if (getPe s l).retries < getF s d bMdr rMdrRtycfg 31 28 then
      let addr := w64 (getPe s l).chk.pc.toNat
      let s := count ((mates s k).foldl (fun s m => retryPe s m det) s) d bMdr rMdrRetrycnt
      report s d (bClu (peSpar k % 32)) u det cCorrected 0x01 addr i.tag info inj
    else escalate s k det src info inj

/-- RETRY_COUNTER_LEAK (R528). -/
def execRetryCounterLeak (pe : PeId) (s : State) : Out :=
  let k := peOf pe
  onDie s (peDie k) (modPe s k fun p => { p with leaky := p.leaky - 1 })

/-! ### Built-in tests (R535, R538) -/

/-- A PE is retired for good, with its instance ended (R513, R533, R535). -/
def retirePe (s : State) (k src : Nat) : State × Bool :=
  departPe (if (getPe s k).inst.isSome then retryFail (notLeaving s k) k src else s) k true

/-- The lowest service slot with no PE (R535). -/
def emptySlot (s : State) (g : Nat) : Option Nat := if topsail s g then none else firstBelow 8 fun k => slotPe s g k == 15

/-- A departed PE's built-in test ends (R535). -/
def peBist (s : State) (k : Nat) (pass : Bool) : State :=
  let g := peSpar k
  let p := peNo k
  let d := peDie k
  if peStat s g p ≠ 2 then s
  else if !pass then report (setPeStat s g p 3) d (bClu (g % 32)) p 0x0108 cContained 0x07 0 0 0
  else if (getPe s k).departs = 1 then
    let s := report (setPeStat s g p 1) d (bClu (g % 32)) p 0x0108 cCorrected 0x0D 0 0 0
    match emptySlot s g with
    | some slot => fillSlot s g slot p
    | none => s
  else setPeStat s g p 3

/-- PE_BIST_DONE (R535). -/
def execPeBistDone (pe : PeId) (pass : Bool) (s : State) : Out :=
  let k := peOf pe
  unitDo s (peDie k) (dieLive s (peDie k)) (peBist s k pass)

/-- The lowest logical core of a die that no pair serves (R538). -/
def emptyCore (s : State) (d : Nat) : Option Nat := firstBelow 8 fun c => pairOf s (8 * d + c) == 15

/-- A fenced pair's built-in test ends (R538). -/
def pairBist (s : State) (d j : Nat) (pass : Bool) : State :=
  if pairStat s d j ≠ 2 then s
  else if !pass then report (setPairStat s d j 3) d bSys j 0x0204 cContained 0x07 0 0 0
  else if 1 < tget (fun _ => 0) (getDie s d).pairFences j then setPairStat s d j 3
  else
    match emptyCore s d with
    | some c => modDie (setPairStat (setPairOf s (8 * d + c) j) d j 0) d fun x => { x with pairReset := x.pairReset ||| 2 ^ c }
    | none => setPairStat s d j 1

/-- PAIR_BIST_DONE (R538). -/
def execPairBistDone (die : Nat) (pair : Fin 9) (pass : Bool) (s : State) : Out :=
  unitDo s die (dieLive s die) (pairBist s die pair pass)

/-- `MDR_PAIRCMD` with GO: the pair mapped to the core and held in reset starts (R342, R537). -/
def pairCommand (s : State) (d c : Nat) : State :=
  let fields (s : State) : State := setF s d bMdr rMdrPaircmd 2 0 c
  startCmd s d bMdr rMdrPaircmd 0 fields fun s =>
    if bitOf (getDie s d).pairReset c then
      startCore (modDie (fields s) d fun x => { x with pairReset := x.pairReset - 2 ^ c }) (8 * d + c)
    else reject { fields s with cmdBusy := tdel s.cmdBusy (cmdKey d bMdr rMdrPaircmd 0) } d bMdr

/-- MDR_PAIRCMD (R537). -/
def execMdrPaircmd (die lcore : Nat) (s : State) : Out := regDo s die bMdr rMdrPaircmd (dieLive s die) (pairCommand s die lcore)

/-! ### The log and FAULT_N (R522, R523) -/

/-- `MDR_LOGACK` with GO (R522). -/
def logAck (s : State) (d k : Nat) : State :=
  let s := setF s d bMdr rMdrLogack 9 0 k
  match logAt s d k with
  | some r => if r.ack then reject s d bMdr else setLog s d k (some { r with ack := true })
  | none => reject s d bMdr

/-- MDR_LOGACK (R522, R557). -/
def execMdrLogack (die : Nat) (slot : Fin 1024) (s : State) : Out := regDo s die bMdr rMdrLogack true (logAck s die slot)

/-- FAULT_N_PULSE_EXPIRE (R523). -/
def execFaultNPulseExpire (s : State) : Out := .next { s with pulse := false }

/-- FAULT_N is asserted: never without AUX, and under RESET_N only for a FATAL fault before it (R523, R647). -/
def faultN (s : State) : Bool :=
  s.pw.aux && (if s.mst.resetN then s.pw.faultHeld else s.pulse || s.fatal || getF s 0 bMdr rMdrFnctl 31 31 == 1)

/-- MDR_FNCTL_WRITE (R523). -/
def execMdrFnctlWrite (drive : Bool) (minclass : BitVec 2) (s : State) : Out :=
  regDo s 0 bMdr rMdrFnctl true (parityWrite (setF (setF s 0 bMdr rMdrFnctl 31 31 (b2n drive)) 0 bMdr rMdrFnctl 1 0 minclass.toNat) 0 bMdr rMdrFnctl)

/-! ### Withdrawal of a die (R541, R542) -/

/-- The class and the action of a fault that costs its die (R541). -/
def dieCls (d : Nat) : Nat := if d = 0 then cFatal else cContained
def dieAct (d : Nat) : Nat := if d = 0 then 0x0C else 0x0A

/-- The logical cores of a withdrawn die: fenced with no spare (R353, R542). -/
def loseCores (s : State) (d : Nat) : State :=
  (List.range 8).foldl (fun s c =>
    let n := 8 * d + c
    setPairOf (stopCore ((getSup s n).actives.foldl (fun s g => evFenced s g) (returnOffers s n)) n) n 15)
    (modDie s d fun x => { x with pairReset := 0 })

/-- The frames of the purges among some flits. -/
def purgeTags (l : List Flit) : List Word := l.filterMap fun f => if flitCls f = 1 then some f.tag else none

/-- Purge flits that wait in a spar, in the mesh or at a link receiver of a die, on their way to it. -/
def purgesIn (s : State) (d : Nat) : List Word :=
  ((List.range 32).flatMap fun n =>
    let x := getSpar s (gspar d n)
    x.purges ++ purgeTags ((x.iq.map (·.flit)) ++ x.arr))
    ++ ((List.range 40).flatMap fun r => ((getRouter s d r).q ++ (getRouter s d r).src).flatMap fun e => purgeTags e.2)
    ++ (getDie s d).links.flatMap fun l => (l.2.rx.filter fun e => decide (2 ≤ e.1)).flatMap fun e => purgeTags e.2

/-- Purges addressed to lost units count as complete (R539, R542). -/
def purgesDone (s : State) (l : List Word) : State := l.foldl (fun s t => purgeDone s 0 t) s

/-- Failed links cut die `d` off from die `e` both ways round. -/
def cutOff (s : State) (e d : Nat) : Bool :=
  let n := nDies s.part
  decide (ringClear s e 0 < (d + n - e % n) % n) && decide (ringClear s e 1 < (e + n - d % n) % n)

/-- What the stream plane of die `e` holds when die `d` is withdrawn. In `d` its units and ports are gone with what they hold for `d` or from
it, and its through-path goes on. In another die a frame for `d` goes on to the ports of `d`, which drain it (R25, R541); it is discarded only
where failed links leave it no way (R540, R542). -/
def dropStream (s : State) (x : Die) (e d : Nat) : Die :=
  let gone (i : StrmItem) : Bool := strmDie i == d && cutOff s e d
  let keep (l : List StrmItem) : List StrmItem := if e = d then [] else l.filter fun i => !gone i
  let lost (i : StrmItem) : Bool := if e = d then strmSrc i == d || strmDie i == d else gone i
  let sender (l : Link) : Link :=
    { l with strm := l.strm.filter fun i => !lost i, beats := if l.strm.head?.any lost then 0 else l.beats }
  { x with mac := keep x.mac, macTx := keep x.macTx, rawTx := keep x.rawTx, strm := keep x.strm, hdr := keep x.hdr,
           links := x.links.map fun l => (l.1, sender l.2) }

/-- Flits that wait at a neighbour's sender for a withdrawn die are discarded and counted there, and purges among them are complete; of
what waits at its own senders only the through-path's goes on (R541, R542). -/
def dropFlits (s : State) (d : Nat) : State :=
  let s := [0, 1].foldl (fun s k =>
    let p := linkPeer s d k
    let gone := (getLink s p.1 p.2).tx.flatMap fun e => if 2 ≤ e.1 then e.2.map (·.1) else []
    let s := modLink s p.1 p.2 fun l => { l with tx := l.tx.filter fun e => decide (e.1 < 2) }
    drainAll (gone.foldl (fun s f => deadFlit s p.1 f) s) p.1 (1 - p.2)) s
  [0, 1].foldl (fun s k => modLink s d k fun l =>
    { l with tx := (l.tx.map fun e => (e.1, e.2.filter fun x => !x.2)).filter fun e => !e.2.isEmpty }) s

/-- Messages on their way to a withdrawn die are discarded at the station before it (R542). -/
def dropMessages (s : State) (d : Nat) : State :=
  let n := (s.flowMsgs.filter (·.die == d)).length + (s.gateMsgs.filter (·.die == d)).length
  let s := { s with flowMsgs := s.flowMsgs.filter (·.die != d), gateMsgs := s.gateMsgs.filter (·.die != d),
                    notices := s.notices.filter (·.die != d),
                    dies := s.dies.map fun e => (e.1, dropStream s e.2 e.1 d) }
  (List.range n).foldl (fun s _ => deadTo s 0 d) s

/-- The oldest exchange number of a die that is not retired, and the next number where none is (R518). -/
def oldestXnum (s : State) (d : Nat) : Word :=
  let c := getChan s d
  w64 ((c.live.map fun i => (ent s i 1).toNat).foldl min (d % 8 * 2 ^ 61 + c.count))

/-- The reservations on lines whose home slices a fault has taken are lost (R290). -/
def loseHomes (s : State) (d : Nat) : State :=
  { s with resvs := s.resvs.filter fun r => homeDie (r.line / 16) != d, lrQueue := s.lrQueue.filter fun q => homeDie q.2 != d }

/-- What is lost with a die (R382, R387, R389, R413, R542, R564). -/
def dieGone (s : State) (d : Nat) : State :=
  let s := purgesDone (loseHomes s d) (purgesIn s d)
  let s := dropMessages (dropFlits (loseCores (xformClear (xformClear (heldDie s 0 d) d false) d true) d) d) d
  let s := (s.ctrls.filter fun e => e.2.die == d && !e.2.out).foldl (fun s e => ctrlLost s e.1) s
  let s := if getF s 0 bChn rChnLdev 31 30 = 1 ∧ getF s 0 bChn rChnLdev 29 27 = d then ldevLeaves s else s
  let s := (s.assocs.map (·.1)).foldl (fun s i =>
    [false, true].foldl (fun s b => if shDie s i b = d then setUp s i b false else s) s) s
  loseDie s d

/-- A die besides die 0 is withdrawn, and die 0 records it (R541). -/
def withdrawDie (s : State) (d : Nat) (inj : Bool := false) : State :=
  if d = 0 ∨ nDies s.part ≤ d ∨ (getDie s d).withdrawn then s
  else
    let tag := oldestXnum s d
    let info := w64 (getChan s d).limit
    dieGone (reportAt0 (modDie s d fun x => { x with withdrawn := true }) d bSys d 0x0F10 cContained 0x0A 0 tag info inj) d

/-- A die is lost to a fault: die 0 is FATAL, with the same bounds of its exchange numbers (R518, R541). -/
def costDie (s : State) (d : Nat) (inj : Bool := false) : State :=
  if d = 0 then reportAt0 s 0 bSys 0 0x0F10 cFatal 0x0C 0 (oldestXnum s 0) (w64 (getChan s 0).limit) inj else withdrawDie s d inj

/-- DIE_WITHDRAWAL: a cause of R541; for die 0 it is FATAL. -/
def execDieWithdrawal (die : Nat) (s : State) : Out := unitDo s die (dieLive s die) (costDie s die)

/-- A sensor is taken out of use; a die with fewer than 8 left is lost (R624). -/
def sensorOut (s : State) (d sensor : Nat) (info : Word) (inj : Bool) : State :=
  if (getDie s d).sensOut.contains sensor then s
  else
    let s := report (modDie s d fun x => { x with sensOut := x.sensOut ++ [sensor] }) d bPwr sensor 0x070B cCorrected 0x00 0 0 info inj
    if 8 < (getDie s d).sensOut.length then costDie s d else s

/-- `MDR_WDRAW` with GO (R541). -/
def wdrawCommand (s : State) (d : Nat) : State :=
  let s := setF s 0 bMdr rMdrWdraw 2 0 d
  if d = 0 then reject s 0 bMdr else withdrawDie s d

/-- MDR_WDRAW (R541). -/
def execMdrWdraw (target : Nat) (s : State) : Out := regDo s 0 bMdr rMdrWdraw (dieLive s 0) (wdrawCommand s target)

/-! ### Ring links (R540) -/

/-- A die is reached from die 0 by one way around the ring or the other. -/
def reached (s : State) (d : Nat) : Bool :=
  !((List.range d).any fun j => ringOut s j) || !((List.range (nDies s.part - d)).any fun j => ringOut s (d + j))

/-- A flit that waited at a failed end joins the queue of its pool at the other end (R116, R540); one for a withdrawn neighbour is discarded
(R542). -/
def turnFlit (s : State) (d k : Nat) (f : Flit × Bool) : State :=
  let nb := (linkPeer s d k).1
  if flitDie f.1 = nb ∧ (getDie s nb).withdrawn then deadFlit s d f.1
  else modLink s d k fun x => { x with tx := tmod (fun _ => []) x.tx (2 * poolOf s d k f.1 + vcBit f.1) (· ++ [f]) }

/-- What waits at the failed end's sender takes the other direction: flits, stream items, and ring snoops with those on the link (R540). -/
def turnBack (s : State) (d k : Nat) : State :=
  let l := getLink s d k
  let under := s.snoops.filter fun n => !n.passed && n.link == k && (linkPeer s (n.dest - 1000) (1 - n.link)).1 == d
  let s := { modLink s d k (fun x => { x with out := true, tx := [], strm := [], coh := [], cohUsed := 0 }) with
             snoops := s.snoops.filter fun n => !under.contains n }
  let s := modLink s d (1 - k) fun x => { x with strm := x.strm ++ l.strm }
  let s := (l.tx.flatMap (·.2)).foldl (fun s f => turnFlit s d (1 - k) f) s
  (under ++ l.coh).foldl turnSnoop s

/-- A link leaves service; every die that two failed links cut off from die 0 is withdrawn (R540). -/
def linkFail (s : State) (d k det : Nat) (info : Word) (inj : Bool) : State :=
  if (getLink s d k).out then s
  else
    let p := linkPeer s d k
    let s := turnBack (turnBack s d k) p.1 p.2
    let t := timeOf s 0
    let s := logDetection s 0 ⟨false, cContained, inj, d, bSys, 2 * d + k, 0x0B, det, 0, t, t, 0, 0, info, 0, 0⟩
    (List.range (nDies s.part)).foldl (fun s x => if reached s x then s else withdrawDie s x) s

/-- LINK_FAILURE (R540). -/
def execLinkFailure (die : Nat) (link : Fin 2) (s : State) : Out := unitDo s die (dieLive s die) (linkFail s die link 0x0405 0 false)

/-! ### Other units (R513, R539) -/

/-- A spar leaves service: its PEs stop, and each running instance ends with RETRY_FAIL (R539). -/
def sparOut (s : State) (g : Nat) : State :=
  let x := getSpar s g
  let tags := x.purges ++ ((x.iq.map (·.flit)) ++ x.arr).filterMap fun f => if flitCls f = 1 then some f.tag else none
  let s := (List.range 9).foldl (fun s p => if (getPe s (peKey g p)).inst.isSome then retryFail (notLeaving s (peKey g p)) (peKey g p) 0 else s) s
  let s := loseCache (purgesDone (modSpar s g fun x => { x with out := true, purges := [] }) tags) g
  if g / 32 = 0 then checkService s else s

/-- A block is forced disabled and counts as out of service. -/
def blkGone (s : State) (d b : Nat) : State :=
  let s := if b = bCoh then loseHomes s d else s
  modDie (setF s d b rBlkCtl 0 0 0) d fun x => { x with blkOut := b :: x.blkOut.filter (· != b) }

/-- The core that a physical pair serves. -/
def coreOfPair (s : State) (d j : Nat) : Option Nat := (firstBelow 8 fun c => pairOf s (8 * d + c) == j).map (8 * d + ·)

/-- The detector's unit: what a fence takes out of service (R513, R517). -/
inductive UnitKind
  | pe (k : Nat) | spar (g : Nat) | pair (j : Nat) | link (k : Nat) | engine (k : Nat) | xform (woad : Bool) (e : Nat)
  | die (d : Nat) | sensor (n : Nat) | block
  deriving DecidableEq, Repr

def unitKind (d b u det : Nat) : UnitKind :=
  match blkKind b with
  | some .clu => if u < 9 then .pe (peKey (gspar d (b - 0x20)) u) else .spar (gspar d (b - 0x20))
  | some .cen => .engine (engKey d (b - 0x40))
  | some .frl => if u < 2 then .xform false u else .block
  | some .wad => if u < 2 then .xform true u else .block
  | some .sys =>
    if det / 256 = 2 then .pair u
    else if det / 256 = 4 ∧ u < 16 then .link (u % 2)
    else if det = 0x0F03 ∨ det = 0x0F10 then .die u else .block
  | some .coh => if u = 0xFF then .block else .die d
  | some .mem => .die d
  | some .mdr => .die d
  | some .pwr => if det = 0x070B then .sensor u else .die d
  | some .clk => .die d
  | _ => .block

/-- Reports of a unit that is out of service are ignored (R513). -/
def unitServes (s : State) (d b : Nat) : UnitKind → Bool
  | .pe k => !(getSpar s (peSpar k)).out && !(getSpar s (peSpar k)).gated && peStat s (peSpar k) (peNo k) == 0
  | .spar g => !(getSpar s g).out && !(getSpar s g).gated
  | .pair j => (coreOfPair s d j).isSome
  | .link k => !(getLink s d k).out
  | .engine k => !(getEng s k).out
  | .xform w e => !(if w then (getXf s d).woadOut else (getXf s d).furlOut).contains e
  | .die x => decide (x < nDies s.part) && !(getDie s x).withdrawn
  | .sensor n => !(getDie s d).sensOut.contains n
  | .block => !(getDie s d).blkOut.contains b

/-- The Madder or the service lines of a die no longer answer after a fault of their own or of the die's power or clock; its
MDR block counts as out of service (R557). -/
def silence (s : State) (d det : Nat) : State :=
  if det = 0x0F02 ∨ det = 0x0F03 ∨ det = 0x0703 ∨ det = 0x0704 ∨ det = 0x0706 ∨ det = 0x0707 then
    modDie s d fun x => { x with blkOut := bMdr :: x.blkOut.filter (· != bMdr) }
  else s

/-- A unit is fenced on a CONTAINED fault that is recorded with `det` (R388, R481, R513, R537, R539, R541); of a temperature sensor that
reports invalid levels R624 makes a record of its own as well. -/
def fenceUnit (s : State) (r : DetReport) (det : Nat) : State :=
  let d := r.die.val
  let b := r.block.toNat
  let u := r.unit.toNat
  let rec' (s : State) (cls act : Nat) := report s d b u det cls act r.addr r.tag r.info r.inj
  match unitKind d b u r.det.toNat with
  | .pe k =>
    let i := (getPe s k).inst
    let addr := w64 (getPe s (leader s k)).chk.pc.toNat
    let x := retirePe s k 1
    match i with
    | some i => report x.1 d b u det cContained (departAction x.2) addr i.tag r.info r.inj
    | none => rec' x.1 cContained (departAction x.2)
  | .spar g => sparOut (rec' s cContained 0x07) g
  | .pair j =>
    match coreOfPair s d j with
    | some c => fencePair s c det r.info r.inj
    | none => s
  | .link k => linkFail s d k det r.info r.inj
  | .engine k => rec' (modEng s k fun e => { e with out := true }) cContained 0x07
  | .xform w e => xformOut (rec' s cContained 0x07) d w e
  | .die x => withdrawDie (silence (rec' s (dieCls x) (dieAct x)) x r.det.toNat) x
  | .sensor n => sensorOut (rec' s cContained 0x07) d n r.info r.inj
  | .block => blkGone (rec' s cContained 0x07) d b

/-- A configuration register's parity is wrong: the block is forced disabled, and a spar leaves service (R539, R567). -/
def parityFault (s : State) (d b w : Nat) (inj : Bool) : State :=
  let x := b * 2 ^ 20 + w
  let s := modDie s d fun y => { y with perr := ⟨x, getReg s d b w, inj⟩ :: y.perr.filter (·.word != x) }
  let s := report (setF s d b rBlkCtl 0 0 0) d b 0xFF 0x0F04 cContained 0x07 0 0 (w64 w) inj
  match blkKind b with
  | some .clu => sparOut s (gspar d (b - 0x20))
  | some .coh => loseHomes s d
  | some .cen => modEng s (engKey d (b - 0x40)) fun e => { e with out := true }
  | some .frl => if heldHv s d false then xformWipe (fun s a l => stores s d a l) s d false else s
  | some .wad => if heldHv s d true then xformWipe (fun s a l => stores s d a l) s d true else s
  | _ => s

/-- CONFIG_PARITY_CHECK: an enabled block checks the parity of its registers (R567). -/
def execConfigParityCheck (die : Nat) (blk : BitVec 8) (s : State) : Out :=
  let b := blk.toNat
  unitDo s die (dieLive s die && (blkKind b).isSome && blkEn s die b)
    (match mismWords s die b with
    | [] => s
    | w :: l =>
      let lo := l.foldl min w
      parityFault s die b lo ((getDie s die).perr.any fun x => x.word == b * 2 ^ 20 + lo && x.inj))

/-! ### Injection (R546, R547) -/

/-- The detector exists with this block and unit (R517, R604, R637). -/
def detExists (s : State) (d det b u : Nat) : Bool :=
  let clu := blkKind b == some .clu
  let cen := blkKind b == some .cen
  let mst := b == bMst && d == 0
  if det = 0x0F04 then (blkKind b).isSome && u == 0xFF
  else if 0x0101 ≤ det ∧ det ≤ 0x0108 ∨ det = 0x0713 then clu && decide (u < 9)
  else if 0x0110 ≤ det ∧ det ≤ 0x0114 ∨ det = 0x0404 then clu && u == 0xFF
  else if 0x0201 ≤ det ∧ det ≤ 0x0204 then b == bSys && decide (u < 9)
  else if 0x0301 ≤ det ∧ det ≤ 0x0303 then b == bCoh && decide (u < 32)
  else if det = 0x0304 ∨ det = 0x0305 then b == bCoh && u == 0xFF
  else if det = 0x0311 ∨ det = 0x0312 then b == bMem && decide (u < 3)
  else if det = 0x0401 ∨ det = 0x0405 then b == bSys && (u == 2 * d || u == 2 * d + 1)
  else if det = 0x0402 then (clu || cen || b == bSys) && u == 0xFF
  else if det = 0x0403 ∨ det = 0x0406 then b == bSch && u == 0xFF
  else if 0x0501 ≤ det ∧ det ≤ 0x0505 then cen && u == 0xFF
  else if det = 0x0601 then b == bFrl && decide (u < 2)
  else if det = 0x0602 then b == bWad && decide (u < 2)
  else if det = 0x0F02 then b == bMdr && u == 0xFF
  else if det = 0x0F03 then b == bSys && decide (u < nDies s.part)
  else if det = 0x0F10 then b == bSys && d == 0 && decide (u < nDies s.part)
  else if det = 0x0F11 then b == bSys && d == 0 && u == 0xFF
  else if det = 0x0703 then b == bPwr && decide (u < 7)
  else if det = 0x0701 ∨ det = 0x0702 ∨ 0x0704 ≤ det ∧ det ≤ 0x0706 then b == bPwr && u == 0xFF
  else if det = 0x0721 then b == bPwr && d == 0 && u == 0xFF
  else if det = 0x0707 ∨ det = 0x0708 then b == bClk && u == 0xFF
  else if det = 0x070A ∨ det = 0x070B then b == bPwr && decide (u < 16)
  else if det = 0x0711 ∨ det = 0x0712 then b == bUmb && decide (u < 64)
  else if det = 0x0714 ∨ det = 0x0715 then b == bUmb && u == 0xFF
  else if 0x0801 ≤ det ∧ det ≤ 0x0804 ∨ det = 0x080A then mst && decide (u < 10)
  else if det = 0x0805 then mst && decide (u < nDies s.part)
  else if 0x0806 ≤ det ∧ det ≤ 0x0809 then mst && u == 0xFF
  else false

/-- Detectors that accept CHECKINV (R517, R637). -/
def checkinvDets : List Nat :=
  [0x0101, 0x0103, 0x0104, 0x0105, 0x0106, 0x0110, 0x0111, 0x0112, 0x0113, 0x0114, 0x0203, 0x0301, 0x0302, 0x0311, 0x0401, 0x0501,
    0x0505, 0x0F04, 0x0705]
/-- Detectors that accept PERTURB (R517, R637). -/
def perturbDets : List Nat := [0x0102, 0x0107, 0x0201, 0x0303, 0x0503, 0x0601, 0x0602, 0x0711, 0x0712, 0x0713]

/-- The reason for which an injection is refused, 0 for none (R547). -/
def injErr (s : State) (d det b u mode : Nat) : Nat :=
  if !detExists s d det b u then 1
  else if (mode = 1 ∧ !checkinvDets.contains det) ∨ (mode = 3 ∧ !perturbDets.contains det) then 2
  else if !unitServes s d b (unitKind d b u det) then 3 else 0

/-- `MDR_INJCTL` is written; GO arms the injection of `MDR_INJTGT` (R546, R547). -/
def injCommand (s : State) (d v : Nat) : State :=
  let s := setReg s d bMdr rMdrInjctl (v % 2 ^ 30)
  if !bitOf v 31 then s
  else if (getDie s d).inj.isSome then reject s d bMdr
  else
    let b := getF s d bMdr rMdrInjtgt 31 24
    let u := getF s d bMdr rMdrInjtgt 23 16
    let e := injErr s d (fld v 15 0) b u (fld v 29 28)
    let s := setF s d bMdr rMdrInjtgt 1 0 e
    if e ≠ 0 then s
    else modDie s d fun x => { x with inj := some ⟨max 1 (fld v 19 16), b, u, fld v 15 0, fld v 29 28, fld v 27 20⟩ }

/-- MDR_INJCTL (R546). -/
def execMdrInjctl (die : Nat) (value : Csr) (s : State) : Out := regDo s die bMdr rMdrInjctl (dieLive s die) (injCommand s die value.toNat)

/-- What CHECKINV of a store with parity (R337, R517) and of one with SEC-DED check bits can have made a detector find: of a parity store
bit 0 of MASK is inverted, one inverted SEC-DED bit is corrected and two are not; what more inverted bits give is open (R546). -/
def checkinvFits (j : Inject) (found : Finding) : Bool :=
  if j.det = 0x0101 ∨ j.det = 0x0105 ∨ j.det = 0x0106 ∨ j.det = 0x0F04 then bitOf j.mask 0
  else
    match popcount 8 j.mask with
    | 0 => false
    | 1 => found == .corrected
    | 2 => found != .corrected
    | _ => true

/-- An injected report matches what is armed: its target, and the form that its mode gives (R546). -/
def injFits (j : Inject) (r : DetReport) : Bool :=
  j.block == r.block.toNat && j.unit == r.unit.toNat && j.det == r.det.toNat &&
    (match r.found with
    | .wire n => j.mode == 2 && n == max 1 j.mask
    | x => j.mode != 2 && (j.mode != 1 || checkinvFits j x)) && (j.mode != 0 || r.info == 0)

/-! ### The report of a detector (R513, R517) -/

/-- Words in error become poisoned (R325). -/
def poisonList (s : State) (l : List (BitVec 49)) : State := l.foldl (fun s a => poisonWords s a.toNat 1) s

/-- Reports of a PE's detectors (R312, R337, R524 to R527, R533). -/
def peReport (s : State) (r : DetReport) (k : Nat) : State :=
  let d := r.die.val
  let b := r.block.toNat
  let det := r.det.toNat
  let note (s : State) (cls act : Nat) := report s d b (peNo k) det cls act r.addr r.tag r.info r.inj
  match r.found with
  | .corrected => note s cCorrected 0x00
  | .late => escalate s k det 0 r.info r.inj
  | .words l => note (poisonList s l) cDeferred 0x05
  | .output n tagOk =>
    report (modPe s k fun p => { p with out := dropAt p.out n }) d b (peNo k) det cDeferred 0x06 r.addr
      (if tagOk then r.tag else 0) r.info r.inj
  | .heldOutput => transient s k det 1 r.info r.inj
  | .line la =>
    note (modPe s k fun p => { p with l1d := p.l1d.filter fun l => l.line != la.toNat, l1i := p.l1i.filter (· != la.toNat) })
      cCorrected 0x00
  | _ =>
    if det = 0x0103 then escalate s k det 0 r.info r.inj
    else if det = 0x0105 then note s cCorrected 0x00
    else if det = 0x0106 then
      let s := note s cDeferred 0x00
      let l := leader s k
      peTrap s l 0 tPoison 0 r.addr.toNat (getPe s l).regs.pc.toNat
    else if det = 0x0108 then note (retirePe s k 0).1 cContained 0x07
    else transient s k det 0 r.info r.inj

/-- An entry of the matching store is discarded with its operands (R97). -/
def storeLoss (s : State) (r : DetReport) (g key : Nat) : State :=
  match tget noMatch (getSpar s g).store key with
  | some m =>
    let s := countCluN (modSpar s g fun x => { x with store := tset noMatch x.store key none }) g rCluOrphcnt (operandCount m)
    report s (g / 32) r.block.toNat 0xFF 0x0110 cDeferred 0x06 r.addr (w64 (m.key * 32)) r.info r.inj
  | none => s

/-- A transient report of the decimal sequencer: it is recorded, and the scope of the requesting PE is run again, its retry merging into that
record (R250, R449, R521, R524). -/
def decimalReport (s : State) (r : DetReport) (g : Nat) : State :=
  let s := report s (g / 32) r.block.toNat 0xFF 0x0112 cDeferred 0x00 r.addr r.tag r.info r.inj
  match (getSpar s g).decRun with
  | some j => if j.live then transient s (peKey g j.pe) 0x0112 0 r.info r.inj else s
  | none => s

/-- A clean line of an L2 is in error: it is invalidated and read again from the next level (R337). A line of an LLC slice goes with
the copies that it tracks, which the slice invalidates, and comes back from memory; DEDUCED (log 80): while a transaction or a hold is on
the line, that ends first. -/
def rereadLine (s : State) (d b u la : Nat) : State :=
  let again (c : Nat) : State := let s := loseLine s c la; (lineForRead s c la).getD s
  match blkKind b with
  | some .clu => again (gspar d (b - 0x20))
  | some .sys => ((coreOfPair s d u).map fun c => again (256 + c)).getD s
  | some .coh =>
    let t := (serveAhead 4 (endHolds s la) la).getD s
    (((llcLine t la).bind fun l => snoopPass t la l true none (snoopTargets t la l none)).bind fun r => fetchLine (setLlc r.2 la none) la).getD t
  | _ => s

/-- Reports of the other units (R95, R97, R328, R337, R367, R443, R449, R517, R637). -/
def unitReport (s : State) (r : DetReport) : State :=
  let d := r.die.val
  let b := r.block.toNat
  let u := r.unit.toNat
  let det := r.det.toNat
  let note (s : State) (cls act : Nat) := report s d b u det cls act r.addr r.tag r.info r.inj
  let flit := det = 0x0110 ∨ det = 0x0111 ∨ det = 0x0401 ∨ det = 0x0505
  match r.found with
  | .corrected =>
    let s := if flit then countF s d bSch rSchFlitcnt 15 0 1
      else if det = 0x0501 then count s d b rCenStcecnt
      else if det = 0x0311 then count s d bMem (rMemCecnt + u) else s
    note s cCorrected 0x00
  | .words l => note (poisonList (if det = 0x0311 then count s d bMem (rMemUecnt + u) else s) l) cDeferred 0x05
  | .line la => note (rereadLine s d b u la.toNat) cCorrected 0x00
  | .entry k => storeLoss s r (gspar d (b - 0x20)) k
  | _ =>
    if det = 0x0F04 then parityFault s d b (wfld r.info 19 0) r.inj
    else if det = 0x0112 ∧ r.found = .error then decimalReport s r (gspar d (b - 0x20))
    else if (det = 0x0112 ∨ det = 0x0501) ∧ r.found = .storeWord true then note s cCorrected 0x00
    else if det = 0x0111 ∨ det = 0x0401 ∨ det = 0x0505 then note (countF s d bSch rSchFlitcnt 31 16 1) cDeferred 0x06
    else if det = 0x0110 ∨ det = 0x0402 ∨ det = 0x0403 ∨ det = 0x0406 ∨ det = 0x0504 ∨ det = 0x0305 then note s cDeferred 0x06
    else if det = 0x0303 then note s cDeferred 0x05
    else if det = 0x0304 ∨ det = 0x0404 ∨ det / 16 = 0x71 ∨ 0x0801 ≤ det ∧ det ≤ 0x0804 ∨ det = 0x0809 ∨ det = 0x080A then note s cDeferred 0x00
    else if det = 0x0114 ∨ det = 0x0302 ∨ det = 0x0705 ∨ det = 0x070B then note s cCorrected 0x00
    else if det = 0x0311 then note (count s d bMem (rMemUecnt + u)) cDeferred 0x05
    else if det = 0x0204 then
      let s' := fenceUnit s r det
      setPairStat s' d u 3
    else if det = 0x0721 ∨ det = 0x0805 ∨ det = 0x0806 then note s cContained 0x00
    else if det = 0x0808 then blkGone (note s cContained 0x07) d b
    else if det = 0x0701 ∨ det = 0x0702 ∨ det = 0x070A ∨ det = 0x0807 ∨ det = 0x0F11 then note s cFatal 0x0C
    else if det = 0x0708 then note (setF s d bClk rClkStat 30 30 0) cFatal 0x0C
    else if det = 0x0707 then fenceUnit (setF s d bClk rClkStat 31 31 0) r det
    else if det = 0x0F10 then costDie s u r.inj
    else fenceUnit s r det

/-- A dual-rail pair that is invalid for 1 or 2 cycles is counted; a longer time is a wire fault (R513). -/
def wireReport (s : State) (r : DetReport) (n : Nat) : State :=
  let det := r.det.toNat
  if n = 0 then s
  else if n ≤ 2 then count s r.die.val bMdr rMdrGlitchcnt
  else if det = 0x0701 ∨ det = 0x0702 ∨ det = 0x0708 ∨ det = 0x070A ∨ det = 0x0807 ∨ det = 0x0F11 then
    report s r.die.val r.block.toNat r.unit.toNat 0x0F01 cFatal 0x0C r.addr r.tag r.info r.inj
  else fenceUnit s r 0x0F01

end Sys2Proof.Machine
end

