-- ==== Sys2Proof/Machine/Power.lean ====
section
/-! DEFINITION. Power, clocks, reef levels, temperature, ageing and gating (spec 20: R607 to R639; 21: R645 to R647, R663). -/

namespace Sys2Proof.Machine

/-- The die is populated and in service, whether or not the package is fenced. -/
def dieUp (s : State) (d : Nat) : Bool := decide (d < nDies s.part) && !(getDie s d).withdrawn
def upDies (s : State) : List Nat := (List.range (nDies s.part)).filter (dieUp s)
/-- A source raised on every die in service. -/
def raiseAll (s : State) (k : Nat) : State := (upDies s).foldl (fun s d => evRaise s d k) s
/-- A command at the power unit of a die (R639: whatever `EN` holds). -/
def powerDo (s : State) (d : Nat) (t : State) : Out := unitDo s d (dieUp s d) t
/-- The Masthead works: AUX is present, RESET_N deasserted, and no fault has taken it (R31, R607). -/
def mstUp (s : State) : Bool := s.pw.aux && !s.mst.resetN && mastheadUp s

/-! ### The start level and step (R577, R591) -/

def startStep (s : State) : Nat := getF s 0 bMst rMstStartstat 3 0
def startLevel (s : State) : Nat := getF s 0 bMst rMstStartstat 18 16
def setStep (s : State) (n : Nat) : State := setF s 0 bMst rMstStartstat 3 0 n
/-- LEVEL is shown; where it leaves STARTING a cause waits at the I3C port (R658). -/
def setLevel (s : State) (n : Nat) : State :=
  setF { s with i3c := { s.i3c with causes := s.i3c.causes ||| 8 } } 0 bMst rMstStartstat 18 16 n

/-- The start has come to step 14, or has ended in bare poles or without service (R577, R591). -/
def started (s : State) : Bool := decide (14 ≤ startStep s) || startLevel s != 0

/-! ### What survives a reset and a loss of power -/

/-- The ledger device keeps the journal regions: their rings and control blocks (R380, R386). -/
def keptChans (s : State) : Tab Chan :=
  (s.chans.map fun e => (e.1, { Chan.init with ctlA := e.2.ctlA, ctlB := e.2.ctlB, slots := e.2.slots })).filter
    fun e => e.2 != Chan.init
/-- Every die keeps its Madder log alone (R520). -/
def keptDies (s : State) : Tab Die :=
  (s.dies.map fun e => (e.1, { Die.init with log := e.2.log })).filter fun e => e.2 != Die.init
/-- Registers of the sealed-standby domain (R613 to R615). -/
def standbyReg (i : Nat) : Bool :=
  let w := fld i 19 0
  fld i 30 28 == 0 && fld i 27 20 == bPwr && (w == rPwrRtcHi || w == rPwrRtcLo || w == rPwrTamper)
/-- `MDR_WPTR`, which goes with the log. -/
def logReg (i : Nat) : Bool := fld i 27 20 == bMdr && fld i 19 0 == rMdrWptr
/-- Registers of die 0 that run from AUX: its Madder and the Masthead (R607). -/
def auxReg (i : Nat) : Bool := fld i 30 28 == 0 && (fld i 27 20 == bMdr || fld i 27 20 == bMst)
def keepRegs (s : State) (p : Nat → Bool) : Tab Csr := s.csr.filter fun e => p e.1
/-- Memory behind the root ports, which keeps its contents without VIN48 (R385, R649). -/
def cxlMem (s : State) : List Host.Cell := s.mem.filter fun c => c.1 / 8 / 2 ^ 46 == 1
def cxlPoison (s : State) : Tab Bool := s.poison.filter fun c => c.1 / 2 ^ 46 == 1

/-- The update command and the programming of a fuse that run when the Masthead stops are cut off: what they had written by then is free
(R598, R599, R602). -/
def cutJobs (s : State) : State :=
  let s := match s.mst.job with
    | some j => if cmdRuns s 0 bMst rMstUpdcmd 0 then flCut s j else s
    | none => s
  match s.mst.fuseJob with
  | some old =>
    if cmdRuns s 0 bFus rFusProg 0 then
      let f := takeFree s
      let n := f.2.fuses
      if wbit f.1 0 then { f.2 with fuses := { old with dbg := old.dbg + wfld f.1 9 8 % (n.dbg - old.dbg + 1), history := n.history } } else f.2
    else s
  | none => s

/-- What no loss of power takes: the part, its fuses, the flash, the journals, and what has already left the part. -/
def keptAlways (s : State) : State :=
  { State.reset with
    part := s.part, flash := s.flash, fuses := s.fuses, chans := keptChans s, mem := cxlMem s, poison := cxlPoison s, vault := s.vault,
    straps := s.straps, given := s.given, fresh := s.fresh, useStamp := s.useStamp, pending := s.pending }

/-- VIN48 has gone: what the dies held is lost; the Masthead, the ports and die 0's Madder run on from AUX (R607, R612). -/
def loseDies (s : State) : State :=
  { keptAlways s with
    csr := keepRegs s fun i => standbyReg i || logReg i || auxReg i
    dies := keptDies s
    mst := { s.mst with pwrok := false }, pw := { s.pw with hv := false, warned := false, alarm := s.pw.alarm, level2 := false, reef := .steady }
    fusesIn := s.fusesIn, ageDue := s.ageDue, ageHeld := s.ageHeld, tap := s.tap, spi := s.spi, i3cPort := s.i3cPort, spiDead := s.spiDead, portCnt := s.portCnt, i3c := s.i3c
    rawHalt := s.rawHalt, fatal := s.fatal, pulse := s.pulse }

/-- The HV stages stop: the rails discharge (R612, R628). -/
def stopHv (s : State) : State := if s.pw.hv then loseDies s else s

/-- The start returns to step 5, with its exclusions (R579). -/
def backToFive (s : State) : State :=
  if s.fatal ∨ startStep s < 5 ∨ started s then s else setStep (loseDies s) 5

/-! ### Power-fail warning and loss of VIN48 (R610 to R612) -/

/-- The warning comes into force on every die (R385, R610). -/
def warn (s : State) : State :=
  let s := { s with pw := { s.pw with warned := true }, i3c := { s.i3c with causes := s.i3c.causes ||| 4 } }
  let s := raiseAll ((upDies s).foldl (fun s d => setF s d bChn rChnStat 31 31 1) s) 0xC00
  (upDies s).foldl (fun s d => (List.range 16).foldl (fun s e => if engUp s (engKey d e) then evPush s (engKey d e) 6 0 0 else s) s) s

/-- A cause of R610: after step 14 the warning, before it the start returns to step 5 (R579). -/
def powerFail (s : State) : WarnCause → State
  | .pfwN =>
    let s := if s.pw.warned then s else evRaise s 0 0xC47
    if started s then (if s.pw.warned then s else warn s) else backToFive s
  | .vinLow => if started s ∧ s.pw.hv then (if s.pw.warned then s else warn s) else s
  | .pwrokLow =>
    let s := { s with mst := { s.mst with pwrok := false } }
    if started s then (if s.pw.warned then s else warn s) else backToFive s

/-- POWER_FAIL_WARNING (R385, R610). -/
def execPowerFailWarning (cause : WarnCause) (s : State) : Out :=
  .next (if s.pw.aux && !s.mst.resetN then powerFail s cause else s)

/-- The held transform blocks of every die lose their state with the power (R564, R636); a FATAL fence has done so before. -/
def heldLost (s : State) : State := if s.fatal then s else heldAll s

/-- VIN48_LOSS: VIN48 falls below 38.0 V; `warnedEarly` says that a warning came at least 2 ms before (R612, R637). -/
def execVin48Loss (warnedEarly : Bool) (s : State) : Out :=
  .next
    (if !s.pw.hv then s
     else if started s ∨ s.fatal then
       stopHv (heldLost (if s.pw.warned && warnedEarly then s else report s 0 bPwr 0xFF 0x0701 cFatal 0x0C 0 0 0))
     else backToFive s)

/-! ### The sealed-standby domain (R613 to R615) -/

/-- Every slot of the vault is EMPTY; the zeroisation is counted, and recorded where AUX is present (R615). -/
def zeroise (s : State) (cause : Nat) : State :=
  let n := getF s 0 bPwr rPwrTamper 31 24
  let s := setF (setF { s with vault := [] } 0 bPwr rPwrTamper 31 24 (satAdd 8 n 1)) 0 bPwr rPwrTamper 23 20 cause
  if s.pw.aux then evRaise (report s 0 bPwr 0xFF 0x0721 cContained 0x00 0 0 (w64 cause)) 0 0xC08
  else { s with pw := { s.pw with unseen := s.pw.unseen ++ [cause] } }

/-- The domain receives power: one that had lost all of it finds cause 0x5, and its clock shows a free value (R614, R615). -/
def domainPower (s : State) : State :=
  if s.pw.domainLost then
    let f := takeFree { s with pw := { s.pw with domainLost := false } }
    zeroise (setReg (setReg f.2 0 bPwr rPwrRtcHi (wfld f.1 47 32)) 0 bPwr rPwrRtcLo (wfld f.1 31 0)) 5
  else s

/-- The code of a cause (R615). -/
def tamperCode : TamperCause → Nat
  | .mesh => 1
  | .vbatLow => 2
  | .temperature => 3
  | .oscillator => 4

/-- TAMPER_ZEROISE: a cause that the tamper monitor finds while its domain has power; VBAT counts only without AUX (R615). -/
def execTamperZeroise (cause : TamperCause) (s : State) : Out :=
  .next (if s.pw.domainLost ∨ (cause = .vbatLow ∧ s.pw.aux) then s else zeroise s (tamperCode cause))

/-- AUX_LOSS: the domain switches to VBAT, or loses all power; all else that AUX feeds is lost, the logs among it (R520, R613,
R655). Without AUX it says what has become of VBAT, with which a domain without power receives it again (R615). -/
def execAuxLoss (vbat : Bool) (s : State) : Out :=
  .next
    (if s.pw.aux then
       let s := cutJobs s
       { keptAlways s with
         csr := keepRegs s standbyReg
         vault := if vbat then s.vault else []
         rawHalt := s.rawHalt
         pw := { Power.init with aux := false, domainLost := !vbat, unseen := s.pw.unseen, rtcHeld := s.pw.rtcHeld, alarm := s.pw.alarm } }
     else if vbat then domainPower s
     else { s with vault := [], pw := { s.pw with domainLost := true } })

/-- AUX_RESTORE: the domain runs from AUX again (R613 to R615). -/
def execAuxRestore (s : State) : Out :=
  .next (if s.pw.aux then s else domainPower { s with pw := { s.pw with aux := true } })

/-- A write of `PWR_RTC_LO` sets the whole count (R614, R639). -/
def rtcWrite (s : State) (lo : Nat) : State := setReg (setReg s 0 bPwr rPwrRtcHi (s.pw.rtcHeld % 2 ^ 16)) 0 bPwr rPwrRtcLo lo
/-- PWR_RTC_WRITE (R614). -/
def execPwrRtcWrite (value : Csr) (s : State) : Out := regDo s 0 bPwr rPwrRtcLo (dieUp s 0) (rtcWrite s value.toNat)
/-- `COUNT` and `LAST` are cleared (R639). -/
def tamperClear (s : State) : State := setF s 0 bPwr rPwrTamper 31 20 0
/-- PWR_TAMPER_CLR (R639). -/
def execPwrTamperClr (s : State) : Out := regDo s 0 bPwr rPwrTamper (dieUp s 0) (tamperClear s)

/-! ### Reef levels and limits (R620 to R623, R626, R627) -/

/-- A spar runs topsail without leave for full sail (R621). -/
def topLimit (s : State) : Nat :=
  b2n (getF s 0 bPwr rPwrMode 31 31 == 0 &&
    (upDies s).any fun d => (List.range 32).any fun n => getF s d (bClu n) rCluPectl 31 31 == 1)

/-- The margin cap: the slowest of the dies (R621, R631). -/
def marginCap (s : State) : Nat := ((upDies s).map fun d => (getDie s d).cap).foldl max 0

/-- The level that R621 computes. -/
def reefTarget (s : State) : Nat :=
  [min 2 (getF s 0 bPwr rPwrReef 1 0), getF s 0 bPwr rPwrReef 7 6, getF s 0 bPwr rPwrReef 9 8, marginCap s, topLimit s,
    2 * b2n s.pw.warned].foldl max 0

/-- Every die switches its PCLK and CCLK dividers (R616, R622). -/
def setDividers (s : State) (eff : Nat) : State :=
  (upDies s).foldl (fun s d => setF (setF s d bClk rClkStat 19 16 (4 + eff)) d bClk rClkStat 15 12 (2 + eff)) s

/-- An offset in `UMB_OFFSET`, in steps of 2.5 mV. -/
def offsetOf (s : State) (d rail : Nat) : Nat := getF s d bUmb rUmbOffset (5 * rail + 4) (5 * rail)

/-- The target of a rail at a reef level, in units of 0.1 mV, before the Umber offset: 0 VCORE, 1 VSUP, 2 VUNC, 3 VSRAM (R607, R617). -/
def railBase (eff : Nat) : Nat → Nat
  | 0 => if eff = 0 then 8500 else if eff = 1 then 7600 else 7000
  | 1 => if eff = 0 then 9000 else if eff = 1 then 8000 else 7200
  | 2 => 7500
  | _ => 8500

/-- The targets of a die's rails at a reef level, with the offsets (R617, R629). -/
def railsAt (s : State) (eff d : Nat) : State :=
  modDie s d fun x => { x with rails := (List.range 4).map fun r => railBase eff r + 25 * offsetOf s d r }
/-- The targets of a die's rails at the effective level. -/
def setRails (s : State) (d : Nat) : State := railsAt s (getF s 0 bPwr rPwrReef 5 4) d

/-- A change of rank 1 or 2 is due: a slower level for a warning, or for the thermal or power limit (R623). -/
def slowDue (s : State) : Bool :=
  decide (getF s 0 bPwr rPwrReef 5 4 < max (2 * b2n s.pw.warned) (max (getF s 0 bPwr rPwrReef 7 6) (getF s 0 bPwr rPwrReef 9 8)))

/-- The dividers switch, `EFF` takes the level, and the source is raised (R622). -/
def switchTo (s : State) (t : Nat) : State := evRaise (setF (setDividers s t) 0 bPwr rPwrReef 5 4 t) 0 0xC01
def reefIn (s : State) (p : ReefPhase) : State := { s with pw := { s.pw with reef := p } }

/-- A change of the effective level goes one step on (R622, R623). It begins with the level that R621 gives: for a faster one the voltages of
every die rise, for a slower one the dividers switch. A faster one is complete when its dividers switch, and is abandoned for a slower one of
rank 1 or 2; a slower one is complete when the voltages have been lowered. -/
def reefStep (s : State) : State :=
  let eff := getF s 0 bPwr rPwrReef 5 4
  let t := reefTarget s
  match s.pw.reef with
  | .steady =>
    if t = eff then s
    else if t < eff then reefIn ((upDies s).foldl (fun s d => railsAt s t d) s) (.raised t)
    else reefIn (switchTo s t) .lowering
  | .raised n => if slowDue s then reefIn (switchTo s t) .lowering else reefIn (switchTo s n) .steady
  | .lowering => reefIn ((upDies s).foldl setRails s) .steady

/-- A change from its beginning to its end. -/
def reefChange (s : State) : State := reefStep (reefStep s)

/-- REEF_CHANGE (R622). -/
def execReefChange (s : State) : Out := .next (if s.pw.hv && dieUp s 0 then reefStep s else s)

/-- PWR_REEF_WRITE (R621, R623). -/
def execPwrReefWrite (req : BitVec 2) (s : State) : Out :=
  regDo s 0 bPwr rPwrReef (dieUp s 0) (parityWrite (setF s 0 bPwr rPwrReef 1 0 req.toNat) 0 bPwr rPwrReef)

/-- Entry to a level: `L1` or `L2` counts on every die, and the source is raised (R626). -/
def enterThermal (s : State) (two : Bool) : State :=
  let lo := if two then 0 else 16
  raiseAll ((upDies s).foldl (fun s d => countF s d bPwr rPwrEvcnt (lo + 15) lo 1) s) (if two then 0xC04 else 0xC02)

/-- Level 2 is entered (R626). -/
def enterTwo (s : State) : State :=
  if s.pw.level2 then s else enterThermal { s with pw := { s.pw with level2 := true } } true

/-- 1 ms at or above THROT: the thermal limit rises, or level 2 is entered (R626). -/
def hotStep (s : State) : State :=
  let l := getF s 0 bPwr rPwrReef 7 6
  if l < 2 then
    let s := setF s 0 bPwr rPwrReef 7 6 (l + 1)
    if l = 0 then enterThermal s false else s
  else enterTwo s

/-- 10 ms at or below THROT - 5 °C: level 2 ends unless the alarm holds it, and the thermal limit falls (R626). -/
def coolStep (s : State) : State :=
  let s := if s.pw.level2 && !s.pw.alarm then raiseAll { s with pw := { s.pw with level2 := false } } 0xC05 else s
  let l := getF s 0 bPwr rPwrReef 7 6
  if l = 0 then s
  else
    let s := setF s 0 bPwr rPwrReef 7 6 (l - 1)
    if l = 1 then raiseAll s 0xC03 else s

/-- THERMAL_LEVEL_STEP (R626). -/
def execThermalLevelStep (hot : Bool) (s : State) : Out :=
  .next (if s.pw.hv && mstUp s then (if hot then hotStep s else coolStep s) else s)

/-- POWER_LIMIT_STEP: the power limit rises or falls by one level (R627). -/
def execPowerLimitStep (above : Bool) (s : State) : Out :=
  let l := getF s 0 bPwr rPwrReef 9 8
  .next (if s.pw.hv && mstUp s then setF s 0 bPwr rPwrReef 9 8 (if above then min 2 (l + 1) else l - 1) else s)

/-- A raw input changes: a pair whose copies sample it themselves diverges and is fenced (R355); what it differs in is free. -/
def rawChange (s : State) (bit : Nat) : State :=
  (List.range 64).foldl (fun s c =>
    if supLive s c && wbit (spr s c zDbgctl) bit then
      let f := takeFree s
      fencePair f.2 c 0x0201 f.1
    else s) s

/-- The thermal alarm contact takes a level: the copies of a pair sample it themselves (R355). -/
def alarmInput (s : State) (on : Bool) : State :=
  if s.pw.alarm = on then s else rawChange { s with pw := { s.pw with alarm := on } } 1

/-- THRMALRT_N_ASSERT (R355, R626, R646, R663). -/
def execThrmalrtNAssert (s : State) : Out :=
  .next (if mstUp s && !s.pw.alarm then enterTwo (evRaise (alarmInput s true) 0 0xC40) else alarmInput s true)

/-- THRMALRT_N_DEASSERT (R355, R626, R663). -/
def execThrmalrtNDeassert (s : State) : Out :=
  .next (if mstUp s && s.pw.alarm then evRaise (alarmInput s false) 0 0xC41 else alarmInput s false)

/-! ### Thermal trip and sensors (R624, R628) -/

/-- THERMTRIP: the package is fenced, THERMTRIP_N asserted, and the HV stages stop (R628). -/
def thermTrip (s : State) (d sensor : Nat) (info : Word) (inj : Bool) : State :=
  let s := report s d bPwr sensor 0x070A cFatal 0x0C 0 0 info inj
  stopHv { s with pw := { s.pw with trip := true } }

/-- THERMTRIP (R628). -/
def execThermtrip (die : Nat) (sensor : Fin 16) (s : State) : Out := powerDo s die (if s.pw.hv then thermTrip s die sensor 0 false else s)

/-- THERMTRIP_N is asserted (R628, R647). -/
def thermtripN (s : State) : Bool := s.pw.aux && !s.mst.resetN && s.pw.trip

/-- SENSOR_OUT_OF_USE (R624). -/
def execSensorOutOfUse (die : Nat) (sensor : Fin 16) (s : State) : Out := powerDo s die (sensorOut s die sensor 0 false)

/-! ### Umber (R629 to R634) -/

/-- The rails whose offsets Umber plans: 0 VCORE, 1 VSUP, 2 VUNC, 3 VSRAM, with their monitors (R629). -/
def railMonitors : Nat → List Nat
  | 0 => List.range 32
  | 1 => (List.range 9).map (32 + ·)
  | 2 => (List.range 16).map (41 + ·)
  | _ => (List.range 4).map (57 + ·)

/-- The voltage change of an offset waits for one that goes before it: one under way, one of rank 1 or 2, and for a re-plan any change of the
level that is due (R623). The rails then follow the offsets with that change. -/
def offsetWaits (s : State) (margin : Bool) : Bool :=
  s.pw.reef != .steady || slowDue s || (!margin && reefTarget s != getF s 0 bPwr rPwrReef 5 4)

/-- An offset takes a value, and the rail its target, for a margin raise or a re-plan (R623). -/
def setOffset (s : State) (d rail v : Nat) (margin : Bool) : State :=
  let t := setF s d bUmb rUmbOffset (5 * rail + 4) (5 * rail) v
  if offsetWaits s margin then t else setRails t d

/-- The baseline of a monitor. -/
def baseN85 (s : State) (d m : Nat) : Nat := getF s d bUmb (rUmbMon + m) 31 16

/-- A reference monitor reads within 2 % of its baseline (R630). -/
def refGood (s : State) (d m n : Nat) : Bool :=
  let b := baseN85 s d m
  decide (100 * (n - b) ≤ 2 * b) && decide (100 * (b - n) ≤ 2 * b)

/-- A sample of a die's monitors (R630). -/
def takeSample (s : State) (d : Nat) (reads : List Nat) (inj : Bool) : State :=
  let s := (List.range 64).foldl (fun s m => setF s d bUmb (rUmbMon + m) 15 0 (reads.getD m 0)) s
  ([61, 62, 63].find? fun m => !refGood s d m (reads.getD m 0)).elim
    (countF (modDie s d fun x => { x with samples := x.samples ++ [(List.range 64).map fun m => reads.getD m 0] }) d bUmb rUmbStat 15 8 1)
    fun m => report s d bUmb m 0x0711 cDeferred 0x00 0 0 0 inj

/-- A sample of a die's monitors; an armed PERTURB makes reference monitor 61 read 4 % low in it (R546, R637). -/
def sampleDie (s : State) (d : Nat) (reads : List Nat) : State :=
  match armed s d 0x0711 bUmb 61 3 with
  | none => takeSample s d reads false
  | some _ => takeSample (injUse s d) d ((List.range 64).map fun m => if m = 61 then reads.getD m 0 * 96 / 100 else reads.getD m 0) true

/-- UMBER_SAMPLE (R630). -/
def execUmberSample (reads : List (List (BitVec 16))) (s : State) : Out :=
  .next (if s.pw.hv && mstUp s then (upDies s).foldl (fun s d => sampleDie s d ((reads.getD d []).map (·.toNat))) s else s)

/-- `UMB_CMD` with GO (R566, R639). -/
def umbGo (s : State) (d op : Nat) (effect : State → State) : State :=
  let fields (s : State) : State := setF s d bUmb rUmbCmd 29 28 op
  startCmd s d bUmb rUmbCmd 0 fields fun s => if s.pw.hv && mstUp s then effect (fields s) else fields s

/-- A sample that software asks for (R639). -/
def sampleNow (s : State) (d : Nat) (reads : List (BitVec 16)) : State :=
  umbGo s d 1 fun s => sampleDie s d (reads.map (·.toNat))
/-- UMB_SAMPLE_NOW (R639). -/
def execUmbSampleNow (die : Nat) (reads : List (BitVec 16)) (s : State) : Out := regDo s die bUmb rUmbCmd (dieUp s die) (sampleNow s die reads)

/-- The median of a list of readings; between the two middle ones of an even number it is free (R632). -/
def medianOf (l : List Nat) (f : Nat) : Nat :=
  let t := sortBy id l
  let n := t.length
  let a := t.getD (n / 2 - 1) 0
  let b := t.getD (n / 2) 0
  if n % 2 = 1 then b else a + f % (b - a + 1)

/-- The medians of the day's samples, for every monitor. -/
def medians (s : State) (d : Nat) : List Nat × State :=
  (List.range 64).foldl (fun p m =>
    let f := takeFree p.2
    (p.1 ++ [medianOf ((getDie s d).samples.map fun r => r.getD m 0) f.1.toNat], f.2)) ([], s)

/-- d(m): the slowing of a monitor in units of 0.01 % (R632). -/
def slowing (base med : Nat) : Nat := (base - med) * 10000 / base

/-- The offset that a rail needs (R632). -/
def railNeed (s : State) (d rail : Nat) (med : List Nat) : Nat :=
  let worst := ((railMonitors rail).map fun m => slowing (baseN85 s d m) (med.getD m 0)).foldl max 0
  (worst * getF s d bUmb rUmbCfg 31 24 + 2499) / 2500 + getF s d bUmb rUmbCfg 23 16

/-- A REPLAN record of a die's offsets and cap (R633). -/
def replanRec (s : State) (d : Nat) (med : List Nat) : AgeRec := ⟨2, d, med, getReg s d bUmb rUmbOffset, (getDie s d).cap, 0, 0, 0⟩
/-- A record waits for the Masthead to append it to the ageing log. -/
def ageWant (s : State) (r : AgeRec) : State := { s with ageDue := s.ageDue ++ [r] }
/-- A re-plan comes: the records whose write failed are due again (R633). -/
def ageAgain (s : State) : State := { s with ageDue := s.ageHeld ++ s.ageDue, ageHeld := [] }

/-- A die's offsets are planned again from the day's valid samples (R632). -/
def replanDie (s : State) (d : Nat) : State :=
  let s := countF s d bUmb rUmbStat 31 16 1
  if (getDie s d).samples = [] then evRaise s d 0xC06
  else
    let m := medians s d
    let s := (List.range 4).foldl (fun s r => setOffset s d r (min 24 (max (offsetOf s d r) (railNeed s d r m.1))) false) m.2
    evRaise (ageWant s (replanRec s d m.1)) d 0xC06

/-- DAILY_REPLAN: every die is planned again and a new day begins (R632). -/
def execDailyReplan (s : State) : Out :=
  .next
    (if s.pw.hv && mstUp s then
       (upDies s).foldl (fun s d => setF (modDie (replanDie s d) d fun x => { x with samples := [] }) d bUmb rUmbStat 15 8 0) (ageAgain s)
     else s)

/-- A re-plan that software asks for (R639). -/
def replanNow (s : State) (d : Nat) : State := umbGo s d 2 fun s => replanDie (ageAgain s) d
/-- UMB_REPLAN_NOW (R639). -/
def execUmbReplanNow (die : Nat) (s : State) : Out := regDo s die bUmb rUmbCmd (dieUp s die) (replanNow s die)

/-- The margin cap rises by one level and is kept in the ageing log; past second reef the die is lost (R631). -/
def capRise (s : State) (d u : Nat) (info : Word) (inj : Bool) : State :=
  if (getDie s d).cap < 2 then
    let s := modDie s d fun x => { x with cap := x.cap + 1 }
    let s := report s d bUmb u 0x0712 cDeferred 0x00 0 0 info inj
    let m := medians s d
    ageWant m.2 (replanRec m.2 d (if (getDie s d).samples = [] then (List.range 64).map fun m => baseN85 s d m else m.1))
  else costDie s d

/-- A PE leaves service with a margin failure, once its instance has ended (R533, R534, R631). -/
def marginFail (s : State) (k : Nat) (info : Word) (inj : Bool) : State :=
  let d := peDie k
  if (getPe s k).inst.isSome then modPe s k fun p => { p with leaving := some 0x0713 }
  else if peStat s (peSpar k) (peNo k) ≠ 0 then s
  else
    let r := departTest s k true
    report r.1 d (bClu (peSpar k % 32)) (peNo k) 0x0713 (if r.2 then cCorrected else cDeferred) (departAction r.2) 0 0 info inj

/-- A rail takes one more step for a canary, where it is below 24 (R630). -/
def canaryStep (s : State) (d rail b u det : Nat) (info : Word) (inj : Bool) : State :=
  report (evRaise (setOffset s d rail (offsetOf s d rail + 1) true) d 0xC07) d b u det cCorrected 0x00 0 0 info inj

/-- A canary limit is exceeded (R630, R631). -/
def canaryLimit (s : State) (d : Nat) (info : Word) (inj : Bool) : CanaryAt → State
  | .pe n p =>
    let k := peKey (gspar d n) p
    if offsetOf s d 0 < 24 then canaryStep s d 0 (bClu n) p 0x0713 info inj else marginFail s k info inj
  | .pair j => if offsetOf s d 1 < 24 then canaryStep s d 1 bUmb (32 + j) 0x0712 info inj else capRise s d (32 + j) info inj
  | .uncore r => if offsetOf s d 2 < 24 then canaryStep s d 2 bUmb (41 + r) 0x0712 info inj else capRise s d (41 + r) info inj

/-- The injection armed at a canary: its unit, and in MASK the canary among those of its kind (R546, R637; DESIGN CHOICE: log 142). -/
def canaryArmed (s : State) (d : Nat) : CanaryAt → Option Inject
  | .pe n p => (armed s d 0x0713 (bClu n) p 3).filter fun j => j.mask == p.val
  | .pair j => (armed s d 0x0712 bUmb (32 + j) 3).filter fun x => x.mask == j.val
  | .uncore r => (armed s d 0x0712 bUmb (41 + r) 3).filter fun x => x.mask == r.val

/-- An instance's canary counted `hits` in the interval (R630); an armed PERTURB makes them `CANLIM` + 1 (R546, R637). -/
def canaryEnd (s : State) (d : Nat) (place : CanaryAt) (hits : Nat) : State :=
  match canaryArmed s d place with
  | some _ => canaryLimit (injUse s d) d 0 true place
  | none => if getF s d bUmb rUmbCfg 15 8 < hits then canaryLimit s d 0 false place else s

/-- CANARY_INTERVAL_END (R630). -/
def execCanaryIntervalEnd (die : Nat) (place : CanaryAt) (hits : Nat) (s : State) : Out :=
  powerDo s die (if s.pw.hv then canaryEnd s die place hits else s)

/-- AGEING_LOG_WRITE: the Masthead appends the oldest record that waits; after a failed write it waits for the next re-plan (R633). -/
def ageingWrite (s : State) (flashOk : Bool) : State :=
  match s.ageDue with
  | [] => s
  | r :: t =>
    if flashOk then ageAppend { s with ageDue := t } r
    else report { s with ageDue := t, ageHeld := s.ageHeld ++ [r] } r.die bUmb 0xFF 0x0714 cDeferred 0x00 0 0 0

/-- AGEING_LOG_WRITE (R578, R633). -/
def execAgeingLogWrite (flashOk : Bool) (s : State) : Out :=
  .next (if mstUp s ∧ startStep s = 15 then ageingWrite s flashOk else s)

/-! ### Gating (R635) -/

/-- A spar lies in a home block or an item set of a valid entry (R87, R123, R153). -/
def inSomeSet (s : State) (g : Nat) : Bool :=
  let d := g / 32
  (List.range 1024).any fun p =>
    (ptValid s d .pmt p && decide (pmtHome s d p ≤ g) && decide (g < pmtHome s d p + 2 ^ pmtLog2H s d p))
      || (ptValid s d .pst p && pstIv s d p && decide (pstItemBase s d p ≤ g) && decide (g < pstItemBase s d p + 2 ^ pstLog2I s d p))

/-- An engine holds a running or saved turn (R478, R480). -/
def engineHolds (s : State) (d : Nat) (woad : Bool) (e : Nat) : Bool :=
  (getXf s d).jobs.any fun j =>
    if woad then (j.running.map fun r => r.2.1.contains e).getD false || (j.saved.map fun v => v.2.any (·.1 == e)).getD false
    else (j.running.map fun r => r.1 == some e).getD false || (j.saved.map fun v => v.1.any (·.1 == e)).getD false

/-- The unit that `BLOCK` and `UNIT` name can be gated. -/
def gateTarget (b u : Nat) : Bool :=
  match blkKind b with
  | some .clu => u == 0
  | some .frl => decide (u < 2)
  | some .wad => decide (u < 2)
  | _ => false

/-- The unit cannot lose its power now (R635). -/
def gateBusy (s : State) (d b u : Nat) : Bool :=
  match blkKind b with
  | some .clu => blkEn s d b || !blkIdle s d b || inSomeSet s (gspar d (b - 0x20))
  | some .frl => engineHolds s d false u
  | some .wad => engineHolds s d true u
  | _ => false

/-- ERR of a gating request (R635). -/
def gateErr (s : State) (d b u : Nat) (off : Bool) (src : CsrSrc) : Nat :=
  if off && gateBusy s d b u then 1 else if heldFrom s d b src then 2 else 0

/-- The registers of a spar's block that are no configuration return to their reset values (R635). -/
def gateRegs (s : State) (d b : Nat) : State :=
  (s.csr.filter fun e => wordOf e.1 d b).foldl (fun s e =>
    let w := fld e.1 19 0
    setReg s d b w (merged (csrReset s.part e.1).toNat e.2.toNat (parityBits b w ||| keptBits b w))) s

/-- Power is removed from a unit: what it held is lost (R635). -/
def gateOff (s : State) (d b u : Nat) : State :=
  match blkKind b with
  | some .clu => modSpar (sparClear (gateRegs s d b) (gspar d (b - 0x20))) (gspar d (b - 0x20)) fun x => { x with gated := true }
  | some .frl => noEngine (modXf s d fun x => { x with furlGated := u :: x.furlGated.filter (· != u) }) d
  | some .wad =>
    noEngine (modXf s d fun x => { x with woadGated := u :: x.woadGated.filter (· != u), kcache := tdel x.kcache u }) d
  | _ => s

/-- Power returns: the unit holds what a block reset leaves (R635). -/
def gateOn (s : State) (d b u : Nat) : State :=
  match blkKind b with
  | some .clu => modSpar s (gspar d (b - 0x20)) fun x => { x with gated := false }
  | some .frl => modXf s d fun x => { x with furlGated := x.furlGated.filter (· != u) }
  | some .wad => modXf s d fun x => { x with woadGated := x.woadGated.filter (· != u) }
  | _ => s

/-- A request of `PWR_GATE` is judged and acts (R635, R639). -/
def gateRun (s : State) (d b u : Nat) (off : Bool) (src : CsrSrc) : State :=
  let e := if gateTarget b u then gateErr s d b u off src else 0
  let s := setReg s d bPwr rPwrGate (b2n off * 2 ^ 29 + e * 2 ^ 27 + u * 2 ^ 8 + b)
  if e = 2 then evRaise (count s d bPwr rPwrGaterej) d 0xC09
  else if e = 1 ∨ !gateTarget b u then s
  else if off then gateOff s d b u else gateOn s d b u

/-- `PWR_GATE` with GO (R566, R635). -/
def gateCommand (s : State) (d b u : Nat) (off : Bool) (src : CsrSrc) : State :=
  startCmd s d bPwr rPwrGate 0
    (fun s => setReg s d bPwr rPwrGate (b2n off * 2 ^ 29 + getF s d bPwr rPwrGate 28 27 * 2 ^ 27 + u * 2 ^ 8 + b))
    fun s => gateRun s d b u off src

/-- GATE_POWER_OFF (R635). -/
def execGatePowerOff (die : Nat) (blk : BitVec 8) (unit : BitVec 2) (src : CsrSrc) (s : State) : Out :=
  regDo s die bPwr rPwrGate (dieUp s die) (gateCommand s die blk.toNat unit.toNat true src)
/-- GATE_POWER_ON (R635). -/
def execGatePowerOn (die : Nat) (blk : BitVec 8) (unit : BitVec 2) (src : CsrSrc) (s : State) : Out :=
  regDo s die bPwr rPwrGate (dieUp s die) (gateCommand s die blk.toNat unit.toNat false src)

/-! ### TIMEBASE (R619) -/

/-- Every die is aligned to die 0 within a window of 8 counts; where in it each lands is free. `CLK_TBSKEW` shows the difference
found. -/
def alignTimes (s : State) : State :=
  let t0 := timeOf s 0
  let f := takeFree s
  let below := f.1.toNat % 9
  ((upDies s).filter (· != 0)).foldl (fun s d =>
    let g := takeFree s
    let s := setReg g.2 d bClk rClkTbskew ((timeOf s d - t0).toNat % 2 ^ 16)
    modDie s d fun x => { x with timebase := t0 + w64 (g.1.toNat % 9) - w64 below }) f.2

/-- TIMEBASE_ALIGNMENT (R619). -/
def execTimebaseAlignment (s : State) : Out := .next (if s.pw.hv then alignTimes s else s)

/-! ### Detector reports with an action of their own (R624, R628, R630, R631, R637) -/

/-- The canary that a report of 0x0712 or 0x0713 names; the monitors of the SRAM arrays and the references are near none. -/
def canaryOf (b u : Nat) : Option CanaryAt :=
  match blkKind b with
  | some .clu => if u < 9 then some (.pe ⟨(b - 0x20) % 32, Nat.mod_lt _ (by decide)⟩ ⟨u % 9, Nat.mod_lt _ (by decide)⟩) else none
  | _ =>
    if u < 32 then none
    else if u < 41 then some (.pair ⟨(u - 32) % 9, Nat.mod_lt _ (by decide)⟩)
    else if u < 57 then some (.uncore ⟨(u - 41) % 16, Nat.mod_lt _ (by decide)⟩) else none

/-- A report of the power unit whose effect goes beyond its record. -/
def powerReport (s : State) (r : DetReport) : State :=
  let d := r.die.val
  let u := r.unit.toNat
  let det := r.det.toNat
  if det = 0x0702 then stopHv (report s d bPwr 0xFF 0x0702 cFatal 0x0C r.addr r.tag r.info r.inj)
  else if det = 0x070A then thermTrip s d u r.info r.inj
  else if det = 0x070B then sensorOut s d u r.info r.inj
  else
    match canaryOf r.block.toNat u with
    | some c => canaryLimit s d r.info r.inj c
    | none => report s d r.block.toNat u det cCorrected 0x00 r.addr r.tag r.info r.inj

/-- A detector's report reaches its Madder, is recorded or merged, and acted on (R512 to R516, R521). -/
def detection (s : State) (r : DetReport) : State :=
  let d := r.die.val
  let b := r.block.toNat
  let det := r.det.toNat
  let u := unitKind d b r.unit.toNat det
  if !detExists s d det b r.unit.toNat || !unitServes s d b u then s
  else if r.inj && !((getDie s d).inj.any fun j => injFits j r) then s
  else
    let s := if r.inj then injUse s d else s
    match r.found, u with
    | .wire n, _ => wireReport s r n
    | _, .pe k => if det = 0x0713 then powerReport s r else if det < 0x0200 then peReport s r k else unitReport s r
    | _, _ =>
      if det = 0x0702 ∨ det = 0x070A ∨ det = 0x070B ∨ det = 0x0712 then powerReport s r else unitReport s r

/-- FAULT_DETECTION (R512, R521). -/
def execFaultDetection (report : DetReport) (s : State) : Out := powerDo s report.die (detection s report)

end Sys2Proof.Machine
end

