-- ==== Sys2Proof/Machine/Mst.lean ====
section
/-! DEFINITION. The Masthead: the commit log, image headers and checks, image sets, update commands, and the fuses (spec 19:
R581 to R602). -/

namespace Sys2Proof.Machine

/-! ### Slots of the boot flash (R581) -/

/-- Offset and size of a slot. -/
def slotAt (k : Nat) : Nat := [0x200000, 0x600000, 0xA00000, 0xB00000, 0xC00000, 0xD00000, 0x2E00000, 0x4E00000, 0xE00000, 0x1E00000].getD k 0
/-- Slot size by kind code. -/
def kindSize (kind : Nat) : Nat := [0, 0x400000, 0x100000, 0x100000, 0x2000000, 0x1000000].getD kind 0
/-- Kind code of a slot. -/
def slotKind (k : Nat) : Nat := k / 2 + 1
def slotSize (k : Nat) : Nat := kindSize (slotKind k)

/-! ### The commit log (R582, R583) -/

/-- A commit record. -/
structure CommitRec where
  seq : Nat
  /-- slot s COMMITTED -/
  live : List Bool
  ver : List Nat
  deriving DecidableEq, Repr

def commitMagic : List Nat := [0x4F, 0x58, 0x43, 0x52]

/-- The bytes of a commit record (R583). -/
def commitBytes (r : CommitRec) : List Nat :=
  let b := commitMagic ++ List.replicate 4 0 ++ leBytes 8 r.seq ++ (List.range 10).map (fun k => b2n (r.live.getD k false))
    ++ List.replicate 6 0 ++ (List.range 10).flatMap (fun k => leBytes 4 (r.ver.getD k 0)) ++ List.replicate 52 0
  b ++ leBytes 4 (crc32c b)

/-- Where record `j` of a block lies. -/
def commitAt (blk j : Nat) : Nat := 0x10000 * blk + 128 * j

/-- The valid record at a location of the log (R582, R583). -/
def commitRead (s : State) (a : Nat) : Option CommitRec :=
  if flBytes s a 4 = commitMagic then
    let b := flBytes s a 128
    let st := (b.drop 16).take 10
    if leNat (b.drop 124) = crc32c (b.take 124) ∧ st.all (fun x => decide (x ≤ 1)) then
      some ⟨leNat ((b.drop 8).take 8), st.map (· == 1), (List.range 10).map fun k => leNat ((b.drop (32 + 4 * k)).take 4)⟩
    else none
  else none

/-- The record in force with its block (R582). -/
def commitForce (s : State) : Option (Nat × CommitRec) :=
  ((List.range 1024).filterMap fun j => (commitRead s (commitAt (j / 512) (j % 512))).map fun r => (j / 512, r)).foldl
    (fun acc x =>
      match acc with
      | some y => if y.2.seq < x.2.seq then some x else acc
      | none => some x) none

/-- A slot is COMMITTED; without a record in force every slot counts so (R582). -/
def committed (s : State) (k : Nat) : Bool := (commitForce s).all fun r => r.2.live.getD k false

/-! ### Image headers and their checks (R585 to R587) -/

/-- Bytes of an image, by a reader of its bytes. -/
def rdBytes (rd : Nat → Nat) (a n : Nat) : List Nat := (List.range n).map fun j => rd (a + j)
def rdLe (rd : Nat → Nat) (a n : Nat) : Nat := leNat (rdBytes rd a n)
/-- Every byte of a range is 0. -/
def rdZero (rd : Nat → Nat) (a n : Nat) : Bool := (List.range n).all fun j => rd (a + j) == 0

def imVersion (rd : Nat → Nat) : Nat := rdLe rd 8 4
def imSvn (rd : Nat → Nat) : Nat := rdLe rd 12 4
def imBody (rd : Nat → Nat) : Nat := rdLe rd 16 4
/-- Bytes of the whole image. -/
def imSize (rd : Nat → Nat) : Nat := 16384 + imBody rd

/-- The image is tested with kind `k`, version `v` (R586). -/
def compatHas (rd : Nat → Nat) (k v : Nat) : Bool :=
  (List.range 23).any fun j => rd (72 + 8 * j) == k && rdLe rd (76 + 8 * j) 4 == v
/-- The versions of a kind that the `COMPAT` entries name. -/
def compatVers (rd : Nat → Nat) (k : Nat) : List Nat :=
  ((List.range 23).filter fun j => rd (72 + 8 * j) == k).map fun j => rdLe rd (76 + 8 * j) 4

/-- Check 1: the fixed and reserved fields (R585, R587). -/
def check1 (rd : Nat → Nat) (kind : Nat) : Bool :=
  rdBytes rd 0 4 == [0x4F, 0x58, 0x49, 0x4D] && rd 4 == kind && decide (1 ≤ kind) && decide (kind ≤ 5) && rd 5 == 1
    && rd 6 == b2n (kind == 2 || kind == 3) && fld (rd 7) 3 2 == 0 && fld (rd 7) 7 6 == 0
    && decide (imSize rd ≤ kindSize kind)
    && rdZero rd 48 16 && ((List.range 23).all fun j => rdZero rd (73 + 8 * j) 3)
    && rdZero rd 2945 5247 && rdZero rd 12915 3469
/-- Check 2: the stepping. -/
def check2 (rd : Nat → Nat) : Bool := (List.range 8).any fun j => rd (64 + j) == 0xA1
/-- Check 3: key hashes, revocation and the security version. -/
def check3 (f : Fuses) (rd : Nat → Nat) (kind : Nat) : Bool :=
  let m := rd 7 % 4
  let e := rd 7 / 16 % 4
  !bitOf f.mlrev m && !bitOf f.ecrev e && decide (f.svn.getD (kind - 1) 0 ≤ imSvn rd)
    && sha2 sha384 (rdBytes rd 256 2592) == f.mldh.getD m (List.replicate 48 0)
    && sha2 sha384 (rdBytes rd 2848 97) == f.ech.getD e (List.replicate 48 0)
/-- Check 4: both signatures over M. -/
def check4 (rd : Nat → Nat) : Bool :=
  let m := rdBytes rd 0 8192 ++ rdBytes rd 16384 (imBody rd)
  Config.mldsaVerify (rdBytes rd 256 2592) m (rdBytes rd 8192 4627) && Config.ecdsaVerify (rdBytes rd 2848 97) m (rdBytes rd 12819 96)
/-- Check 5: the GCM tag of an encrypted body. -/
def check5 (f : Fuses) (rd : Nat → Nat) : Bool :=
  rd 6 % 2 == 0
    || gcmTag (aesKeys ((List.range 32).map fun j => f.key.getD j 0)) (rdBytes rd 20 12) (rdBytes rd 0 20) (rdBytes rd 16384 (imBody rd))
        == rdBytes rd 32 16
/-- The plaintext of an encrypted body. -/
def imPlain (f : Fuses) (rd : Nat → Nat) : List Nat :=
  gcmCrypt (aesKeys ((List.range 32).map fun j => f.key.getD j 0)) (rdBytes rd 20 12) (rdBytes rd 16384 (imBody rd))

/-- The first check of R587 that an image fails, 0 where it passes. -/
def imCheck (f : Fuses) (rd : Nat → Nat) (kind : Nat) : Nat :=
  if !check1 rd kind then 1 else if !check2 rd then 2 else if !check3 f rd kind then 3 else if !check4 rd then 4
  else if !check5 f rd then 5 else 0

/-- The bytes of the image in a slot. -/
def slotRd (s : State) (k : Nat) : Nat → Nat := fun a => flByte s (slotAt k + a)
/-- The bytes of an image in memory. -/
def memRd (s : State) (wa : Nat) : Nat → Nat := fun a => (rdByte s (8 * wa + a)).toNat

/-- R584. -/
def eligible (s : State) (k : Nat) : Bool :=
  let rd := slotRd s k
  (match commitForce s with
    | some r => r.2.live.getD k false && r.2.ver.getD k 0 == imVersion rd
    | none => true)
    && check1 rd (slotKind k) && check2 rd && check3 s.fusesIn rd (slotKind k)

/-! ### Image sets (R588 to R590) -/

/-- The slots of a set. -/
structure ImgSet where
  mhf : Nat
  ucs : Nat
  spf : Nat
  cfg : Nat
  pat : Option Nat
  deriving DecidableEq, Repr

def ImgSet.slots (x : ImgSet) : List Nat := [x.mhf, x.ucs, x.spf, x.cfg] ++ x.pat.toList

/-- Every choice of slots. -/
def allSets : List ImgSet :=
  [0, 1].flatMap fun m => [2, 3].flatMap fun u => [6, 7].flatMap fun p => [8, 9].flatMap fun c =>
    [none, some 4, some 5].map fun t => ⟨m, u, p, c, t⟩

/-- Each of two slots' images is tested with the other (R588). -/
def tested (s : State) (a b : Nat) : Bool :=
  compatHas (slotRd s a) (slotKind b) (imVersion (slotRd s b)) && compatHas (slotRd s b) (slotKind a) (imVersion (slotRd s a))

/-- R588. -/
def consistent (s : State) (x : ImgSet) : Bool :=
  x.slots.all (fun k => !s.mst.excluded.contains k && eligible s k)
    && tested s x.mhf x.ucs && tested s x.mhf x.spf && tested s x.mhf x.cfg && tested s x.ucs x.spf && tested s x.ucs x.cfg
    && tested s x.spf x.cfg
    && (match x.pat with
      | some k => compatHas (slotRd s k) 2 (imVersion (slotRd s x.ucs)) && (compatVers (slotRd s k) 2).all (· == imVersion (slotRd s x.ucs))
      | none => true)

/-- The rank of a set: the versions in the order of R589, then the A slots in slot order. -/
def setRank (s : State) (x : ImgSet) : Nat :=
  let v (k : Nat) := imVersion (slotRd s k)
  let pv := (x.pat.map fun k => v k + 1).getD 0
  let low := [x.mhf, x.ucs, x.pat.getD 4, x.spf, x.cfg].foldl (fun a k => 2 * a + (1 - k % 2)) 0
  ([v x.spf, v x.ucs, v x.mhf, v x.cfg, pv].foldl (fun a n => a * 2 ^ 33 + n) 0) * 32 + low

/-- The highest-ranked consistent set (R590). -/
def bestSet (s : State) : Option ImgSet :=
  ((allSets.filter (consistent s)).foldl (fun acc x =>
    match acc with
    | some y => if setRank s y < setRank s x then some x else acc
    | none => some x) none)

/-- The set that `MST_SET` shows (R590, R605). -/
def runningSet (s : State) : Option ImgSet :=
  let v := getReg s 0 bMst rMstSet
  if bitOf v 31 then
    some ⟨v % 2, 2 + b2n (bitOf v 1), 6 + b2n (bitOf v 2), 8 + b2n (bitOf v 3), if bitOf v 5 then some (4 + b2n (bitOf v 4)) else none⟩
  else none

/-- `MST_SET` and `MST_VER_k` show a choice (R590). -/
def showSet (s : State) : Option ImgSet → State
  | none => (List.range 5).foldl (fun s k => setReg s 0 bMst (rMstVer + k) 0) (setReg s 0 bMst rMstSet 0)
  | some x =>
    let bits := x.mhf % 2 + 2 * (x.ucs % 2) + 4 * (x.spf % 2) + 8 * (x.cfg % 2) + 16 * (x.pat.getD 4 % 2) + 32 * b2n x.pat.isSome
    let ver (o : Option Nat) := (o.map fun k => imVersion (slotRd s k)).getD 0
    let vs := [ver (some x.mhf), ver (some x.ucs), ver x.pat, ver (some x.spf), ver (some x.cfg)]
    (List.range 5).foldl (fun s k => setReg s 0 bMst (rMstVer + k) (vs.getD k 0)) (setReg s 0 bMst rMstSet (2 ^ 31 + bits))

/-- `MST_SLOTSTAT` (R605). -/
def showSlots (s : State) : State :=
  let st (k : Nat) := if s.mst.excluded.contains k then 2 else if !committed s k then 0 else if eligible s k then 1 else 3
  setReg s 0 bMst rMstSlotstat ((List.range 10).map fun k => st k * 4 ^ k).sum

/-! ### Update commands (R597 to R600) -/

/-- The staging area. -/
def updAt (s : State) : Nat := baseOf s 0 bMst rMstUpdaddrHi
def updLen (s : State) : Nat := getReg s 0 bMst rMstUpdlen
/-- Words of the staged image. -/
def updWords (s : State) : List Nat := (List.range ((updLen s + 7) / 8)).map (updAt s + ·)

/-- Supervisors run: the part has been released with a set (R592, R597). -/
def supsRun (s : State) : Bool := startStep s == 15 && (startLevel s == 1 || startLevel s == 2)
/-- A slot of the running set (R597). -/
def slotRuns (s : State) (k : Nat) : Bool := supsRun s && ((runningSet s).map fun x => x.slots.contains k).getD false

/-- What a command that runs writes to the flash (R598). -/
def flashJob (s : State) (j : FlashJob) : State := { s with mst := { s.mst with job := some j } }

/-- A commit record appended with slot `k` changed: the flash and the next record in force, or the flash as it is where the flash
fails (R582). -/
def commitAppend (s : State) (k : Nat) (live : Bool) (ver : Nat) : State :=
  let put (s : State) (blk seq : Nat) (r : CommitRec) : State :=
    let b := commitBytes { r with seq := seq, live := r.live.set k live, ver := r.ver.set k ver }
    (firstBelow 512 fun j => flBlank s (commitAt blk j) 128).elim
      (flashJob (flProgram (flErase s (commitAt (1 - blk) 0) 0x10000) (commitAt (1 - blk) 0) b) (.append (commitAt (1 - blk) 0)))
      fun j => flashJob (flProgram s (commitAt blk j) b) (.append (commitAt blk j))
  let f := takeFree s
  (commitForce s).elim
    (put f.2 0 f.1.toNat ⟨0, List.replicate 10 true, (List.range 10).map fun j => imVersion (slotRd s j)⟩)
    fun x => put s x.1 ((x.2.seq + 1) % 2 ^ 64) x.2

/-- ERR of a command that finished, and its record (R597, R604). -/
def updEnd (s : State) (err info : Nat) : State :=
  let s := setF s 0 bMst rMstUpdcmd 26 24 err
  if err = 0 then s
  else report s 0 bMst (getF s 0 bMst rMstUpdcmd 3 0) 0x080A cDeferred 0x00 0 0 (w64 (if err = 2 then info else 0))

/-- No command follows a PROGRAM of the slot any more. -/
def unprogram (s : State) (k : Nat) : State := { s with mst := { s.mst with programmed := s.mst.programmed.filter (· != k) } }

/-- CHECK: the staged image is checked, and the result kept (R597). -/
def updCheck (s : State) : State :=
  let rd := memRd s (updAt s)
  let s := { s with mst := { s.mst with checked := none } }
  match (updWords s).find? (isPoisoned s) with
  | some wa => updEnd (hwPoison s 0 wa) 1 0
  | none =>
    let s := unitRead s 0 (updAt s) (updWords s).length
    if updLen s < 16384 then updEnd s 1 0
    else
      let n := if imSize rd = updLen s then imCheck s.fusesIn rd (rd 4) else 1
      if n = 0 then updEnd { s with mst := { s.mst with checked := some (updAt s, updLen s) } } 0 0 else updEnd s 2 n

/-- INVAL (R597). -/
def updInval (s : State) (k : Nat) (flashOk : Bool) : State :=
  let s := unprogram s k
  if slotRuns s k then updEnd s 4 0
  else if 10 ≤ k then updEnd s 1 0
  else if !flashOk then updEnd s 3 0
  else updEnd (showSlots (commitAppend s k false 0)) 0 0

/-- ERASE (R597). -/
def updErase (s : State) (k : Nat) (flashOk : Bool) : State :=
  let s := unprogram s k
  if slotRuns s k then updEnd s 4 0
  else if 10 ≤ k ∨ committed s k then updEnd s 1 0
  else if !flashOk then updEnd s 3 0
  else
    let held := s.flash.filter fun c => decide (slotAt k ≤ c.1) && decide (c.1 < slotAt k + slotSize k)
    updEnd (flashJob (flErase s (slotAt k) (slotSize k)) (.erase (slotAt k) (slotSize k) held)) 0 0

/-- PROGRAM: the staged image goes to the slot and is read back (R597). -/
def updProgram (s : State) (k : Nat) (flashOk : Bool) : State :=
  let s := unprogram s k
  let rd := memRd s (updAt s)
  if slotRuns s k then updEnd s 4 0
  else if 10 ≤ k ∨ committed s k ∨ !flBlank s (slotAt k) (slotSize k) ∨ s.mst.checked ≠ some (updAt s, updLen s)
      ∨ rd 4 ≠ slotKind k ∨ (updWords s).any (isPoisoned s) then updEnd s 1 0
  else if !flashOk then updEnd s 3 0
  else
    let s := flProgram (unitRead s 0 (updAt s) (updWords s).length) (slotAt k) (rdBytes rd 0 (updLen s))
    updEnd (flashJob { s with mst := { s.mst with programmed := k :: s.mst.programmed } } (.program (slotAt k) (updLen s))) 0 0

/-- COMMIT (R597). -/
def updCommit (s : State) (k : Nat) (flashOk : Bool) : State :=
  let done := s.mst.programmed.contains k
  let s := unprogram s k
  if slotRuns s k then updEnd s 4 0
  else if !done then updEnd s 1 0
  else if !flashOk then updEnd s 3 0
  else updEnd (showSlots (commitAppend s k true (imVersion (slotRd s k)))) 0 0

/-- The entries of a report that re-drives nothing (R600). -/
def quietEntries (s : State) (d : Nat) : List DoubtEntry :=
  let l := replayRecs s d
  (acceptsOf l).map fun r =>
    match (l.filter fun t => t.typ == 2).find? fun t => t.xnum == r.xnum with
    | some t => ⟨t.state, t.reason, r, false, true, d, 0⟩
    | none => ⟨lInDoubt, rsPowerLost, r, false, false, d, 0⟩

/-- JREPORT: a die's journal reported at the staging address, with nothing changed in it (R600). -/
def updJreport (s : State) (d : Nat) : State :=
  if nDies s.part ≤ d ∨ !ldevUp s 0 ∨ !dieLive s 0 then updEnd s 1 0
  else
    let l := quietEntries s d
    updEnd (stores s 0 (updAt s) (doubtHeader l ++ l.flatMap doubtWords)) 0 0

/-- The update command that a value of `MST_UPDCMD` names runs (R597). -/
def updRun (s : State) (v : Nat) (flashOk : Bool) : State :=
  let k := fld v 3 0
  match fld v 29 27 with
  | 1 => updCheck s
  | 2 => updInval s k flashOk
  | 3 => updErase s k flashOk
  | 4 => updProgram s k flashOk
  | 5 => updCommit s k flashOk
  | 6 => updJreport s (fld v 6 4)
  | _ => s

/-- `MST_UPDCMD` is written: its fields take their values, and with GO the command runs (R597). -/
def updCommand (s : State) (v : Nat) (flashOk : Bool) : State :=
  let fields (s : State) : State :=
    setF (setF (setF s 0 bMst rMstUpdcmd 29 27 (fld v 29 27)) 0 bMst rMstUpdcmd 6 4 (fld v 6 4)) 0 bMst rMstUpdcmd 3 0 (fld v 3 0)
  if bitOf v 31 then startCmd s 0 bMst rMstUpdcmd 0 fields fun s => updRun { fields s with mst := { s.mst with job := none } } v flashOk else fields s

/-- The Masthead takes update commands: the start is over, for an update never changes the images of the start in progress and the Masthead
writes nothing to the flash before release (R578, R591, R599). -/
def mstTakes (s : State) : Bool := mstUp s && (startStep s == 15 || decide (3 ≤ startLevel s))

/-- A write of `MST_UPDCMD` with GO and a command, the other fields as they stand. -/
def updGo (s : State) (cmd slot die : Nat) (flashOk : Bool) : Out :=
  regDo s 0 bMst rMstUpdcmd (mstTakes s) (updCommand s (2 ^ 31 + cmd * 2 ^ 27 + die * 2 ^ 4 + slot) flashOk)

/-- The slot and the die that `MST_UPDCMD` names. -/
def updSlot (s : State) : Nat := getF s 0 bMst rMstUpdcmd 3 0
def updDie (s : State) : Nat := getF s 0 bMst rMstUpdcmd 6 4

/-- MST_CHECK (R597). -/
def execMstCheck (s : State) : Out := updGo s 1 (updSlot s) (updDie s) true
/-- MST_INVAL (R597). -/
def execMstInval (slot : BitVec 4) (flashOk : Bool) (s : State) : Out := updGo s 2 slot.toNat (updDie s) flashOk
/-- MST_ERASE (R597). -/
def execMstErase (slot : BitVec 4) (flashOk : Bool) (s : State) : Out := updGo s 3 slot.toNat (updDie s) flashOk
/-- MST_PROGRAM (R597). -/
def execMstProgram (slot : BitVec 4) (flashOk : Bool) (s : State) : Out := updGo s 4 slot.toNat (updDie s) flashOk
/-- MST_COMMIT (R597). -/
def execMstCommit (slot : BitVec 4) (flashOk : Bool) (s : State) : Out := updGo s 5 slot.toNat (updDie s) flashOk
/-- JREPORT (R600). -/
def execJreport (target : BitVec 3) (s : State) : Out := updGo s 6 (updSlot s) target.toNat true

/-- A write of `MST_UPDDATA`: 32 bits at the next staging position, low half of a word first (R597, R605). -/
def updData (s : State) (v : Nat) : State :=
  let p := s.mst.ptr
  let wa := updAt s + p / 2
  let s := store s 0 wa (if p % 2 = 0 then wput (peek s wa) 31 0 v else wput (peek s wa) 63 32 v)
  { s with mst := { s.mst with ptr := p + 1 } }
/-- A write of `MST_UPDADDR_LO`: the pointer goes back to the start (R605). -/
def updAddrLo (s : State) (v : Nat) : State :=
  let s := setReg s 0 bMst rMstUpdaddrLo v
  { s with mst := { s.mst with ptr := 0 } }

/-- MST_UPDDATA_WRITE (R597). -/
def execMstUpddataWrite (value : Csr) (s : State) : Out :=
  regDo s 0 bMst rMstUpddata (mstUp s) (updData s value.toNat)
/-- MST_UPDADDR_LO_WRITE (R605). -/
def execMstUpdaddrLoWrite (value : Csr) (s : State) : Out :=
  regDo s 0 bMst rMstUpdaddrLo (mstUp s) (updAddrLo s value.toNat)

/-! ### Fuses (R601, R602) -/

/-- A fuse blown (R602). -/
def burn (f : Fuses) (target arg : Nat) : Option Fuses :=
  let svn := (List.range 5).map fun k => f.svn.getD k 0
  if target = 1 then some { f with dbg := 3 }
  else if target = 2 then some { f with mlrev := f.mlrev ||| 2 ^ (arg % 4) }
  else if target = 3 then some { f with ecrev := f.ecrev ||| 2 ^ (arg % 4) }
  else if target = 4 ∧ 1 ≤ arg ∧ arg ≤ 5 ∧ svn.getD (arg - 1) 0 < 63 then
    some { f with svn := svn.set (arg - 1) (svn.getD (arg - 1) 0 + 1) }
  else none

/-- GO: the fuse that is armed with the same target and argument, at most 1 ms before, is blown; while its programming runs, `BUSY` reads 1, a
power collapse leaves it blown or not, and no other one starts (R602; the last is DEDUCED from R566: log 151). -/
def fusGo (s : State) (target arg : Nat) : State :=
  match s.mst.armed with
  | some (t, a, since) =>
    if t = target ∧ a = arg ∧ (timeOf s 0 - since).toNat ≤ 1000000 ∧ cmdRuns s 0 bFus rFusProg 0 = false then
      let s := { s with mst := { s.mst with armed := none } }
      match burn s.fuses target arg with
      | some f => setF { cmdBegin s 0 bFus rFusProg 0 with fuses := f, mst := { s.mst with fuseJob := some s.fuses } } 0 bFus rFusProg 28 28 0
      | none => setF s 0 bFus rFusProg 28 28 1
    else reject s 0 bFus
  | none => reject s 0 bFus

/-- `FUS_PROG` is written (R602). -/
def fusCommand (s : State) (v : Nat) : State :=
  let s := setF (setF s 0 bFus rFusProg 11 8 (fld v 11 8)) 0 bFus rFusProg 2 0 (fld v 2 0)
  let s := if bitOf v 31 then fusGo s (fld v 11 8) (fld v 2 0) else s
  if bitOf v 30 then { s with mst := { s.mst with armed := some (fld v 11 8, fld v 2 0, timeOf s 0) } } else s

/-- FUS_ARM (R602). -/
def execFusArm (target : BitVec 4) (arg : BitVec 3) (s : State) : Out :=
  regDo s 0 bFus rFusProg (mstUp s) (fusCommand s (2 ^ 30 + target.toNat * 2 ^ 8 + arg.toNat))
/-- FUS_GO (R602). -/
def execFusGo (target : BitVec 4) (arg : BitVec 3) (s : State) : Out :=
  regDo s 0 bFus rFusProg (mstUp s) (fusCommand s (2 ^ 31 + target.toNat * 2 ^ 8 + arg.toNat))

end Sys2Proof.Machine
end

