-- ==== Sys2Proof/Machine/Special.lean ====
section
/-! DEFINITION. Special registers and the invalidation of translations (spec 11: R348 to R350, R355, R358, R362; 08: R275; 16:
R505). -/

namespace Sys2Proof.Machine

/-- The number names a special register (R348). -/
def sprExists (n : Nat) : Bool :=
  decide (n ≤ 0x09) || (decide (0x10 ≤ n) && decide (n ≤ 0x15)) || (decide (0x20 ≤ n) && decide (n ≤ 0x25)) || n == zDbgctl

/-- The register is sealed (R348). -/
def sprShut (n : Nat) : Bool := (decide (0x20 ≤ n) && decide (n ≤ 0x25)) || n == zDbgctl

/-- `LCID` (R348). -/
def lcid (s : State) (c : Nat) : Word := w64 (pairOf s c * 2 ^ 8 + c / 8 * 2 ^ 3 + c % 8)

/-- The slot of the world of the level at which the core runs is emptied, and its source becomes ACTIVE (R362, R360). -/
def readEvsrc (s : State) (c : Nat) : Word × State :=
  let shut := levelOf s c == 2
  match (if shut then (getSup s c).sealedOffer else (getSup s c).openOffer) with
  | none => (0, s)
  | some g =>
    let d := g / 4096
    let k := g % 4096
    let s := setEv s d k evActive (bitOf (evCfg s d k) 23)
    let s := modSup s c fun x =>
      if shut then { x with sealedOffer := none, actives := x.actives ++ [g] }
      else { x with openOffer := none, actives := x.actives ++ [g] }
    (w64 (2 ^ 63 + g), s)

/-- The value that `sprd` reads (R348). What `EVDONE` reads the spec does not give: a free value. -/
def readSpr (s : State) (c n : Nat) : Word × State :=
  if n = zTime then (timeOf s (c / 8), s)
  else if n = zBpkeyLo ∨ n = zBpkeyHi then (0, s)
  else if n = zEvsrc then readEvsrc s c
  else if n = zEvdone then takeFree s
  else if n = zLcid then (lcid s c, s)
  else (spr s c n, s)

/-- A completion written to `EVDONE` (R362). -/
def writeEvdone (s : State) (c : Nat) (v : Word) : State :=
  let g := wfld v 14 0
  if g / 4096 < nDies s.part then completeSource s g else count s (c / 8) bEvc rEvcBaddone

/-- `BPCTL` takes a value (R358). -/
def writeBpctl (s : State) (c : Nat) (v : Word) : State :=
  let s := setSpr s c zBpctl (w64 (wfld v 31 16 * 2 ^ 16 + wfld v 1 0))
  if wbit v 2 then bpFlush s c else s

/-- `STATUS` takes the fields that the level may write (R349). -/
def writeStatus (s : State) (c : Nat) (v : Word) : State :=
  let st := spr s c zStatus
  let st := wput (wput st 4 4 (wfld v 4 4)) 2 2 (wfld v 2 2)
  let st := if levelOf s c = 2 then wput (wput st 5 5 (wfld v 5 5)) 3 3 (wfld v 3 3) else st
  setSpr s c zStatus st

/-- What `spwr` writes: reserved bits stay 0 (R348 to R350). DESIGN CHOICE (log 150): the Access column of R349 binds `STATUS` alone, and a
write of `ESTAT1` or `ESTAT2` takes all of bits [5:0]. -/
def writeSpr (s : State) (c n : Nat) (v : Word) : State :=
  if n = zStatus then writeStatus s c v
  else if n = zArith then setSpr s c n (w64 (wfld v 10 8 * 2 ^ 8 + wfld v 5 0))
  else if n = zCtx then setSpr s c n (w64 (wfld v 25 16 * 2 ^ 16 + wfld v 5 0))
  else if n = zTime ∨ n = zEvsrc ∨ n = zLcid then s
  else if n = zBpctl then writeBpctl s c v
  else if n = zBpkeyLo ∨ n = zBpkeyHi then setSpr s c n (w64 (wfld v 31 0))
  else if n = zEvdone then writeEvdone s c v
  else if n = zDbgctl then setSpr s c n (w64 (wfld v 1 0))
  else if n = zLevel 1 + 2 ∨ n = zLevel 2 + 2 then setSpr s c n (w64 (wfld v 5 0))
  else if n = zLevel 1 + 3 ∨ n = zLevel 2 + 3 then setSpr s c n (w64 (wfld v 63 48 * 2 ^ 48 + wfld v 44 40 * 2 ^ 40))
  else setSpr s c n v

/-- An access to special register `n` of a core, at the level it needs (R192, R275, R348). DESIGN CHOICE (log 141): below PL1 it raises PRIV
for an unassigned number too. -/
def sprAccess (n : Nat) (body : Nat → State → Res) : Hart → State → Res :=
  privileged 1 fun c s =>
    if !sprExists n then illegal s
    else if sprShut n && levelOf s c != 2 then .trap s tPriv 0 0
    else body c s

/-- `sprd` (R275). DESIGN CHOICE (log 141): an unused field that is not 0 raises ILLEGAL before the level is judged, as for every privileged
instruction. -/
def sprdOp (rd rs1 rs2 n : Nat) (h : Hart) (s : State) : Res :=
  if rs1 ≠ 0 ∨ rs2 ≠ 0 then illegal s
  else sprAccess n (fun c s => let r := readSpr s c n; .next (setD r.2 (.sup c) rd r.1)) h s

/-- `spwr` (R275). -/
def spwrOp (rd rs1 rs2 n : Nat) (h : Hart) (s : State) : Res :=
  if rd ≠ 0 ∨ rs2 ≠ 0 then illegal s
  else sprAccess n (fun c s => .next (writeSpr s c n (getD s (.sup c) rs1))) h s

/-- SPRD (R275, R348). -/
def execSprd (core : CoreId) (rd rs1 rs2 : Nat) (num : BitVec 7) (s : State) : Out :=
  instrDo core 2 (sprdOp rd rs1 rs2 num.toNat) s
/-- SPWR (R275, R348). -/
def execSpwr (core : CoreId) (rd rs1 rs2 : Nat) (num : BitVec 7) (s : State) : Out :=
  instrDo core 2 (spwrOp rd rs1 rs2 num.toNat) s
/-- EVSRC_READ: `sprd` of `EVSRC` (R362). -/
def execEvsrcRead (core : CoreId) (rd rs1 rs2 : Nat) (s : State) : Out := instrDo core 2 (sprdOp rd rs1 rs2 zEvsrc) s
/-- EVDONE_WRITE: `spwr` of `EVDONE` (R362). -/
def execEvdoneWrite (core : CoreId) (rd rs1 rs2 : Nat) (s : State) : Out := instrDo core 2 (spwrOp rd rs1 rs2 zEvdone) s
/-- BPCTL_FLUSH: `spwr` of `BPCTL`; bit [2] of the source flushes (R358). -/
def execBpctlFlush (core : CoreId) (rd rs1 rs2 : Nat) (s : State) : Out := instrDo core 2 (spwrOp rd rs1 rs2 zBpctl) s

/-- A cached translation matches an `xlinv` (R505). -/
def xlMatches (sel addr : Word) (l : TlbLine) : Bool :=
  let part := wfld sel 25 16
  let asid := wfld sel 5 0
  let a := wfld addr 48 0
  match wfld sel 63 62 with
  | 0 => l.part == part && l.asid == asid && decide (l.va ≤ a) && decide (a < l.va + l.size)
  | 1 => l.part == part && l.asid == asid
  | 2 => l.part == part
  | _ => true

/-- XLINV (R505). -/
def execXlinv (core : CoreId) (rd rs1 rs2 : Nat) (s : State) : Out :=
  instrDo core 2 (fun h s =>
    if rd ≠ 0 then illegal s
    else
      privileged 1 (fun c s =>
        let sel := getD s (.sup c) rs1
        let addr := getD s (.sup c) rs2
        .next { s with tlb := s.tlb.filter fun l => !xlMatches sel addr l }) h s) s

end Sys2Proof.Machine
end

