-- ==== Sys2Proof/Machine/Registers.lean ====
section
/-! DEFINITION. Accesses to the CSR space: what a read shows, which bits a write changes, what a written pulse does, and the outcomes
of an access (spec 18: R550 to R558, R566, R567; 06: R221 to R225; 00: R12 to R15). -/

namespace Sys2Proof.Machine

/-! ### What a read shows (R555, R571) -/

/-- Bit d: die d is in service, once step 11 of the start has decided it. -/
def insvcBits (s : State) : Nat :=
  if 11 ≤ startStep s then ((List.range (nDies s.part)).map fun d => b2n (dieUp s d) * 2 ^ d).sum else 0
/-- Bit d: link 0 of die d is in service. -/
def linkBits (s : State) : Nat :=
  if 11 ≤ startStep s then ((List.range (nDies s.part)).map fun d => b2n (!(getLink s d 0).out) * 2 ^ d).sum else 0
/-- Step 14 has brought the channel engines and the transform engines into service; in bare poles they stay out (R592). -/
def unitsOn (s : State) : Bool := decide (14 ≤ startStep s) && decide (startLevel s ≤ 1)
/-- Bits of units that are in service: those for which the test does not hold. -/
def upBits (s : State) (n : Nat) (out : Nat → Bool) : Nat :=
  if unitsOn s then ((List.range n).map fun e => b2n (!out e) * 2 ^ e).sum else 0

/-- The words of a fault record (R518). -/
def recWord (r : FaultRec) : Nat → Nat
  | 0 => 2 ^ 63 + b2n r.ack * 2 ^ 62 + r.cls * 2 ^ 60 + b2n r.inj * 2 ^ 59 + r.die * 2 ^ 56 + r.block * 2 ^ 48 + r.unit * 2 ^ 40
      + r.action * 2 ^ 32 + r.det * 2 ^ 16 + r.merged
  | 1 => r.tfirst.toNat
  | 2 => r.tlast.toNat
  | 3 => r.addr.toNat
  | 4 => r.tag.toNat
  | 5 => r.info.toNat
  | 6 => r.detlast * 2 ^ 48 + r.seq
  | _ => 0

/-- `MDR_LOG_k_w`: a slot without a record shows VALID 0. -/
def logWord (s : State) (d n : Nat) : Nat :=
  match logAt s d (n / 16) with
  | some r => recWord r (n % 16 / 2) / 2 ^ (32 * (n % 2)) % 2 ^ 32
  | none => 0

/-- The fuses as step 2 read them (R601, R605). -/
def fuseWord (s : State) (w v : Nat) : Nat :=
  let f := s.fusesIn
  let hash (l : List (List Nat)) (n : Nat) := leNat (((l.getD (n / 12) []).drop (4 * (n % 12))).take 4)
  if w = rFusStat then b2n (decide (2 ≤ f.dbg)) * 2 ^ 31 + f.ecrev % 16 * 2 ^ 8 + f.mlrev % 16
  else if w = rFusProg then putFld v 29 29 (b2n (cmdRuns s 0 bFus rFusProg 0))
  else if w = rFusDieidHi then wfld f.dieid 63 32
  else if w = rFusDieidLo then wfld f.dieid 31 0
  else if rFusSvn ≤ w ∧ w < rFusSvn + 5 then f.svn.getD (w - rFusSvn) 0
  else if rFusMldh ≤ w ∧ w < rFusMldh + 48 then hash f.mldh (w - rFusMldh)
  else if rFusEch ≤ w then hash f.ech (w - rFusEch)
  else v

/-- The sensor that gives the highest reading: one of those in use (R624). -/
def hotSensor (s : State) (d n : Nat) : Nat :=
  let l := (List.range 16).filter fun k => !(getDie s d).sensOut.contains k
  l.getD (n % l.length) 0

/-- The reef limit in force and the telemetry of a die; `f` is what the outside supplies (R608, R624, R639). -/
def powerWord (s : State) (d w v : Nat) (f : Word) : Nat :=
  if w = rPwrStat then
    b2n s.pw.warned * 2 ^ 31 + b2n (wbit f 0) * 2 ^ 30 + (if s.pw.hv then wfld f 6 1 * 2 ^ 24 else 0)
      + (if s.pw.level2 then 2 else b2n (getF s 0 bPwr rPwrReef 7 6 != 0)) * 2 ^ 16
  else if w = rPwrVin then wfld f 31 0
  else if w = rPwrTemp then (16 - (getDie s d).sensOut.length) * 2 ^ 16 + wfld f 7 0 * 2 ^ 8 + hotSensor s d (wfld f 11 8) * 2 ^ 4
  else if w = rPwrReef then putFld (putFld v 31 31 (b2n (s.pw.reef != .steady || reefTarget s != fld v 5 4))) 11 10 (marginCap s)
  else if w = rPwrGated then ((List.range 32).map fun n => b2n (getSpar s (gspar d n)).gated * 2 ^ n).sum
  else if w = rPwrGatede then
    ((List.range 2).map fun e => b2n ((getXf s d).furlGated.contains e) * 2 ^ e + b2n ((getXf s d).woadGated.contains e) * 2 ^ (e + 2)).sum
  else if w = rPwrTamper then putFld (putFld v 19 19 (wfld f 0 0)) 18 18 (b2n (!s.pw.aux))
  else v

/-- Registers of the spars, the engines and the channel subsystem that follow their unit. -/
def unitWord (s : State) (d b w v : Nat) : Nat :=
  match blkKind b with
  | some .clu =>
    let g := gspar d (b - 0x20)
    if w = rCluMsocc then (getSpar s g).store.length
    else if w = rCluRlocc01 then levelUsed s g 1 * 2 ^ 16 + levelUsed s g 0
    else if w = rCluRlocc23 then levelUsed s g 3 * 2 ^ 16 + levelUsed s g 2
    else v
  | some .sch =>
    if w = rSchFlowocc then (getDie s d).flows.length
    else if rSchAdmcl ≤ w ∧ w < rSchAdmcl + 32 then
      ((List.range 32).map fun j => b2n (admissionClosed s d (32 * (w - rSchAdmcl) + j)) * 2 ^ j).sum
    else if w = rSchPxtcmd then putFld v 30 30 (b2n (d == 0 && (destroyingPart s).isSome))
    else v
  | some .rtl =>
    if w = rRtlStat then
      let full := getF s d bRtl rRtlCfg 31 31 == 1 && decide (2 ^ getF s d bRtl rRtlCfg 30 26 ≤ getReg s d bRtl rRtlWptr)
      b2n full * 2 + b2n (blkEn s d bRtl && !full)
    else v
  | some .chn =>
    if w = rChnStat then
      putFld (putFld v 30 30 (b2n (ldevUp s d && unitsOn s))) 15 0 (upBits s 16 fun e => (getEng s (engKey d e)).out)
    else if w = rChnLdgocc then (getChan s d).live.length
    else if w = rChnJocc then jOcc (getChan s d)
    else v
  | some .cen =>
    let k := engKey d (b - 0x40)
    if w = rCenStat then
      b2n (unitsOn s && !(getEng s k).out) * 2 ^ 31 + b2n (getEng s k).rescan * 2 ^ 30
        + ((List.range 16).filter fun c => (getCtx s k c).busy).length * 2 ^ 16
        + min 1024 ((getEng s k).intake.length + (getEng s k).flitq.length)
    else v
  | some .frl =>
    if w = rFrlStat then
      ((savedOn (getXf s d) false 0).length + (savedOn (getXf s d) false 1).length) * 2 ^ 9 + upBits s 2 fun e => (getXf s d).furlOut.contains e
    else v
  | some .wad =>
    if w = rWadStat then
      ((savedOn (getXf s d) true 0).length + (savedOn (getXf s d) true 1).length) * 2 ^ 9 + upBits s 2 fun e => (getXf s d).woadOut.contains e
    else v
  | _ => v

/-- The spread in use: that of `CLK_SPREAD` from step 12 on, in which 0b11 acts as 0b00 (R618, R639). -/
def spreadMode (s : State) (d : Nat) : Nat := if 12 ≤ startStep s then getF s d bClk rClkSpread 1 0 % 3 else 0

/-- Registers of the service blocks that follow their cause. -/
def serviceWord (s : State) (d b w v : Nat) : Nat :=
  match blkKind b with
  | some .sys =>
    if w = rSysDiemask then putFld v 15 8 (insvcBits s)
    else if w = rSysTimebaseHi then wfld (timeOf s d) 63 32
    else if w = rSysTimebaseLo then wfld (timeOf s d) 31 0
    else v
  | some .mdr =>
    if w = rMdrStat then b2n s.fatal * 2 ^ 31 + openRecs s d
    else if w = rMdrFnctl then putFld (putFld v 30 30 (b2n (faultN s))) 29 29 (b2n s.pulse)
    else if w = rMdrDiestat then linkBits s * 2 ^ 8 + insvcBits s
    else if w = rMdrInjctl then putFld v 30 30 (b2n (getDie s d).inj.isSome)
    else if rMdrLog ≤ w then logWord s d (w - rMdrLog)
    else v
  | some .evc => if rEvcCfg ≤ w ∧ w < rEvcTgtLo ∧ !evLevel s d (w - rEvcCfg) then putFld v 22 22 0 else v
  | some .mst => if w = rMstUpddata then 0 else v
  | some .clk => if w = rClkStat then putFld v 1 0 (spreadMode s d) else v
  | some .hxp => if w = rHxpRawtx then putFld v 30 30 (b2n (!(getDie s d).rawTx.isEmpty)) else v
  | some .dbg => if w = rDbgCtl then putFld v 31 31 (b2n (decide (2 ≤ s.fusesIn.dbg))) else v
  | some .fus => fuseWord s w v
  | _ => v

/-- The command registers of R566, and `CLU_L1CTL` of R315. -/
def isCmd (b w : Nat) : Bool :=
  match blkKind b with
  | some .sch => w == rSchInvcmd || w == rSchPstcmd || w == rSchPptcmd || w == rSchPxtcmd
  | some .frl => w == rFrlPttcmd
  | some .hxp => w == rHxpScmd
  | some .wad => w == rWadKvcmd
  | some .mst => w == rMstUpdcmd
  | some .mdr => w == rMdrPaircmd
  | some .umb => w == rUmbCmd
  | some .pwr => w == rPwrGate
  | some .chn => w == rChnUload
  | some .clu => w == rCluL1ctl
  | _ => false

/-- The busy fields of the command registers and of `CLU_L1CTL`: `BUSY`, and those of `SCH_INVSTAT` for `SCH_INVCMD` (R566). -/
def busyShown (s : State) (d b w v : Nat) : Nat :=
  if b = bSch ∧ w = rSchInvstat then b2n (cmdRuns s d b rSchInvcmd 1) * 2 + b2n (cmdRuns s d b rSchInvcmd 0)
  else if isCmd b w && cmdRuns s d b w 0 && !(b == bSch && w == rSchInvcmd) then putFld v 30 30 1 else v

/-- What a register shows (R555). -/
def regShown (s : State) (d b w : Nat) (f : Word) : Nat :=
  let v := regStored s d b w
  if w = rBlkStat then blkStat s d b
  else if w = rBlkPerr then blkPerr s d b
  else if w < 0x10 then v
  else if blkKind b = some .pwr then busyShown s d b w (powerWord s d w v f)
  else busyShown s d b w (serviceWord s d b w (unitWord s d b w v))

/-- A read with the free value that its telemetry takes (R554: nothing else changes). -/
def regRead (s : State) (d b w : Nat) : Nat × State :=
  if b = bPwr then
    let f := takeFree s
    (regShown s d b w f.1, f.2)
  else (regShown s d b w 0, s)

/-! ### The pulses of command registers (R566) -/

/-- Free 16-bit readings, for a sample that a register write asks for. -/
def freeReads : Nat → State → List (BitVec 16) × State
  | 0, s => ([], s)
  | n + 1, s =>
    let f := takeFree s
    let r := freeReads n f.2
    ((f.1.setWidth 16) :: r.1, r.2)

/-- Counters cleared by the bits of a clear register (R84). -/
def clearCounts (s : State) (d b w p : Nat) : State :=
  match blkKind b with
  | none => s
  | some k =>
    (clearRows k).foldl (fun s c =>
      if c.1 = w ∧ bitOf p c.2.1 then
        let v := getReg s d b c.2.2.1
        setReg s d b c.2.2.1 (v - (v &&& c.2.2.2))
      else s) s

/-- A command that acts while its block is enabled and not fenced (R544, R560). -/
def whenOn (s : State) (d b : Nat) (t : State) : State := if dieLive s d && blkEn s d b then t else s
/-- A command that acts whatever `EN` holds. -/
def whenLive (s : State) (d : Nat) (t : State) : State := if dieLive s d then t else s

/-- The start fields of the SCH block (R121, R124, R157, R510). -/
def schPulse (s : State) (d w v : Nat) : State :=
  let p := fld v 9 0
  if w = rSchInvcmd then
    let s := if bitOf v 31 then invPmt s d p else s
    if bitOf v 30 then invCc s d p else s
  else if w = rSchPstcmd then pstCommand s d p
  else if w = rSchPptcmd then pptCommand s d p
  else if w = rSchPxtcmd then
    let op := fld v 29 28
    pxtBusy s d op p fun s =>
      if op = 0 then pxtInv s d p else if d = 0 ∧ op = 1 then create s p else if d = 0 ∧ op = 2 then destroy s p else s
  else s

/-- The start fields of `HXP_SCMD` and `HXP_RAWTX` (R404, R420). -/
def hxpPulse (s : State) (d w v : Nat) : State :=
  if w = rHxpScmd then scmdGo s d (fld v 29 28) (fld v 15 0)
  else if w = rHxpRawtx then rawTx s d (fld v 29 16) (fld v 1 0)
  else s

/-- The start fields of the MDR block (R522, R537, R541, R546). -/
def mdrPulse (s : State) (d w v : Nat) : State :=
  if w = rMdrLogack then logAck s d (fld v 9 0)
  else if w = rMdrPaircmd then whenLive s d (pairCommand s d (fld v 2 0))
  else if w = rMdrWdraw then whenLive s d (wdrawCommand s (fld v 2 0))
  else if w = rMdrInjctl then whenLive s d (injCommand s d v)
  else s

/-- Doorbells of the tenant channels (R508, R509): of an acknowledgement and a GO in one write, the acknowledgement comes first. -/
def prtPulse (s : State) (w v : Nat) : State :=
  if rPrtMbdb ≤ w ∧ w < rPrtMbdb + 1024 then
    let p := w - rPrtMbdb
    let s := if bitOf v 30 then mailAck s p false else s
    let s := if bitOf v 31 then mailGo s p false else s
    let s := if bitOf v 28 then mailAck s p true else s
    if bitOf v 29 then mailGo s p true else s
  else if rPrtRingdb ≤ w ∧ w < rPrtRingdb + 1024 then
    let p := w - rPrtRingdb
    let s := if bitOf v 31 then ringBell s p false else s
    if bitOf v 29 then ringBell s p true else s
  else s

/-- `UMB_CMD` with GO (R639); the readings of a sample are free. -/
def umbPulse (s : State) (d v : Nat) : State :=
  match fld v 29 28 with
  | 1 =>
    let r := freeReads 64 s
    sampleNow r.2 d r.1
  | 2 => replanNow s d
  | op => umbGo s d op id

/-- The start fields of the other blocks. -/
def blkPulse (s : State) (d b w v : Nat) (src : CsrSrc) : State :=
  match blkKind b with
  | some .evc =>
    if w = rEvcSet then whenLive s d (evSoft s d (fld v 11 0))
    else if w = rEvcDone then whenLive s d (completeSource s (4096 * d + fld v 11 0)) else s
  | some .chn =>
    if w = rChnIdrack then (if d = 0 ∧ dieLive s 0 ∧ getF s 0 bChn rChnIdrstat 31 31 = 1 then idrAck s else s)
    else if w = rChnUload then whenLive s d (uloadGo s (bitOf v 29)) else s
  | some .frl => if w = rFrlPttcmd then whenOn s d b (pttCommand s d (fld v 9 0)) else s
  | some .wad => if w = rWadKvcmd then whenOn s d b (kvCommand s (fld v 29 27) (fld v 23 12) (fld v 11 0)) else s
  | some .clu =>
    if w = rCluL1ctl ∧ dieLive s d ∧ !(getSpar s (gspar d (b - 0x20))).gated then l1dInvalidate s (gspar d (b - 0x20)) else s
  | some .mst =>
    if w = rMstUpdcmd ∧ mstTakes s then
      let f := takeFree s
      updCommand f.2 v (wbit f.1 0)
    else s
  | some .fus => if w = rFusProg ∧ mstUp s then fusCommand s v else s
  | some .pwr =>
    if w = rPwrGate then gateCommand s d (fld v 7 0) (fld v 9 8) (bitOf v 29) src else if w = rPwrTamper then tamperClear s else s
  | some .umb => if w = rUmbCmd then umbPulse s d v else s
  | some .sch => whenOn s d b (schPulse s d w v)
  | some .hxp => whenOn s d b (hxpPulse s d w v)
  | some .prt => whenOn s d b (prtPulse s w v)
  | some .mdr => mdrPulse s d w v
  | _ => s

/-- What the pulses of a write do: the counter clears, and the command that the register starts. `v` holds the register with the
pulses set. -/
def pulse (s : State) (d b w v p : Nat) (src : CsrSrc) : State := blkPulse (clearCounts s d b w p) d b w v src

/-! ### Fields that take a written value (R12 to R15) -/

/-- The hysteresis of a watermark pair starts on its side of the new values (R147, R166, R391). -/
def markSide (s : State) (d b w : Nat) : State :=
  let hi := getF s d b w 31 16
  let lo := getF s d b w 15 0
  match blkKind b with
  | some .clu =>
    let g := gspar d (b - 0x20)
    if w = rCluIqwm then modSpar s g fun x => { x with iqSide := startSide hi lo x.iq.length }
    else if w = rCluRlwm then modSpar s g fun x => { x with rlSide := startSide hi lo x.rl.length }
    else if w = rCluSrwm then modSpar s g fun x => { x with srSide := startSide (32 * hi) (32 * lo) (getF s d b rCluSrocc 20 0) }
    else s
  | some .sch => if w = rSchFlwm then modDie s d fun x => { x with flSide := startSide hi lo x.flows.length } else s
  | some .chn =>
    if w = rChnLdgwm then modDie s d fun x => { x with ledSide := startSide (256 * hi) (256 * lo) (getChan s d).live.length }
    else if w = rChnJwm then modDie s d fun x => { x with jSide := startSide (256 * hi) (256 * lo) (jOcc (getChan s d)) }
    else s
  | _ => s

/-- A watermark pair of a block. -/
def isMark (b w : Nat) : Bool :=
  match blkKind b with
  | some .clu => w == rCluIqwm || w == rCluRlwm || w == rCluSrwm
  | some .sch => w == rSchFlwm
  | some .chn => w == rChnLdgwm || w == rChnJwm
  | _ => false

/-- A write of the bits `m` of `EVC_CFG`: an IDLE source whose input is asserted becomes PENDING where the write enables it as a level source; the `EN` and `TYPE` of one that
is OFFERED or ACTIVE stay in force until its next routing and its next completion (R360, R363). -/
def cfgWrite (s : State) (d w v m : Nat) : State :=
  let k := w - rEvcCfg
  let late := evState s d k == evOffered || evState s d k == evActive
  let type := evLevel s d k
  let en := evOn s d k
  let s := if bitOf m 30 then modDie s d fun x => { x with evOldType := tset noFlag x.evOldType k (if late then some type else none) } else s
  let s := if bitOf m 31 then modDie s d fun x => { x with evOldEn := tset noFlag x.evOldEn k (if late then some en else none) } else s
  let s := setReg s d bEvc w v
  if !(en && type) && bitOf v 31 && bitOf v 30 && bitOf v 22 && fld v 25 24 == evIdle then setReg s d bEvc w (putFld v 25 24 evPending) else s

/-- The fixed bits of `EVC_WORLD_j` (R359). -/
def worldBits (w : Nat) : Nat := ((List.range 32).map fun i => b2n (sealedSource (32 * (w - rEvcWorld) + i)) * 2 ^ i).sum

/-- A register takes the value `v`, of which the bits `m` are written, with what the write of those fields does. -/
def fieldWrite (s : State) (d b w v m : Nat) : State :=
  if isMark b w then markSide (setReg s d b w v) d b w
  else if b = bEvc ∧ w = rEvcCoreEn then writeCoreEn s d v
  else if b = bEvc ∧ rEvcWorld ≤ w ∧ w < rEvcCfg then setReg s d b w (v ||| worldBits w)
  else if b = bEvc ∧ rEvcCfg ≤ w ∧ w < rEvcTgtLo then cfgWrite s d w v m
  else if b = bPwr ∧ w = rPwrRtcHi then { s with pw := { s.pw with rtcHeld := v } }
  else if b = bPwr ∧ w = rPwrRtcLo then rtcWrite s v
  else if b = bRtl ∧ w = rRtlWptr then setReg (setReg s d b w v) d b rRtlDropcnt 0
  else if b = bMst ∧ w = rMstUpdaddrLo then updAddrLo s v
  else if b = bMst ∧ w = rMstUpddata then updData s v
  else setReg s d b w v

/-- A message word of die 0's mailboxes whose message awaits its acknowledgement: `IBUSY` holds `PRT_MBI`, `OBUSY` holds `PRT_MBO`
(R508). -/
def mailHeld (s : State) (d b w : Nat) : Bool :=
  b == bPrt && d == 0 && hasMailbox s &&
    ((decide (rPrtMbi ≤ w) && decide (w < rPrtMbi + 0x4000) && mailBusy s ((w - rPrtMbi) / 16) 0)
      || (decide (rPrtMbo ≤ w) && decide (w < rPrtMbo + 0x4000) && mailBusy s ((w - rPrtMbo) / 16) 1))

/-- A write of RWD fields waits for the block's next enabling (R560). The fields that the hardware itself advances are live at all times, and
the blocks whose `EN` governs nothing else read theirs when they act (R560, R639; DEDUCED: log 143). -/
def holdsRwd (b w rwd : Nat) : Bool :=
  !(b == bSys || b == bMdr || b == bPwr || b == bClk || b == bUmb || (b == bRtl && w == rRtlWptr) || (b == bSch && w == rSchLuffwptr))
    && rwd != 0

/-- The fields of a register under the bits that a write names: RW fields take theirs, RWD fields while the block is disabled; a
write of an RWD field of an enabled block is counted (R12, R15, R560), and so is one of a message word that is held (R508). -/
def takeFields (s : State) (d b w v mask : Nat) (r : RegRow) : State :=
  let en := blkEn s d b
  let m := (r.rw ||| (if en then 0 else r.rwd)) &&& mask
  let s := if en && (r.rwd &&& mask) != 0 then reject s d b else s
  if m = 0 then s
  else if mailHeld s d b w then count s 0 bPrt rPrtMbrej
  else if holdsRwd b w (r.rwd &&& m) then
    let live := merged (getReg s d b w) v (r.rw &&& mask)
    let s := if r.rw &&& mask = 0 then s else fieldWrite s d b w live (r.rw &&& mask)
    parityWrite (setHeld s d b w (merged (regStored s d b w) v (r.rwd &&& m))) d b w
  else parityWrite (fieldWrite s d b w (merged (getReg s d b w) v m) m) d b w

/-- A write is counted once in `BLK_CFGREJ`, however many rules refuse it or parts of it (R15). -/
def countOnce (s t : State) (d b : Nat) : State :=
  if getReg s d b rBlkCfgrej + 1 < getReg t d b rBlkCfgrej then setReg t d b rBlkCfgrej (getReg s d b rBlkCfgrej + 1) else t

/-- A write that reaches a register: the bits of `mask` take those of `v` (R551, R557, R562). -/
def regWrite (s : State) (d b w v mask : Nat) (src : CsrSrc) : State :=
  match rowOf b w with
  | none => s
  | some r =>
    let old := getReg s d b w
    if (getDie s d).withdrawn ∧ ¬(b = bMdr ∧ w = rMdrLogack) then reject s 0 bMdr
    else if (getDie s d).rstBusy.contains b then reject s d b
    else if w = rBlkCtl then writeBlkCtl s d b ((old - (old &&& mask)) ||| (v &&& mask)) src
    else
      let t := takeFields s d b w v mask r
      let p := v &&& r.w1p &&& mask
      if p = 0 then t else countOnce s (pulse t d b w (regStored t d b w ||| p) p src) d b

/-! ### Outcomes of an access (R223, R552, R553, R654) -/

/-- The register is sealed as a whole (R223, R605). -/
def regShut (b w : Nat) : Bool := b == bDbg || b == bFus || ((rowOf b w).map (·.shut)).getD false

/-- The MST update registers, which R597 opens to the service SPI port without a set. -/
def updOpen (s : State) (src : CsrSrc) (b w : Nat) : Bool :=
  src == .port && decide (3 ≤ startLevel s) && b == bMst && decide (rMstUpdcmd ≤ w) && decide (w ≤ rMstUpddata)

/-- An access of a service port that NOSTART does not perform (R591, R654). -/
def noStartShut (s : State) (src : CsrSrc) (i : Nat) (write : Bool) : Bool :=
  let b := idxBlk i
  let w := idxWord i
  (src == .port || src == .i3c) && startLevel s == 4 && !updOpen s src b w
    && !(!write && (b == bMst || (b == bMdr && decide (rMdrLog ≤ w))))

/-- The access is refused for its register: PRIV for a core, DENIED for a port (R223, R654). -/
def accessShut (s : State) (src : CsrSrc) (i : Nat) : Bool :=
  let b := idxBlk i
  let w := idxWord i
  match src with
  | .pl1 => regShut b w
  | .pl2 => false
  | .masthead => false
  | _ => regShut b w && !updOpen s src b w

/-- 0 the access is performed, 1 it raises a bus error, 2 it is refused. -/
def csrVerdict (s : State) (src : CsrSrc) (i : Nat) (write : Bool) : Nat :=
  if noStartShut s src i write then 2 else if busBad s i write then 1 else if accessShut s src i then 2 else 0

/-- A read of the CSR space: its outcome, and the word or the bit read (R222, R551). -/
def csrRead (s : State) (src : CsrSrc) (i : Nat) : Nat × Nat × State :=
  match csrVerdict s src i false with
  | 0 =>
    let r := regRead s (idxDie i) (idxBlk i) (idxWord i)
    (0, if idxAlias i then b2n (bitOf r.1 (fld i 4 0)) else r.1, r.2)
  | 1 => (1, 0, busCount s i)
  | k => (k, 0, s)

/-- A write of the CSR space: its outcome and its effect (R222, R551). -/
def csrWrite (s : State) (src : CsrSrc) (i v : Nat) : Nat × State :=
  match csrVerdict s src i true with
  | 0 =>
    let bit := 2 ^ fld i 4 0
    (0, if idxAlias i then regWrite s (idxDie i) (idxBlk i) (idxWord i) (v % 2 * bit) bit src
        else regWrite s (idxDie i) (idxBlk i) (idxWord i) v (2 ^ 32 - 1) src)
  | 1 => (1, busCount s i)
  | k => (k, s)

/-! ### The commands -/

/-- The level of a core as the source of an access. -/
def coreSrc (s : State) (c : Nat) : CsrSrc := if levelOf s c = 2 then .pl2 else .pl1

/-- A trap of an access that was not performed. -/
def csrTrap (s : State) (k : Nat) : Res := .trap s (if k = 1 then tBuserr else tPriv) 0 0

/-- `csrrd` of an index into a D register (R222, R223, R275). -/
def csrrdOp (rd i : Nat) (c : Nat) (s : State) : Res :=
  let r := csrRead s (coreSrc s c) i
  if r.1 = 0 then .next (setD r.2.2 (.sup c) rd (w64 r.2.1)) else csrTrap r.2.2 r.1

/-- `csrwr` of an index from a D register (R222, R223, R275). -/
def csrwrOp (i v : Nat) (c : Nat) (s : State) : Res :=
  let r := csrWrite s (coreSrc s c) i v
  if r.1 = 0 then .next r.2 else csrTrap r.2 r.1

/-- CSRRD (R220 to R223, R275). -/
def execCsrrd (core : CoreId) (op : CsrForm) (s : State) : Out :=
  match op with
  | .reg rd rs1 rs2 =>
    instrDo core 2 (fun h s =>
      if rs2.val ≠ 0 then illegal s else privileged 1 (fun c s => csrrdOp rd (wfld (getD s (.sup c) rs1) 31 0) c s) h s) s
  | .imm rt fn3 rsv csridx =>
    instrDo core 4 (fun h s => if fn3 ≠ 0 ∨ rsv ≠ 0 then illegal s else privileged 1 (csrrdOp rt csridx.toNat) h s) s

/-- CSRWR (R220 to R223, R275). -/
def execCsrwr (core : CoreId) (op : CsrForm) (s : State) : Out :=
  match op with
  | .reg rd rs1 rs2 =>
    instrDo core 2 (fun h s =>
      if rd.val ≠ 0 then illegal s
      else privileged 1 (fun c s => csrwrOp (wfld (getD s (.sup c) rs1) 31 0) (wfld (getD s (.sup c) rs2) 31 0) c s) h s) s
  | .imm rt fn3 rsv csridx =>
    instrDo core 4 (fun h s =>
      if fn3 ≠ 0 ∨ rsv ≠ 0 then illegal s else privileged 1 (fun c s => csrwrOp csridx.toNat (wfld (getD s (.sup c) rt) 31 0) c s) h s) s

/-- A word of a block with a counter-clear bit (R84). -/
def isClear (b w : Nat) : Bool :=
  match blkKind b with
  | some k => (clearRows k).any fun c => c.1 == w
  | none => false

/-- COUNTER_CLEAR: a write of a counter-clear register (R84). -/
def execCounterClear (die : Nat) (blk : BitVec 8) (word : BitVec 20) (value : Csr) (s : State) : Out :=
  .next (if isClear blk.toNat word.toNat then (csrWrite s .pl2 (regIdx die blk.toNat word.toNat) value.toNat).2 else s)

/-- WATERMARK_WRITE: a write of a watermark pair (R147). -/
def execWatermarkWrite (die : Nat) (blk : BitVec 8) (word : BitVec 20) (value : Csr) (s : State) : Out :=
  .next (if isMark blk.toNat word.toNat then (csrWrite s .pl2 (regIdx die blk.toNat word.toNat) value.toNat).2 else s)

/-- REGISTER_WRITE: a write to the CSR space by its index (R222, R550). -/
def execRegisterWrite (idx value : BitVec 32) (src : CsrSrc) (s : State) : Out := .next (csrWrite s src idx.toNat value.toNat).2

end Sys2Proof.Machine
end

