-- ==== Sys2Proof/Machine/Start.lean ====
section
/-! DEFINITION. Reset and the start of the part: steps 1 to 15, image selection, start levels, the configuration record, and the
release of the supervisors (spec 19: R576 to R580, R588 to R596; 20: R609, R612, R634; 17: R549). -/

namespace Sys2Proof.Machine

/-! ### Reset (R523, R545, R563, R655) -/

/-- Every block of every populated die is reset. Madder's logs, the standby domain, the port registers and the levels of the
contacts stay. -/
def resetPart (s : State) : State :=
  let s := cutJobs s
  { keptAlways s with
    mem := s.mem, poison := s.poison
    csr := keepRegs s fun i => standbyReg i || logReg i
    dies := keptDies s
    portCnt := s.portCnt
    rawHalt := s.rawHalt
    fusesIn := s.fusesIn
    mst := { Mst.init with pwrok := s.mst.pwrok }
    pw := { Power.init with
      aux := s.pw.aux, domainLost := s.pw.domainLost, unseen := s.pw.unseen, rtcHeld := s.pw.rtcHeld, alarm := s.pw.alarm
      faultHeld := s.fatal || s.pw.faultHeld } }

/-- RESET_N_ASSERT (R563, R579). -/
def execResetNAssert (s : State) : Out :=
  .next (if s.pw.aux then (if s.mst.resetN then s else resetPart s) else { s with mst := { s.mst with resetN := true } })

/-! ### Steps 1 to 4 (R577, R580, R590) -/

/-- Debug access is closed (R603). -/
def debugClosed (s : State) : Bool := decide (2 ≤ s.fusesIn.dbg)

/-- Step 2: the fuses are read, debug closure takes effect, and each zeroisation found added is recorded (R601, R603, R615). -/
def readFuses (s : State) : State :=
  let s := s.pw.unseen.foldl (fun s c => report s 0 bPwr 0xFF 0x0721 cContained 0x00 0 0 (w64 c))
    { s with fusesIn := s.fuses, pw := { s.pw with unseen := [] } }
  { s with rawHalt := s.rawHalt && !debugClosed s }

/-- A slot is excluded for the rest of this start, recorded and counted (R580, R604). -/
def excludeSlot (s : State) (k det : Nat) : State :=
  let s := { s with mst := { s.mst with excluded := k :: s.mst.excluded } }
  report (countF s 0 bMst rMstStartstat 15 12 1) 0 bMst k det cDeferred 0x00 0 0 0

/-- Where step 10 puts the copy of an image of a set: SPF and CFG go where BOOT of the set's CFG image says, and MHF has its copy in the Masthead's
own SRAM (R577, R594). -/
def copyAt (i : StartInputs) (x : ImgSet) (k : Nat) : Option Nat :=
  let r (k : Nat) : BootRec := if k = 9 then i.recB else i.recA
  match slotKind k with
  | 2 => some i.ucsAt.toNat
  | 3 => some i.patAt.toNat
  | 4 => some (r x.cfg).spfAt.toNat
  | 5 => some (r x.cfg).cfgAt.toNat
  | _ => none

/-- The words of a whole image. -/
def imageWords (s : State) (k : Nat) : List Word := wordsOf (rdBytes (slotRd s k) 0 (imSize (slotRd s k)))

/-- Step 10: the images of the set are copied into the sealed range on die 0 (R577). -/
def copySet (s : State) (i : StartInputs) (x : ImgSet) : State :=
  x.slots.foldl (fun s k => (copyAt i x k).elim s fun a => stores s 0 a (imageWords s k)) s

/-- The bytes of a set's image as it is checked and used: its copy in memory, and for MHF its copy in SRAM, which is as the flash is (R587). -/
def copyRd (s : State) (i : StartInputs) (x : ImgSet) (k : Nat) : Nat → Nat :=
  (copyAt i x k).elim (slotRd s k) (memRd s)

/-- The check that an image fails, 0 for none (R587). -/
def slotCheck (s : State) (rd : Nat → Nat) (k : Nat) : Nat := imCheck s.fusesIn rd (slotKind k)
/-- The detector of a failed check (R604). -/
def checkDet (n : Nat) : Nat := if n = 5 then 0x0802 else 0x0801

/-- A slot whose image fails a check is excluded and recorded (R580, R604). -/
def failSlot (s : State) (rd : Nat → Nat) (k : Nat) : State := excludeSlot s k (checkDet (slotCheck s rd k))

/-- Steps 3 and 4: the best consistent set whose MHF image passes (R580, R590). Ten slots make at most ten exclusions. -/
def pickMhf : Nat → State → Option ImgSet × State
  | 0, s => (none, s)
  | n + 1, s =>
    match bestSet s with
    | none => (none, s)
    | some x => if slotCheck s (slotRd s x.mhf) x.mhf = 0 then (some x, s) else pickMhf n (failSlot s (slotRd s x.mhf) x.mhf)

/-- Step 10: the best consistent set whose copied images all pass (R580, R587, R590). -/
def pickSet (i : StartInputs) : Nat → State → Option ImgSet × State
  | 0, s => (none, s)
  | n + 1, s =>
    match bestSet s with
    | none => (none, s)
    | some x =>
      let s := copySet s i x
      match x.slots.find? fun k => slotCheck s (copyRd s i x k) k != 0 with
      | none => (some x, s)
      | some k => pickSet i n (failSlot s (copyRd s i x k) k)

/-- Step 3: the header of a COMMITTED slot that is not erased and fails check 1, 2 or 3 is recorded (R584, R604; DEDUCED: log entry 151). -/
def headerFaults (s : State) : State :=
  (List.range 10).foldl (fun s k =>
    let rd := slotRd s k
    if committed s k && !flBlank s (slotAt k) 16384 && !(check1 rd (slotKind k) && check2 rd && check3 s.fusesIn rd (slotKind k))
    then report s 0 bMst k 0x0801 cDeferred 0x00 0 0 0 else s) s

/-- The choice is shown; the loss of the last consistent set is recorded (R590, R604). -/
def showChoice (s : State) (x : Option ImgSet) (first : Bool) : State :=
  let s := if x.isNone && (first || bitOf (getReg s 0 bMst rMstSet) 31) then report s 0 bMst 0xFF 0x0806 cContained 0x00 0 0 0 else s
  showSlots (showSet s x)

/-- A boot flash that does not answer: nothing is eligible (R604, R661). -/
def noFlash (s : State) : State :=
  let s := report { s with mst := { s.mst with flashUp := false } } 0 bMst 0xFF 0x0809 cDeferred 0x00 0 0 0
  let s := report s 0 bMst 0xFF 0x0806 cContained 0x00 0 0 0
  setReg s 0 bMst rMstSlotstat (2 ^ 20 - 1)

/-- Steps 1 to 4: the start waits for PWROK at step 5 (R577). -/
def startUp (s : State) (flashOk : Bool) (straps : BitVec 18) : State :=
  let s := readFuses { s with straps := straps, mst := { s.mst with resetN := false }, pw := { s.pw with faultHeld := false } }
  let s :=
    if flashOk then
      let p := pickMhf 11 (headerFaults s)
      showChoice p.2 p.1 true
    else noFlash s
  setStep s 5

/-- RESET_N_DEASSERT (R576, R577, R641). -/
def execResetNDeassert (flashOk : Bool) (straps : BitVec 18) (s : State) : Out :=
  .next (if s.pw.aux && s.mst.resetN then startUp s flashOk straps else s)

/-- POWER_RETURN_RESET: with PWROK deasserted every die is reset as RESET_N does it, and a new start begins (R385, R612). -/
def execPowerReturnReset (flashOk : Bool) (s : State) : Out :=
  .next (if s.pw.warned && started s && !s.fatal && mstUp s && !s.mst.pwrok then startUp (resetPart s) flashOk s.straps else s)

/-! ### Steps 6 to 9: rails, clocks, links, memory (R609, R634) -/

/-- A die that fails every test. -/
def deadDie : DieTest := ⟨false, false, false, 0, 0, 0, 0, 0, []⟩
/-- The tests of a die; one whose rails do not come within range, or whose root PLL does not lock, passes none (R577, R609, R616). -/
def testOf (i : StartInputs) (d : Nat) : DieTest :=
  let t := i.tests.getD d deadDie
  if t.rails && t.pll then t else { deadDie with n85 := t.n85 }

/-- The latest record of a type in a die's state in the ageing log. -/
def ageLast (s : State) (d typ : Nat) : Option AgeRec := ((ageOf s d).filter fun r => r.typ == typ).getLast?

/-- The ageing log has just been found lost, or a LOST record says so (R634). -/
def logFresh (s : State) : Bool := s.mst.flashUp && s.fuses.history && (ageLog s).isEmpty
def logLost (s : State) : Bool := logFresh s || (s.mst.flashUp && (ageLog s).any fun r => r.typ == 4)

/-- The offsets with which a die's rails rise (R609, R634). -/
def startOffsets (s : State) (d : Nat) : Nat :=
  let all (n : Nat) := n * (1 + 2 ^ 5 + 2 ^ 10 + 2 ^ 15)
  if logLost s then all 24
  else
    match ageLast s d 2 with
    | some r => r.offs
    | none => all (getF s d bUmb rUmbCfg 23 16)

/-- The offsets of a die with its rails' targets, and the mark of a lost log (R609, R617, R634). -/
def raiseDie (s : State) (d : Nat) : State :=
  let lost := logLost s
  let s := setRails (setReg s d bUmb rUmbOffset (startOffsets s d)) d
  if lost then setF s d bUmb rUmbStat 7 7 1 else s

/-- The baselines of a die: those of its BASE record, or the readings of step 9, whose record is written after release (R634). -/
def takeBase (s : State) (i : StartInputs) (d : Nat) : State :=
  let l := (testOf i d).n85.map (·.toNat)
  let put (s : State) (v : List Nat) := (List.range 64).foldl (fun s m => setF s d bUmb (rUmbMon + m) 31 16 (v.getD m 0)) s
  (ageLast s d 1).elim (ageWant (put s l) ⟨1, d, (List.range 64).map fun m => l.getD m 0, 0, 0, 0, 0, 0⟩) fun r => put s r.mon

def allDies (s : State) : List Nat := List.range (nDies s.part)

/-- Step 6: the rails rise (R609, R634). -/
def raiseRails (s : State) : State :=
  let fresh := logFresh s
  let s := (allDies s).foldl raiseDie { s with pw := { s.pw with hv := true } }
  if fresh then ageWant (report s 0 bUmb 0xFF 0x0715 cDeferred 0x00 0 0 0) ⟨4, 0, [], 0, 0, 0, 0, 0⟩ else s

/-- Steps 7 to 9: the PLLs lock, TIMEBASE is aligned, and memory and the LLC are tested (R577, R593, R606, R634). -/
def testDies (s : State) (i : StartInputs) : State :=
  let s := alignTimes ((allDies s).foldl (fun s d => setF s d bClk rClkStat 31 30 (2 * b2n (testOf i d).pll + 1)) s)
  let s := (allDies s).foldl (fun s d =>
    takeBase { s with dramWords := tset (fun _ => 3 * 2 ^ 35) s.dramWords d (testOf i d).dram } i d) s
  let t := testOf i 0
  setF (setReg s 0 bMst rMstBpmap t.slices.toNat) 0 bMst rMstUpdcmd 21 19 t.channels.toNat

/-! ### Step 11: maps and the level (R535, R537, R549, R591) -/

/-- The ageing log holds the PE's retirement (R631). -/
def logRetired (s : State) (g p : Nat) : Bool := (ageOf s (g / 32)).any fun r => r.typ == 3 && r.spar == g % 32 && r.pe == p

/-- The PEs of a spar that pass their built-in test and are not retired. -/
def goodPes (s : State) (i : StartInputs) (g : Nat) : List Nat :=
  (List.range 9).filter fun p => (testOf i (g / 32)).pes.getLsbD (9 * (g % 32) + p) && !logRetired s g p

/-- The maps of a spar: the first eight good PEs in slots 0 to 7, a ninth spare, the others retired. -/
def mapPes (s : State) (i : StartInputs) (g : Nat) : State :=
  let l := goodPes s i g
  let s := (List.range 9).foldl (fun s k => setSlotPe s g k (if k = 8 then 15 else l.getD k 15)) s
  (List.range 9).foldl (fun s p =>
    setF s (g / 32) (bClu (g % 32)) rCluPestat (2 * p + 1) (2 * p) (if !l.contains p then 3 else if l.idxOf p = 8 then 1 else 0)) s

/-- The pairs of a die that pass. -/
def goodPairs (i : StartInputs) (d : Nat) : List Nat := (List.range 9).filter fun j => (testOf i d).pairs.getLsbD j

/-- The maps of a die's pairs: the first eight good pairs serve, a ninth is spare, the others are retired. -/
def mapPairs (s : State) (i : StartInputs) (d : Nat) : State :=
  let l := goodPairs i d
  let s := (List.range 8).foldl (fun s c => setPairOf s (8 * d + c) (l.getD c 15)) s
  (List.range 9).foldl (fun s j => setPairStat s d j (if !l.contains j then 3 else if l.idxOf j = 8 then 1 else 0)) s

/-- The spar map and the pair map of every die. -/
def mapDies (s : State) (i : StartInputs) : State :=
  (allDies s).foldl (fun s d => mapPairs ((List.range 32).foldl (fun s n => mapPes s i (gspar d n)) s) i d) s

/-- A spar of the die keeps a PE in service. -/
def hasPe (s : State) (i : StartInputs) (d : Nat) : Bool := (List.range 32).any fun n => goodPes s i (gspar d n) != []

/-- What a die's start tests lack: bit 0 links, bit 1 memory, bit 2 LLC, bit 3 PEs (R591, R604). -/
def lacks (s : State) (i : StartInputs) (d : Nat) : Nat :=
  let t := testOf i d
  b2n (!(t.links || d == 0)) + 2 * b2n (t.channels != 7) + 4 * b2n (t.slices.toNat != 2 ^ 32 - 1) + 8 * b2n (!hasPe s i d)

/-- Die 0 passes: it has a supervisor pair as well. -/
def zeroPasses (s : State) (i : StartInputs) : Bool := lacks s i 0 == 0 && goodPairs i 0 != []

/-- The minimum service set (R591). -/
def minimumMet (s : State) (i : StartInputs) : Bool :=
  let t := testOf i 0
  s.mst.flashUp && t.rails && t.pll && t.channels != 0 && goodPairs i 0 != [] && hasPe s i 0
    && decide (8 ≤ ((List.range 32).filter fun k => t.slices.getLsbD k).length)

/-- LEVEL after step 11 (R591). -/
def startedLevel (s : State) (i : StartInputs) (set : Bool) : Nat :=
  if !minimumMet s i then 4 else if !set then 3 else if zeroPasses s i then 1 else 2

/-- Dies that the level leaves out of service: at FULL those that fail, each recorded; in bare poles all but die 0 (R591, R592). -/
def leaveOut (s : State) (i : StartInputs) (level : Nat) : State :=
  ((allDies s).filter (· != 0)).foldl (fun s d =>
    let out (s : State) := modDie s d fun x => { x with withdrawn := true }
    if level ≠ 1 then out s
    else if lacks s i d = 0 then s
    else reportAt0 (out s) 0 bMst d 0x0805 cContained 0x0A 0 0 (w64 (lacks s i d))) s

/-! ### The configuration record (R594, R595) -/

/-- A word of the body of a CFG image. -/
def cfgWord (rd : Nat → Nat) (n : Nat) : Nat := rdLe rd (16384 + 8 * n) 8
/-- Type, offset and length in words of its sections. -/
def cfgSections (rd : Nat → Nat) : List (Nat × Nat × Nat) :=
  (List.range (cfgWord rd 1)).map fun j =>
    (fld (cfgWord rd (4 + 2 * j)) 63 56, fld (cfgWord rd (4 + 2 * j)) 48 0, cfgWord rd (5 + 2 * j))
/-- The header and the descriptors are well formed: each type at most once, and each section inside the body. -/
def cfgFormed (rd : Nat → Nat) : Bool :=
  fld (cfgWord rd 0) 63 32 == 0x43464731 && fld (cfgWord rd 0) 15 0 == 1 && decide (1 ≤ cfgWord rd 1) && decide (cfgWord rd 1 ≤ 64)
    && (let l := cfgSections rd
        decide ((l.map (·.1)).Nodup)
          && l.all fun x => decide (1 ≤ x.1) && decide (x.1 ≤ 7) && decide (8 * (x.2.1 + x.2.2) ≤ imBody rd))

/-- The register writes of REGS: die mask, block, register word and value. -/
def cfgRegs (rd : Nat → Nat) : List (Nat × Nat × Nat × Nat) :=
  match (cfgSections rd).find? fun x => x.1 == 1 with
  | some (_, a, n) =>
    (List.range (n / 2)).map fun j =>
      let w := cfgWord rd (a + 2 * j)
      (fld w 63 56, fld w 55 48, fld w 19 0, fld (cfgWord rd (a + 2 * j + 1)) 31 0)
  | none => []

/-- The dies in service that a mask names. -/
def maskDies (s : State) (m : Nat) : List Nat := (upDies s).filter fun d => bitOf m d

/-- An entry that makes the Masthead reject the record (R595). -/
def badEntry (s : State) (e : Nat × Nat × Nat × Nat) : Bool :=
  let b := e.2.1
  let w := e.2.2.1
  b == bFus || b == bDbg
    || (match rowOf b w with
        | none => true
        | some r => r.rw == 0 && r.rwd == 0)
    || (maskDies s e.1).any fun d => busBad s (regIdx d b w) true

/-- REGS is applied, in order (R595). -/
def applyRegs (s : State) (l : List (Nat × Nat × Nat × Nat)) : State :=
  l.foldl (fun s e =>
    (maskDies s e.1).foldl (fun s d =>
      if blkEn s d e.2.1 then s else regWrite s d e.2.1 e.2.2.1 e.2.2.2 (2 ^ 32 - 1) .masthead) s) s

/-- Topsail: all nine PEs of every spar in slots 0 to 8 (R536, R620). -/
def setTopsail (s : State) (i : StartInputs) : State :=
  (upDies s).foldl (fun s d =>
    (List.range 32).foldl (fun s n =>
      let g := gspar d n
      let s := setF s d (bClu n) rCluPectl 31 31 1
      match (goodPes s i g)[8]? with
      | some p => setF (setSlotPe s g 8 p) d (bClu n) rCluPestat (2 * p + 1) (2 * p) 0
      | none => s) s) s

/-- MODES, and the margin cap of the ageing log (R577, R620, R634, R639). -/
def applyModes (s : State) (i : StartInputs) (r : BootRec) : State :=
  let s := setF s 0 bPwr rPwrReef 1 0 r.reef.toNat
  let s := if r.assure then setF s 0 bPwr rPwrMode 30 30 1 else s
  let s := if r.topsail then setTopsail s i else s
  (upDies s).foldl (fun s d =>
    let s := setF s d bClk rClkSpread 1 0 r.spread.toNat
    modDie s d fun x => { x with cap := ((ageLast s d 2).map (·.cap)).getD 0 }) s

/-- UCS and PAT are decrypted into the store shadow (R444). -/
def fillShadow (s : State) (i : StartInputs) (x : ImgSet) : State :=
  let plain (k : Nat) := wordsOf (imPlain s.fusesIn (copyRd s i x k))
  let base := shadowBase s
  let pat := match x.pat with
    | some k => plain k
    | none => [0]
  stores (stores s 0 base (plain x.ucs)) 0 (base + 7168) pat

/-- Step 12: the record is applied and the store loader runs; or the slot to exclude and its detector (R577, R579). -/
def configure (s : State) (i : StartInputs) (x : ImgSet) : Except (Nat × Nat) State :=
  let r := if x.cfg = 9 then i.recB else i.recA
  let rd := copyRd s i x x.cfg
  let l := cfgRegs rd
  if !cfgFormed rd || l.any (badEntry s) then .error (x.cfg, 0x0804)
  else
    let s := uload (fillShadow (applyModes (applyRegs s l) i r) i x) x.pat.isSome
    if getF s 0 bChn rChnUload 28 26 ≠ 0 then .error (x.pat.getD x.ucs, 0x0803)
    else .ok (reefChange s)

/-- Steps 10 and 12 until a set passes both: a failed one leaves nothing behind but its exclusions (R580, R595). -/
def configLoop (i : StartInputs) : Nat → State → Option ImgSet × State
  | 0, s => (none, s)
  | n + 1, s =>
    let p := pickSet i 11 s
    match p.1 with
    | none => (none, p.2)
    | some x =>
      match configure p.2 i x with
      | .ok t => (some x, t)
      | .error e => configLoop i n (excludeSlot p.2 e.1 e.2)

/-! ### Steps 12 to 14: copies, devices, blocks (R342, R384, R387, R577, R596) -/

/-- The widths of the root ports of a position by its PCIEBIF straps: x16, x8 + x8, or 4 × x4; 0b11 acts as 0b00 (R641, R649). -/
def rootPorts (straps : BitVec 18) (d : Nat) : List Nat :=
  match fld straps.toNat (2 * d + 3) (2 * d + 2) with
  | 1 => [8, 8]
  | 2 => [4, 4, 4, 4]
  | _ => [16]

/-- A controller as step 13 finds it; one behind a die that is out of service, or behind a root port that the straps do not make, is out as
well. -/
def ctrlOf (s : State) (c : CtrlInfo) : Ctrl :=
  { Ctrl.init with
    die := c.die, mqes := c.mqes, sgl := c.sgl, out := !dieUp s c.die || decide ((rootPorts s.straps c.die).length ≤ c.port)
    blocks := c.blocks.foldl (fun t e => tset (fun _ => 512) t e.1.toNat e.2) [] }

/-- The largest NUMBLK limit of a die in its journal region or the ageing log, 0 for none (R384). -/
def startLimit (s : State) (ledgerOk : Bool) (d : Nat) : Nat :=
  let j := if ledgerOk then regionLimit s d else 0
  max j (ageLimit s d)

/-- Step 13: devices behind the root ports (R302, R382, R384, R387); in bare poles the journals are not read (R592). -/
def findDevices (s : State) (r : BootRec) (ledgerOk bare : Bool) : State :=
  let s := { s with
    hdm := (r.cxl.filter fun e => dieUp s e.1).map fun e => (e.1.val, e.2.1.toNat, e.2.2.toNat)
    ctrls := r.ctrls.zipIdx.foldl (fun t e => tset (fun _ => Ctrl.init) t e.2 (ctrlOf s e.1)) [] }
  let s := (List.range r.ctrls.length).foldl (fun s c => if (getCtrl s c).out then s else nvSetup s c) s
  (allDies s).foldl (fun s d =>
    let l := startLimit s (ledgerOk && !bare) d
    modChan s d fun c => { c with count := if l = 0 then (r.counts.getD d 0).toNat else l, ldevLost := !ledgerOk, limit := l }) s

/-- The block numbers of R569. -/
def blockNos : List Nat := (List.range 256).filter fun b => (blkKind b).isSome
/-- A block that bare poles leaves disabled (R592). -/
def bareOff (b : Nat) : Bool :=
  match blkKind b with
  | some .cen => true
  | some .hxp => true
  | some .frl => true
  | some .wad => true
  | _ => false

/-- Step 14: blocks are enabled, and write hints end (R336, R577, R592). -/
def enableBlocks (s : State) (bare : Bool) : State :=
  (upDies s).foldl (fun s d =>
    let s := (blockNos.filter fun b => !(bare && bareOff b)).foldl (fun s b => blkEnable s d b) s
    setF s d bCoh rCohWhctl 0 0 0) s

/-- Distinct places below `n`, chosen by free values. -/
def openPlaces : Nat → List Nat → State → List Nat × State
  | 0, _, s => ([], s)
  | m + 1, l, s =>
    let f := takeFree s
    let k := f.1.toNat % l.length
    let r := openPlaces m (l.eraseIdx k) f.2
    (l.getD k 0 :: r.1, r.2)

/-- The start block: the word addresses of the SPF copy, the CFG copy, the SAIL section, the in-doubt report and the store shadow, and `MST_SET`
(R596). Which of its 64 words holds which, and what the others hold, is open: their places and the rest are free (log entry 112). -/
def startBlock (s : State) (i : StartInputs) (x : ImgSet) : List Word × State :=
  let r := if x.cfg = 9 then i.recB else i.recA
  let sail := ((cfgSections (copyRd s i x x.cfg)).find? fun e => e.1 == 6).map fun e => r.cfgAt.toNat + 2048 + e.2.1
  let given := [r.spfAt.toNat, r.cfgAt.toNat, sail.getD 0, baseOf s 0 bChn rChnIdrbaseHi, shadowBase s, getReg s 0 bMst rMstSet]
  let f := freeWords 64 s
  let p := openPlaces 6 (List.range 64) f.2
  ((p.1.zip given).foldl (fun l e => l.set e.1 (w64 e.2)) f.1, p.2)

/-- `VBAR2` of every core in service, which a later restart takes too, and the rest of the record in force (R342, R594). -/
def writeVbars (s : State) (r : BootRec) : State :=
  let s := { s with mst := { s.mst with vbar2 := r.vbar2, record := some r } }
  ((List.range 64).filter fun c => dieUp s (c / 8)).foldl (fun s c => setSpr s c (zLevel 2) (r.vbar2.setWidth 64)) s

/-- The cores of dies in service that a pair serves. -/
def pairedCores (s : State) : List Nat := (List.range 64).filter fun c => dieUp s (c / 8) && pairOf s c != 15

/-- The supervisors are released: the start is over (R342, R577). -/
def releaseCores (s : State) (level : Nat) : State :=
  let s := s.release.foldl startCore s
  setStep (setLevel { s with release := [], fuses := { s.fuses with history := true } } level) 15

/-- What follows a configured set: devices, blocks, the start block; bare poles releases at once, and FULL waits at step 14
for the journals (R577, R592, R596). -/
def finishStart (s : State) (i : StartInputs) (x : ImgSet) (level : Nat) : State :=
  let r := if x.cfg = 9 then i.recB else i.recA
  let s := enableBlocks (findDevices s r i.ledgerOk (level != 1)) (level != 1)
  let f := startBlock s i x
  let s := writeVbars (stores f.2 0 r.startBlock.toNat f.1) r
  let s := { s with i3c := { s.i3c with peer := r.i3cTo.toNat }, release := pairedCores s }
  if level = 1 then setStep s 14 else releaseCores s level

/-- The start ends in BARE_NOSET: the Masthead only (R591, R592). -/
def bareNoSet (s : State) (i : StartInputs) : State := setLevel (setStep (leaveOut s i 3) 11) 3
/-- The start ends in NOSTART (R591). -/
def noStart (s : State) : State := setLevel (setStep (report s 0 bMst 0xFF 0x0807 cFatal 0x0C 0 0 0) 11) 4

/-- Step 10, where the flash answers. -/
def stepTen (s : State) (i : StartInputs) : Option ImgSet × State := if s.mst.flashUp then pickSet i 11 s else (none, s)

/-- Steps 6 to 14 (R577). -/
def bringUp (s : State) (i : StartInputs) : State :=
  let s := testDies (raiseRails s) i
  let p := stepTen s i
  let s := mapDies (if s.mst.flashUp then showChoice p.2 p.1 false else s) i
  let level := startedLevel s i p.1.isSome
  if level = 4 then noStart s
  else if level = 3 then bareNoSet s i
  else
    let q := configLoop i 11 (leaveOut s i level)
    match q.1 with
    | none => bareNoSet (showChoice q.2 none false) i
    | some x => finishStart (showChoice q.2 (some x) false) i x level

/-- The start as it stands in step `n`, from 6 to 13, with the exclusions that it has made by then (R577, R579, R580). -/
def atStep (s : State) (i : StartInputs) (n : Nat) : State :=
  let s := raiseRails s
  let s := if n < 9 then s else testDies s i
  let s := if n < 10 then s else (stepTen s i).2
  let s := if n < 12 then s else (configLoop i 11 (leaveOut (mapDies s i) i (startedLevel (mapDies s i) i true))).2
  setStep s n

/-- A start goes on from step 5, unless an event ends it before step 14: the loss of PWROK or PFW_N brings the rails down and it returns to step
5; a FATAL detection ends it, and it waits for RESET_N (R579). -/
def goOn (s : State) (i : StartInputs) : State :=
  match i.ends with
  | none => bringUp s i
  | some (.power n) =>
    let s := atStep s i (6 + n)
    backToFive { s with mst := { s.mst with pwrok := false } }
  | some (.fault n r) =>
    let t := detection (atStep s i (6 + n)) r
    if t.fatal then t else bringUp s i

/-- PWROK_ASSERT: step 5 is passed (R577, R579, R609). -/
def execPwrokAssert (inputs : StartInputs) (s : State) : Out :=
  let s := { s with mst := { s.mst with pwrok := true } }
  .next (if mstUp s ∧ startStep s = 5 ∧ !s.fatal then goOn s inputs else s)

/-- JOURNAL_REPLAY: step 14 ends with the in-doubt report, and step 15 releases the supervisors (R386, R577, R579). -/
def execJournalReplay (redrives : List Redrive) (s : State) : Out :=
  .next
    (if startStep s = 14 ∧ s.pw.hv ∧ !s.pw.warned ∧ dieLive s 0 then
       match journalReplay s redrives with
       | some s => releaseCores s 1
       | none => s
     else s)

end Sys2Proof.Machine
end

