-- ==== Sys2Proof/Machine/Ports.lean ====
section
/-! DEFINITION. The service SPI port, the I3C port, the test access port, and the Ethernet link contacts (spec 21: R650 to R663). -/

namespace Sys2Proof.Machine

/-! ### Words, OUT and accesses (R651 to R655) -/

def getPort (s : State) : PortId → Port
  | .spi => s.spi
  | .i3c => s.i3cPort
def modPort (s : State) (p : PortId) (f : Port → Port) : State :=
  match p with
  | .spi => { s with spi := f s.spi }
  | .i3c => { s with i3cPort := f s.i3cPort }

/-- The status word (R653). -/
def statusWord (x : Port) : BitVec 32 :=
  w32 ((if x.access.isSome then 2 ^ 30 else 2 ^ 31) + x.result % 8 * 2 ^ 27 + b2n x.frm * 2 ^ 26 + x.nseq % 256 * 2 ^ 16 + 0xA5)

/-- A port register (R655). -/
def portReg (s : State) (n : Nat) : Nat := tget (fun _ => 0) s.portCnt n
/-- A port register counts one more. -/
def portCount (s : State) (n : Nat) : State :=
  { s with portCnt := tset (fun _ => 0) s.portCnt n (satAdd 32 (portReg s n) 1) }

/-- OUT holds the status word. -/
def showStatus (s : State) (p : PortId) : State := modPort s p fun x => { x with out := statusWord x }

/-- The source of a discarded word at a port (R651, R663). -/
def discardSrc : PortId → Nat
  | .spi => 0xC42
  | .i3c => 0xC43

/-- A word is discarded: a transaction whose access has not started is abandoned (R651). -/
def discardWord (s : State) (p : PortId) (n : Nat) : State :=
  evRaise (showStatus (modPort (portCount s n) p fun x => { x with want := .command, frm := true }) p) 0 (discardSrc p)

/-- A sequence error is counted and otherwise ignored (R652). -/
def seqError (s : State) : State := portCount s 3

/-- PORTCLR (R652). -/
def portClear (s : State) (mask : Nat) : State :=
  { s with portCnt := s.portCnt.filter fun e => !bitOf mask e.1 }

/-- A command word is accepted (R652). -/
def acceptCommand (s : State) (p : PortId) (w : Nat) : State :=
  let idle := (getPort s p).access.isNone
  let rest := fld w 27 0
  let plain (s : State) := showStatus (modPort s p fun x => { x with picked := false }) p
  match fld w 31 28 with
  | 1 => plain (if idle ∧ rest = 0 then modPort s p fun x => { x with want := .readIndex, frm := false } else seqError s)
  | 2 => plain (if idle ∧ rest = 0 then modPort s p fun x => { x with want := .writeIndex, frm := false } else seqError s)
  | 3 => plain (if rest = 0 then s else seqError s)
  | 4 =>
    if rest = 0 then modPort s p fun x => { x with picked := true, out := x.rdata.getD (statusWord x) } else plain (seqError s)
  | 5 =>
    if rest < 256 then modPort s p fun x => { x with picked := true, out := w32 (portReg s rest) } else plain (seqError s)
  | 6 => plain (if idle ∧ rest < 256 then portClear s rest else seqError s)
  | _ => plain (seqError s)

/-- A word is accepted: a command, or what a READ or a WRITE waits for (R652, R653). -/
def acceptWord (s : State) (p : PortId) (w : BitVec 32) : State :=
  let start (a : BitVec 32 × Option (BitVec 32)) :=
    showStatus (modPort s p fun x => { x with want := .command, access := some a, picked := false }) p
  match (getPort s p).want with
  | .command => acceptCommand s p w.toNat
  | .readIndex => start (w, none)
  | .writeIndex => showStatus (modPort s p fun x => { x with want := .writeData w, picked := false }) p
  | .writeData i => start (i, some w)

/-- An access ends (R653, R654). -/
def endAccess (s : State) (p : PortId) (result : Nat) (data : Option (BitVec 32)) : State :=
  let s := modPort s p fun x => { x with access := none, result := result, nseq := (x.nseq + 1) % 256, rdata := data }
  let s := if (getPort s p).picked then s else showStatus s p
  if result = 2 then evRaise s 0 0xC46 else s

/-- Nothing answers at an index: its die has no power, and the block does not run from AUX (R607, R654). -/
def noAnswer (s : State) (i : Nat) : Bool :=
  let b := idxBlk i
  !s.pw.hv && !(idxDie i == 0 && (b == bMdr || b == bMst || b == bFus || b == bDbg))

def portSrc : PortId → CsrSrc
  | .spi => .port
  | .i3c => .i3c

/-- The access in progress is made, or has had no answer for 100 µs (R654). -/
def portAccess (s : State) (p : PortId) (timeout : Bool) : State :=
  match (getPort s p).access with
  | none => s
  | some (i, data) =>
    if noStartShut s (portSrc p) i.toNat data.isSome then endAccess s p 2 none
    else if timeout || noAnswer s i.toNat then endAccess s p 1 none
    else
      match data with
      | none =>
        let r := csrRead s (portSrc p) i.toNat
        endAccess r.2.2 p r.1 (if r.1 = 0 then some (w32 r.2.1) else none)
      | some v =>
        let r := csrWrite s (portSrc p) i.toNat v.toNat
        endAccess r.2 p r.1 none

/-! ### The SPI port (R650, R651) -/

/-- The first bits of OUT, most significant first, as SPI_MISO shifts them. -/
def outBits (w : BitVec 32) (n : Nat) : List Bool := (List.range (min n 32)).map fun k => w.getLsbD (31 - k)

/-- A frame of `n` rising edges shifts OUT. -/
def shiftOut (s : State) (n : Nat) : State := if n = 0 then s else give s (.spi (outBits s.spi.out n))

/-- SPI_CS_N rises after `n` edges (R651). -/
def spiFrame (s : State) (n : Nat) (w : BitVec 32) : State :=
  if s.spiDead then { s with spiDead := false }
  else
    let s := shiftOut s n
    if n = 0 then s
    else if n < 32 then discardWord s .spi 0
    else acceptWord (if n = 32 then s else portCount s 2) .spi w

/-- SPI_CLK is idle for 2 µs after `n` edges (R651). -/
def spiIdle (s : State) (n : Nat) : State :=
  if s.spiDead ∨ n = 0 ∨ 32 ≤ n then s else discardWord { shiftOut s n with spiDead := true } .spi 1

/-- A command of a port: the Masthead that serves it works (R576, R655). -/
def portDo (s t : State) : Out := .next (if mstUp s then t else s)

/-- SPI_FRAME (R651). -/
def execSpiFrame (edges : Nat) (word : BitVec 32) (s : State) : Out := portDo s (spiFrame s edges word)
/-- SPI_IDLE_TIMEOUT (R651). -/
def execSpiIdleTimeout (edges : Nat) (s : State) : Out := portDo s (spiIdle s edges)

/-- A word reaches a port: in an SPI frame of its own, or in a private write. -/
def portWord (s : State) (p : PortId) (w : BitVec 32) : State :=
  match p with
  | .spi => spiFrame s 32 w
  | .i3c => acceptWord s .i3c w

/-- A command word by its OP and what follows it. -/
def hostWord (op rest : Nat) : BitVec 32 := w32 (op * 2 ^ 28 + rest)

/-- READ: the word and its index (R652). -/
def execRead (port : PortId) (idx : BitVec 32) (s : State) : Out := portDo s (portWord (portWord s port (hostWord 1 0)) port idx)
/-- WRITE: the word, its index and its data (R652). -/
def execWrite (port : PortId) (idx value : BitVec 32) (s : State) : Out :=
  portDo s (portWord (portWord (portWord s port (hostWord 2 0)) port idx) port value)
/-- POLL (R652). -/
def execPoll (port : PortId) (s : State) : Out := portDo s (portWord s port (hostWord 3 0))
/-- RDATA (R653). -/
def execRdata (port : PortId) (s : State) : Out := portDo s (portWord s port (hostWord 4 0))
/-- PORTRD (R653). -/
def execPortrd (port : PortId) (reg : BitVec 8) (s : State) : Out := portDo s (portWord s port (hostWord 5 reg.toNat))
/-- PORTCLR (R652). -/
def execPortclr (port : PortId) (mask : BitVec 8) (s : State) : Out := portDo s (portWord s port (hostWord 6 mask.toNat))
/-- PORT_ACCESS_END (R654). -/
def execPortAccessEnd (port : PortId) (timeout : Bool) (s : State) : Out := portDo s (portAccess s port timeout)

/-! ### The I3C port (R656 to R659) -/

/-- Four bytes as a word, most significant first (R657). -/
def beWord (l : List Byte) : BitVec 32 := w32 (l.foldl (fun a b => a * 256 + b.toNat) 0)
def msBytes (n : Nat) (v : Nat) : List Byte := (List.range n).map fun k => BitVec.ofNat 8 (v / 256 ^ (n - 1 - k))

/-- The words of a private write; a last partial word is discarded (R657). -/
def takeWords (s : State) : List (List Byte) → State
  | [] => s
  | l :: t => takeWords (if l.length = 4 then acceptWord s .i3c (beWord l) else discardWord s .i3c 4) t

/-- I3C_PRIVATE_WRITE (R657). -/
def execI3cPrivateWrite (bytes : List Byte) (s : State) : Out := portDo s (takeWords s (chunks 4 bytes))

/-- I3C_PRIVATE_READ: OUT is returned, and the read is taken as a POLL word (R657). -/
def execI3cPrivateRead (s : State) : Out :=
  portDo s (acceptWord (give s (.i3c (msBytes 4 s.i3cPort.out.toNat))) .i3c (hostWord 3 0))

/-- A protocol error of the I3C port (R655, R663). -/
def i3cError (s : State) : State := evRaise (portCount s 4) 0 0xC43

def modI3c (s : State) (f : I3c → I3c) : State := { s with i3c := f s.i3c }

/-- Bytes are returned to the controller. -/
def i3cGive (s : State) (l : List Byte) : State := give s (.i3c l)
/-- Bytes that the spec leaves open are returned. -/
def i3cGiveFree (s : State) (n : Nat) : State :=
  let f := takeFree s
  i3cGive f.2 (msBytes n f.1.toNat)

/-- The provisional ID (R656). -/
def i3cPid (s : State) : Nat := Config.mipiId.toNat * 2 ^ 33 + wfld s.fusesIn.dieid 31 0
/-- The bus characteristics: the controller role, IBI and its data byte; no HDR mode (R656). -/
def i3cBcr (f : Word) : Nat := 0x46 + wfld f 0 0 * 0x01 + wfld f 2 1 * 0x08

/-- The static address (R656). -/
def staticAddr (s : State) : Nat := 0x2C + s.straps.toNat % 4

/-- A dynamic address, in bits [7:1] of its byte. -/
def addrOf (data : List Byte) : Option Nat := data.head?.map fun b => b.toNat / 2

/-- The target takes the controller role and sends its waiting causes to the address that the configuration record names, then
offers the role back (R659). -/
def takeRole (s : State) (sent accepted : Bool) : State :=
  if s.i3c.role then s
  else
    let s := evRaise (modI3c s fun x => { x with role := true }) 0 0xC44
    let l := [1, 2, 3].filter fun b => bitOf s.i3c.causes b
    let s := l.foldl (fun s b => give s (.i3cSend s.i3c.peer [BitVec.ofNat 8 b, 0, 0, 0])) s
    let s := if sent then modI3c s fun x => { x with causes := 0, again := none, nacks := 0 } else s
    let s := give s (.i3cOffer s.i3c.peer)
    if accepted then evRaise (modI3c s fun x => { x with role := false }) 0 0xC45 else s

/-- The common command codes that the port accepts (R656): SETDASA names the target's static address in its first byte and the new address in its
second; the code numbers are those of MIPI I3C Basic. -/
def i3cCode (s : State) (code : Nat) (data : List Byte) : State :=
  let on := ((data.head?.map (·.getLsbD 0)).getD false)
  if code = 0x00 ∨ code = 0x80 then (if on then modI3c s fun x => { x with enabled := true } else s)
  else if code = 0x01 ∨ code = 0x81 then (if on then modI3c s fun x => { x with enabled := false } else s)
  else if code = 0x06 then modI3c s fun x => { x with dynamic := none }
  else if code = 0x07 then
    if s.i3c.dynamic.isSome then s
    else
      let f := takeFree s
      let s := i3cGive f.2 (msBytes 6 (i3cPid s) ++ msBytes 1 (i3cBcr f.1) ++ msBytes 1 (wfld f.1 15 8))
      modI3c s fun x => { x with dynamic := addrOf data }
  else if code = 0x87 then
    (if s.i3c.dynamic.isSome ∨ addrOf data ≠ some (staticAddr s) then s else modI3c s fun x => { x with dynamic := addrOf (data.drop 1) })
  else if code = 0x88 then (if s.i3c.dynamic.isSome then modI3c s fun x => { x with dynamic := addrOf data } else s)
  else if code = 0x8B then i3cGiveFree s 2
  else if code = 0x8C then i3cGiveFree s 3
  else if code = 0x8D then i3cGive s (msBytes 6 (i3cPid s))
  else if code = 0x8E then
    let f := takeFree s
    i3cGive f.2 (msBytes 1 (i3cBcr f.1))
  else if code = 0x8F then i3cGiveFree s 1
  else if code = 0x90 then i3cGiveFree s 2
  else if code = 0x91 then
    let f := takeFree s
    takeRole f.2 (wbit f.1 0) (wbit f.1 1)
  else i3cError s

/-- I3C_CCC (R656). -/
def execI3cCcc (code : BitVec 8) (data : List Byte) (s : State) : Out := portDo s (i3cCode s code.toNat data)

/-- An in-band interrupt for cause `b` is sent; a NACK is counted, and after eight sendings again the cause is given up (R658). -/
def sendIbi (s : State) (b : Nat) (acked : Bool) : State :=
  let s := give s (.ibi b)
  let drop (x : I3c) : I3c := { x with causes := x.causes - (x.causes &&& 2 ^ b), again := none, nacks := 0 }
  if acked then modI3c s drop
  else if s.i3c.nacks < 8 then i3cError (modI3c s fun x => { x with again := some b, nacks := x.nacks + 1 })
  else i3cError (modI3c s drop)

/-- The port may send an IBI (R656, R658). -/
def ibiReady (s : State) : Bool := s.i3c.enabled && s.i3c.dynamic.isSome && !s.i3c.role

/-- The cause that waits first, in byte order. -/
def firstCause (s : State) : Option Nat := [1, 2, 3].find? fun b => bitOf s.i3c.causes b

/-- The IBI wins the arbitration of the address header: no header comes at the same START, or one with a higher address. A lower address wins over
it, and so does the controller's own header for the port, a write by its RnW bit and a read because the port abandons the IBI; the IBI then waits for
the next START that it may use, and the transfer is a command of its own (R660). -/
def ibiWins (s : State) (x : IbiStart) : Bool :=
  match x.rival, s.i3c.dynamic with
  | some (a, _), some dyn => decide (dyn < a.toNat)
  | _, _ => true

/-- IBI (R658, R660). -/
def execIbi (start : IbiStart) (s : State) : Out :=
  portDo s
    (match firstCause s with
      | some b => if ibiReady s ∧ s.i3c.again = none ∧ ibiWins s start then sendIbi s b start.acked else s
      | none => s)

/-- IBI_RETRY: a NACKed IBI is sent again after 1 ms (R658, R660). -/
def execIbiRetry (start : IbiStart) (s : State) : Out :=
  portDo s
    (match s.i3c.again with
      | some b => if ibiReady s ∧ ibiWins s start then sendIbi s b start.acked else s
      | none => s)

/-- GETACCCR: the active controller hands over the role; `sent` says that the target took the causes, `accepted` that it took the
role back (R659). -/
def execGetacccr (sent accepted : Bool) (s : State) : Out := portDo s (takeRole s sent accepted)

/-- CONTROLLER_ROLE_REQUEST: the port hands the role over at once (R659). -/
def execControllerRoleRequest (s : State) : Out :=
  portDo s (if s.i3c.role then evRaise (modI3c s fun x => { x with role := false }) 0 0xC45 else s)

/-! ### Ethernet link (R406) -/

/-- ETHERNET_LINK_CHANGE: `HXP_PORT.LINK` of a sub-port (R391, R406). -/
def execEthernetLinkChange (die : Nat) (sub : Fin 4) (up : Bool) (s : State) : Out :=
  unitDo s die (dieLive s die && s.pw.hv && decide (sub.val < subPorts s die)) (setF s die bHxp rHxpPort sub.val sub.val (b2n up))

/-! ### The test access port (R603, R662) -/

def partNumber : PartKind → Nat
  | .p7808 => 0x7808
  | .p7404 => 0x7404
  | .p7202 => 0x7202

/-- IDCODE (R662). -/
def idcode (p : PartKind) : BitVec 32 := w32 (0xA * 2 ^ 28 + partNumber p * 2 ^ 12 + Config.jedecId.toNat * 2 + 1)

/-- TDO shifts bits, the first one first. -/
def tdo (s : State) (l : List Bool) : State := give s (.tdo l)

/-- BYPASS: one stage, which captures 0. -/
def tapBypass (s : State) (l : List Bool) : State := tdo s (if l.isEmpty then [] else false :: l.dropLast)

/-- Free bits, in words of 64. -/
def freeBits (n : Nat) (s : State) : List Bool × State :=
  let f := freeWords ((n + 63) / 64) s
  ((List.range n).map fun k => ((f.1.getD (k / 64) 0).getLsbD (k % 64)), f.2)

/-- A scan of the boundary register, which captures the levels of the contacts: those are free, and its cells are as many as the part has (R641,
R662; log entry 152). What has been shifted in is latched. -/
def tapScan (s : State) (l : List Bool) : State :=
  let f := freeBits Config.boundaryCells s
  let line := f.1 ++ l
  tdo { f.2 with tap := { f.2.tap with latch := line.drop l.length } } (line.take l.length)

/-- The 32 bits of IDCODE and then what is shifted in. -/
def tapIdcode (s : State) (l : List Bool) : State :=
  tdo s ((((List.range 32).map fun k => (idcode s.part).getLsbD k) ++ l).take l.length)

/-- The instruction register takes an instruction; once debug access is closed any but the four of IEEE 1149.1 acts as BYPASS (R603, R662). -/
def tapLoad (s : State) (i : TapIns) : State := { s with tap := { s.tap with ir := i } }

/-- Debug instructions run: debug access is not closed, and `DBG_CTL.TAPEN` is 1 (R603). -/
def debugRuns (s : State) : Bool := !debugClosed s && getF s 0 bDbg rDbgCtl 0 0 == 1

/-- The raw debug-halt input takes a level; once debug access is closed it is held deasserted (R355, R603). -/
def haltInput (s : State) (on : Bool) : State :=
  if debugClosed s ∨ s.rawHalt = on then s else rawChange { s with rawHalt := on } 0

/-- A scan under the instruction of the register (R603, R662). -/
def tapUnder (s : State) (l : List Bool) : Out :=
  match s.tap.ir with
  | .idcode => .next (tapIdcode s l)
  | .bypass => .next (tapBypass s l)
  | .samplePreload => .next (tapScan s l)
  | .extest => .next (tapScan s l)
  | .debug _ => if debugRuns s then .refused .debugUnit else .next (tapBypass s l)

/-- TEST_ACCESS_PORT_OPERATION (R603, R662); TRST_N selects IDCODE (log entry 152). -/
def execTestAccessPortOperation (op : TapOp) (s : State) : Out :=
  if !s.pw.aux then .next s
  else
    match op with
    | .idcode => tapUnder (tapLoad s .idcode) (List.replicate 32 false)
    | .bypass l => tapUnder (tapLoad s .bypass) l
    | .samplePreload l => tapUnder (tapLoad s .samplePreload) l
    | .extest l => tapUnder (tapLoad s .extest) l
    | .debug c l => tapUnder (tapLoad s (.debug c)) l
    | .scan l => tapUnder s l
    | .trst => .next (tapLoad s .idcode)
    | .halt on => .next (haltInput s on)

/-! ### One TCLK (R614, R619) -/

/-- The real-time clock of the standby domain: whether its oscillator completes a period in this TCLK is free (R614). -/
def rtcTick (s : State) : State :=
  if s.pw.domainLost then s
  else
    let f := takeFree s
    if wbit f.1 0 then
      let n := rtcNow f.2 + 1
      setReg (setReg f.2 0 bPwr rPwrRtcHi (n / 2 ^ 32 % 2 ^ 16)) 0 bPwr rPwrRtcLo (n % 2 ^ 32)
    else f.2

/-- TIMEBASE of every populated die counts one TCLK, and a DESTROY that waits for nothing more ends (R498, R614, R619). -/
def tick (s : State) : State :=
  strmSettle (destroySettle (rtcTick ((List.range (nDies s.part)).foldl (fun s d => modDie s d fun x => { x with timebase := x.timebase + 1 }) s)))

end Sys2Proof.Machine
end

