-- ==== Sys2Proof/Machine/Sequencer.lean ====
section
/-! DEFINITION. The decimal sequencer of a spar: what its microcode does with a request, and how the request ends (spec 07: R247 to R250;
14: R449, R450). -/

namespace Sys2Proof.Machine

/-- The sequencer's one context while it serves a request. -/
structure SeqCtx where
  upc : Nat
  /-- return addresses, latest first -/
  stk : List Nat
  v : Tab Word
  deriving DecidableEq, Repr

/-- How the microcode ends a request. -/
inductive SeqEnd
  /-- END: the result, and whether `DOV` is set -/
  | result (v : Wide) (dov : Bool)
  /-- DEXC: the packed-decimal data exception -/
  | dexc
  /-- a condition that would cause a micro-trap, at a micro address -/
  | fault (upc : Nat)
  /-- no store is loaded -/
  | runs
  deriving DecidableEq, Repr

/-- The entry of a request: operation 0 `padd`, 1 `psub`, 2 `pchk` (R449). -/
def seqEntry (op : Nat) (wide : Bool) : Nat := 8 * (if op = 2 then 2 + b2n wide else op + 4 * b2n wide)

/-- The context at the start of a request (R449). -/
def seqStart (j : DecJob) : SeqCtx :=
  ⟨seqEntry j.op j.wide, [],
    [loHalf j.a, hiHalf j.a, loHalf j.b, hiHalf j.b].zipIdx.foldl (fun t p => tset (fun _ => 0) t p.2 p.1) []⟩

/-- The microword and nano-word at the context's address (R432, R433). -/
def seqWord (u : UStores) (x : SeqCtx) : UWord :=
  let m := tget (fun _ => 0) u.smicro x.upc
  ⟨m, tget (fun _ => 0) u.snano (fld m 21 13)⟩

/-- Operand codes: V0 to V15, `LIT` as a source, and ZERO (R449). -/
def seqSrcOk (n : Nat) : Bool := decide (n ≤ 0xF) || n == 0x20 || n == 0x21
def seqDestOk (n : Nat) : Bool := decide (n ≤ 0xF) || n == 0x21

/-- A code that the sequencer calls invalid (R434 to R439, R449). -/
def seqIll (w : UWord) : Bool :=
  fld w.micro 21 20 != 0 || fld w.micro 11 10 != 0 || !(seqSrcOk w.a && seqSrcOk w.b && seqDestOk w.d)
    || (w.fen && !(seqSrcOk w.fsrc && seqDestOk w.fdest)) || decide (0xA < w.alu) || w.mem != 0 || w.io != 0
    || !(w.ctl == 0 || w.ctl == 1 || w.ctl == 4) || decide (4 < w.ncond) || ((List.range w.ncond).any fun i => !cselOk (w.csel i))

def seqSrc (x : SeqCtx) (w : UWord) (n : Nat) : Word :=
  if n ≤ 0xF then tget (fun _ => 0) x.v n else if n = 0x20 then w64 w.lit else 0
def seqDest (x : SeqCtx) (n : Nat) (v : Word) : SeqCtx := if n ≤ 0xF then { x with v := tset (fun _ => 0) x.v n v } else x

/-- A condition: those of reads, timers, ports and traps, of which the sequencer has none, are false (R439, R449; log entry 67). -/
def seqCond (pfail : Bool) (n : Nat) (r : Word) (carry : Bool) : Bool :=
  if n = 1 then true
  else if n = 2 then r == 0
  else if n = 3 then wbit r 63
  else if n = 4 then carry
  else if n = 8 then pfail
  else if 0x10 ≤ n then wbit r (n - 0x10)
  else false

/-- The next micro address and stack (R438). -/
def seqNext (x : SeqCtx) (w : UWord) (cond : Nat) : SeqCtx :=
  let up := (x.upc + 1) % 1024
  match w.seq with
  | 0 => { x with upc := up }
  | 1 => { x with upc := w.ba ||| cond }
  | 2 => { x with stk := up :: x.stk, upc := w.ba ||| cond }
  | _ => { x with stk := x.stk.drop 1, upc := x.stk.headD 0 ||| cond }

/-- One microword: how the request ends with it, or the context after it (R433 to R440, R449). -/
def seqStep (u : UStores) (pfail : Bool) (x : SeqCtx) : Except SeqEnd SeqCtx :=
  let w := seqWord u x
  if seqIll w || (w.seq == 2 && decide (4 ≤ x.stk.length)) || (w.seq == 3 && x.stk.isEmpty) then .error (.fault x.upc)
  else
    let r := uAlu w.alu (seqSrc x w w.a) (seqSrc x w w.b)
    let f := uField (seqSrc x w w.fsrc) w.fpos w.flen
    let cond := ((List.range w.ncond).map fun i => b2n (seqCond pfail (w.csel i) r.1 r.2) * 2 ^ i).sum
    let x := seqDest x w.d r.1
    let x := if w.fen then seqDest x w.fdest f else x
    if w.ctl = 1 then .error (.result (mkWide (tget (fun _ => 0) x.v 5) (tget (fun _ => 0) x.v 4)) (wbit (tget (fun _ => 0) x.v 6) 0))
    else if w.ctl = 4 then .error .dexc
    else .ok (seqNext x w cond)

/-- Cycles of a microword (R437). -/
def seqCycles (w : UWord) : Nat := fld w.nano 159 158 + 1

/-- The microcode runs: `left` cycles, of which a microword takes at least one, are left until LONGRUN, which is a condition that would
cause a micro-trap too (R426, R437, R440, R449). The count of R426 in the sequencer's PCLK is DEDUCED (log entry 67). -/
def seqRun (u : UStores) (pfail : Bool) : Nat → Nat → SeqCtx → SeqEnd
  | 0, _, x => .fault x.upc
  | n + 1, left, x =>
    if left = 0 then .fault x.upc
    else
      match seqStep u pfail x with
      | .error e => e
      | .ok y => seqRun u pfail n (left - seqCycles (seqWord u x)) y

/-- How the loaded microcode ends a request: `runs` where no store is loaded (R446, R449). -/
def seqEnd (s : State) (g : Nat) (j : DecJob) : SeqEnd :=
  if s.ustores.on then seqRun s.ustores (pfail s (g / 32)) 16384 16384 (seqStart j) else .runs

/-- How a request ends. Every image that the Masthead loads gives the results and exceptions of R244 to R246 for every operand value, which
the hardware does not check (R190, R247, R450); a condition that would cause a micro-trap ends it instead (R449). -/
def decEnd (s : State) (g : Nat) (j : DecJob) : SeqEnd :=
  match seqEnd s g j with
  | .fault upc => .fault upc
  | _ => (decResult j.op j.wide j.a j.b).elim .dexc fun r => .result r.1 r.2

/-- The sequencer writes a result or reports the exception, which a PE that checks takes from its leader (R529); the result of a discarded
scope is dropped (R248, R250). What would be a micro-trap in an engine is a transient error of the requesting PE, and is recorded with
the micro address (R250, R449). -/
def decFinish (s : State) (g : Nat) : State :=
  match (getSpar s g).decRun with
  | none => s
  | some j =>
    let k := peKey g j.pe
    let free := modSpar s g fun x => { x with decRun := none }
    let go := modPe free k fun p => { p with decimal := false }
    let pc := hartPc free (.pe k)
    match decEnd s g j with
    | .runs => s
    | .fault upc =>
      let t := report (if j.live then go else free) (g / 32) (bClu (g % 32)) 0xFF 0x0112 cDeferred 0x00 0 0 (w64 upc)
      if j.live then transient t k 0x0112 0 (w64 upc) false else t
    | .dexc => if !j.live then free else if leader go k ≠ k then go else peTrap go k 0 tDecimal 0 0 pc
    | .result v dov =>
      if !j.live then free
      else if leader go k ≠ k then go
      else mirror (setPc (decWrite go (.pe k) j.op j.wide j.rd (v, dov)) (.pe k) (pc + 2)) k

/-- DECIMAL_RESULT (R248). -/
def execDecimalResult (die spar : Nat) (s : State) : Out := sparDo s die spar (decFinish s (gspar die spar))

end Sys2Proof.Machine
end

