-- ==== Sys2Proof/Machine/Dispatch.lean ====
section
/-! DEFINITION. The dispatch of commands to their meanings, one arm for each row of the command table. -/

namespace Sys2Proof.Machine

def exec (i : Instr) (s : State) : Host.Outcome State Fault Refusal :=
  match i with
  | .resetNDeassert flashOk straps => Sys2Proof.Machine.execResetNDeassert flashOk straps s
  | .resetNAssert => Sys2Proof.Machine.execResetNAssert s
  | .pwrokAssert inputs => Sys2Proof.Machine.execPwrokAssert inputs s
  | .tokenArrival die spar => Sys2Proof.Machine.execTokenArrival die spar s
  | .probeDataReturn die spar entry => Sys2Proof.Machine.execProbeDataReturn die spar entry s
  | .eviction die spar => Sys2Proof.Machine.execEviction die spar s
  | .flitIngress die spar vc1 err => Sys2Proof.Machine.execFlitIngress die spar vc1 err s
  | .diversionStart die spar part => Sys2Proof.Machine.execDiversionStart die spar part s
  | .diversionEnd die spar part => Sys2Proof.Machine.execDiversionEnd die spar part s
  | .spillRingAppend die spar tag value kind => Sys2Proof.Machine.execSpillRingAppend die spar tag value kind s
  | .spillRingHoldRetry die spar hold => Sys2Proof.Machine.execSpillRingHoldRetry die spar hold s
  | .spillRingConsume die spar => Sys2Proof.Machine.execSpillRingConsume die spar s
  | .spillRingMeasure die spar => Sys2Proof.Machine.execSpillRingMeasure die spar s
  | .purge die spar => Sys2Proof.Machine.execPurge die spar s
  | .purgeComplete die spar => Sys2Proof.Machine.execPurgeComplete die spar s
  | .meshHop die router out => Sys2Proof.Machine.execMeshHop die router out s
  | .linkFlitReceive die link pool vc1 err => Sys2Proof.Machine.execLinkFlitReceive die link pool vc1 err s
  | .escapeSend die link pool vc1 => Sys2Proof.Machine.execEscapeSend die link pool vc1 s
  | .escapeReceive die link err => Sys2Proof.Machine.execEscapeReceive die link err s
  | .creditReturn die link pool vc1 => Sys2Proof.Machine.execCreditReturn die link pool vc1 s
  | .readyPromote die spar entry => Sys2Proof.Machine.execReadyPromote die spar entry s
  | .dispatch die spar => Sys2Proof.Machine.execDispatch die spar s
  | .flowKeyReturn die spar entry => Sys2Proof.Machine.execFlowKeyReturn die spar entry s
  | .flowRequest die msgs => Sys2Proof.Machine.execFlowRequest die msgs s
  | .flowRequestRetry die spar slot => Sys2Proof.Machine.execFlowRequestRetry die spar slot s
  | .flowGrant die msg => Sys2Proof.Machine.execFlowGrant die msg s
  | .flowRelease die msg => Sys2Proof.Machine.execFlowRelease die msg s
  | .flowCancel die msg => Sys2Proof.Machine.execFlowCancel die msg s
  | .itemTake die spar => Sys2Proof.Machine.execItemTake die spar s
  | .wqpostRetry pe out => Sys2Proof.Machine.execWqpostRetry pe out s
  | .ratlineRecordWrite die spar => Sys2Proof.Machine.execRatlineRecordWrite die spar s
  | .admissionNotice die msg => Sys2Proof.Machine.execAdmissionNotice die msg s
  | .luffIntervalEnd => Sys2Proof.Machine.execLuffIntervalEnd s
  | .luffEvaluate part => Sys2Proof.Machine.execLuffEvaluate part s
  | .gateRequest die msg => Sys2Proof.Machine.execGateRequest die msg s
  | .gateRelease die msg => Sys2Proof.Machine.execGateRelease die msg s
  | .gateGrantRetry die part gate => Sys2Proof.Machine.execGateGrantRetry die part gate s
  | .inboundAllocRetry die entry => Sys2Proof.Machine.execInboundAllocRetry die entry s
  | .inboundAllocTimeout die entry => Sys2Proof.Machine.execInboundAllocTimeout die entry s
  | .fetchRequest pe out => Sys2Proof.Machine.execFetchRequest pe out s
  | .fetchReply die spar req => Sys2Proof.Machine.execFetchReply die spar req s
  | .trapDelivery trap => Sys2Proof.Machine.execTrapDelivery trap s
  | .runlimit pe => Sys2Proof.Machine.execRunlimit pe s
  | .outputLeave pe out => Sys2Proof.Machine.execOutputLeave pe out s
  | .nop core arg => Sys2Proof.Machine.execNop core arg s
  | .commit core arg => Sys2Proof.Machine.execCommit core arg s
  | .end_ core arg => Sys2Proof.Machine.execEnd core arg s
  | .fence core arg => Sys2Proof.Machine.execFence core arg s
  | .fenceDev core arg => Sys2Proof.Machine.execFenceDev core arg s
  | .eret core arg => Sys2Proof.Machine.execEret core arg s
  | .wfe core arg => Sys2Proof.Machine.execWfe core arg s
  | .sys core arg => Sys2Proof.Machine.execSys core arg s
  | .intRegOp core rd rs1 rs2 fn => Sys2Proof.Machine.execIntRegOp core rd rs1 rs2 fn s
  | .intImmOp core op => Sys2Proof.Machine.execIntImmOp core op s
  | .classMove core op => Sys2Proof.Machine.execClassMove core op s
  | .compactInstruction core op rd rs => Sys2Proof.Machine.execCompactInstruction core op rd rs s
  | .rdflg core rd rs1 imm14 => Sys2Proof.Machine.execRdflg core rd rs1 imm14 s
  | .clrflg core rd rs1 imm14 => Sys2Proof.Machine.execClrflg core rd rs1 imm14 s
  | .addcSubc core wd ws rs1 rs2 fn => Sys2Proof.Machine.execAddcSubc core wd ws rs1 rs2 fn s
  | .mulw core wd ws rs1 rs2 fn => Sys2Proof.Machine.execMulw core wd ws rs1 rs2 fn s
  | .divsDivu core wd ws rs1 rs2 fn => Sys2Proof.Machine.execDivsDivu core wd ws rs1 rs2 fn s
  | .fpOperation core dbl rd rs1 rs2 fn => Sys2Proof.Machine.execFpOperation core dbl rd rs1 rs2 fn s
  | .fcat core dbl rd rs1 rs2 fn => Sys2Proof.Machine.execFcat core dbl rd rs1 rs2 fn s
  | .fcvt core rd rs1 rs2 fn => Sys2Proof.Machine.execFcvt core rd rs1 rs2 fn s
  | .padd core op => Sys2Proof.Machine.execPadd core op s
  | .psub core op => Sys2Proof.Machine.execPsub core op s
  | .pchk core wide rd rs1 rs2 => Sys2Proof.Machine.execPchk core wide rd rs1 rs2 s
  | .decimalRequestAccept die spar => Sys2Proof.Machine.execDecimalRequestAccept die spar s
  | .decimalResult die spar => Sys2Proof.Machine.execDecimalResult die spar s
  | .condBranch core op => Sys2Proof.Machine.execCondBranch core op s
  | .jmp core rl target => Sys2Proof.Machine.execJmp core rl target s
  | .call core rl target => Sys2Proof.Machine.execCall core rl target s
  | .jr core rd rs1 rs2 fn => Sys2Proof.Machine.execJr core rd rs1 rs2 fn s
  | .ld core op => Sys2Proof.Machine.execLd core op s
  | .st core op => Sys2Proof.Machine.execSt core op s
  | .ldw core op => Sys2Proof.Machine.execLdw core op s
  | .stw core op => Sys2Proof.Machine.execStw core op s
  | .lr core op => Sys2Proof.Machine.execLr core op s
  | .sc core op => Sys2Proof.Machine.execSc core op s
  | .amo core rd rs1 rs2 fn => Sys2Proof.Machine.execAmo core rd rs1 rs2 fn s
  | .reservationTimeout core => Sys2Proof.Machine.execReservationTimeout core s
  | .lrHoldExpire core => Sys2Proof.Machine.execLrHoldExpire core s
  | .send core rd rs1 rs2 => Sys2Proof.Machine.execSend core rd rs1 rs2 s
  | .sendSig core rd rs1 rs2 => Sys2Proof.Machine.execSendSig core rd rs1 rs2 s
  | .sendp core rd rs1 rs2 => Sys2Proof.Machine.execSendp core rd rs1 rs2 s
  | .sendpSig core rd rs1 rs2 => Sys2Proof.Machine.execSendpSig core rd rs1 rs2 s
  | .fetch core rd rs1 rs2 n => Sys2Proof.Machine.execFetch core rd rs1 rs2 n s
  | .falloc core rd rs1 rs2 => Sys2Proof.Machine.execFalloc core rd rs1 rs2 s
  | .fallocG core rd rs1 rs2 => Sys2Proof.Machine.execFallocG core rd rs1 rs2 s
  | .ffree core rd rs1 rs2 => Sys2Proof.Machine.execFfree core rd rs1 rs2 s
  | .ffreeG core rd rs1 rs2 => Sys2Proof.Machine.execFfreeG core rd rs1 rs2 s
  | .xissue core rd rs1 rs2 => Sys2Proof.Machine.execXissue core rd rs1 rs2 s
  | .wqpost core wd ws rs1 rs2 fn => Sys2Proof.Machine.execWqpost core wd ws rs1 rs2 fn s
  | .csrrd core op => Sys2Proof.Machine.execCsrrd core op s
  | .csrwr core op => Sys2Proof.Machine.execCsrwr core op s
  | .sprd core rd rs1 rs2 num => Sys2Proof.Machine.execSprd core rd rs1 rs2 num s
  | .spwr core rd rs1 rs2 num => Sys2Proof.Machine.execSpwr core rd rs1 rs2 num s
  | .evsrcRead core rd rs1 rs2 => Sys2Proof.Machine.execEvsrcRead core rd rs1 rs2 s
  | .evdoneWrite core rd rs1 rs2 => Sys2Proof.Machine.execEvdoneWrite core rd rs1 rs2 s
  | .bpctlFlush core rd rs1 rs2 => Sys2Proof.Machine.execBpctlFlush core rd rs1 rs2 s
  | .xlinv core rd rs1 rs2 => Sys2Proof.Machine.execXlinv core rd rs1 rs2 s
  | .homeRequest line req => Sys2Proof.Machine.execHomeRequest line req s
  | .memreadData line check => Sys2Proof.Machine.execMemreadData line check s
  | .snoopReceive snoop => Sys2Proof.Machine.execSnoopReceive snoop s
  | .snoopAnswer answer => Sys2Proof.Machine.execSnoopAnswer answer s
  | .snoopTimeout line => Sys2Proof.Machine.execSnoopTimeout line s
  | .patrolScrubRead line check => Sys2Proof.Machine.execPatrolScrubRead line check s
  | .l1dInvalidate die spar => Sys2Proof.Machine.execL1dInvalidate die spar s
  | .lockstepMismatch core valueClass => Sys2Proof.Machine.execLockstepMismatch core valueClass s
  | .eventRaise die source => Sys2Proof.Machine.execEventRaise die source s
  | .eventRoute die source => Sys2Proof.Machine.execEventRoute die source s
  | .eventAccept core => Sys2Proof.Machine.execEventAccept core s
  | .evcSet die source => Sys2Proof.Machine.execEvcSet die source s
  | .evcDone die source => Sys2Proof.Machine.execEvcDone die source s
  | .evcCoreEnWrite die value => Sys2Proof.Machine.execEvcCoreEnWrite die value s
  | .exchangeIssue die eng err => Sys2Proof.Machine.execExchangeIssue die eng err s
  | .handoff die eng err => Sys2Proof.Machine.execHandoff die eng err s
  | .intakeSpillMove die eng => Sys2Proof.Machine.execIntakeSpillMove die eng s
  | .rescan die eng => Sys2Proof.Machine.execRescan die eng s
  | .journalDurable die seq => Sys2Proof.Machine.execJournalDurable die seq s
  | .journalWriteFail => Sys2Proof.Machine.execJournalWriteFail s
  | .journalControlRewrite die => Sys2Proof.Machine.execJournalControlRewrite die s
  | .numblk die flashOk => Sys2Proof.Machine.execNumblk die flashOk s
  | .exchangeStart die eng index => Sys2Proof.Machine.execExchangeStart die eng index s
  | .transferDone die eng index => Sys2Proof.Machine.execTransferDone die eng index s
  | .terminalStateWrite die index => Sys2Proof.Machine.execTerminalStateWrite die index s
  | .ledgerRetire die index => Sys2Proof.Machine.execLedgerRetire die index s
  | .completionRecordRetry die held => Sys2Proof.Machine.execCompletionRecordRetry die held s
  | .nvmeCompletion die eng ctrl pair cid dw3 data => Sys2Proof.Machine.execNvmeCompletion die eng ctrl pair cid dw3 data s
  | .nvmeTimeout die eng index => Sys2Proof.Machine.execNvmeTimeout die eng index s
  | .abortDone die eng index confirmed => Sys2Proof.Machine.execAbortDone die eng index confirmed s
  | .controllerFatal ctrl => Sys2Proof.Machine.execControllerFatal ctrl s
  | .controllerResetTimeout ctrl => Sys2Proof.Machine.execControllerResetTimeout ctrl s
  | .engineWatchdog die eng => Sys2Proof.Machine.execEngineWatchdog die eng s
  | .takeover die eng => Sys2Proof.Machine.execTakeover die eng s
  | .powerFailWarning cause => Sys2Proof.Machine.execPowerFailWarning cause s
  | .pfailJournalStop => Sys2Proof.Machine.execPfailJournalStop s
  | .pfailGpfStart => Sys2Proof.Machine.execPfailGpfStart s
  | .journalReplay redrives => Sys2Proof.Machine.execJournalReplay redrives s
  | .idrAck => Sys2Proof.Machine.execIdrAck s
  | .hxpFrameReceive die sub frame room fcs => Sys2Proof.Machine.execHxpFrameReceive die sub frame room fcs s
  | .data die eng => Sys2Proof.Machine.execData die eng s
  | .ack die eng => Sys2Proof.Machine.execAck die eng s
  | .nak die eng => Sys2Proof.Machine.execNak die eng s
  | .open_ die eng => Sys2Proof.Machine.execOpen die eng s
  | .openAck die eng => Sys2Proof.Machine.execOpenAck die eng s
  | .close die eng => Sys2Proof.Machine.execClose die eng s
  | .closeAck die eng => Sys2Proof.Machine.execCloseAck die eng s
  | .reset die eng => Sys2Proof.Machine.execReset die eng s
  | .lease die eng => Sys2Proof.Machine.execLease die eng s
  | .leaseAck die eng => Sys2Proof.Machine.execLeaseAck die eng s
  | .probe die eng => Sys2Proof.Machine.execProbe die eng s
  | .openResend target => Sys2Proof.Machine.execOpenResend target s
  | .closingTimeout session => Sys2Proof.Machine.execClosingTimeout session s
  | .ackTimer session => Sys2Proof.Machine.execAckTimer session s
  | .nakTimer session => Sys2Proof.Machine.execNakTimer session s
  | .retransmitTimeout session => Sys2Proof.Machine.execRetransmitTimeout session s
  | .shroudDown assoc shroudB => Sys2Proof.Machine.execShroudDown assoc shroudB s
  | .probeTimer assoc shroudB => Sys2Proof.Machine.execProbeTimer assoc shroudB s
  | .leaseRenewal assoc => Sys2Proof.Machine.execLeaseRenewal assoc s
  | .leaseEnd assoc => Sys2Proof.Machine.execLeaseEnd assoc s
  | .leaseLapsedReclaim assoc => Sys2Proof.Machine.execLeaseLapsedReclaim assoc s
  | .failback assoc => Sys2Proof.Machine.execFailback assoc s
  | .hxpSendStart die eng index => Sys2Proof.Machine.execHxpSendStart die eng index s
  | .hxpOpenSession die session => Sys2Proof.Machine.execHxpOpenSession die session s
  | .hxpCloseSession die session => Sys2Proof.Machine.execHxpCloseSession die session s
  | .hxpOpenAssociation die assoc => Sys2Proof.Machine.execHxpOpenAssociation die assoc s
  | .hxpRawtx die len sub => Sys2Proof.Machine.execHxpRawtx die len sub s
  | .contextTakeEvent die eng => Sys2Proof.Machine.execContextTakeEvent die eng s
  | .microword die eng micro nano => Sys2Proof.Machine.execMicroword die eng micro nano s
  | .longrun die eng => Sys2Proof.Machine.execLongrun die eng s
  | .memoryReadComplete die eng ctx => Sys2Proof.Machine.execMemoryReadComplete die eng ctx s
  | .contextTimerExpire die eng ctx => Sys2Proof.Machine.execContextTimerExpire die eng ctx s
  | .storeRewrite die eng => Sys2Proof.Machine.execStoreRewrite die eng s
  | .chnUload pat => Sys2Proof.Machine.execChnUload pat s
  | .transformTurnStart die => Sys2Proof.Machine.execTransformTurnStart die s
  | .turnEnd die index => Sys2Proof.Machine.execTurnEnd die index s
  | .keyCacheFetch die woad slot => Sys2Proof.Machine.execKeyCacheFetch die woad slot s
  | .xformEngineLoss die woad eng => Sys2Proof.Machine.execXformEngineLoss die woad eng s
  | .kvGen src dst => Sys2Proof.Machine.execKvGen src dst s
  | .kvImport src dst => Sys2Proof.Machine.execKvImport src dst s
  | .kvDerive src dst => Sys2Proof.Machine.execKvDerive src dst s
  | .kvSetattr src dst => Sys2Proof.Machine.execKvSetattr src dst s
  | .kvZero src dst => Sys2Proof.Machine.execKvZero src dst s
  | .frlPttcmd die part => Sys2Proof.Machine.execFrlPttcmd die part s
  | .schInvPmt die part => Sys2Proof.Machine.execSchInvPmt die part s
  | .schInvCc die part => Sys2Proof.Machine.execSchInvCc die part s
  | .schPstcmd die part => Sys2Proof.Machine.execSchPstcmd die part s
  | .schPptcmd die part => Sys2Proof.Machine.execSchPptcmd die part s
  | .pxtInv die part => Sys2Proof.Machine.execPxtInv die part s
  | .create part => Sys2Proof.Machine.execCreate part s
  | .destroy part => Sys2Proof.Machine.execDestroy part s
  | .mailboxIgo part => Sys2Proof.Machine.execMailboxIgo part s
  | .mailboxIack part => Sys2Proof.Machine.execMailboxIack part s
  | .mailboxOgo part => Sys2Proof.Machine.execMailboxOgo part s
  | .mailboxOack part => Sys2Proof.Machine.execMailboxOack part s
  | .ringDoorbell part out => Sys2Proof.Machine.execRingDoorbell part out s
  | .faultDetection report => Sys2Proof.Machine.execFaultDetection report s
  | .retryCounterLeak pe => Sys2Proof.Machine.execRetryCounterLeak pe s
  | .peBistDone pe pass => Sys2Proof.Machine.execPeBistDone pe pass s
  | .pairBistDone die pair pass => Sys2Proof.Machine.execPairBistDone die pair pass s
  | .mdrPaircmd die lcore => Sys2Proof.Machine.execMdrPaircmd die lcore s
  | .mdrLogack die slot => Sys2Proof.Machine.execMdrLogack die slot s
  | .faultNPulseExpire => Sys2Proof.Machine.execFaultNPulseExpire s
  | .mdrFnctlWrite drive minclass => Sys2Proof.Machine.execMdrFnctlWrite drive minclass s
  | .linkFailure die link => Sys2Proof.Machine.execLinkFailure die link s
  | .dieWithdrawal die => Sys2Proof.Machine.execDieWithdrawal die s
  | .mdrWdraw target => Sys2Proof.Machine.execMdrWdraw target s
  | .mdrInjctl die value => Sys2Proof.Machine.execMdrInjctl die value s
  | .blkEnable die blk src => Sys2Proof.Machine.execBlkEnable die blk src s
  | .blkDisable die blk src => Sys2Proof.Machine.execBlkDisable die blk src s
  | .blkRst die blk value src => Sys2Proof.Machine.execBlkRst die blk value src s
  | .blkResetDone die blk => Sys2Proof.Machine.execBlkResetDone die blk s
  | .blkClrrej die blk => Sys2Proof.Machine.execBlkClrrej die blk s
  | .configParityCheck die blk => Sys2Proof.Machine.execConfigParityCheck die blk s
  | .counterClear die blk word value => Sys2Proof.Machine.execCounterClear die blk word value s
  | .watermarkWrite die blk word value => Sys2Proof.Machine.execWatermarkWrite die blk word value s
  | .registerWrite idx value src => Sys2Proof.Machine.execRegisterWrite idx value src s
  | .mstCheck => Sys2Proof.Machine.execMstCheck s
  | .mstInval slot flashOk => Sys2Proof.Machine.execMstInval slot flashOk s
  | .mstErase slot flashOk => Sys2Proof.Machine.execMstErase slot flashOk s
  | .mstProgram slot flashOk => Sys2Proof.Machine.execMstProgram slot flashOk s
  | .mstCommit slot flashOk => Sys2Proof.Machine.execMstCommit slot flashOk s
  | .jreport target => Sys2Proof.Machine.execJreport target s
  | .mstUpddataWrite value => Sys2Proof.Machine.execMstUpddataWrite value s
  | .mstUpdaddrLoWrite value => Sys2Proof.Machine.execMstUpdaddrLoWrite value s
  | .fusArm target arg => Sys2Proof.Machine.execFusArm target arg s
  | .fusGo target arg => Sys2Proof.Machine.execFusGo target arg s
  | .vin48Loss warnedEarly => Sys2Proof.Machine.execVin48Loss warnedEarly s
  | .powerReturnReset flashOk => Sys2Proof.Machine.execPowerReturnReset flashOk s
  | .tamperZeroise cause => Sys2Proof.Machine.execTamperZeroise cause s
  | .auxLoss vbat => Sys2Proof.Machine.execAuxLoss vbat s
  | .pwrRtcWrite value => Sys2Proof.Machine.execPwrRtcWrite value s
  | .pwrTamperClr => Sys2Proof.Machine.execPwrTamperClr s
  | .reefChange => Sys2Proof.Machine.execReefChange s
  | .pwrReefWrite req => Sys2Proof.Machine.execPwrReefWrite req s
  | .thermalLevelStep hot => Sys2Proof.Machine.execThermalLevelStep hot s
  | .thrmalrtNAssert => Sys2Proof.Machine.execThrmalrtNAssert s
  | .thrmalrtNDeassert => Sys2Proof.Machine.execThrmalrtNDeassert s
  | .powerLimitStep above => Sys2Proof.Machine.execPowerLimitStep above s
  | .thermtrip die sensor => Sys2Proof.Machine.execThermtrip die sensor s
  | .sensorOutOfUse die sensor => Sys2Proof.Machine.execSensorOutOfUse die sensor s
  | .umberSample reads => Sys2Proof.Machine.execUmberSample reads s
  | .canaryIntervalEnd die place hits => Sys2Proof.Machine.execCanaryIntervalEnd die place hits s
  | .dailyReplan => Sys2Proof.Machine.execDailyReplan s
  | .ageingLogWrite flashOk => Sys2Proof.Machine.execAgeingLogWrite flashOk s
  | .umbSampleNow die reads => Sys2Proof.Machine.execUmbSampleNow die reads s
  | .umbReplanNow die => Sys2Proof.Machine.execUmbReplanNow die s
  | .gatePowerOff die blk unit src => Sys2Proof.Machine.execGatePowerOff die blk unit src s
  | .gatePowerOn die blk unit src => Sys2Proof.Machine.execGatePowerOn die blk unit src s
  | .timebaseAlignment => Sys2Proof.Machine.execTimebaseAlignment s
  | .spiFrame edges word => Sys2Proof.Machine.execSpiFrame edges word s
  | .spiIdleTimeout edges => Sys2Proof.Machine.execSpiIdleTimeout edges s
  | .read port idx => Sys2Proof.Machine.execRead port idx s
  | .write port idx value => Sys2Proof.Machine.execWrite port idx value s
  | .poll port => Sys2Proof.Machine.execPoll port s
  | .rdata port => Sys2Proof.Machine.execRdata port s
  | .portrd port reg => Sys2Proof.Machine.execPortrd port reg s
  | .portclr port mask => Sys2Proof.Machine.execPortclr port mask s
  | .portAccessEnd port timeout => Sys2Proof.Machine.execPortAccessEnd port timeout s
  | .i3cPrivateWrite bytes => Sys2Proof.Machine.execI3cPrivateWrite bytes s
  | .i3cPrivateRead => Sys2Proof.Machine.execI3cPrivateRead s
  | .i3cCcc code data => Sys2Proof.Machine.execI3cCcc code data s
  | .ibi start => Sys2Proof.Machine.execIbi start s
  | .ibiRetry start => Sys2Proof.Machine.execIbiRetry start s
  | .getacccr sent accepted => Sys2Proof.Machine.execGetacccr sent accepted s
  | .auxRestore => Sys2Proof.Machine.execAuxRestore s
  | .ethernetLinkChange die sub up => Sys2Proof.Machine.execEthernetLinkChange die sub up s
  | .controllerRoleRequest => Sys2Proof.Machine.execControllerRoleRequest s
  | .testAccessPortOperation op => Sys2Proof.Machine.execTestAccessPortOperation op s
  | .streamCommandComplete die eng ctx status => Sys2Proof.Machine.execStreamCommandComplete die eng ctx status s

end Sys2Proof.Machine
end

