-- ==== Sys2Proof/Safety.lean ====
section
/-! DEFINITION. The terms in which the claims are stated: when a core executes an instruction, what it is left with, and what a
well-kept state is. -/

namespace Sys2Proof.Machine

/-- The hart of a core. -/
def hartOf : CoreId → Hart
  | .pe p => .pe (peOf p)
  | .sup p => .sup (supOf p)

/-- The core can issue an instruction: its die is populated and acts, and it runs and does not wait (R80, R342, R362). -/
def coreIssues (s : State) : CoreId → Bool
  | .pe p => decide ((p.die : Nat) < nDies s.part) && sparLive s (gspar p.die p.spar) && peIssues s (peOf p)
  | .sup p => decide ((p.die : Nat) < nDies s.part) && supLive s (supOf p) && !(getSup s (supOf p)).waiting && !rawHalted s (supOf p)

/-- A core after an instruction of `n` parcels at `pc` that ended in a given way. -/
def coreAfter (core : CoreId) (pc n : Nat) (r : Res) : State :=
  match core with
  | .pe p => peAfter (peOf p) pc n r
  | .sup p => supAfter (supOf p) pc n r

/-- The core issues an instruction of `n` parcels at `pc`, and its fetch leads from `s` to `t` (R199, R201). -/
def Runs (s : State) (core : CoreId) (n : Nat) (h : Hart) (pc : Nat) (t : State) : Prop :=
  coreIssues s core = true ∧ h = hartOf core ∧ pc = hartPc s h ∧ fetchFail s h pc n = none ∧ fetchInstr s h pc n = some t

/-- A start field of a command register is set while its command does not run: the command runs from `t` (R566). -/
def Starts (s : State) (d b w cc : Nat) (t : State) : Prop := cmdRuns s d b w cc = false ∧ t = cmdBegin s d b w cc

/-- A start field of a command register is set while its command runs; `t` is the state in which that shows (R566). -/
def StillRuns (s : State) (d b w cc : Nat) (t : State) : Prop := t = s ∧ cmdRuns t d b w cc = true

/-- A next state, as against a refusal or a fault. -/
def answersNext (o : Out) : Bool :=
  match o with
  | .next _ => true
  | .fault _ => false
  | .refused _ => false

/-- No home has a transaction or a waiting request, whose turn an access within a step would have to let pass first (R318, R321, R323). -/
def homesQuiet (s : State) : Bool := s.homeTx.isEmpty && s.sliceQ.isEmpty

/-- The memory image and the boot flash are in their canonical form (R11, R581). -/
def StoresWf (s : State) : Prop := Memory.wf s.mem = true ∧ tabWf flDflt s.flash = true

end Sys2Proof.Machine
end

