-- ==== Sys2Proof/WellFormed.lean ====
section
/-! DEFINITION. Well-formed commands: every unit that a command names lies on a die that the part has (R2, R3). The other
bounds of the operands are in their types. -/

namespace Sys2Proof

/-- The die exists on the part (R2, R3). -/
def dieOk (p : PartKind) (d : DieNo) : Bool := decide (d.val < Machine.nDies p)

/-- The core lies on a die that exists. -/
def coreOk (p : PartKind) : CoreId → Bool
  | .pe k => dieOk p k.die
  | .sup c => dieOk p c.die

/-- The command names only units that the part has. -/
def WellFormed (p : PartKind) (i : Instr) : Bool :=
  match i with
  | .resetNDeassert _ _ => true
  | .resetNAssert => true
  | .pwrokAssert _ => true
  | .tokenArrival die _ => dieOk p die
  | .probeDataReturn die _ _ => dieOk p die
  | .eviction die _ => dieOk p die
  | .flitIngress die _ _ _ => dieOk p die
  | .diversionStart die _ _ => dieOk p die
  | .diversionEnd die _ _ => dieOk p die
  | .spillRingAppend die _ _ _ _ => dieOk p die
  | .spillRingHoldRetry die _ _ => dieOk p die
  | .spillRingConsume die _ => dieOk p die
  | .spillRingMeasure die _ => dieOk p die
  | .purge die _ => dieOk p die
  | .purgeComplete die _ => dieOk p die
  | .meshHop die _ _ => dieOk p die
  | .linkFlitReceive die _ _ _ _ => dieOk p die
  | .escapeSend die _ _ _ => dieOk p die
  | .escapeReceive die _ _ => dieOk p die
  | .creditReturn die _ _ _ => dieOk p die
  | .readyPromote die _ _ => dieOk p die
  | .dispatch die _ => dieOk p die
  | .flowKeyReturn die _ _ => dieOk p die
  | .flowRequest die _ => dieOk p die
  | .flowRequestRetry die _ _ => dieOk p die
  | .flowGrant die _ => dieOk p die
  | .flowRelease die _ => dieOk p die
  | .flowCancel die _ => dieOk p die
  | .itemTake die _ => dieOk p die
  | .wqpostRetry pe _ => dieOk p pe.die
  | .ratlineRecordWrite die _ => dieOk p die
  | .admissionNotice die _ => dieOk p die
  | .luffIntervalEnd => true
  | .luffEvaluate _ => true
  | .gateRequest die _ => dieOk p die
  | .gateRelease die _ => dieOk p die
  | .gateGrantRetry die _ _ => dieOk p die
  | .inboundAllocRetry die _ => dieOk p die
  | .inboundAllocTimeout die _ => dieOk p die
  | .fetchRequest pe _ => dieOk p pe.die
  | .fetchReply die _ _ => dieOk p die
  | .trapDelivery _ => true
  | .runlimit pe => dieOk p pe.die
  | .outputLeave pe _ => dieOk p pe.die
  | .nop core _ => coreOk p core
  | .commit core _ => coreOk p core
  | .end_ core _ => coreOk p core
  | .fence core _ => coreOk p core
  | .fenceDev core _ => coreOk p core
  | .eret core _ => coreOk p core
  | .wfe core _ => coreOk p core
  | .sys core _ => coreOk p core
  | .intRegOp core _ _ _ _ => coreOk p core
  | .intImmOp core _ => coreOk p core
  | .classMove core _ => coreOk p core
  | .compactInstruction core _ _ _ => coreOk p core
  | .rdflg core _ _ _ => coreOk p core
  | .clrflg core _ _ _ => coreOk p core
  | .addcSubc core _ _ _ _ _ => coreOk p core
  | .mulw core _ _ _ _ _ => coreOk p core
  | .divsDivu core _ _ _ _ _ => coreOk p core
  | .fpOperation core _ _ _ _ _ => coreOk p core
  | .fcat core _ _ _ _ _ => coreOk p core
  | .fcvt core _ _ _ _ => coreOk p core
  | .padd core _ => coreOk p core
  | .psub core _ => coreOk p core
  | .pchk core _ _ _ _ => coreOk p core
  | .decimalRequestAccept die _ => dieOk p die
  | .decimalResult die _ => dieOk p die
  | .condBranch core _ => coreOk p core
  | .jmp core _ _ => coreOk p core
  | .call core _ _ => coreOk p core
  | .jr core _ _ _ _ => coreOk p core
  | .ld core _ => coreOk p core
  | .st core _ => coreOk p core
  | .ldw core _ => coreOk p core
  | .stw core _ => coreOk p core
  | .lr core _ => coreOk p core
  | .sc core _ => coreOk p core
  | .amo core _ _ _ _ => coreOk p core
  | .reservationTimeout core => coreOk p core
  | .lrHoldExpire core => coreOk p core
  | .send core _ _ _ => coreOk p core
  | .sendSig core _ _ _ => coreOk p core
  | .sendp core _ _ _ => coreOk p core
  | .sendpSig core _ _ _ => coreOk p core
  | .fetch core _ _ _ _ => coreOk p core
  | .falloc core _ _ _ => coreOk p core
  | .fallocG core _ _ _ => coreOk p core
  | .ffree core _ _ _ => coreOk p core
  | .ffreeG core _ _ _ => coreOk p core
  | .xissue core _ _ _ => coreOk p core
  | .wqpost core _ _ _ _ _ => coreOk p core
  | .csrrd core _ => coreOk p core
  | .csrwr core _ => coreOk p core
  | .sprd core _ _ _ _ => coreOk p core
  | .spwr core _ _ _ _ => coreOk p core
  | .evsrcRead core _ _ _ => coreOk p core
  | .evdoneWrite core _ _ _ => coreOk p core
  | .bpctlFlush core _ _ _ => coreOk p core
  | .xlinv core _ _ _ => coreOk p core
  | .homeRequest _ _ => true
  | .memreadData _ _ => true
  | .snoopReceive _ => true
  | .snoopAnswer _ => true
  | .snoopTimeout _ => true
  | .patrolScrubRead _ _ => true
  | .l1dInvalidate die _ => dieOk p die
  | .lockstepMismatch core _ => dieOk p core.die
  | .eventRaise die _ => dieOk p die
  | .eventRoute die _ => dieOk p die
  | .eventAccept core => dieOk p core.die
  | .evcSet die _ => dieOk p die
  | .evcDone die _ => dieOk p die
  | .evcCoreEnWrite die _ => dieOk p die
  | .exchangeIssue die _ _ => dieOk p die
  | .handoff die _ _ => dieOk p die
  | .intakeSpillMove die _ => dieOk p die
  | .rescan die _ => dieOk p die
  | .journalDurable die _ => dieOk p die
  | .journalWriteFail => true
  | .journalControlRewrite die => dieOk p die
  | .numblk die _ => dieOk p die
  | .exchangeStart die _ _ => dieOk p die
  | .transferDone die _ _ => dieOk p die
  | .terminalStateWrite die _ => dieOk p die
  | .ledgerRetire die _ => dieOk p die
  | .completionRecordRetry die _ => dieOk p die
  | .nvmeCompletion die _ _ _ _ _ _ => dieOk p die
  | .nvmeTimeout die _ _ => dieOk p die
  | .abortDone die _ _ _ => dieOk p die
  | .controllerFatal _ => true
  | .controllerResetTimeout _ => true
  | .engineWatchdog die _ => dieOk p die
  | .takeover die _ => dieOk p die
  | .powerFailWarning _ => true
  | .pfailJournalStop => true
  | .pfailGpfStart => true
  | .journalReplay _ => true
  | .idrAck => true
  | .hxpFrameReceive die _ _ _ _ => dieOk p die
  | .data die _ => dieOk p die
  | .ack die _ => dieOk p die
  | .nak die _ => dieOk p die
  | .open_ die _ => dieOk p die
  | .openAck die _ => dieOk p die
  | .close die _ => dieOk p die
  | .closeAck die _ => dieOk p die
  | .reset die _ => dieOk p die
  | .lease die _ => dieOk p die
  | .leaseAck die _ => dieOk p die
  | .probe die _ => dieOk p die
  | .openResend _ => true
  | .closingTimeout _ => true
  | .ackTimer _ => true
  | .nakTimer _ => true
  | .retransmitTimeout _ => true
  | .shroudDown _ _ => true
  | .probeTimer _ _ => true
  | .leaseRenewal _ => true
  | .leaseEnd _ => true
  | .leaseLapsedReclaim _ => true
  | .failback _ => true
  | .hxpSendStart die _ _ => dieOk p die
  | .hxpOpenSession die _ => dieOk p die
  | .hxpCloseSession die _ => dieOk p die
  | .hxpOpenAssociation die _ => dieOk p die
  | .hxpRawtx die _ _ => dieOk p die
  | .contextTakeEvent die _ => dieOk p die
  | .microword die _ _ _ => dieOk p die
  | .longrun die _ => dieOk p die
  | .memoryReadComplete die _ _ => dieOk p die
  | .contextTimerExpire die _ _ => dieOk p die
  | .storeRewrite die _ => dieOk p die
  | .chnUload _ => true
  | .transformTurnStart die => dieOk p die
  | .turnEnd die _ => dieOk p die
  | .keyCacheFetch die _ _ => dieOk p die
  | .xformEngineLoss die _ _ => dieOk p die
  | .kvGen _ _ => true
  | .kvImport _ _ => true
  | .kvDerive _ _ => true
  | .kvSetattr _ _ => true
  | .kvZero _ _ => true
  | .frlPttcmd die _ => dieOk p die
  | .schInvPmt die _ => dieOk p die
  | .schInvCc die _ => dieOk p die
  | .schPstcmd die _ => dieOk p die
  | .schPptcmd die _ => dieOk p die
  | .pxtInv die _ => dieOk p die
  | .create _ => true
  | .destroy _ => true
  | .mailboxIgo _ => true
  | .mailboxIack _ => true
  | .mailboxOgo _ => true
  | .mailboxOack _ => true
  | .ringDoorbell _ _ => true
  | .faultDetection _ => true
  | .retryCounterLeak pe => dieOk p pe.die
  | .peBistDone pe _ => dieOk p pe.die
  | .pairBistDone die _ _ => dieOk p die
  | .mdrPaircmd die _ => dieOk p die
  | .mdrLogack die _ => dieOk p die
  | .faultNPulseExpire => true
  | .mdrFnctlWrite _ _ => true
  | .linkFailure die _ => dieOk p die
  | .dieWithdrawal die => dieOk p die
  | .mdrWdraw target => dieOk p target
  | .mdrInjctl die _ => dieOk p die
  | .blkEnable die _ _ => dieOk p die
  | .blkDisable die _ _ => dieOk p die
  | .blkRst die _ _ _ => dieOk p die
  | .blkResetDone die _ => dieOk p die
  | .blkClrrej die _ => dieOk p die
  | .configParityCheck die _ => dieOk p die
  | .counterClear die _ _ _ => dieOk p die
  | .watermarkWrite die _ _ _ => dieOk p die
  | .registerWrite _ _ _ => true
  | .mstCheck => true
  | .mstInval _ _ => true
  | .mstErase _ _ => true
  | .mstProgram _ _ => true
  | .mstCommit _ _ => true
  | .jreport _ => true
  | .mstUpddataWrite _ => true
  | .mstUpdaddrLoWrite _ => true
  | .fusArm _ _ => true
  | .fusGo _ _ => true
  | .vin48Loss _ => true
  | .powerReturnReset _ => true
  | .tamperZeroise _ => true
  | .auxLoss _ => true
  | .pwrRtcWrite _ => true
  | .pwrTamperClr => true
  | .reefChange => true
  | .pwrReefWrite _ => true
  | .thermalLevelStep _ => true
  | .thrmalrtNAssert => true
  | .thrmalrtNDeassert => true
  | .powerLimitStep _ => true
  | .thermtrip die _ => dieOk p die
  | .sensorOutOfUse die _ => dieOk p die
  | .umberSample _ => true
  | .canaryIntervalEnd die _ _ => dieOk p die
  | .dailyReplan => true
  | .ageingLogWrite _ => true
  | .umbSampleNow die _ => dieOk p die
  | .umbReplanNow die => dieOk p die
  | .gatePowerOff die _ _ _ => dieOk p die
  | .gatePowerOn die _ _ _ => dieOk p die
  | .timebaseAlignment => true
  | .spiFrame _ _ => true
  | .spiIdleTimeout _ => true
  | .read _ _ => true
  | .write _ _ _ => true
  | .poll _ => true
  | .rdata _ => true
  | .portrd _ _ => true
  | .portclr _ _ => true
  | .portAccessEnd _ _ => true
  | .i3cPrivateWrite _ => true
  | .i3cPrivateRead => true
  | .i3cCcc _ _ => true
  | .ibi _ => true
  | .ibiRetry _ => true
  | .getacccr _ _ => true
  | .auxRestore => true
  | .ethernetLinkChange die _ _ => dieOk p die
  | .controllerRoleRequest => true
  | .testAccessPortOperation _ => true
  | .streamCommandComplete die _ _ _ => dieOk p die

end Sys2Proof
end

