-- ==== Sys2Proof/Certificates/Slice0/Obligations.lean ====
section
/-! DEFINITION. The statements for the provers: what each command does, the frames, and the invariants (INVENTORY.md; spec 01 to 21). -/

open Sys2Proof Sys2Proof.Machine

/-- A step takes the command at the front of the queue and answers what that command answers on the state with the rest of the queue. With no command
waiting one TCLK passes (the model's choice, log entry 10): every populated die's `TIMEBASE` counts one (R619), the RTC may count, a DESTROY that waits for
nothing more ends, and what waits in the stream network moves. -/
def Obligations.StepRunsTheFrontCommandOrOneTick : Prop :=
  (∀ (s : State) (c : Instr) (rest : List Instr), s.pending = c :: rest → step s = exec c { s with pending := rest }) ∧
  (∀ s : State, s.pending = [] → strmSettle (destroySettle (rtcTick ((List.range (nDies s.part)).foldl
      (fun s d => modDie s d fun x => { x with timebase := x.timebase + 1 }) s))) = tick s ∧ step s = .next (tick s)) ∧
  (∀ (s : State) (d : Nat), d < 8 → (getDie ((List.range 8).foldl
    (fun s d => modDie s d fun x => { x with timebase := x.timebase + 1 }) s) d).timebase = (getDie s d).timebase + 1)
/-- What reset leaves (R192, R380, R560, R577, R641, R653). The part is held in reset at step 1 with LEVEL STARTING and no fault; every die's
SYS block is enabled and its CLU, CEN and SCH blocks are not; `OUT` of both service ports holds the status word with `DONE` 1 and
`NSEQ` 0; no command waits, no instance runs, and the memory image and the flash are in their canonical form. -/
def Obligations.ResetLeavesThePartHeld : Prop :=
  startStep State.reset = 1 ∧ startLevel State.reset = 0 ∧ State.reset.fatal = false ∧ State.reset.pw.hv = false ∧
  State.reset.spi.out = 0x800000A5 ∧ State.reset.i3cPort.out = 0x800000A5 ∧ State.reset.pending = [] ∧
  (∀ k, (getPe State.reset k).inst = none) ∧ (∀ k, State.reset.resvs.all (fun r => r.agent != k) = true) ∧
  (∀ d : Fin 8, blkEn State.reset d bSys = true ∧ blkEn State.reset d (bClu 0) = false ∧ blkEn State.reset d (bCen 0) = false ∧
    blkEn State.reset d bSch = false ∧ getReg State.reset d bMdr rMdrWptr = 0) ∧
  StoresWf State.reset
/-- Every command completes: it answers a next state, whatever the state is. That every command does so is the model's own (log entries 8 and 9), R3 and
R5 naming the part and its dies. The one exception is a scan under a debug instruction of the test access port while the AUX domain is powered and
debug access is open, to which the spec gives no effect: it is refused (the model's choice: log entry 118). No command ends in a fault. A command at a die that
the part does not populate changes nothing (DEDUCED: log entry 11), as two commands of a spar and the issue of an exchange show. -/
def Obligations.EveryCommandOfThePartCompletes : Prop :=
  (∀ (s : State) (c : Instr), (∀ op, c = .testAccessPortOperation op → s.pw.aux = true → debugRuns s = true →
      ∀ code l, op ≠ .debug code l ∧ (op = .scan l → s.tap.ir ≠ .debug code)) → ∃ t, exec c s = .next t) ∧
  (∀ (s : State) (c : Instr) r, exec c s = .refused r → r = .debugUnit) ∧
  (∀ (s : State) (c : Instr) f, exec c s ≠ .fault f) ∧
  (∀ (s : State) (die : DieNo) (spar : SparNo), nDies s.part ≤ (die : Nat) → exec (.tokenArrival die spar) s = .next s ∧
    exec (.dispatch die spar) s = .next s ∧ ∀ eng err, exec (.exchangeIssue die eng err) s = .next s)
/-- The memory image and the boot flash stay in their canonical form through every step (the model's choice of form, log entry 2): addresses rise, and no
entry holds what an unlisted address reads as. -/
def Obligations.EveryStepKeepsTheStoresCanonical : Prop :=
  ∀ s t : State, StoresWf s → step s = .next t → StoresWf t
/-- The frame of the instructions with one register result (R192, R193, R231, R260, R261, R262) of a supervisor core: `RR 0x00`
operations, immediate additions, `adda`, and the moves from D, A, M and W registers to D and A registers. After the fetch they change the destination register and the program counter of their core, and no other
register of it, no flag, no special register, no byte of memory, no register of the CSR space, and no other core. -/
def Obligations.RegisterInstructionsLeaveTheRest : Prop :=
  ∀ (s t u : State) (p : SupId) (h : Hart) (pc : Nat) (rd rs1 rs2 : Fin 32) (c : Instr) (toD : Bool),
    Runs s (.sup p) 2 h pc t → exec c s = .next u →
    ((∃ fn v, c = .intRegOp (.sup p) rd rs1 rs2 fn ∧ intReg fn.toNat rs2 (getD t h rs1) (getD t h rs2) = some v ∧ toD = true) ∨
      (∃ imm, c = .intImmOp (.sup p) (.ri .addi rd rs1 imm) ∧ toD = true) ∨
      (∃ imm, rd < 16 ∧ rs1 < 16 ∧ c = .intImmOp (.sup p) (.ri .addai rd rs1 imm) ∧ toD = false) ∨
      (∃ fn : BitVec 9, c = .classMove (.sup p) (.rr rd rs1 rs2 fn) ∧ (fn.toNat ≠ 3 → rs2 = 0) ∧
        (fn.toNat = 0 ∧ rd < 16 ∧ toD = false ∨ fn.toNat ∈ [2, 3] ∧ rd < 16 ∧ rs1 < 16 ∧ toD = false ∨
          fn.toNat = 1 ∧ rs1 < 16 ∧ toD = true ∨ fn.toNat = 5 ∧ rs1 < 8 ∧ toD = true ∨ fn.toNat ∈ [6, 7] ∧ rs1 < 4 ∧ toD = true))) →
    (∀ r, (toD = true → r ≠ rd) → getD u h r = getD t h r) ∧ (∀ r, (toD = false → r ≠ rd) → getA u h r = getA t h r) ∧
    (∀ r, getW u h r = getW t h r) ∧ (∀ r, getM u h r = getM t h r) ∧ hartFlags u h = hartFlags t h ∧ hartPc u h = (pc + 2) % 2 ^ 51 ∧
    (∀ n, spr u (supOf p) n = spr t (supOf p) n) ∧ (∀ c', c' ≠ supOf p → getSup u c' = getSup t c') ∧
    (∀ a, rdByte u a = rdByte t a) ∧ u.csr = t.csr ∧ u.pes = t.pes ∧ u.spars = t.spars ∧ u.resvs = t.resvs ∧ u.caches = t.caches
/-- The frame of stores (R61, R64, R197, R209, R280, R311). A supervisor core's store changes no byte of memory but the eight of its word, no D register, and
among the A registers the address register alone; once its L2 owns the line, and the home tracks that copy, the word reads as the register stored, and
the store itself changes nothing in the CSR space. That it reads so in the store's own step is the model's choice (log 28), and a
write that waits at a home comes first (log 33). A PE's store changes no byte of memory before its commit point: one to a line that its scope
has stored to, or to one more line within the limit of 16; the first kind changes nothing in the CSR space either.
`stw`, stores to scratch and to device space are in the statement of loads and stores. -/
def Obligations.StoresChangeOnlyTheirWord : Prop :=
  ∀ (s t t' u : State) (h : Hart) (pc n : Nat) (op : MemOp) (ea na pa : Nat), n = dispLen op.disp → t' = xlateNote t (hartCtx t h) ea →
    effective t h op false = some (ea, na) → translate t (hartCtx t h) .write ea = .ok pa →
    (∀ p, Runs s (.sup p) n h pc t → backed t' pa = true → exec (.st (.sup p) op) s = .next u →
      (homesQuiet t' = true ∨ ownsLine t' (256 + supOf p) (pa / 16) = true → ∀ a, a < 8 * pa ∨ 8 * pa + 8 ≤ a → rdByte u a = rdByte t' a) ∧
      (∀ r, getD u h r = getD t' h r) ∧
      (∀ r, r ≠ op.ab → getA u h r = getA t' h r) ∧
      (∀ q, lineForWrite t' (256 + supOf p) (pa / 16) = some q → strayOf q.2 (256 + supOf p) (pa / 16) = none →
        peek u pa = getD t h op.rt ∧ u.csr = q.2.csr)) ∧
    (∀ p, Runs s (.pe p) n h pc t → isScratch ea = false → exec (.st (.pe p) op) s = .next u →
      ((scopeLines (getPe t' (peOf p))).contains (pa / 16) = true → u.mem = t'.mem ∧ u.csr = t'.csr) ∧
      ((scopeLines (getPe t' (peOf p))).length < 16 → homesQuiet t' = true → u.mem = t'.mem))
/-- The frame of commands of blocks, tables, tenant channels, fuses and ports (R84, R88, R124, R475, R476, R477, R491, R508, R560, R562, R602, R614, R652). None of
them changes a byte of memory or of the flash; the fuses change by FUS_GO alone among them; and a command that writes one slot of the key
vault leaves every other slot, the fuses and the flash. Memory changes by no command of the vault but KV_SETATTR and KV_ZERO, which may
end a chain, and for KV_IMPORT and KV_DERIVE by what waits ahead of their reads at a home. -/
def Obligations.BlockCommandsLeaveMemory : Prop :=
  ∀ (s u : State),
    (∀ c, exec c s = .next u →
      (∃ d b src, c = .blkEnable d b src ∨ c = .blkDisable d b src) ∨ (∃ d b, c = .blkClrrej d b ∨ c = .blkResetDone d b) ∨
      (∃ d b v src, c = .blkRst d b v src) ∨ (∃ d p, c = .pxtInv d p ∨ c = .frlPttcmd d p) ∨
      (∃ d p, c = .schInvPmt d p ∨ c = .schInvCc d p ∨ c = .schPstcmd d p ∨ c = .schPptcmd d p) ∨
      (∃ p, c = .mailboxIgo p ∨ c = .mailboxIack p ∨ c = .mailboxOgo p ∨ c = .mailboxOack p) ∨
      (∃ p o, c = .ringDoorbell p o) ∨ (∃ v, c = .pwrRtcWrite v) ∨ c = .pwrTamperClr ∨ (∃ q, c = .pwrReefWrite q) ∨
      (∃ x a, c = .fusArm x a) ∨ (∃ p m, c = .portclr p m ∨ c = .portrd p m) ∨ (∃ p, c = .poll p ∨ c = .rdata p) →
      (∀ a, rdByte u a = rdByte s a) ∧ u.flash = s.flash ∧ u.fuses = s.fuses ∧ u.vault = s.vault) ∧
    (∀ target arg, exec (.fusGo target arg) s = .next u →
      (∀ a, rdByte u a = rdByte s a) ∧ u.flash = s.flash ∧ u.vault = s.vault) ∧
    (∀ src dst c, c = .kvGen src dst ∨ c = .kvImport src dst ∨ c = .kvDerive src dst ∨ c = .kvSetattr src dst ∨ c = .kvZero src dst →
      exec c s = .next u → u.flash = s.flash ∧ u.fuses = s.fuses ∧ (∀ k, k ≠ dst.toNat → vaultSlot u k = vaultSlot s k) ∧
      (c = .kvGen src dst ∨ homesQuiet s = true ∧ (c = .kvImport src dst ∨ c = .kvDerive src dst) → ∀ a, rdByte u a = rdByte s a))
/-- The firing rule (R45, R46, R47, R91, R43, R103, R104, R105). A live spar takes the next token: the one
at which the pipeline stands, unless tokens of its key come back from the miss buffer, else one that comes back, else the next of its input queue. A flit of a never-produced kind is counted, recorded and discarded. A token
at an item-mode spar, or for a port that its codelet does not have, is misaddressed, and one of another generation is stale and counted. A token
whose key waits or is being evicted, or whose frame is not in the frame-state cache, goes to the miss buffer, and so does one of arity 2 to 8 whose
frame's filter count is not 0; while the buffer is full the pipeline stands at the token. A token for arity 0 or 1 fires one instance at once. For
arity 2 to 8 with nothing of the frame spilled, a token for a port that already holds an operand is a duplicate and the operand held stays; otherwise
the operand joins the entry, which fires and is freed when every port is held. A token without an entry makes one in the lowest free way; with none
free the oldest entry of the set moves to the eviction buffer, and the pipeline stands while that is full. -/
def Obligations.TokenArrivalFollowsFiringRule : Prop :=
  ∀ (s : State) (die : DieNo) (spar : SparNo) (f : Flit) (fin : State → State) (stand : State),
    let g := gspar die spar
    let set := setHash (tagKey f.tag)
    let run := exec (.tokenArrival die spar) s
    let missed := modSpar s g fun x => { x with miss := x.miss ++ [f] }
    (die : Nat) < nDies s.part → sparLive s g = true →
    ((∃ rest, (getSpar s g).reentry = f :: rest ∧
        (∀ p, (getSpar s g).pipe = some p → ((getSpar s g).reentry.any fun x => tagKey x.tag == tagKey p.tag) = true) ∧ stand = s ∧
        fin = fun t => modSpar t g fun x => { x with reentry := rest }) ∨
      (((getSpar s g).reentry.any fun x => tagKey x.tag == tagKey f.tag) = false ∧ (getSpar s g).pipe = some f ∧ stand = s ∧ fin = fun t => modSpar t g fun x => { x with pipe := none }) ∨
      (∃ p k, (getSpar s g).reentry = [] ∧ (getSpar s g).pipe = none ∧ nextIq s g = some (p, k) ∧ p.flit = f ∧ flitCls f ≠ 1 ∧
        stand = modSpar (iqRemove s g k) g (fun x => { x with pipe := some f }) ∧ fin = fun t => iqRemove t g k)) →
    (neverProduced f = true → run =
      .next (fin (deferred (countClu s g rCluMisadcnt) (g / 32) (bClu (g % 32)) 0xFF 0x0402 0x06 0 f.tag 0))) ∧
    (neverProduced f = false → itemMode s g = true → run = .next (fin (misaddressed s g f))) ∧
    (neverProduced f = false → itemMode s g = false →
      (inMiss s g (tagKey f.tag) = true ∨ inEvb s g (tagKey f.tag) = true ∨ cachedFrame s g (tagPart f.tag) (tagFrame f.tag) = none →
        run = .next (if (getSpar s g).miss.length < 64 then fin missed else stand)) ∧
      (inMiss s g (tagKey f.tag) = false → inEvb s g (tagKey f.tag) = false →
        ∀ fr, cachedFrame s g (tagPart f.tag) (tagFrame f.tag) = some fr →
        (fr.gen ≠ tagGen f.tag → run = .next (fin (countClu s g rCluStalecnt))) ∧
        (fr.gen = tagGen f.tag → ∀ cl, cachedCodelet s g fr (tagCodelet f.tag) = some cl →
          let arity := wfld cl.entry 63 60
          (portOk arity (tagPort f.tag) = false → run = .next (fin (misaddressed s g f))) ∧
          (portOk arity (tagPort f.tag) = true → arity ≤ 1 → run = .next (fin (fireDirect s g fr cl f arity))) ∧
          (portOk arity (tagPort f.tag) = true → 2 ≤ arity → filterOf s g fr.part fr.frame ≠ 0 →
            run = .next (if (getSpar s g).miss.length < 64 then fin missed else stand)) ∧
          (portOk arity (tagPort f.tag) = true → 2 ≤ arity → filterOf s g fr.part fr.frame = 0 →
            (∀ w m, wayHit s g set (tagKey f.tag) = some w → wayOf s g set w = some m →
              (held m (tagPort f.tag) = true → run = .next (fin (duplicate s g f))) ∧
              (held m (tagPort f.tag) = false → complete (addOperand m f) = true → run =
                .next (fin (fireMatch (touch (setWay s g set w none) g set w) g fr cl (addOperand m f)))) ∧
              (held m (tagPort f.tag) = false → complete (addOperand m f) = false → run =
                .next (fin (touch (setWay s g set w (some (addOperand m f))) g set w)))) ∧
            (wayHit s g set (tagKey f.tag) = none →
              (∀ w, wayFree s g set = some w → run = .next (fin (touch (setWay s g set w (some (newMatch f arity))) g set w))) ∧
              (wayFree s g set = none → 8 ≤ (getSpar s g).evb.length → run = .next stand) ∧
              (∀ v, wayFree s g set = none → (getSpar s g).evb.length < 8 → wayOf s g set (victim s g set) = some v → run =
                .next (fin (touch (setWay (modSpar s g fun x => { x with evb := x.evb ++ [v] }) g set (victim s g set)
                  (some (newMatch f arity))) g set (victim s g set)))))))))
/-- The paths beside the hit path. A miss-buffer flit whose descriptor shows a frame that is not live is stale (R100), and one
of arity 0 or 1 fires when its codelet has been read; the flits that waited behind its key go back to the pipeline (R105). The eviction engine discards a victim whose partition has no
matching table entry and otherwise writes it to the first free line of its spill bucket (R106). A flit at an ingress that holds no ring slot, once it checks
clean, takes a place of the input queue where there is one, and an uncorrectable one is discarded, counted and recorded (R95,
R162). A partition's flits start being diverted when they are stuck, and the diversion ends at half the share (R163). -/
def Obligations.MatchingUnitMissEvictIngress : Prop :=
  ∀ (s : State) (die : DieNo) (spar : SparNo),
    let g := gspar die spar
    (die : Nat) < nDies s.part → sparLive s g = true →
    (∀ f rest t0 t, (getSpar s g).miss = f :: rest → inEvb s g (tagKey f.tag) = false →
      t0 = modSpar s g (fun x => { x with miss := dropAt x.miss 0 }) →
      cachedFrame t0 g (tagPart f.tag) (tagFrame f.tag) = none → t = unitRead t0 die (descAddr t0 die (tagFrame f.tag)) 3 →
      (firstBelow 3 fun j => isPoisoned t (descAddr t die (tagFrame f.tag) + j)) = none →
      (readFrame t die (tagPart f.tag) (tagFrame f.tag) = none →
        exec (.probeDataReturn die spar 0) s = .next (reenter (countClu t g rCluStalecnt) g (tagKey f.tag))) ∧
      (∀ fr, readFrame t die (tagPart f.tag) (tagFrame f.tag) = some fr → fr.gen = tagGen f.tag →
        ∀ cl, cachedCodelet (cacheFrame t g fr) g fr (tagCodelet f.tag) = some cl → wfld cl.entry 63 60 ≤ 1 →
        portOk (wfld cl.entry 63 60) (tagPort f.tag) = true → exec (.probeDataReturn die spar 0) s =
          .next (reenter (fireDirect (cacheFrame t g fr) g fr cl f (wfld cl.entry 63 60)) g (tagKey f.tag)))) ∧
    (∀ m rest s' s'' b, (getSpar s g).evb = m :: rest → holding s g .matcher = false → m.dissolving = false →
      s' = ptFill s (uSpar g) .pmt (keyPart m.key) → b = bucketAt s' g (keyPart m.key) (keyFrame m.key) →
      s'' = notePoison (unitRead s' die b 256) die b →
      (ptValid s' (uSpar g) .pmt (keyPart m.key) = false → exec (.eviction die spar) s =
        .next (evbHead (countCluN s' g rCluOrphcnt (operandCount m)) g none)) ∧
      (ptValid s' (uSpar g) .pmt (keyPart m.key) = true →
        ∀ a, findLine s'' b (fun w0 _ => !wbit w0 63) = some a → exec (.eviction die spar) s =
          .next (evbHead (filterUp (countClu (stores s'' die a (lineWords m)) g rCluMsevcnt) g
            (keyPart m.key) (keyFrame m.key)) g none))) ∧
    (∀ vc1 err f, atIngress s g vc1 = some f → holding s g .ingress = false → tagPart f.tag ∉ (getSpar s g).divert → ∀ r, placeFor s g f = some r →
      (∀ u, recvFlit (leaveIngress s g vc1) die (bClu spar) 0xFF 0x0111 f err = u →
        (∀ k, u.1 = some k → exec (.flitIngress die spar vc1 err) s = .next (iqEnter u.2 g k r false)) ∧
        (u.1 = none → exec (.flitIngress die spar vc1 err) s = .next u.2)) ∧
      (armed (leaveIngress s g vc1) die 0x0111 (bClu spar) 0xFF 1 = none → checkFlit f err = .clean f →
        exec (.flitIngress die spar vc1 err) s = .next (iqEnter (leaveIngress s g vc1) g f r false)) ∧
      (∀ t, armed (leaveIngress s g vc1) die 0x0111 (bClu spar) 0xFF 1 = none → checkFlit f err = .bad t → exec (.flitIngress die spar vc1 err) s =
        .next (deferred (countF (leaveIngress s g vc1) die bSch rSchFlitcnt 31 16 1) die (bClu spar) 0xFF 0x0111 0x06 0 t 0))) ∧
    (∀ part : PartNo, stuckAt s g part = true → (part : Nat) ∉ (getSpar s g).divert →
      exec (.diversionStart die spar part) s = .next (modSpar s g fun x => { x with divert := x.divert ++ [(part : Nat)] })) ∧
    (∀ part : PartNo, iqHeld (getSpar s g) part ≤ pptQshare s die part / 2 →
      exec (.diversionEnd die spar part) s = .next (modSpar s g fun x => { x with divert := x.divert.filter (· != (part : Nat)) }))
/-- Spill rings and purges (R111, R165, R166, R58, R109, R326, R498). The partition manager's append reserves a slot by a far add of 1 on
`TAIL` and writes it, word 2 last, where the ring has room, and holds it otherwise. A held slot is written once there is room,
and the ESCAPE credit of a link's receiver then goes back. The spar takes the slot at `HEAD` when it is valid and of the right
lap: word 2 becomes 0, `HEAD` rises by 1 and the flit enters the input queue with `KIND` bit [131] set. The measure stores the
occupancy, and the watermarks are in units of 32 slots. A purge taken from the input queue, when no token waits in the pipeline, removes its frame
from the frame-state cache; when its removal is complete the handle enters the tail of the quarantine FIFO, or its descriptor becomes FREE under
DESTROY where the purge is of its last generation. A `TAIL` or `HEAD` that is poisoned makes the unit abandon what it does (R326). -/
def Obligations.SpillRingProtocolAndPurge : Prop :=
  ∀ (s : State) (die : DieNo) (spar : SparNo) (g b : Nat), g = gspar die spar → b = sprBase s g →
    (die : Nat) < nDies s.part → dieLive s die = true →
    (∀ (tag value : Word) (kind : BitVec 2) (t : State), t = unitRead (farAdd s die b 1).2 die (b + 1) 1 →
      (isPoisoned s b = true → exec (.spillRingAppend die spar tag value kind) s = .next (farAdd s die b 1).2) ∧
      (isPoisoned s b = false → isPoisoned t (b + 1) = true →
        exec (.spillRingAppend die spar tag value kind) s = .next (hwPoison t die (b + 1))) ∧
      (isPoisoned s b = false → isPoisoned t (b + 1) = false → (peek s b).toNat - (peek t (b + 1)).toNat < 2 ^ 20 → exec (.spillRingAppend die spar tag value kind) s =
        .next (writeSlot t die g (peek s b).toNat tag value 0 (8 + kind.toNat))) ∧
      (isPoisoned s b = false → isPoisoned t (b + 1) = false → 2 ^ 20 ≤ (peek s b).toNat - (peek t (b + 1)).toNat → exec (.spillRingAppend die spar tag value kind) s =
        .next (holdSlot t die g ⟨(peek s b).toNat, tag, value, 0, 8 + kind.toNat, .manager⟩))) ∧
    (∀ k h t0 t, (getSpar s g).holds[k]? = some h → t0 = unitRead s (holderDie g h.producer) (b + 1) 1 →
      isPoisoned t0 (b + 1) = false → h.slot - (peek t0 (b + 1)).toNat < 2 ^ 20 →
      t = writeSlot (modSpar t0 g fun x => { x with holds := dropAt x.holds k }) (holderDie g h.producer) g h.slot h.tag h.value
        h.cls h.kind →
      (h.producer = .manager → exec (.spillRingHoldRetry die spar k) s = .next t) ∧
      (∀ d l, h.producer = .link d l → exec (.spillRingHoldRetry die spar k) s = .next (escapeFree t d l))) ∧
    (sparLive s g = true →
      (∀ head a t f, head = peek s (b + 1) → a = b + 16 + 4 * (head.toNat % 2 ^ 20) →
        isPoisoned (unitRead s die (b + 1) 1) (b + 1) = false →
        t = unitRead (unitRead s die (b + 1) 1) die a 4 → (firstBelow 4 fun j => isPoisoned t (a + j)) = none →
        f = slotFlit g (peek t a) (peek t (a + 1)) (peek s (a + 2)) → (getSpar s g).iq.length < 1024 →
        wbit (peek s (a + 2)) 63 = true → wfld (peek s (a + 2)) 31 0 = wfld head 31 0 → exec (.spillRingConsume die spar) s =
          .next (uncountSlot (iqEnter (store (store t die (a + 2) 0) die (b + 1) (head + 1)) g f false true) g (tagPart f.tag))) ∧
      (∀ t j, t = unitRead s die b 2 → (firstBelow 2 fun j => isPoisoned t (b + j)) = some j →
        exec (.spillRingMeasure die spar) s = .next (hwPoison t die (b + j))) ∧
      (∀ t occ old u r, t = unitRead s die b 2 → (firstBelow 2 fun j => isPoisoned t (b + j)) = none → occ = (peek t b - peek t (b + 1)).toNat →
        old = getF t die (bClu spar) rCluSrocc 20 0 → u = setF t die (bClu spar) rCluSrocc 20 0 (min occ (2 ^ 20)) →
        r = watermarkN 32 u die (bClu spar) rCluSrwm rCluSrxc (8 * spar + 4) (8 * spar + 5) old (min occ (2 ^ 20))
          (getSpar u g).srSide →
        exec (.spillRingMeasure die spar) s = .next (modSpar r.1 g fun x => { x with srSide := r.2 })) ∧
      (∀ p k, nextIq s g = some (p, k) → flitCls p.flit = 1 → (getSpar s g).pipe = none → (getSpar s g).reentry = [] →
        (routeBad p.flit = true → exec (.purge die spar) s = .next (dropNever (iqRemove s g k) g p.flit)) ∧
        (routeBad p.flit = false → (getSpar s g).purges.length < 16 →
          exec (.purge die spar) s = .next (modSpar (iqRemove s g k) g fun x =>
            { x with purges := x.purges ++ [p.flit.tag]
                     fcache := x.fcache.filter fun l => !(l.part == tagPart p.flit.tag && l.frame == tagFrame p.flit.tag) }))) ∧
      (∀ t rest u v, (getSpar s g).purges = t :: rest →
        u = purgeReady (purgeMatch (modSpar s g fun x => { x with purges := rest }) g t) g t →
        ((getHw u (tagPart t)).destroying = false → v = modHw u (tagPart t) (fun h => enterQuar h (tagFrame t)) →
          destroyingPart v = none → exec (.purgeComplete die spar) s = .next v) ∧
        ((getHw u (tagPart t)).destroying = true →
          ((tagGen t + 1) % 64 = frGen u die (tagFrame t) → exec (.purgeComplete die spar) s =
            .next (destroySettle (setFrame u die (tagFrame t) (frGen u die (tagFrame t)) fsFree))) ∧
          ((tagGen t + 1) % 64 ≠ frGen u die (tagFrame t) → exec (.purgeComplete die spar) s = .next (destroySettle u)))))
/-- The token mesh and the links (R28, R95, R113, R116, R117, R118, R119). An output of a router grants a flit of VC1 ahead of one of VC0, and
one grant in 16 is VC0's while it waits. The head of a sender's queue of a pool crosses in a transfer slot that the token class is granted, where the pool has
the credits that it needs: 2 for a THROUGH flit from the mesh, 1 otherwise. A head flit without them leaves on VC2 with the link's ESCAPE credit, in a
slot of the token class too, and the receiver checks it and writes it into the spill ring of the spar that it names. A returned credit becomes usable. -/
def Obligations.MeshAndLinksMoveFlits : Prop :=
  ∀ (s : State) (die : DieNo), (die : Nat) < nDies s.part → dieLive s die = true →
    (∀ (r : RouterNo) out c1 c0 n, c1 = hopCandidates s die r out 1 → c0 = hopCandidates s die r out 0 →
      n = tget (fun _ => 0) (getRouter s die r).cnt (portNo out) →
      (∀ x, c1.head? = some x → c0 = [] ∨ n < 15 → exec (.meshHop die r out) s = .next (grantHop s die r out 1 x)) ∧
      (∀ x, c0.head? = some x → c1 = [] ∨ 15 ≤ n → exec (.meshHop die r out) s = .next (grantHop s die r out 0 x))) ∧
    (∀ (link : LinkNo) (pool : Pool) (vc1 : Bool), stationLive s die (poolNo pool) = true →
      ∀ i p, i = 2 * poolNo pool + b2n vc1 → p = linkPeer s die link →
      (∀ err f mesh rest u t, tget (fun _ => []) (getLink s p.1 p.2).tx i = (f, mesh) :: rest →
        (getLink s p.1 p.2).out = false → (getLink s die link).out = false → tokenSlot s p.1 p.2 = some u →
        (if pool = .through ∧ mesh then 2 else 1) ≤
          poolCredits (poolNo pool) (b2n vc1) - tget (fun _ => 0) (getLink s p.1 p.2).used i →
        t = modLink u p.1 p.2 (fun l =>
          { l with tx := tset (fun _ => []) l.tx i rest, used := tmod (fun _ => 0) l.used i (· + 1) }) →
        exec (.linkFlitReceive die link pool vc1 err) s = .next (strmSettle (drainAll (arriveLink t die link i f err) p.1 (1 - p.2)))) ∧
      (∀ f mesh rest u, pool ≠ .exitCe → tokenSlot s die link = some u → tget (fun _ => []) (getLink s die link).tx i = (f, mesh) :: rest → flitCls f ≠ 2 →
        (getLink s die link).out = false → (getLink s die link).escUsed = false →
        poolCredits (poolNo pool) (b2n vc1) - tget (fun _ => 0) (getLink s die link).used i <
          (if pool = .through ∧ mesh then 2 else 1) →
        exec (.escapeSend die link pool vc1) s = .next (drainAll (count (modLink (modLink u die link fun l =>
            { l with tx := tset (fun _ => []) l.tx i rest, escUsed := true }) p.1 p.2 fun l =>
            { l with esc := some { f with route := mkRoute 2 (flitCls f) (flitDie f) (flitDest f) } })
          die bSch (if (link : Nat) = 0 then rSchLnkesc0 else rSchLnkesc1)) die (1 - link))) ∧
      (0 < tget (fun _ => 0) (getLink s die link).back i → exec (.creditReturn die link pool vc1) s =
        .next (modLink s die link fun l =>
          { l with back := tmod (fun _ => 0) l.back i (· - 1), used := tmod (fun _ => 0) l.used i (· - 1) }))) ∧
    (∀ (link : LinkNo) err f0 f v t g u, (getLink s die link).esc = some f0 →
      v = modLink s die link (fun l => { l with esc := none }) → recvFlit v die bSys (2 * die + link) 0x0401 f0 err = (some f, t) →
      (getDie v (flitDie f)).withdrawn = false → g = gspar (flitDie f) (flitDest f) →
      u = appendSlot t die g (.link die link) f.tag f.value (flitCls f) (if flitCls f = 1 then 0 else 8 + origKind f) →
      (((getSpar u g).holds.any fun h => h.producer == .link die link) = true →
        exec (.escapeReceive die link err) s = .next u) ∧
      (((getSpar u g).holds.any fun h => h.producer == .link die link) = false →
        exec (.escapeReceive die link err) s = .next (escapeFree u die link)))
/-- The scheduler's ready lists (R127, R131, R135, R144, R151, R319, R626). An entry of level 3 or 2 moves up one level where a place
is available to it. The scheduler dispatches up to two eligible entries in a cycle, and one in level 2 of the thermal control;
each is the eligible entry of the lowest level and the first in order, and it leaves its list. A PROM record carries the level into which the entry has moved (the model's choice: log
entry 125). A frame-word flow key comes through the spar L2, and makes its entry wait for a request slot; it is the word that stands there when the command comes
(the model's choice: log entry 127). An item spar copies the slot at `HEAD` into its level, writes word 4 to 0 and
increments `HEAD`. Ratline writes record `k` at `RTL_BASE` + 4 × (k mod 2^LOG2N) and then increments `RTL_WPTR`. -/
def Obligations.ReadyListsDispatchItemsAndRatline : Prop :=
  ∀ (s : State) (die : DieNo) (spar : SparNo) (g : Nat), g = gspar die spar → (die : Nat) < nDies s.part →
    (sparLive s g = true →
      (∀ k i, (getSpar s g).rl[k]? = some i → 2 ≤ i.level → hasPlace s g i.part (i.level - 1) = true →
        exec (.readyPromote die spar k) s = .next (ratInst (modSpar s g fun x =>
          { x with rl := setAt x.rl k { i with level := i.level - 1 } }) g 2 { i with level := i.level - 1 } 0 0)) ∧
      (s.pw.level2 = false → exec (.dispatch die spar) s = .next (dispatchOne (dispatchOne s g) g)) ∧
      (s.pw.level2 = true → exec (.dispatch die spar) s = .next (dispatchOne s g)) ∧
      (∀ (v : State) i k r f,
        minBy (fun i => if dispatchable v g (availableSlots v g).length i then rlKey i else 2 ^ 80) (getSpar v g).rl = some (i, k) →
        (dispatchable v g (availableSlots v g).length i = false → dispatchOne v g = v) ∧
        (dispatchable v g (availableSlots v g).length i = true → r = startOn (rlRemove v g k) g i (availableSlots v g) →
          f = takeFree r.1 → dispatchOne v g = ratInst (modHw (ptFill f.2 (g / 32) .pxt i.part) i.part fun h =>
            { h with fired := true, lastFire := timeOf f.2 (g / 32) }) g 1 i r.2 f.1.toNat)) ∧
      (∀ k i c va u pa, (getSpar s g).rl[k]? = some i → i.flow = .keyWait → c = codeletCtx (g / 32) i.part i.asid →
        va = i.body + i.key.toNat → u = xlateNote s c va → translate u c .read va = .ok pa → backed u pa = true →
        (lineForRead u g (pa / 16) = none → exec (.flowKeyReturn die spar k) s = .next s) ∧
        (∀ t key, lineForRead u g (pa / 16) = some t → l2Poisoned t g pa = false → key = l2Word t g pa → arbiterExists t g i key = true →
          exec (.flowKeyReturn die spar k) s = .next (assignSlots (modSpar t g fun x =>
            { x with rl := setAt x.rl k { i with flow := .slotWait, key := key } }) g 64))) ∧
      (∀ part m n b head a w1 w4 graph c cb e t u, n = uSpar g → part = getF s die (bClu spar) rCluSchctl 25 16 → itemMode s g = true →
        ptValid s n .pst part = true → pstIv s n part = true → g = pstItemBase s n part + m →
        m < 2 ^ pstLog2I s n part → b = itemRing s n part m → head = peek s (b + 1) →
        a = b + 16 + 8 * (head.toNat % 2 ^ pstLog2N s n part) → w4 = peek s (a + 4) → w1 = peek s (a + 1) →
        isPoisoned (unitRead s die (b + 1) 1) (b + 1) = false → t = unitRead (unitRead s die (b + 1) 1) die a 5 → (∀ k < 5, isPoisoned t (a + k) = false) → wbit w4 63 = true →
        wfld w4 31 0 = wfld head 31 0 → hasPlace t g part (itemLevel w1) = true → c = codeletCtx die part (wfld w4 45 40) →
        wfld w1 31 0 = 0 ∨ flowDie u n part (w64 (wfld w1 31 0)) < nDies u.part → graph = wfld (peek t a) 48 0 → u = unitNote (unitNote t c graph 4) c (graph + 4 + wfld w1 63 46) 1 →
        itemCode u c graph (wfld w1 63 46) = some (cb, e) → exec (.itemTake die spar) s =
          .next (store (store (enterItem u g part (wfld w4 45 40) (peek u a) w1 (peek u (a + 2)) (peek u (a + 3)) cb e)
            die (a + 4) 0) die (b + 1) (head + 1)))) ∧
    (dieLive s die = true → blkEn s die bRtl = true →
      ∀ r rest t cfg k a, (getSpar s g).staging = r :: rest → t = modSpar s g (fun x => { x with staging := rest }) →
        cfg = getReg t die bRtl rRtlCfg → k = getReg t die bRtl rRtlWptr → bitOf cfg 31 = false ∨ k < 2 ^ fld cfg 30 26 →
        a = baseOf t die bRtl rRtlBaseHi + 4 * (k % 2 ^ fld cfg 30 26) → exec (.ratlineRecordWrite die spar) s =
          .next (setReg (stores t die a [r.time, r.tag, r.info, r.fkey]) die bRtl rRtlWptr ((k + 1) % 2 ^ 32)))
/-- Flow arbiters (R137, R138, R139, R140, R148). A request takes the requesting spar's own entry if that is free, else a shared one; with
neither it is refused and counted; the refusal of a spar of another die crosses in slots of the coherence class, and while it gets none the request waits. With no other entry of its partition and key it is HELD and granted, else it waits. A refused
request is sent again. A grant makes the ready entry eligible, and one whose entry is gone is answered with a release. A release
frees the HELD entry and grants the oldest WAIT entry of the flow. A cancel removes a WAIT entry. Grants, waits and
releases are given to the Ratline of the arbiter's die with what the request told of its entry (R148). A message between dies
crosses in slots of the coherence class, and waits while it is given none (R140). -/
def Obligations.FlowArbiterGrantsInOrder : Prop :=
  ∀ (s : State) (die : DieNo), (die : Nat) < nDies s.part → dieLive s die = true →
    (∀ k m v t own shared, blkEn s die bSch = true → s.flowMsgs[k]? = some m → m.die = (die : Nat) → flowCross s m = some v →
      t = { v with flowMsgs := dropAll s.flowMsgs [k] } →
      own = !((flows t die).any fun e => e.reserved && e.spar == m.spar) →
      shared = decide (((flows t die).filter fun e => !e.reserved).length < 4096 - 32 * nDies t.part) → m.kind = .request →
      (own = false → shared = false →
        (∀ u, cohCross t die (m.spar / 32) = some u → exec (.flowRequest die [k]) s = .next (markRefused (count u die bSch rSchFlownakcnt) m)) ∧
        (cohCross t die (m.spar / 32) = none → exec (.flowRequest die [k]) s = .next { t with flowMsgs := t.flowMsgs ++ [m] })) ∧
      (own || shared → ((flows t die).any (sameFlow m.part m.key)) = false →
        ∀ e : FlowEntry, e = ⟨m.part, m.key, m.spar, m.slot, true, own, m.who⟩ →
        exec (.flowRequest die [k]) s = .next (grantTo (setFlows t die (flows t die ++ [e])) die e)) ∧
      (own || shared → ((flows t die).any (sameFlow m.part m.key)) = true →
        ∀ e : FlowEntry, e = ⟨m.part, m.key, m.spar, m.slot, false, own, m.who⟩ →
        exec (.flowRequest die [k]) s =
          .next (ratFlow (setFlows t die (flows t die ++ [e])) die 3 m.spar m.part m.key m.who))) ∧
    (∀ (spar : SparNo) g slot i k, g = gspar die spar → sparLive s g = true →
      ((getSpar s g).rl.zipIdx.find? fun p => p.1.flow == .refused && p.1.slot == slot) = some (i, k) →
      exec (.flowRequestRetry die spar slot) s = .next (sendFlow (modSpar s g fun x =>
        { x with rl := setAt x.rl k { i with flow := .requested } }) .request g i.part i.key slot (flowWho i))) ∧
    (∀ n m, s.flowMsgs[n]? = some m → flowCross s m = none → exec (.flowGrant die n) s = .next s ∧
      (blkEn s die bSch = true → exec (.flowRelease die n) s = .next s ∧ exec (.flowCancel die n) s = .next s)) ∧
    (∀ n m v t, s.flowMsgs[n]? = some m → flowCross s m = some v → t = { v with flowMsgs := dropAt v.flowMsgs n } →
      (∀ found, m.kind = .grant → m.spar / 32 = (die : Nat) → found = ((getSpar t m.spar).rl.zipIdx.find? fun p =>
          p.1.flow == .requested && p.1.slot == m.slot && p.1.part == m.part && p.1.key == m.key) →
        (∀ i k, found = some (i, k) → exec (.flowGrant die n) s =
          .next (modSpar t m.spar fun x => { x with rl := setAt x.rl k { i with flow := .held } })) ∧
        (found = none → exec (.flowGrant die n) s = .next (sendFlow t .release m.spar m.part m.key m.slot m.who))) ∧
      (∀ e k, blkEn s die bSch = true → m.kind = .release → m.die = (die : Nat) →
        ((flows t die).zipIdx.find? fun p => p.1.held && sameFlow m.part m.key p.1 && p.1.spar == m.spar) = some (e, k) →
        exec (.flowRelease die n) s = .next (grantNext (ratFlow (setFlows t die (dropAt (flows t die) k)) die 5 m.spar m.part m.key
          m.who) die m.part m.key)) ∧
      (∀ e k, blkEn s die bSch = true → m.kind = .cancel → m.die = (die : Nat) →
        ((flows t die).zipIdx.find? fun p => !p.1.held && sameFlow m.part m.key p.1 && p.1.spar == m.spar && p.1.slot == m.slot) =
          some (e, k) → exec (.flowCancel die n) s = .next (setFlows t die (dropAt (flows t die) k))))
/-- Admission notices and loop gates (R140, R168, R174, R175, R326). The SCH block counts, for each partition, the spars whose last notice
was a close; a notice from another die crosses in slots of the coherence class (R140). A gate request appends a waiter where `WTAIL` − `WHEAD` is below 2^LOG2W and `LIMIT` is not 0, and is otherwise
counted in `REFUSED` and `GATEREF` and answered with 0; a grant attempt follows. One that names no gate is answered with 0 alone.
A release decrements `COUNT`, or adds 1 to `UNDER` where `COUNT` is 0, and a grant attempt follows. A gate line with a poisoned word makes
the unit abandon the message. A waiting gate tries again. -/
def Obligations.AdmissionNoticesAndLoopGates : Prop :=
  ∀ (s : State) (die : DieNo), (die : Nat) < nDies s.part → dieLive s die = true → blkEn s die bSch = true →
    (∀ k n v t0 t, s.notices[k]? = some n → n.die = (die : Nat) →
      ((s.notices.take k).any fun m => m.die == (die : Nat) && m.spar == n.spar) = false → cohCross s (n.spar / 32) die = some v → t0 = ptFill v die .ppt n.part →
      t = modDie { t0 with notices := dropAt t0.notices k } die (fun x => { x with closed :=
        (if n.close then x.closed.filter (· != (n.part, n.spar)) ++ [(n.part, n.spar)]
         else x.closed.filter (· != (n.part, n.spar))) }) →
      exec (.admissionNotice die k) s =
        .next (if (die : Nat) = 0 ∧ (!admissionClosed t0 die n.part) = true ∧ admissionClosed t die n.part = true
          then pptCount t die n.part 4 else t)) ∧
    (∀ k m o t0 t a, s.gateMsgs[k]? = some m → m.die = (die : Nat) → o = m.op →
      t0 = ptFill { s with gateMsgs := dropAt s.gateMsgs k } die .ppt o.part → a = gateLine t0 die o.part o.gate →
      t = (readClean t0 die a 4).2 →
      (o.release = false → gateExists t0 die o.part o.gate = false →
        exec (.gateRequest die k) s = .next (gateReply t0 die o.part o.rtag 0)) ∧
      (o.release = true → gateExists t0 die o.part o.gate = false → exec (.gateRelease die k) s = .next t0) ∧
      (gateExists t0 die o.part o.gate = true → (readClean t0 die a 4).1 = false →
        (o.release = false → exec (.gateRequest die k) s = .next t) ∧
        (o.release = true → exec (.gateRelease die k) s = .next t)) ∧
      (o.release = false → gateExists t0 die o.part o.gate = true → (readClean t0 die a 4).1 = true →
        (gateWaiters t die o.part o.gate < 2 ^ pptLog2W t die o.part → wfld (peek t a) 63 32 ≠ 0 →
          ∀ e u, e = waiterAt t die o.part o.gate (wfld (peek t (a + 1)) 63 32) →
            u = stores t die e [o.rtag, w64 (o.asid % 64 * 2 ^ 58 + o.graph % 2 ^ 49), o.uword, 0] →
          exec (.gateRequest die k) s =
            .next (gateTry (gateSet u die (a + 1) true (wfld (peek t (a + 1)) 63 32 + 1)) die o.part o.gate)) ∧
        (2 ^ pptLog2W t die o.part ≤ gateWaiters t die o.part o.gate ∨ wfld (peek t a) 63 32 = 0 →
          exec (.gateRequest die k) s = .next (gateTry (gateRefuse t die o.part o.gate o.rtag) die o.part o.gate))) ∧
      (o.release = true → gateExists t0 die o.part o.gate = true → (readClean t0 die a 4).1 = true →
        (wfld (peek t a) 31 0 ≠ 0 → exec (.gateRelease die k) s =
          .next (gateTry (gateSet t die a false (wfld (peek t a) 31 0 - 1)) die o.part o.gate)) ∧
        (wfld (peek t a) 31 0 = 0 → exec (.gateRelease die k) s =
          .next (gateTry (gateSet t die (a + 3) false (wfld (peek t (a + 3)) 31 0 + 1)) die o.part o.gate)))) ∧
    (∀ (part : PartNo) gate, s.gateWaits.contains ((die : Nat), (part : Nat), gate) = true → gateExists s die part gate = true →
      ∀ r, r = readClean s die (gateLine s die part gate) 4 →
        exec (.gateGrantRetry die part gate) s = .next (if r.1 then gateTry r.2 die part gate else r.2))
/-- The luff detector (R179, R180, R181). At the end of an interval the summaries of the watched partitions reach the detector and the next interval
begins; an interval whose summaries are incomplete counts as fired. The evaluation judges a partition: an interval that fired sets the run count to 0
and arms the detector, one that pends and holds nothing open adds 1 to it, and any other sets it to 0; an armed detector reports when the count equals
`LUFFW`, and disarms. A partition is watched while its `LUFFW` is not 0 and its `PSTATE`, which the detector reads at its home, is LIVE; one that is not
watched is not judged. That the replies that have arrived are forgotten is the model's own state (log entry 129). -/
def Obligations.LuffDetectorCountsStuckIntervals : Prop :=
  ∀ (s : State),
    (∀ t u, t = (luffParts s).foldl (fun s p =>
          let r := luffLive (ptFill s 0 .ppt p) p
          if r.1 then luffSummary r.2 p else r.2) s →
        u = (t.hw.map (·.1)).foldl newInterval t →
      s.fatal = false → exec .luffIntervalEnd s = .next { u with fetchMoves := u.fetchMoves.filter (replyMoves u) }) ∧
    (∀ p, luffLive s p = ((readClean s 0 (ptAddr s 0 .pxt p + 7) 1).1 && pxtPstate (readClean s 0 (ptAddr s 0 .pxt p + 7) 1).2 p == 1,
      (readClean s 0 (ptAddr s 0 .pxt p + 7) 1).2)) ∧
    (0 < nDies s.part → dieLive s 0 = true → blkEn s 0 bSch = true →
      ∀ part : PartNo, exec (.luffEvaluate part) s = .next (luffJudge s part)) ∧
    (∀ p, getLuff (luffSummary s p) p =
      ⟨(getLuff s p).run, (getLuff s p).armed, (getHw s p).fired || !luffComplete s, (pendFlags s p).any id,
        (getHw s p).opened || openNow s p, (getHw s p).lastFire, true⟩) ∧
    (∀ p l run t, l = getLuff s p → l.due = true →
      (ptValid s 0 .ppt p = false ∨ pptLuffw s 0 p = 0 → luffJudge s p = setLuff s p { l with due := false }) ∧
      (ptValid s 0 .ppt p = true → pptLuffw s 0 p ≠ 0 → t = (luffLive s p).2 →
        ((luffLive s p).1 = false → luffJudge s p = setLuff t p { getLuff t p with due := false }) ∧
        (run = (if (getLuff t p).fired then 0 else if (getLuff t p).pend && !(getLuff t p).opened then (getLuff t p).run + 1 else 0) → (luffLive s p).1 = true →
          (((getLuff t p).fired || (getLuff t p).armed) = true → run = pptLuffw t 0 p →
            luffJudge s p = luffReport (setLuff t p { getLuff t p with due := false, run := run, armed := false }) p
              { getLuff t p with due := false, run := run, armed := true }) ∧
          (((getLuff t p).fired || (getLuff t p).armed) = false ∨ run ≠ pptLuffw t 0 p →
            luffJudge s p = setLuff t p { getLuff t p with due := false, run := run, armed := (getLuff t p).fired || (getLuff t p).armed }))))
/-- Waits that end (R171, R72, R76, R77, R79). An inbound exchange that waits for a frame tries its allocation again, and when a handle is
got its frame is allocated and the exchange closes; with none to be had it goes on waiting and the failure is counted; after 10 ms it fails with
NO_FRAME; either way the messages of its session that wait behind it are completed in order. A word that the fetch agent asked for comes back as a VALUE reply token, which counts as
outstanding until it has arrived (R179; log entry 129). A trap whose ring slot is free is recorded there; one whose slot is
not is counted and raises source 0x400 + part. Its TRAP token names the slot; a trap of an instance that a TRAP token fired sends none and raises source
0x800 + part. -/
def Obligations.InboundFetchAndTrapComplete : Prop :=
  ∀ (s : State) (die : DieNo), (die : Nat) < nDies s.part → dieLive s die = true →
    (chanLost s die = false → ∀ k b part asid t, (getChan s die).inbound[k]? = some b → part = entPart s b.index → asid = entAsid s b.index →
      t = allocNote (ptFill s die .ppt part) (uCen (entOwner s b.index)) part asid →
      (∀ f h pa u, tryAlloc t (uCen (entOwner t b.index)) part asid = .got f h pa →
        u = store (doAlloc t die part asid (stGraph t b.session) f h pa (ent t b.index 1)) die (pa + 1) (w64 b.buffer) →
        exec (.inboundAllocRetry die k) s =
          .next (rxComplete (closeOk (setEnt (modChan u die fun c => { c with inbound := c.inbound.filter (·.index != b.index) }) b.index 2
            (mkTag part f (frGen u die f) (stCodelet u b.session) 0 0)) b.index) b.session)) ∧
      (∀ closed, tryAlloc t (uCen (entOwner t b.index)) part asid = (if closed then .closed else .empty) →
        ((getChan (countAllocFail t die part closed) die).inbound.any (·.index == b.index)) = true →
        exec (.inboundAllocRetry die k) s = .next (rxComplete (countAllocFail t die part closed) b.session)) ∧
      exec (.inboundAllocTimeout die k) s =
        .next (rxComplete (recvFail (modChan s die fun c => { c with inbound := dropAt c.inbound k }) b.index rsNoFrame 0) b.session)) ∧
    (∀ (spar : SparNo) g k j h t, g = gspar die spar → sparLive s g = true → (getSpar s g).fetches[k]? = some j →
      t = unitRead (modSpar s g fun x => { x with fetches := dropAt x.fetches k }) die j.pa 1 → isPoisoned t j.pa = false →
      homeOf t (uSpar g) (tagPart j.tag) (tagFrame j.tag) = some h → ∀ f, f = mkToken h kValue j.tag (peek t j.pa) →
        exec (.fetchReply die spar k) s =
          .next (refillReplies { modSpar t g (fun x => { x with replies := x.replies ++ [f] }) with fetchMoves := t.fetchMoves ++ [f] } g)) ∧
    (∀ n t b r k a u v, s.traps[n]? = some t → t.die = (die : Nat) → u = { s with traps := dropAt s.traps n } →
      ptValid u die .pxt t.part = true → b = pxtTrbase u die t.part → r = farAdd (ptFill u die .pxt t.part) die b 1 →
      k = r.1.toNat % 2 ^ pxtLog2Tr u die t.part → a = b + 16 + 8 * k → v = unitRead r.2 die a 1 →
      (isPoisoned u b = true → t.byTrap = false → exec (.trapDelivery n) s =
        .next (trapToken (evRaise (modHw r.2 t.part fun h => { h with trapOvf := h.trapOvf + 1 }) 0 (0x400 + t.part)) t (w64 (2 ^ 63)))) ∧
      (isPoisoned u b = false → isPoisoned v a = false →
      (peek v a = 0 → t.byTrap = false → exec (.trapDelivery n) s = .next (trapToken (writeTrap v die a t) t (w64 k))) ∧
      (peek v a = 0 → t.byTrap = true → exec (.trapDelivery n) s = .next (evRaise (writeTrap v die a t) 0 (0x800 + t.part))) ∧
      (peek v a ≠ 0 → t.byTrap = false → exec (.trapDelivery n) s =
        .next (trapToken (evRaise (modHw v t.part fun h => { h with trapOvf := h.trapOvf + 1 }) 0 (0x400 + t.part)) t (w64 (2 ^ 63))))))
/-- How an instruction begins and ends (R199, R201, R345). Whatever a core fetches and executes, an instruction whose fetch fails
ends in the fetch's own cause with the word address, and so does the core: a PE's instance traps, a supervisor core takes an
exception with its `EPC` at the instruction; `t` is what reading the code has left in the caches, the translation unit and the counters. Stated for `nop`, whose fetch every instruction of one parcel shares.
Entry to a level and the return from it (R345). Entry to level 1 or 2 writes EPC, ESTAT, CAUSE and EADDR of that level and
`STATUS`; the core goes on at the vector base plus the offset, and the return finds what entry saved. -/
def Obligations.FetchFailuresAndExceptionEntry : Prop :=
  (∀ (s : State) (core : CoreId) (h : Hart) (pc e wa : Nat), coreIssues s core = true → h = hartOf core → pc = hartPc s h →
    fetchFail s h pc 1 = some (e, wa) → ∀ t, fetchInstr s h pc 1 = some t →
    (∀ p, core = .pe p → exec (.nop core 0) s = .next (peTrap t (peOf p) 0 e 0 wa pc)) ∧
    (∀ p, core = .sup p → exec (.nop core 0) s = .next (syncExc t (supOf p) e 0 (w64 wa) pc))) ∧
  (∀ (s t : State) (c l vec cause detail call epc : Nat) (addr : Word), l = 1 ∨ l = 2 →
    t = enterLevel s c l vec cause detail call addr epc →
    spr t c (zLevel l + 1) = w64 (epc % 2 ^ 51) ∧ spr t c (zLevel l + 2) = w64 (wfld (spr s c zStatus) 5 0) ∧
    spr t c (zLevel l + 3) = w64 (cause * 2 ^ 56 + detail % 2 ^ 8 * 2 ^ 48 + call % 2 ^ 5 * 2 ^ 40) ∧
    spr t c (zLevel l + 4) = addr ∧ levelOf t c = l ∧ excOf t c l = true ∧ ieOf t c l = false ∧
    hartPc t (.sup c) = (wfld (spr s c (zLevel l)) 50 0 / 2 ^ 10 * 2 ^ 10 + vec) % 2 ^ 51 ∧
    hartPc (leaveLevel t c l) (.sup c) = epc % 2 ^ 51 ∧ levelOf (leaveLevel t c l) c = levelOf s c)
/-- The X16 instructions (R259, R62, R63, R190, R192, R281, R299, R343, R345, R362). `nop`, `fence` and, on a supervisor core, `fence.dev` change
nothing but the program counter. `commit` makes a commit point with the checkpoint at the next instruction; `end` makes one and
ends the instance; each waits until the spar L2 has every line of the scope (R281). `eret` restores level and program counter. `wfe` loses the core's reservation and waits unless an offer is in
a slot. `sys` enters the next level with `EPC` at the next instruction and its argument in `CALL`. `sys` in PL2 and
`eret` in PL0 are PRIV, and `eret` to a level above the one in force is ILLEGAL (R345). A non-zero argument of an instruction that takes none is an
invalid encoding, and so are `commit` and `end` on a supervisor core (R190); a PE that executes `fence.dev`, `eret`, `wfe` or `sys` traps with PRIV
(R192). That such an argument is judged before the level, on a core below the level it needs too, is the model's choice (log 141); a PE's
`sys` is stated for argument 0. -/
def Obligations.ControlInstructionsComplete : Prop :=
  ∀ (s t : State) (h : Hart) (pc : Nat),
    (∀ core, Runs s core 1 h pc t →
      exec (.nop core 0) s = .next (coreAfter core pc 1 (.next t)) ∧ exec (.fence core 0) s = .next (coreAfter core pc 1 (.next t)) ∧
      ∀ arg, arg ≠ 0 → ∀ c ∈ [Instr.nop core arg, .commit core arg, .end_ core arg, .fence core arg, .fenceDev core arg, .eret core arg,
        .wfe core arg], exec c s = .next (coreAfter core pc 1 (.trap t tIllegal 0 0))) ∧
    (∀ p, Runs s (.pe p) 1 h pc t → ∀ c ∈ [Instr.fenceDev (.pe p) 0, .eret (.pe p) 0, .wfe (.pe p) 0, .sys (.pe p) 0],
      exec c s = .next (coreAfter (.pe p) pc 1 (.trap t tPriv 0 0))) ∧
    (∀ p, Runs s (.sup p) 1 h pc t → ∀ c ∈ [Instr.commit (.sup p) 0, .end_ (.sup p) 0],
      exec c s = .next (coreAfter (.sup p) pc 1 (.trap t tIllegal 0 0))) ∧
    (∀ p k, Runs s (.pe p) 1 h pc t → k = peOf p →
      (∀ t', ownHeld t k = some t' →
        exec (.commit (.pe p) 0) s = .next (mirror (commitAwait (setPc t' (.pe k) (hartPc t' (.pe k) + 1)) k) k) ∧
        exec (.end_ (.pe p) 0) s = .next (mirror (endInst (commitPoint t' k) k 0) k)) ∧
      (ownHeld t k = none → exec (.commit (.pe p) 0) s = .next (mirror t k) ∧ exec (.end_ (.pe p) 0) s = .next (mirror t k))) ∧
    (∀ p c l, Runs s (.sup p) 1 h pc t → c = supOf p → l = levelOf t c →
      exec (.fenceDev (.sup p) 0) s = .next (setPc t (.sup c) (pc + 1)) ∧
      exec (.wfe (.sup p) 0) s = .next (setPc (modSup (dropResv t (supAgent c)) c fun x =>
        { x with waiting := x.openOffer.isNone && x.sealedOffer.isNone }) (.sup c) (pc + 1)) ∧
      (l = 0 → exec (.eret (.sup p) 0) s = .next (syncExc t c tPriv 0 (w64 0) pc)) ∧
      (1 ≤ l → l < wfld (spr t c (zLevel l + 2)) 1 0 → exec (.eret (.sup p) 0) s = .next (syncExc t c tIllegal 0 (w64 0) pc)) ∧
      (1 ≤ l → wfld (spr t c (zLevel l + 2)) 1 0 ≤ l → exec (.eret (.sup p) 0) s = .next (leaveLevel t c l)) ∧
      (∀ arg, l ≠ 2 → exec (.sys (.sup p) arg) s =
        .next (enterLevel t c (l + 1) 0x200 tSys 0 arg.toNat 0 (hartPc t (.sup c) + 1))) ∧
      (∀ arg, l = 2 → exec (.sys (.sup p) arg) s = .next (syncExc t c tPriv 0 (w64 0) pc)))
/-- Integer instructions (R202, R226, R231, R257, R258, R260, R261, R262). Each writes the result that its table gives to its destination
and nothing else of the core but the program counter: the operations of RR 0x00, the immediates, the moves between register
classes, the compact forms, and the sticky flags read and cleared. Sums, differences and products are mod 2^64, and a shift
takes its count mod 64. A function number that the table leaves unassigned and a bit field that does not fit are invalid encodings, and so is an encoding of one to four
parcels that no row of the map of opcodes assigns (R202, R257; that these stand as a form of COMPACT_INSTRUCTION is the model's choice, log entry 130). -/
def Obligations.IntegerInstructionsComplete : Prop :=
  ∀ (s t : State) (core : CoreId) (h : Hart) (pc : Nat),
    (Runs s core 2 h pc t →
      (∀ (rd rs1 rs2 : Fin 32) x y, x = getD t h rs1 → y = getD t h rs2 →
        (∀ fn v, intReg fn.toNat rs2 x y = some v →
          exec (.intRegOp core rd rs1 rs2 fn) s = .next (coreAfter core pc 2 (.next (setD t h rd v)))) ∧
        (∀ fn, intReg fn.toNat rs2 x y = none →
          exec (.intRegOp core rd rs1 rs2 fn) s = .next (coreAfter core pc 2 (.trap t tIllegal 0 0))) ∧
        exec (.intRegOp core rd rs1 rs2 0) s = .next (coreAfter core pc 2 (.next (setD t h rd (x + y)))) ∧
        exec (.intRegOp core rd rs1 rs2 1) s = .next (coreAfter core pc 2 (.next (setD t h rd (x - y)))) ∧
        exec (.intRegOp core rd rs1 rs2 8) s = .next (coreAfter core pc 2 (.next (setD t h rd (x <<< (y.toNat % 64))))) ∧
        exec (.intRegOp core rd rs1 rs2 10) s = .next (coreAfter core pc 2 (.next (setD t h rd (x.sshiftRight (y.toNat % 64))))) ∧
        exec (.intRegOp core rd rs1 rs2 13) s = .next (coreAfter core pc 2 (.next (setD t h rd (x * y))))) ∧
      (∀ (rd rs1 : Fin 32) (imm : BitVec 14) x i, x = getD t h rs1 → i = (imm.signExtend 64 : Word) →
        (∀ op v, (op, v) ∈ [(RiOp.addi, x + i), (.andi, x &&& i), (.ori, x ||| i), (.xori, x ^^^ i), (.slti, boolWord (x.slt i)),
            (.sltiu, boolWord (x.ult i))] →
          exec (.intImmOp core (.ri op rd rs1 imm)) s = .next (coreAfter core pc 2 (.next (setD t h rd v)))) ∧
        (fld imm.toNat 11 6 = 0 → exec (.intImmOp core (.ri .shi rd rs1 imm)) s =
          .next (coreAfter core pc 2 (.next (setD t h rd (shift (fld imm.toNat 13 12) x (fld imm.toNat 5 0)))))) ∧
        (∀ pos len op v, posLen imm = some (pos, len) →
          (op, v) ∈ [(RiOp.extu, w64 (wfld x (pos + len - 1) pos)), (.exts, exts x pos len), (.ins, ins (getD t h rd) x pos len)] →
          exec (.intImmOp core (.ri op rd rs1 imm)) s = .next (coreAfter core pc 2 (.next (setD t h rd v)))) ∧
        (posLen imm = none → ∀ op ∈ [RiOp.extu, .exts, .ins],
          exec (.intImmOp core (.ri op rd rs1 imm)) s = .next (coreAfter core pc 2 (.trap t tIllegal 0 0))) ∧
        (rd < 16 → rs1 < 16 → exec (.intImmOp core (.ri .addai rd rs1 imm)) s =
          .next (coreAfter core pc 2 (.next (setA t h rd (addA (getA t h rs1) imm.toInt)))))) ∧
      (∀ rd rs1 rs2 : Fin 32,
        (∀ (fn : BitVec 9) n v, (fn, n, v) ∈ [(0, 32, (getD t h rs1).toNat), (2, 16, getA t h rs1)] → rd < 16 → (rs1 : Nat) < n →
          exec (.classMove core (.rr rd rs1 0 fn)) s = .next (coreAfter core pc 2 (.next (setA t h rd v)))) ∧
        (∀ (fn : BitVec 9) n v, (fn, n, v) ∈ [(1, 16, w64 (getA t h rs1)), (5, 8, getM t h rs1), (6, 4, loHalf (getW t h rs1)),
            (7, 4, hiHalf (getW t h rs1))] → (rs1 : Nat) < n →
          exec (.classMove core (.rr rd rs1 0 fn)) s = .next (coreAfter core pc 2 (.next (setD t h rd v)))) ∧
        (rd < 16 → rs1 < 16 → exec (.classMove core (.rr rd rs1 rs2 3)) s =
          .next (coreAfter core pc 2 (.next (setA t h rd (getA t h rs1 + (getD t h rs2).toNat))))) ∧
        (rd < 8 → exec (.classMove core (.rr rd rs1 0 4)) s = .next (coreAfter core pc 2 (.next (setM t h rd (getD t h rs1)))))) ∧
      (∀ (wd ws : Fin 4) (rs1 rs2 : Fin 32),
        exec (.classMove core (.wr wd 0 rs1 rs2 0)) s =
          .next (coreAfter core pc 2 (.next (setW t h wd (mkWide (getD t h rs2) (getD t h rs1))))) ∧
        exec (.classMove core (.wr wd ws 0 0 1)) s = .next (coreAfter core pc 2 (.next (setW t h wd (getW t h ws))))) ∧
      (∀ rd : Fin 32, exec (.rdflg core rd 0 0) s =
        .next (coreAfter core pc 2 (.next (setD t h rd (w64 (hartFlags t h)))))) ∧
      (∀ imm : BitVec 14, fld imm.toNat 13 7 = 0 → exec (.clrflg core 0 0 imm) s = .next (coreAfter core pc 2
        (.next (modRegs t h fun r => { r with flags := r.flags &&& ~~~BitVec.ofNat 7 imm.toNat }))))) ∧
    (Runs s core 3 h pc t → ∀ (rd : Fin 32) (imm : BitVec 32) x sx, x = getD t h rd → sx = (imm.signExtend 64 : Word) →
      (∀ op fn3 v, (op, fn3, v) ∈ [(Ri32Op.li32, (0 : BitVec 3), sx), (.li32, 1, w64 imm.toNat), (.li32, 2, wput x 63 32 imm.toNat),
          (.li32, 3, wput x 31 0 imm.toNat), (.addi32, 0, x + sx), (.logic32, 0, x &&& sx), (.logic32, 1, x ||| sx), (.logic32, 2, x ^^^ sx)] →
        exec (.intImmOp core (.ri32 op rd fn3 imm)) s = .next (coreAfter core pc 3 (.next (setD t h rd v)))) ∧
      (rd < 16 →
        exec (.intImmOp core (.ri32 .lia32 rd 0 imm)) s = .next (coreAfter core pc 3 (.next (setA t h rd imm.toNat))) ∧
        exec (.intImmOp core (.ri32 .lia32 rd 1 imm)) s =
          .next (coreAfter core pc 3 (.next (setA t h rd (addA (getA t h rd) imm.toInt)))))) ∧
    (Runs s core 4 h pc t → ∀ (rd : Fin 32) (imm : BitVec 48),
      exec (.intImmOp core (.imm48 false rd 0 imm)) s = .next (coreAfter core pc 4 (.next (setD t h rd (imm.signExtend 64)))) ∧
      exec (.intImmOp core (.imm48 false rd 1 imm)) s = .next (coreAfter core pc 4 (.next (setD t h rd (w64 imm.toNat)))) ∧
      (rd < 16 → exec (.intImmOp core (.imm48 true rd 0 imm)) s = .next (coreAfter core pc 4 (.next (setA t h rd imm.toNat))))) ∧
    (Runs s core 1 h pc t → ∀ (rd rs : Fin 32) x y i, x = getD t h rd → y = getD t h rs → i = (BitVec.ofNat 5 rs).signExtend 64 →
      (∀ (op : Fin 15) v, (op, v) ∈ [(1, y), (2, x + y), (3, x - y), (4, x &&& y), (5, x ||| y), (6, x ^^^ y), (7, x + i), (8, x <<< (rs : Nat)),
          (9, x >>> (rs : Nat)), (10, x.sshiftRight rs), (11, i)] →
        exec (.compactInstruction core (.c16 op) rd rs) s = .next (coreAfter core pc 1 (.next (setD t h rd v)))) ∧
      (rd < 16 → exec (.compactInstruction core (.c16 12) rd rs) s = .next (coreAfter core pc 1 (.next (setA t h rd y.toNat)))) ∧
      (rs < 16 → exec (.compactInstruction core (.c16 13) rd rs) s =
        .next (coreAfter core pc 1 (.next (setD t h rd (w64 (getA t h rs)))))) ∧
      (rd < 16 → exec (.compactInstruction core (.c16 14) rd rs) s =
        .next (coreAfter core pc 1 (.next (setA t h rd (getA t h rd + y.toNat))))) ∧
      exec (.compactInstruction core (.c16 0) rd rs) s = .next (coreAfter core pc 1 (.trap t tIllegal 0 0))) ∧
    (∀ e rd rs, assigned e = false → Runs s core (encParcels e) h pc t →
      exec (.compactInstruction core (.other e) rd rs) s = .next (coreAfter core pc (encParcels e) (.trap t tIllegal 0 0)))
/-- Carry chains, widening products and division (R232, R233, R234, R235). `addc` writes the 65-bit sum of its two words and of
bit 64 of the W source, so the carry out stands at bit 64; `mulw` writes the exact 128-bit product, or adds it to the W source
mod 2^128. A division writes the quotient low and the remainder high; a zero divisor traps with DZ where that trap is
enabled, and otherwise writes quotient 0 low and the dividend high and raises the DZ flag. -/
def Obligations.WideArithmeticCompletes : Prop :=
  ∀ (s t : State) (core : CoreId) (h : Hart) (pc : Nat) (wd ws : Fin 4) (rs1 rs2 : Fin 32) (x y : Word), Runs s core 2 h pc t →
    x = getD t h rs1 → y = getD t h rs2 →
    exec (.addcSubc core wd ws rs1 rs2 0) s = .next (coreAfter core pc 2 (.next (setW t h wd
      (BitVec.ofNat 128 (x.toNat + y.toNat + b2n (bitOf (getW t h ws).toNat 64)))))) ∧
    exec (.addcSubc core wd ws rs1 rs2 1) s = .next (coreAfter core pc 2 (.next (setW t h wd
      (BitVec.ofNat 128 ((2 ^ 65 + x.toNat - y.toNat - b2n (bitOf (getW t h ws).toNat 64)) % 2 ^ 65))))) ∧
    exec (.mulw core wd 0 rs1 rs2 0x10) s =
      .next (coreAfter core pc 2 (.next (setW t h wd (x.setWidth 128 * y.setWidth 128)))) ∧
    exec (.mulw core wd 0 rs1 rs2 0x11) s =
      .next (coreAfter core pc 2 (.next (setW t h wd (x.signExtend 128 * y.signExtend 128)))) ∧
    exec (.mulw core wd 0 rs1 rs2 0x12) s =
      .next (coreAfter core pc 2 (.next (setW t h wd (x.signExtend 128 * y.setWidth 128)))) ∧
    exec (.mulw core wd ws rs1 rs2 0x14) s =
      .next (coreAfter core pc 2 (.next (setW t h wd (getW t h ws + x.setWidth 128 * y.setWidth 128)))) ∧
    exec (.mulw core wd ws rs1 rs2 0x15) s =
      .next (coreAfter core pc 2 (.next (setW t h wd (getW t h ws + x.signExtend 128 * y.signExtend 128)))) ∧
    exec (.mulw core wd ws rs1 rs2 0x16) s =
      .next (coreAfter core pc 2 (.next (setW t h wd (getW t h ws + x.signExtend 128 * y.setWidth 128)))) ∧
    (y ≠ 0 → exec (.divsDivu core wd 0 rs1 rs2 0x21) s =
      .next (coreAfter core pc 2 (.next (setW t h wd (mkWide (x % y) (x / y)))))) ∧
    (y ≠ 0 → exec (.divsDivu core wd 0 rs1 rs2 0x20) s = .next (coreAfter core pc 2 (.next (setW t h wd
      (mkWide (BitVec.ofInt 64 (x.toInt.tmod y.toInt)) (BitVec.ofInt 64 (x.toInt.tdiv y.toInt))))))) ∧
    (∀ fn : BitVec 10, fn = 0x20 ∨ fn = 0x21 → y = 0 →
      (bitOf (trapen t h) 5 = true → exec (.divsDivu core wd 0 rs1 rs2 fn) s = .next (coreAfter core pc 2 (.trap t tDz 0 0))) ∧
      (bitOf (trapen t h) 5 = false → exec (.divsDivu core wd 0 rs1 rs2 fn) s =
        .next (coreAfter core pc 2 (.next (raiseFlags (setW t h wd (mkWide x 0)) h fDZ))))) ∧
    (ws ≠ 0 → exec (.divsDivu core wd ws rs1 rs2 0x21) s = .next (coreAfter core pc 2 (.trap t tIllegal 0 0)))
/-- Packed decimal and the decimal sequencer (R244, R245, R246, R247, R248, R250, R264, R449, R450, R529). A supervisor core computes `padd`, `psub` and
`pchk`, narrow and wide, itself; an invalid operand is the packed-decimal data exception. A codelet's request waits at its spar's sequencer and its PE
stalls, and so does the PE that checks it. The sequencer accepts one waiting request when it is idle, and ends it with the
same result or exception that a supervisor core computes, whatever image is loaded (R247, R450; log entry 67): the result is written and the PE goes on, that
of a checker's request being its leader's. What would be a micro-trap in the loaded microcode is a transient error of the requesting PE, recorded with the micro
address. -/
def Obligations.DecimalCompletes : Prop :=
  ∀ (s t : State) (core : CoreId) (h : Hart) (pc : Nat),
    (∀ (rd rs1 rs2 : Fin 32) (wd ws : Fin 4) a b w, Runs s core 2 h pc t → a = (getD t h rs1).setWidth 128 →
      b = (getD t h rs2).setWidth 128 → w = getW t h ws →
      ∀ c op wide d x y, (c, op, wide, d, x, y) ∈ ([(.padd core (.d rd rs1 rs2), 0, false, rd, a, b), (.psub core (.d rd rs1 rs2), 1, false, rd, a, b),
          (.padd core (.w wd ws rs1 0), 0, true, wd, w, a), (.psub core (.w wd ws rs1 0), 1, true, wd, w, a),
          (.pchk core false rd rs1 0, 2, false, rd, a, 0)] : List (Instr × Nat × Bool × Nat × Wide × Wide)) ∨
          (rs1 < 4 ∧ (c, op, wide, d, x, y) = ((.pchk core true rd rs1 0, 2, true, rd, getW t h rs1, 0) : Instr × Nat × Bool × Nat × Wide × Wide)) →
        (∀ p, core = .sup p →
          (∀ r, decResult op wide x y = some r → exec c s = .next (coreAfter core pc 2 (.next (decWrite t h op wide d r)))) ∧
          (decResult op wide x y = none → exec c s = .next (coreAfter core pc 2 (.trap t tDecimal 0 0)))) ∧
        (∀ p k (ask : Nat → State → State), core = .pe p → k = peOf p →
          (∀ q u, ask q u = modSpar (modPe u q fun x => { x with decimal := true }) (peSpar q) fun z => { z with decWait := z.decWait ++
            [⟨peNo q, op, wide, d, x, y, true⟩] }) →
          ((∀ q, (getPe t k).pair ≠ some (true, q)) → exec c s = .next (mirror (ask k t) k)) ∧
          (∀ q, (getPe t k).pair = some (true, q) → exec c s = .next (mirror (ask (peKey (peSpar k) q) (ask k t)) k)))) ∧
    (∀ (die : DieNo) (spar : SparNo) g j, g = gspar die spar → (die : Nat) < nDies s.part → sparLive s g = true →
      (∀ n, (getSpar s g).decRun = none → decNext (getSpar s g) = some (j, n) → exec (.decimalRequestAccept die spar) s =
        .next (modSpar s g fun x => { x with decRun := some j, decRr := j.pe, decWait := dropAt x.decWait n })) ∧
      (∀ k free u, (getSpar s g).decRun = some j → k = peKey g j.pe → free = modSpar s g (fun x => { x with decRun := none }) →
        u = modPe free k (fun p => { p with decimal := false }) →
        ((∀ upc, seqEnd s g j ≠ .fault upc) →
          (j.live = false → exec (.decimalResult die spar) s = .next free) ∧
          (j.live = true →
            (∀ r, decResult j.op j.wide j.a j.b = some r →
              (leader u k ≠ k → exec (.decimalResult die spar) s = .next u) ∧
              (leader u k = k → exec (.decimalResult die spar) s =
                .next (mirror (setPc (decWrite u (.pe k) j.op j.wide j.rd r) (.pe k) (hartPc free (.pe k) + 2)) k))) ∧
            (decResult j.op j.wide j.a j.b = none → leader u k = k → exec (.decimalResult die spar) s =
              .next (peTrap u k 0 tDecimal 0 0 (hartPc free (.pe k)))))) ∧
        (∀ upc, seqEnd s g j = .fault upc →
          (j.live = false → exec (.decimalResult die spar) s = .next (report free die (bClu spar) 0xFF 0x0112 cDeferred 0x00 0 0 (w64 upc))) ∧
          (j.live = true → exec (.decimalResult die spar) s =
            .next (transient (report u die (bClu spar) 0xFF 0x0112 cDeferred 0x00 0 0 (w64 upc)) k 0x0112 0 (w64 upc) false)))))
/-- Floating point (R228, R229, R236, R238, R239, R240, R241, R242, R265, R266, R267). Every operation of the table of `FN`[5:0] runs: those that
round do so in the mode in force, `fsqrt`, `fround`, `fneg` and `fabs` need `RS2` 0, and those that do not round need `RM` 0. The instruction writes its
result and raises the exceptions that it found as sticky flags; where one of them is enabled to trap, it traps with FP and those exceptions as detail, and
writes nothing. Conversions do the same. `fcat` writes the category and raises nothing. A reserved rounding mode, a function number that the table leaves
unassigned, and an `RS2` or `RM` that must be 0 and is not, are invalid encodings. -/
def Obligations.FloatingPointCompletes : Prop :=
  ∀ (s t : State) (core : CoreId) (h : Hart) (pc : Nat) (dbl : Bool) (rd rs1 rs2 : Fin 32) (fn : BitVec 9) (f : Fmt) (rm op x y z on : Nat),
    Runs s core 2 h pc t → f = fpFmt dbl → rm = fld fn.toNat 8 6 → op = fld fn.toNat 5 0 → x = fpArg dbl (getD t h rs1) →
    y = fpArg dbl (getD t h rs2) → z = fpArg dbl (getD t h rd) → on = trapen t h % 32 →
    (∀ m, roundMode t h rm = some m →
      (∀ r : Nat × Nat, (op, r) ∈ [(0x00, fAdd f m false x y), (0x01, fAdd f m true x y), (0x02, fMul f m x y), (0x03, fDiv f m x y),
            (0x05, fMadd f m x y z)] ∨ (rs2 = 0 ∧ (op, r) ∈ [(0x04, fSqrt f m x), (0x0C, fRound f m x)]) ∨
          (rm = 0 ∧ ((op, r) ∈ [(0x08, fMinMax f false false x y), (0x09, fMinMax f true false x y), (0x0A, fMinMax f false true x y),
            (0x0B, fMinMax f true true x y), (0x0F, (x % signBit f + b2n (fSign f y) * signBit f, 0)), (0x11, fCmp f 0 x y),
            (0x12, fCmp f 1 x y), (0x13, fCmp f 2 x y), (0x14, fCmp f 3 x y)] ∨
            (rs2 = 0 ∧ (op, r) ∈ [(0x0D, (x ^^^ signBit f, 0)), (0x0E, (x % signBit f, 0))]))) →
        (r.2 &&& on = 0 → exec (.fpOperation core dbl rd rs1 rs2 fn) s =
          .next (coreAfter core pc 2 (.next (setD (raiseFlags t h r.2) h rd (w64 r.1))))) ∧
        (r.2 &&& on ≠ 0 → exec (.fpOperation core dbl rd rs1 rs2 fn) s = .next (coreAfter core pc 2 (.trap t tFp (r.2 &&& on) 0)))) ∧
      (0x15 ≤ op ∨ op = 0x06 ∨ op = 0x07 ∨ op = 0x10 ∨ (rs2 ≠ 0 ∧ (op = 0x04 ∨ op = 0x0C ∨ op = 0x0D ∨ op = 0x0E)) ∨
          (rm ≠ 0 ∧ 0x08 ≤ op ∧ op ≠ 0x0C) →
        exec (.fpOperation core dbl rd rs1 rs2 fn) s = .next (coreAfter core pc 2 (.trap t tIllegal 0 0))) ∧
      (∀ r, op ≠ 0 ∨ rm = 0 → convert op m (getD t h rs1) = some r →
        (r.2 &&& on = 0 → exec (.fcvt core rd rs1 0 fn) s =
          .next (coreAfter core pc 2 (.next (setD (raiseFlags t h r.2) h rd (w64 r.1))))) ∧
        (r.2 &&& on ≠ 0 → exec (.fcvt core rd rs1 0 fn) s = .next (coreAfter core pc 2 (.trap t tFp (r.2 &&& on) 0)))) ∧
      (op ≤ 9 → ∃ r, convert op m (getD t h rs1) = some r) ∧
      (rs2 ≠ 0 ∨ (op = 0 ∧ rm ≠ 0) ∨ 0x0A ≤ op →
        exec (.fcvt core rd rs1 rs2 fn) s = .next (coreAfter core pc 2 (.trap t tIllegal 0 0)))) ∧
    (roundMode t h rm = none →
      exec (.fpOperation core dbl rd rs1 rs2 fn) s = .next (coreAfter core pc 2 (.trap t tIllegal 0 0)) ∧
      exec (.fcvt core rd rs1 rs2 fn) s = .next (coreAfter core pc 2 (.trap t tIllegal 0 0))) ∧
    exec (.fcat core dbl rd rs1 0 0x10) s = .next (coreAfter core pc 2 (.next (setD t h rd (w64 (fClass f x))))) ∧
    (rs2 ≠ 0 ∨ fn ≠ 0x10 → exec (.fcat core dbl rd rs1 rs2 fn) s = .next (coreAfter core pc 2 (.trap t tIllegal 0 0)))
/-- Branches and jumps (R202, R206, R216, R217, R218, R219, R229, R356). A branch whose condition holds goes to its own address plus the offset mod
2^51, and one whose condition does not hold to the next instruction, in the short and the long form; a floating-point condition raises its flags, or traps
with FP where an exception that it found is enabled to trap, and has no long form. `jmp` goes to its target; `call` and `jr` write the address of the next
instruction to their link register. A supervisor core's predictor sees the outcome; a PE has none. -/
def Obligations.BranchesAndJumpsComplete : Prop :=
  ∀ (s t : State) (core : CoreId) (h : Hart) (pc : Nat) (goes : Nat → Int → State → Bool → State),
    (∀ n off u taken target, target = ((Int.ofNat (hartPc u h) + off) % 2 ^ 51).toNat →
      (taken = true → goes n off u taken = coreAfter core pc n (.jump (predict u h (hartPc u h) target 0 true) target)) ∧
      (taken = false → goes n off u taken = coreAfter core pc n (.next (predict u h (hartPc u h) target 0 false)))) →
    (∀ (rs1 rs2 : Fin 32) x y op taken, x = getD t h rs1 → y = getD t h rs2 →
      (op, taken) ∈ [(BrOp.eq, x == y), (.ne, x != y), (.lt, x.slt y), (.ge, !x.slt y), (.ltu, x.ult y), (.geu, !x.ult y)] ∨
        (rs1 < 16 ∧ rs2 < 16 ∧ (op, taken) = (BrOp.aeq, getA t h rs1 == getA t h rs2)) →
      (∀ off : BitVec 14, Runs s core 2 h pc t → exec (.condBranch core (.br op rs1 rs2 off)) s = .next (goes 2 off.toInt t taken)) ∧
      (∀ off : BitVec 30, Runs s core 3 h pc t → exec (.condBranch core (.brl op rs1 rs2 off)) s = .next (goes 3 off.toInt t taken))) ∧
    (∀ (rs1 rs2 : Fin 32) (dbl : Bool) op k r, (op, k) ∈ [(BrOp.flt dbl, 1), (.feq dbl, 0), (.funo dbl, 3)] →
      r = fCmp (fpFmt dbl) k (fpArg dbl (getD t h rs1)) (fpArg dbl (getD t h rs2)) →
      (∀ off : BitVec 14, Runs s core 2 h pc t →
        (r.2 &&& (trapen t h % 32) = 0 → exec (.condBranch core (.br op rs1 rs2 off)) s =
          .next (goes 2 off.toInt (raiseFlags t h r.2) (r.1 == 1))) ∧
        (r.2 &&& (trapen t h % 32) ≠ 0 → exec (.condBranch core (.br op rs1 rs2 off)) s =
          .next (coreAfter core pc 2 (.trap t tFp (r.2 &&& (trapen t h % 32)) 0)))) ∧
      (∀ off : BitVec 30, Runs s core 3 h pc t →
        exec (.condBranch core (.brl op rs1 rs2 off)) s = .next (coreAfter core pc 3 (.trap t tIllegal 0 0)))) ∧
    (∀ (rs : Fin 32) (imm : BitVec 8) (off : BitVec 11), Runs s core 2 h pc t →
      exec (.condBranch core (.bi rs imm off)) s = .next (goes 2 off.toInt t (getD t h rs == imm.signExtend 64))) ∧
    (Runs s core 4 h pc t → ∀ target : BitVec 51,
      exec (.jmp core 0 target) s =
        .next (coreAfter core pc 4 (.jump (predict t h (hartPc t h) target.toNat 1 true) target.toNat)) ∧
      ∀ (rl : Fin 32) u, u = setD t h rl (w64 ((hartPc t h + 4) % 2 ^ 51)) → exec (.call core rl target) s =
        .next (coreAfter core pc 4 (.jump (predict u h (hartPc u h) target.toNat 2 true) target.toNat))) ∧
    (Runs s core 2 h pc t → ∀ (rd rs1 : Fin 32) u target, target = wfld (getD t h rs1) 50 0 →
      u = (if (rd : Nat) = 0 then t else setD t h rd (w64 ((hartPc t h + 2) % 2 ^ 51))) →
      exec (.jr core rd rs1 0 0) s = .next (coreAfter core pc 2 (.jump (predict u h (hartPc u h) target 3 true) target)))
/-- Loads and stores (R197, R209, R210, R268, R61, R64, R280, R298, R310, R311, R344). A load writes the word or the pair at its effective address, and the
new address of its addressing mode to its A register. A PE's store, to memory or to its spar's scratch, is held by its scope until the commit point, within the
limit of 16 lines, the first store to a line of memory asking for it; a supervisor core's store is performed in its L2, which must own the line, and one to
device space enters the posted queue of a root port, whose answer may be a bus error. An access that fails traps with its cause and address, an
odd address of a pair and a reserved addressing mode are invalid operands, and an access whose home cannot serve it yet leaves the instruction to be
issued again. That it is issued again, and that a store is seen when it retires, are the model's choices (log 28), and whether a root port's answer is a
bus error is a free bit (log 18). -/
def Obligations.LoadsAndStoresComplete : Prop :=
  ∀ (s t : State) (core : CoreId) (h : Hart) (pc n : Nat) (op : MemOp), Runs s core n h pc t → n = dispLen op.disp →
    (effective t h op false = none → ∀ c ∈ [Instr.ld core op, .st core op, .ldw core op, .stw core op],
      exec c s = .next (coreAfter core pc n (.trap t tIllegal 0 0))) ∧
    (4 ≤ op.rt → ∀ c ∈ [Instr.ldw core op, .stw core op], exec c s = .next (coreAfter core pc n (.trap t tIllegal 0 0))) ∧
    (∀ ea na, effective t h op false = some (ea, na) →
    (∀ v u, loadWords t h ea 1 = .ok [v] u → exec (.ld core op) s = .next (coreAfter core pc n (.next (setA (setD u h op.rt v) h op.ab na)))) ∧
    (∀ e a u, loadWords t h ea 1 = .bad e a u → exec (.ld core op) s = .next (coreAfter core pc n (.trap u e 0 a))) ∧
    (loadWords t h ea 1 = .wait → exec (.ld core op) s = .next (coreAfter core pc n (.done t))) ∧
    (op.rt < 4 → ea % 2 = 0 →
      (∀ lo hi u, loadWords t h ea 2 = .ok [lo, hi] u →
        exec (.ldw core op) s = .next (coreAfter core pc n (.next (setA (setW u h op.rt (mkWide hi lo)) h op.ab na)))) ∧
      (∀ e a u, loadWords t h ea 2 = .bad e a u → exec (.ldw core op) s = .next (coreAfter core pc n (.trap u e 0 a))) ∧
      (loadWords t h ea 2 = .wait → exec (.ldw core op) s = .next (coreAfter core pc n (.done t)))) ∧
    (op.rt < 4 → ea % 2 = 1 → exec (.ldw core op) s = .next (coreAfter core pc n (.trap t tIllegal 0 0)) ∧
      exec (.stw core op) s = .next (coreAfter core pc n (.trap t tIllegal 0 0))) ∧
    (∀ c vs u, (c, vs) = (Instr.st core op, [getD t h op.rt]) ∨
        (op.rt < 4 ∧ ea % 2 = 0 ∧ (c, vs) = (Instr.stw core op, [loHalf (getW t h op.rt), hiHalf (getW t h op.rt)])) →
      u = xlateNote t (hartCtx t h) ea →
      (∀ k, h = .pe k →
        (isScratch ea = true → ∀ key, key = scratchKey + (ea - scratchBase) →
          (scratchOk t k ea = false → exec c s = .next (coreAfter core pc n (.trap t tProt 0 ea))) ∧
          (scratchOk t k ea = true → (scopeLines (getPe t k)).length < 16 ∨ (scopeLines (getPe t k)).contains (key / 16) = true →
            exec c s = .next (coreAfter core pc n (.next (setA (holdWords t k key vs) h op.ab na))))) ∧
        (isScratch ea = false → ∀ pa, translate t (hartCtx t h) .write ea = .ok pa →
          (scopeLines (getPe u k)).length < 16 ∨ (scopeLines (getPe u k)).contains (pa / 16) = true →
          exec c s = .next (coreAfter core pc n (.next (setA (holdWords (askLine u k pa) k pa vs) h op.ab na))))) ∧
      (∀ e, translate t (hartCtx t h) .write ea = .error e → (∀ k, h = .pe k → isScratch ea = false) →
        exec c s = .next (coreAfter core pc n (.trap u e 0 ea))) ∧
      (∀ q pa, h = .sup q → translate t (hartCtx t h) .write ea = .ok pa →
        ((∀ d o, region u pa ≠ .device d o) →
          (∀ r w, lineForWrite u (256 + q) (pa / 16) = some r → w = (if backed u pa then fillSupL1d r.2 q (pa / 16) else r.2) →
            exec c s = .next (coreAfter core pc n (.next (setA (coreStores w q pa vs) h op.ab na)))) ∧
          (lineForWrite u (256 + q) (pa / 16) = none → exec c s = .next (coreAfter core pc n (.done u)))) ∧
        (∀ d o f, region u pa = .device d o → f = takeFree { u with given := u.given ++ [.devWrite d o vs] } →
          (wbit f.1 0 = true → exec c s = .next (coreAfter core pc n (.trap f.2 tBuserr 0 ea))) ∧
          (wbit f.1 0 = false → exec c s = .next (coreAfter core pc n (.next (setA f.2 h op.ab na))))))))
/-- Reservations and atomic operations (R62, R269, R270, R281, R285, R290, R292, R310, R329, R330, R331). An atomic instruction of a PE first makes a
commit point, which waits for the lines of its scope. `lr` takes its line EXCLUSIVE in its turn, reads the word and leaves the core with a reservation of
the line; `sc` writes its word and 0 where the core still holds that line, and else writes 1 and no memory, and the reservation is gone. `amo` writes its
result to memory, on the home's copy for a far one and in the core's own L2 for a near one, and the old word to its register. An address that does not
translate, or lies in scratch, and a word that cannot be read or written trap; a form that is none is ILLEGAL. An instruction whose home
cannot serve it yet is issued again, an `lr` in the order of arrival. A reservation times out, and an `lr` hold expires with the reservation kept. The model's choices are
the instruction issued again (log 28), the waits of a commit point (log 29), and the order of waiting `lr` with the reach of the hold (log 33). -/
def Obligations.ReservationsAndAtomicsComplete : Prop :=
  ∀ (s t : State) (core : CoreId) (h : Hart) (pc n : Nat),
    (∀ (op : MemOp) q t' u ea na, Runs s core n h pc t → n = dispLen op.disp → q = hartPc t h →
      (effective t h op true = none → exec (.lr core op) s = .next (coreAfter core pc n (illegal t)) ∧
        exec (.sc core op) s = .next (coreAfter core pc n (illegal t))) ∧
      (effective t h op true = some (ea, na) →
        (atomicPoint t h = none → exec (.lr core op) s = .next (coreAfter core pc n (.done t)) ∧
          exec (.sc core op) s = .next (coreAfter core pc n (.done t))) ∧
        (atomicPoint t h = some t' → u = hartNote t' h ea →
          (∀ e, atomicAddr u h .read ea = .error e → exec (.lr core op) s = .next (coreAfter core pc n (.trap u e 0 ea))) ∧
          (∀ e, atomicAddr u h .readWrite ea = .error e → exec (.sc core op) s = .next (coreAfter core pc n (.trap u e 0 ea))) ∧
          (∀ pa, atomicAddr u h .read ea = .ok pa →
            (lrTurn u (agentOf h) (pa / 16) = false ∨ ownLine u h pa = none →
              exec (.lr core op) s = .next (coreAfter core pc n (.done (lrWaits t (agentOf h) (pa / 16))))) ∧
            (∀ r, lrTurn u (agentOf h) (pa / 16) = true → ownLine u h pa = some r →
              (∀ v w x, atomicWord r.2 h pa ea = .ok v w → x = setD (dropResv w (agentOf h)) h op.rt v → exec (.lr core op) s =
                .next (coreAfter core pc n (atomicDone { x with resvs := x.resvs ++ [⟨agentOf h, lineOf pa, true⟩] } h q n))) ∧
              (∀ e a w, atomicWord r.2 h pa ea = .bad e a w →
                exec (.lr core op) s = .next (coreAfter core pc n (.trap w e 0 a))))) ∧
          (∀ pa, atomicAddr u h .readWrite ea = .ok pa →
            ((∀ r, resvOf u h = some r → r.line ≠ lineOf pa) → exec (.sc core op) s =
              .next (coreAfter core pc n (atomicDone (setD (dropResv u (agentOf h)) h op.rt 1) h q n))) ∧
            (∀ r, resvOf u h = some r → r.line = lineOf pa →
              (ownLine u h pa = none → exec (.sc core op) s = .next (coreAfter core pc n (.done t))) ∧
              (∀ r', ownLine u h pa = some r' →
                (∀ w, atomicStore (dropResv r'.2 (agentOf h)) h pa ea (getD u h op.rt) = .ok () w → exec (.sc core op) s =
                  .next (coreAfter core pc n (atomicDone (setD w h op.rt 0) h q n))) ∧
                (∀ e a w, atomicStore (dropResv r'.2 (agentOf h)) h pa ea (getD u h op.rt) = .bad e a w →
                  exec (.sc core op) s = .next (coreAfter core pc n (.trap w e 0 a))))))))) ∧
    (∀ (rd rs1 rs2 : Fin 32) (fn : BitVec 9) ea t' u, Runs s core 2 h pc t → ea = getA t h rs1 →
      (fld fn.toNat 8 7 = 3 ∨ fld fn.toNat 6 4 ≠ 0 ∨ 9 < fld fn.toNat 3 0 ∨ 16 ≤ rs1.val →
        exec (.amo core rd rs1 rs2 fn) s = .next (coreAfter core pc 2 (illegal t))) ∧
      (fld fn.toNat 8 7 ≠ 3 → fld fn.toNat 6 4 = 0 → fld fn.toNat 3 0 ≤ 9 → rs1 < 16 →
        (atomicPoint t h = none → exec (.amo core rd rs1 rs2 fn) s = .next (coreAfter core pc 2 (.done t))) ∧
        (atomicPoint t h = some t' → u = hartNote t' h ea →
          (∀ e, atomicAddr u h .readWrite ea = .error e → exec (.amo core rd rs1 rs2 fn) s = .next (coreAfter core pc 2 (.trap u e 0 ea))) ∧
          (∀ pa far, atomicAddr u h .readWrite ea = .ok pa → far = amoFar u h (fld fn.toNat 8 7) pa →
            (amoLine u h far pa = none → exec (.amo core rd rs1 rs2 fn) s = .next (coreAfter core pc 2 (.done t))) ∧
            (∀ r, amoLine u h far pa = some r →
              (far = true → backed r.2 pa = true →
                (isPoisoned r.2 pa = true → exec (.amo core rd rs1 rs2 fn) s = .next (coreAfter core pc 2 (.trap r.2 tPoison 0 ea))) ∧
                (∀ v, isPoisoned r.2 pa = false →
                  amoResult (fld fn.toNat 3 0) (peek r.2 pa) (getD u h rs2) (getD u h rd) = some v → exec (.amo core rd rs1 rs2 fn) s =
                  .next (coreAfter core pc 2 (atomicDone (setD (contention (poke r.2 pa v) h pa r.1) h rd (peek r.2 pa)) h (hartPc t h) 2)))) ∧
              (far = false ∨ backed r.2 pa = false →
                (∀ e a w, atomicWord r.2 h pa ea = .bad e a w →
                  exec (.amo core rd rs1 rs2 fn) s = .next (coreAfter core pc 2 (.trap w e 0 a))) ∧
                (∀ old v w, atomicWord r.2 h pa ea = .ok old w →
                  amoResult (fld fn.toNat 3 0) old (getD u h rs2) (getD u h rd) = some v →
                  (∀ x, atomicStore w h pa ea v = .ok () x → exec (.amo core rd rs1 rs2 fn) s =
                    .next (coreAfter core pc 2 (atomicDone (setD (contention x h pa r.1) h rd old) h (hartPc t h) 2))) ∧
                  (∀ e a x, atomicStore w h pa ea v = .bad e a x →
                    exec (.amo core rd rs1 rs2 fn) s = .next (coreAfter core pc 2 (.trap x e 0 a)))))))))) ∧
    (h = hartOf core → coreIssues s core = true →
      exec (.reservationTimeout core) s = .next (dropResv s (agentOf h)) ∧
      exec (.lrHoldExpire core) s =
        .next { s with resvs := s.resvs.map (fun r => if r.agent = agentOf h then { r with holding := false } else r) })
/-- Outputs of a codelet and of a supervisor core (R39, R40, R61, R64, R65, R71, R142, R143, R190, R271, R272, R274, R310, R431). A token instruction holds a flit for its scope: the tag's
partition is the issuing one, `send` raises a `PRIO` of 0 to 1 and `sendp` sets it to 0, and a signal carries 0. `fetch` holds a
request whose words all translate, `xissue` an issue flit for the engine that its spar maps to, and `wqpost` a post to the item
set's member, with 0 in its result register. An output is held within the 16 of a scope, and past them the partition's policy traps or makes a commit point
first. A word that does not translate traps; a reserved field that is not 0, a base register above 15, a port above 7, an item set that the partition does not have, and a token
instruction or `fetch` of a supervisor core are ILLEGAL. A supervisor
core's `xissue` enters the mesh at once while fewer than 16 of its issues wait, and its `wqpost` writes the slot, with 1 in its result register on a full
ring or where a poisoned ring word loses the post. That the round robin of `wqpost` moves when the instruction executes, on a full ring too, is the model's choice (log 123), and so is
`fetch`'s ILLEGAL for its port before its words are translated (log 141). -/
def Obligations.CodeletOutputsAreHeld : Prop :=
  (∀ (x : State) (k : Nat) (o : Output),
    (scopeOuts (getPe x k) + outPlaces o ≤ 16 → holdOut x k o = .next (modPe x k fun p => { p with held := p.held ++ [o] })) ∧
    (16 < scopeOuts (getPe x k) + outPlaces o → wbit (getPe x k).cfg 62 = false → holdOut x k o = .trap x tScopeOvf 0 0) ∧
    (16 < scopeOuts (getPe x k) + outPlaces o → wbit (getPe x k).cfg 62 = true →
      (ownHeld x k = none → holdOut x k o = .done x) ∧
      (∀ y z, ownHeld x k = some y → z = commitAwait y k → holdOut x k o =
        if (getPe z k).opWait then .done z else .next (modPe z k fun p => { p with held := p.held ++ [o] })))) ∧
  (∀ (s t : State) (core : CoreId) (h : Hart) (pc : Nat) (rd rs1 rs2 : Fin 32), Runs s core 2 h pc t →
    (rd ≠ 0 ∨ 16 ≤ rs1.val → exec (.xissue core rd rs1 rs2) s = .next (coreAfter core pc 2 (illegal t))) ∧
    (∀ e u, rs1 < 16 → u = hartNote t h (getA t h rs1) → atomicAddr t h .read (getA t h rs1) = .error e →
      exec (.xissue core 0 rs1 rs2) s = .next (coreAfter core pc 2 (.trap u e 0 (getA t h rs1)))) ∧
    (∀ (wd ws : Fin 4) (fn : BitVec 10), rs2 ≠ 0 ∨ fld fn.toNat 9 8 ≠ 0 ∨ ptValid t (hartUnit h) .pst (hartPart t h) = false ∨
        pstIv t (hartUnit h) (hartPart t h) = false →
      exec (.wqpost core wd ws rs1 rs2 fn) s = .next (coreAfter core pc 2 (illegal t)))) ∧
  (∀ (s t : State) (p : SupId) (c : Nat) (h : Hart) (pc : Nat) (rd rs1 rs2 : Fin 32), Runs s (.sup p) 2 h pc t → c = supOf p →
    (exec (.send (.sup p) rd rs1 rs2) s = .next (coreAfter (.sup p) pc 2 (illegal t)) ∧
      exec (.sendSig (.sup p) rd rs1 rs2) s = .next (coreAfter (.sup p) pc 2 (illegal t)) ∧
      exec (.sendp (.sup p) rd rs1 rs2) s = .next (coreAfter (.sup p) pc 2 (illegal t)) ∧
      exec (.sendpSig (.sup p) rd rs1 rs2) s = .next (coreAfter (.sup p) pc 2 (illegal t)) ∧
      ∀ n, exec (.fetch (.sup p) rd rs1 rs2 n) s = .next (coreAfter (.sup p) pc 2 (illegal t))) ∧
    (∀ u pa e f, rs1 < 16 → u = hartNote t h (getA t h rs1) → atomicAddr t h .read (getA t h rs1) = .ok pa →
      e = issEngine t (c / 8) (32 + c % 8) →
      f = issueFlit (c / 8) e (ownTag (hartPart t h) (getD t h rs2)) true (levelOf t c) (hartAsid t h) pa →
      ((t.supIssues.filter fun x => x.2 == c).length < 16 → exec (.xissue (.sup p) 0 rs1 rs2) s =
        .next (coreAfter (.sup p) pc 2 (.next (inject { u with supIssues := u.supIssues ++ [(16 * (c / 8) + e, c)] } (c / 8) (34 + e / 4)
          .unit f)))) ∧
      (16 ≤ (t.supIssues.filter fun x => x.2 == c).length →
        exec (.xissue (.sup p) 0 rs1 rs2) s = .next (coreAfter (.sup p) pc 2 (.done t)))) ∧
    (∀ (wd ws : Fin 4) fn a b m g q v r, fld (fn : BitVec 10).toNat 9 8 = 0 → v = setPostRr t h m.2 → q = hartPart t h → ptValid t (c / 8) .pst q = true →
      pstIv t (c / 8) q = true → a = getW t h ws → b = getW t h wd →
      m = postMember t (c / 8) q (fld fn.toNat 7 0) (postRr t h) (hiHalf a) → g = pstItemBase t (c / 8) q + m.1 →
      r = tryPost v (c / 8) q (hartAsid v h) g (loHalf a) (hiHalf a) (loHalf b) (hiHalf b) →
      exec (.wqpost (.sup p) wd ws rs1 0 fn) s =
        .next (coreAfter (.sup p) pc 2 (.next (setD r.2 h rs1 (if r.1 = .done then 0 else 1)))))) ∧
  (∀ (s t : State) (p : PeId) (k : Nat) (h : Hart) (pc : Nat) (i : Inst) (rd rs1 rs2 : Fin 32), Runs s (.pe p) 2 h pc t → k = peOf p →
    (getPe t k).inst = some i →
    (∀ tag f, tag = raisePrio (ownTag i.part (getD t h rs1)) → f = homeToken t (uSpar (peSpar k)) kValue tag (getD t h rs2) →
      exec (.send (.pe p) 0 rs1 rs2) s = .next (coreAfter (.pe p) pc 2 (holdOut t k (.flit f)))) ∧
    (∀ tag f, tag = raisePrio (ownTag i.part (getD t h rs1)) → f = homeToken t (uSpar (peSpar k)) kSignal tag 0 →
      exec (.sendSig (.pe p) 0 rs1 0) s = .next (coreAfter (.pe p) pc 2 (holdOut t k (.flit f)))) ∧
    (∀ tag f, tag = wput (ownTag i.part (getD t h rs1)) 1 0 0 → f = homeToken t (uSpar (peSpar k)) kValue tag (getD t h rs2) →
      exec (.sendp (.pe p) 0 rs1 rs2) s = .next (coreAfter (.pe p) pc 2 (holdOut t k (.flit f)))) ∧
    (∀ tag f, tag = wput (ownTag i.part (getD t h rs1)) 1 0 0 → f = homeToken t (uSpar (peSpar k)) kSignal tag 0 →
      exec (.sendpSig (.pe p) 0 rs1 0) s = .next (coreAfter (.pe p) pc 2 (holdOut t k (.flit f)))) ∧
    (rd ≠ 0 → exec (.send (.pe p) rd rs1 rs2) s = .next (coreAfter (.pe p) pc 2 (illegal t)) ∧
      exec (.sendp (.pe p) rd rs1 rs2) s = .next (coreAfter (.pe p) pc 2 (illegal t))) ∧
    (rd ≠ 0 ∨ rs2 ≠ 0 → exec (.sendSig (.pe p) rd rs1 rs2) s = .next (coreAfter (.pe p) pc 2 (illegal t)) ∧
      exec (.sendpSig (.pe p) rd rs1 rs2) s = .next (coreAfter (.pe p) pc 2 (illegal t))) ∧
    (∀ (n : Fin 8) tag, tag = raisePrio (ownTag i.part (getD t h rs2)) →
      (rd ≠ 0 ∨ 16 ≤ rs1.val ∨ 7 < tagPort tag + n →
        exec (.fetch (.pe p) rd rs1 rs2 n) s = .next (coreAfter (.pe p) pc 2 (illegal t))) ∧
      (∀ vas u, rs1 < 16 → tagPort tag + n ≤ 7 → vas = (List.range (n + 1)).map (fun j : Nat => addA (getA t h rs1) (Int.ofNat j)) →
        u = vas.foldl (fun s va => hartNote s h va) t →
        (∀ ws, fetchWords t h vas = .ok ws →
          exec (.fetch (.pe p) 0 rs1 rs2 n) s = .next (coreAfter (.pe p) pc 2 (holdOut u k (.fetch i.part ws tag)))) ∧
        (∀ e va, fetchWords t h vas = .error (e, va) →
          exec (.fetch (.pe p) 0 rs1 rs2 n) s = .next (coreAfter (.pe p) pc 2 (.trap u e 0 va))))) ∧
    (∀ u pa f, rs1 < 16 → u = hartNote t h (getA t h rs1) → atomicAddr t h .read (getA t h rs1) = .ok pa →
      f = issueFlit (peDie k) (issEngine t (peDie k) (peSpar k % 32)) (ownTag i.part (getD t h rs2)) false 0 i.asid pa →
      exec (.xissue (.pe p) 0 rs1 rs2) s = .next (coreAfter (.pe p) pc 2 (holdOut u k (.flit f)))) ∧
    (∀ (wd ws : Fin 4) fn a b m g n o, n = uSpar (peSpar k) → fld (fn : BitVec 10).toNat 9 8 = 0 → ptValid t n .pst i.part = true →
      pstIv t n i.part = true → a = getW t h ws → b = getW t h wd →
      m = postMember t n i.part (fld fn.toNat 7 0) (postRr t h) (hiHalf a) → g = pstItemBase t n i.part + m.1 →
      o = .post i.part i.asid g (loHalf a) (hiHalf a) (loHalf b) (hiHalf b) →
      (∀ u, holdOut t k o = .next u →
        exec (.wqpost (.pe p) wd ws rs1 0 fn) s = .next (coreAfter (.pe p) pc 2 (.next (setD (setPostRr u h m.2) h rs1 0)))) ∧
      ((∀ u, holdOut t k o ≠ .next u) →
        exec (.wqpost (.pe p) wd ws rs1 0 fn) s = .next (coreAfter (.pe p) pc 2 (holdOut t k o)))))
/-- Frames (R54, R55, R57, R173, R175, R271, R273, R306, R326, R677). `falloc` takes a handle and writes the frame's tag base, or writes 0 and counts where
there is none or a word of its descriptor is poisoned; a frame body that may not be written traps. Its gated form holds a request for the gate. `ffree` of a frame that the scope may free holds its free, with the
gate for the gated form, and of any other frame, and of one whose descriptor is poisoned, traps with FRAME. A gate that the partition does not have, a reserved field that is not 0, and any of them on a supervisor
core are ILLEGAL. That the gate is judged before FRAME is the model's choice (log 141). -/
def Obligations.FrameInstructionsComplete : Prop :=
  (∀ (s t : State) (p : SupId) (h : Hart) (pc : Nat) (rd rs1 rs2 : Fin 32), Runs s (.sup p) 2 h pc t →
    exec (.falloc (.sup p) rd rs1 rs2) s = .next (coreAfter (.sup p) pc 2 (illegal t)) ∧
    exec (.fallocG (.sup p) rd rs1 rs2) s = .next (coreAfter (.sup p) pc 2 (illegal t)) ∧
    exec (.ffree (.sup p) rd rs1 rs2) s = .next (coreAfter (.sup p) pc 2 (illegal t)) ∧
    exec (.ffreeG (.sup p) rd rs1 rs2) s = .next (coreAfter (.sup p) pc 2 (illegal t))) ∧
  ∀ (s t : State) (p : PeId) (k : Nat) (h : Hart) (pc : Nat) (i : Inst) (rd rs1 rs2 : Fin 32), Runs s (.pe p) 2 h pc t →
    k = peOf p → (getPe t k).inst = some i →
    (∀ n, n = allocNote t (uSpar (peSpar k)) i.part i.asid →
      (∀ f hw pa z, tryAlloc n (uSpar (peSpar k)) i.part i.asid = .got f hw pa →
        z = modPe (modHw n i.part fun _ => hw) k (fun x =>
          { x with taken := ⟨f, wfld (getD n h rs1) 48 0, i.asid, getD n h rs2, pa⟩ :: x.taken, sb := retake x.sb pa (getD n h rs2) }) →
        exec (.falloc (.pe p) rd rs1 rs2) s =
          .next (coreAfter (.pe p) pc 2 (.next (setD z h rd (tagBase z (peDie k) i.part f))))) ∧
      (tryAlloc n (uSpar (peSpar k)) i.part i.asid = .empty → exec (.falloc (.pe p) rd rs1 rs2) s =
        .next (coreAfter (.pe p) pc 2 (.next (setD (countAllocFail n (peDie k) i.part false) h rd 0)))) ∧
      (tryAlloc n (uSpar (peSpar k)) i.part i.asid = .closed → exec (.falloc (.pe p) rd rs1 rs2) s =
        .next (coreAfter (.pe p) pc 2 (.next (setD (countAllocFail n (peDie k) i.part true) h rd 0)))) ∧
      (∀ hw a, tryAlloc n (uSpar (peSpar k)) i.part i.asid = .lost hw a → exec (.falloc (.pe p) rd rs1 rs2) s =
        .next (coreAfter (.pe p) pc 2 (.next (setD (countAllocFail (allocLost n (peDie k) i.part hw a) (peDie k) i.part false) h rd 0)))) ∧
      (∀ e body, tryAlloc n (uSpar (peSpar k)) i.part i.asid = .fault e body → exec (.falloc (.pe p) rd rs1 rs2) s =
        .next (coreAfter (.pe p) pc 2 (.trap n e 0 body)))) ∧
    (∀ g, g = wfld (getD t h rs1) 60 49 →
      (gateExists t (peDie k) i.part g = true → exec (.fallocG (.pe p) rd rs1 rs2) s =
        .next (coreAfter (.pe p) pc 2 (.next (modPe t k fun x => { x with gates :=
          x.gates ++ [⟨false, i.part, g, getD t h rd, i.asid, wfld (getD t h rs1) 48 0, getD t h rs2⟩] })))) ∧
      (gateExists t (peDie k) i.part g = false → exec (.fallocG (.pe p) rd rs1 rs2) s = .next (coreAfter (.pe p) pc 2 (illegal t)))) ∧
    (rd ≠ 0 ∨ rs2 ≠ 0 → exec (.ffree (.pe p) rd rs1 rs2) s = .next (coreAfter (.pe p) pc 2 (illegal t))) ∧
    (∀ g, g = wfld (getD t h rs2) 11 0 → rd ≠ 0 ∨ gateExists t (peDie k) i.part g = false →
      exec (.ffreeG (.pe p) rd rs1 rs2) s = .next (coreAfter (.pe p) pc 2 (illegal t))) ∧
    (∀ tag a u g out, tag = getD t h rs1 → a = descAddr t (peDie k) (tagFrame tag) → u = unitRead t (peDie k) a 1 →
      g = wfld (getD t h rs2) 11 0 →
      out = (fun o : Option Nat => if isPoisoned u a then Res.trap (hwPoison u (peDie k) a) tFrame 0 0
        else if mayFree u k i tag then .next (modPe u k fun x => { x with frees := x.frees ++ [(tagFrame tag, tagGen tag, o)] })
        else .trap u tFrame 0 0) →
      exec (.ffree (.pe p) 0 rs1 0) s = .next (coreAfter (.pe p) pc 2 (out none)) ∧
      (gateExists t (peDie k) i.part g = true →
        exec (.ffreeG (.pe p) 0 rs1 rs2) s = .next (coreAfter (.pe p) pc 2 (out (some g)))))
/-- What a PE does beside its instructions (R69, R90, R106, R142, R143, R158, R160, R161, R326, R529). An instance past its run limit traps with
RUNLIMIT, a pair's at its leader. A released output that nothing of the same destination precedes leaves when its router has room, when the fetch agent
has its reply places, or when its item ring has room or the post is lost to a poisoned ring word, and its places are free; else it stays. A token or a purge that has no home any more is
discarded and counted. -/
def Obligations.ProcessingElementOutputsLeave : Prop :=
  ∀ (s : State) (p : PeId) (k : Nat), k = peOf p → peDie k < nDies s.part → sparLive s (gspar (peDie k) (peSpar k % 32)) = true →
    (∀ l, l = leader s k → (getPe s l).decimal = false →
      exec (.runlimit p) s = .next (peTrap s l 0 tRunlimit 0 0 (getPe s l).regs.pc.toNat)) ∧
    (∀ n o, (getPe s k).out[n]? = some o →
      (outBlocked (getPe s k) n o = true → exec (.outputLeave p n) s = .next s ∧ exec (.fetchRequest p n) s = .next s ∧
        exec (.wqpostRetry p n) s = .next s) ∧
      (outBlocked (getPe s k) n o = false →
        (∀ f, o = .flit f → flitCls f = 2 →
          exec (.outputLeave p n) s = .next ((routerTakes s (peDie k) (peSpar k % 32) f).elim s fun t => outGone t k n)) ∧
        (∀ f, o = .flit f → flitCls f ≠ 2 →
          (∀ g, homeOf s (uSpar (peSpar k)) (tagPart f.tag) (tagFrame f.tag) = some g → exec (.outputLeave p n) s =
            .next ((routerTakes (ptFill s (uSpar (peSpar k)) .pmt (tagPart f.tag)) (peDie k) (peSpar k % 32) f).elim s
              fun t => outGone t k n)) ∧
          (homeOf s (uSpar (peSpar k)) (tagPart f.tag) (tagFrame f.tag) = none → exec (.outputLeave p n) s =
            .next (outGone (if flitCls f = 1 then purgeLost s (peDie k) f.tag else noHome s (peDie k) f.tag) k n))) ∧
        (∀ part words tag, o = .fetch part words tag →
          exec (.fetchRequest p n) s = .next ((agentTakes s (peSpar k) part words tag).elim s fun t => outGone t k n)) ∧
        (∀ part asid g w0 w1 w2 w3 r, o = .post part asid g w0 w1 w2 w3 →
          r = tryPost s (uSpar (peSpar k)) part asid g w0 w1 w2 w3 →
          exec (.wqpostRetry p n) s = .next (if r.1 = .full then r.2 else outGone r.2 k n))))
/-- Special registers and registers of the CSR space (R192, R202, R220, R222, R223, R275, R348, R358, R362, R505). A supervisor core above PL0 reads
and writes special registers, the sealed ones at PL2 alone, and an unassigned number is ILLEGAL; a core at PL0, and a PE, get a PRIV exception, and a sealed register at PL1 gives one too. Reading
`EVSRC` makes the source of the offer in the slot of the core's world active and empties the slot; writing `EVDONE` completes a source; writing `BPCTL`
with bit [2] flushes the predictor. `csrrd` and `csrwr`, in the register form and in CSRI, access a register; where the access is refused they trap with BUSERR or PRIV and leave their destination, and the
register, unchanged. `xlinv` drops the matching translations. A field that the instruction does not use and that is not 0 is an invalid encoding. That such a field is judged before
the level, and PRIV before an unassigned number at PL0, is the model's choice (log 141). -/
def Obligations.SpecialAndControlRegisterAccess : Prop :=
  ∀ (s t : State) (core : CoreId) (h : Hart) (pc : Nat) (rd rs1 rs2 : Fin 32) (low : Bool),
    low = (match h with
      | .pe _ => true
      | .sup c => levelOf t c == 0) →
    (Runs s core 2 h pc t →
      (rs1 ≠ 0 ∨ rs2 ≠ 0 → (∀ num, exec (.sprd core rd rs1 rs2 num) s = .next (coreAfter core pc 2 (illegal t))) ∧
        exec (.evsrcRead core rd rs1 rs2) s = .next (coreAfter core pc 2 (illegal t))) ∧
      (rd ≠ 0 ∨ rs2 ≠ 0 → (∀ num, exec (.spwr core rd rs1 rs2 num) s = .next (coreAfter core pc 2 (illegal t))) ∧
        exec (.evdoneWrite core rd rs1 rs2) s = .next (coreAfter core pc 2 (illegal t)) ∧
        exec (.bpctlFlush core rd rs1 rs2) s = .next (coreAfter core pc 2 (illegal t))) ∧
      (rd ≠ 0 → exec (.xlinv core rd rs1 rs2) s = .next (coreAfter core pc 2 (illegal t)) ∧
        exec (.csrwr core (.reg rd rs1 rs2)) s = .next (coreAfter core pc 2 (illegal t))) ∧
      (rs2 ≠ 0 → exec (.csrrd core (.reg rd rs1 rs2)) s = .next (coreAfter core pc 2 (illegal t))) ∧
      (low = true → (∀ num, exec (.sprd core rd 0 0 num) s = .next (coreAfter core pc 2 (.trap t tPriv 0 0)) ∧
          exec (.spwr core 0 rs1 0 num) s = .next (coreAfter core pc 2 (.trap t tPriv 0 0))) ∧
        exec (.evsrcRead core rd 0 0) s = .next (coreAfter core pc 2 (.trap t tPriv 0 0)) ∧
        exec (.evdoneWrite core 0 rs1 0) s = .next (coreAfter core pc 2 (.trap t tPriv 0 0)) ∧
        exec (.bpctlFlush core 0 rs1 0) s = .next (coreAfter core pc 2 (.trap t tPriv 0 0)) ∧
        exec (.xlinv core 0 rs1 rs2) s = .next (coreAfter core pc 2 (.trap t tPriv 0 0)) ∧
        exec (.csrrd core (.reg rd rs1 0)) s = .next (coreAfter core pc 2 (.trap t tPriv 0 0)) ∧
        exec (.csrwr core (.reg 0 rs1 rs2)) s = .next (coreAfter core pc 2 (.trap t tPriv 0 0))) ∧
      (∀ c, h = .sup c → low = false →
        (∀ num : BitVec 7,
          (sprExists num.toNat = false → exec (.sprd core rd 0 0 num) s = .next (coreAfter core pc 2 (illegal t)) ∧
            exec (.spwr core 0 rs1 0 num) s = .next (coreAfter core pc 2 (illegal t))) ∧
          (sprExists num.toNat = true → sprShut num.toNat = true → levelOf t c ≠ 2 →
            exec (.sprd core rd 0 0 num) s = .next (coreAfter core pc 2 (.trap t tPriv 0 0)) ∧
            exec (.spwr core 0 rs1 0 num) s = .next (coreAfter core pc 2 (.trap t tPriv 0 0))) ∧
          (sprExists num.toNat = true → sprShut num.toNat = false ∨ levelOf t c = 2 →
            (∀ r, r = readSpr t c num.toNat → exec (.sprd core rd 0 0 num) s = .next (coreAfter core pc 2 (.next (setD r.2 h rd r.1)))) ∧
            exec (.spwr core 0 rs1 0 num) s = .next (coreAfter core pc 2 (.next (writeSpr t c num.toNat (getD t h rs1)))))) ∧
        exec (.evsrcRead core rd 0 0) s = .next (coreAfter core pc 2 (.next (setD (readEvsrc t c).2 h rd (readEvsrc t c).1))) ∧
        exec (.evdoneWrite core 0 rs1 0) s = .next (coreAfter core pc 2 (.next (writeEvdone t c (getD t h rs1)))) ∧
        exec (.bpctlFlush core 0 rs1 0) s = .next (coreAfter core pc 2 (.next (writeBpctl t c (getD t h rs1)))) ∧
        exec (.xlinv core 0 rs1 rs2) s = .next (coreAfter core pc 2
          (.next { t with tlb := t.tlb.filter fun l => !xlMatches (getD t h rs1) (getD t h rs2) l })) ∧
        (∀ r, r = csrRead t (coreSrc t c) (wfld (getD t h rs1) 31 0) → exec (.csrrd core (.reg rd rs1 0)) s =
          .next (coreAfter core pc 2 (if r.1 = 0 then .next (setD r.2.2 h rd (w64 r.2.1))
            else .trap r.2.2 (if r.1 = 1 then tBuserr else tPriv) 0 0))) ∧
        (∀ r, r = csrWrite t (coreSrc t c) (wfld (getD t h rs1) 31 0) (wfld (getD t h rs2) 31 0) → exec (.csrwr core (.reg 0 rs1 rs2)) s =
          .next (coreAfter core pc 2 (if r.1 = 0 then .next r.2 else .trap r.2 (if r.1 = 1 then tBuserr else tPriv) 0 0))))) ∧
    (∀ (rt : Fin 32) fn3 rsv idx, Runs s core 4 h pc t →
      (fn3 ≠ 0 ∨ rsv ≠ 0 → exec (.csrrd core (.imm rt fn3 rsv idx)) s = .next (coreAfter core pc 4 (illegal t)) ∧
        exec (.csrwr core (.imm rt fn3 rsv idx)) s = .next (coreAfter core pc 4 (illegal t))) ∧
      (low = true → exec (.csrrd core (.imm rt 0 0 idx)) s = .next (coreAfter core pc 4 (.trap t tPriv 0 0)) ∧
        exec (.csrwr core (.imm rt 0 0 idx)) s = .next (coreAfter core pc 4 (.trap t tPriv 0 0))) ∧
      (∀ c, h = .sup c → low = false →
        (∀ r, r = csrRead t (coreSrc t c) idx.toNat → exec (.csrrd core (.imm rt 0 0 idx)) s =
          .next (coreAfter core pc 4 (if r.1 = 0 then .next (setD r.2.2 h rt (w64 r.2.1))
            else .trap r.2.2 (if r.1 = 1 then tBuserr else tPriv) 0 0))) ∧
        (∀ r, r = csrWrite t (coreSrc t c) idx.toNat (wfld (getD t h rt) 31 0) → exec (.csrwr core (.imm rt 0 0 idx)) s =
          .next (coreAfter core pc 4 (if r.1 = 0 then .next r.2 else .trap r.2 (if r.1 = 1 then tBuserr else tPriv) 0 0)))))
/-- Homes and snoops (R27, R295, R303, R315, R318 to R322, R324, R328, R332, R542, R546). A request for a line that nothing backs is counted at its requester, and a read of it is answered with 16 poisoned words. Any
other one comes to its home in slots of the coherence class and waits for them. One
of a device or a unit that keeps no copies then joins its agent's accesses in order; any other request reaches its slice, and waits in its input queue behind
others or while 64 transactions run. At the home it waits behind a transaction on its line; with none, a request for a line that the LLC does not hold
starts a memory read where its set has a free way, takes the way of the victim, once snoops have cleared the victim's holders, and waits where every line of the set has a transaction; a write of the whole line needs no read. One for a line
held is performed at once or behind its snoops. The line read is installed and its
request evaluated again, with what waited behind it. A snoop changes the states of the caches that it reaches and its answer is due; one on the ring is
passed on first, in a slot of the coherence class; an answer that is not the last is noted, and the last completes the request or frees the victim's way; one that the home does not wait for is
counted, and one from a withdrawn die that owned the line poisons it. A snoop timeout poisons
the line, records it, and completes the request with no holder tracked. Where a PERTURB of 0x0303 is armed, the next answer goes unheard (the model's choice: log entry 142). A patrol scrub read waits behind the line's transaction or records what the line's
code finds. Invalidation empties the L1D of every PE whose bit of `L1EN` stands at 0. -/
def Obligations.HomesAndSnoopsComplete : Prop :=
  ∀ (s : State) (line : BitVec 45) (la : Nat), la = line.toNat →
    (∀ r u, region s (16 * la) = .unbacked → dieLive s (idDie r.id) = true → u = unbacked s (idDie r.id) (16 * la) →
      (r.kind ∈ [.wb, .devWr, .devWrH] → exec (.homeRequest line r) s = .next u) ∧
      (r.kind ∉ [.wb, .devWr, .devWrH] → ((∀ j < 16, backed u (16 * la + j) = false) → linePsn u la = 2 ^ 16 - 1) ∧
        exec (.homeRequest line r) s = .next (homeReply u r la (peeks u (16 * la) 16) (linePsn u la)))) ∧
    (homeDie la < nDies s.part → homeLive s la = true → backed s (16 * la) = true → ∀ r,
      (cohCross s (idDie r.id) (homeDie la) = none → exec (.homeRequest line r) s = .next s) ∧
      (∀ u sl, cohCross s (idDie r.id) (homeDie la) = some u → sl = homeSlice u la →
        (ordered r.id = true → exec (.homeRequest line r) s = .next (settleHome { u with posted := u.posted ++ [⟨la, r, false⟩] } la)) ∧
        (ordered r.id = false →
          (sliceWait u sl ≠ [] ∨ homeTx u la = none ∧ 64 ≤ sliceBusy u sl →
            exec (.homeRequest line r) s = .next (settleHome (setWait u sl (sliceWait u sl ++ [(la, r)])) la)) ∧
          (∀ x, sliceWait u sl = [] → homeTx u la = some x → exec (.homeRequest line r) s =
            .next (settleHome (setTx u la (some { x with queue := x.queue ++ [.req r] })) la)) ∧
          (sliceWait u sl = [] → homeTx u la = none → sliceBusy u sl < 64 →
            (llcLine u la = none → r.kind = .wb →
              exec (.homeRequest line r) s = .next (settleHome (count u (homeDie la) bCoh rCohLatecnt) la)) ∧
            (llcLine u la = none → r.kind ≠ .wb →
              (wayFor u la = .room → wholeLine r = false →
                exec (.homeRequest line r) s = .next (settleHome (setTx u la (some ⟨.memread, some r, [], []⟩)) la)) ∧
              (∀ t, wayFor u la = .room → wholeLine r = true → t = installLine (setTx u la none) la → exec (.homeRequest line r) s =
                .next (settleHome (takeHeld t la ((llcLine t la).getD ⟨0, 0, false, false, 0⟩) r) la)) ∧
              (wayFor u la = .busy →
                exec (.homeRequest line r) s = .next (settleHome (setTx u la (some ⟨.way, some r, [], []⟩)) la)) ∧
              (∀ v l ts, wayFor u la = .victim v → llcLine u v = some l → ts = snoopTargets u v l none →
                (ts = [] → exec (.homeRequest line r) s = .next (settleHome (readLine (setLlc u v none) la r []) la)) ∧
                (ts ≠ [] → exec (.homeRequest line r) s = .next (settleHome (sendSnoops (setTx (setTx u la (some ⟨.way, some r, [], []⟩)) v
                  (some ⟨.evicting, none, ts, []⟩)) v true ts) la)))) ∧
            (∀ l, llcLine u la = some l → r.kind = .wb → exec (.homeRequest line r) s = .next (settleHome (perform u la l r false) la)) ∧
            (∀ l t m ts, llcLine u la = some l → r.kind ≠ .wb → t = useLine u la → m = (llcLine t la).getD l →
              ts = snoopTargets t la m (notAsked t la r) →
              (needsSnoop t la m r (freeHint t la r) = false ∨ ts = [] →
                exec (.homeRequest line r) s = .next (settleHome (perform t la m r false) la)) ∧
              (needsSnoop t la m r (freeHint t la r) = true → ts ≠ [] → exec (.homeRequest line r) s =
                .next (settleHome (sendSnoops (setTx t la (some ⟨.snooping, some r, ts, []⟩)) la (snoopInv r.kind) ts) la))))))) ∧
    (homeDie la < nDies s.part → homeLive s la = true →
      (∀ x r check t, homeTx s la = some x → x.phase = .memread → x.req = some r →
        t = installLine (setTx (lineRead s la check) la none) la → exec (.memreadData line check) s =
          .next (drainHome (takeHeld t la ((llcLine t la).getD ⟨0, 0, false, false, 0⟩) r) la x.queue)) ∧
      (∀ x r t l, homeTx s la = some x → x.phase = .snooping → x.req = some r →
        t = passLate (dropSnoops s la) la x.due → llcLine t la = some l →
        exec (.snoopTimeout line) s = .next (drainHome (perform (setLlc (setTx t la none) la (some
          { l with hs := 0, pres := 0, remote := false })) la { l with hs := 0, pres := 0, remote := false } r false) la x.queue)) ∧
      (∀ x t l, homeTx s la = some x → x.phase = .evicting → x.req = none →
        t = passLate (dropSnoops s la) la x.due → llcLine t la = some l →
        exec (.snoopTimeout line) s = .next (drainHome (setLlc (setTx t la none) la none) la x.queue))) ∧
    (∀ n sn d t r, s.snoops[n]? = some sn → d = destDie sn.dest → s.fatal = false → sn.passed = true →
      (getDie s d).withdrawn = false → dieLive s d = true → destHeld s sn.line sn.dest = false →
      ((snoopReach sn.dest).any fun c => cacheState s c sn.line == 4) = false → t = { s with snoops := dropAt s.snoops n } →
      r = snoopDest t sn.dest sn.line sn.inv →
      exec (.snoopReceive n) s = .next (strmSettle { r.2 with answers := s.answers ++ [⟨sn.line, sn.dest, r.1⟩] })) ∧
    (∀ n sn, s.snoops[n]? = some sn → sn.passed = false →
      linkGrants s (linkPeer s (sn.dest - 1000) (1 - sn.link)).1 sn.link .coherence = true →
      exec (.snoopReceive n) s = .next (strmSettle (lookup (passOn s n sn) n { sn with passed := true }))) ∧
    (∀ n a v t, s.answers[n]? = some a →
      (if (getDie s (destDie a.src)).withdrawn then some s else cohCross s (destDie a.src) (homeDie a.line)) = some v →
      t = { v with answers := dropAt v.answers n } → homeLive t a.line = true →
      (homeTx t a.line = none → exec (.snoopAnswer n) s = .next (count t (homeDie a.line) bCoh rCohLatecnt)) ∧
      (∀ x, homeTx t a.line = some x → (armed t (homeDie a.line) 0x0303 bCoh (sliceHash a.line) 3).isSome = true →
        exec (.snoopAnswer n) s = .next t) ∧
      (∀ x, homeTx t a.line = some x → (armed t (homeDie a.line) 0x0303 bCoh (sliceHash a.line) 3).isSome = false →
        (inPass x = false ∨ x.due.contains a.src = false →
          exec (.snoopAnswer n) s = .next (count t (homeDie a.line) bCoh rCohLatecnt)) ∧
        (inPass x = true → x.due.contains a.src = true →
          (a.kind = 3 → exec (.snoopAnswer n) s = .next (snoopTimeout t a.line)) ∧
          (∀ l m u, a.kind ≠ 3 → llcLine t a.line = some l → m = (if a.kind = 2 then { l with dirty := true } else l) →
            u = setLlc t a.line (some m) →
            ((x.due.erase a.src).isEmpty = false →
              exec (.snoopAnswer n) s = .next (setTx u a.line (some { x with due := x.due.erase a.src }))) ∧
            (∀ r l', (x.due.erase a.src).isEmpty = true → x.req = some r → l' = afterPass m (snoopInv r.kind) → exec (.snoopAnswer n) s =
              .next (drainHome (perform (setLlc (setTx u a.line none) a.line (some l')) a.line l' r false) a.line x.queue)) ∧
            ((x.due.erase a.src).isEmpty = true → x.req = none → exec (.snoopAnswer n) s =
              .next (drainHome (setLlc (setTx u a.line none) a.line none) a.line x.queue)))))) ∧
    (homeDie la < nDies s.part → dieLive s (homeDie la) = true → blkEn s (homeDie la) bMem = true →
      getF s (homeDie la) bMem rMemScrub 31 31 = 1 → ∀ d o check, region s (16 * la) = .dram d o →
      (homeTx s la = none → exec (.patrolScrubRead line check) s = .next (scrubRead s la check)) ∧
      (∀ x, homeTx s la = some x → exec (.patrolScrubRead line check) s =
        .next (setTx s la (some { x with queue := x.queue ++ [.scrub check] })))) ∧
    (∀ (die : DieNo) (spar : SparNo) g, g = gspar die spar → regOpen s die (0x20 + spar) rCluL1ctl = true → dieLive s die = true →
      (getSpar s g).gated = false → ∀ t en, en = regStored s die (0x20 + spar) rCluL1ctl →
        t = (if cmdRuns s die (0x20 + spar) rCluL1ctl 0 then s else cmdBegin s die (0x20 + spar) rCluL1ctl 0) →
        exec (.l1dInvalidate die spar) s =
          .next ((List.range 9).foldl (fun s p => if bitOf en p then s else modPe s (peKey g p) fun x => { x with l1d := [] }) t))
/-- Events and lockstep (R343, R345, R353, R355, R359 to R363). The input of a source that a unit raises, which is kept as it stands, and a set by software change
the source's state: IDLE becomes PENDING where the source is enabled or software sets it, and an edge or a set that meets PENDING is counted as merged, and one that meets OFFERED or ACTIVE sets `REP`, a second in ACTIVE being counted too; a source that only software sets is raised by no unit. The
controller places the offer of a pending source in the slot of its candidate, unless another source outranks it there. A core
that is not halted accepts an offer by entry at offset 0x100, to level 1 for the open world and level 2 for the sealed, and one of the two where it may accept both. A completion leaves an
ACTIVE source IDLE, or PENDING where it was raised again or its level is asserted, and is counted for any other. A core whose enable bit is cleared gives back its offers. A lockstep mismatch fences the pair. That EVENT_RAISE
carries the state of the input, and does nothing for a source that only software sets, is the model's choice (log 131). -/
def Obligations.EventsReachCores : Prop :=
  (∀ (s : State) (d k : Nat) (soft counted rep : Bool), rep = bitOf (evCfg s d k) 23 →
    (evState s d k = evIdle → evTake s d k soft counted = if evOn s d k || soft then setEv s d k evPending rep else s) ∧
    (evState s d k = evPending → evTake s d k soft counted = if counted then count s d bEvc rEvcMergecnt else s) ∧
    (evState s d k = evOffered → evTake s d k soft counted = if counted then setEv s d k evOffered true else s) ∧
    (evState s d k = evActive → evTake s d k soft counted =
      if counted then setEv (if rep then count s d bEvc rEvcMergecnt else s) d k evActive true else s)) ∧
  ∀ (s : State) (die : DieNo) (source : Fin 4096), (die : Nat) < nDies s.part → dieLive s die = true →
    (∀ on t, t = setReg s die bEvc (rEvcCfg + source) (putFld (evCfg s die source) 22 22 (b2n on)) →
      (unitRaises die source = true → exec (.eventRaise die ⟨source, on⟩) s =
        .next (if on then evTake t die source false (!evLevel t die source) else t)) ∧
      (unitRaises die source = false → exec (.eventRaise die ⟨source, on⟩) s = .next s)) ∧
    (regOpen s die bEvc rEvcSet = true →
      exec (.evcSet die source) s = .next (setF (evTake s die source true true) die bEvc rEvcSet 11 0 source)) ∧
    (regOpen s die bEvc rEvcDone = true → ∀ t, t = typeNow s die source →
      (evState s die source ≠ evActive → exec (.evcDone die source) s =
        .next (setF (forgetActive (count s die bEvc rEvcBaddone) (4096 * die + source)) die bEvc rEvcDone 11 0 source)) ∧
      (evState s die source = evActive →
        bitOf (evCfg t die source) 23 = false → (bitOf (evCfg t die source) 30 && bitOf (evCfg t die source) 22) = false →
        exec (.evcDone die source) s =
          .next (setF (forgetActive (setEv t die source evIdle false) (4096 * die + source)) die bEvc rEvcDone 11 0 source)) ∧
      (evState s die source = evActive →
        bitOf (evCfg t die source) 23 = true ∨ (bitOf (evCfg t die source) 30 && bitOf (evCfg t die source) 22) = true →
        exec (.evcDone die source) s =
          .next (setF (forgetActive (setEv t die source evPending false) (4096 * die + source)) die bEvc rEvcDone 11 0 source))) ∧
    (∀ c, routable s die source = true → candidate s die source = some c →
      (outranked s die source c = false → exec (.eventRoute die source) s = .next (placeOffer s die source c)) ∧
      (outranked s die source c = true → exec (.eventRoute die source) s = .next s)) ∧
    (routable s die source = false ∨ candidate s die source = none → exec (.eventRoute die source) s = .next s) ∧
    (∀ v : Csr, regOpen s die bEvc rEvcCoreEn = true → exec (.evcCoreEnWrite die v) s = .next (parityWrite ((List.range 8).foldl (fun t c =>
      if bitOf (getReg s die bEvc rEvcCoreEn) c && !bitOf v.toNat c then returnOffers t (8 * die + c) else t)
      (setF s die bEvc rEvcCoreEn 7 0 v.toNat)) die bEvc rEvcCoreEn)) ∧
    (∀ (core : SupId) c, c = supOf core → c / 8 = (die : Nat) → supLive s c = true →
      (rawHalted s c = false → ∀ epc, epc = (getSup s c).regs.pc.toNat →
        (acceptsOpen s c = true → acceptsSealed s c = false → exec (.eventAccept core) s = .next (enterLevel s c 1 0x100 tEvent 0 0 0 epc)) ∧
        (acceptsSealed s c = true → acceptsOpen s c = false → exec (.eventAccept core) s = .next (enterLevel s c 2 0x100 tEvent 0 0 0 epc)) ∧
        (acceptsSealed s c = true → acceptsOpen s c = true → ∀ u, u = (takeFree s).2 →
          exec (.eventAccept core) s = .next (enterLevel u c 1 0x100 tEvent 0 0 0 epc) ∨
          exec (.eventAccept core) s = .next (enterLevel u c 2 0x100 tEvent 0 0 0 epc))) ∧
      (rawHalted s c = true ∨ acceptsOpen s c = false ∧ acceptsSealed s c = false → exec (.eventAccept core) s = .next s) ∧
      ∀ n, exec (.lockstepMismatch core n) s = .next (fencePair s c 0x0201 (w64 n)))
/-- The intake of a channel engine (R92, R95, R367, R369, R370, R378, R430, R431). The oldest flit that the mesh holds for an engine is checked, and an uncorrectable one goes no further; one of a
route or kind that no source produces is recorded, and counted for its kind, and any other one enters the intake of the engine that serves, where it has room, and the intake acts as far as it can; a full intake sends it to
its spill ring, and drops a hand-off once the ring has fewer than 20,480 free slots, which raises a rescan. An issue that the checks
refuse is refused with their reason and one that they accept is accepted; a hand-off is taken. Slots move back from the spill ring. One for which the intake has no room waits. A rescan takes the
OPEN entries that name the engine and are not served, and its event leaves the queue; `RESCAN` stays 1 while another is pending or a context runs one (R451). -/
def Obligations.IntakeTakesIssuesAndHandoffs : Prop :=
  ∀ (s : State) (die : DieNo) (eng : EngNo) (k : Nat), k = engKey die eng → (die : Nat) < nDies s.part →
    (∀ f rest err t u r cmd, engUp s (servingFor s k) = true → tget (fun _ => []) (getDie s die).engIn eng = f :: rest →
      intakeRoom s (servingFor s k) f = true →
      t = modDie s die (fun x => { x with engIn := tset (fun _ => []) x.engIn eng rest }) →
      u = (if wbit f.value 63 = true ∧ f.kind ≠ 1 then { t with supIssues := t.supIssues.eraseP fun x => x.1 == k } else t) →
      r = recvFlit u die (bCen eng) 0xFF 0x0505 f err →
      cmd = (if f.kind = 1 then Instr.handoff die eng err else .exchangeIssue die eng err) →
      (r.1 = none → exec cmd s = .next r.2) ∧
      (∀ g, armed u die 0x0505 (bCen eng) 0xFF 1 = none → checkFlit f err = .clean g → r = (some g, u)) ∧
      (∀ g q, r.1 = some g → q = servingFor u k →
        (routeBad g = true → exec cmd s = .next (deferred r.2 (q / 16) (bCen (q % 16)) 0xFF 0x0402 0x06 0 g.tag 0)) ∧
        (routeBad g = false → 2 ≤ g.kind.toNat → exec cmd s =
          .next (deferred (count r.2 (q / 16) bChn rChnBadflit) (q / 16) (bCen (q % 16)) 0xFF 0x0504 0x06 0 g.tag 0)) ∧
        (routeBad g = false → g.kind.toNat < 2 → intakeLen r.2 q < 768 → exec cmd s =
          .next (drain (modEng r.2 q fun e => { e with intake := e.intake ++ [g] }) q)) ∧
        (routeBad g = false → g.kind.toNat < 2 → 768 ≤ intakeLen r.2 q →
          (g.kind = 0 ∨ 20480 ≤ 2 ^ 15 - inUsed r.2 q → exec cmd s = .next (spillIntake r.2 q g)) ∧
          (∀ v, g.kind = 1 → 2 ^ 15 - inUsed r.2 q < 20480 → v = count r.2 (q / 16) (bCen (q % 16)) rCenHodrop →
            (rescanDue v q = true → exec cmd s = .next v) ∧
            (rescanDue v q = false → exec cmd s = .next (evPush (modEng v q fun e => { e with rescan := true }) q 9 0 0)))))) ∧
    (∀ f rest err, engUp s (servingFor s k) = true → tget (fun _ => []) (getDie s die).engIn eng = f :: rest →
      intakeRoom s (servingFor s k) f = false → exec (if f.kind = 1 then Instr.handoff die eng err else .exchangeIssue die eng err) s = .next s) ∧
    (∀ f rest r next, (getEng s k).intake = f :: rest → (getEng s k).blocked = false → r = issueReq s k f →
      next = modEng s k (fun e => { e with intake := rest, flitq := e.flitq ++ [f] }) →
      (origKind f = 1 → intakeHead s k = some (takeHandoff next k f)) ∧
      (∀ reason, origKind f ≠ 1 → issueCheck s r = .refuse reason →
        intakeHead s k = some (refuseIssue (noteOpen (issueReads next r) r.part) r reason)) ∧
      (origKind f ≠ 1 → issueCheck s r = .accept → intakeHead s k = some (acceptIssue (noteOpen (issueReads next r) r.part) r)) ∧
      (origKind f ≠ 1 → issueCheck s r = .wait → intakeHead s k = none)) ∧
    ((getEng s k).blocked = true → intakeHead s k = none) ∧
    (∀ q, q = servingFor s k → engUp s q = true →
      exec (.intakeSpillMove die eng) s = .next (drain (unspill s k q 512) q)) ∧
    (∀ v t, (getEng s k).evq.find? (fun v => v.1 == 9) = some v → t = modEng s k (fun e => { e with evq := e.evq.erase v }) →
      rescanTaken s k = modEng t k fun e => { e with rescan := rescanRuns t k }) ∧
    ((getEng s k).evq.find? (fun v => v.1 == 9) = none → rescanTaken s k = s) ∧
    (engUp s k = true → (getEng s k).rescan = true → exec (.rescan die eng) s =
      .next (((sortBy id (allLive s)).filter fun i => entState s i == lOpen && servingFor s (entOwner s i) == k &&
        !((getEng s k).serve.any fun p => p.1 == i)).foldl (fun s i => serveLast s k i) (rescanTaken s k)))
/-- The journal and exchange numbers (R375, R380, R382, R384, R385, R427). A write of the ledger device puts the records up to a SEQ into their slots;
an NVMe ledger device takes whole blocks of 64 records, which PAD records fill. The records are then durable and act: an ACCEPT record opens its exchange, a TERM record releases it, a NUMBLK record raises the limit, and the engine of each gets its event with the highest SEQ that is durable; `HEAD` may advance.
The control copy that is not in force takes `HEAD` with the next CBSEQ, after 65,536 records or where `HEAD` has moved, and not once the journal has stopped for a loss of power. A failed journal
write takes the ledger device out of service. A number block whose limit does not suffice is put into the journal, or by the Masthead into its ageing log, whose failed write is recorded; one whose limit suffices is not written again. That a PAD record
takes a SEQ of its own and that copy A is in force at equal counts are the model's choices (log 49), and so is die 0 as the place of the record of a failed write (log 50). -/
def Obligations.JournalAndNumberBlocks : Prop :=
  ∀ (s : State) (die : DieNo), (die : Nat) < nDies s.part → dieLive s die = true →
    (∀ (seq : BitVec 56) n p l stop u, ldevUp s die = true → n = seq.toNat →
      (getF s die bChn rChnLdev 31 30 = 2 → stop = min n ((getChan s die).jnext - 1) / 64 * 64 + 63 ∧
        p = if jReady (getChan s die) (jSize s die) n = [] then s
          else (List.range (stop + 1 - (getChan s die).jnext)).foldl (fun s _ => jPut s die (blankRec 15 0)) s) →
      (getF s die bChn rChnLdev 31 30 = 1 → stop = n ∧ p = s) →
      l = jReady (getChan p die) (jSize p die) stop →
      u = relog (advanceHead (l.foldl (fun s r => recDurable s die ((l.map (·.seq)).foldl max 0) r)
        (modChan (l.foldl (fun s r => slotPut s die r) p) die fun c =>
          { c with jrecs := c.jrecs.map fun r => if l.any fun q => q.seq == r.seq then { r with durable := true } else r })) die) die →
      exec (.journalDurable die seq) s = .next (if l.any fun r => r.typ == 5 then drainDie u die else u)) ∧
    (s.fatal = false → exec .journalWriteFail s = .next (ldevLeaves s)) ∧
    (∀ top r mine t, mine = ((getChan s die).live.contains r.index && ent s r.index 1 == r.xnum) →
      t = (match r.eng with
        | some k => evPush s k 8 (w64 top) 0
        | none => s) →
      (r.typ = 5 → recDurable s die top r = modChan t die fun c => { c with limit := max c.limit r.xnum.toNat }) ∧
      (r.typ = 2 → mine = true → recDurable s die top r = modWork t r.index fun w => { w with termDone := true }) ∧
      (∀ u, r.typ = 1 → mine = true → u = setEntF t r.index 9 55 0 r.seq → entState u r.index = lAccepting →
        recDurable s die top r = openEntry (setEntF (setEnt u r.index 6 (timeOf u die)) r.index 0 63 60 lOpen) r.index) ∧
      (r.typ ≠ 5 → mine = false → recDurable s die top r = t)) ∧
    (∀ c new, ldevUp s die = true → c = getChan s die → c.jstop = none → 65536 ≤ c.jsince ∨ (jCtl c).head ≠ c.jhead →
      new = ⟨(jCtl c).seq + 1, c.jhead, getF s die bChn rChnJcfg 31 27, getF s die bChn rChnJkey 11 0⟩ →
      exec (.journalControlRewrite die) s = .next (modChan s die fun c => { c with
        ctlA := if c.ctlB.seq ≤ c.ctlA.seq then c.ctlA else new, ctlB := if c.ctlB.seq ≤ c.ctlA.seq then new else c.ctlB,
        jsince := 0, jrecs := c.jrecs.filter fun r => decide (c.jhead ≤ r.seq) || !r.durable })) ∧
    (∀ c, c = getChan s die → c.jstop ≠ none ∨ c.jsince < 65536 ∧ (jCtl c).head = c.jhead →
      exec (.journalControlRewrite die) s = .next s) ∧
    (∀ limit flashOk, chanLost s die = false → limit = numMultiple (getChan s die) + 2 ^ 21 →
      (limit ≤ (getChan s die).limit ∨ ((getChan s die).jrecs.any fun r => r.typ == 5 && decide (limit ≤ r.xnum.toNat)) = true →
        exec (.numblk die flashOk) s = .next s) ∧
      ((getChan s die).limit < limit → ((getChan s die).jrecs.any fun r => r.typ == 5 && decide (limit ≤ r.xnum.toNat)) = false →
        (ldevUp s die = true → exec (.numblk die flashOk) s = .next (jAppend s die (blankRec 5 (w64 limit)))) ∧
        (ldevUp s die = false → mastheadUp s = true →
          exec (.numblk die true) s = .next (drainDie (modChan (ageAppend s ⟨5, die, [], 0, 0, 0, 0, limit⟩) die fun c => { c with limit := limit }) die) ∧
          exec (.numblk die false) s = .next (deferred s 0 bUmb 0xFF 0x0714 0 0 0 0))))
/-- Serving an exchange (R326, R374, R375, R377, R378, R390, R456). Each command reads the entry, and one with a poisoned word is abandoned. The oldest exchange of its
target queue that waits in OPEN starts where there is room: it becomes ACTIVE and its work begins, with its chain checked first, or it closes with the reason
of its issue check, a poisoned descriptor giving POISON; one that must wait is counted once. An NVMe exchange with a source whose chain has ended submits its command (DEDUCED: log entry
53). A MOVE whose transfers are done writes its words, and one with a chain, or a read with one, closes once its chain has ended. An entry in CLOSING reaches its
terminal state and its engine and staging are released; what a failed one leaves in its destination and its result area rests on log entry 155. A terminal entry
whose completions are delivered retires. A held completion record is written where its ring has room, and waits where it has none; the intake that a refusal held goes on. -/
def Obligations.ExchangesStartTransferAndRetire : Prop :=
  ∀ (s : State) (die : DieNo) (eng : EngNo) (index : BitVec 24) (k i : Nat), k = engKey die eng → i = index.toNat →
    (die : Nat) < nDies s.part →
    (∀ v, v = (entClean s die i).2 →
      (engUp s k = true → serves s k i = true → (entClean s die i).1 = false →
        exec (.exchangeStart die eng index) s = .next v ∧ exec (.transferDone die eng index) s = .next v) ∧
      (engUp s k = true → serves s k i = true → (entClean s die i).1 = true →
        (∀ t chain, entState v i = lOpen → firstOpen v k i = true → startRoom v k i = true → (readDesc v die i).1 = true →
          t = issueNote (readDesc v die i).2 die i →
          chain = (if xformOf t i = 0 then [] else (chainWords t (xCtx t die i) i).toOption.getD []) →
          (issueFault t die i = none →
            exec (.exchangeStart die eng index) s = .next (beginWork (modWork (setEnt (setEntF t i 0 63 60 lActive) i 7 0) i fun w =>
              { w with staged := stageUnits t i, started := true, chain := chain }) k i)) ∧
          (∀ e, issueFault t die i = some e →
            exec (.exchangeStart die eng index) s = .next (closeWith (modWork t i fun w => { w with chain := chain }) i e 0 false))) ∧
        (entState v i = lOpen → firstOpen v k i = true → startRoom v k i = true → (readDesc v die i).1 = false →
          exec (.exchangeStart die eng index) s =
            .next (closeWith (modWork (readDesc v die i).2 i fun w => { w with chain := [] }) i rsPoison 0 false)) ∧
        (entState v i = lOpen → firstOpen v k i = false ∨ startRoom v k i = false →
          exec (.exchangeStart die eng index) s = .next (queueWait v k i)) ∧
        (entState v i = lActive → isNvme (entKind v i) = true → entKind v i ≠ xkRead → (getWork v i).chainDone = true →
          ((getEng v k).cmds.any (·.index == i)) = false → exec (.exchangeStart die eng index) s = .next (nvStart v k i)) ∧
        (entState v i = lActive → entKind v i = xkMove → xformOf v i = 0 →
          exec (.transferDone die eng index) s = .next (moveWords v die i)) ∧
        (entState v i = lActive → entKind v i = xkMove ∨ entKind v i = xkRead → xformOf v i ≠ 0 →
          exec (.transferDone die eng index) s = .next (if (getWork v i).chainDone then closeOk v i else v))) ∧
      (dieLive s die = true → ldgDie s i = some (die : Nat) →
        ((entClean s die i).1 = false → exec (.terminalStateWrite die index) s = .next v) ∧
        (∀ q t u, (entClean s die i).1 = true → entState v i = lClosing → q = servingFor v (entOwner v i) →
          t = termDecide (failedResult (spoilDest v i) i) i → u = (if entKind t i = xkSend then sndClear t i else t) →
          exec (.terminalStateWrite die index) s =
            .next (modWork (nvDrop (unserve u q i) q i) i fun w => { w with staged := 0, data := [] })) ∧
        ((getChan s die).live.contains i = true →
          ((entClean s die i).1 = false → exec (.ledgerRetire die index) s = .next v) ∧
          ((entClean s die i).1 = true → isTerminal (entState v i) = true → wbit (ent v i 0) 40 = true →
            entDur v i = false ∨ (getWork v i).termDone = true →
            exec (.ledgerRetire die index) s = .next (retire v die i))))) ∧
    (∀ t d kind, kind = entKind t i → d = k / 16 →
      (xformOf t i = 0 ∨ (getWork t i).chainDone = true → beginWork t k i = if isNvme kind then nvStart t k i else t) ∧
      (∀ u, xformOf t i ≠ 0 → (getWork t i).chainDone = false → u = ptFill t d .ptt (entPart t i) →
        (∀ st code, chainCheck u d i (chainOf u i) = some (st, code) → beginWork t k i = chainError u d i st code) ∧
        (chainCheck u d i (chainOf u i) = none → beginWork t k i = if kind = xkRead then nvStart u k i else chainStart u d i))) ∧
    (∀ c ws bs, c = xCtx s die i → sourceWords s c i = .ok ws → destBufs s c i = .ok bs → ∀ len, len = wfld (descWord s i 4) 31 0 →
      moveWords s die i = closeOk (setXlen (fillBufs (readSource s c i) c (hintOf s i) bs (ws.take len)).1 i len) i) ∧
    (dieLive s die = true → ∀ n h r t, (getChan s die).held[n]? = some h → r = crTake s die h.part h.words →
      t = modChan r.2 die (fun c => { c with held := dropAt c.held n }) →
      (r.1 = false → exec (.completionRecordRetry die n) s = .next r.2) ∧
      (∀ j, r.1 = true → h.index = some j → exec (.completionRecordRetry die n) s = .next (setEntF t j 0 40 40 1)) ∧
      (∀ e, r.1 = true → h.index = none → e = servingFor t h.eng → exec (.completionRecordRetry die n) s =
        .next (drain (modEng t e fun x => { x with blocked := (getChan t die).held.any fun q => q.index.isNone && servingFor t q.eng == e }) e)))
/-- NVMe commands (R375, R387, R427, R428). A completion entry raises its event in the entry that its command has reserved, also where the command has left its slot, and
decides the outcome of the ACTIVE exchange whose command stands at
that engine's pair, controller and slot with that generation; one that names no command, or another generation, is late and counted. A
command that times out is aborted, with a timer of 1 s; an abort that ends, confirmed or not, leads to a new try. A controller's fatal
status times out its commands, resets it once and sets its queues up again; a second one, or a reset that fails, loses it. -/
def Obligations.NvmeCommandsComplete : Prop :=
  ∀ (s : State) (die : DieNo) (eng : EngNo) (k : Nat), k = engKey die eng → (die : Nat) < nDies s.part →
    (∀ (ctrl : BitVec 16) pair (cid : BitVec 16) (dw3 : BitVec 32) data q t found, q = servingFor s k → engUp s q = true →
      t = nvEvent s q k ctrl.toNat pair cid.toNat →
      found = ((getEng t q).cmds.find? fun m => m.eng == k && m.ctrl == ctrl.toNat && m.pair == pair &&
        m.slot == cid.toNat % 2 ^ 10) →
      (found = none → exec (.nvmeCompletion die eng ctrl pair cid dw3 data) s = .next (count t (q / 16) bChn rChnNvlate)) ∧
      (∀ m, found = some m →
        (cid.toNat / 2 ^ 10 % 64 ≠ entGen t m.index →
          exec (.nvmeCompletion die eng ctrl pair cid dw3 data) s = .next (count t (q / 16) bChn rChnNvlate)) ∧
        (cid.toNat / 2 ^ 10 % 64 = entGen t m.index → entState t m.index = lActive →
          exec (.nvmeCompletion die eng ctrl pair cid dw3 data) s = .next (nvOutcome t q m.index dw3.toNat data)))) ∧
    (∀ q ctrl pair cid v, v = w64 (ctrl * 2 ^ 32 + pair) →
      ((getEng s q).cmds.any (fun m => cidOf m k ctrl pair cid && !m.came) = true → nvEvent s q k ctrl pair cid =
        evPush (modEng s q fun e => { e with cmds := e.cmds.map fun m => if cidOf m k ctrl pair cid then { m with came := true } else m }) q 3 v 0) ∧
      ((getEng s q).cmds.any (fun m => cidOf m k ctrl pair cid && !m.came) = false →
        ((getEng s q).late.any (fun m => cidOf m k ctrl pair cid) = true → nvEvent s q k ctrl pair cid =
          evPush (modEng s q fun e => { e with late := e.late.eraseP fun m => cidOf m k ctrl pair cid }) q 3 v 0) ∧
        ((getEng s q).late.any (fun m => cidOf m k ctrl pair cid) = false → nvEvent s q k ctrl pair cid = s))) ∧
    (engUp s k = true → ∀ (index : BitVec 24) i, i = index.toNat →
      (∀ m, ((getEng s k).cmds.find? fun m => m.index == i) = some m → entState s i = lActive →
        ∀ t, t = setEnt (setEntF s i 0 63 60 lAborting) i 7 (timeOf s (k / 16) + w64 1000000000) →
        exec (.nvmeTimeout die eng index) s = .next (give (modEng t k fun e => { e with cmds := e.cmds.map fun x =>
          if x.index = i then { x with aborting := true } else x }) (.nvmeAbort m.eng m.ctrl m.pair (nvCid m.gen m.slot)))) ∧
      (entState s i = lAborting → ((getEng s k).cmds.any fun m => m.index == i) = true →
        exec (.abortDone die eng index true) s = .next (nvRetry s k i rsNvmeTimeout 0) ∧
        exec (.abortDone die eng index false) s =
          .next (nvRetry (modWork s i fun w => { w with unconfirmed := true }) k i rsNvmeTimeout 0))) ∧
    (∀ (ctrl : BitVec 16) c, c = ctrl.toNat → s.fatal = false → (getCtrl s c).out = false →
      ((getCtrl s c).wasReset = false → exec (.controllerFatal ctrl) s =
        .next (nvSetup (give (timeOutAll (modCtrl s c fun x => { x with wasReset := true }) c) (.nvmeReset c)) c)) ∧
      ((getCtrl s c).wasReset = true → exec (.controllerFatal ctrl) s = .next (ctrlLost s c) ∧
        exec (.controllerResetTimeout ctrl) s = .next (ctrlLost s c)))
/-- Engines and power failure (R385, R386, R388, R389, R546). A missed heartbeat takes an engine out of service as a CONTAINED fault, which is an injected one under an armed PERTURB. The lowest-numbered engine of its
die in service takes over: the issue map names it, it adopts what the failed engine held, and each of the failed engine's entries
goes on by its row: one in OPEN is served, one in ABORTING starts again, one in ACTIVE starts again unless it is a receive or its command still runs, and one in CLOSING reaches its terminal state. With no engine of the die in service the die's channel subsystem is lost. After a power-fail warning no write of the journal region starts, from a record that is free among those under way, and the root port of a CXL ledger device starts its flush. Acknowledging the in-doubt report clears READY; with a ledger device in service each die's journal takes an EPOCH record with the report's count, `HEAD` moves past it,
and the control block takes that `HEAD` while no power failure has stopped the journal's writes. The fields of a record that a take-over goes by, the die that writes for a
lost one and the reissue of work are the model's choices (log entries 49, 55 and 56). -/
def Obligations.TakeOverAndPowerFailSteps : Prop :=
  ∀ (s : State),
    (∀ (die : DieNo) (eng : EngNo) f, f = engKey die eng → (die : Nat) < nDies s.part →
      (engUp s f = true → armed s die 0x0503 (bCen eng) 0xFF 3 = none → exec (.engineWatchdog die eng) s =
        .next (report (modEng s f fun e => { e with out := true }) (f / 16) (bCen (f % 16)) 0xFF 0x0503 cContained 0x07 0 0 0)) ∧
      (∀ j u, engUp s f = true → armed s die 0x0503 (bCen eng) 0xFF 3 = some j → u = injUse s die → exec (.engineWatchdog die eng) s =
        .next (report (modEng u f fun e => { e with out := true }) (f / 16) (bCen (f % 16)) 0xFF 0x0503 cContained 0x07 0 0 0 true)) ∧
      (dieLive s die = true → (getEng s f).out = true → (getEng s f).adopted = false → servingFor s f = f →
        exec (.takeover die eng) s = .next (loseDie (modEng s f fun e => { e with adopted := true }) (f / 16))) ∧
      (∀ k served mine t u, dieLive s die = true → (getEng s f).out = true → (getEng s f).adopted = false → k = servingFor s f →
        k ≠ f → served = (getEng s f).serve.map (·.1) →
        mine = sortBy id ((getChan s (f / 16)).live.filter fun i => entOwner s i == f) →
        t = adopt (remap s (f / 16) (f % 16) (k % 16)) f k →
        u = (served ++ mine.filter fun i => !served.contains i).foldl (fun s i => takeEntry s k i) t →
        exec (.takeover die eng) s = .next (drain (evPush (evRaise u (f / 16) (0x200 + f % 16)) k 7 (w64 (f % 16)) 0) k))) ∧
    (∀ k i t st, t = setOwner s i k → st = entState t i →
      (st = lOpen → takeEntry s k i = if serves t k i then t else serveLast t k i) ∧
      (st = lActive → takeEntry s k i = if entKind t i = xkRecv ∨ (getEng t k).cmds.any (·.index == i) = true then t else restart t k i) ∧
      (st = lAborting → takeEntry s k i = restart t k i) ∧
      (st = lClosing → takeEntry s k i = terminalWrite t i)) ∧
    (exec .pfailJournalStop s = .next ((List.range (nDies s.part)).foldl (fun t d =>
      if dieLive t d && pfail t d && (getChan t d).jstop.isNone then
        modChan (takeFree t).2 d (fun c => { c with jstop := (some
          (((((getChan t d).jrecs.filter fun r => !r.durable).map (·.seq)).foldl min (getChan t d).jnext)
            + (takeFree t).1.toNat % (((getChan t d).jrecs.filter fun r => !r.durable).length + 1))) })
      else t) s)) ∧
    (∀ d, d = getF s 0 bChn rChnLdev 29 27 → s.fatal = false → pfail s 0 = true → getF s 0 bChn rChnLdev 31 30 = 1 →
      dieLive s d = true → exec .pfailGpfStart s = .next (give s (.flush d))) ∧
    (∀ n t, regOpen s 0 bChn rChnIdrack = true → dieLive s 0 = true → getF s 0 bChn rChnIdrstat 31 31 = 1 →
      n = getF s 0 bChn rChnIdrstat 30 0 → t = setF s 0 bChn rChnIdrstat 31 31 0 →
      exec .idrAck s = .next ((List.range (nDies t.part)).foldl (fun s d =>
        if ldevUp s 0 then
          let u := if dieLive s d && ldevUp s d then jPut s d (blankRec 4 (w64 n)) else putDurable s d (blankRec 4 (w64 n))
          let v := jMark (modChan u d fun c => { c with jhead := c.jnext }) d (jOcc (getChan u d))
          if ((getChan v (if dieLive s d && ldevUp s d then d else 0)).jstop).isNone then controlPut v d else v
        else s) t))
/-- Frames in the MAC of a die and their engines (R400, R401, R402, R415, R419, R420, R421). A frame on a sub-port that the port is not broken out to does not arrive. A frame for which the MAC's buffer has no room is
dropped and counted, one of more than 9,216 bytes is counted as bad, a priority flow control frame pauses the priorities that it names, one that is not addressed to HXP goes to the raw ring, and any other is
judged and goes over the stream plane. An engine in service takes its oldest frame where it has the type commanded. A tag that fails is
counted; else the shroud is UP, the time is noted, and the frame acts by its type: a control frame where its count is after
the last one accepted, which becomes the last, and its key phase is noted as accepted; else it is a counted duplicate; an ACK or a NAK that its end does not steer on is counted as
stale and leaves the count. -/
def Obligations.HxpFramesReachTheirEngine : Prop :=
  ∀ (s : State) (die : DieNo), (die : Nat) < nDies s.part →
    (dieLive s die = true → blkEn s die bHxp = true → ∀ (sub : Fin 4) frame fcs l, l = ofBytes frame →
      (subPorts s die ≤ sub.val → ∀ room, exec (.hxpFrameReceive die sub frame room fcs) s = .next s) ∧
      (sub.val < subPorts s die → exec (.hxpFrameReceive die sub frame false fcs) s = .next (countHxp s die rHxpRxdrop)) ∧
      (sub.val < subPorts s die → 2 ^ 21 < macHeld s die + l.length →
        exec (.hxpFrameReceive die sub frame true fcs) s = .next (countHxp s die rHxpRxdrop)) ∧
      (sub.val < subPorts s die → macHeld s die + l.length ≤ 2 ^ 21 →
        (9216 < l.length → exec (.hxpFrameReceive die sub frame true fcs) s = .next (countHxp s die rHxpBadcnt)) ∧
        (l.length ≤ 9216 → (fcs && isPfc s die l) = true →
          exec (.hxpFrameReceive die sub frame true fcs) s = .next (strmSettle (pfcTake s die sub l))) ∧
        (l.length ≤ 9216 → (fcs && isPfc s die l) = false →
          (parseFrame l = none → exec (.hxpFrameReceive die sub frame true fcs) s = .next (rawReceive s die sub l)) ∧
          (∀ f, parseFrame l = some f →
            (fcs = true ∧ localAddr s die sub f = true ∧ f.dport = getF s die bHxp rHxpCfg 31 16 →
              exec (.hxpFrameReceive die sub frame true fcs) s = .next (strmSettle (hxpArrive s die sub l.length f))) ∧
            (¬(fcs = true ∧ localAddr s die sub f = true ∧ f.dport = getF s die bHxp rHxpCfg 31 16) →
              exec (.hxpFrameReceive die sub frame true fcs) s = .next (rawReceive s die sub l)))))) ∧
    (∀ (eng : EngNo) k f rest u, k = engKey die eng → engUp s k = true → (getEng s k).hxq = f :: rest → u = modEng s k popFrame →
      (verify u f = none → ∀ bad, bad = strmSettle (countHxp u (k / 16) rHxpAuthcnt) →
        (f.typ = 1 → exec (.data die eng) s = .next bad) ∧ (f.typ = 2 → exec (.ack die eng) s = .next bad) ∧
        (f.typ = 3 → exec (.nak die eng) s = .next bad) ∧ (f.typ = 4 → exec (.open_ die eng) s = .next bad) ∧
        (f.typ = 5 → exec (.openAck die eng) s = .next bad) ∧ (f.typ = 6 → exec (.close die eng) s = .next bad) ∧
        (f.typ = 7 → exec (.closeAck die eng) s = .next bad) ∧ (f.typ = 8 → exec (.reset die eng) s = .next bad) ∧
        (f.typ = 9 → exec (.lease die eng) s = .next bad) ∧ (f.typ = 10 → exec (.leaseAck die eng) s = .next bad) ∧
        (f.typ = 11 → exec (.probe die eng) s = .next bad)) ∧
      (∀ payload ph w t g, verify u f = some (payload, ph) → w = setUp u f.assoc f.shroudB true →
        t = noteTime w f (timeOf w (k / 16)) → g = { f with payload := toBytes payload, keyph := ph } →
        (∀ n, f.session = some n →
          (f.typ = 1 → exec (.data die eng) s = .next (strmSettle (takeData t k n g))) ∧
          (ctlFresh t g = true →
            (onSteering t g = true →
              (f.typ = 2 → exec (.ack die eng) s = .next (strmSettle (takeAck (notePhase (ctlNote t g) g) n g))) ∧
              (f.typ = 3 → exec (.nak die eng) s = .next (strmSettle (takeNak (notePhase (ctlNote t g) g) n g)))) ∧
            (onSteering t g = false →
              (f.typ = 2 → exec (.ack die eng) s = .next (strmSettle (countHxp t (k / 16) rHxpStalecnt))) ∧
              (f.typ = 3 → exec (.nak die eng) s = .next (strmSettle (countHxp t (k / 16) rHxpStalecnt)))) ∧
            (f.typ = 5 → exec (.openAck die eng) s = .next (strmSettle (takeSessAck (notePhase (ctlNote t g) g) k n g))) ∧
            (f.typ = 6 → exec (.close die eng) s = .next (strmSettle (takeClose (notePhase (ctlNote t g) g) n))) ∧
            (f.typ = 7 → exec (.closeAck die eng) s = .next (strmSettle (takeCloseAck (notePhase (ctlNote t g) g) n))) ∧
            (f.typ = 8 → exec (.reset die eng) s = .next (strmSettle (takeReset (notePhase (ctlNote t g) g) n)))) ∧
          (ctlFresh t g = false → f.typ = 8 → exec (.reset die eng) s = .next (strmSettle (countHxp t (k / 16) rHxpDupcnt))) ∧
          (f.typ = 4 → ctlFresh w g = true →
            exec (.open_ die eng) s = .next (strmSettle (noteTime (takeSessOpen (notePhase (ctlNote w g) g) k n g) f (timeOf w (k / 16)))))) ∧
        (f.session = none →
          (f.typ = 4 → exec (.open_ die eng) s = .next (strmSettle (noteTime (takeAssocOpen w k g) f (timeOf w (k / 16))))) ∧
          (f.typ = 5 → exec (.openAck die eng) s = .next (strmSettle (takeAssocAck t k g)))) ∧
        (ctlFresh t g = true →
          (f.typ = 9 → exec (.lease die eng) s = .next (strmSettle (takeLease (notePhase (ctlNote t g) g) k g))) ∧
          (f.typ = 10 → exec (.leaseAck die eng) s = .next (strmSettle (takeLeaseAck (notePhase (ctlNote t g) g) g))) ∧
          (f.typ = 11 → exec (.probe die eng) s = .next (strmSettle (notePhase (ctlNote t g) g))))))
/-- The timers of a session (R404, R410, R411). An OPEN is sent again up to the eighth time, and then the session is CLOSED and its
open-failed event raised; a CLOSING session ends; an ACK is sent; a NAK names the run of missing path sequences; each
unacknowledged frame whose last transmission is older than the timeout is sent again, and the eighth expiry without progress ends the
session. -/
def Obligations.SessionTimersComplete : Prop :=
  ∀ (s : State) (session : Fin 65536) (n : Nat), n = session → stDie s n < nDies s.part → stOk s n = true →
    engUp s (frameEng s (some n) (stAssoc s n)) = true →
    (∀ x, x = getSess s n → stState s n = ssOpening → x.opens ≠ 0 →
      (x.opens < 8 → exec (.openResend (.session session)) s =
        .next (sendSessOpen (modSess s n fun x => { x with opens := x.opens + 1 }) n 4 x.nonceI)) ∧
      (8 ≤ x.opens → exec (.openResend (.session session)) s =
        .next (evRaise (modSess (setSt s n ssClosed) n fun x => { x with opens := 0 }) (stDie s n) 0x283))) ∧
    (stState s n = ssClosing → exec (.closingTimeout session) s = .next (closeSession s n 4)) ∧
    (stState s n = ssOpen ∨ stState s n = ssClosing →
      exec (.ackTimer session) s = .next (sendAck s n) ∧
      (∀ last, missingRun s n = some last → exec (.nakTimer session) s = .next (sendAckNak s n 3 (getSess s n).base last)) ∧
      (∀ old t, old = (getSess s n).unacked.filter (fun g => decide (retxTime s n ≤ (timeOf s (stDie s n) - g.sentAt).toNat)) →
        (old = [] → exec (.retransmitTimeout session) s = .next s) ∧
        (old ≠ [] → t = modSess s n (fun x => { x with expiries := x.expiries + 1 }) →
          ((getSess t n).expiries < 8 → exec (.retransmitTimeout session) s = .next (old.foldl (fun s g => resendSeg s n g) t)) ∧
          (8 ≤ (getSess t n).expiries → exec (.retransmitTimeout session) s =
            .next (closeSession (sendSessBoth t n 8 []) n 5)))))
/-- The timers of an association and its steering lease (R403, R413, R414, R416). A shroud without an authenticated frame goes DOWN;
a probe is sent on a shroud that was silent; the initiator renews its lease; a lease that ends lapses at the initiator and is
gone at the responder; a lapsed one is claimed with the next epoch; a failback releases the lease. -/
def Obligations.AssociationTimersComplete : Prop :=
  ∀ (s : State) (assoc : Fin 4096) (i : Nat), i = assoc → shDie s i false < nDies s.part → atOk s i = true →
    engUp s (frameEng s none i) = true →
    ((getAssoc s i).phase = 1 → exec (.openResend (.assoc assoc)) s = .next (sendAssocOpen s i 4 (getAssoc s i).nonceI)) ∧
    (∀ b, exec (.shroudDown assoc b) s = .next (setUp s i b false)) ∧
    (∀ b, (getAssoc s i).phase = 2 → exec (.probeTimer assoc b) s = .next (sendAssocOn s i b (hdr0 11 (rAid s i)))) ∧
    (isInit s i = true → (getAssoc s i).lease = .steering →
      exec (.leaseRenewal assoc) s = .next (sendLease s i 9 false (epoch s i) (getAssoc s i).claimB) ∧
      exec (.leaseEnd assoc) s = .next (setLease s i .lapsed) ∧
      (lShrB s i ≠ prefB s i → shUp s i (prefB s i) = true → exec (.failback assoc) s =
        .next (sendLease (modAssoc (setLease s i .releasing) i fun x => { x with failback := true }) i 9 true (epoch s i)
          (getAssoc s i).claimB))) ∧
    (isInit s i = false → (getAssoc s i).lease = .steering → exec (.leaseEnd assoc) s = .next (setLease s i .none)) ∧
    ((getAssoc s i).lease = .releasing →
      exec (.leaseEnd assoc) s = .next (modAssoc (setLease s i .lapsed) i fun x => { x with failback := false })) ∧
    (∀ b, isInit s i = true → (getAssoc s i).lease = .claiming → b = claimShroud s i →
      exec (.leaseRenewal assoc) s = .next (sendLease (modAssoc s i fun x => { x with claimB := b }) i 9 false (epoch s i) b)) ∧
    ((getAssoc s i).lease = .lapsed → exec (.leaseLapsedReclaim assoc) s =
      .next (evRaise (claim s i ((epoch s i + 1) % 2 ^ 32) (claimShroud s i)) (shDie s i false) 0x281))
/-- The commands of `HXP_SCMD` and `HXP_RAWTX` (R403, R404, R405, R417, R419 to R422, R427, R566). A command raises its event at the engine of its session or association (the model's choice of engine and values: log entry 146), and a second one while it runs is refused and counted. A CLOSED session of an initiator whose association is up opens; one of a responder
listens; an OPEN one closes; an association opens; a raw frame goes to the port that is up, one longer than 9,216 bytes is counted as bad, and a write while a frame waits for its port is
refused (DEDUCED: log entry 151).
The message of an ACTIVE SEND exchange takes the session's next path sequences, its send record is written, and its segments are sent; it ends where its session is not open, its source cannot be read or it is longer than the peer takes, and goes back to OPEN, counted once, where no send record is free or the credit does not reach. -/
def Obligations.HxpCommandsComplete : Prop :=
  ∀ (s : State) (die : DieNo), (die : Nat) < nDies s.part → dieLive s die = true → blkEn s die bHxp = true →
    regOpen s die bHxp rHxpScmd = true → regOpen s die bHxp rHxpRawtx = true →
    (∀ b, StillRuns s die bHxp rHxpScmd 0 b →
      (∀ session : Fin 65536, exec (.hxpOpenSession die session) s = .next (reject (scmd b die 1 session) die bHxp) ∧
        exec (.hxpCloseSession die session) s = .next (reject (scmd b die 2 session) die bHxp)) ∧
      (∀ assoc : Fin 4096, exec (.hxpOpenAssociation die assoc) s = .next (reject (scmd b die 3 assoc) die bHxp))) ∧
    (∀ b, Starts s die bHxp rHxpScmd 0 b →
      (∀ (session : Fin 65536) n t i, n = (session : Nat) → t = scmdEvent (scmd b die 1 n) die 1 n → i = stAssoc t n → stOk t n = true →
        atOk t i = true → stState t n = ssClosed →
        (isInit t i = true → ∀ u, u = modSess (setSt t n ssOpening) n
            (fun x => { x with opens := 0, lastHold := some (timeOf t (stDie t n)) }) →
          (getAssoc u i).phase = 2 → exec (.hxpOpenSession die session) s = .next (startSession u n)) ∧
        (isInit t i = false → exec (.hxpOpenSession die session) s = .next (setSt t n ssListen))) ∧
      (∀ (session : Fin 65536) n t, n = (session : Nat) → t = scmdEvent (scmd b die 2 n) die 2 n → stOk t n = true → stState t n = ssOpen →
        exec (.hxpCloseSession die session) s = .next (tryClose (setSt t n ssClosing) n)) ∧
      (∀ (assoc : Fin 4096) i t, i = (assoc : Nat) → t = scmdEvent (scmd b die 3 i) die 3 i → atOk t i = true → isInit t i = true →
        (getAssoc t i).phase = 0 → exec (.hxpOpenAssociation die assoc) s = .next (startAssoc t i))) ∧
    (∀ (b : State) cmd index word, word = w64 (2 ^ 31 + cmd * 2 ^ 28 + index) →
      (cmd = 1 ∨ cmd = 2 → stOk b index = true →
        scmdEvent b die cmd index = evPush b (frameEng b (some index) (stAssoc b index)) 10 word (w64 die)) ∧
      (cmd = 3 → index < 4096 → atOk b index = true → scmdEvent b die cmd index = evPush b (frameEng b none index) 10 word (w64 die))) ∧
    (∀ (eng : EngNo) k (index : BitVec 24) i n, k = engKey die eng → engUp s k = true → i = index.toNat → servingFor s (entOwner s i) = k →
      n = sendSession s i → entKind s i = xkSend → entState s i = lActive → (getWork s i).firstSeq = none → xformOf s i = 0 →
      (stState s n ≠ ssOpen → segSent s n i = false → exec (.hxpSendStart die eng index) s = .next (closeWith s i rsHxp 1 false)) ∧
      (stState s n = ssOpen →
        (∀ e, sourceWords s (xCtx s (stDie s n) i) i = .error e → exec (.hxpSendStart die eng index) s = .next (closeWith s i e 0 false)) ∧
        (∀ ws, sourceWords s (xCtx s (stDie s n) i) i = .ok ws →
          ((getSess s n).peerMax < ws.length → exec (.hxpSendStart die eng index) s = .next (closeWith s i rsHxp 2 false)) ∧
          (ws.length ≤ (getSess s n).peerMax → sndFind s n (ent s i 1) = none →
            (sndFree s n = none ∨ serBefore (getSess s n).txNext (getSess s n).txCredit = false →
              exec (.hxpSendStart die eng index) s = .next (sendWait s k i)) ∧
            (∀ j first cnt t, sndFree s n = some j → first = (getSess s n).txNext → serBefore first (getSess s n).txCredit = true →
              cnt = (ws.length + 1023) / 1024 →
              t = modWork (store (store s (stDie s n) (sndAddr s n j) (ent s i 1)) (stDie s n) (sndAddr s n j + 1)
                (w64 (first * 2 ^ 32 + cnt * 2 ^ 16 + 1))) i
                  (fun w => { w with data := ws, words := ws.length, firstSeq := some first, segNext := 0, segCnt := cnt, sendSlot := j }) →
              exec (.hxpSendStart die eng index) s =
                .next (sendSegs (modSess t n fun x => { x with txNext := (first + cnt) % 2 ^ 32 }) n i 128)))))) ∧
    (∀ (len : BitVec 14) (sub : Fin 4) t a, t = setReg s die bHxp rHxpRawtx (len.toNat * 2 ^ 16 + sub) →
      a = baseOf t die bHxp rHxpRawbaseHi + 16 + 1280 * 2 ^ getF t die bHxp rHxpRawcfg 31 28 →
      ((getDie t die).rawTx ≠ [] → exec (.hxpRawtx die len sub) s = .next (reject t die bHxp)) ∧
      ((getDie t die).rawTx = [] →
      (9216 < len.toNat → exec (.hxpRawtx die len sub) s = .next (countHxp t die rHxpBadcnt)) ∧
      (len.toNat ≤ 9216 → portUp t die sub = true → exec (.hxpRawtx die len sub) s =
        .next (strmSettle (modDie (unitRead t die a ((len.toNat + 7) / 8)) die fun y =>
          { y with rawTx := [.outbound die die sub (toBytes ((bytesOf (peeks t a ((len.toNat + 7) / 8))).take len.toNat))] }))) ∧
      (len.toNat ≤ 9216 → portUp t die sub = false → exec (.hxpRawtx die len sub) s = .next t)))
/-- Contexts and microwords of a channel engine (R424 to R427, R436, R437, R440, R441, R443). The idle context of the lowest number takes
the oldest event or the oldest flit, in turn where there are both (which context and whose turn is the model's choice, log entry 63);
the context that runs next runs its microword, or takes the micro-trap it meets, once the page of a memory operation has been looked up; a corrected store word is counted and recorded first; `LONGRUN` and a
trap in trap mode are as R426 and R441 say. A read's word or its failure arrives, a timer expires, and a stream command completes; a
sleeping context resumes. -/
def Obligations.MicrowordsRunAndTrap : Prop :=
  ∀ (s : State) (die : DieNo) (eng : EngNo) (k : Nat), k = engKey die eng → (die : Nat) < nDies s.part → engUp s k = true →
    (∀ c, (firstBelow 16 fun c => !(getCtx s k c).busy) = some c →
      (∀ kind v0 v1 t, (getEng s k).evq = (kind, v0, v1) :: t → (getEng s k).flitq = [] ∨ (getEng s k).tookEvent = false →
        exec (.contextTakeEvent die eng) s =
          .next (strmSettle (startCtx (modEng s k fun e => { e with evq := t, tookEvent := true }) k c kind v0 v1))) ∧
      (∀ f t, (getEng s k).flitq = f :: t → (getEng s k).evq = [] ∨ (getEng s k).tookEvent = true →
        exec (.contextTakeEvent die eng) s = .next (strmSettle (startCtx
          (modEng s k fun e => { e with flitq := t, tookEvent := false }) k c (b2n (origKind f == 1)) f.tag f.value)))) ∧
    (s.ustores.on = true →
      (nextCtx (noteWaits s k) k = none → ∀ a b, exec (.microword die eng a b) s = .next (noteWaits s k)) ∧
      (∀ c t w u, nextCtx (noteWaits s k) k = some c → t = modSeq (noteWaits s k) k (fun q => { q with cur := c, running := true }) →
        w = uWord t k c → u = uNote t k c w →
        (uTrap u k c w = none → exec (.microword die eng .clean .clean) s = .next (uRun u k c w)) ∧
        (∀ cause data, uTrap u k c w = some (cause, data) → exec (.microword die eng .clean .clean) s =
          .next (microTrap u k c cause data))) ∧
      (∀ c t w u, nextCtx (noteWaits s k) k = some c → t = modSeq (noteWaits s k) k (fun q => { q with cur := c, running := true }) →
        w = uWord t k c → u = uNote (report (count t (k / 16) (bCen (k % 16)) rCenStcecnt) (k / 16) (bCen (k % 16)) 0xFF 0x0501
          cCorrected 0x00 0 0 0) k c w →
        exec (.microword die eng .corrected .clean) s = .next ((uTrap u k c w).elim (uRun u k c w) fun x => microTrap u k c x.1 x.2)) ∧
      ((getSeq s k).running = true → (getCtx s k (getSeq s k).cur).busy = true →
        exec (.longrun die eng) s = .next (microTrap s k (getSeq s k).cur 5 0))) ∧
    (∀ c cause data, 
      ((getCtx s k c).trap = false → microTrap s k c cause data = count (modCtx s k c fun x =>
        { x with trap := true, mtpc := x.upc, mtcause := cause, mtdata := data, mdrBad := if cause = 4 then none else x.mdrBad,
                 upc := 0xF00 + 16 * cause }) (k / 16) (bCen (k % 16)) rCenMtcnt) ∧
      ((getCtx s k c).trap = true → microTrap s k c cause data =
        report (modEng s k fun e => { e with out := true }) (k / 16) (bCen (k % 16)) 0xFF 0x0502 cContained 0x07 0 0
          (w64 (c * 2 ^ 16 + (getCtx s k c).mtcause * 2 ^ 8 + cause)))) ∧
    (∀ (ctx : Fin 16) (c : Nat), c = ctx →
      (∀ v, (getCtx s k c).pend = some (.value v) → exec (.memoryReadComplete die eng ctx) s =
        .next (modCtx s k c fun x => { x with mdr := v, pend := none, asleep := false })) ∧
      (∀ pa a, (getCtx s k c).pend = some (.read pa a) → isPoisoned s pa = false → exec (.memoryReadComplete die eng ctx) s =
        .next (modCtx s k c fun x => { x with mdr := peek s pa, pend := none, asleep := false })) ∧
      (∀ pa a, (getCtx s k c).pend = some (.read pa a) → isPoisoned s pa = true → exec (.memoryReadComplete die eng ctx) s =
        .next (modCtx (takeFree s).2 k c fun x =>
          { x with mdr := (takeFree s).1, mdrBad := some (4, w64 a), pend := none, asleep := false })) ∧
      (∀ t i, (getCtx s k c).timer = some (t, i) → exec (.contextTimerExpire die eng ctx) s =
        .next (evPush (modCtx s k c fun x => { x with timer := none, expired := true, asleep := false }) k 5 (w64 i) t)) ∧
      (∀ p status, ((getSeq s k).streams.find? fun p => p.2 == c) = some p → exec (.streamCommandComplete die eng ctx status) s =
        .next (evPush (modCtx (modSeq s k fun q => { q with streams := q.streams.erase p }) k c fun x => { x with asleep := false })
          k 2 (w64 p.1) status)))
/-- The stores of the channel engines (R443, R445, R446, R566). A microword whose store word, or whose nano-word, is uncorrectable stalls and waits in the engine's list; the oldest word of that list is rewritten from the
shadow, of a patched word from its patch record, unless a word of the shadow is poisoned, which costs the engine. `CHN_ULOAD` refuses with an error code, or writes the
stores and the CRCs that it read back; they are in use where those are the CRCs wanted. While it runs a second one is refused and counted. -/
def Obligations.StoresAreLoadedAndRewritten : Prop :=
  ∀ (s : State),
    (∀ (die : DieNo) (eng : EngNo) (k : Nat), k = engKey die eng → (die : Nat) < nDies s.part → engUp s k = true →
      (∀ c nano t, s.ustores.on = true → nextCtx (noteWaits s k) k = some c →
        t = modSeq (noteWaits s k) k (fun q => { q with cur := c, running := true }) →
        exec (.microword die eng .uncorrectable nano) s =
          .next (modSeq t k fun q => { q with rewrite := q.rewrite ++ [(c, false, (getCtx t k c).upc)] }) ∧
        exec (.microword die eng .clean .uncorrectable) s =
          .next (modSeq t k fun q => { q with rewrite := q.rewrite ++ [(c, true, (uWord t k c).nanoAddr)] })) ∧
      ((getSeq s k).rewrite = [] → exec (.storeRewrite die eng) s = .next s) ∧
      (∀ c nano a rest l, (getSeq s k).rewrite = (c, nano, a) :: rest → l = shadowWord s nano a →
        ((l.any fun p => isPoisoned s p) = true → exec (.storeRewrite die eng) s = .next (engineOut s k 0x0501)) ∧
        (∀ t w u, (l.any fun p => isPoisoned s p) = false → t = modSeq (l.foldl (fun s p => unitRead s 0 p 1) s) k (fun q => { q with rewrite := rest }) →
          w = l.map (peek s) →
          u = (if nano then { t.ustores with enano := tset (fun _ => 0) t.ustores.enano a (nanoOf w) }
            else { t.ustores with emicro := tset (fun _ => 0) t.ustores.emicro a (wfld (w.getD 0 0) 23 0) }) →
          exec (.storeRewrite die eng) s = .next (report (count { t with ustores := u } (k / 16) (bCen (k % 16)) rCenStcecnt)
            (k / 16) (bCen (k % 16)) 0xFF 0x0501 cCorrected 0x00 0 0 0)))) ∧
    (regOpen s 0 bChn rChnUload = true → dieLive s 0 = true → ∀ pat,
      (∀ b, StillRuns s 0 bChn rChnUload 0 b →
        exec (.chnUload pat) s = .next (reject (setF b 0 bChn rChnUload 29 29 (b2n pat)) 0 bChn)) ∧
      (∀ b, Starts s 0 bChn rChnUload 0 b →
        (∀ e, loadStores b pat = .error e → exec (.chnUload pat) s = .next { setReg b 0 bChn rChnUload (b2n pat * 2 ^ 29 + e * 2 ^ 26) with
          ustores := { b.ustores with on := b.ustores.on && e == 4 } }) ∧
        (storesIdle b = false → loadStores b pat = .error 4) ∧
        (∀ u want crcs, loadStores b pat = .ok (u, want) → crcs = storeCrcs u →
          (crcs = want → exec (.chnUload pat) s = .next { setReg (crcs.zipIdx.foldl (fun s p => setReg s 0 bChn (rChnUcrc + p.2) p.1) b)
            0 bChn rChnUload (b2n pat * 2 ^ 29 + 0 * 2 ^ 26) with ustores := u }) ∧
          (crcs ≠ want → exec (.chnUload pat) s = .next { setReg (crcs.zipIdx.foldl (fun s p => setReg s 0 bChn (rChnUcrc + p.2) p.1) b)
            0 bChn rChnUload (b2n pat * 2 ^ 29 + 5 * 2 ^ 26) with ustores := { u with on := false } }))))
/-- Turns of the transform engines (R454, R473 to R475, R477, R478, R480 to R482). The scheduler's turn starts once its keys are cached, and its size
comes off the deficits; a key that the chain may not use or that is gone fails the chain; a key that is missing is fetched and counted; a turn takes its input, of which a word that cannot be read ends the exchange, and ends its chain, or waits again with its state saved in a free slot of each of its engines,
or goes on where no save slot is free; an engine that is lost leaves service, and the chains that ran or had saved state on it start again. -/
def Obligations.TransformTurnsComplete : Prop :=
  ∀ (s : State) (die : DieNo) (d : Nat), d = (die : Nat) → d < nDies s.part →
    (dieLive s d = true →
      (∀ t i j fe ws u, t = noEngine s d → chooseTurn t d = (u, some i) → ∀ v, v = modXf u d (fun x => { x with reserved := some i }) →
        ((getXf v d).jobs.find? fun q => q.index == i) = some j → keysBad v d i = none → turnEngines v d j = some (fe, ws) →
        ((∀ p ∈ keyPlaces v d i ws, (cached v d p.1).contains p.2 = true) →
          exec (.transformTurnStart die) s = .next (startTurn v d j fe ws)) ∧
        ((∃ p ∈ keyPlaces v d i ws, (cached v d p.1).contains p.2 = false) → exec (.transformTurnStart die) s = .next v)) ∧
      (∀ t i j u st e, t = noEngine s d → chooseTurn t d = (u, some i) → ∀ v, v = modXf u d (fun x => { x with reserved := some i }) →
        ((getXf v d).jobs.find? fun q => q.index == i) = some j → keysBad v d i = some (st, e) →
        exec (.transformTurnStart die) s = .next (modXf (chainFail v d i st e) d fun x => { x with reserved := none })) ∧
      (∀ t u, t = noEngine s d → chooseTurn t d = (u, none) → exec (.transformTurnStart die) s = .next u) ∧
      (∀ (index : BitVec 24) i j fe ws n, i = index.toNat → ((getXf s d).jobs.find? fun q => q.index == i) = some j →
        j.running = some (fe, ws, n) →
        (entState s i ≠ lActive → exec (.turnEnd die index) s = .next (dropChain s d i)) ∧
        (entState s i = lActive →
          (∀ e, turnWords s (xCtx s d i) i j.done n = .error e →
            exec (.turnEnd die index) s =
              .next (closeWith (cameTo (dropChain s d i) i (turnReach s (xCtx s d i) i j.done n)) i e 0 false)) ∧
          (∀ l t j', turnWords s (xCtx s d i) i j.done n = .ok l → t = turnReads s (xCtx s d i) i j.done n →
            j' = { j with done := j.done + n, running := none, inp := j.inp ++ l } →
            (j.total ≤ j.done + n → exec (.turnEnd die index) s = .next (chainEnd t d j'.index j'.inp)) ∧
            (∀ x, j.done + n < j.total → x = { getXf t d with jobs := (getXf t d).jobs.filter (·.index != j'.index) } →
              (∀ v, canSave x fe ws = some v → exec (.turnEnd die index) s =
                .next (saveState (modXf t d fun _ => { x with jobs := x.jobs ++ [{ j' with saved := some v }] }) d v)) ∧
              (canSave x fe ws = none → exec (.turnEnd die index) s = .next (startTurn (modXf t d fun x =>
                { x with jobs := x.jobs.map fun q => if q.index = j'.index then j' else q }) d j' fe ws)))))) ∧
      (regOpen s d bFrl rFrlPttcmd = true → blkEn s d bFrl = true → ∀ part : PartNo,
        (∀ b, Starts s d bFrl rFrlPttcmd 0 b → exec (.frlPttcmd die part) s =
          .next (ptInvalidate (setF b d bFrl rFrlPttcmd 9 0 part) d .ptt part)) ∧
        (∀ b, StillRuns s d bFrl rFrlPttcmd 0 b → exec (.frlPttcmd die part) s =
          .next (reject (setF b d bFrl rFrlPttcmd 9 0 part) d bFrl)))) ∧
    (∀ (woad : Fin 2) (slot : BitVec 12), (woadUp s d).contains woad.val = true → (vaultSlot s slot.toNat).isSome = true →
      (cached s d woad).contains slot.toNat = false →
      exec (.keyCacheFetch die woad slot) s = .next (cacheKey (count s d bWad rWadKcmiss) d woad slot.toNat)) ∧
    (∀ (eng : Fin 2),
      ((woadUp s d).contains eng.val = true → exec (.xformEngineLoss die true eng) s =
        .next (xformOut (report s d bWad eng 0x0602 cContained 0x07 0 0 0) d true eng)) ∧
      ((furlUp s d).contains eng.val = true → exec (.xformEngineLoss die false eng) s =
        .next (xformOut (report s d bFrl eng 0x0601 cContained 0x07 0 0 0) d false eng))) ∧
    (∀ (t : State) woad e x f, f = (fun v : Option Nat × List Nat => if woad then v.2.contains e else v.1 == some e) →
      x = modXf t d (fun x => { x with
        furlOut := if woad then x.furlOut else e :: x.furlOut, woadOut := if woad then e :: x.woadOut else x.woadOut,
        kcache := if woad then tdel x.kcache e else x.kcache,
        jobs := restartJobs (fun j => (j.running.map fun r => f (r.1, r.2.1)).getD false ||
          (j.saved.map fun v => f (v.1.map (·.1), v.2.map (·.1))).getD false) x.jobs }) →
      xformOut t d woad e = noEngine (evRaise x d (0x300 + 2 * b2n woad + e)) d)
/-- The key vault (R306, R472, R475, R476, R483, R566). A command that does not run yet ends with source 0x304 raised and its result in `ERR`: a slot in use is neither generated, imported nor derived into, a key
without the use is not used for either, a poisoned source or a wrapping that fails is an error of its own, attributes are set on a slot in use alone, and a slot that is cleared, or whose attributes are set, is
forgotten by every cache. An import and a derivation read the words at `KVADDR` as a unit does. A command while another runs is refused and counted. -/
def Obligations.VaultCommandsComplete : Prop :=
  ∀ (s : State), regOpen s 0 bWad rWadKvcmd = true → dieLive s 0 = true → blkEn s 0 bWad = true → ∀ (src dst : BitVec 12) (a b : Nat),
    a = src.toNat → b = dst.toNat →
    (∀ t fields, StillRuns s 0 bWad rWadKvcmd 0 t →
      fields = (fun cmd => setReg t 0 bWad rWadKvcmd (cmd * 2 ^ 27 + getF t 0 bWad rWadKvcmd 26 24 * 2 ^ 24 + a * 2 ^ 12 + b)) →
      exec (.kvGen src dst) s = .next (reject (fields 1) 0 bWad) ∧ exec (.kvImport src dst) s = .next (reject (fields 2) 0 bWad) ∧
      exec (.kvDerive src dst) s = .next (reject (fields 3) 0 bWad) ∧ exec (.kvSetattr src dst) s = .next (reject (fields 4) 0 bWad) ∧
      exec (.kvZero src dst) s = .next (reject (fields 5) 0 bWad)) ∧
    (∀ t, Starts s 0 bWad rWadKvcmd 0 t → ∀ done : Nat → Nat → State → State, (∀ cmd err t, done cmd err t =
        evRaise (setReg t 0 bWad rWadKvcmd (cmd * 2 ^ 27 + err * 2 ^ 24 + a * 2 ^ 12 + b)) 0 0x304) →
      (∀ f, vaultSlot t b = none → f = freeWords 4 t →
        exec (.kvGen src dst) s = .next (done 1 0 (setSlot f.2 b (some (withAttr t (bytesOf f.1)))))) ∧
      (∀ v, vaultSlot t b = some v → exec (.kvGen src dst) s = .next (done 1 1 t)) ∧
      (∀ r, r = unitRead t 0 (baseOf t 0 bWad rWadKvaddrHi) 5 →
        ((vaultSlot r b).isSome = true ∨ vaultSlot r a = none → exec (.kvImport src dst) s = .next (done 2 1 r)) ∧
        (∀ v, vaultSlot r b = none → vaultSlot r a = some v →
          (bitOf v.uses 3 = false → exec (.kvImport src dst) s = .next (done 2 2 r)) ∧
          (bitOf v.uses 3 = true → kvBytes r 5 = none → exec (.kvImport src dst) s = .next (done 2 4 r)) ∧
          (∀ bytes, bitOf v.uses 3 = true → kvBytes r 5 = some bytes →
            (keyUnwrap (aesKeys v.key) bytes = none → exec (.kvImport src dst) s = .next (done 2 3 r)) ∧
            (∀ key, keyUnwrap (aesKeys v.key) bytes = some key →
              exec (.kvImport src dst) s = .next (done 2 0 (setSlot r b (some (withAttr r key)))))))) ∧
      (∀ r, r = unitRead t 0 (baseOf t 0 bWad rWadKvaddrHi) 8 →
        ((vaultSlot r b).isSome = true ∨ vaultSlot r a = none → exec (.kvDerive src dst) s = .next (done 3 1 r)) ∧
        (∀ v, vaultSlot r b = none → vaultSlot r a = some v →
          (bitOf v.uses 4 = false → exec (.kvDerive src dst) s = .next (done 3 2 r)) ∧
          (bitOf v.uses 4 = true → kvBytes r 8 = none → exec (.kvDerive src dst) s = .next (done 3 4 r)) ∧
          (∀ bytes, bitOf v.uses 4 = true → kvBytes r 8 = some bytes →
            exec (.kvDerive src dst) s = .next (done 3 0 (setSlot r b (some (withAttr r (hmac sha256 v.key bytes)))))))) ∧
      (∀ v, vaultSlot t b = some v →
        exec (.kvSetattr src dst) s = .next (done 4 0 (forgetKey (setSlot t b (some (withAttr t v.key))) b))) ∧
      (vaultSlot t b = none → exec (.kvSetattr src dst) s = .next (done 4 1 t)) ∧
      exec (.kvZero src dst) s = .next (done 5 0 (forgetKey (setSlot t b none) b)))
/-- Invalidations of the table caches (R88, R101, R121, R124, R157, R168, R180, R491, R510, R566). Each stores its partition and drops the cached copies
that the units of its die hold of that partition's entry; the progress command reads the entry again, counts an admission that this
closes on die 0, and die 0's re-arms the partition's luff detector. One that is started while it runs, and any command of `SCH_PXTCMD` on die 0 while DESTROY runs, is refused and counted.
Tenant channels (R507, R508, R509, R552). On a part with mailboxes, `GO` of a message that is not outstanding marks it and raises its
source at die 1, `GO` of one that is outstanding is ignored and counted, and an acknowledgement ends it. A ring doorbell of the 7808 raises
the same sources and changes nothing else. A part that has no such register answers with a bus error. -/
def Obligations.TableCommandsAndTenantChannels : Prop :=
  (∀ (s : State) (die : DieNo) (part : PartNo) (d p : Nat) (put : Nat → State → State), d = (die : Nat) → p = (part : Nat) → dieLive s d = true →
    blkEn s d bSch = true → (∀ w t, put w t = setF t d bSch w 9 0 p) →
    (regOpen s d bSch rSchInvcmd = true →
      (∀ b, Starts s d bSch rSchInvcmd 0 b → exec (.schInvPmt die part) s = .next { put rSchInvcmd b with
        pcache := (put rSchInvcmd b).pcache.filter fun c => !(uDie c.unit == d && c.table == .pmt && c.part == p) }) ∧
      (∀ b, StillRuns s d bSch rSchInvcmd 0 b → exec (.schInvPmt die part) s = .next (reject (put rSchInvcmd b) d bSch)) ∧
      (∀ b, Starts s d bSch rSchInvcmd 1 b → exec (.schInvCc die part) s =
        .next ((List.range 32).foldl (fun s g => modSpar s (gspar d g) fun x => { x with ccache := [] }) (put rSchInvcmd b))) ∧
      (∀ b, StillRuns s d bSch rSchInvcmd 1 b → exec (.schInvCc die part) s = .next (reject (put rSchInvcmd b) d bSch))) ∧
    (regOpen s d bSch rSchPstcmd = true →
      (∀ b, Starts s d bSch rSchPstcmd 0 b → exec (.schPstcmd die part) s = .next (ptInvalidate (put rSchPstcmd b) d .pst p)) ∧
      (∀ b, StillRuns s d bSch rSchPstcmd 0 b → exec (.schPstcmd die part) s = .next (reject (put rSchPstcmd b) d bSch))) ∧
    (regOpen s d bSch rSchPptcmd = true →
      (∀ b t u, Starts s d bSch rSchPptcmd 0 b → t = ptFill (ptInvalidate (put rSchPptcmd b) d .ppt p) d .ppt p →
        u = (if d = 0 ∧ admissionClosed b d p = false ∧ admissionClosed t d p = true then pptCount t d p 4 else t) →
        exec (.schPptcmd die part) s = .next (if d = 0 then setLuff u p { getLuff u p with run := 0, armed := true } else u)) ∧
      (∀ b, StillRuns s d bSch rSchPptcmd 0 b → exec (.schPptcmd die part) s = .next (reject (put rSchPptcmd b) d bSch))) ∧
    (∀ v fields, regOpen s d bSch rSchPxtcmd = true → v = destroySettle s →
      fields = (fun t => setReg t d bSch rSchPxtcmd (0 * 2 ^ 28 + pxtErr t d * 2 ^ 25 + p)) →
      (∀ b, d ≠ 0 ∨ destroyingPart v = none → Starts v d bSch rSchPxtcmd 0 b →
        exec (.pxtInv die part) s = .next (ptInvalidate (fields b) d .pxt p)) ∧
      (∀ b, d ≠ 0 ∨ destroyingPart v = none → StillRuns v d bSch rSchPxtcmd 0 b →
        exec (.pxtInv die part) s = .next (reject (fields b) d bSch)) ∧
      (∀ q, d = 0 → destroyingPart v = some q → exec (.pxtInv die part) s = .next (reject (fields v) d bSch)))) ∧
  (∀ (s : State) (part : PartNo) (p : Nat), p = (part : Nat) → dieLive s 0 = true → blkEn s 0 bPrt = true →
    (∀ bell, bell = rPrtMbdb + p →
      (regOpen s 0 bPrt bell = true →
        (bitOf (getReg s 0 bPrt bell) 0 = false →
          exec (.mailboxIgo part) s = .next (evRaise (setF s 0 bPrt bell 0 0 1) 1 (0x400 + p))) ∧
        (bitOf (getReg s 0 bPrt bell) 0 = true → exec (.mailboxIgo part) s = .next (count s 0 bPrt rPrtMbrej)) ∧
        exec (.mailboxIack part) s = .next (setF s 0 bPrt bell 0 0 0) ∧
        (bitOf (getReg s 0 bPrt bell) 1 = false →
          exec (.mailboxOgo part) s = .next (evRaise (setF s 0 bPrt bell 1 1 1) 1 (0x800 + p))) ∧
        (bitOf (getReg s 0 bPrt bell) 1 = true → exec (.mailboxOgo part) s = .next (count s 0 bPrt rPrtMbrej)) ∧
        exec (.mailboxOack part) s = .next (setF s 0 bPrt bell 1 1 0)) ∧
      (implemented s.part 0 bPrt bell = false →
        exec (.mailboxIgo part) s = .next (busCount s (regIdx 0 bPrt bell)) ∧
        exec (.mailboxIack part) s = .next (busCount s (regIdx 0 bPrt bell)) ∧
        exec (.mailboxOgo part) s = .next (busCount s (regIdx 0 bPrt bell)) ∧
        exec (.mailboxOack part) s = .next (busCount s (regIdx 0 bPrt bell)))) ∧
    (regOpen s 0 bPrt (rPrtRingdb + p) = true →
      exec (.ringDoorbell part false) s = .next (evRaise s 1 (0x400 + p)) ∧
      exec (.ringDoorbell part true) s = .next (evRaise s 1 (0x800 + p))) ∧
    (implemented s.part 0 bPrt (rPrtRingdb + p) = false → ∀ out,
      exec (.ringDoorbell part out) s = .next (busCount s (regIdx 0 bPrt (rPrtRingdb + p)))))
/-- CREATE and DESTROY (R180, R306, R494, R498, R510, R566). The check that fails first leaves its code in `ERR`, and nothing else changes but what
the reads of descriptors do at their homes. CREATE reads the descriptors of the range, builds the free list of the range, clears the counts, sets `PSTATE` to LIVE and resets the luff detector. DESTROY sets `PSTATE` in the word that it reads and purges every
frame; it ends once nothing of the partition is left, which shows whenever the command register is used again. A command while DESTROY, or another command, runs is ignored and counted. -/
def Obligations.PartitionsAreCreatedAndDestroyed : Prop :=
  ∀ (s : State) (part : PartNo) (p : Nat) (v : State), p = (part : Nat) → regOpen s 0 bSch rSchPxtcmd = true → dieLive s 0 = true → blkEn s 0 bSch = true →
    v = destroySettle s →
    (∀ b, destroyingPart v = none → Starts v 0 bSch rSchPxtcmd 0 b →
      (∀ e r, e = createErr b p → e ≠ 0 → r = (if e = 3 then (frameRange b p).foldl (fun s f => unitRead s 0 (descAddr s 0 f) 4) b else b) →
        exec (.create part) s = .next (setReg r 0 bSch rSchPxtcmd (1 * 2 ^ 28 + e * 2 ^ 25 + p))) ∧
      (∀ r t a free, createErr b p = 0 → r = (frameRange b p).foldl (fun s f => unitRead s 0 (descAddr s 0 f) 4) b →
        t = setReg r 0 bSch rSchPxtcmd (1 * 2 ^ 28 + 0 * 2 ^ 25 + p) → a = ptAddr t 0 .pxt p →
        free = (frameRange t p).filter (fun f => frState t 0 f == fsFree) →
        exec (.create part) s = .next (setLuff (modHw (store (store t 0 (a + 6) 0) 0 (a + 7) (w64 (2 ^ 62))) p
          fun h => { h with free := free, quar := [] }) p Luff.init)) ∧
      (∀ e, e = destroyErr b p → e ≠ 0 → exec (.destroy part) s = .next (setReg b 0 bSch rSchPxtcmd (2 * 2 ^ 28 + e * 2 ^ 25 + p))) ∧
      (∀ t a u, destroyErr b p = 0 → t = setReg b 0 bSch rSchPxtcmd (2 * 2 ^ 28 + 0 * 2 ^ 25 + p) → a = ptAddr t 0 .pxt p + 7 →
        u = modHw (unitMod (readRange t p) 0 a fun w => wput w 63 62 2) p (fun h => { h with destroying := true }) →
        exec (.destroy part) s = .next (destroySettle ((frameRange u p).foldl (fun s f => destroyFrame s p f) u)))) ∧
    (∀ b q, destroyingPart v = some q ∧ b = v ∨ destroyingPart v = none ∧ StillRuns v 0 bSch rSchPxtcmd 0 b →
      exec (.create part) s = .next (reject (setReg b 0 bSch rSchPxtcmd (1 * 2 ^ 28 + pxtErr b 0 * 2 ^ 25 + p)) 0 bSch) ∧
      exec (.destroy part) s = .next (reject (setReg b 0 bSch rSchPxtcmd (2 * 2 ^ 28 + pxtErr b 0 * 2 ^ 25 + p)) 0 bSch)) ∧
    (∀ e, e = destroyErr s p →
      (ptValid s 0 .pxt p = false → e = 1) ∧
      (ptValid s 0 .pxt p = true → pxtPstate s p ≠ 1 → e = 4) ∧
      (ptValid s 0 .pxt p = true → pxtPstate s p = 1 → e = if pctOk s 0 p && pctWord s 0 p 2 != 0 then 5 else 0)) ∧
    (∀ e, e = createErr s p →
      (ptValid s 0 .pxt p = false → e = 1) ∧
      (ptValid s 0 .pxt p = true → pxtPstate s p ≠ 0 → e = 4) ∧
      (ptValid s 0 .pxt p = true → pxtPstate s p = 0 → trapFrameOk s p = false → e = 2) ∧
      (ptValid s 0 .pxt p = true → pxtPstate s p = 0 → trapFrameOk s p = true → rangeOk s p = false → e = 3))
/-- Retry counters and units under test (R342, R528, R535, R537, R538, R566). A leak takes one from the counter of a PE. A PE whose built-in test
fails, or passes when it has departed before, stays retired; one that passes for the first time fills the lowest empty service slot. A
fenced pair whose test passes serves the lowest core that has none and is held in reset, or waits, and after a second fence it stays out; `MDR_PAIRCMD` starts a core held in
reset, and is rejected for any other and while it runs. The detector of the records is that of the built-in test
(log 75). -/
def Obligations.RetiredUnitsReturnOrStay : Prop :=
  ∀ (s : State),
    (∀ (pe : PeId) k d g p, k = peOf pe → d = peDie k → g = peSpar k → p = peNo k → d < nDies s.part →
      exec (.retryCounterLeak pe) s = .next (modPe s k fun p => { p with leaky := p.leaky - 1 }) ∧
      (dieLive s d = true → peStat s g p = 2 →
        exec (.peBistDone pe false) s = .next (report (setPeStat s g p 3) d (bClu (g % 32)) p 0x0108 cContained 0x07 0 0 0) ∧
        ((getPe s k).departs ≠ 1 → exec (.peBistDone pe true) s = .next (setPeStat s g p 3)) ∧
        (∀ t, (getPe s k).departs = 1 → t = report (setPeStat s g p 1) d (bClu (g % 32)) p 0x0108 cCorrected 0x0D 0 0 0 →
          (∀ slot, emptySlot t g = some slot → exec (.peBistDone pe true) s = .next (fillSlot t g slot p)) ∧
          (emptySlot t g = none → exec (.peBistDone pe true) s = .next t)))) ∧
    (∀ (die : DieNo) d, d = (die : Nat) → d < nDies s.part → dieLive s d = true →
      (∀ (pair : Fin 9) j, j = (pair : Nat) → pairStat s d j = 2 →
        exec (.pairBistDone die pair false) s = .next (report (setPairStat s d j 3) d bSys j 0x0204 cContained 0x07 0 0 0) ∧
        (1 < tget (fun _ => 0) (getDie s d).pairFences j → exec (.pairBistDone die pair true) s = .next (setPairStat s d j 3)) ∧
        (tget (fun _ => 0) (getDie s d).pairFences j ≤ 1 →
          (∀ c, emptyCore s d = some c → exec (.pairBistDone die pair true) s =
            .next (modDie (setPairStat (setPairOf s (8 * d + c) j) d j 0) d fun x => { x with pairReset := x.pairReset ||| 2 ^ c })) ∧
          (emptyCore s d = none → exec (.pairBistDone die pair true) s = .next (setPairStat s d j 1)))) ∧
      (∀ (lcore : Fin 8) c t, regOpen s d bMdr rMdrPaircmd = true → c = (lcore : Nat) →
        (∀ b, StillRuns s d bMdr rMdrPaircmd 0 b → exec (.mdrPaircmd die lcore) s = .next (reject (setF b d bMdr rMdrPaircmd 2 0 c) d bMdr)) ∧
        (∀ b, Starts s d bMdr rMdrPaircmd 0 b → t = setF b d bMdr rMdrPaircmd 2 0 c →
          (bitOf (getDie b d).pairReset c = true → exec (.mdrPaircmd die lcore) s =
            .next (startCore (modDie t d fun x => { x with pairReset := x.pairReset - 2 ^ c }) (8 * d + c))) ∧
          (bitOf (getDie b d).pairReset c = false → exec (.mdrPaircmd die lcore) s =
            .next (reject { t with cmdBusy := tdel b.cmdBusy (cmdKey d bMdr rMdrPaircmd 0) } d bMdr)))))
/-- The fault log, the contact FAULT_N and withdrawals (R513, R522, R523, R540, R541, R546, R547, R567). An acknowledgement marks its record
once, at a withdrawn die too; a die besides die 0 is withdrawn and recorded at die 0, die 0's own loss is FATAL, and `MDR_WDRAW` of die 0 is rejected; a link
that fails is recorded, has both its ends out of service, and costs every die that it cuts off; a register of wrong parity disables its
block and takes a spar out of service; an injection is armed or refused with its error. The contact is low for a pulse, a FATAL fault
or `DRIVE`. An injection names its detector, its unit and its mode by the fields of `MDR_INJCTL` and `MDR_INJTGT` (log 78). -/
def Obligations.FaultsAreLoggedAndContained : Prop :=
  ∀ (s : State),
    (s.pw.aux = true → s.mst.resetN = false → faultN s = (s.pulse || s.fatal || getF s 0 bMdr rMdrFnctl 31 31 == 1)) ∧
    exec .faultNPulseExpire s = .next { s with pulse := false } ∧
    (∀ drive minclass, regOpen s 0 bMdr rMdrFnctl = true → exec (.mdrFnctlWrite drive minclass) s =
      .next (parityWrite (setF (setF s 0 bMdr rMdrFnctl 31 31 (b2n drive)) 0 bMdr rMdrFnctl 1 0 minclass.toNat) 0 bMdr rMdrFnctl)) ∧
    (∀ target : DieNo, regOpen s 0 bMdr rMdrWdraw = true → dieLive s 0 = true → ∀ t, t = setF s 0 bMdr rMdrWdraw 2 0 target →
      ((target : Nat) = 0 → exec (.mdrWdraw target) s = .next (reject t 0 bMdr)) ∧
      ((target : Nat) ≠ 0 → exec (.mdrWdraw target) s = .next (withdrawDie t target))) ∧
    (∀ (die : DieNo) d, d = (die : Nat) → d < nDies s.part →
      (∀ (slot : Fin 1024) t, busBad s (regIdx d bMdr rMdrLogack) true = false → (getDie s d).rstBusy.contains bMdr = false → t = setF s d bMdr rMdrLogack 9 0 slot →
        (∀ r, logAt t d slot = some r → r.ack = false →
          exec (.mdrLogack die slot) s = .next (setLog t d slot (some { r with ack := true }))) ∧
        (∀ r, logAt t d slot = some r → r.ack = true → exec (.mdrLogack die slot) s = .next (reject t d bMdr)) ∧
        (logAt t d slot = none → exec (.mdrLogack die slot) s = .next (reject t d bMdr))) ∧
      (dieLive s d = true →
        (d = 0 → exec (.dieWithdrawal die) s = .next (reportAt0 s 0 bSys 0 0x0F10 cFatal 0x0C 0 (oldestXnum s 0) (w64 (getChan s 0).limit))) ∧
        (d ≠ 0 → exec (.dieWithdrawal die) s = .next (withdrawDie s d)) ∧
        (d ≠ 0 → (getDie s d).withdrawn = false → withdrawDie s d = dieGone (reportAt0 (modDie s d fun x => { x with withdrawn := true })
          d bSys d 0x0F10 cContained 0x0A 0 (oldestXnum s d) (w64 (getChan s d).limit)) d) ∧
        (∀ (link : Fin 2) k p t, k = (link : Nat) → p = linkPeer s d k → t = turnBack (turnBack s d k) p.1 p.2 →
          ((getLink s d k).out = true → exec (.linkFailure die link) s = .next s) ∧
          ((getLink s d k).out = false → (getLink t d k).out = true ∧ (getLink t p.1 p.2).out = true ∧
            exec (.linkFailure die link) s = .next ((List.range (nDies t.part)).foldl (fun u x => if reached u x then u else withdrawDie u x)
              (logDetection t 0 ⟨false, cContained, false, d, bSys, 2 * d + k, 0x0B, 0x0405, 0, timeOf t 0, timeOf t 0, 0, 0, 0, 0, 0⟩)))) ∧
        (∀ (blk : BitVec 8) b, b = blk.toNat → (blkKind b).isSome = true → blkEn s d b = true →
          (mismWords s d b = [] → exec (.configParityCheck die blk) s = .next s) ∧
          (∀ w l lo, mismWords s d b = w :: l → lo = l.foldl min w → exec (.configParityCheck die blk) s =
            .next (parityFault s d b lo ((getDie s d).perr.any fun x => x.word == b * 2 ^ 20 + lo && x.inj)))) ∧
        (∀ b w inj t, t = report (setF (modDie s d fun y => { y with perr := (⟨b * 2 ^ 20 + w, getReg s d b w, inj⟩ :: y.perr.filter fun x => x.word != b * 2 ^ 20 + w) }) d b rBlkCtl 0 0 0) d b 0xFF 0x0F04 cContained 0x07 0 0 (w64 w) inj →
          (blkKind b = some .clu → parityFault s d b w inj = sparOut t (gspar d (b - 0x20))) ∧
          (blkKind b = some .xlt ∨ blkKind b = some .sch ∨ blkKind b = some .hxp ∨ blkKind b = some .umb → parityFault s d b w inj = t)) ∧
        (∀ (value : Csr) v t, regOpen s d bMdr rMdrInjctl = true → v = value.toNat → t = setReg s d bMdr rMdrInjctl (v % 2 ^ 30) →
          (bitOf v 31 = false → exec (.mdrInjctl die value) s = .next t) ∧
          (bitOf v 31 = true → (getDie t d).inj.isSome = true → exec (.mdrInjctl die value) s = .next (reject t d bMdr)) ∧
          (∀ b u e w, bitOf v 31 = true → (getDie t d).inj = none → b = getF t d bMdr rMdrInjtgt 31 24 →
            u = getF t d bMdr rMdrInjtgt 23 16 → e = injErr t d (fld v 15 0) b u (fld v 29 28) → w = setF t d bMdr rMdrInjtgt 1 0 e →
            (e ≠ 0 → exec (.mdrInjctl die value) s = .next w) ∧
            (e = 0 → exec (.mdrInjctl die value) s = .next (modDie w d fun x =>
              { x with inj := some ⟨max 1 (fld v 19 16), b, u, fld v 15 0, fld v 29 28, fld v 27 20⟩ }))))))
/-- A detector's report (R325, R512, R513, R517, R521, R546). One that names no detector, no unit in service, or an injection that is not armed
changes nothing; an armed injection is used up. A corrected word of memory is counted and recorded; words that are lost become
poisoned and are recorded as DEFERRED; a transient error of a PE is tried again; a flit that is lost is DEFERRED and counted; a
fault of a spar or of a channel engine is recorded as CONTAINED and fences it; a fault of the clock multiplier is FATAL; a wire
fault of at most 2 cycles is only counted, and a longer one is recorded under 0x0F01, which fences the engine that it names. -/
def Obligations.DetectionsAreRecordedAndContained : Prop :=
  ∀ (s : State) (r : DetReport) d b u det k, d = (r.die : Nat) → b = r.block.toNat → u = r.unit.toNat → det = r.det.toNat → d < nDies s.part →
    dieUp s d = true → k = unitKind d b u det →
    (detExists s d det b u = false → exec (.faultDetection r) s = .next s) ∧
    (detExists s d det b u = true → unitServes s d b k = false → exec (.faultDetection r) s = .next s) ∧
    (detExists s d det b u = true → unitServes s d b k = true →
      (r.inj = true → ((getDie s d).inj.any fun j => injFits j r) = false → exec (.faultDetection r) s = .next s) ∧
      (∀ t, r.inj = false ∧ t = s ∨ r.inj = true ∧ ((getDie s d).inj.any fun j => injFits j r) = true ∧ t = injUse s d →
        (∀ n : Nat, r.found = .wire n →
          (n = 1 ∨ n = 2 → exec (.faultDetection r) s = .next (count t d bMdr rMdrGlitchcnt)) ∧
          (2 < n → det = 0x0701 ∨ det = 0x0702 ∨ det = 0x0708 ∨ det = 0x070A ∨ det = 0x0807 ∨ det = 0x0F11 →
            exec (.faultDetection r) s = .next (report t d b u 0x0F01 cFatal 0x0C r.addr r.tag r.info r.inj)) ∧
          (∀ e, 2 < n → k = .engine e → exec (.faultDetection r) s =
            .next (report (modEng t e fun x => { x with out := true }) d b u 0x0F01 cContained 0x07 r.addr r.tag r.info r.inj))) ∧
        (det = 0x0311 →
          (r.found = .corrected → exec (.faultDetection r) s =
            .next (report (count t d bMem (rMemCecnt + u)) d b u 0x0311 cCorrected 0x00 r.addr r.tag r.info r.inj)) ∧
          (∀ l, r.found = .words l → exec (.faultDetection r) s =
            .next (report (poisonList (count t d bMem (rMemUecnt + u)) l) d b u 0x0311 cDeferred 0x05 r.addr r.tag r.info r.inj))) ∧
        (r.found = .error →
          (∀ p, k = .pe p → det = 0x0101 → exec (.faultDetection r) s = .next (transient t p 0x0101 0 r.info r.inj)) ∧
          (∀ g, k = .spar g → det = 0x0113 → exec (.faultDetection r) s =
            .next (sparOut (report t d b u 0x0113 cContained 0x07 r.addr r.tag r.info r.inj) g)) ∧
          (∀ e, k = .engine e → det = 0x0503 → exec (.faultDetection r) s =
            .next (report (modEng t e fun x => { x with out := true }) d b u 0x0503 cContained 0x07 r.addr r.tag r.info r.inj)) ∧
          (det = 0x0111 ∨ det = 0x0401 ∨ det = 0x0505 → (∀ p, k ≠ .pe p) → exec (.faultDetection r) s =
            .next (report (countF t d bSch rSchFlitcnt 31 16 1) d b u det cDeferred 0x06 r.addr r.tag r.info r.inj)) ∧
          (det = 0x0708 → (∀ p, k ≠ .pe p) → exec (.faultDetection r) s =
            .next (report (setF t d bClk rClkStat 30 30 0) d b u det cFatal 0x0C r.addr r.tag r.info r.inj)))))
/-- The header of a block (R559, R560, R562, R564, R565, R567, R569). `EN` is set unless a parity mismatch, a reset in progress or a unit out of
service forbids it, and then the written RWD fields come into use and slot 8 of a spar is filled as `TOPSAIL` asks; `EN` is cleared
except in SYS; a write from the open world to a held block is rejected; RST of a disabled
block resets it and RSTBUSY is 1 until the reset is done, RST of an enabled one is rejected; `CLRREJ` clears the count. A write makes the
register's parity bit right again. While RSTBUSY is 1 each is rejected. The header of FUS is read-only, and the open world does not reach
that of DBG. -/
def Obligations.BlockHeaderCommandsComplete : Prop :=
  ∀ (s : State) (die : DieNo) (blk : BitVec 8) (src : CsrSrc) d b, d = (die : Nat) → b = blk.toNat → d < nDies s.part →
    (blkKind b).isSome = true → (getDie s d).withdrawn = false →
    ((getDie s d).rstBusy.contains b = true → ∀ value,
      exec (.blkEnable die blk src) s = .next (reject s d b) ∧ exec (.blkDisable die blk src) s = .next (reject s d b) ∧
      exec (.blkRst die blk value src) s = .next (reject s d b) ∧ exec (.blkClrrej die blk) s = .next (reject s d b) ∧
      exec (.blkResetDone die blk) s = .next (modDie s d fun x => { x with rstBusy := x.rstBusy.filter (· != b) })) ∧
    ((getDie s d).rstBusy.contains b = false →
      (ctlFixed b = false → exec (.blkClrrej die blk) s = .next (setReg s d b rBlkCfgrej 0)) ∧
      (ctlFixed b = true → exec (.blkClrrej die blk) s = .next s) ∧
      (ctlFixed b = true ∨ ctlShut b src = true → ∀ value, exec (.blkEnable die blk src) s = .next s ∧
        exec (.blkDisable die blk src) s = .next s ∧ exec (.blkRst die blk value src) s = .next s) ∧
      (b = bMst → d ≠ 0 → exec (.blkEnable die blk src) s = .next s) ∧
      (ctlFixed b = false → ctlShut b src = false →
      (blkEn s d b = false → ¬(b = bMst ∧ d ≠ 0) →
        (mismWords s d b = [] → unitTaken s d b = false → ∀ t, t = parityWrite (setF (takeRwd s d b) d b rBlkCtl 0 0 1) d b rBlkCtl →
          exec (.blkEnable die blk src) s = .next (if blkKind b = some .clu then topsailSlot t (gspar d (b - 0x20)) else t)) ∧
        (mismWords s d b ≠ [] → exec (.blkEnable die blk src) s = .next (reject s d b)) ∧
        (unitTaken s d b = true → exec (.blkEnable die blk src) s = .next (reject s d b)) ∧
        (∀ value : Csr, value.toNat = 2 → openSrc src = true → getF s d b rBlkCtl 31 31 = 0 → b ≠ bSys →
          blkEn (setF s d b rBlkCtl 0 0 0) d b = false →
          exec (.blkRst die blk value src) s = .next (blkReset (setF s d b rBlkCtl 0 0 0) d b))) ∧
      (blkEn s d b = false → b ≠ bSys → exec (.blkDisable die blk src) s = .next (parityWrite (setF s d b rBlkCtl 0 0 0) d b rBlkCtl)) ∧
      (blkEn s d b = true → (¬(b = bMst ∧ d ≠ 0) → exec (.blkEnable die blk src) s = .next (parityWrite s d b rBlkCtl)) ∧
        (∀ value : Csr, value.toNat = 3 → openSrc src = true → heldFrom s d b src = false →
          exec (.blkRst die blk value src) s = .next (reject s d b)) ∧
        (b = bSys → exec (.blkDisable die blk src) s = .next (reject s d b)) ∧
        (b ≠ bSys → heldFrom s d b src = false → exec (.blkDisable die blk src) s =
          .next (parityWrite (setF s d b rBlkCtl 0 0 0) d b rBlkCtl)) ∧
        (b ≠ bSys → heldFrom s d b src = true → exec (.blkDisable die blk src) s = .next (reject s d b)) ∧
        (∀ value, heldFrom s d b src = true → exec (.blkRst die blk value src) s = .next (reject s d b)))))
/-- Writes of registers (R12, R15, R84, R147, R220, R222, R550, R551, R552, R553, R557, R560, R562). A write from PL2 to a register of a block in service takes
the RW fields, and the RWD fields while the block is disabled, and acts on the W1P bits written as 1; RWD fields written while the
block is enabled are rejected, and those written while it is disabled wait for its next enabling; a clear register clears the
counters of the bits set, and however many rules refuse parts of one write it is counted once; a bit alias writes one bit; a write to a location that does not exist changes nothing but the count of bus
errors and the index of the last one. A command that is a write of a register (`regDo`) meets the same: a bus error, a rejection at a
withdrawn die or at a block in reset, or its effect. -/
def Obligations.RegisterWritesComplete : Prop :=
  ∀ (s : State) (die : DieNo) (blk : BitVec 8) (word : BitVec 20) (value : Csr) d b w v, d = (die : Nat) → b = blk.toNat →
    w = word.toNat → v = value.toNat →
    (d < nDies s.part → implemented s.part d b w = true → (getDie s d).withdrawn = false → (getDie s d).rstBusy.contains b = false →
      w ≠ rBlkCtl → ∀ r t p, rowOf b w = some r → t = takeFields s d b w v (2 ^ 32 - 1) r → p = v &&& r.w1p &&& (2 ^ 32 - 1) →
      ∀ u, u = (if p = 0 then t else countOnce s (pulse t d b w (regStored t d b w ||| p) p .pl2) d b) →
        (isClear b w = true → exec (.counterClear die blk word value) s = .next u) ∧
        (isMark b w = true → exec (.watermarkWrite die blk word value) s = .next u) ∧
        (∀ idx : BitVec 32, idx.toNat = regIdx d b w → exec (.registerWrite idx value .pl2) s = .next u)) ∧
    (∀ r m, m = r.rwd &&& (2 ^ 32 - 1) → m ≠ 0 → r.rw = 0 → mailHeld s d b w = false →
      (blkEn s d b = true → takeFields s d b w v (2 ^ 32 - 1) r = reject s d b) ∧
      (blkEn s d b = false → holdsRwd b w m = true → takeFields s d b w v (2 ^ 32 - 1) r =
        parityWrite (setHeld s d b w (merged (regStored s d b w) v m)) d b w) ∧
      (blkEn s d b = false → holdsRwd b w m = false → takeFields s d b w v (2 ^ 32 - 1) r =
        parityWrite (fieldWrite s d b w (merged (getReg s d b w) v m) m) d b w)) ∧
    (isClear b w = false → exec (.counterClear die blk word value) s = .next s) ∧
    (isMark b w = false → exec (.watermarkWrite die blk word value) s = .next s) ∧
    (∀ (idx : BitVec 32) i, i = idx.toNat → busBad s i true = true →
      exec (.registerWrite idx value .pl2) s = .next (setReg
        (count s (if idxDie i < nDies s.part ∧ (getDie s (idxDie i)).withdrawn = false then idxDie i else 0) bSys rSysBuserrcnt)
        (if idxDie i < nDies s.part ∧ (getDie s (idxDie i)).withdrawn = false then idxDie i else 0) bSys rSysBuserridx i)) ∧
    (∀ (idx : BitVec 32) i, i = idx.toNat → idxAlias i = true → busBad s i true = false →
      exec (.registerWrite idx value .pl2) s =
        .next (regWrite s (idxDie i) (idxBlk i) (fld i 19 5) (v % 2 * 2 ^ fld i 4 0) (2 ^ fld i 4 0) .pl2)) ∧
    (∀ die b w live t,
      (busBad s (regIdx die b w) true = true → regDo s die b w live t = .next (busCount s (regIdx die b w))) ∧
      (busBad s (regIdx die b w) true = false →
        ((getDie s die).withdrawn = true → ¬(b = bMdr ∧ w = rMdrLogack) → regDo s die b w live t = .next (reject s 0 bMdr)) ∧
        ((getDie s die).withdrawn = false → (getDie s die).rstBusy.contains b = true → regDo s die b w live t = .next (reject s die b)) ∧
        (regOpen s die b w = true → regDo s die b w live t = .next (if live = true then t else s))))
/-- The update commands of the Masthead (R566, R597, R600, R605). Each stores its fields, and starts nothing while one still runs. CHECK reads the staged image and keeps its result for one without
error; a slot of the running set is refused with ERR 4, and a slot or state that the command does not accept with ERR 1; ERASE
erases the slot, PROGRAM programs the staged image that was checked and matches the slot, COMMIT and INVAL append a commit record; a flash that fails gives
ERR 3; JREPORT writes the journal's report and changes nothing in it. While a start is under way the Masthead takes none of them. What a
command writes to the flash is its job until the next one (log 121), and where several errors apply they come in the order of log 99. -/
def Obligations.ImageUpdatesFollowTheirChecks : Prop :=
  ∀ (s : State), regOpen s 0 bMst rMstUpdcmd = true →
    (mstTakes s = false → ∀ (slot : BitVec 4) (target : BitVec 3) ok, exec .mstCheck s = .next s ∧ exec (.mstInval slot ok) s = .next s ∧
      exec (.mstErase slot ok) s = .next s ∧ exec (.mstProgram slot ok) s = .next s ∧ exec (.mstCommit slot ok) s = .next s ∧
      exec (.jreport target) s = .next s) ∧
    (mstTakes s = true → ∀ (q : State) (sel : Nat → Nat → Nat → State),
    (∀ cmd die slot, sel cmd die slot = setF (setF (setF q 0 bMst rMstUpdcmd 29 27 cmd) 0 bMst rMstUpdcmd 6 4 die) 0 bMst rMstUpdcmd 3 0 slot) →
    (StillRuns s 0 bMst rMstUpdcmd 0 q → ∀ (slot : BitVec 4) k (target : BitVec 3) ok, k = slot.toNat →
      exec .mstCheck s = .next (reject (sel 1 (updDie s) (updSlot s)) 0 bMst) ∧
      exec (.mstInval slot ok) s = .next (reject (sel 2 (updDie s) k) 0 bMst) ∧
      exec (.mstErase slot ok) s = .next (reject (sel 3 (updDie s) k) 0 bMst) ∧
      exec (.mstProgram slot ok) s = .next (reject (sel 4 (updDie s) k) 0 bMst) ∧
      exec (.mstCommit slot ok) s = .next (reject (sel 5 (updDie s) k) 0 bMst) ∧
      exec (.jreport target) s = .next (reject (sel 6 target.toNat (updSlot s)) 0 bMst)) ∧
    (Starts s 0 bMst rMstUpdcmd 0 q → ∀ run : Nat → Nat → Nat → State,
      (∀ cmd die slot, run cmd die slot = { sel cmd die slot with mst := { (sel cmd die slot).mst with job := none } }) →
      (∀ t u, t = run 1 (updDie s) (updSlot s) → u = { t with mst := { t.mst with checked := none } } →
        (∀ wa, (updWords u).find? (isPoisoned u) = some wa → exec .mstCheck s = .next (updEnd (hwPoison u 0 wa) 1 0)) ∧
        ((updWords u).find? (isPoisoned u) = none → ∀ rd v, rd = memRd t (updAt t) → v = unitRead u 0 (updAt u) (updWords u).length →
          (updLen v < 16384 → exec .mstCheck s = .next (updEnd v 1 0)) ∧
          (16384 ≤ updLen v → imSize rd = updLen v →
            (imCheck v.fusesIn rd (rd 4) = 0 →
              exec .mstCheck s = .next (updEnd { v with mst := { v.mst with checked := some (updAt v, updLen v) } } 0 0)) ∧
            (∀ n, imCheck v.fusesIn rd (rd 4) = n → n ≠ 0 → exec .mstCheck s = .next (updEnd v 2 n))) ∧
          (16384 ≤ updLen v → imSize rd ≠ updLen v → exec .mstCheck s = .next (updEnd v 2 1)))) ∧
      (∀ (slot : BitVec 4) k, k = slot.toNat → ∀ cmd t, t = unprogram (run cmd (updDie s) k) k →
        (slotRuns t k = true → ∀ ok,
          (cmd = 2 → exec (.mstInval slot ok) s = .next (updEnd t 4 0)) ∧ (cmd = 3 → exec (.mstErase slot ok) s = .next (updEnd t 4 0)) ∧
          (cmd = 4 → exec (.mstProgram slot ok) s = .next (updEnd t 4 0)) ∧
          (cmd = 5 → exec (.mstCommit slot ok) s = .next (updEnd t 4 0))) ∧
        (slotRuns t k = false → 10 ≤ k → ∀ ok,
          (cmd = 2 → exec (.mstInval slot ok) s = .next (updEnd t 1 0)) ∧ (cmd = 3 → exec (.mstErase slot ok) s = .next (updEnd t 1 0)) ∧
          (cmd = 4 → exec (.mstProgram slot ok) s = .next (updEnd t 1 0))) ∧
        (slotRuns t k = false → k < 10 →
          (cmd = 2 → exec (.mstInval slot true) s = .next (updEnd (showSlots (commitAppend t k false 0)) 0 0) ∧
            exec (.mstInval slot false) s = .next (updEnd t 3 0)) ∧
          (cmd = 3 → committed t k = true → ∀ ok, exec (.mstErase slot ok) s = .next (updEnd t 1 0)) ∧
          (cmd = 3 → committed t k = false → exec (.mstErase slot true) s = .next (updEnd (flashJob (flErase t (slotAt k) (slotSize k))
              (.erase (slotAt k) (slotSize k) (t.flash.filter fun c => decide (slotAt k ≤ c.1) && decide (c.1 < slotAt k + slotSize k)))) 0 0) ∧
            exec (.mstErase slot false) s = .next (updEnd t 3 0)) ∧
          (cmd = 4 → ∀ rd u, rd = memRd t (updAt t) → u = flProgram (unitRead t 0 (updAt t) (updWords t).length) (slotAt k) (rdBytes rd 0 (updLen t)) → committed t k = false →
            flBlank t (slotAt k) (slotSize k) = true → t.mst.checked = some (updAt t, updLen t) → rd 4 = slotKind k →
            (updWords t).any (isPoisoned t) = false →
            exec (.mstProgram slot true) s = .next (updEnd
              (flashJob { u with mst := { u.mst with programmed := k :: u.mst.programmed } } (.program (slotAt k) (updLen u))) 0 0) ∧
            exec (.mstProgram slot false) s = .next (updEnd t 3 0)) ∧
          (cmd = 4 → committed t k = true ∨ flBlank t (slotAt k) (slotSize k) = false ∨ t.mst.checked ≠ some (updAt t, updLen t) ∨
              memRd t (updAt t) 4 ≠ slotKind k ∨ (updWords t).any (isPoisoned t) = true →
            ∀ ok, exec (.mstProgram slot ok) s = .next (updEnd t 1 0)) ∧
          (cmd = 5 → ∀ had, had = (run cmd (updDie s) k).mst.programmed.contains k →
            (had = true → exec (.mstCommit slot true) s = .next (updEnd (showSlots (commitAppend t k true (imVersion (slotRd t k)))) 0 0) ∧
              exec (.mstCommit slot false) s = .next (updEnd t 3 0)) ∧
            (had = false → ∀ ok, exec (.mstCommit slot ok) s = .next (updEnd t 1 0))))) ∧
      (∀ (target : BitVec 3) d t, d = target.toNat → t = run 6 d (updSlot s) →
        (nDies t.part ≤ d ∨ ldevUp t 0 = false ∨ dieLive t 0 = false → exec (.jreport target) s = .next (updEnd t 1 0)) ∧
        (∀ l, d < nDies t.part → ldevUp t 0 = true → dieLive t 0 = true → l = quietEntries t d →
          exec (.jreport target) s = .next (updEnd (stores t 0 (updAt t) (doubtHeader l ++ l.flatMap doubtWords)) 0 0)))))
/-- The staging pointer and the fuses (R597, R602, R605). A write of `MST_UPDDATA` puts 32 bits at the next staging position; one of
`MST_UPDADDR_LO` takes the pointer back. FUS_GO blows the fuse that was armed with the same target and argument at most 1 ms before and
consumes the arm, and is rejected otherwise; a key index that is revoked stays so, and neither a version floor nor the count of blown
debug-closure fuses falls. While a fuse is programmed no other one is: such a GO is rejected (log 151). The 1 ms of an arm is counted on
TIMEBASE (log 103). -/
def Obligations.StagingAndFusesComplete : Prop :=
  ∀ (s : State), mstUp s = true → regOpen s 0 bMst rMstUpddata = true → regOpen s 0 bMst rMstUpdaddrLo = true →
    regOpen s 0 bFus rFusProg = true →
    (∀ (value : Csr) v, v = value.toNat →
      (∀ wa, wa = updAt s + s.mst.ptr / 2 → ∀ t, t = store s 0 wa
          (if s.mst.ptr % 2 = 0 then wput (peek s wa) 31 0 v else wput (peek s wa) 63 32 v) →
        exec (.mstUpddataWrite value) s = .next { t with mst := { t.mst with ptr := s.mst.ptr + 1 } }) ∧
      (∀ t, t = setReg s 0 bMst rMstUpdaddrLo v →
        exec (.mstUpdaddrLoWrite value) s = .next { t with mst := { t.mst with ptr := 0 } })) ∧
    (∀ (target : BitVec 4) (arg : BitVec 3) x a t, x = target.toNat → a = arg.toNat →
      t = setF (setF s 0 bFus rFusProg 11 8 x) 0 bFus rFusProg 2 0 a →
      exec (.fusArm target arg) s = .next { t with mst := { t.mst with armed := some (x, a, timeOf t 0) } } ∧
      (t.mst.armed = none → exec (.fusGo target arg) s = .next (reject t 0 bFus)) ∧
      (∀ x' a' since, t.mst.armed = some (x', a', since) →
        (x' ≠ x ∨ a' ≠ a ∨ 1000000 < (timeOf t 0 - since).toNat ∨ cmdRuns t 0 bFus rFusProg 0 = true → exec (.fusGo target arg) s = .next (reject t 0 bFus)) ∧
        (∀ u, x' = x → a' = a → (timeOf t 0 - since).toNat ≤ 1000000 → cmdRuns t 0 bFus rFusProg 0 = false → u = { t with mst := { t.mst with armed := none } } →
          (∀ f v, burn u.fuses x a = some f → v = cmdBegin u 0 bFus rFusProg 0 →
            exec (.fusGo target arg) s = .next (setF { v with fuses := f, mst := { u.mst with fuseJob := some u.fuses } } 0 bFus rFusProg 28 28 0) ∧
            u.fuses.mlrev ||| f.mlrev = f.mlrev ∧ u.fuses.ecrev ||| f.ecrev = f.ecrev ∧
            (u.fuses.dbg ≤ 3 → u.fuses.dbg ≤ f.dbg) ∧ ∀ k, k < 5 → u.fuses.svn.getD k 0 ≤ f.svn.getD k 0) ∧
          (burn u.fuses x a = none → exec (.fusGo target arg) s = .next (setF u 0 bFus rFusProg 28 28 1)))))
/-- A failing supply and the sealed-standby domain (R385, R564, R579, R610, R612, R613, R614, R615, R636, R637, R639). After step 14 the first cause brings
the warning into force, before it the start returns to step 5. Loss of VIN48 stops the high-voltage stages, and without an early
warning is recorded as FATAL; held transform blocks are zeroised and recorded before. A tamper cause zeroises the vault. The domain keeps its clock and the vault on VBAT; one that had lost all
power zeroises when AUX or VBAT returns. What a loss of VIN48 leaves of the logs and of memory is log 86, and of a start that it meets log 88. -/
def Obligations.SupplyFailuresAndTamper : Prop :=
  ∀ (s : State),
    (s.pw.aux = true → s.mst.resetN = false →
      (started s = true → s.pw.hv = true → s.pw.warned = false →
        exec (.powerFailWarning .vinLow) s = .next (warn s) ∧
        exec (.powerFailWarning .pfwN) s = .next (warn (evRaise s 0 0xC47)) ∧
        exec (.powerFailWarning .pwrokLow) s = .next (warn { s with mst := { s.mst with pwrok := false } })) ∧
      (started s = false → s.pw.warned = false → exec (.powerFailWarning .pfwN) s = .next (backToFive (evRaise s 0 0xC47)))) ∧
    (s.pw.hv = true → started s = true ∨ s.fatal = true → ∀ lost : State → State, (∀ t, lost t = if t.fatal = true then t else heldAll t) →
      exec (.vin48Loss false) s = .next (stopHv (lost (report s 0 bPwr 0xFF 0x0701 cFatal 0x0C 0 0 0))) ∧
      (s.pw.warned = false → exec (.vin48Loss true) s = .next (stopHv (lost (report s 0 bPwr 0xFF 0x0701 cFatal 0x0C 0 0 0)))) ∧
      (s.pw.warned = true → exec (.vin48Loss true) s = .next (stopHv (lost s)))) ∧
    (s.pw.hv = true → started s = false → s.fatal = false → ∀ early, exec (.vin48Loss early) s = .next (backToFive s)) ∧
    (s.pw.hv = false → ∀ early, exec (.vin48Loss early) s = .next s) ∧
    (∀ cause, s.pw.domainLost = false → cause ≠ .vbatLow ∨ s.pw.aux = false →
      exec (.tamperZeroise cause) s = .next (zeroise s (tamperCode cause))) ∧
    (∀ cause, (zeroise s cause).vault = []) ∧
    (s.pw.aux = true → ∀ vbat t, exec (.auxLoss vbat) s = .next t →
      t.pw.aux = false ∧ t.vault = (if vbat then s.vault else []) ∧ t.csr = keepRegs s standbyReg ∧ t.mem = cxlMem s ∧
      (s.mst.job = none → s.mst.fuseJob = none → t.flash = s.flash ∧ t.fuses = s.fuses)) ∧
    (s.pw.aux = false → exec (.auxLoss false) s = .next { s with vault := [], pw := { s.pw with domainLost := true } } ∧
      (s.pw.domainLost = false → exec (.auxLoss true) s = .next s) ∧
      (∀ f, s.pw.domainLost = true → f = takeFree { s with pw := { s.pw with domainLost := false } } → exec (.auxLoss true) s = .next
        (zeroise (setReg (setReg f.2 0 bPwr rPwrRtcHi (wfld f.1 47 32)) 0 bPwr rPwrRtcLo (wfld f.1 31 0)) 5))) ∧
    (s.pw.aux = true → ∃ t, exec (.auxLoss true) s = .next t) ∧
    (s.pw.aux = false → ∀ t, t = { s with pw := { s.pw with aux := true, domainLost := false } } →
      (s.pw.domainLost = false → exec .auxRestore s = .next t) ∧
      (∀ f, s.pw.domainLost = true → f = takeFree t → exec .auxRestore s = .next
        (zeroise (setReg (setReg f.2 0 bPwr rPwrRtcHi (wfld f.1 47 32)) 0 bPwr rPwrRtcLo (wfld f.1 31 0)) 5))) ∧
    (dieUp s 0 = true →
      (∀ value : Csr, regOpen s 0 bPwr rPwrRtcLo = true → exec (.pwrRtcWrite value) s =
        .next (setReg (setReg s 0 bPwr rPwrRtcHi (s.pw.rtcHeld % 2 ^ 16)) 0 bPwr rPwrRtcLo value.toNat)) ∧
      (regOpen s 0 bPwr rPwrTamper = true → exec .pwrTamperClr s = .next (setF s 0 bPwr rPwrTamper 31 20 0)))
/-- Reef levels and temperature (R355, R616, R617, R621, R622, R623, R624, R626, R627, R628, R646, R663). The effective level follows the
highest of its causes. A change to a slower level switches every die's dividers first and lowers the targets of its rails in the next step; one to a
faster level raises them first, and is abandoned before its switch for a slower one that a warning or a limit asks for; the targets of
VCORE and VSUP are those of the level, each with its rail's offset. The limits rise and fall by one level; THRMALRT_N enters and leaves the alarm, and a core that
watches it diverges whether or not the Masthead works; a thermal trip is FATAL and stops the high-voltage stages; a sensor out of use is
recorded, and a die with fewer than 8 left is lost. -/
def Obligations.ReefLevelsAndTemperature : Prop :=
  ∀ (s : State),
    (s.pw.hv = true → dieUp s 0 = true → ∀ t e (sw : Nat → State) (at' : State → ReefPhase → State) (rl : Nat → State), t = reefTarget s →
      e = getF s 0 bPwr rPwrReef 5 4 → (∀ n, sw n = evRaise (setF (setDividers s n) 0 bPwr rPwrReef 5 4 n) 0 0xC01) →
      (∀ u p, at' u p = { u with pw := { u.pw with reef := p } }) → (∀ n, rl n = (upDies s).foldl
        (fun s d => modDie s d fun x => { x with rails := (List.range 4).map fun r => railBase n r + 25 * offsetOf s d r }) s) →
      (s.pw.reef = .steady →
        (t = e → exec .reefChange s = .next s) ∧
        (t < e → exec .reefChange s = .next (at' (rl t) (.raised t))) ∧
        (e < t → exec .reefChange s = .next (at' (sw t) .lowering))) ∧
      (∀ n, s.pw.reef = .raised n →
        (slowDue s = true → exec .reefChange s = .next (at' (sw t) .lowering)) ∧
        (slowDue s = false → exec .reefChange s = .next (at' (sw n) .steady))) ∧
      (s.pw.reef = .lowering → exec .reefChange s = .next { (upDies s).foldl setRails s with
        pw := { ((upDies s).foldl setRails s).pw with reef := .steady } })) ∧
    (∀ d, setRails s d = modDie s d fun x => { x with
      rails := (List.range 4).map fun r => railBase (getF s 0 bPwr rPwrReef 5 4) r + 25 * offsetOf s d r }) ∧
    (railBase 0 0 = 8500 ∧ railBase 1 0 = 7600 ∧ railBase 2 0 = 7000 ∧ railBase 0 1 = 9000 ∧ railBase 1 1 = 8000 ∧ railBase 2 1 = 7200) ∧
    (regOpen s 0 bPwr rPwrReef = true → dieUp s 0 = true → ∀ req : BitVec 2, exec (.pwrReefWrite req) s = .next
      (parityWrite (setF s 0 bPwr rPwrReef 1 0 req.toNat) 0 bPwr rPwrReef)) ∧
    (s.pw.hv = true → mstUp s = true →
      (∀ l, l = getF s 0 bPwr rPwrReef 7 6 →
        (l = 0 → exec (.thermalLevelStep true) s = .next (enterThermal (setF s 0 bPwr rPwrReef 7 6 1) false)) ∧
        (l = 1 → exec (.thermalLevelStep true) s = .next (setF s 0 bPwr rPwrReef 7 6 2)) ∧
        (2 ≤ l → s.pw.level2 = false →
          exec (.thermalLevelStep true) s = .next (enterThermal { s with pw := { s.pw with level2 := true } } true)) ∧
        (s.pw.level2 = false → l = 0 → exec (.thermalLevelStep false) s = .next s) ∧
        (s.pw.level2 = false → l = 1 → exec (.thermalLevelStep false) s = .next (raiseAll (setF s 0 bPwr rPwrReef 7 6 0) 0xC03)) ∧
        (s.pw.level2 = false → l = 2 → exec (.thermalLevelStep false) s = .next (setF s 0 bPwr rPwrReef 7 6 1))) ∧
      (∀ l, l = getF s 0 bPwr rPwrReef 9 8 →
        exec (.powerLimitStep true) s = .next (setF s 0 bPwr rPwrReef 9 8 (min 2 (l + 1))) ∧
        exec (.powerLimitStep false) s = .next (setF s 0 bPwr rPwrReef 9 8 (l - 1)))) ∧
    (mstUp s = false →
      (s.pw.alarm = false → exec .thrmalrtNAssert s = .next (rawChange { s with pw := { s.pw with alarm := true } } 1)) ∧
      (s.pw.alarm = true → exec .thrmalrtNDeassert s = .next (rawChange { s with pw := { s.pw with alarm := false } } 1))) ∧
    (mstUp s = true →
      (s.pw.alarm = false → exec .thrmalrtNAssert s =
        .next (enterTwo (evRaise (rawChange { s with pw := { s.pw with alarm := true } } 1) 0 0xC40))) ∧
      (s.pw.alarm = true → exec .thrmalrtNDeassert s =
        .next (evRaise (rawChange { s with pw := { s.pw with alarm := false } } 1) 0 0xC41))) ∧
    (∀ (die : DieNo) (sensor : Fin 16) d n, d = (die : Nat) → n = (sensor : Nat) → d < nDies s.part → dieUp s d = true →
      (∀ t, s.pw.hv = true → t = report s d bPwr n 0x070A cFatal 0x0C 0 0 0 →
        exec (.thermtrip die sensor) s = .next (stopHv { t with pw := { t.pw with trip := true } })) ∧
      (∀ t, (getDie s d).sensOut.contains n = false →
        t = report (modDie s d fun x => { x with sensOut := x.sensOut ++ [n] }) d bPwr n 0x070B cCorrected 0x00 0 0 0 →
        ((getDie t d).sensOut.length ≤ 8 → exec (.sensorOutOfUse die sensor) s = .next t) ∧
        (8 < (getDie t d).sensOut.length → exec (.sensorOutOfUse die sensor) s = .next (costDie t d))))
/-- Umber, gating and the TIMEBASE (R546, R566, R578, R619, R629, R630, R631, R632, R633, R635, R637, R639). A sample of every die is kept where its references
read well, and recorded under 0x0711 where one does not or a perturbation is armed; the daily plan raises the offsets to the need of the slowest monitor and never lowers them; a canary that exceeds its
limit, or is armed to, takes one more step of its rail below 24, and then costs its PE or raises the margin cap; the oldest ageing record is appended, and one whose write fails is due again at the next re-plan; a request of `PWR_GATE` is refused with its
error (the errors in the order of log 95) or removes or restores power, and a command that still runs is not started again; every die's TIMEBASE is aligned to die 0. -/
def Obligations.UmberGatingAndTimebase : Prop :=
  ∀ (s : State),
    (s.pw.hv = true → mstUp s = true →
      (∀ reads, exec (.umberSample reads) s =
        .next ((upDies s).foldl (fun s d => sampleDie s d ((reads.getD d []).map (·.toNat))) s)) ∧
      exec .dailyReplan s = .next ((upDies s).foldl
        (fun s d => setF (modDie (replanDie s d) d fun x => { x with samples := [] }) d bUmb rUmbStat 15 8 0) { s with ageDue := s.ageHeld ++ s.ageDue, ageHeld := [] })) ∧
    (∀ d reads t, t = (List.range 64).foldl (fun s m => setF s d bUmb (rUmbMon + m) 15 0 (reads.getD m 0)) s →
      ((∀ m ∈ [61, 62, 63], refGood t d m (reads.getD m 0) = true) → ∀ inj, takeSample s d reads inj =
        countF (modDie t d fun x => { x with samples := x.samples ++ [(List.range 64).map fun m => reads.getD m 0] }) d bUmb rUmbStat 15 8 1) ∧
      (∀ m inj, ([61, 62, 63].find? fun m => !refGood t d m (reads.getD m 0)) = some m →
        takeSample s d reads inj = report t d bUmb m 0x0711 cDeferred 0x00 0 0 0 inj)) ∧
    (∀ d reads, (armed s d 0x0711 bUmb 61 3 = none → sampleDie s d reads = takeSample s d reads false) ∧
      (armed s d 0x0711 bUmb 61 3 ≠ none → sampleDie s d reads = takeSample (injUse s d) d
        ((List.range 64).map fun m => if m = 61 then reads.getD m 0 * 96 / 100 else reads.getD m 0) true)) ∧
    (mstUp s = true → startStep s = 15 → ∀ r l, s.ageDue = r :: l →
      exec (.ageingLogWrite true) s = .next (ageAppend { s with ageDue := l } r) ∧
      exec (.ageingLogWrite false) s = .next
        (report { s with ageDue := l, ageHeld := s.ageHeld ++ [r] } r.die bUmb 0xFF 0x0714 cDeferred 0x00 0 0 0)) ∧
    (s.pw.hv = true → exec .timebaseAlignment s = .next (alignTimes s)) ∧
    (∀ (die : DieNo) d, d = (die : Nat) → d < nDies s.part → dieUp s d = true →
      (∀ reads q t, regOpen s d bUmb rUmbCmd = true → t = setF q d bUmb rUmbCmd 29 28 1 →
        (StillRuns s d bUmb rUmbCmd 0 q → exec (.umbSampleNow die reads) s = .next (reject t d bUmb)) ∧
        (Starts s d bUmb rUmbCmd 0 q → q.pw.hv = true → mstUp q = true →
          exec (.umbSampleNow die reads) s = .next (sampleDie t d (reads.map (·.toNat))))) ∧
      (∀ q t, regOpen s d bUmb rUmbCmd = true → t = setF q d bUmb rUmbCmd 29 28 2 →
        (StillRuns s d bUmb rUmbCmd 0 q → exec (.umbReplanNow die) s = .next (reject t d bUmb)) ∧
        (Starts s d bUmb rUmbCmd 0 q → q.pw.hv = true → mstUp q = true → exec (.umbReplanNow die) s = .next
          (replanDie { t with ageDue := t.ageHeld ++ t.ageDue, ageHeld := [] } d))) ∧
      (∀ place hits, s.pw.hv = true →
        (canaryArmed s d place ≠ none →
          exec (.canaryIntervalEnd die place hits) s = .next (canaryLimit (injUse s d) d 0 true place)) ∧
        (canaryArmed s d place = none → getF s d bUmb rUmbCfg 15 8 < hits →
          exec (.canaryIntervalEnd die place hits) s = .next (canaryLimit s d 0 false place)) ∧
        (canaryArmed s d place = none → hits ≤ getF s d bUmb rUmbCfg 15 8 → exec (.canaryIntervalEnd die place hits) s = .next s)) ∧
      (∀ info inj (j : Fin 9), offsetOf s d 1 < 24 → canaryLimit s d info inj (.pair j) =
        report (evRaise (setOffset s d 1 (offsetOf s d 1 + 1) true) d 0xC07) d bUmb (32 + j) 0x0712 cCorrected 0x00 0 0 info inj) ∧
      (∀ info inj, (∀ j : Fin 9, 24 ≤ offsetOf s d 1 → canaryLimit s d info inj (.pair j) = capRise s d (32 + j) info inj) ∧
        (∀ r : Fin 16, 24 ≤ offsetOf s d 2 → canaryLimit s d info inj (.uncore r) = capRise s d (41 + r) info inj) ∧
        (∀ (n : Fin 32) (p : Fin 9), 24 ≤ offsetOf s d 0 → canaryLimit s d info inj (.pe n p) = marginFail s (peKey (gspar d n) p) info inj)) ∧
      (∀ (blk : BitVec 8) (unit : BitVec 2) src b u q, regOpen s d bPwr rPwrGate = true → b = blk.toNat → u = unit.toNat →
        ∀ ask : Nat → Nat → State, (∀ off e, ask off e = setReg q d bPwr rPwrGate (off * 2 ^ 29 + e * 2 ^ 27 + u * 2 ^ 8 + b)) →
        (StillRuns s d bPwr rPwrGate 0 q →
          exec (.gatePowerOff die blk unit src) s = .next (reject (ask 1 (getF q d bPwr rPwrGate 28 27)) d bPwr) ∧
          exec (.gatePowerOn die blk unit src) s = .next (reject (ask 0 (getF q d bPwr rPwrGate 28 27)) d bPwr)) ∧
        (Starts s d bPwr rPwrGate 0 q → gateTarget b u = false →
          exec (.gatePowerOff die blk unit src) s = .next (ask 1 0) ∧ exec (.gatePowerOn die blk unit src) s = .next (ask 0 0)) ∧
        (Starts s d bPwr rPwrGate 0 q → gateTarget b u = true →
          (gateBusy q d b u = true → exec (.gatePowerOff die blk unit src) s = .next (ask 1 1)) ∧
          (gateBusy q d b u = false → heldFrom q d b src = false →
            exec (.gatePowerOff die blk unit src) s = .next (gateOff (ask 1 0) d b u)) ∧
          (gateBusy q d b u = false → heldFrom q d b src = true →
            exec (.gatePowerOff die blk unit src) s = .next (evRaise (count (ask 1 2) d bPwr rPwrGaterej) d 0xC09)) ∧
          (heldFrom q d b src = false → exec (.gatePowerOn die blk unit src) s = .next (gateOn (ask 0 0) d b u)) ∧
          (heldFrom q d b src = true → exec (.gatePowerOn die blk unit src) s =
            .next (evRaise (count (ask 0 2) d bPwr rPwrGaterej) d 0xC09)))))
/-- The words of the service ports (R591, R607, R651, R652, R653, R654, R655). A frame of 32 edges or more is accepted, a shorter one is discarded and counted, and
an idle clock in a frame discards it at the timeout; a READ or a WRITE whose words are accepted while no access runs starts its
access; `OUT` shows the status word, the read data after RDATA and the port register after PORTRD; PORTCLR clears the port
registers of its mask. An access ends with its result, read or written; one that NOSTART does not perform is denied, and one that nothing
answers ends with a bus error. That `OUT` shows the status word after a discarded word, and that an access to an unpowered die ends at once
as after the 100 µs, is the model's choice (log 115). -/
def Obligations.PortWordsComplete : Prop :=
  ∀ (s : State), mstUp s = true →
    (s.spiDead = false →
      (∀ word, exec (.spiFrame 0 word) s = .next s) ∧
      (∀ n word t, t = give s (.spi (outBits s.spi.out n)) →
        (1 ≤ n → n < 32 → exec (.spiFrame n word) s = .next (discardWord t .spi 0)) ∧
        (n = 32 → exec (.spiFrame n word) s = .next (acceptWord t .spi word)) ∧
        (32 < n → exec (.spiFrame n word) s = .next (acceptWord (portCount t 2) .spi word)) ∧
        (1 ≤ n → n < 32 → exec (.spiIdleTimeout n) s = .next (discardWord { t with spiDead := true } .spi 1)))) ∧
    (∀ t p n, ∃ u, discardWord t p n = evRaise u 0 (discardSrc p) ∧ (getPort u p).frm = true ∧ (getPort u p).want = .command ∧
      (getPort u p).out = statusWord (getPort u p) ∧ portReg u n = satAdd 32 (portReg t n) 1) ∧
    (∀ p, (p = .spi → s.spiDead = false) → (getPort s p).want = .command → (getPort s p).access = none →
      (∀ idx, ∃ t, exec (.read p idx) s = .next t ∧ (getPort t p).access = some (idx, none) ∧ (getPort t p).frm = false ∧
        (getPort t p).want = .command ∧ t.mem = s.mem ∧ t.csr = s.csr) ∧
      (∀ idx value, ∃ t, exec (.write p idx value) s = .next t ∧ (getPort t p).access = some (idx, some value) ∧
        (getPort t p).frm = false ∧ (getPort t p).want = .command ∧ t.mem = s.mem ∧ t.csr = s.csr)) ∧
    ((getPort s .i3c).want = .command →
      (∀ mask : BitVec 8, (getPort s .i3c).access = none → exec (.portclr .i3c mask) s = .next (showStatus (modPort
        { s with portCnt := s.portCnt.filter fun e => !bitOf mask.toNat e.1 } .i3c fun x => { x with picked := false }) .i3c)) ∧
      exec (.poll .i3c) s = .next (showStatus (modPort s .i3c fun x => { x with picked := false }) .i3c) ∧
      exec (.rdata .i3c) s = .next (modPort s .i3c fun x => { x with picked := true, out := x.rdata.getD (statusWord x) }) ∧
      (∀ reg : BitVec 8, exec (.portrd .i3c reg) s =
        .next (modPort s .i3c fun x => { x with picked := true, out := w32 (portReg s reg.toNat) }))) ∧
    (exec (.poll .spi) s = exec (.spiFrame 32 (hostWord 3 0)) s ∧ exec (.rdata .spi) s = exec (.spiFrame 32 (hostWord 4 0)) s ∧
      (∀ reg : BitVec 8, exec (.portrd .spi reg) s = exec (.spiFrame 32 (hostWord 5 reg.toNat)) s) ∧
      ∀ mask : BitVec 8, exec (.portclr .spi mask) s = exec (.spiFrame 32 (hostWord 6 mask.toNat)) s) ∧
    (∀ p ended, (getPort s p).access = none → exec (.portAccessEnd p ended) s = .next s) ∧
    (∀ p idx data, (getPort s p).access = some (idx, data) → noStartShut s (portSrc p) idx.toNat data.isSome = true → ∀ ended,
      exec (.portAccessEnd p ended) s = .next (endAccess s p 2 none)) ∧
    (∀ p idx data, (getPort s p).access = some (idx, data) → noStartShut s (portSrc p) idx.toNat data.isSome = false →
      exec (.portAccessEnd p true) s = .next (endAccess s p 1 none) ∧
      (noAnswer s idx.toNat = true → exec (.portAccessEnd p false) s = .next (endAccess s p 1 none)) ∧
      (noAnswer s idx.toNat = false →
        (data = none → ∀ r, r = csrRead s (portSrc p) idx.toNat →
          exec (.portAccessEnd p false) s = .next (endAccess r.2.2 p r.1 (if r.1 = 0 then some (w32 r.2.1) else none))) ∧
        (∀ v, data = some v → ∀ r, r = csrWrite s (portSrc p) idx.toNat v.toNat →
          exec (.portAccessEnd p false) s = .next (endAccess r.2 p r.1 none))))
/-- The I3C port, the test access port and the Ethernet contacts (R391, R406, R603, R656, R657, R658, R659, R660, R662). A private write is taken word
by word and a private read returns `OUT`, and is taken as a POLL word (log 116); the common command codes act, under the numbers of log 17,
and any other is a protocol error; an in-band interrupt is sent for the first waiting cause unless it loses the arbitration of the address
header, and a NACKed one waits to be sent again (log 117); the port takes the controller role and hands it over on request. IDCODE
shifts the identification and BYPASS one bit, and a boundary scan shifts free levels of the contacts, which the model does not hold (logs
118, 152); the link of a sub-port that the width of the port's lanes leaves out does not change; a debug instruction is refused while debug
access is open, since the spec gives none an effect (log 118). -/
def Obligations.SerialContactsComplete : Prop :=
  ∀ (s : State),
    (mstUp s = true →
      (∀ b0 b1 b2 b3, exec (.i3cPrivateWrite [b0, b1, b2, b3]) s = .next (acceptWord s .i3c (beWord [b0, b1, b2, b3])) ∧
        exec (.i3cPrivateWrite [b0, b1]) s = .next (discardWord s .i3c 4)) ∧
      exec .i3cPrivateRead s = .next (acceptWord (give s (.i3c (msBytes 4 s.i3cPort.out.toNat))) .i3c (w32 (3 * 2 ^ 28 + 0))) ∧
      (∀ data : List Byte, (data.head?.map (·.getLsbD 0)) = some true →
        exec (.i3cCcc 0x00 data) s = .next { s with i3c := { s.i3c with enabled := true } } ∧
        exec (.i3cCcc 0x01 data) s = .next { s with i3c := { s.i3c with enabled := false } }) ∧
      (∀ data, exec (.i3cCcc 0x06 data) s = .next { s with i3c := { s.i3c with dynamic := none } } ∧
        exec (.i3cCcc 0x8D data) s = .next (give s (.i3c (msBytes 6 (i3cPid s)))) ∧
        ((data.head?.map (·.getLsbD 0)) = some true →
          exec (.i3cCcc 0x80 data) s = .next { s with i3c := { s.i3c with enabled := true } } ∧
          exec (.i3cCcc 0x81 data) s = .next { s with i3c := { s.i3c with enabled := false } }) ∧
        (∀ b : Byte, data.head? = some b → ∀ t, t = { s with i3c := { s.i3c with dynamic := some (b.toNat / 2) } } →
          (s.i3c.dynamic.isSome = true → exec (.i3cCcc 0x88 data) s = .next t)) ∧
        (∀ (b c : Byte) l, s.i3c.dynamic = none →
          (b.toNat / 2 = 0x2C + s.straps.toNat % 4 → exec (.i3cCcc 0x87 (b :: c :: l)) s =
            .next { s with i3c := { s.i3c with dynamic := some (c.toNat / 2) } }) ∧
          (b.toNat / 2 ≠ 0x2C + s.straps.toNat % 4 → exec (.i3cCcc 0x87 (b :: c :: l)) s = .next s)) ∧
        ∀ code : BitVec 8, code.toNat ∉ [0x00, 0x01, 0x06, 0x07, 0x80, 0x81, 0x87, 0x88, 0x8B, 0x8C, 0x8D, 0x8E, 0x8F, 0x90, 0x91] →
          exec (.i3cCcc code data) s = .next (evRaise (portCount s 4) 0 0xC43)) ∧
      (∀ x : IbiStart, (x.rival = none → ibiWins s x = true) ∧
        (∀ a rnw dyn, x.rival = some (a, rnw) → s.i3c.dynamic = some dyn → ibiWins s x = decide (dyn < a.toNat)) ∧
        (ibiWins s x = false → exec (.ibi x) s = .next s ∧ exec (.ibiRetry x) s = .next s)) ∧
      (s.i3c.enabled = true → s.i3c.dynamic.isSome = true → s.i3c.role = false → ∀ b t x, t = give s (.ibi b) → ibiWins s x = true →
        (firstCause s = some b → s.i3c.again = none →
          (x.acked = true → exec (.ibi x) s =
            .next { t with i3c := { t.i3c with causes := t.i3c.causes - (t.i3c.causes &&& 2 ^ b), again := none, nacks := 0 } }) ∧
          (x.acked = false → t.i3c.nacks < 8 → exec (.ibi x) s =
            .next (i3cError { t with i3c := { t.i3c with again := some b, nacks := t.i3c.nacks + 1 } }))) ∧
        (s.i3c.again = some b →
          (x.acked = true → exec (.ibiRetry x) s =
            .next { t with i3c := { t.i3c with causes := t.i3c.causes - (t.i3c.causes &&& 2 ^ b), again := none, nacks := 0 } }) ∧
          (x.acked = false → 8 ≤ t.i3c.nacks → exec (.ibiRetry x) s = .next (i3cError
            { t with i3c := { t.i3c with causes := t.i3c.causes - (t.i3c.causes &&& 2 ^ b), again := none, nacks := 0 } })))) ∧
      (s.i3c.role = false → ∀ sent accepted, ∃ t, exec (.getacccr sent accepted) s = .next t ∧ t.i3c.role = !accepted) ∧
      (s.i3c.role = true → exec .controllerRoleRequest s = .next (evRaise { s with i3c := { s.i3c with role := false } } 0 0xC45))) ∧
    (s.pw.hv = true → ∀ (die : DieNo) (sub : Fin 4) up d n, d = (die : Nat) → n = (sub : Nat) → d < nDies s.part → dieLive s d = true →
      (n < subPorts s d → exec (.ethernetLinkChange die sub up) s = .next (setF s d bHxp rHxpPort n n (b2n up))) ∧
      (subPorts s d ≤ n → exec (.ethernetLinkChange die sub up) s = .next s)) ∧
    (s.pw.aux = true → ∀ ins : TapIns → State, (∀ i, ins i = { s with tap := { s.tap with ir := i } }) →
      exec (.testAccessPortOperation .idcode) s = .next (give (ins .idcode) (.tdo ((List.range 32).map fun k => (idcode s.part).getLsbD k))) ∧
      exec (.testAccessPortOperation .trst) s = .next (ins .idcode) ∧
      (∀ b l, exec (.testAccessPortOperation (.bypass (b :: l))) s = .next (give (ins .bypass) (.tdo (false :: (b :: l).dropLast)))) ∧
      (∀ l, exec (.testAccessPortOperation (.samplePreload l)) s = .next (tapScan (ins .samplePreload) l) ∧
        exec (.testAccessPortOperation (.extest l)) s = .next (tapScan (ins .extest) l)) ∧
      (∀ l t, t = tapScan s l → t.mem = s.mem ∧ t.csr = s.csr ∧ t.tap.ir = s.tap.ir) ∧
      (∀ b l, (s.tap.ir = .bypass → exec (.testAccessPortOperation (.scan (b :: l))) s = .next (give s (.tdo (false :: (b :: l).dropLast)))) ∧
        (s.tap.ir = .samplePreload ∨ s.tap.ir = .extest → exec (.testAccessPortOperation (.scan (b :: l))) s = .next (tapScan s (b :: l)))) ∧
      (∀ code l, debugRuns s = true → exec (.testAccessPortOperation (.debug code l)) s = .refused .debugUnit) ∧
      (∀ code b l, debugRuns s = false →
        exec (.testAccessPortOperation (.debug code (b :: l))) s = .next (give (ins (.debug code)) (.tdo (false :: (b :: l).dropLast)))) ∧
      (∀ on, debugClosed s = true → exec (.testAccessPortOperation (.halt on)) s = .next s) ∧
      (∀ on, debugClosed s = false → s.rawHalt ≠ on →
        exec (.testAccessPortOperation (.halt on)) s = .next (rawChange { s with rawHalt := on } 0)))
/-- Reset and the start of the part (R385, R386, R523, R549, R563, R577, R579, R580, R590, R609, R612, R641). RESET_N resets every block and
keeps the logs, the flash, the fuses and the port registers, and memory as well (log 87); its release starts steps 1 to 4, which end at step 5;
PWROK passes step 5, unless PWROK or PFW_N is lost or a FATAL fault comes before step 14; a power return without PWROK starts again from a
reset; the replay of the journals ends step 14 and releases the supervisors at FULL. -/
def Obligations.StartAndResetComplete : Prop :=
  ∀ (s : State),
    (s.pw.aux = true → s.mst.resetN = false → ∃ t, exec .resetNAssert s = .next t ∧ t = resetPart s ∧
      (s.mst.job = none → s.mst.fuseJob = none → t.flash = s.flash ∧ t.fuses = s.fuses) ∧ t.portCnt = s.portCnt ∧ t.vault = s.vault ∧ t.mem = s.mem ∧ t.sups = [] ∧ t.pes = [] ∧ t.tlb = [] ∧
      t.caches = [] ∧ t.csr = keepRegs s (fun i => standbyReg i || logReg i) ∧
      t.pw.faultHeld = (s.fatal || s.pw.faultHeld)) ∧
    (s.pw.aux = false → exec .resetNAssert s = .next { s with mst := { s.mst with resetN := true } }) ∧
    (s.pw.aux = true → s.mst.resetN = true → ∀ straps t p,
      t = readFuses { s with straps := straps, mst := { s.mst with resetN := false }, pw := { s.pw with faultHeld := false } } →
      p = pickMhf 11 (headerFaults t) →
      exec (.resetNDeassert true straps) s = .next (setStep (showChoice p.2 p.1 true) 5) ∧
      exec (.resetNDeassert false straps) s = .next (setStep (noFlash t) 5)) ∧
    (∀ t inputs, t = { s with mst := { s.mst with pwrok := true } } → mstUp t = true → startStep t = 5 → t.fatal = false →
      (inputs.ends = none → exec (.pwrokAssert inputs) s = .next (bringUp t inputs)) ∧
      (∀ n u, inputs.ends = some (.power n) → u = atStep t inputs (6 + n) →
        exec (.pwrokAssert inputs) s = .next (backToFive { u with mst := { u.mst with pwrok := false } })) ∧
      (∀ n r u, inputs.ends = some (.fault n r) → u = detection (atStep t inputs (6 + n)) r →
        (u.fatal = true → exec (.pwrokAssert inputs) s = .next u) ∧
        (u.fatal = false → exec (.pwrokAssert inputs) s = .next (bringUp t inputs)))) ∧
    (∀ flashOk, s.pw.warned = true → started s = true → s.fatal = false → mstUp s = true → s.mst.pwrok = false →
      exec (.powerReturnReset flashOk) s = .next (startUp (resetPart s) flashOk s.straps)) ∧
    (startStep s = 14 → s.pw.hv = true → s.pw.warned = false → dieLive s 0 = true → ∀ redrives t, journalReplay s redrives = some t →
      exec (.journalReplay redrives) s = .next (releaseCores t 1))
/-- What a start leaves in service (R580, R590, R591, R592). Without the minimum service set the start ends in NOSTART, recorded as
FATAL; without a consistent set that passes it ends with the Masthead only; with one the level is FULL where die 0 passes every test and
bare poles where it does not. At FULL each die that fails a test is left out of service and recorded, in bare poles every die but die 0. -/
def Obligations.StartLevelsFollowTheTests : Prop :=
  ∀ (s : State) (i : StartInputs) t p level, t = testDies (raiseRails s) i →
    p = (if t.mst.flashUp then pickSet i 11 t else (none, t)) →
    ∀ u, u = mapDies (if t.mst.flashUp then showChoice p.2 p.1 false else t) i → level = startedLevel u i p.1.isSome →
    (minimumMet u i = false → bringUp s i = setLevel (setStep (report u 0 bMst 0xFF 0x0807 cFatal 0x0C 0 0 0) 11) 4) ∧
    (minimumMet u i = true → p.1 = none → bringUp s i = setLevel (setStep (leaveOut u i 3) 11) 3) ∧
    (minimumMet u i = true → p.1.isSome = true →
      (level = 1 ↔ zeroPasses u i = true) ∧ (level = 2 ↔ zeroPasses u i = false) ∧
      (∀ q, q = configLoop i 11 (leaveOut u i level) →
        (∀ x, q.1 = some x → bringUp s i = finishStart (showChoice q.2 (some x) false) i x level) ∧
        (q.1 = none → bringUp s i = bareNoSet (showChoice q.2 none false) i)))
end

