-- ==== Sys2Proof/Laws/Bits.lean ====
section
/-! SUPPORT. The laws of bit fields: what a field reads as after a field was put, bit by bit. -/

namespace Sys2Proof.Machine

theorem putFld_eq (x hi lo v : Nat) :
    putFld x hi lo v = x % 2 ^ lo + 2 ^ lo * (v % 2 ^ (hi + 1 - lo) + 2 ^ (hi + 1 - lo) * (x / 2 ^ lo / 2 ^ (hi + 1 - lo))) := by
  unfold putFld fld
  generalize 2 ^ (hi + 1 - lo) = B
  generalize 2 ^ lo = A
  have h1 := Nat.div_add_mod x A
  have h2 := Nat.div_add_mod (x / A) B
  generalize x % A = r at *
  generalize v % B = u at *
  generalize x / A / B = q at *
  generalize x / A % B = f at *
  generalize x / A = y at *
  subst h2; subst h1
  have : A * (B * q + f) + r - f * A = A * B * q + r := by
    have : A * (B * q + f) + r = A * B * q + r + f * A := by grind
    omega
  rw [this]; grind

/-- A field that was put reads as its value. -/
theorem fld_putFld_self (x hi lo v : Nat) : fld (putFld x hi lo v) hi lo = v % 2 ^ (hi + 1 - lo) := by
  rw [putFld_eq]; unfold fld
  have hA : 0 < 2 ^ lo := Nat.two_pow_pos _
  rw [Nat.add_mul_div_left _ _ hA, Nat.div_eq_of_lt (Nat.mod_lt _ hA), Nat.zero_add, Nat.add_mul_mod_self_left, Nat.mod_mod]

theorem testBit_fld (x hi lo i : Nat) : (fld x hi lo).testBit i = (decide (i < hi + 1 - lo) && x.testBit (i + lo)) := by
  unfold fld
  rw [Nat.testBit_mod_two_pow, Nat.testBit_div_two_pow]

theorem testBit_putFld (x hi lo v i : Nat) (h : lo ≤ hi) :
    (putFld x hi lo v).testBit i = if lo ≤ i ∧ i ≤ hi then v.testBit (i - lo) else x.testBit i := by
  rw [putFld_eq, Nat.add_comm, Nat.testBit_two_pow_mul_add _ (Nat.mod_lt _ (Nat.two_pow_pos _))]
  by_cases h1 : i < lo
  · rw [if_pos h1, if_neg (by omega), Nat.testBit_mod_two_pow]; simp [h1]
  · rw [if_neg h1, Nat.add_comm, Nat.testBit_two_pow_mul_add _ (Nat.mod_lt _ (Nat.two_pow_pos _))]
    by_cases h2 : i ≤ hi
    · rw [if_pos (by omega), if_pos (by omega), Nat.testBit_mod_two_pow]; simp; omega
    · rw [if_neg (by omega), if_neg (by omega), Nat.testBit_div_two_pow, Nat.testBit_div_two_pow]
      congr 1; omega

theorem bitOf_eq (x i : Nat) : bitOf x i = x.testBit i := by
  unfold bitOf
  rw [Nat.testBit_eq_decide_div_mod_eq]
  cases h : decide (x / 2 ^ i % 2 = 1) <;> simp_all

/-- A field of a value read back from a field that was put elsewhere. -/
theorem fld_putFld_ne (x hi lo v hi' lo' : Nat) (h : lo ≤ hi) (hd : hi' < lo ∨ hi < lo') :
    fld (putFld x hi lo v) hi' lo' = fld x hi' lo' := by
  apply Nat.eq_of_testBit_eq
  intro i
  rw [testBit_fld, testBit_fld]
  by_cases h1 : i < hi' + 1 - lo'
  · rw [testBit_putFld _ _ _ _ _ h, if_neg (by omega)]
  · simp [h1]

/-- A field put into an `n`-bit value keeps it one. -/
theorem putFld_lt {x hi lo n : Nat} (v : Nat) (hx : x < 2 ^ n) (h : hi < n) (hl : lo ≤ hi) : putFld x hi lo v < 2 ^ n := by
  apply Nat.lt_pow_two_of_testBit
  intro i hi'
  rw [testBit_putFld _ _ _ _ _ hl, if_neg (by omega)]
  exact Nat.testBit_lt_two_pow (Nat.lt_of_lt_of_le hx (Nat.pow_le_pow_right (by decide) hi'))

theorem fld_mod (x hi lo n : Nat) (h : hi < n) : fld (x % 2 ^ n) hi lo = fld x hi lo := by
  apply Nat.eq_of_testBit_eq
  intro i
  rw [testBit_fld, testBit_fld, Nat.testBit_mod_two_pow]
  by_cases h1 : i < hi + 1 - lo <;> simp [h1]; omega

theorem toNat_w64 (n : Nat) : (w64 n).toNat = n % 2 ^ 64 := by unfold w64; exact BitVec.toNat_ofNat n 64

theorem wput_toNat (w : Word) (hi lo v : Nat) (h : hi < 64) (hl : lo ≤ hi) : (wput w hi lo v).toNat = putFld w.toNat hi lo v := by
  unfold wput
  rw [toNat_w64, Nat.mod_eq_of_lt (putFld_lt v w.isLt h hl)]

/-- A field of a word that was put reads as its value. -/
theorem wfld_wput_self (w : Word) (hi lo v : Nat) (h : hi < 64) (hl : lo ≤ hi) :
    wfld (wput w hi lo v) hi lo = v % 2 ^ (hi + 1 - lo) := by
  unfold wfld; rw [wput_toNat _ _ _ _ h hl, fld_putFld_self]

/-- A field of a word other than the one put reads as before. -/
theorem wfld_wput_ne (w : Word) (hi lo v hi' lo' : Nat) (h : hi < 64) (hl : lo ≤ hi) (hd : hi' < lo ∨ hi < lo') :
    wfld (wput w hi lo v) hi' lo' = wfld w hi' lo' := by
  unfold wfld; rw [wput_toNat _ _ _ _ h hl, fld_putFld_ne _ _ _ _ _ _ hl hd]

theorem wbit_wput_self (w : Word) (i v : Nat) (h : i < 64) : wbit (wput w i i v) i = v.testBit 0 := by
  unfold wbit; rw [wput_toNat _ _ _ _ h (Nat.le_refl _), bitOf_eq, testBit_putFld _ _ _ _ _ (Nat.le_refl _)]; simp

theorem wbit_wput_ne (w : Word) (hi lo v i : Nat) (h : hi < 64) (hl : lo ≤ hi) (hd : i < lo ∨ hi < i) :
    wbit (wput w hi lo v) i = wbit w i := by
  unfold wbit; rw [wput_toNat _ _ _ _ h hl, bitOf_eq, bitOf_eq, testBit_putFld _ _ _ _ _ hl, if_neg (by omega)]

theorem wfld_w64 (n hi lo : Nat) (h : hi < 64) : wfld (w64 n) hi lo = fld n hi lo := by
  unfold wfld; rw [toNat_w64, fld_mod _ _ _ _ h]

theorem fld_zero (n hi : Nat) : fld n hi 0 = n % 2 ^ (hi + 1) := by unfold fld; simp

end Sys2Proof.Machine
end

