-- ==== Sys2Proof/Laws/Tab.lean ====
section
/-! SUPPORT. The laws of sparse tables: what a key reads as after a write, and that every write keeps the canonical form. -/

namespace Sys2Proof.Machine

variable {α : Type}

@[simp] theorem tget_nil (d : Nat → α) (k : Nat) : tget d [] k = d k := rfl

theorem tget_tins (d : Nat → α) (t : Tab α) (k : Nat) (v : α) (i : Nat) :
    tget d (tins t k v) i = if k = i then v else tget d t i := by
  induction t with
  | nil => simp [tins, tget]
  | cons p t ih =>
    obtain ⟨j, u⟩ := p
    unfold tins
    split
    · simp [tget]
    · split
      · rename_i h; subst h; by_cases h : j = i <;> simp [tget, h]
      · rename_i h; by_cases hj : j = i
        · have : k ≠ i := by omega
          simp [tget, hj, this]
        · simp [tget, hj, ih]

theorem tget_tdel (d : Nat → α) (t : Tab α) (k i : Nat) : tget d (tdel t k) i = if k = i then d i else tget d t i := by
  induction t with
  | nil => simp [tdel]
  | cons p t ih =>
    obtain ⟨j, u⟩ := p
    unfold tdel
    split
    · rename_i hj; subst hj; rw [ih]; by_cases h : j = i <;> simp [tget, h]
    · rename_i hj; by_cases hi : j = i
      · subst hi; simp [tget, Ne.symm hj]
      · simp [tget, hi, ih]

theorem tset_eq [DecidableEq α] (d : Nat → α) (t : Tab α) (k : Nat) (v : α) :
    tset d t k v = if v = d k then tdel t k else tins t k v := by
  cases t <;> rfl

/-- What every key reads as after a write. -/
theorem tget_tset [DecidableEq α] (d : Nat → α) (t : Tab α) (k i : Nat) (v : α) :
    tget d (tset d t k v) i = if k = i then v else tget d t i := by
  rw [tset_eq]; split
  · rename_i hv; rw [tget_tdel]; by_cases h : k = i <;> simp [h, hv]
  · exact tget_tins d t k v i

/-- A key that was not written reads as before. -/
theorem tget_tset_ne [DecidableEq α] (d : Nat → α) (t : Tab α) (k i : Nat) (v : α) (h : k ≠ i) :
    tget d (tset d t k v) i = tget d t i := by
  simp [tget_tset, h]

/-- The written key reads as the value written. -/
@[simp] theorem tget_tset_self [DecidableEq α] (d : Nat → α) (t : Tab α) (k : Nat) (v : α) : tget d (tset d t k v) k = v := by
  simp [tget_tset]

/-- What every key reads as after a change by a function. -/
theorem tget_tmod [DecidableEq α] (d : Nat → α) (t : Tab α) (k i : Nat) (f : α → α) :
    tget d (tmod d t k f) i = if k = i then f (tget d t i) else tget d t i := by
  unfold tmod; rw [tget_tset]; by_cases h : k = i <;> simp [h]

@[simp] theorem tget_tmod_self [DecidableEq α] (d : Nat → α) (t : Tab α) (k : Nat) (f : α → α) :
    tget d (tmod d t k f) k = f (tget d t k) := by
  simp [tget_tmod]

theorem tget_tmod_ne [DecidableEq α] (d : Nat → α) (t : Tab α) (k i : Nat) (f : α → α) (h : k ≠ i) :
    tget d (tmod d t k f) i = tget d t i := by
  simp [tget_tmod, h]

theorem tabWfFrom_mono [DecidableEq α] (d : Nat → α) (lo lo' : Nat) (t : Tab α) (h : tabWfFrom d lo t = true) (hl : lo' ≤ lo) :
    tabWfFrom d lo' t = true := by
  cases t with
  | nil => rfl
  | cons p t => obtain ⟨j, v⟩ := p; simp [tabWfFrom] at h ⊢; exact ⟨⟨by omega, h.1.2⟩, h.2⟩

theorem tins_wf [DecidableEq α] (d : Nat → α) (t : Tab α) (k lo : Nat) (v : α) (h : tabWfFrom d lo t = true) (hk : lo ≤ k) (hv : v ≠ d k) :
    tabWfFrom d lo (tins t k v) = true := by
  induction t generalizing lo with
  | nil => simp [tins, tabWfFrom, hk, hv]
  | cons p t ih =>
    obtain ⟨j, u⟩ := p
    have h' := h
    simp [tabWfFrom] at h
    unfold tins
    split
    · rename_i hlt
      simp [tabWfFrom, hk, hv, h.1.2, h.2]; omega
    · split
      · rename_i hj; subst hj; simp [tabWfFrom, hk, hv, h.2]
      · simp [tabWfFrom, h.1.1, h.1.2]; exact ih (j + 1) h.2 (by omega)

theorem tdel_wf [DecidableEq α] (d : Nat → α) (t : Tab α) (k lo : Nat) (h : tabWfFrom d lo t = true) :
    tabWfFrom d lo (tdel t k) = true := by
  induction t generalizing lo with
  | nil => rfl
  | cons p t ih =>
    obtain ⟨j, u⟩ := p
    simp [tabWfFrom] at h
    unfold tdel
    split
    · exact ih lo (tabWfFrom_mono d (j + 1) lo t h.2 (by omega))
    · simp [tabWfFrom, h.1.1, h.1.2]; exact ih (j + 1) h.2

/-- A write keeps the canonical form. -/
theorem tset_wf [DecidableEq α] (d : Nat → α) (t : Tab α) (k : Nat) (v : α) (h : tabWf d t = true) : tabWf d (tset d t k v) = true := by
  rw [tset_eq]; split
  · exact tdel_wf d t k 0 h
  · rename_i hv; exact tins_wf d t k 0 v h (Nat.zero_le _) hv

theorem tmod_wf [DecidableEq α] (d : Nat → α) (t : Tab α) (k : Nat) (f : α → α) (h : tabWf d t = true) : tabWf d (tmod d t k f) = true :=
  tset_wf d t k _ h

end Sys2Proof.Machine
end

