-- ==== Sys2Proof/Laws/Csr.lean ====
section
/-! SUPPORT. The laws of the CSR store: what a register reads as after a write, fields, saturating counts, and what event raises
leave alone. -/

namespace Sys2Proof.Machine

theorem getReg_setReg (s : State) (d b w v d' b' w' : Nat) :
    getReg (setReg s d b w v) d' b' w' = if regIdx d b w = regIdx d' b' w' then v % 2 ^ 32 else getReg s d' b' w' := by
  unfold getReg setReg
  dsimp only
  rw [tget_tset]
  split
  · exact BitVec.toNat_ofNat v 32
  · rfl

theorem getReg_setReg_self (s : State) (d b w v : Nat) : getReg (setReg s d b w v) d b w = v % 2 ^ 32 := by
  rw [getReg_setReg, if_pos rfl]

theorem getReg_setReg_ne (s : State) (d b w v d' b' w' : Nat) (h : regIdx d b w ≠ regIdx d' b' w') :
    getReg (setReg s d b w v) d' b' w' = getReg s d' b' w' := by
  rw [getReg_setReg, if_neg h]

theorem getReg_lt (s : State) (d b w : Nat) : getReg s d b w < 2 ^ 32 := (tget (csrReset s.part) s.csr (regIdx d b w)).isLt

/-- Words of one die and block differ in their index when the words differ. -/
theorem regIdx_word_ne {d b w w' : Nat} (h : w ≠ w') : regIdx d b w ≠ regIdx d b w' := by unfold regIdx; omega

/-- Blocks of one die differ in their registers' indices, for words below 2^20. -/
theorem regIdx_blk_ne {d b b' w w' : Nat} (h : b ≠ b') (hw : w < 2 ^ 20) (hw' : w' < 2 ^ 20) : regIdx d b w ≠ regIdx d b' w' := by
  unfold regIdx; omega

/-- What a field reads as after it was written. -/
theorem getF_setF_self (s : State) (d b w hi lo v : Nat) (h : hi < 32) (hl : lo ≤ hi) :
    getF (setF s d b w hi lo v) d b w hi lo = v % 2 ^ (hi + 1 - lo) := by
  unfold getF setF
  rw [getReg_setReg_self, Nat.mod_eq_of_lt (putFld_lt v (getReg_lt _ _ _ _) h hl), fld_putFld_self]

/-- A register other than the one written reads as before. -/
theorem getReg_setF_ne (s : State) (d b w hi lo v d' b' w' : Nat) (h : regIdx d b w ≠ regIdx d' b' w') :
    getReg (setF s d b w hi lo v) d' b' w' = getReg s d' b' w' := getReg_setReg_ne _ _ _ _ _ _ _ _ h

theorem getReg_countF_ne (s : State) (d b w hi lo n d' b' w' : Nat) (h : regIdx d b w ≠ regIdx d' b' w') :
    getReg (countF s d b w hi lo n) d' b' w' = getReg s d' b' w' := getReg_setReg_ne _ _ _ _ _ _ _ _ h

/-- A counting field rises by `n` and saturates (R84). -/
theorem getF_countF_self (s : State) (d b w hi lo n : Nat) (h : hi < 32) (hl : lo ≤ hi) :
    getF (countF s d b w hi lo n) d b w hi lo = satAdd (hi + 1 - lo) (getF s d b w hi lo) n := by
  unfold countF
  rw [getF_setF_self _ _ _ _ _ _ _ h hl]
  apply Nat.mod_eq_of_lt
  have : 0 < 2 ^ (hi + 1 - lo) := Nat.two_pow_pos _
  unfold satAdd; omega

@[simp] theorem setReg_mem (s : State) (d b w v : Nat) : (setReg s d b w v).mem = s.mem := rfl
@[simp] theorem setF_mem (s : State) (d b w hi lo v : Nat) : (setF s d b w hi lo v).mem = s.mem := rfl
@[simp] theorem countF_mem (s : State) (d b w hi lo n : Nat) : (countF s d b w hi lo n).mem = s.mem := rfl
@[simp] theorem count_mem (s : State) (d b w : Nat) : (count s d b w).mem = s.mem := rfl

/-- Registers of different blocks differ in their index, for words below 2^20 and block numbers below 2^8. -/
theorem regIdx_ne {d d' b b' w w' : Nat} (h : b ≠ b') (hb : b < 2 ^ 8) (hb' : b' < 2 ^ 8) (hw : w < 2 ^ 20) (hw' : w' < 2 ^ 20) :
    regIdx d b w ≠ regIdx d' b' w' := by unfold regIdx; omega

theorem getReg_setEv (s : State) (die k st : Nat) (rep : Bool) (d b w : Nat)
    (h : regIdx die bEvc (rEvcCfg + k) ≠ regIdx d b w) : getReg (setEv s die k st rep) d b w = getReg s d b w :=
  getReg_setReg_ne _ _ _ _ _ _ _ _ h

theorem getReg_count_ne (s : State) (die blk word d b w : Nat) (h : regIdx die blk word ≠ regIdx d b w) :
    getReg (count s die blk word) d b w = getReg s d b w := getReg_setReg_ne _ _ _ _ _ _ _ _ h

/-- A raise changes registers of the event controller only. -/
theorem getReg_evTake (s : State) (die k : Nat) (soft counted : Bool) (d b w : Nat) (hb : b ≠ bEvc) (hb8 : b < 2 ^ 8)
    (hk : rEvcCfg + k < 2 ^ 20) (hw : w < 2 ^ 20) : getReg (evTake s die k soft counted) d b w = getReg s d b w := by
  have h1 : regIdx die bEvc (rEvcCfg + k) ≠ regIdx d b w := regIdx_ne (Ne.symm hb) (by decide) hb8 hk hw
  have h2 : regIdx die bEvc rEvcMergecnt ≠ regIdx d b w := regIdx_ne (Ne.symm hb) (by decide) hb8 (by decide) hw
  have h3 (x : State) : getReg (setEv x die k evActive true) d b w = getReg x d b w := getReg_setEv _ _ _ _ _ _ _ _ h1
  have h4 (x : State) : getReg (count x die bEvc rEvcMergecnt) d b w = getReg x d b w := getReg_count_ne _ _ _ _ _ _ _ h2
  unfold evTake
  dsimp only
  split <;> split <;> try rfl
  · exact getReg_setEv _ _ _ _ _ _ _ _ h1
  · exact h4 s
  · exact getReg_setEv _ _ _ _ _ _ _ _ h1
  · rw [h3]; split
    · exact h4 s
    · rfl

/-- The FATAL fence stands once it has come (R544). -/
@[simp] theorem fence_fatal (s : State) : (fence s).fatal = true := by
  unfold fence; split
  · assumption
  · rfl

theorem fence_again {s : State} (h : s.fatal = true) : fence s = s := by unfold fence; rw [if_pos h]

end Sys2Proof.Machine
end

