-- ==== Sys2Proof/Laws/Hxp.lean ====
section
/-! SUPPORT. A frame that carries its own tag verifies (spec 13: R399, R401), said once for each of the three keys. -/

namespace Sys2Proof.Machine

theorem ofBytes_toBytes {l : List Nat} (h : ∀ x ∈ l, x < 256) : ofBytes (toBytes l) = l := by
  simp only [ofBytes, toBytes, List.map_map]
  exact (List.map_congr_left fun x hx => by simpa using h x hx).trans (List.map_id l)

theorem beBytes_lt {n v : Nat} : ∀ x ∈ beBytes n v, x < 256 := by
  intro x hx
  simp only [beBytes, List.mem_reverse, List.mem_map] at hx
  obtain ⟨i, -, rfl⟩ := hx
  exact Nat.mod_lt _ (by decide)

theorem xorBytes_lt {a b : List Nat} (ha : ∀ x ∈ a, x < 256) (hb : ∀ x ∈ b, x < 256) : ∀ x ∈ xorBytes a b, x < 256 := by
  intro x hx
  obtain ⟨i, hi, rfl⟩ := List.mem_iff_getElem.1 hx
  simp only [xorBytes, List.length_zipWith] at hi
  simp only [xorBytes, List.getElem_zipWith]
  exact Nat.xor_lt_two_pow (n := 8) (ha _ (List.getElem_mem _)) (hb _ (List.getElem_mem _))

theorem sbox_lt (a : Nat) : sbox a < 256 := by
  have h : ∀ x ∈ sboxTab, x < 256 := by decide +kernel
  unfold sbox
  rw [List.getD_eq_getElem?_getD]
  cases hx : sboxTab[a]? with
  | none => decide
  | some x => exact h x (List.mem_of_getElem? hx)

theorem shiftRows_lt {inv : Bool} {b : List Nat} (h : ∀ x ∈ b, x < 256) : ∀ x ∈ shiftRows inv b, x < 256 := by
  intro x hx
  simp only [shiftRows, List.mem_map] at hx
  obtain ⟨i, -, rfl⟩ := hx
  rw [List.getD_eq_getElem?_getD]
  cases hy : b[(i + if inv = true then 16 - 4 * (i % 4) else 4 * (i % 4)) % 16]? with
  | none => decide
  | some y => exact h y (List.mem_of_getElem? hy)

/-- The bytes of a GCM tag, where the last round key is bytes. -/
theorem gcmTag_lt {ks : List (List Nat)} {iv aad ct : List Nat} (h : ∀ x ∈ ks.getD 14 [], x < 256) : ∀ x ∈ gcmTag ks iv aad ct, x < 256 := by
  refine xorBytes_lt beBytes_lt (xorBytes_lt (shiftRows_lt fun x hx => ?_) h)
  obtain ⟨y, -, rfl⟩ := List.mem_map.1 hx
  exact sbox_lt y

theorem openTag_lt {km hb payload : List Nat} : ∀ x ∈ openTag km hb payload, x < 256 := by
  intro x hx
  have h := List.mem_of_mem_take (List.mem_of_mem_take hx)
  obtain ⟨v, -, hv⟩ := List.mem_flatMap.1 h
  exact beBytes_lt x hv

variable {s : State} {f : HxFrame} {n p : Nat} {ps : List Nat} {key : List Nat}

/-- The tag that a frame of a session without `CONF` has under a key (R399). -/
def ownTagOf (f : HxFrame) (key : List Nat) : List Nat :=
  gcmTag (aesKeys key) (hxpIv (parseHdr (hdrBytes (frHdr f)))) (hdrBytes (frHdr f) ++ ofBytes f.payload) []

/-- A DATA, ACK or NAK under the session's key. -/
theorem verify_session (hf : f.session = some n) (ht : bySession f.typ = true) (hs : stState s n = ssOpen) (hc : stConf s n = false)
    (hp : phases (getSess s n).phRx (getSess s n).phCut.isSome f.keyph = p :: ps) (hk : heldKey s (getSess s n).keys false p = some key)
    (h : ofBytes f.tag = ownTagOf f key) : verify s f = some (ofBytes f.payload, p) := by
  simp [verify, hf, ht, hs, hc, hp, hk, unprotect, h, ownTagOf]

/-- A control frame of a session under the association's key. -/
theorem verify_control (hf : f.session = some n) (ht : bySession f.typ = false) (ha : (getAssoc s f.assoc).phase = 2) (hc : stConf s n = false)
    (hp : phases (getAssoc s f.assoc).phRx false f.keyph = p :: ps) (hk : heldKey s (getAssoc s f.assoc).keys false p = some key)
    (h : ofBytes f.tag = ownTagOf f key) : verify s f = some (ofBytes f.payload, p) := by
  simp [verify, hf, ht, ha, hc, hp, hk, unprotect, h, ownTagOf]

/-- A frame of an association under its key. -/
theorem verify_assoc (hf : f.session = none) (ht : ¬(f.typ = 4 ∨ f.typ = 5)) (ha : (getAssoc s f.assoc).phase = 2)
    (hp : phases (getAssoc s f.assoc).phRx false f.keyph = p :: ps) (hk : heldKey s (getAssoc s f.assoc).keys false p = some key)
    (h : ofBytes f.tag = ownTagOf f key) : verify s f = some (ofBytes f.payload, p) := by
  simp [verify, hf, ht, ha, hp, hk, unprotect, h, ownTagOf]

/-- An OPEN or OPEN_ACK of an association under its master key. -/
theorem verify_open (hf : f.session = none) (ht : f.typ = 4 ∨ f.typ = 5) (hk : masterKey s f.assoc = some key)
    (h : ofBytes f.tag = openTag key (hdrBytes (frHdr f)) (ofBytes f.payload)) : verify s f = some (ofBytes f.payload, 0) := by
  simp [verify, hf, ht, hk, h]

end Sys2Proof.Machine
end

