-- ==== Sys2Proof/Laws/Ops.lean ====
section
/-! SUPPORT. What the operations that turn an effect into an outcome answer. -/

namespace Sys2Proof.Machine

theorem onDie_next {s : State} {d : Nat} (t : State) (h : d < nDies s.part) : onDie s d t = .next t := by simp [onDie, h]

theorem onDie_absent {s : State} {d : Nat} (t : State) (h : ¬d < nDies s.part) : onDie s d t = .next s := by
  simp [onDie, h]

theorem unitDo_live {s : State} {d : Nat} {live : Bool} (t : State) (h : d < nDies s.part) (hl : live = true) :
    unitDo s d live t = .next t := by simp [unitDo, onDie, h, hl]

theorem unitDo_idle {s : State} {d : Nat} {live : Bool} (t : State) (h : d < nDies s.part) (hl : live = false) :
    unitDo s d live t = .next s := by simp [unitDo, onDie, h, hl]

/-- A command at a unit of an unpopulated die changes nothing. -/
theorem unitDo_absent {s : State} {d : Nat} (live : Bool) (t : State) (h : ¬d < nDies s.part) : unitDo s d live t = .next s :=
  onDie_absent _ h

/-- A register write of a block that takes commands has its effect, where it raises no bus error and the block takes writes. -/
theorem regDo_live {s : State} {d b w : Nat} {live : Bool} (t : State) (h : regOpen s d b w = true) (hl : live = true) :
    regDo s d b w live t = .next t := by
  simp only [regOpen, Bool.and_eq_true, Bool.not_eq_true'] at h
  unfold regDo regTake
  rw [h.1.1, h.1.2, h.2, hl]
  simp

/-- A register write that raises a bus error is counted. -/
theorem regDo_bad {s : State} {d b w : Nat} (live : Bool) (t : State) (h : busBad s (regIdx d b w) true = true) :
    regDo s d b w live t = .next (busCount s (regIdx d b w)) := by simp [regDo, regTake, h]

/-- A command that is a register write answers a next state, whatever the state. -/
theorem regDo_completes (s : State) (d b w : Nat) (live : Bool) (t : State) : ∃ u, regDo s d b w live t = .next u := ⟨_, rfl⟩

/-- A command that does not run yet has its effect from the state in which it runs (R566). -/
theorem startCmd_go {s t : State} {d b w cc : Nat} (fields effect : State → State) (h : Starts s d b w cc t) :
    startCmd s d b w cc fields effect = effect t := by
  unfold startCmd; rw [h.1, h.2]; rfl

/-- A command that runs is not started again: the other fields take their values and the write is counted (R566). -/
theorem startCmd_busy {s t : State} {d b w cc : Nat} (fields effect : State → State) (h : StillRuns s d b w cc t) :
    startCmd s d b w cc fields effect = reject (fields t) d b := by
  obtain ⟨rfl, h⟩ := h
  unfold startCmd; rw [if_pos h]

theorem sparDo_live {s : State} {die spar : Nat} (t : State) (h : die < nDies s.part) (hl : sparLive s (gspar die spar) = true) :
    sparDo s die spar t = .next t := unitDo_live t h hl

theorem schDo_live {s : State} {die : Nat} (t : State) (h : die < nDies s.part) (hl : dieLive s die = true)
    (hb : blkEn s die bSch = true) : schDo s die t = .next t := unitDo_live t h (by simp [hl, hb])

/-- A command at a unit answers a next state, whatever the state. -/
theorem unitDo_completes (s : State) (d : Nat) (live : Bool) (t : State) : ∃ u, unitDo s d live t = .next u := ⟨_, rfl⟩

theorem gspar_die {die spar : Nat} (h : spar < 32) : gspar die spar / 32 = die := by unfold gspar; omega

theorem gspar_spar {die spar : Nat} (h : spar < 32) : gspar die spar % 32 = spar := by unfold gspar; omega

end Sys2Proof.Machine
end

