-- ==== Sys2Proof/Laws/Issue.lean ====
section
/-! SUPPORT. What an instruction of a core answers when the core issues it. -/

namespace Sys2Proof.Machine

theorem runInstr_ok {h : Hart} {n : Nat} {s t : State} (body : Hart → State → Res) (hf : fetchFail s h (hartPc s h) n = none)
    (ht : fetchInstr s h (hartPc s h) n = some t) : runInstr h n body s = body h t := by
  unfold runInstr; dsimp only; rw [ht]; dsimp only; rw [hf]

theorem runInstr_fail {h : Hart} {n e wa : Nat} {s t : State} (body : Hart → State → Res)
    (hf : fetchFail s h (hartPc s h) n = some (e, wa)) (ht : fetchInstr s h (hartPc s h) n = some t) :
    runInstr h n body s = .trap t e 0 wa := by unfold runInstr; dsimp only; rw [ht]; dsimp only; rw [hf]

/-- An instruction whose code its core's caches cannot get yet changes nothing. -/
theorem runInstr_waits {h : Hart} {n : Nat} {s : State} (body : Hart → State → Res) (ht : fetchInstr s h (hartPc s h) n = none) :
    runInstr h n body s = .done s := by unfold runInstr; dsimp only; rw [ht]

/-- A core that issues an instruction is left with what its meaning gives after the fetch. -/
theorem instrDo_run {s : State} {core : CoreId} (n : Nat) (body : Hart → State → Res) (hi : coreIssues s core = true) :
    instrDo core n body s =
      .next (coreAfter core (hartPc s (hartOf core)) n (runInstr (hartOf core) n body s)) := by
  cases core with
  | pe p =>
    simp only [coreIssues, Bool.and_eq_true, decide_eq_true_eq] at hi
    unfold instrDo
    dsimp only
    rw [sparDo_live _ hi.1.1 hi.1.2, if_pos hi.2]; rfl
  | sup p =>
    simp only [coreIssues, Bool.and_eq_true, decide_eq_true_eq, Bool.not_eq_true'] at hi
    unfold instrDo
    dsimp only
    rw [unitDo_live _ hi.1.1.1 hi.1.1.2, if_neg (by simp [hi.1.2, hi.2])]; rfl

/-- The instruction of a core that runs it. -/
theorem instrDo_runs {s t : State} {core : CoreId} {n pc : Nat} {h : Hart} (body : Hart → State → Res) (hr : Runs s core n h pc t) :
    instrDo core n body s = .next (coreAfter core pc n (body h t)) := by
  obtain ⟨h1, h2, h3, h4, h5⟩ := hr
  subst h2 h3
  rw [instrDo_run n body h1, runInstr_ok body h4 h5]

/-- Every instruction of a core answers a next state, whatever the state. -/
theorem instrDo_completes (s : State) (core : CoreId) (n : Nat) (body : Hart → State → Res) :
    ∃ t, instrDo core n body s = .next t := by
  cases core with
  | pe p => exact unitDo_completes _ _ _ _
  | sup p => exact unitDo_completes _ _ _ _

end Sys2Proof.Machine
end

