-- ==== Sys2Proof/Laws/PerInstr.lean ====
section
/-! SUPPORT. Lemmas about commands as syntax, one for each constructor: every command that can be written names only units of the
largest part (R2, R3), whose eight dies the type of a die number counts. -/

namespace Sys2Proof

/-- The command is well formed for the part with all eight dies. -/
def Laws.LargestPart.Statement (i : Instr) : Prop := WellFormed .p7808 i = true

theorem Laws.dieOk_largest (d : DieNo) : dieOk .p7808 d = true := decide_eq_true d.isLt
theorem Laws.coreOk_largest (c : CoreId) : coreOk .p7808 c = true := by cases c <;> exact Laws.dieOk_largest _

theorem Laws.LargestPart.resetNDeassert : ∀ flashOk straps, Statement (.resetNDeassert flashOk straps) := fun flashOk straps => rfl
theorem Laws.LargestPart.resetNAssert : Statement .resetNAssert := rfl
theorem Laws.LargestPart.pwrokAssert : ∀ inputs, Statement (.pwrokAssert inputs) := fun inputs => rfl
theorem Laws.LargestPart.tokenArrival : ∀ die spar, Statement (.tokenArrival die spar) := fun die spar => Laws.dieOk_largest _
theorem Laws.LargestPart.probeDataReturn : ∀ die spar entry, Statement (.probeDataReturn die spar entry) := fun die spar entry => Laws.dieOk_largest _
theorem Laws.LargestPart.eviction : ∀ die spar, Statement (.eviction die spar) := fun die spar => Laws.dieOk_largest _
theorem Laws.LargestPart.flitIngress : ∀ die spar vc1 err, Statement (.flitIngress die spar vc1 err) := fun die spar vc1 err => Laws.dieOk_largest _
theorem Laws.LargestPart.diversionStart : ∀ die spar part, Statement (.diversionStart die spar part) := fun die spar part => Laws.dieOk_largest _
theorem Laws.LargestPart.diversionEnd : ∀ die spar part, Statement (.diversionEnd die spar part) := fun die spar part => Laws.dieOk_largest _
theorem Laws.LargestPart.spillRingAppend : ∀ die spar tag value kind, Statement (.spillRingAppend die spar tag value kind) := fun die spar tag value kind => Laws.dieOk_largest _
theorem Laws.LargestPart.spillRingHoldRetry : ∀ die spar hold, Statement (.spillRingHoldRetry die spar hold) := fun die spar hold => Laws.dieOk_largest _
theorem Laws.LargestPart.spillRingConsume : ∀ die spar, Statement (.spillRingConsume die spar) := fun die spar => Laws.dieOk_largest _
theorem Laws.LargestPart.spillRingMeasure : ∀ die spar, Statement (.spillRingMeasure die spar) := fun die spar => Laws.dieOk_largest _
theorem Laws.LargestPart.purge : ∀ die spar, Statement (.purge die spar) := fun die spar => Laws.dieOk_largest _
theorem Laws.LargestPart.purgeComplete : ∀ die spar, Statement (.purgeComplete die spar) := fun die spar => Laws.dieOk_largest _
theorem Laws.LargestPart.meshHop : ∀ die router out, Statement (.meshHop die router out) := fun die router out => Laws.dieOk_largest _
theorem Laws.LargestPart.linkFlitReceive : ∀ die link pool vc1 err, Statement (.linkFlitReceive die link pool vc1 err) := fun die link pool vc1 err => Laws.dieOk_largest _
theorem Laws.LargestPart.escapeSend : ∀ die link pool vc1, Statement (.escapeSend die link pool vc1) := fun die link pool vc1 => Laws.dieOk_largest _
theorem Laws.LargestPart.escapeReceive : ∀ die link err, Statement (.escapeReceive die link err) := fun die link err => Laws.dieOk_largest _
theorem Laws.LargestPart.creditReturn : ∀ die link pool vc1, Statement (.creditReturn die link pool vc1) := fun die link pool vc1 => Laws.dieOk_largest _
theorem Laws.LargestPart.readyPromote : ∀ die spar entry, Statement (.readyPromote die spar entry) := fun die spar entry => Laws.dieOk_largest _
theorem Laws.LargestPart.dispatch : ∀ die spar, Statement (.dispatch die spar) := fun die spar => Laws.dieOk_largest _
theorem Laws.LargestPart.flowKeyReturn : ∀ die spar entry, Statement (.flowKeyReturn die spar entry) := fun die spar entry => Laws.dieOk_largest _
theorem Laws.LargestPart.flowRequest : ∀ die msgs, Statement (.flowRequest die msgs) := fun die msgs => Laws.dieOk_largest _
theorem Laws.LargestPart.flowRequestRetry : ∀ die spar slot, Statement (.flowRequestRetry die spar slot) := fun die spar slot => Laws.dieOk_largest _
theorem Laws.LargestPart.flowGrant : ∀ die msg, Statement (.flowGrant die msg) := fun die msg => Laws.dieOk_largest _
theorem Laws.LargestPart.flowRelease : ∀ die msg, Statement (.flowRelease die msg) := fun die msg => Laws.dieOk_largest _
theorem Laws.LargestPart.flowCancel : ∀ die msg, Statement (.flowCancel die msg) := fun die msg => Laws.dieOk_largest _
theorem Laws.LargestPart.itemTake : ∀ die spar, Statement (.itemTake die spar) := fun die spar => Laws.dieOk_largest _
theorem Laws.LargestPart.wqpostRetry : ∀ pe out, Statement (.wqpostRetry pe out) := fun pe out => Laws.dieOk_largest _
theorem Laws.LargestPart.ratlineRecordWrite : ∀ die spar, Statement (.ratlineRecordWrite die spar) := fun die spar => Laws.dieOk_largest _
theorem Laws.LargestPart.admissionNotice : ∀ die msg, Statement (.admissionNotice die msg) := fun die msg => Laws.dieOk_largest _
theorem Laws.LargestPart.luffIntervalEnd : Statement .luffIntervalEnd := rfl
theorem Laws.LargestPart.luffEvaluate : ∀ part, Statement (.luffEvaluate part) := fun _ => rfl
theorem Laws.LargestPart.gateRequest : ∀ die msg, Statement (.gateRequest die msg) := fun die msg => Laws.dieOk_largest _
theorem Laws.LargestPart.gateRelease : ∀ die msg, Statement (.gateRelease die msg) := fun die msg => Laws.dieOk_largest _
theorem Laws.LargestPart.gateGrantRetry : ∀ die part gate, Statement (.gateGrantRetry die part gate) := fun die part gate => Laws.dieOk_largest _
theorem Laws.LargestPart.inboundAllocRetry : ∀ die entry, Statement (.inboundAllocRetry die entry) := fun die entry => Laws.dieOk_largest _
theorem Laws.LargestPart.inboundAllocTimeout : ∀ die entry, Statement (.inboundAllocTimeout die entry) := fun die entry => Laws.dieOk_largest _
theorem Laws.LargestPart.fetchRequest : ∀ pe out, Statement (.fetchRequest pe out) := fun pe out => Laws.dieOk_largest _
theorem Laws.LargestPart.fetchReply : ∀ die spar req, Statement (.fetchReply die spar req) := fun die spar req => Laws.dieOk_largest _
theorem Laws.LargestPart.trapDelivery : ∀ trap, Statement (.trapDelivery trap) := fun trap => rfl
theorem Laws.LargestPart.runlimit : ∀ pe, Statement (.runlimit pe) := fun pe => Laws.dieOk_largest _
theorem Laws.LargestPart.outputLeave : ∀ pe out, Statement (.outputLeave pe out) := fun pe out => Laws.dieOk_largest _
theorem Laws.LargestPart.nop : ∀ core arg, Statement (.nop core arg) := fun core arg => Laws.coreOk_largest _
theorem Laws.LargestPart.commit : ∀ core arg, Statement (.commit core arg) := fun core arg => Laws.coreOk_largest _
theorem Laws.LargestPart.end_ : ∀ core arg, Statement (.end_ core arg) := fun core arg => Laws.coreOk_largest _
theorem Laws.LargestPart.fence : ∀ core arg, Statement (.fence core arg) := fun core arg => Laws.coreOk_largest _
theorem Laws.LargestPart.fenceDev : ∀ core arg, Statement (.fenceDev core arg) := fun core arg => Laws.coreOk_largest _
theorem Laws.LargestPart.eret : ∀ core arg, Statement (.eret core arg) := fun core arg => Laws.coreOk_largest _
theorem Laws.LargestPart.wfe : ∀ core arg, Statement (.wfe core arg) := fun core arg => Laws.coreOk_largest _
theorem Laws.LargestPart.sys : ∀ core arg, Statement (.sys core arg) := fun core arg => Laws.coreOk_largest _
theorem Laws.LargestPart.intRegOp : ∀ core rd rs1 rs2 fn, Statement (.intRegOp core rd rs1 rs2 fn) := fun core rd rs1 rs2 fn => Laws.coreOk_largest _
theorem Laws.LargestPart.intImmOp : ∀ core op, Statement (.intImmOp core op) := fun core op => Laws.coreOk_largest _
theorem Laws.LargestPart.classMove : ∀ core op, Statement (.classMove core op) := fun core op => Laws.coreOk_largest _
theorem Laws.LargestPart.compactInstruction : ∀ core op rd rs, Statement (.compactInstruction core op rd rs) := fun core op rd rs => Laws.coreOk_largest _
theorem Laws.LargestPart.rdflg : ∀ core rd rs1 imm14, Statement (.rdflg core rd rs1 imm14) := fun core rd rs1 imm14 => Laws.coreOk_largest _
theorem Laws.LargestPart.clrflg : ∀ core rd rs1 imm14, Statement (.clrflg core rd rs1 imm14) := fun core rd rs1 imm14 => Laws.coreOk_largest _
theorem Laws.LargestPart.addcSubc : ∀ core wd ws rs1 rs2 fn, Statement (.addcSubc core wd ws rs1 rs2 fn) := fun core wd ws rs1 rs2 fn => Laws.coreOk_largest _
theorem Laws.LargestPart.mulw : ∀ core wd ws rs1 rs2 fn, Statement (.mulw core wd ws rs1 rs2 fn) := fun core wd ws rs1 rs2 fn => Laws.coreOk_largest _
theorem Laws.LargestPart.divsDivu : ∀ core wd ws rs1 rs2 fn, Statement (.divsDivu core wd ws rs1 rs2 fn) := fun core wd ws rs1 rs2 fn => Laws.coreOk_largest _
theorem Laws.LargestPart.fpOperation : ∀ core dbl rd rs1 rs2 fn, Statement (.fpOperation core dbl rd rs1 rs2 fn) := fun core dbl rd rs1 rs2 fn => Laws.coreOk_largest _
theorem Laws.LargestPart.fcat : ∀ core dbl rd rs1 rs2 fn, Statement (.fcat core dbl rd rs1 rs2 fn) := fun core dbl rd rs1 rs2 fn => Laws.coreOk_largest _
theorem Laws.LargestPart.fcvt : ∀ core rd rs1 rs2 fn, Statement (.fcvt core rd rs1 rs2 fn) := fun core rd rs1 rs2 fn => Laws.coreOk_largest _
theorem Laws.LargestPart.padd : ∀ core op, Statement (.padd core op) := fun core op => Laws.coreOk_largest _
theorem Laws.LargestPart.psub : ∀ core op, Statement (.psub core op) := fun core op => Laws.coreOk_largest _
theorem Laws.LargestPart.pchk : ∀ core wide rd rs1 rs2, Statement (.pchk core wide rd rs1 rs2) := fun core wide rd rs1 rs2 => Laws.coreOk_largest _
theorem Laws.LargestPart.decimalRequestAccept : ∀ die spar, Statement (.decimalRequestAccept die spar) := fun die spar => Laws.dieOk_largest _
theorem Laws.LargestPart.decimalResult : ∀ die spar, Statement (.decimalResult die spar) := fun die spar => Laws.dieOk_largest _
theorem Laws.LargestPart.condBranch : ∀ core op, Statement (.condBranch core op) := fun core op => Laws.coreOk_largest _
theorem Laws.LargestPart.jmp : ∀ core rl target, Statement (.jmp core rl target) := fun core rl target => Laws.coreOk_largest _
theorem Laws.LargestPart.call : ∀ core rl target, Statement (.call core rl target) := fun core rl target => Laws.coreOk_largest _
theorem Laws.LargestPart.jr : ∀ core rd rs1 rs2 fn, Statement (.jr core rd rs1 rs2 fn) := fun core rd rs1 rs2 fn => Laws.coreOk_largest _
theorem Laws.LargestPart.ld : ∀ core op, Statement (.ld core op) := fun core op => Laws.coreOk_largest _
theorem Laws.LargestPart.st : ∀ core op, Statement (.st core op) := fun core op => Laws.coreOk_largest _
theorem Laws.LargestPart.ldw : ∀ core op, Statement (.ldw core op) := fun core op => Laws.coreOk_largest _
theorem Laws.LargestPart.stw : ∀ core op, Statement (.stw core op) := fun core op => Laws.coreOk_largest _
theorem Laws.LargestPart.lr : ∀ core op, Statement (.lr core op) := fun core op => Laws.coreOk_largest _
theorem Laws.LargestPart.sc : ∀ core op, Statement (.sc core op) := fun core op => Laws.coreOk_largest _
theorem Laws.LargestPart.amo : ∀ core rd rs1 rs2 fn, Statement (.amo core rd rs1 rs2 fn) := fun core rd rs1 rs2 fn => Laws.coreOk_largest _
theorem Laws.LargestPart.reservationTimeout : ∀ core, Statement (.reservationTimeout core) := fun core => Laws.coreOk_largest _
theorem Laws.LargestPart.lrHoldExpire : ∀ core, Statement (.lrHoldExpire core) := fun core => Laws.coreOk_largest _
theorem Laws.LargestPart.send : ∀ core rd rs1 rs2, Statement (.send core rd rs1 rs2) := fun core rd rs1 rs2 => Laws.coreOk_largest _
theorem Laws.LargestPart.sendSig : ∀ core rd rs1 rs2, Statement (.sendSig core rd rs1 rs2) := fun core rd rs1 rs2 => Laws.coreOk_largest _
theorem Laws.LargestPart.sendp : ∀ core rd rs1 rs2, Statement (.sendp core rd rs1 rs2) := fun core rd rs1 rs2 => Laws.coreOk_largest _
theorem Laws.LargestPart.sendpSig : ∀ core rd rs1 rs2, Statement (.sendpSig core rd rs1 rs2) := fun core rd rs1 rs2 => Laws.coreOk_largest _
theorem Laws.LargestPart.fetch : ∀ core rd rs1 rs2 n, Statement (.fetch core rd rs1 rs2 n) := fun core rd rs1 rs2 n => Laws.coreOk_largest _
theorem Laws.LargestPart.falloc : ∀ core rd rs1 rs2, Statement (.falloc core rd rs1 rs2) := fun core rd rs1 rs2 => Laws.coreOk_largest _
theorem Laws.LargestPart.fallocG : ∀ core rd rs1 rs2, Statement (.fallocG core rd rs1 rs2) := fun core rd rs1 rs2 => Laws.coreOk_largest _
theorem Laws.LargestPart.ffree : ∀ core rd rs1 rs2, Statement (.ffree core rd rs1 rs2) := fun core rd rs1 rs2 => Laws.coreOk_largest _
theorem Laws.LargestPart.ffreeG : ∀ core rd rs1 rs2, Statement (.ffreeG core rd rs1 rs2) := fun core rd rs1 rs2 => Laws.coreOk_largest _
theorem Laws.LargestPart.xissue : ∀ core rd rs1 rs2, Statement (.xissue core rd rs1 rs2) := fun core rd rs1 rs2 => Laws.coreOk_largest _
theorem Laws.LargestPart.wqpost : ∀ core wd ws rs1 rs2 fn, Statement (.wqpost core wd ws rs1 rs2 fn) := fun core wd ws rs1 rs2 fn => Laws.coreOk_largest _
theorem Laws.LargestPart.csrrd : ∀ core op, Statement (.csrrd core op) := fun core op => Laws.coreOk_largest _
theorem Laws.LargestPart.csrwr : ∀ core op, Statement (.csrwr core op) := fun core op => Laws.coreOk_largest _
theorem Laws.LargestPart.sprd : ∀ core rd rs1 rs2 num, Statement (.sprd core rd rs1 rs2 num) := fun core rd rs1 rs2 num => Laws.coreOk_largest _
theorem Laws.LargestPart.spwr : ∀ core rd rs1 rs2 num, Statement (.spwr core rd rs1 rs2 num) := fun core rd rs1 rs2 num => Laws.coreOk_largest _
theorem Laws.LargestPart.evsrcRead : ∀ core rd rs1 rs2, Statement (.evsrcRead core rd rs1 rs2) := fun core rd rs1 rs2 => Laws.coreOk_largest _
theorem Laws.LargestPart.evdoneWrite : ∀ core rd rs1 rs2, Statement (.evdoneWrite core rd rs1 rs2) := fun core rd rs1 rs2 => Laws.coreOk_largest _
theorem Laws.LargestPart.bpctlFlush : ∀ core rd rs1 rs2, Statement (.bpctlFlush core rd rs1 rs2) := fun core rd rs1 rs2 => Laws.coreOk_largest _
theorem Laws.LargestPart.xlinv : ∀ core rd rs1 rs2, Statement (.xlinv core rd rs1 rs2) := fun core rd rs1 rs2 => Laws.coreOk_largest _
theorem Laws.LargestPart.homeRequest : ∀ line req, Statement (.homeRequest line req) := fun line req => rfl
theorem Laws.LargestPart.memreadData : ∀ line check, Statement (.memreadData line check) := fun line check => rfl
theorem Laws.LargestPart.snoopReceive : ∀ snoop, Statement (.snoopReceive snoop) := fun snoop => rfl
theorem Laws.LargestPart.snoopAnswer : ∀ answer, Statement (.snoopAnswer answer) := fun answer => rfl
theorem Laws.LargestPart.snoopTimeout : ∀ line, Statement (.snoopTimeout line) := fun line => rfl
theorem Laws.LargestPart.patrolScrubRead : ∀ line check, Statement (.patrolScrubRead line check) := fun line check => rfl
theorem Laws.LargestPart.l1dInvalidate : ∀ die spar, Statement (.l1dInvalidate die spar) := fun die spar => Laws.dieOk_largest _
theorem Laws.LargestPart.lockstepMismatch : ∀ core valueClass, Statement (.lockstepMismatch core valueClass) := fun core valueClass => Laws.dieOk_largest _
theorem Laws.LargestPart.eventRaise : ∀ die source, Statement (.eventRaise die source) := fun die source => Laws.dieOk_largest _
theorem Laws.LargestPart.eventRoute : ∀ die source, Statement (.eventRoute die source) := fun die source => Laws.dieOk_largest _
theorem Laws.LargestPart.eventAccept : ∀ core, Statement (.eventAccept core) := fun core => Laws.dieOk_largest _
theorem Laws.LargestPart.evcSet : ∀ die source, Statement (.evcSet die source) := fun die source => Laws.dieOk_largest _
theorem Laws.LargestPart.evcDone : ∀ die source, Statement (.evcDone die source) := fun die source => Laws.dieOk_largest _
theorem Laws.LargestPart.evcCoreEnWrite : ∀ die value, Statement (.evcCoreEnWrite die value) := fun die value => Laws.dieOk_largest _
theorem Laws.LargestPart.exchangeIssue : ∀ die eng err, Statement (.exchangeIssue die eng err) := fun die eng err => Laws.dieOk_largest _
theorem Laws.LargestPart.handoff : ∀ die eng err, Statement (.handoff die eng err) := fun die eng err => Laws.dieOk_largest _
theorem Laws.LargestPart.intakeSpillMove : ∀ die eng, Statement (.intakeSpillMove die eng) := fun die eng => Laws.dieOk_largest _
theorem Laws.LargestPart.rescan : ∀ die eng, Statement (.rescan die eng) := fun die eng => Laws.dieOk_largest _
theorem Laws.LargestPart.journalDurable : ∀ die seq, Statement (.journalDurable die seq) := fun die seq => Laws.dieOk_largest _
theorem Laws.LargestPart.journalWriteFail : Statement .journalWriteFail := rfl
theorem Laws.LargestPart.journalControlRewrite : ∀ die, Statement (.journalControlRewrite die) := fun die => Laws.dieOk_largest _
theorem Laws.LargestPart.numblk : ∀ die flashOk, Statement (.numblk die flashOk) := fun die flashOk => Laws.dieOk_largest _
theorem Laws.LargestPart.exchangeStart : ∀ die eng index, Statement (.exchangeStart die eng index) := fun die eng index => Laws.dieOk_largest _
theorem Laws.LargestPart.transferDone : ∀ die eng index, Statement (.transferDone die eng index) := fun die eng index => Laws.dieOk_largest _
theorem Laws.LargestPart.terminalStateWrite : ∀ die index, Statement (.terminalStateWrite die index) := fun die index => Laws.dieOk_largest _
theorem Laws.LargestPart.ledgerRetire : ∀ die index, Statement (.ledgerRetire die index) := fun die index => Laws.dieOk_largest _
theorem Laws.LargestPart.completionRecordRetry : ∀ die held, Statement (.completionRecordRetry die held) := fun die held => Laws.dieOk_largest _
theorem Laws.LargestPart.nvmeCompletion : ∀ die eng ctrl pair cid dw3 data, Statement (.nvmeCompletion die eng ctrl pair cid dw3 data) := fun die eng ctrl pair cid dw3 data => Laws.dieOk_largest _
theorem Laws.LargestPart.nvmeTimeout : ∀ die eng index, Statement (.nvmeTimeout die eng index) := fun die eng index => Laws.dieOk_largest _
theorem Laws.LargestPart.abortDone : ∀ die eng index confirmed, Statement (.abortDone die eng index confirmed) := fun die eng index confirmed => Laws.dieOk_largest _
theorem Laws.LargestPart.controllerFatal : ∀ ctrl, Statement (.controllerFatal ctrl) := fun ctrl => rfl
theorem Laws.LargestPart.controllerResetTimeout : ∀ ctrl, Statement (.controllerResetTimeout ctrl) := fun ctrl => rfl
theorem Laws.LargestPart.engineWatchdog : ∀ die eng, Statement (.engineWatchdog die eng) := fun die eng => Laws.dieOk_largest _
theorem Laws.LargestPart.takeover : ∀ die eng, Statement (.takeover die eng) := fun die eng => Laws.dieOk_largest _
theorem Laws.LargestPart.powerFailWarning : ∀ cause, Statement (.powerFailWarning cause) := fun cause => rfl
theorem Laws.LargestPart.pfailJournalStop : Statement .pfailJournalStop := rfl
theorem Laws.LargestPart.pfailGpfStart : Statement .pfailGpfStart := rfl
theorem Laws.LargestPart.journalReplay : ∀ redrives, Statement (.journalReplay redrives) := fun redrives => rfl
theorem Laws.LargestPart.idrAck : Statement .idrAck := rfl
theorem Laws.LargestPart.hxpFrameReceive : ∀ die sub frame room fcs, Statement (.hxpFrameReceive die sub frame room fcs) := fun die sub frame room fcs => Laws.dieOk_largest _
theorem Laws.LargestPart.data : ∀ die eng, Statement (.data die eng) := fun die eng => Laws.dieOk_largest _
theorem Laws.LargestPart.ack : ∀ die eng, Statement (.ack die eng) := fun die eng => Laws.dieOk_largest _
theorem Laws.LargestPart.nak : ∀ die eng, Statement (.nak die eng) := fun die eng => Laws.dieOk_largest _
theorem Laws.LargestPart.open_ : ∀ die eng, Statement (.open_ die eng) := fun die eng => Laws.dieOk_largest _
theorem Laws.LargestPart.openAck : ∀ die eng, Statement (.openAck die eng) := fun die eng => Laws.dieOk_largest _
theorem Laws.LargestPart.close : ∀ die eng, Statement (.close die eng) := fun die eng => Laws.dieOk_largest _
theorem Laws.LargestPart.closeAck : ∀ die eng, Statement (.closeAck die eng) := fun die eng => Laws.dieOk_largest _
theorem Laws.LargestPart.reset : ∀ die eng, Statement (.reset die eng) := fun die eng => Laws.dieOk_largest _
theorem Laws.LargestPart.lease : ∀ die eng, Statement (.lease die eng) := fun die eng => Laws.dieOk_largest _
theorem Laws.LargestPart.leaseAck : ∀ die eng, Statement (.leaseAck die eng) := fun die eng => Laws.dieOk_largest _
theorem Laws.LargestPart.probe : ∀ die eng, Statement (.probe die eng) := fun die eng => Laws.dieOk_largest _
theorem Laws.LargestPart.openResend : ∀ target, Statement (.openResend target) := fun target => rfl
theorem Laws.LargestPart.closingTimeout : ∀ session, Statement (.closingTimeout session) := fun session => rfl
theorem Laws.LargestPart.ackTimer : ∀ session, Statement (.ackTimer session) := fun session => rfl
theorem Laws.LargestPart.nakTimer : ∀ session, Statement (.nakTimer session) := fun session => rfl
theorem Laws.LargestPart.retransmitTimeout : ∀ session, Statement (.retransmitTimeout session) := fun session => rfl
theorem Laws.LargestPart.shroudDown : ∀ assoc shroudB, Statement (.shroudDown assoc shroudB) := fun assoc shroudB => rfl
theorem Laws.LargestPart.probeTimer : ∀ assoc shroudB, Statement (.probeTimer assoc shroudB) := fun assoc shroudB => rfl
theorem Laws.LargestPart.leaseRenewal : ∀ assoc, Statement (.leaseRenewal assoc) := fun assoc => rfl
theorem Laws.LargestPart.leaseEnd : ∀ assoc, Statement (.leaseEnd assoc) := fun assoc => rfl
theorem Laws.LargestPart.leaseLapsedReclaim : ∀ assoc, Statement (.leaseLapsedReclaim assoc) := fun assoc => rfl
theorem Laws.LargestPart.failback : ∀ assoc, Statement (.failback assoc) := fun assoc => rfl
theorem Laws.LargestPart.hxpSendStart : ∀ die eng index, Statement (.hxpSendStart die eng index) := fun die eng index => Laws.dieOk_largest _
theorem Laws.LargestPart.hxpOpenSession : ∀ die session, Statement (.hxpOpenSession die session) := fun die session => Laws.dieOk_largest _
theorem Laws.LargestPart.hxpCloseSession : ∀ die session, Statement (.hxpCloseSession die session) := fun die session => Laws.dieOk_largest _
theorem Laws.LargestPart.hxpOpenAssociation : ∀ die assoc, Statement (.hxpOpenAssociation die assoc) := fun die assoc => Laws.dieOk_largest _
theorem Laws.LargestPart.hxpRawtx : ∀ die len sub, Statement (.hxpRawtx die len sub) := fun die len sub => Laws.dieOk_largest _
theorem Laws.LargestPart.contextTakeEvent : ∀ die eng, Statement (.contextTakeEvent die eng) := fun die eng => Laws.dieOk_largest _
theorem Laws.LargestPart.microword : ∀ die eng micro nano, Statement (.microword die eng micro nano) := fun die eng micro nano => Laws.dieOk_largest _
theorem Laws.LargestPart.longrun : ∀ die eng, Statement (.longrun die eng) := fun die eng => Laws.dieOk_largest _
theorem Laws.LargestPart.memoryReadComplete : ∀ die eng ctx, Statement (.memoryReadComplete die eng ctx) := fun die eng ctx => Laws.dieOk_largest _
theorem Laws.LargestPart.contextTimerExpire : ∀ die eng ctx, Statement (.contextTimerExpire die eng ctx) := fun die eng ctx => Laws.dieOk_largest _
theorem Laws.LargestPart.storeRewrite : ∀ die eng, Statement (.storeRewrite die eng) := fun die eng => Laws.dieOk_largest _
theorem Laws.LargestPart.chnUload : ∀ pat, Statement (.chnUload pat) := fun pat => rfl
theorem Laws.LargestPart.transformTurnStart : ∀ die, Statement (.transformTurnStart die) := fun die => Laws.dieOk_largest _
theorem Laws.LargestPart.turnEnd : ∀ die index, Statement (.turnEnd die index) := fun die index => Laws.dieOk_largest _
theorem Laws.LargestPart.keyCacheFetch : ∀ die woad slot, Statement (.keyCacheFetch die woad slot) := fun die woad slot => Laws.dieOk_largest _
theorem Laws.LargestPart.xformEngineLoss : ∀ die woad eng, Statement (.xformEngineLoss die woad eng) := fun die woad eng => Laws.dieOk_largest _
theorem Laws.LargestPart.kvGen : ∀ src dst, Statement (.kvGen src dst) := fun src dst => rfl
theorem Laws.LargestPart.kvImport : ∀ src dst, Statement (.kvImport src dst) := fun src dst => rfl
theorem Laws.LargestPart.kvDerive : ∀ src dst, Statement (.kvDerive src dst) := fun src dst => rfl
theorem Laws.LargestPart.kvSetattr : ∀ src dst, Statement (.kvSetattr src dst) := fun src dst => rfl
theorem Laws.LargestPart.kvZero : ∀ src dst, Statement (.kvZero src dst) := fun src dst => rfl
theorem Laws.LargestPart.frlPttcmd : ∀ die part, Statement (.frlPttcmd die part) := fun die part => Laws.dieOk_largest _
theorem Laws.LargestPart.schInvPmt : ∀ die part, Statement (.schInvPmt die part) := fun die part => Laws.dieOk_largest _
theorem Laws.LargestPart.schInvCc : ∀ die part, Statement (.schInvCc die part) := fun die part => Laws.dieOk_largest _
theorem Laws.LargestPart.schPstcmd : ∀ die part, Statement (.schPstcmd die part) := fun die part => Laws.dieOk_largest _
theorem Laws.LargestPart.schPptcmd : ∀ die part, Statement (.schPptcmd die part) := fun die part => Laws.dieOk_largest _
theorem Laws.LargestPart.pxtInv : ∀ die part, Statement (.pxtInv die part) := fun die part => Laws.dieOk_largest _
theorem Laws.LargestPart.create : ∀ part, Statement (.create part) := fun part => rfl
theorem Laws.LargestPart.destroy : ∀ part, Statement (.destroy part) := fun part => rfl
theorem Laws.LargestPart.mailboxIgo : ∀ part, Statement (.mailboxIgo part) := fun part => rfl
theorem Laws.LargestPart.mailboxIack : ∀ part, Statement (.mailboxIack part) := fun part => rfl
theorem Laws.LargestPart.mailboxOgo : ∀ part, Statement (.mailboxOgo part) := fun part => rfl
theorem Laws.LargestPart.mailboxOack : ∀ part, Statement (.mailboxOack part) := fun part => rfl
theorem Laws.LargestPart.ringDoorbell : ∀ part out, Statement (.ringDoorbell part out) := fun part out => rfl
theorem Laws.LargestPart.faultDetection : ∀ report, Statement (.faultDetection report) := fun report => rfl
theorem Laws.LargestPart.retryCounterLeak : ∀ pe, Statement (.retryCounterLeak pe) := fun pe => Laws.dieOk_largest _
theorem Laws.LargestPart.peBistDone : ∀ pe pass, Statement (.peBistDone pe pass) := fun pe pass => Laws.dieOk_largest _
theorem Laws.LargestPart.pairBistDone : ∀ die pair pass, Statement (.pairBistDone die pair pass) := fun die pair pass => Laws.dieOk_largest _
theorem Laws.LargestPart.mdrPaircmd : ∀ die lcore, Statement (.mdrPaircmd die lcore) := fun die lcore => Laws.dieOk_largest _
theorem Laws.LargestPart.mdrLogack : ∀ die slot, Statement (.mdrLogack die slot) := fun die slot => Laws.dieOk_largest _
theorem Laws.LargestPart.faultNPulseExpire : Statement .faultNPulseExpire := rfl
theorem Laws.LargestPart.mdrFnctlWrite : ∀ drive minclass, Statement (.mdrFnctlWrite drive minclass) := fun drive minclass => rfl
theorem Laws.LargestPart.linkFailure : ∀ die link, Statement (.linkFailure die link) := fun die link => Laws.dieOk_largest _
theorem Laws.LargestPart.dieWithdrawal : ∀ die, Statement (.dieWithdrawal die) := fun die => Laws.dieOk_largest _
theorem Laws.LargestPart.mdrWdraw : ∀ target, Statement (.mdrWdraw target) := fun target => Laws.dieOk_largest _
theorem Laws.LargestPart.mdrInjctl : ∀ die value, Statement (.mdrInjctl die value) := fun die value => Laws.dieOk_largest _
theorem Laws.LargestPart.blkEnable : ∀ die blk src, Statement (.blkEnable die blk src) := fun die blk src => Laws.dieOk_largest _
theorem Laws.LargestPart.blkDisable : ∀ die blk src, Statement (.blkDisable die blk src) := fun die blk src => Laws.dieOk_largest _
theorem Laws.LargestPart.blkRst : ∀ die blk value src, Statement (.blkRst die blk value src) := fun die blk value src => Laws.dieOk_largest _
theorem Laws.LargestPart.blkResetDone : ∀ die blk, Statement (.blkResetDone die blk) := fun die blk => Laws.dieOk_largest _
theorem Laws.LargestPart.blkClrrej : ∀ die blk, Statement (.blkClrrej die blk) := fun die blk => Laws.dieOk_largest _
theorem Laws.LargestPart.configParityCheck : ∀ die blk, Statement (.configParityCheck die blk) := fun die blk => Laws.dieOk_largest _
theorem Laws.LargestPart.counterClear : ∀ die blk word value, Statement (.counterClear die blk word value) := fun die blk word value => Laws.dieOk_largest _
theorem Laws.LargestPart.watermarkWrite : ∀ die blk word value, Statement (.watermarkWrite die blk word value) := fun die blk word value => Laws.dieOk_largest _
theorem Laws.LargestPart.registerWrite : ∀ idx value src, Statement (.registerWrite idx value src) := fun idx value src => rfl
theorem Laws.LargestPart.mstCheck : Statement .mstCheck := rfl
theorem Laws.LargestPart.mstInval : ∀ slot flashOk, Statement (.mstInval slot flashOk) := fun slot flashOk => rfl
theorem Laws.LargestPart.mstErase : ∀ slot flashOk, Statement (.mstErase slot flashOk) := fun slot flashOk => rfl
theorem Laws.LargestPart.mstProgram : ∀ slot flashOk, Statement (.mstProgram slot flashOk) := fun slot flashOk => rfl
theorem Laws.LargestPart.mstCommit : ∀ slot flashOk, Statement (.mstCommit slot flashOk) := fun slot flashOk => rfl
theorem Laws.LargestPart.jreport : ∀ target, Statement (.jreport target) := fun target => rfl
theorem Laws.LargestPart.mstUpddataWrite : ∀ value, Statement (.mstUpddataWrite value) := fun value => rfl
theorem Laws.LargestPart.mstUpdaddrLoWrite : ∀ value, Statement (.mstUpdaddrLoWrite value) := fun value => rfl
theorem Laws.LargestPart.fusArm : ∀ target arg, Statement (.fusArm target arg) := fun target arg => rfl
theorem Laws.LargestPart.fusGo : ∀ target arg, Statement (.fusGo target arg) := fun target arg => rfl
theorem Laws.LargestPart.vin48Loss : ∀ warnedEarly, Statement (.vin48Loss warnedEarly) := fun warnedEarly => rfl
theorem Laws.LargestPart.powerReturnReset : ∀ flashOk, Statement (.powerReturnReset flashOk) := fun flashOk => rfl
theorem Laws.LargestPart.tamperZeroise : ∀ cause, Statement (.tamperZeroise cause) := fun cause => rfl
theorem Laws.LargestPart.auxLoss : ∀ vbat, Statement (.auxLoss vbat) := fun vbat => rfl
theorem Laws.LargestPart.pwrRtcWrite : ∀ value, Statement (.pwrRtcWrite value) := fun value => rfl
theorem Laws.LargestPart.pwrTamperClr : Statement .pwrTamperClr := rfl
theorem Laws.LargestPart.reefChange : Statement .reefChange := rfl
theorem Laws.LargestPart.pwrReefWrite : ∀ req, Statement (.pwrReefWrite req) := fun req => rfl
theorem Laws.LargestPart.thermalLevelStep : ∀ hot, Statement (.thermalLevelStep hot) := fun hot => rfl
theorem Laws.LargestPart.thrmalrtNAssert : Statement .thrmalrtNAssert := rfl
theorem Laws.LargestPart.thrmalrtNDeassert : Statement .thrmalrtNDeassert := rfl
theorem Laws.LargestPart.powerLimitStep : ∀ above, Statement (.powerLimitStep above) := fun above => rfl
theorem Laws.LargestPart.thermtrip : ∀ die sensor, Statement (.thermtrip die sensor) := fun die sensor => Laws.dieOk_largest _
theorem Laws.LargestPart.sensorOutOfUse : ∀ die sensor, Statement (.sensorOutOfUse die sensor) := fun die sensor => Laws.dieOk_largest _
theorem Laws.LargestPart.umberSample : ∀ reads, Statement (.umberSample reads) := fun reads => rfl
theorem Laws.LargestPart.canaryIntervalEnd : ∀ die place hits, Statement (.canaryIntervalEnd die place hits) := fun die place hits => Laws.dieOk_largest _
theorem Laws.LargestPart.dailyReplan : Statement .dailyReplan := rfl
theorem Laws.LargestPart.ageingLogWrite : ∀ flashOk, Statement (.ageingLogWrite flashOk) := fun flashOk => rfl
theorem Laws.LargestPart.umbSampleNow : ∀ die reads, Statement (.umbSampleNow die reads) := fun die reads => Laws.dieOk_largest _
theorem Laws.LargestPart.umbReplanNow : ∀ die, Statement (.umbReplanNow die) := fun die => Laws.dieOk_largest _
theorem Laws.LargestPart.gatePowerOff : ∀ die blk unit src, Statement (.gatePowerOff die blk unit src) := fun die blk unit src => Laws.dieOk_largest _
theorem Laws.LargestPart.gatePowerOn : ∀ die blk unit src, Statement (.gatePowerOn die blk unit src) := fun die blk unit src => Laws.dieOk_largest _
theorem Laws.LargestPart.timebaseAlignment : Statement .timebaseAlignment := rfl
theorem Laws.LargestPart.spiFrame : ∀ edges word, Statement (.spiFrame edges word) := fun edges word => rfl
theorem Laws.LargestPart.spiIdleTimeout : ∀ edges, Statement (.spiIdleTimeout edges) := fun edges => rfl
theorem Laws.LargestPart.read : ∀ port idx, Statement (.read port idx) := fun port idx => rfl
theorem Laws.LargestPart.write : ∀ port idx value, Statement (.write port idx value) := fun port idx value => rfl
theorem Laws.LargestPart.poll : ∀ port, Statement (.poll port) := fun port => rfl
theorem Laws.LargestPart.rdata : ∀ port, Statement (.rdata port) := fun port => rfl
theorem Laws.LargestPart.portrd : ∀ port reg, Statement (.portrd port reg) := fun port reg => rfl
theorem Laws.LargestPart.portclr : ∀ port mask, Statement (.portclr port mask) := fun port mask => rfl
theorem Laws.LargestPart.portAccessEnd : ∀ port timeout, Statement (.portAccessEnd port timeout) := fun port timeout => rfl
theorem Laws.LargestPart.i3cPrivateWrite : ∀ bytes, Statement (.i3cPrivateWrite bytes) := fun bytes => rfl
theorem Laws.LargestPart.i3cPrivateRead : Statement .i3cPrivateRead := rfl
theorem Laws.LargestPart.i3cCcc : ∀ code data, Statement (.i3cCcc code data) := fun code data => rfl
theorem Laws.LargestPart.ibi : ∀ start, Statement (.ibi start) := fun start => rfl
theorem Laws.LargestPart.ibiRetry : ∀ start, Statement (.ibiRetry start) := fun start => rfl
theorem Laws.LargestPart.getacccr : ∀ sent accepted, Statement (.getacccr sent accepted) := fun sent accepted => rfl
theorem Laws.LargestPart.auxRestore : Statement .auxRestore := rfl
theorem Laws.LargestPart.ethernetLinkChange : ∀ die sub up, Statement (.ethernetLinkChange die sub up) := fun die sub up => Laws.dieOk_largest _
theorem Laws.LargestPart.controllerRoleRequest : Statement .controllerRoleRequest := rfl
theorem Laws.LargestPart.testAccessPortOperation : ∀ op, Statement (.testAccessPortOperation op) := fun op => rfl
theorem Laws.LargestPart.streamCommandComplete : ∀ die eng ctx status, Statement (.streamCommandComplete die eng ctx status) := fun die eng ctx status => Laws.dieOk_largest _

end Sys2Proof
end

