-- ==== Sys2Proof/Laws/State.lean ====
section
/-! SUPPORT. What every update of one field of the state leaves: one lemma for each other field, and what the field's own reader
finds. -/

namespace Sys2Proof.Machine

@[simp] theorem modChan_part (s : State) (d : Nat) (f : Chan → Chan) : (modChan s d f).part = s.part := rfl
@[simp] theorem modChan_mem (s : State) (d : Nat) (f : Chan → Chan) : (modChan s d f).mem = s.mem := rfl
@[simp] theorem modChan_poison (s : State) (d : Nat) (f : Chan → Chan) : (modChan s d f).poison = s.poison := rfl
@[simp] theorem modChan_csr (s : State) (d : Nat) (f : Chan → Chan) : (modChan s d f).csr = s.csr := rfl
@[simp] theorem modChan_spars (s : State) (d : Nat) (f : Chan → Chan) : (modChan s d f).spars = s.spars := rfl
@[simp] theorem modChan_pes (s : State) (d : Nat) (f : Chan → Chan) : (modChan s d f).pes = s.pes := rfl
@[simp] theorem modChan_resvs (s : State) (d : Nat) (f : Chan → Chan) : (modChan s d f).resvs = s.resvs := rfl
@[simp] theorem modChan_dies (s : State) (d : Nat) (f : Chan → Chan) : (modChan s d f).dies = s.dies := rfl
@[simp] theorem modChan_hw (s : State) (d : Nat) (f : Chan → Chan) : (modChan s d f).hw = s.hw := rfl
@[simp] theorem modChan_traps (s : State) (d : Nat) (f : Chan → Chan) : (modChan s d f).traps = s.traps := rfl
@[simp] theorem modChan_flowMsgs (s : State) (d : Nat) (f : Chan → Chan) : (modChan s d f).flowMsgs = s.flowMsgs := rfl
@[simp] theorem modChan_notices (s : State) (d : Nat) (f : Chan → Chan) : (modChan s d f).notices = s.notices := rfl
@[simp] theorem modChan_gateMsgs (s : State) (d : Nat) (f : Chan → Chan) : (modChan s d f).gateMsgs = s.gateMsgs := rfl
@[simp] theorem modChan_gateWaits (s : State) (d : Nat) (f : Chan → Chan) : (modChan s d f).gateWaits = s.gateWaits := rfl
@[simp] theorem modChan_luffs (s : State) (d : Nat) (f : Chan → Chan) : (modChan s d f).luffs = s.luffs := rfl
@[simp] theorem modChan_pcache (s : State) (d : Nat) (f : Chan → Chan) : (modChan s d f).pcache = s.pcache := rfl
@[simp] theorem modChan_tlb (s : State) (d : Nat) (f : Chan → Chan) : (modChan s d f).tlb = s.tlb := rfl
@[simp] theorem modChan_dramWords (s : State) (d : Nat) (f : Chan → Chan) : (modChan s d f).dramWords = s.dramWords := rfl
@[simp] theorem modChan_hdm (s : State) (d : Nat) (f : Chan → Chan) : (modChan s d f).hdm = s.hdm := rfl
@[simp] theorem modChan_sups (s : State) (d : Nat) (f : Chan → Chan) : (modChan s d f).sups = s.sups := rfl
@[simp] theorem modChan_supIssues (s : State) (d : Nat) (f : Chan → Chan) : (modChan s d f).supIssues = s.supIssues := rfl
@[simp] theorem modChan_caches (s : State) (d : Nat) (f : Chan → Chan) : (modChan s d f).caches = s.caches := rfl
@[simp] theorem modChan_llc (s : State) (d : Nat) (f : Chan → Chan) : (modChan s d f).llc = s.llc := rfl
@[simp] theorem modChan_homeTx (s : State) (d : Nat) (f : Chan → Chan) : (modChan s d f).homeTx = s.homeTx := rfl
@[simp] theorem modChan_sliceQ (s : State) (d : Nat) (f : Chan → Chan) : (modChan s d f).sliceQ = s.sliceQ := rfl
@[simp] theorem modChan_snoops (s : State) (d : Nat) (f : Chan → Chan) : (modChan s d f).snoops = s.snoops := rfl
@[simp] theorem modChan_fetchMoves (s : State) (d : Nat) (f : Chan → Chan) : (modChan s d f).fetchMoves = s.fetchMoves := rfl
@[simp] theorem modChan_ageHeld (s : State) (d : Nat) (f : Chan → Chan) : (modChan s d f).ageHeld = s.ageHeld := rfl
@[simp] theorem modChan_tap (s : State) (d : Nat) (f : Chan → Chan) : (modChan s d f).tap = s.tap := rfl
@[simp] theorem modChan_answers (s : State) (d : Nat) (f : Chan → Chan) : (modChan s d f).answers = s.answers := rfl
@[simp] theorem modChan_useStamp (s : State) (d : Nat) (f : Chan → Chan) : (modChan s d f).useStamp = s.useStamp := rfl
@[simp] theorem modChan_given (s : State) (d : Nat) (f : Chan → Chan) : (modChan s d f).given = s.given := rfl
@[simp] theorem modChan_engs (s : State) (d : Nat) (f : Chan → Chan) : (modChan s d f).engs = s.engs := rfl
@[simp] theorem modChan_works (s : State) (d : Nat) (f : Chan → Chan) : (modChan s d f).works = s.works := rfl
@[simp] theorem modChan_ctrls (s : State) (d : Nat) (f : Chan → Chan) : (modChan s d f).ctrls = s.ctrls := rfl
@[simp] theorem modChan_sess (s : State) (d : Nat) (f : Chan → Chan) : (modChan s d f).sess = s.sess := rfl
@[simp] theorem modChan_assocs (s : State) (d : Nat) (f : Chan → Chan) : (modChan s d f).assocs = s.assocs := rfl
@[simp] theorem modChan_mseqs (s : State) (d : Nat) (f : Chan → Chan) : (modChan s d f).mseqs = s.mseqs := rfl
@[simp] theorem modChan_ustores (s : State) (d : Nat) (f : Chan → Chan) : (modChan s d f).ustores = s.ustores := rfl
@[simp] theorem modChan_vault (s : State) (d : Nat) (f : Chan → Chan) : (modChan s d f).vault = s.vault := rfl
@[simp] theorem modChan_xforms (s : State) (d : Nat) (f : Chan → Chan) : (modChan s d f).xforms = s.xforms := rfl
@[simp] theorem modChan_flash (s : State) (d : Nat) (f : Chan → Chan) : (modChan s d f).flash = s.flash := rfl
@[simp] theorem modChan_ageDue (s : State) (d : Nat) (f : Chan → Chan) : (modChan s d f).ageDue = s.ageDue := rfl
@[simp] theorem modChan_straps (s : State) (d : Nat) (f : Chan → Chan) : (modChan s d f).straps = s.straps := rfl
@[simp] theorem modChan_fuses (s : State) (d : Nat) (f : Chan → Chan) : (modChan s d f).fuses = s.fuses := rfl
@[simp] theorem modChan_fusesIn (s : State) (d : Nat) (f : Chan → Chan) : (modChan s d f).fusesIn = s.fusesIn := rfl
@[simp] theorem modChan_mst (s : State) (d : Nat) (f : Chan → Chan) : (modChan s d f).mst = s.mst := rfl
@[simp] theorem modChan_pw (s : State) (d : Nat) (f : Chan → Chan) : (modChan s d f).pw = s.pw := rfl
@[simp] theorem modChan_spi (s : State) (d : Nat) (f : Chan → Chan) : (modChan s d f).spi = s.spi := rfl
@[simp] theorem modChan_i3cPort (s : State) (d : Nat) (f : Chan → Chan) : (modChan s d f).i3cPort = s.i3cPort := rfl
@[simp] theorem modChan_spiDead (s : State) (d : Nat) (f : Chan → Chan) : (modChan s d f).spiDead = s.spiDead := rfl
@[simp] theorem modChan_portCnt (s : State) (d : Nat) (f : Chan → Chan) : (modChan s d f).portCnt = s.portCnt := rfl
@[simp] theorem modChan_i3c (s : State) (d : Nat) (f : Chan → Chan) : (modChan s d f).i3c = s.i3c := rfl
@[simp] theorem modChan_rawHalt (s : State) (d : Nat) (f : Chan → Chan) : (modChan s d f).rawHalt = s.rawHalt := rfl
@[simp] theorem modChan_release (s : State) (d : Nat) (f : Chan → Chan) : (modChan s d f).release = s.release := rfl
@[simp] theorem modChan_fatal (s : State) (d : Nat) (f : Chan → Chan) : (modChan s d f).fatal = s.fatal := rfl
@[simp] theorem modChan_pulse (s : State) (d : Nat) (f : Chan → Chan) : (modChan s d f).pulse = s.pulse := rfl
@[simp] theorem modChan_fresh (s : State) (d : Nat) (f : Chan → Chan) : (modChan s d f).fresh = s.fresh := rfl
@[simp] theorem modChan_pending (s : State) (d : Nat) (f : Chan → Chan) : (modChan s d f).pending = s.pending := rfl
@[simp] theorem modChan_strays (s : State) (d : Nat) (f : Chan → Chan) : (modChan s d f).strays = s.strays := rfl
@[simp] theorem modChan_lrQueue (s : State) (d : Nat) (f : Chan → Chan) : (modChan s d f).lrQueue = s.lrQueue := rfl
@[simp] theorem modChan_posted (s : State) (d : Nat) (f : Chan → Chan) : (modChan s d f).posted = s.posted := rfl
@[simp] theorem modChan_cmdBusy (s : State) (d : Nat) (f : Chan → Chan) : (modChan s d f).cmdBusy = s.cmdBusy := rfl
@[simp] theorem modChan_rwdHeld (s : State) (d : Nat) (f : Chan → Chan) : (modChan s d f).rwdHeld = s.rwdHeld := rfl
@[simp] theorem modEng_part (s : State) (k : Nat) (f : Eng → Eng) : (modEng s k f).part = s.part := rfl
@[simp] theorem modEng_mem (s : State) (k : Nat) (f : Eng → Eng) : (modEng s k f).mem = s.mem := rfl
@[simp] theorem modEng_poison (s : State) (k : Nat) (f : Eng → Eng) : (modEng s k f).poison = s.poison := rfl
@[simp] theorem modEng_csr (s : State) (k : Nat) (f : Eng → Eng) : (modEng s k f).csr = s.csr := rfl
@[simp] theorem modEng_spars (s : State) (k : Nat) (f : Eng → Eng) : (modEng s k f).spars = s.spars := rfl
@[simp] theorem modEng_pes (s : State) (k : Nat) (f : Eng → Eng) : (modEng s k f).pes = s.pes := rfl
@[simp] theorem modEng_resvs (s : State) (k : Nat) (f : Eng → Eng) : (modEng s k f).resvs = s.resvs := rfl
@[simp] theorem modEng_dies (s : State) (k : Nat) (f : Eng → Eng) : (modEng s k f).dies = s.dies := rfl
@[simp] theorem modEng_hw (s : State) (k : Nat) (f : Eng → Eng) : (modEng s k f).hw = s.hw := rfl
@[simp] theorem modEng_traps (s : State) (k : Nat) (f : Eng → Eng) : (modEng s k f).traps = s.traps := rfl
@[simp] theorem modEng_flowMsgs (s : State) (k : Nat) (f : Eng → Eng) : (modEng s k f).flowMsgs = s.flowMsgs := rfl
@[simp] theorem modEng_notices (s : State) (k : Nat) (f : Eng → Eng) : (modEng s k f).notices = s.notices := rfl
@[simp] theorem modEng_gateMsgs (s : State) (k : Nat) (f : Eng → Eng) : (modEng s k f).gateMsgs = s.gateMsgs := rfl
@[simp] theorem modEng_gateWaits (s : State) (k : Nat) (f : Eng → Eng) : (modEng s k f).gateWaits = s.gateWaits := rfl
@[simp] theorem modEng_luffs (s : State) (k : Nat) (f : Eng → Eng) : (modEng s k f).luffs = s.luffs := rfl
@[simp] theorem modEng_pcache (s : State) (k : Nat) (f : Eng → Eng) : (modEng s k f).pcache = s.pcache := rfl
@[simp] theorem modEng_tlb (s : State) (k : Nat) (f : Eng → Eng) : (modEng s k f).tlb = s.tlb := rfl
@[simp] theorem modEng_dramWords (s : State) (k : Nat) (f : Eng → Eng) : (modEng s k f).dramWords = s.dramWords := rfl
@[simp] theorem modEng_hdm (s : State) (k : Nat) (f : Eng → Eng) : (modEng s k f).hdm = s.hdm := rfl
@[simp] theorem modEng_sups (s : State) (k : Nat) (f : Eng → Eng) : (modEng s k f).sups = s.sups := rfl
@[simp] theorem modEng_supIssues (s : State) (k : Nat) (f : Eng → Eng) : (modEng s k f).supIssues = s.supIssues := rfl
@[simp] theorem modEng_caches (s : State) (k : Nat) (f : Eng → Eng) : (modEng s k f).caches = s.caches := rfl
@[simp] theorem modEng_llc (s : State) (k : Nat) (f : Eng → Eng) : (modEng s k f).llc = s.llc := rfl
@[simp] theorem modEng_homeTx (s : State) (k : Nat) (f : Eng → Eng) : (modEng s k f).homeTx = s.homeTx := rfl
@[simp] theorem modEng_sliceQ (s : State) (k : Nat) (f : Eng → Eng) : (modEng s k f).sliceQ = s.sliceQ := rfl
@[simp] theorem modEng_snoops (s : State) (k : Nat) (f : Eng → Eng) : (modEng s k f).snoops = s.snoops := rfl
@[simp] theorem modEng_fetchMoves (s : State) (k : Nat) (f : Eng → Eng) : (modEng s k f).fetchMoves = s.fetchMoves := rfl
@[simp] theorem modEng_ageHeld (s : State) (k : Nat) (f : Eng → Eng) : (modEng s k f).ageHeld = s.ageHeld := rfl
@[simp] theorem modEng_tap (s : State) (k : Nat) (f : Eng → Eng) : (modEng s k f).tap = s.tap := rfl
@[simp] theorem modEng_answers (s : State) (k : Nat) (f : Eng → Eng) : (modEng s k f).answers = s.answers := rfl
@[simp] theorem modEng_useStamp (s : State) (k : Nat) (f : Eng → Eng) : (modEng s k f).useStamp = s.useStamp := rfl
@[simp] theorem modEng_given (s : State) (k : Nat) (f : Eng → Eng) : (modEng s k f).given = s.given := rfl
@[simp] theorem modEng_chans (s : State) (k : Nat) (f : Eng → Eng) : (modEng s k f).chans = s.chans := rfl
@[simp] theorem modEng_works (s : State) (k : Nat) (f : Eng → Eng) : (modEng s k f).works = s.works := rfl
@[simp] theorem modEng_ctrls (s : State) (k : Nat) (f : Eng → Eng) : (modEng s k f).ctrls = s.ctrls := rfl
@[simp] theorem modEng_sess (s : State) (k : Nat) (f : Eng → Eng) : (modEng s k f).sess = s.sess := rfl
@[simp] theorem modEng_assocs (s : State) (k : Nat) (f : Eng → Eng) : (modEng s k f).assocs = s.assocs := rfl
@[simp] theorem modEng_mseqs (s : State) (k : Nat) (f : Eng → Eng) : (modEng s k f).mseqs = s.mseqs := rfl
@[simp] theorem modEng_ustores (s : State) (k : Nat) (f : Eng → Eng) : (modEng s k f).ustores = s.ustores := rfl
@[simp] theorem modEng_vault (s : State) (k : Nat) (f : Eng → Eng) : (modEng s k f).vault = s.vault := rfl
@[simp] theorem modEng_xforms (s : State) (k : Nat) (f : Eng → Eng) : (modEng s k f).xforms = s.xforms := rfl
@[simp] theorem modEng_flash (s : State) (k : Nat) (f : Eng → Eng) : (modEng s k f).flash = s.flash := rfl
@[simp] theorem modEng_ageDue (s : State) (k : Nat) (f : Eng → Eng) : (modEng s k f).ageDue = s.ageDue := rfl
@[simp] theorem modEng_straps (s : State) (k : Nat) (f : Eng → Eng) : (modEng s k f).straps = s.straps := rfl
@[simp] theorem modEng_fuses (s : State) (k : Nat) (f : Eng → Eng) : (modEng s k f).fuses = s.fuses := rfl
@[simp] theorem modEng_fusesIn (s : State) (k : Nat) (f : Eng → Eng) : (modEng s k f).fusesIn = s.fusesIn := rfl
@[simp] theorem modEng_mst (s : State) (k : Nat) (f : Eng → Eng) : (modEng s k f).mst = s.mst := rfl
@[simp] theorem modEng_pw (s : State) (k : Nat) (f : Eng → Eng) : (modEng s k f).pw = s.pw := rfl
@[simp] theorem modEng_spi (s : State) (k : Nat) (f : Eng → Eng) : (modEng s k f).spi = s.spi := rfl
@[simp] theorem modEng_i3cPort (s : State) (k : Nat) (f : Eng → Eng) : (modEng s k f).i3cPort = s.i3cPort := rfl
@[simp] theorem modEng_spiDead (s : State) (k : Nat) (f : Eng → Eng) : (modEng s k f).spiDead = s.spiDead := rfl
@[simp] theorem modEng_portCnt (s : State) (k : Nat) (f : Eng → Eng) : (modEng s k f).portCnt = s.portCnt := rfl
@[simp] theorem modEng_i3c (s : State) (k : Nat) (f : Eng → Eng) : (modEng s k f).i3c = s.i3c := rfl
@[simp] theorem modEng_rawHalt (s : State) (k : Nat) (f : Eng → Eng) : (modEng s k f).rawHalt = s.rawHalt := rfl
@[simp] theorem modEng_release (s : State) (k : Nat) (f : Eng → Eng) : (modEng s k f).release = s.release := rfl
@[simp] theorem modEng_fatal (s : State) (k : Nat) (f : Eng → Eng) : (modEng s k f).fatal = s.fatal := rfl
@[simp] theorem modEng_pulse (s : State) (k : Nat) (f : Eng → Eng) : (modEng s k f).pulse = s.pulse := rfl
@[simp] theorem modEng_fresh (s : State) (k : Nat) (f : Eng → Eng) : (modEng s k f).fresh = s.fresh := rfl
@[simp] theorem modEng_pending (s : State) (k : Nat) (f : Eng → Eng) : (modEng s k f).pending = s.pending := rfl
@[simp] theorem modEng_strays (s : State) (k : Nat) (f : Eng → Eng) : (modEng s k f).strays = s.strays := rfl
@[simp] theorem modEng_lrQueue (s : State) (k : Nat) (f : Eng → Eng) : (modEng s k f).lrQueue = s.lrQueue := rfl
@[simp] theorem modEng_posted (s : State) (k : Nat) (f : Eng → Eng) : (modEng s k f).posted = s.posted := rfl
@[simp] theorem modEng_cmdBusy (s : State) (k : Nat) (f : Eng → Eng) : (modEng s k f).cmdBusy = s.cmdBusy := rfl
@[simp] theorem modEng_rwdHeld (s : State) (k : Nat) (f : Eng → Eng) : (modEng s k f).rwdHeld = s.rwdHeld := rfl
@[simp] theorem modWork_part (s : State) (i : Nat) (f : Work → Work) : (modWork s i f).part = s.part := rfl
@[simp] theorem modWork_mem (s : State) (i : Nat) (f : Work → Work) : (modWork s i f).mem = s.mem := rfl
@[simp] theorem modWork_poison (s : State) (i : Nat) (f : Work → Work) : (modWork s i f).poison = s.poison := rfl
@[simp] theorem modWork_csr (s : State) (i : Nat) (f : Work → Work) : (modWork s i f).csr = s.csr := rfl
@[simp] theorem modWork_spars (s : State) (i : Nat) (f : Work → Work) : (modWork s i f).spars = s.spars := rfl
@[simp] theorem modWork_pes (s : State) (i : Nat) (f : Work → Work) : (modWork s i f).pes = s.pes := rfl
@[simp] theorem modWork_resvs (s : State) (i : Nat) (f : Work → Work) : (modWork s i f).resvs = s.resvs := rfl
@[simp] theorem modWork_dies (s : State) (i : Nat) (f : Work → Work) : (modWork s i f).dies = s.dies := rfl
@[simp] theorem modWork_hw (s : State) (i : Nat) (f : Work → Work) : (modWork s i f).hw = s.hw := rfl
@[simp] theorem modWork_traps (s : State) (i : Nat) (f : Work → Work) : (modWork s i f).traps = s.traps := rfl
@[simp] theorem modWork_flowMsgs (s : State) (i : Nat) (f : Work → Work) : (modWork s i f).flowMsgs = s.flowMsgs := rfl
@[simp] theorem modWork_notices (s : State) (i : Nat) (f : Work → Work) : (modWork s i f).notices = s.notices := rfl
@[simp] theorem modWork_gateMsgs (s : State) (i : Nat) (f : Work → Work) : (modWork s i f).gateMsgs = s.gateMsgs := rfl
@[simp] theorem modWork_gateWaits (s : State) (i : Nat) (f : Work → Work) : (modWork s i f).gateWaits = s.gateWaits := rfl
@[simp] theorem modWork_luffs (s : State) (i : Nat) (f : Work → Work) : (modWork s i f).luffs = s.luffs := rfl
@[simp] theorem modWork_pcache (s : State) (i : Nat) (f : Work → Work) : (modWork s i f).pcache = s.pcache := rfl
@[simp] theorem modWork_tlb (s : State) (i : Nat) (f : Work → Work) : (modWork s i f).tlb = s.tlb := rfl
@[simp] theorem modWork_dramWords (s : State) (i : Nat) (f : Work → Work) : (modWork s i f).dramWords = s.dramWords := rfl
@[simp] theorem modWork_hdm (s : State) (i : Nat) (f : Work → Work) : (modWork s i f).hdm = s.hdm := rfl
@[simp] theorem modWork_sups (s : State) (i : Nat) (f : Work → Work) : (modWork s i f).sups = s.sups := rfl
@[simp] theorem modWork_supIssues (s : State) (i : Nat) (f : Work → Work) : (modWork s i f).supIssues = s.supIssues := rfl
@[simp] theorem modWork_caches (s : State) (i : Nat) (f : Work → Work) : (modWork s i f).caches = s.caches := rfl
@[simp] theorem modWork_llc (s : State) (i : Nat) (f : Work → Work) : (modWork s i f).llc = s.llc := rfl
@[simp] theorem modWork_homeTx (s : State) (i : Nat) (f : Work → Work) : (modWork s i f).homeTx = s.homeTx := rfl
@[simp] theorem modWork_sliceQ (s : State) (i : Nat) (f : Work → Work) : (modWork s i f).sliceQ = s.sliceQ := rfl
@[simp] theorem modWork_snoops (s : State) (i : Nat) (f : Work → Work) : (modWork s i f).snoops = s.snoops := rfl
@[simp] theorem modWork_fetchMoves (s : State) (i : Nat) (f : Work → Work) : (modWork s i f).fetchMoves = s.fetchMoves := rfl
@[simp] theorem modWork_ageHeld (s : State) (i : Nat) (f : Work → Work) : (modWork s i f).ageHeld = s.ageHeld := rfl
@[simp] theorem modWork_tap (s : State) (i : Nat) (f : Work → Work) : (modWork s i f).tap = s.tap := rfl
@[simp] theorem modWork_answers (s : State) (i : Nat) (f : Work → Work) : (modWork s i f).answers = s.answers := rfl
@[simp] theorem modWork_useStamp (s : State) (i : Nat) (f : Work → Work) : (modWork s i f).useStamp = s.useStamp := rfl
@[simp] theorem modWork_given (s : State) (i : Nat) (f : Work → Work) : (modWork s i f).given = s.given := rfl
@[simp] theorem modWork_chans (s : State) (i : Nat) (f : Work → Work) : (modWork s i f).chans = s.chans := rfl
@[simp] theorem modWork_engs (s : State) (i : Nat) (f : Work → Work) : (modWork s i f).engs = s.engs := rfl
@[simp] theorem modWork_ctrls (s : State) (i : Nat) (f : Work → Work) : (modWork s i f).ctrls = s.ctrls := rfl
@[simp] theorem modWork_sess (s : State) (i : Nat) (f : Work → Work) : (modWork s i f).sess = s.sess := rfl
@[simp] theorem modWork_assocs (s : State) (i : Nat) (f : Work → Work) : (modWork s i f).assocs = s.assocs := rfl
@[simp] theorem modWork_mseqs (s : State) (i : Nat) (f : Work → Work) : (modWork s i f).mseqs = s.mseqs := rfl
@[simp] theorem modWork_ustores (s : State) (i : Nat) (f : Work → Work) : (modWork s i f).ustores = s.ustores := rfl
@[simp] theorem modWork_vault (s : State) (i : Nat) (f : Work → Work) : (modWork s i f).vault = s.vault := rfl
@[simp] theorem modWork_xforms (s : State) (i : Nat) (f : Work → Work) : (modWork s i f).xforms = s.xforms := rfl
@[simp] theorem modWork_flash (s : State) (i : Nat) (f : Work → Work) : (modWork s i f).flash = s.flash := rfl
@[simp] theorem modWork_ageDue (s : State) (i : Nat) (f : Work → Work) : (modWork s i f).ageDue = s.ageDue := rfl
@[simp] theorem modWork_straps (s : State) (i : Nat) (f : Work → Work) : (modWork s i f).straps = s.straps := rfl
@[simp] theorem modWork_fuses (s : State) (i : Nat) (f : Work → Work) : (modWork s i f).fuses = s.fuses := rfl
@[simp] theorem modWork_fusesIn (s : State) (i : Nat) (f : Work → Work) : (modWork s i f).fusesIn = s.fusesIn := rfl
@[simp] theorem modWork_mst (s : State) (i : Nat) (f : Work → Work) : (modWork s i f).mst = s.mst := rfl
@[simp] theorem modWork_pw (s : State) (i : Nat) (f : Work → Work) : (modWork s i f).pw = s.pw := rfl
@[simp] theorem modWork_spi (s : State) (i : Nat) (f : Work → Work) : (modWork s i f).spi = s.spi := rfl
@[simp] theorem modWork_i3cPort (s : State) (i : Nat) (f : Work → Work) : (modWork s i f).i3cPort = s.i3cPort := rfl
@[simp] theorem modWork_spiDead (s : State) (i : Nat) (f : Work → Work) : (modWork s i f).spiDead = s.spiDead := rfl
@[simp] theorem modWork_portCnt (s : State) (i : Nat) (f : Work → Work) : (modWork s i f).portCnt = s.portCnt := rfl
@[simp] theorem modWork_i3c (s : State) (i : Nat) (f : Work → Work) : (modWork s i f).i3c = s.i3c := rfl
@[simp] theorem modWork_rawHalt (s : State) (i : Nat) (f : Work → Work) : (modWork s i f).rawHalt = s.rawHalt := rfl
@[simp] theorem modWork_release (s : State) (i : Nat) (f : Work → Work) : (modWork s i f).release = s.release := rfl
@[simp] theorem modWork_fatal (s : State) (i : Nat) (f : Work → Work) : (modWork s i f).fatal = s.fatal := rfl
@[simp] theorem modWork_pulse (s : State) (i : Nat) (f : Work → Work) : (modWork s i f).pulse = s.pulse := rfl
@[simp] theorem modWork_fresh (s : State) (i : Nat) (f : Work → Work) : (modWork s i f).fresh = s.fresh := rfl
@[simp] theorem modWork_pending (s : State) (i : Nat) (f : Work → Work) : (modWork s i f).pending = s.pending := rfl
@[simp] theorem modWork_strays (s : State) (i : Nat) (f : Work → Work) : (modWork s i f).strays = s.strays := rfl
@[simp] theorem modWork_lrQueue (s : State) (i : Nat) (f : Work → Work) : (modWork s i f).lrQueue = s.lrQueue := rfl
@[simp] theorem modWork_posted (s : State) (i : Nat) (f : Work → Work) : (modWork s i f).posted = s.posted := rfl
@[simp] theorem modWork_cmdBusy (s : State) (i : Nat) (f : Work → Work) : (modWork s i f).cmdBusy = s.cmdBusy := rfl
@[simp] theorem modWork_rwdHeld (s : State) (i : Nat) (f : Work → Work) : (modWork s i f).rwdHeld = s.rwdHeld := rfl
@[simp] theorem modCtrl_part (s : State) (c : Nat) (f : Ctrl → Ctrl) : (modCtrl s c f).part = s.part := rfl
@[simp] theorem modCtrl_mem (s : State) (c : Nat) (f : Ctrl → Ctrl) : (modCtrl s c f).mem = s.mem := rfl
@[simp] theorem modCtrl_poison (s : State) (c : Nat) (f : Ctrl → Ctrl) : (modCtrl s c f).poison = s.poison := rfl
@[simp] theorem modCtrl_csr (s : State) (c : Nat) (f : Ctrl → Ctrl) : (modCtrl s c f).csr = s.csr := rfl
@[simp] theorem modCtrl_spars (s : State) (c : Nat) (f : Ctrl → Ctrl) : (modCtrl s c f).spars = s.spars := rfl
@[simp] theorem modCtrl_pes (s : State) (c : Nat) (f : Ctrl → Ctrl) : (modCtrl s c f).pes = s.pes := rfl
@[simp] theorem modCtrl_resvs (s : State) (c : Nat) (f : Ctrl → Ctrl) : (modCtrl s c f).resvs = s.resvs := rfl
@[simp] theorem modCtrl_dies (s : State) (c : Nat) (f : Ctrl → Ctrl) : (modCtrl s c f).dies = s.dies := rfl
@[simp] theorem modCtrl_hw (s : State) (c : Nat) (f : Ctrl → Ctrl) : (modCtrl s c f).hw = s.hw := rfl
@[simp] theorem modCtrl_traps (s : State) (c : Nat) (f : Ctrl → Ctrl) : (modCtrl s c f).traps = s.traps := rfl
@[simp] theorem modCtrl_flowMsgs (s : State) (c : Nat) (f : Ctrl → Ctrl) : (modCtrl s c f).flowMsgs = s.flowMsgs := rfl
@[simp] theorem modCtrl_notices (s : State) (c : Nat) (f : Ctrl → Ctrl) : (modCtrl s c f).notices = s.notices := rfl
@[simp] theorem modCtrl_gateMsgs (s : State) (c : Nat) (f : Ctrl → Ctrl) : (modCtrl s c f).gateMsgs = s.gateMsgs := rfl
@[simp] theorem modCtrl_gateWaits (s : State) (c : Nat) (f : Ctrl → Ctrl) : (modCtrl s c f).gateWaits = s.gateWaits := rfl
@[simp] theorem modCtrl_luffs (s : State) (c : Nat) (f : Ctrl → Ctrl) : (modCtrl s c f).luffs = s.luffs := rfl
@[simp] theorem modCtrl_pcache (s : State) (c : Nat) (f : Ctrl → Ctrl) : (modCtrl s c f).pcache = s.pcache := rfl
@[simp] theorem modCtrl_tlb (s : State) (c : Nat) (f : Ctrl → Ctrl) : (modCtrl s c f).tlb = s.tlb := rfl
@[simp] theorem modCtrl_dramWords (s : State) (c : Nat) (f : Ctrl → Ctrl) : (modCtrl s c f).dramWords = s.dramWords := rfl
@[simp] theorem modCtrl_hdm (s : State) (c : Nat) (f : Ctrl → Ctrl) : (modCtrl s c f).hdm = s.hdm := rfl
@[simp] theorem modCtrl_sups (s : State) (c : Nat) (f : Ctrl → Ctrl) : (modCtrl s c f).sups = s.sups := rfl
@[simp] theorem modCtrl_supIssues (s : State) (c : Nat) (f : Ctrl → Ctrl) : (modCtrl s c f).supIssues = s.supIssues := rfl
@[simp] theorem modCtrl_caches (s : State) (c : Nat) (f : Ctrl → Ctrl) : (modCtrl s c f).caches = s.caches := rfl
@[simp] theorem modCtrl_llc (s : State) (c : Nat) (f : Ctrl → Ctrl) : (modCtrl s c f).llc = s.llc := rfl
@[simp] theorem modCtrl_homeTx (s : State) (c : Nat) (f : Ctrl → Ctrl) : (modCtrl s c f).homeTx = s.homeTx := rfl
@[simp] theorem modCtrl_sliceQ (s : State) (c : Nat) (f : Ctrl → Ctrl) : (modCtrl s c f).sliceQ = s.sliceQ := rfl
@[simp] theorem modCtrl_snoops (s : State) (c : Nat) (f : Ctrl → Ctrl) : (modCtrl s c f).snoops = s.snoops := rfl
@[simp] theorem modCtrl_fetchMoves (s : State) (c : Nat) (f : Ctrl → Ctrl) : (modCtrl s c f).fetchMoves = s.fetchMoves := rfl
@[simp] theorem modCtrl_ageHeld (s : State) (c : Nat) (f : Ctrl → Ctrl) : (modCtrl s c f).ageHeld = s.ageHeld := rfl
@[simp] theorem modCtrl_tap (s : State) (c : Nat) (f : Ctrl → Ctrl) : (modCtrl s c f).tap = s.tap := rfl
@[simp] theorem modCtrl_answers (s : State) (c : Nat) (f : Ctrl → Ctrl) : (modCtrl s c f).answers = s.answers := rfl
@[simp] theorem modCtrl_useStamp (s : State) (c : Nat) (f : Ctrl → Ctrl) : (modCtrl s c f).useStamp = s.useStamp := rfl
@[simp] theorem modCtrl_given (s : State) (c : Nat) (f : Ctrl → Ctrl) : (modCtrl s c f).given = s.given := rfl
@[simp] theorem modCtrl_chans (s : State) (c : Nat) (f : Ctrl → Ctrl) : (modCtrl s c f).chans = s.chans := rfl
@[simp] theorem modCtrl_engs (s : State) (c : Nat) (f : Ctrl → Ctrl) : (modCtrl s c f).engs = s.engs := rfl
@[simp] theorem modCtrl_works (s : State) (c : Nat) (f : Ctrl → Ctrl) : (modCtrl s c f).works = s.works := rfl
@[simp] theorem modCtrl_sess (s : State) (c : Nat) (f : Ctrl → Ctrl) : (modCtrl s c f).sess = s.sess := rfl
@[simp] theorem modCtrl_assocs (s : State) (c : Nat) (f : Ctrl → Ctrl) : (modCtrl s c f).assocs = s.assocs := rfl
@[simp] theorem modCtrl_mseqs (s : State) (c : Nat) (f : Ctrl → Ctrl) : (modCtrl s c f).mseqs = s.mseqs := rfl
@[simp] theorem modCtrl_ustores (s : State) (c : Nat) (f : Ctrl → Ctrl) : (modCtrl s c f).ustores = s.ustores := rfl
@[simp] theorem modCtrl_vault (s : State) (c : Nat) (f : Ctrl → Ctrl) : (modCtrl s c f).vault = s.vault := rfl
@[simp] theorem modCtrl_xforms (s : State) (c : Nat) (f : Ctrl → Ctrl) : (modCtrl s c f).xforms = s.xforms := rfl
@[simp] theorem modCtrl_flash (s : State) (c : Nat) (f : Ctrl → Ctrl) : (modCtrl s c f).flash = s.flash := rfl
@[simp] theorem modCtrl_ageDue (s : State) (c : Nat) (f : Ctrl → Ctrl) : (modCtrl s c f).ageDue = s.ageDue := rfl
@[simp] theorem modCtrl_straps (s : State) (c : Nat) (f : Ctrl → Ctrl) : (modCtrl s c f).straps = s.straps := rfl
@[simp] theorem modCtrl_fuses (s : State) (c : Nat) (f : Ctrl → Ctrl) : (modCtrl s c f).fuses = s.fuses := rfl
@[simp] theorem modCtrl_fusesIn (s : State) (c : Nat) (f : Ctrl → Ctrl) : (modCtrl s c f).fusesIn = s.fusesIn := rfl
@[simp] theorem modCtrl_mst (s : State) (c : Nat) (f : Ctrl → Ctrl) : (modCtrl s c f).mst = s.mst := rfl
@[simp] theorem modCtrl_pw (s : State) (c : Nat) (f : Ctrl → Ctrl) : (modCtrl s c f).pw = s.pw := rfl
@[simp] theorem modCtrl_spi (s : State) (c : Nat) (f : Ctrl → Ctrl) : (modCtrl s c f).spi = s.spi := rfl
@[simp] theorem modCtrl_i3cPort (s : State) (c : Nat) (f : Ctrl → Ctrl) : (modCtrl s c f).i3cPort = s.i3cPort := rfl
@[simp] theorem modCtrl_spiDead (s : State) (c : Nat) (f : Ctrl → Ctrl) : (modCtrl s c f).spiDead = s.spiDead := rfl
@[simp] theorem modCtrl_portCnt (s : State) (c : Nat) (f : Ctrl → Ctrl) : (modCtrl s c f).portCnt = s.portCnt := rfl
@[simp] theorem modCtrl_i3c (s : State) (c : Nat) (f : Ctrl → Ctrl) : (modCtrl s c f).i3c = s.i3c := rfl
@[simp] theorem modCtrl_rawHalt (s : State) (c : Nat) (f : Ctrl → Ctrl) : (modCtrl s c f).rawHalt = s.rawHalt := rfl
@[simp] theorem modCtrl_release (s : State) (c : Nat) (f : Ctrl → Ctrl) : (modCtrl s c f).release = s.release := rfl
@[simp] theorem modCtrl_fatal (s : State) (c : Nat) (f : Ctrl → Ctrl) : (modCtrl s c f).fatal = s.fatal := rfl
@[simp] theorem modCtrl_pulse (s : State) (c : Nat) (f : Ctrl → Ctrl) : (modCtrl s c f).pulse = s.pulse := rfl
@[simp] theorem modCtrl_fresh (s : State) (c : Nat) (f : Ctrl → Ctrl) : (modCtrl s c f).fresh = s.fresh := rfl
@[simp] theorem modCtrl_pending (s : State) (c : Nat) (f : Ctrl → Ctrl) : (modCtrl s c f).pending = s.pending := rfl
@[simp] theorem modCtrl_strays (s : State) (c : Nat) (f : Ctrl → Ctrl) : (modCtrl s c f).strays = s.strays := rfl
@[simp] theorem modCtrl_lrQueue (s : State) (c : Nat) (f : Ctrl → Ctrl) : (modCtrl s c f).lrQueue = s.lrQueue := rfl
@[simp] theorem modCtrl_posted (s : State) (c : Nat) (f : Ctrl → Ctrl) : (modCtrl s c f).posted = s.posted := rfl
@[simp] theorem modCtrl_cmdBusy (s : State) (c : Nat) (f : Ctrl → Ctrl) : (modCtrl s c f).cmdBusy = s.cmdBusy := rfl
@[simp] theorem modCtrl_rwdHeld (s : State) (c : Nat) (f : Ctrl → Ctrl) : (modCtrl s c f).rwdHeld = s.rwdHeld := rfl
@[simp] theorem give_part (s : State) (g : Given) : (give s g).part = s.part := rfl
@[simp] theorem give_mem (s : State) (g : Given) : (give s g).mem = s.mem := rfl
@[simp] theorem give_poison (s : State) (g : Given) : (give s g).poison = s.poison := rfl
@[simp] theorem give_csr (s : State) (g : Given) : (give s g).csr = s.csr := rfl
@[simp] theorem give_spars (s : State) (g : Given) : (give s g).spars = s.spars := rfl
@[simp] theorem give_pes (s : State) (g : Given) : (give s g).pes = s.pes := rfl
@[simp] theorem give_resvs (s : State) (g : Given) : (give s g).resvs = s.resvs := rfl
@[simp] theorem give_dies (s : State) (g : Given) : (give s g).dies = s.dies := rfl
@[simp] theorem give_hw (s : State) (g : Given) : (give s g).hw = s.hw := rfl
@[simp] theorem give_traps (s : State) (g : Given) : (give s g).traps = s.traps := rfl
@[simp] theorem give_flowMsgs (s : State) (g : Given) : (give s g).flowMsgs = s.flowMsgs := rfl
@[simp] theorem give_notices (s : State) (g : Given) : (give s g).notices = s.notices := rfl
@[simp] theorem give_gateMsgs (s : State) (g : Given) : (give s g).gateMsgs = s.gateMsgs := rfl
@[simp] theorem give_gateWaits (s : State) (g : Given) : (give s g).gateWaits = s.gateWaits := rfl
@[simp] theorem give_luffs (s : State) (g : Given) : (give s g).luffs = s.luffs := rfl
@[simp] theorem give_pcache (s : State) (g : Given) : (give s g).pcache = s.pcache := rfl
@[simp] theorem give_tlb (s : State) (g : Given) : (give s g).tlb = s.tlb := rfl
@[simp] theorem give_dramWords (s : State) (g : Given) : (give s g).dramWords = s.dramWords := rfl
@[simp] theorem give_hdm (s : State) (g : Given) : (give s g).hdm = s.hdm := rfl
@[simp] theorem give_sups (s : State) (g : Given) : (give s g).sups = s.sups := rfl
@[simp] theorem give_supIssues (s : State) (g : Given) : (give s g).supIssues = s.supIssues := rfl
@[simp] theorem give_caches (s : State) (g : Given) : (give s g).caches = s.caches := rfl
@[simp] theorem give_llc (s : State) (g : Given) : (give s g).llc = s.llc := rfl
@[simp] theorem give_homeTx (s : State) (g : Given) : (give s g).homeTx = s.homeTx := rfl
@[simp] theorem give_sliceQ (s : State) (g : Given) : (give s g).sliceQ = s.sliceQ := rfl
@[simp] theorem give_snoops (s : State) (g : Given) : (give s g).snoops = s.snoops := rfl
@[simp] theorem give_fetchMoves (s : State) (g : Given) : (give s g).fetchMoves = s.fetchMoves := rfl
@[simp] theorem give_ageHeld (s : State) (g : Given) : (give s g).ageHeld = s.ageHeld := rfl
@[simp] theorem give_tap (s : State) (g : Given) : (give s g).tap = s.tap := rfl
@[simp] theorem give_answers (s : State) (g : Given) : (give s g).answers = s.answers := rfl
@[simp] theorem give_useStamp (s : State) (g : Given) : (give s g).useStamp = s.useStamp := rfl
@[simp] theorem give_chans (s : State) (g : Given) : (give s g).chans = s.chans := rfl
@[simp] theorem give_engs (s : State) (g : Given) : (give s g).engs = s.engs := rfl
@[simp] theorem give_works (s : State) (g : Given) : (give s g).works = s.works := rfl
@[simp] theorem give_ctrls (s : State) (g : Given) : (give s g).ctrls = s.ctrls := rfl
@[simp] theorem give_sess (s : State) (g : Given) : (give s g).sess = s.sess := rfl
@[simp] theorem give_assocs (s : State) (g : Given) : (give s g).assocs = s.assocs := rfl
@[simp] theorem give_mseqs (s : State) (g : Given) : (give s g).mseqs = s.mseqs := rfl
@[simp] theorem give_ustores (s : State) (g : Given) : (give s g).ustores = s.ustores := rfl
@[simp] theorem give_vault (s : State) (g : Given) : (give s g).vault = s.vault := rfl
@[simp] theorem give_xforms (s : State) (g : Given) : (give s g).xforms = s.xforms := rfl
@[simp] theorem give_flash (s : State) (g : Given) : (give s g).flash = s.flash := rfl
@[simp] theorem give_ageDue (s : State) (g : Given) : (give s g).ageDue = s.ageDue := rfl
@[simp] theorem give_straps (s : State) (g : Given) : (give s g).straps = s.straps := rfl
@[simp] theorem give_fuses (s : State) (g : Given) : (give s g).fuses = s.fuses := rfl
@[simp] theorem give_fusesIn (s : State) (g : Given) : (give s g).fusesIn = s.fusesIn := rfl
@[simp] theorem give_mst (s : State) (g : Given) : (give s g).mst = s.mst := rfl
@[simp] theorem give_pw (s : State) (g : Given) : (give s g).pw = s.pw := rfl
@[simp] theorem give_spi (s : State) (g : Given) : (give s g).spi = s.spi := rfl
@[simp] theorem give_i3cPort (s : State) (g : Given) : (give s g).i3cPort = s.i3cPort := rfl
@[simp] theorem give_spiDead (s : State) (g : Given) : (give s g).spiDead = s.spiDead := rfl
@[simp] theorem give_portCnt (s : State) (g : Given) : (give s g).portCnt = s.portCnt := rfl
@[simp] theorem give_i3c (s : State) (g : Given) : (give s g).i3c = s.i3c := rfl
@[simp] theorem give_rawHalt (s : State) (g : Given) : (give s g).rawHalt = s.rawHalt := rfl
@[simp] theorem give_release (s : State) (g : Given) : (give s g).release = s.release := rfl
@[simp] theorem give_fatal (s : State) (g : Given) : (give s g).fatal = s.fatal := rfl
@[simp] theorem give_pulse (s : State) (g : Given) : (give s g).pulse = s.pulse := rfl
@[simp] theorem give_fresh (s : State) (g : Given) : (give s g).fresh = s.fresh := rfl
@[simp] theorem give_pending (s : State) (g : Given) : (give s g).pending = s.pending := rfl
@[simp] theorem give_strays (s : State) (g : Given) : (give s g).strays = s.strays := rfl
@[simp] theorem give_lrQueue (s : State) (g : Given) : (give s g).lrQueue = s.lrQueue := rfl
@[simp] theorem give_posted (s : State) (g : Given) : (give s g).posted = s.posted := rfl
@[simp] theorem give_cmdBusy (s : State) (g : Given) : (give s g).cmdBusy = s.cmdBusy := rfl
@[simp] theorem give_rwdHeld (s : State) (g : Given) : (give s g).rwdHeld = s.rwdHeld := rfl
@[simp] theorem setLlc_part (s : State) (la : Nat) (l : Option HomeLine) : (setLlc s la l).part = s.part := rfl
@[simp] theorem setLlc_mem (s : State) (la : Nat) (l : Option HomeLine) : (setLlc s la l).mem = s.mem := rfl
@[simp] theorem setLlc_poison (s : State) (la : Nat) (l : Option HomeLine) : (setLlc s la l).poison = s.poison := rfl
@[simp] theorem setLlc_csr (s : State) (la : Nat) (l : Option HomeLine) : (setLlc s la l).csr = s.csr := rfl
@[simp] theorem setLlc_spars (s : State) (la : Nat) (l : Option HomeLine) : (setLlc s la l).spars = s.spars := rfl
@[simp] theorem setLlc_pes (s : State) (la : Nat) (l : Option HomeLine) : (setLlc s la l).pes = s.pes := rfl
@[simp] theorem setLlc_resvs (s : State) (la : Nat) (l : Option HomeLine) : (setLlc s la l).resvs = s.resvs := rfl
@[simp] theorem setLlc_dies (s : State) (la : Nat) (l : Option HomeLine) : (setLlc s la l).dies = s.dies := rfl
@[simp] theorem setLlc_hw (s : State) (la : Nat) (l : Option HomeLine) : (setLlc s la l).hw = s.hw := rfl
@[simp] theorem setLlc_traps (s : State) (la : Nat) (l : Option HomeLine) : (setLlc s la l).traps = s.traps := rfl
@[simp] theorem setLlc_flowMsgs (s : State) (la : Nat) (l : Option HomeLine) : (setLlc s la l).flowMsgs = s.flowMsgs := rfl
@[simp] theorem setLlc_notices (s : State) (la : Nat) (l : Option HomeLine) : (setLlc s la l).notices = s.notices := rfl
@[simp] theorem setLlc_gateMsgs (s : State) (la : Nat) (l : Option HomeLine) : (setLlc s la l).gateMsgs = s.gateMsgs := rfl
@[simp] theorem setLlc_gateWaits (s : State) (la : Nat) (l : Option HomeLine) : (setLlc s la l).gateWaits = s.gateWaits := rfl
@[simp] theorem setLlc_luffs (s : State) (la : Nat) (l : Option HomeLine) : (setLlc s la l).luffs = s.luffs := rfl
@[simp] theorem setLlc_pcache (s : State) (la : Nat) (l : Option HomeLine) : (setLlc s la l).pcache = s.pcache := rfl
@[simp] theorem setLlc_tlb (s : State) (la : Nat) (l : Option HomeLine) : (setLlc s la l).tlb = s.tlb := rfl
@[simp] theorem setLlc_dramWords (s : State) (la : Nat) (l : Option HomeLine) : (setLlc s la l).dramWords = s.dramWords := rfl
@[simp] theorem setLlc_hdm (s : State) (la : Nat) (l : Option HomeLine) : (setLlc s la l).hdm = s.hdm := rfl
@[simp] theorem setLlc_sups (s : State) (la : Nat) (l : Option HomeLine) : (setLlc s la l).sups = s.sups := rfl
@[simp] theorem setLlc_supIssues (s : State) (la : Nat) (l : Option HomeLine) : (setLlc s la l).supIssues = s.supIssues := rfl
@[simp] theorem setLlc_caches (s : State) (la : Nat) (l : Option HomeLine) : (setLlc s la l).caches = s.caches := rfl
@[simp] theorem setLlc_homeTx (s : State) (la : Nat) (l : Option HomeLine) : (setLlc s la l).homeTx = s.homeTx := rfl
@[simp] theorem setLlc_sliceQ (s : State) (la : Nat) (l : Option HomeLine) : (setLlc s la l).sliceQ = s.sliceQ := rfl
@[simp] theorem setLlc_snoops (s : State) (la : Nat) (l : Option HomeLine) : (setLlc s la l).snoops = s.snoops := rfl
@[simp] theorem setLlc_fetchMoves (s : State) (la : Nat) (l : Option HomeLine) : (setLlc s la l).fetchMoves = s.fetchMoves := rfl
@[simp] theorem setLlc_ageHeld (s : State) (la : Nat) (l : Option HomeLine) : (setLlc s la l).ageHeld = s.ageHeld := rfl
@[simp] theorem setLlc_tap (s : State) (la : Nat) (l : Option HomeLine) : (setLlc s la l).tap = s.tap := rfl
@[simp] theorem setLlc_answers (s : State) (la : Nat) (l : Option HomeLine) : (setLlc s la l).answers = s.answers := rfl
@[simp] theorem setLlc_useStamp (s : State) (la : Nat) (l : Option HomeLine) : (setLlc s la l).useStamp = s.useStamp := rfl
@[simp] theorem setLlc_given (s : State) (la : Nat) (l : Option HomeLine) : (setLlc s la l).given = s.given := rfl
@[simp] theorem setLlc_chans (s : State) (la : Nat) (l : Option HomeLine) : (setLlc s la l).chans = s.chans := rfl
@[simp] theorem setLlc_engs (s : State) (la : Nat) (l : Option HomeLine) : (setLlc s la l).engs = s.engs := rfl
@[simp] theorem setLlc_works (s : State) (la : Nat) (l : Option HomeLine) : (setLlc s la l).works = s.works := rfl
@[simp] theorem setLlc_ctrls (s : State) (la : Nat) (l : Option HomeLine) : (setLlc s la l).ctrls = s.ctrls := rfl
@[simp] theorem setLlc_sess (s : State) (la : Nat) (l : Option HomeLine) : (setLlc s la l).sess = s.sess := rfl
@[simp] theorem setLlc_assocs (s : State) (la : Nat) (l : Option HomeLine) : (setLlc s la l).assocs = s.assocs := rfl
@[simp] theorem setLlc_mseqs (s : State) (la : Nat) (l : Option HomeLine) : (setLlc s la l).mseqs = s.mseqs := rfl
@[simp] theorem setLlc_ustores (s : State) (la : Nat) (l : Option HomeLine) : (setLlc s la l).ustores = s.ustores := rfl
@[simp] theorem setLlc_vault (s : State) (la : Nat) (l : Option HomeLine) : (setLlc s la l).vault = s.vault := rfl
@[simp] theorem setLlc_xforms (s : State) (la : Nat) (l : Option HomeLine) : (setLlc s la l).xforms = s.xforms := rfl
@[simp] theorem setLlc_flash (s : State) (la : Nat) (l : Option HomeLine) : (setLlc s la l).flash = s.flash := rfl
@[simp] theorem setLlc_ageDue (s : State) (la : Nat) (l : Option HomeLine) : (setLlc s la l).ageDue = s.ageDue := rfl
@[simp] theorem setLlc_straps (s : State) (la : Nat) (l : Option HomeLine) : (setLlc s la l).straps = s.straps := rfl
@[simp] theorem setLlc_fuses (s : State) (la : Nat) (l : Option HomeLine) : (setLlc s la l).fuses = s.fuses := rfl
@[simp] theorem setLlc_fusesIn (s : State) (la : Nat) (l : Option HomeLine) : (setLlc s la l).fusesIn = s.fusesIn := rfl
@[simp] theorem setLlc_mst (s : State) (la : Nat) (l : Option HomeLine) : (setLlc s la l).mst = s.mst := rfl
@[simp] theorem setLlc_pw (s : State) (la : Nat) (l : Option HomeLine) : (setLlc s la l).pw = s.pw := rfl
@[simp] theorem setLlc_spi (s : State) (la : Nat) (l : Option HomeLine) : (setLlc s la l).spi = s.spi := rfl
@[simp] theorem setLlc_i3cPort (s : State) (la : Nat) (l : Option HomeLine) : (setLlc s la l).i3cPort = s.i3cPort := rfl
@[simp] theorem setLlc_spiDead (s : State) (la : Nat) (l : Option HomeLine) : (setLlc s la l).spiDead = s.spiDead := rfl
@[simp] theorem setLlc_portCnt (s : State) (la : Nat) (l : Option HomeLine) : (setLlc s la l).portCnt = s.portCnt := rfl
@[simp] theorem setLlc_i3c (s : State) (la : Nat) (l : Option HomeLine) : (setLlc s la l).i3c = s.i3c := rfl
@[simp] theorem setLlc_rawHalt (s : State) (la : Nat) (l : Option HomeLine) : (setLlc s la l).rawHalt = s.rawHalt := rfl
@[simp] theorem setLlc_release (s : State) (la : Nat) (l : Option HomeLine) : (setLlc s la l).release = s.release := rfl
@[simp] theorem setLlc_fatal (s : State) (la : Nat) (l : Option HomeLine) : (setLlc s la l).fatal = s.fatal := rfl
@[simp] theorem setLlc_pulse (s : State) (la : Nat) (l : Option HomeLine) : (setLlc s la l).pulse = s.pulse := rfl
@[simp] theorem setLlc_fresh (s : State) (la : Nat) (l : Option HomeLine) : (setLlc s la l).fresh = s.fresh := rfl
@[simp] theorem setLlc_pending (s : State) (la : Nat) (l : Option HomeLine) : (setLlc s la l).pending = s.pending := rfl
@[simp] theorem setLlc_strays (s : State) (la : Nat) (l : Option HomeLine) : (setLlc s la l).strays = s.strays := rfl
@[simp] theorem setLlc_lrQueue (s : State) (la : Nat) (l : Option HomeLine) : (setLlc s la l).lrQueue = s.lrQueue := rfl
@[simp] theorem setLlc_posted (s : State) (la : Nat) (l : Option HomeLine) : (setLlc s la l).posted = s.posted := rfl
@[simp] theorem setLlc_cmdBusy (s : State) (la : Nat) (l : Option HomeLine) : (setLlc s la l).cmdBusy = s.cmdBusy := rfl
@[simp] theorem setLlc_rwdHeld (s : State) (la : Nat) (l : Option HomeLine) : (setLlc s la l).rwdHeld = s.rwdHeld := rfl
@[simp] theorem setTx_part (s : State) (la : Nat) (t : Option HomeTx) : (setTx s la t).part = s.part := rfl
@[simp] theorem setTx_mem (s : State) (la : Nat) (t : Option HomeTx) : (setTx s la t).mem = s.mem := rfl
@[simp] theorem setTx_poison (s : State) (la : Nat) (t : Option HomeTx) : (setTx s la t).poison = s.poison := rfl
@[simp] theorem setTx_csr (s : State) (la : Nat) (t : Option HomeTx) : (setTx s la t).csr = s.csr := rfl
@[simp] theorem setTx_spars (s : State) (la : Nat) (t : Option HomeTx) : (setTx s la t).spars = s.spars := rfl
@[simp] theorem setTx_pes (s : State) (la : Nat) (t : Option HomeTx) : (setTx s la t).pes = s.pes := rfl
@[simp] theorem setTx_resvs (s : State) (la : Nat) (t : Option HomeTx) : (setTx s la t).resvs = s.resvs := rfl
@[simp] theorem setTx_dies (s : State) (la : Nat) (t : Option HomeTx) : (setTx s la t).dies = s.dies := rfl
@[simp] theorem setTx_hw (s : State) (la : Nat) (t : Option HomeTx) : (setTx s la t).hw = s.hw := rfl
@[simp] theorem setTx_traps (s : State) (la : Nat) (t : Option HomeTx) : (setTx s la t).traps = s.traps := rfl
@[simp] theorem setTx_flowMsgs (s : State) (la : Nat) (t : Option HomeTx) : (setTx s la t).flowMsgs = s.flowMsgs := rfl
@[simp] theorem setTx_notices (s : State) (la : Nat) (t : Option HomeTx) : (setTx s la t).notices = s.notices := rfl
@[simp] theorem setTx_gateMsgs (s : State) (la : Nat) (t : Option HomeTx) : (setTx s la t).gateMsgs = s.gateMsgs := rfl
@[simp] theorem setTx_gateWaits (s : State) (la : Nat) (t : Option HomeTx) : (setTx s la t).gateWaits = s.gateWaits := rfl
@[simp] theorem setTx_luffs (s : State) (la : Nat) (t : Option HomeTx) : (setTx s la t).luffs = s.luffs := rfl
@[simp] theorem setTx_pcache (s : State) (la : Nat) (t : Option HomeTx) : (setTx s la t).pcache = s.pcache := rfl
@[simp] theorem setTx_tlb (s : State) (la : Nat) (t : Option HomeTx) : (setTx s la t).tlb = s.tlb := rfl
@[simp] theorem setTx_dramWords (s : State) (la : Nat) (t : Option HomeTx) : (setTx s la t).dramWords = s.dramWords := rfl
@[simp] theorem setTx_hdm (s : State) (la : Nat) (t : Option HomeTx) : (setTx s la t).hdm = s.hdm := rfl
@[simp] theorem setTx_sups (s : State) (la : Nat) (t : Option HomeTx) : (setTx s la t).sups = s.sups := rfl
@[simp] theorem setTx_supIssues (s : State) (la : Nat) (t : Option HomeTx) : (setTx s la t).supIssues = s.supIssues := rfl
@[simp] theorem setTx_caches (s : State) (la : Nat) (t : Option HomeTx) : (setTx s la t).caches = s.caches := rfl
@[simp] theorem setTx_llc (s : State) (la : Nat) (t : Option HomeTx) : (setTx s la t).llc = s.llc := rfl
@[simp] theorem setTx_sliceQ (s : State) (la : Nat) (t : Option HomeTx) : (setTx s la t).sliceQ = s.sliceQ := rfl
@[simp] theorem setTx_snoops (s : State) (la : Nat) (t : Option HomeTx) : (setTx s la t).snoops = s.snoops := rfl
@[simp] theorem setTx_fetchMoves (s : State) (la : Nat) (t : Option HomeTx) : (setTx s la t).fetchMoves = s.fetchMoves := rfl
@[simp] theorem setTx_ageHeld (s : State) (la : Nat) (t : Option HomeTx) : (setTx s la t).ageHeld = s.ageHeld := rfl
@[simp] theorem setTx_tap (s : State) (la : Nat) (t : Option HomeTx) : (setTx s la t).tap = s.tap := rfl
@[simp] theorem setTx_answers (s : State) (la : Nat) (t : Option HomeTx) : (setTx s la t).answers = s.answers := rfl
@[simp] theorem setTx_useStamp (s : State) (la : Nat) (t : Option HomeTx) : (setTx s la t).useStamp = s.useStamp := rfl
@[simp] theorem setTx_given (s : State) (la : Nat) (t : Option HomeTx) : (setTx s la t).given = s.given := rfl
@[simp] theorem setTx_chans (s : State) (la : Nat) (t : Option HomeTx) : (setTx s la t).chans = s.chans := rfl
@[simp] theorem setTx_engs (s : State) (la : Nat) (t : Option HomeTx) : (setTx s la t).engs = s.engs := rfl
@[simp] theorem setTx_works (s : State) (la : Nat) (t : Option HomeTx) : (setTx s la t).works = s.works := rfl
@[simp] theorem setTx_ctrls (s : State) (la : Nat) (t : Option HomeTx) : (setTx s la t).ctrls = s.ctrls := rfl
@[simp] theorem setTx_sess (s : State) (la : Nat) (t : Option HomeTx) : (setTx s la t).sess = s.sess := rfl
@[simp] theorem setTx_assocs (s : State) (la : Nat) (t : Option HomeTx) : (setTx s la t).assocs = s.assocs := rfl
@[simp] theorem setTx_mseqs (s : State) (la : Nat) (t : Option HomeTx) : (setTx s la t).mseqs = s.mseqs := rfl
@[simp] theorem setTx_ustores (s : State) (la : Nat) (t : Option HomeTx) : (setTx s la t).ustores = s.ustores := rfl
@[simp] theorem setTx_vault (s : State) (la : Nat) (t : Option HomeTx) : (setTx s la t).vault = s.vault := rfl
@[simp] theorem setTx_xforms (s : State) (la : Nat) (t : Option HomeTx) : (setTx s la t).xforms = s.xforms := rfl
@[simp] theorem setTx_flash (s : State) (la : Nat) (t : Option HomeTx) : (setTx s la t).flash = s.flash := rfl
@[simp] theorem setTx_ageDue (s : State) (la : Nat) (t : Option HomeTx) : (setTx s la t).ageDue = s.ageDue := rfl
@[simp] theorem setTx_straps (s : State) (la : Nat) (t : Option HomeTx) : (setTx s la t).straps = s.straps := rfl
@[simp] theorem setTx_fuses (s : State) (la : Nat) (t : Option HomeTx) : (setTx s la t).fuses = s.fuses := rfl
@[simp] theorem setTx_fusesIn (s : State) (la : Nat) (t : Option HomeTx) : (setTx s la t).fusesIn = s.fusesIn := rfl
@[simp] theorem setTx_mst (s : State) (la : Nat) (t : Option HomeTx) : (setTx s la t).mst = s.mst := rfl
@[simp] theorem setTx_pw (s : State) (la : Nat) (t : Option HomeTx) : (setTx s la t).pw = s.pw := rfl
@[simp] theorem setTx_spi (s : State) (la : Nat) (t : Option HomeTx) : (setTx s la t).spi = s.spi := rfl
@[simp] theorem setTx_i3cPort (s : State) (la : Nat) (t : Option HomeTx) : (setTx s la t).i3cPort = s.i3cPort := rfl
@[simp] theorem setTx_spiDead (s : State) (la : Nat) (t : Option HomeTx) : (setTx s la t).spiDead = s.spiDead := rfl
@[simp] theorem setTx_portCnt (s : State) (la : Nat) (t : Option HomeTx) : (setTx s la t).portCnt = s.portCnt := rfl
@[simp] theorem setTx_i3c (s : State) (la : Nat) (t : Option HomeTx) : (setTx s la t).i3c = s.i3c := rfl
@[simp] theorem setTx_rawHalt (s : State) (la : Nat) (t : Option HomeTx) : (setTx s la t).rawHalt = s.rawHalt := rfl
@[simp] theorem setTx_release (s : State) (la : Nat) (t : Option HomeTx) : (setTx s la t).release = s.release := rfl
@[simp] theorem setTx_fatal (s : State) (la : Nat) (t : Option HomeTx) : (setTx s la t).fatal = s.fatal := rfl
@[simp] theorem setTx_pulse (s : State) (la : Nat) (t : Option HomeTx) : (setTx s la t).pulse = s.pulse := rfl
@[simp] theorem setTx_fresh (s : State) (la : Nat) (t : Option HomeTx) : (setTx s la t).fresh = s.fresh := rfl
@[simp] theorem setTx_pending (s : State) (la : Nat) (t : Option HomeTx) : (setTx s la t).pending = s.pending := rfl
@[simp] theorem setTx_strays (s : State) (la : Nat) (t : Option HomeTx) : (setTx s la t).strays = s.strays := rfl
@[simp] theorem setTx_lrQueue (s : State) (la : Nat) (t : Option HomeTx) : (setTx s la t).lrQueue = s.lrQueue := rfl
@[simp] theorem setTx_posted (s : State) (la : Nat) (t : Option HomeTx) : (setTx s la t).posted = s.posted := rfl
@[simp] theorem setTx_cmdBusy (s : State) (la : Nat) (t : Option HomeTx) : (setTx s la t).cmdBusy = s.cmdBusy := rfl
@[simp] theorem setTx_rwdHeld (s : State) (la : Nat) (t : Option HomeTx) : (setTx s la t).rwdHeld = s.rwdHeld := rfl
@[simp] theorem setReg_part (s : State) (die blk word v : Nat) : (setReg s die blk word v).part = s.part := rfl
@[simp] theorem setReg_poison (s : State) (die blk word v : Nat) : (setReg s die blk word v).poison = s.poison := rfl
@[simp] theorem setReg_spars (s : State) (die blk word v : Nat) : (setReg s die blk word v).spars = s.spars := rfl
@[simp] theorem setReg_pes (s : State) (die blk word v : Nat) : (setReg s die blk word v).pes = s.pes := rfl
@[simp] theorem setReg_resvs (s : State) (die blk word v : Nat) : (setReg s die blk word v).resvs = s.resvs := rfl
@[simp] theorem setReg_dies (s : State) (die blk word v : Nat) : (setReg s die blk word v).dies = s.dies := rfl
@[simp] theorem setReg_hw (s : State) (die blk word v : Nat) : (setReg s die blk word v).hw = s.hw := rfl
@[simp] theorem setReg_traps (s : State) (die blk word v : Nat) : (setReg s die blk word v).traps = s.traps := rfl
@[simp] theorem setReg_flowMsgs (s : State) (die blk word v : Nat) : (setReg s die blk word v).flowMsgs = s.flowMsgs := rfl
@[simp] theorem setReg_notices (s : State) (die blk word v : Nat) : (setReg s die blk word v).notices = s.notices := rfl
@[simp] theorem setReg_gateMsgs (s : State) (die blk word v : Nat) : (setReg s die blk word v).gateMsgs = s.gateMsgs := rfl
@[simp] theorem setReg_gateWaits (s : State) (die blk word v : Nat) : (setReg s die blk word v).gateWaits = s.gateWaits := rfl
@[simp] theorem setReg_luffs (s : State) (die blk word v : Nat) : (setReg s die blk word v).luffs = s.luffs := rfl
@[simp] theorem setReg_pcache (s : State) (die blk word v : Nat) : (setReg s die blk word v).pcache = s.pcache := rfl
@[simp] theorem setReg_tlb (s : State) (die blk word v : Nat) : (setReg s die blk word v).tlb = s.tlb := rfl
@[simp] theorem setReg_dramWords (s : State) (die blk word v : Nat) : (setReg s die blk word v).dramWords = s.dramWords := rfl
@[simp] theorem setReg_hdm (s : State) (die blk word v : Nat) : (setReg s die blk word v).hdm = s.hdm := rfl
@[simp] theorem setReg_sups (s : State) (die blk word v : Nat) : (setReg s die blk word v).sups = s.sups := rfl
@[simp] theorem setReg_supIssues (s : State) (die blk word v : Nat) : (setReg s die blk word v).supIssues = s.supIssues := rfl
@[simp] theorem setReg_caches (s : State) (die blk word v : Nat) : (setReg s die blk word v).caches = s.caches := rfl
@[simp] theorem setReg_llc (s : State) (die blk word v : Nat) : (setReg s die blk word v).llc = s.llc := rfl
@[simp] theorem setReg_homeTx (s : State) (die blk word v : Nat) : (setReg s die blk word v).homeTx = s.homeTx := rfl
@[simp] theorem setReg_sliceQ (s : State) (die blk word v : Nat) : (setReg s die blk word v).sliceQ = s.sliceQ := rfl
@[simp] theorem setReg_snoops (s : State) (die blk word v : Nat) : (setReg s die blk word v).snoops = s.snoops := rfl
@[simp] theorem setReg_fetchMoves (s : State) (die blk word v : Nat) : (setReg s die blk word v).fetchMoves = s.fetchMoves := rfl
@[simp] theorem setReg_ageHeld (s : State) (die blk word v : Nat) : (setReg s die blk word v).ageHeld = s.ageHeld := rfl
@[simp] theorem setReg_tap (s : State) (die blk word v : Nat) : (setReg s die blk word v).tap = s.tap := rfl
@[simp] theorem setReg_answers (s : State) (die blk word v : Nat) : (setReg s die blk word v).answers = s.answers := rfl
@[simp] theorem setReg_useStamp (s : State) (die blk word v : Nat) : (setReg s die blk word v).useStamp = s.useStamp := rfl
@[simp] theorem setReg_given (s : State) (die blk word v : Nat) : (setReg s die blk word v).given = s.given := rfl
@[simp] theorem setReg_chans (s : State) (die blk word v : Nat) : (setReg s die blk word v).chans = s.chans := rfl
@[simp] theorem setReg_engs (s : State) (die blk word v : Nat) : (setReg s die blk word v).engs = s.engs := rfl
@[simp] theorem setReg_works (s : State) (die blk word v : Nat) : (setReg s die blk word v).works = s.works := rfl
@[simp] theorem setReg_ctrls (s : State) (die blk word v : Nat) : (setReg s die blk word v).ctrls = s.ctrls := rfl
@[simp] theorem setReg_sess (s : State) (die blk word v : Nat) : (setReg s die blk word v).sess = s.sess := rfl
@[simp] theorem setReg_assocs (s : State) (die blk word v : Nat) : (setReg s die blk word v).assocs = s.assocs := rfl
@[simp] theorem setReg_mseqs (s : State) (die blk word v : Nat) : (setReg s die blk word v).mseqs = s.mseqs := rfl
@[simp] theorem setReg_ustores (s : State) (die blk word v : Nat) : (setReg s die blk word v).ustores = s.ustores := rfl
@[simp] theorem setReg_vault (s : State) (die blk word v : Nat) : (setReg s die blk word v).vault = s.vault := rfl
@[simp] theorem setReg_xforms (s : State) (die blk word v : Nat) : (setReg s die blk word v).xforms = s.xforms := rfl
@[simp] theorem setReg_flash (s : State) (die blk word v : Nat) : (setReg s die blk word v).flash = s.flash := rfl
@[simp] theorem setReg_ageDue (s : State) (die blk word v : Nat) : (setReg s die blk word v).ageDue = s.ageDue := rfl
@[simp] theorem setReg_straps (s : State) (die blk word v : Nat) : (setReg s die blk word v).straps = s.straps := rfl
@[simp] theorem setReg_fuses (s : State) (die blk word v : Nat) : (setReg s die blk word v).fuses = s.fuses := rfl
@[simp] theorem setReg_fusesIn (s : State) (die blk word v : Nat) : (setReg s die blk word v).fusesIn = s.fusesIn := rfl
@[simp] theorem setReg_mst (s : State) (die blk word v : Nat) : (setReg s die blk word v).mst = s.mst := rfl
@[simp] theorem setReg_pw (s : State) (die blk word v : Nat) : (setReg s die blk word v).pw = s.pw := rfl
@[simp] theorem setReg_spi (s : State) (die blk word v : Nat) : (setReg s die blk word v).spi = s.spi := rfl
@[simp] theorem setReg_i3cPort (s : State) (die blk word v : Nat) : (setReg s die blk word v).i3cPort = s.i3cPort := rfl
@[simp] theorem setReg_spiDead (s : State) (die blk word v : Nat) : (setReg s die blk word v).spiDead = s.spiDead := rfl
@[simp] theorem setReg_portCnt (s : State) (die blk word v : Nat) : (setReg s die blk word v).portCnt = s.portCnt := rfl
@[simp] theorem setReg_i3c (s : State) (die blk word v : Nat) : (setReg s die blk word v).i3c = s.i3c := rfl
@[simp] theorem setReg_rawHalt (s : State) (die blk word v : Nat) : (setReg s die blk word v).rawHalt = s.rawHalt := rfl
@[simp] theorem setReg_release (s : State) (die blk word v : Nat) : (setReg s die blk word v).release = s.release := rfl
@[simp] theorem setReg_fatal (s : State) (die blk word v : Nat) : (setReg s die blk word v).fatal = s.fatal := rfl
@[simp] theorem setReg_pulse (s : State) (die blk word v : Nat) : (setReg s die blk word v).pulse = s.pulse := rfl
@[simp] theorem setReg_fresh (s : State) (die blk word v : Nat) : (setReg s die blk word v).fresh = s.fresh := rfl
@[simp] theorem setReg_pending (s : State) (die blk word v : Nat) : (setReg s die blk word v).pending = s.pending := rfl
@[simp] theorem setReg_strays (s : State) (die blk word v : Nat) : (setReg s die blk word v).strays = s.strays := rfl
@[simp] theorem setReg_lrQueue (s : State) (die blk word v : Nat) : (setReg s die blk word v).lrQueue = s.lrQueue := rfl
@[simp] theorem setReg_posted (s : State) (die blk word v : Nat) : (setReg s die blk word v).posted = s.posted := rfl
@[simp] theorem setReg_cmdBusy (s : State) (die blk word v : Nat) : (setReg s die blk word v).cmdBusy = s.cmdBusy := rfl
@[simp] theorem setReg_rwdHeld (s : State) (die blk word v : Nat) : (setReg s die blk word v).rwdHeld = s.rwdHeld := rfl
@[simp] theorem flErase_part (s : State) (a n : Nat) : (flErase s a n).part = s.part := rfl
@[simp] theorem flErase_mem (s : State) (a n : Nat) : (flErase s a n).mem = s.mem := rfl
@[simp] theorem flErase_poison (s : State) (a n : Nat) : (flErase s a n).poison = s.poison := rfl
@[simp] theorem flErase_csr (s : State) (a n : Nat) : (flErase s a n).csr = s.csr := rfl
@[simp] theorem flErase_spars (s : State) (a n : Nat) : (flErase s a n).spars = s.spars := rfl
@[simp] theorem flErase_pes (s : State) (a n : Nat) : (flErase s a n).pes = s.pes := rfl
@[simp] theorem flErase_resvs (s : State) (a n : Nat) : (flErase s a n).resvs = s.resvs := rfl
@[simp] theorem flErase_dies (s : State) (a n : Nat) : (flErase s a n).dies = s.dies := rfl
@[simp] theorem flErase_hw (s : State) (a n : Nat) : (flErase s a n).hw = s.hw := rfl
@[simp] theorem flErase_traps (s : State) (a n : Nat) : (flErase s a n).traps = s.traps := rfl
@[simp] theorem flErase_flowMsgs (s : State) (a n : Nat) : (flErase s a n).flowMsgs = s.flowMsgs := rfl
@[simp] theorem flErase_notices (s : State) (a n : Nat) : (flErase s a n).notices = s.notices := rfl
@[simp] theorem flErase_gateMsgs (s : State) (a n : Nat) : (flErase s a n).gateMsgs = s.gateMsgs := rfl
@[simp] theorem flErase_gateWaits (s : State) (a n : Nat) : (flErase s a n).gateWaits = s.gateWaits := rfl
@[simp] theorem flErase_luffs (s : State) (a n : Nat) : (flErase s a n).luffs = s.luffs := rfl
@[simp] theorem flErase_pcache (s : State) (a n : Nat) : (flErase s a n).pcache = s.pcache := rfl
@[simp] theorem flErase_tlb (s : State) (a n : Nat) : (flErase s a n).tlb = s.tlb := rfl
@[simp] theorem flErase_dramWords (s : State) (a n : Nat) : (flErase s a n).dramWords = s.dramWords := rfl
@[simp] theorem flErase_hdm (s : State) (a n : Nat) : (flErase s a n).hdm = s.hdm := rfl
@[simp] theorem flErase_sups (s : State) (a n : Nat) : (flErase s a n).sups = s.sups := rfl
@[simp] theorem flErase_supIssues (s : State) (a n : Nat) : (flErase s a n).supIssues = s.supIssues := rfl
@[simp] theorem flErase_caches (s : State) (a n : Nat) : (flErase s a n).caches = s.caches := rfl
@[simp] theorem flErase_llc (s : State) (a n : Nat) : (flErase s a n).llc = s.llc := rfl
@[simp] theorem flErase_homeTx (s : State) (a n : Nat) : (flErase s a n).homeTx = s.homeTx := rfl
@[simp] theorem flErase_sliceQ (s : State) (a n : Nat) : (flErase s a n).sliceQ = s.sliceQ := rfl
@[simp] theorem flErase_snoops (s : State) (a n : Nat) : (flErase s a n).snoops = s.snoops := rfl
@[simp] theorem flErase_fetchMoves (s : State) (a n : Nat) : (flErase s a n).fetchMoves = s.fetchMoves := rfl
@[simp] theorem flErase_ageHeld (s : State) (a n : Nat) : (flErase s a n).ageHeld = s.ageHeld := rfl
@[simp] theorem flErase_tap (s : State) (a n : Nat) : (flErase s a n).tap = s.tap := rfl
@[simp] theorem flErase_answers (s : State) (a n : Nat) : (flErase s a n).answers = s.answers := rfl
@[simp] theorem flErase_useStamp (s : State) (a n : Nat) : (flErase s a n).useStamp = s.useStamp := rfl
@[simp] theorem flErase_given (s : State) (a n : Nat) : (flErase s a n).given = s.given := rfl
@[simp] theorem flErase_chans (s : State) (a n : Nat) : (flErase s a n).chans = s.chans := rfl
@[simp] theorem flErase_engs (s : State) (a n : Nat) : (flErase s a n).engs = s.engs := rfl
@[simp] theorem flErase_works (s : State) (a n : Nat) : (flErase s a n).works = s.works := rfl
@[simp] theorem flErase_ctrls (s : State) (a n : Nat) : (flErase s a n).ctrls = s.ctrls := rfl
@[simp] theorem flErase_sess (s : State) (a n : Nat) : (flErase s a n).sess = s.sess := rfl
@[simp] theorem flErase_assocs (s : State) (a n : Nat) : (flErase s a n).assocs = s.assocs := rfl
@[simp] theorem flErase_mseqs (s : State) (a n : Nat) : (flErase s a n).mseqs = s.mseqs := rfl
@[simp] theorem flErase_ustores (s : State) (a n : Nat) : (flErase s a n).ustores = s.ustores := rfl
@[simp] theorem flErase_vault (s : State) (a n : Nat) : (flErase s a n).vault = s.vault := rfl
@[simp] theorem flErase_xforms (s : State) (a n : Nat) : (flErase s a n).xforms = s.xforms := rfl
@[simp] theorem flErase_ageDue (s : State) (a n : Nat) : (flErase s a n).ageDue = s.ageDue := rfl
@[simp] theorem flErase_straps (s : State) (a n : Nat) : (flErase s a n).straps = s.straps := rfl
@[simp] theorem flErase_fuses (s : State) (a n : Nat) : (flErase s a n).fuses = s.fuses := rfl
@[simp] theorem flErase_fusesIn (s : State) (a n : Nat) : (flErase s a n).fusesIn = s.fusesIn := rfl
@[simp] theorem flErase_mst (s : State) (a n : Nat) : (flErase s a n).mst = s.mst := rfl
@[simp] theorem flErase_pw (s : State) (a n : Nat) : (flErase s a n).pw = s.pw := rfl
@[simp] theorem flErase_spi (s : State) (a n : Nat) : (flErase s a n).spi = s.spi := rfl
@[simp] theorem flErase_i3cPort (s : State) (a n : Nat) : (flErase s a n).i3cPort = s.i3cPort := rfl
@[simp] theorem flErase_spiDead (s : State) (a n : Nat) : (flErase s a n).spiDead = s.spiDead := rfl
@[simp] theorem flErase_portCnt (s : State) (a n : Nat) : (flErase s a n).portCnt = s.portCnt := rfl
@[simp] theorem flErase_i3c (s : State) (a n : Nat) : (flErase s a n).i3c = s.i3c := rfl
@[simp] theorem flErase_rawHalt (s : State) (a n : Nat) : (flErase s a n).rawHalt = s.rawHalt := rfl
@[simp] theorem flErase_release (s : State) (a n : Nat) : (flErase s a n).release = s.release := rfl
@[simp] theorem flErase_fatal (s : State) (a n : Nat) : (flErase s a n).fatal = s.fatal := rfl
@[simp] theorem flErase_pulse (s : State) (a n : Nat) : (flErase s a n).pulse = s.pulse := rfl
@[simp] theorem flErase_fresh (s : State) (a n : Nat) : (flErase s a n).fresh = s.fresh := rfl
@[simp] theorem flErase_pending (s : State) (a n : Nat) : (flErase s a n).pending = s.pending := rfl
@[simp] theorem flErase_strays (s : State) (a n : Nat) : (flErase s a n).strays = s.strays := rfl
@[simp] theorem flErase_lrQueue (s : State) (a n : Nat) : (flErase s a n).lrQueue = s.lrQueue := rfl
@[simp] theorem flErase_posted (s : State) (a n : Nat) : (flErase s a n).posted = s.posted := rfl
@[simp] theorem flErase_cmdBusy (s : State) (a n : Nat) : (flErase s a n).cmdBusy = s.cmdBusy := rfl
@[simp] theorem flErase_rwdHeld (s : State) (a n : Nat) : (flErase s a n).rwdHeld = s.rwdHeld := rfl
@[simp] theorem modSess_part (s : State) (i : Nat) (f : Sess → Sess) : (modSess s i f).part = s.part := rfl
@[simp] theorem modSess_mem (s : State) (i : Nat) (f : Sess → Sess) : (modSess s i f).mem = s.mem := rfl
@[simp] theorem modSess_poison (s : State) (i : Nat) (f : Sess → Sess) : (modSess s i f).poison = s.poison := rfl
@[simp] theorem modSess_csr (s : State) (i : Nat) (f : Sess → Sess) : (modSess s i f).csr = s.csr := rfl
@[simp] theorem modSess_spars (s : State) (i : Nat) (f : Sess → Sess) : (modSess s i f).spars = s.spars := rfl
@[simp] theorem modSess_pes (s : State) (i : Nat) (f : Sess → Sess) : (modSess s i f).pes = s.pes := rfl
@[simp] theorem modSess_resvs (s : State) (i : Nat) (f : Sess → Sess) : (modSess s i f).resvs = s.resvs := rfl
@[simp] theorem modSess_dies (s : State) (i : Nat) (f : Sess → Sess) : (modSess s i f).dies = s.dies := rfl
@[simp] theorem modSess_hw (s : State) (i : Nat) (f : Sess → Sess) : (modSess s i f).hw = s.hw := rfl
@[simp] theorem modSess_traps (s : State) (i : Nat) (f : Sess → Sess) : (modSess s i f).traps = s.traps := rfl
@[simp] theorem modSess_flowMsgs (s : State) (i : Nat) (f : Sess → Sess) : (modSess s i f).flowMsgs = s.flowMsgs := rfl
@[simp] theorem modSess_notices (s : State) (i : Nat) (f : Sess → Sess) : (modSess s i f).notices = s.notices := rfl
@[simp] theorem modSess_gateMsgs (s : State) (i : Nat) (f : Sess → Sess) : (modSess s i f).gateMsgs = s.gateMsgs := rfl
@[simp] theorem modSess_gateWaits (s : State) (i : Nat) (f : Sess → Sess) : (modSess s i f).gateWaits = s.gateWaits := rfl
@[simp] theorem modSess_luffs (s : State) (i : Nat) (f : Sess → Sess) : (modSess s i f).luffs = s.luffs := rfl
@[simp] theorem modSess_pcache (s : State) (i : Nat) (f : Sess → Sess) : (modSess s i f).pcache = s.pcache := rfl
@[simp] theorem modSess_tlb (s : State) (i : Nat) (f : Sess → Sess) : (modSess s i f).tlb = s.tlb := rfl
@[simp] theorem modSess_dramWords (s : State) (i : Nat) (f : Sess → Sess) : (modSess s i f).dramWords = s.dramWords := rfl
@[simp] theorem modSess_hdm (s : State) (i : Nat) (f : Sess → Sess) : (modSess s i f).hdm = s.hdm := rfl
@[simp] theorem modSess_sups (s : State) (i : Nat) (f : Sess → Sess) : (modSess s i f).sups = s.sups := rfl
@[simp] theorem modSess_supIssues (s : State) (i : Nat) (f : Sess → Sess) : (modSess s i f).supIssues = s.supIssues := rfl
@[simp] theorem modSess_caches (s : State) (i : Nat) (f : Sess → Sess) : (modSess s i f).caches = s.caches := rfl
@[simp] theorem modSess_llc (s : State) (i : Nat) (f : Sess → Sess) : (modSess s i f).llc = s.llc := rfl
@[simp] theorem modSess_homeTx (s : State) (i : Nat) (f : Sess → Sess) : (modSess s i f).homeTx = s.homeTx := rfl
@[simp] theorem modSess_sliceQ (s : State) (i : Nat) (f : Sess → Sess) : (modSess s i f).sliceQ = s.sliceQ := rfl
@[simp] theorem modSess_snoops (s : State) (i : Nat) (f : Sess → Sess) : (modSess s i f).snoops = s.snoops := rfl
@[simp] theorem modSess_fetchMoves (s : State) (i : Nat) (f : Sess → Sess) : (modSess s i f).fetchMoves = s.fetchMoves := rfl
@[simp] theorem modSess_ageHeld (s : State) (i : Nat) (f : Sess → Sess) : (modSess s i f).ageHeld = s.ageHeld := rfl
@[simp] theorem modSess_tap (s : State) (i : Nat) (f : Sess → Sess) : (modSess s i f).tap = s.tap := rfl
@[simp] theorem modSess_answers (s : State) (i : Nat) (f : Sess → Sess) : (modSess s i f).answers = s.answers := rfl
@[simp] theorem modSess_useStamp (s : State) (i : Nat) (f : Sess → Sess) : (modSess s i f).useStamp = s.useStamp := rfl
@[simp] theorem modSess_given (s : State) (i : Nat) (f : Sess → Sess) : (modSess s i f).given = s.given := rfl
@[simp] theorem modSess_chans (s : State) (i : Nat) (f : Sess → Sess) : (modSess s i f).chans = s.chans := rfl
@[simp] theorem modSess_engs (s : State) (i : Nat) (f : Sess → Sess) : (modSess s i f).engs = s.engs := rfl
@[simp] theorem modSess_works (s : State) (i : Nat) (f : Sess → Sess) : (modSess s i f).works = s.works := rfl
@[simp] theorem modSess_ctrls (s : State) (i : Nat) (f : Sess → Sess) : (modSess s i f).ctrls = s.ctrls := rfl
@[simp] theorem modSess_assocs (s : State) (i : Nat) (f : Sess → Sess) : (modSess s i f).assocs = s.assocs := rfl
@[simp] theorem modSess_mseqs (s : State) (i : Nat) (f : Sess → Sess) : (modSess s i f).mseqs = s.mseqs := rfl
@[simp] theorem modSess_ustores (s : State) (i : Nat) (f : Sess → Sess) : (modSess s i f).ustores = s.ustores := rfl
@[simp] theorem modSess_vault (s : State) (i : Nat) (f : Sess → Sess) : (modSess s i f).vault = s.vault := rfl
@[simp] theorem modSess_xforms (s : State) (i : Nat) (f : Sess → Sess) : (modSess s i f).xforms = s.xforms := rfl
@[simp] theorem modSess_flash (s : State) (i : Nat) (f : Sess → Sess) : (modSess s i f).flash = s.flash := rfl
@[simp] theorem modSess_ageDue (s : State) (i : Nat) (f : Sess → Sess) : (modSess s i f).ageDue = s.ageDue := rfl
@[simp] theorem modSess_straps (s : State) (i : Nat) (f : Sess → Sess) : (modSess s i f).straps = s.straps := rfl
@[simp] theorem modSess_fuses (s : State) (i : Nat) (f : Sess → Sess) : (modSess s i f).fuses = s.fuses := rfl
@[simp] theorem modSess_fusesIn (s : State) (i : Nat) (f : Sess → Sess) : (modSess s i f).fusesIn = s.fusesIn := rfl
@[simp] theorem modSess_mst (s : State) (i : Nat) (f : Sess → Sess) : (modSess s i f).mst = s.mst := rfl
@[simp] theorem modSess_pw (s : State) (i : Nat) (f : Sess → Sess) : (modSess s i f).pw = s.pw := rfl
@[simp] theorem modSess_spi (s : State) (i : Nat) (f : Sess → Sess) : (modSess s i f).spi = s.spi := rfl
@[simp] theorem modSess_i3cPort (s : State) (i : Nat) (f : Sess → Sess) : (modSess s i f).i3cPort = s.i3cPort := rfl
@[simp] theorem modSess_spiDead (s : State) (i : Nat) (f : Sess → Sess) : (modSess s i f).spiDead = s.spiDead := rfl
@[simp] theorem modSess_portCnt (s : State) (i : Nat) (f : Sess → Sess) : (modSess s i f).portCnt = s.portCnt := rfl
@[simp] theorem modSess_i3c (s : State) (i : Nat) (f : Sess → Sess) : (modSess s i f).i3c = s.i3c := rfl
@[simp] theorem modSess_rawHalt (s : State) (i : Nat) (f : Sess → Sess) : (modSess s i f).rawHalt = s.rawHalt := rfl
@[simp] theorem modSess_release (s : State) (i : Nat) (f : Sess → Sess) : (modSess s i f).release = s.release := rfl
@[simp] theorem modSess_fatal (s : State) (i : Nat) (f : Sess → Sess) : (modSess s i f).fatal = s.fatal := rfl
@[simp] theorem modSess_pulse (s : State) (i : Nat) (f : Sess → Sess) : (modSess s i f).pulse = s.pulse := rfl
@[simp] theorem modSess_fresh (s : State) (i : Nat) (f : Sess → Sess) : (modSess s i f).fresh = s.fresh := rfl
@[simp] theorem modSess_pending (s : State) (i : Nat) (f : Sess → Sess) : (modSess s i f).pending = s.pending := rfl
@[simp] theorem modSess_strays (s : State) (i : Nat) (f : Sess → Sess) : (modSess s i f).strays = s.strays := rfl
@[simp] theorem modSess_lrQueue (s : State) (i : Nat) (f : Sess → Sess) : (modSess s i f).lrQueue = s.lrQueue := rfl
@[simp] theorem modSess_posted (s : State) (i : Nat) (f : Sess → Sess) : (modSess s i f).posted = s.posted := rfl
@[simp] theorem modSess_cmdBusy (s : State) (i : Nat) (f : Sess → Sess) : (modSess s i f).cmdBusy = s.cmdBusy := rfl
@[simp] theorem modSess_rwdHeld (s : State) (i : Nat) (f : Sess → Sess) : (modSess s i f).rwdHeld = s.rwdHeld := rfl
@[simp] theorem modAssoc_part (s : State) (i : Nat) (f : Assoc → Assoc) : (modAssoc s i f).part = s.part := rfl
@[simp] theorem modAssoc_mem (s : State) (i : Nat) (f : Assoc → Assoc) : (modAssoc s i f).mem = s.mem := rfl
@[simp] theorem modAssoc_poison (s : State) (i : Nat) (f : Assoc → Assoc) : (modAssoc s i f).poison = s.poison := rfl
@[simp] theorem modAssoc_csr (s : State) (i : Nat) (f : Assoc → Assoc) : (modAssoc s i f).csr = s.csr := rfl
@[simp] theorem modAssoc_spars (s : State) (i : Nat) (f : Assoc → Assoc) : (modAssoc s i f).spars = s.spars := rfl
@[simp] theorem modAssoc_pes (s : State) (i : Nat) (f : Assoc → Assoc) : (modAssoc s i f).pes = s.pes := rfl
@[simp] theorem modAssoc_resvs (s : State) (i : Nat) (f : Assoc → Assoc) : (modAssoc s i f).resvs = s.resvs := rfl
@[simp] theorem modAssoc_dies (s : State) (i : Nat) (f : Assoc → Assoc) : (modAssoc s i f).dies = s.dies := rfl
@[simp] theorem modAssoc_hw (s : State) (i : Nat) (f : Assoc → Assoc) : (modAssoc s i f).hw = s.hw := rfl
@[simp] theorem modAssoc_traps (s : State) (i : Nat) (f : Assoc → Assoc) : (modAssoc s i f).traps = s.traps := rfl
@[simp] theorem modAssoc_flowMsgs (s : State) (i : Nat) (f : Assoc → Assoc) : (modAssoc s i f).flowMsgs = s.flowMsgs := rfl
@[simp] theorem modAssoc_notices (s : State) (i : Nat) (f : Assoc → Assoc) : (modAssoc s i f).notices = s.notices := rfl
@[simp] theorem modAssoc_gateMsgs (s : State) (i : Nat) (f : Assoc → Assoc) : (modAssoc s i f).gateMsgs = s.gateMsgs := rfl
@[simp] theorem modAssoc_gateWaits (s : State) (i : Nat) (f : Assoc → Assoc) : (modAssoc s i f).gateWaits = s.gateWaits := rfl
@[simp] theorem modAssoc_luffs (s : State) (i : Nat) (f : Assoc → Assoc) : (modAssoc s i f).luffs = s.luffs := rfl
@[simp] theorem modAssoc_pcache (s : State) (i : Nat) (f : Assoc → Assoc) : (modAssoc s i f).pcache = s.pcache := rfl
@[simp] theorem modAssoc_tlb (s : State) (i : Nat) (f : Assoc → Assoc) : (modAssoc s i f).tlb = s.tlb := rfl
@[simp] theorem modAssoc_dramWords (s : State) (i : Nat) (f : Assoc → Assoc) : (modAssoc s i f).dramWords = s.dramWords := rfl
@[simp] theorem modAssoc_hdm (s : State) (i : Nat) (f : Assoc → Assoc) : (modAssoc s i f).hdm = s.hdm := rfl
@[simp] theorem modAssoc_sups (s : State) (i : Nat) (f : Assoc → Assoc) : (modAssoc s i f).sups = s.sups := rfl
@[simp] theorem modAssoc_supIssues (s : State) (i : Nat) (f : Assoc → Assoc) : (modAssoc s i f).supIssues = s.supIssues := rfl
@[simp] theorem modAssoc_caches (s : State) (i : Nat) (f : Assoc → Assoc) : (modAssoc s i f).caches = s.caches := rfl
@[simp] theorem modAssoc_llc (s : State) (i : Nat) (f : Assoc → Assoc) : (modAssoc s i f).llc = s.llc := rfl
@[simp] theorem modAssoc_homeTx (s : State) (i : Nat) (f : Assoc → Assoc) : (modAssoc s i f).homeTx = s.homeTx := rfl
@[simp] theorem modAssoc_sliceQ (s : State) (i : Nat) (f : Assoc → Assoc) : (modAssoc s i f).sliceQ = s.sliceQ := rfl
@[simp] theorem modAssoc_snoops (s : State) (i : Nat) (f : Assoc → Assoc) : (modAssoc s i f).snoops = s.snoops := rfl
@[simp] theorem modAssoc_fetchMoves (s : State) (i : Nat) (f : Assoc → Assoc) : (modAssoc s i f).fetchMoves = s.fetchMoves := rfl
@[simp] theorem modAssoc_ageHeld (s : State) (i : Nat) (f : Assoc → Assoc) : (modAssoc s i f).ageHeld = s.ageHeld := rfl
@[simp] theorem modAssoc_tap (s : State) (i : Nat) (f : Assoc → Assoc) : (modAssoc s i f).tap = s.tap := rfl
@[simp] theorem modAssoc_answers (s : State) (i : Nat) (f : Assoc → Assoc) : (modAssoc s i f).answers = s.answers := rfl
@[simp] theorem modAssoc_useStamp (s : State) (i : Nat) (f : Assoc → Assoc) : (modAssoc s i f).useStamp = s.useStamp := rfl
@[simp] theorem modAssoc_given (s : State) (i : Nat) (f : Assoc → Assoc) : (modAssoc s i f).given = s.given := rfl
@[simp] theorem modAssoc_chans (s : State) (i : Nat) (f : Assoc → Assoc) : (modAssoc s i f).chans = s.chans := rfl
@[simp] theorem modAssoc_engs (s : State) (i : Nat) (f : Assoc → Assoc) : (modAssoc s i f).engs = s.engs := rfl
@[simp] theorem modAssoc_works (s : State) (i : Nat) (f : Assoc → Assoc) : (modAssoc s i f).works = s.works := rfl
@[simp] theorem modAssoc_ctrls (s : State) (i : Nat) (f : Assoc → Assoc) : (modAssoc s i f).ctrls = s.ctrls := rfl
@[simp] theorem modAssoc_sess (s : State) (i : Nat) (f : Assoc → Assoc) : (modAssoc s i f).sess = s.sess := rfl
@[simp] theorem modAssoc_mseqs (s : State) (i : Nat) (f : Assoc → Assoc) : (modAssoc s i f).mseqs = s.mseqs := rfl
@[simp] theorem modAssoc_ustores (s : State) (i : Nat) (f : Assoc → Assoc) : (modAssoc s i f).ustores = s.ustores := rfl
@[simp] theorem modAssoc_vault (s : State) (i : Nat) (f : Assoc → Assoc) : (modAssoc s i f).vault = s.vault := rfl
@[simp] theorem modAssoc_xforms (s : State) (i : Nat) (f : Assoc → Assoc) : (modAssoc s i f).xforms = s.xforms := rfl
@[simp] theorem modAssoc_flash (s : State) (i : Nat) (f : Assoc → Assoc) : (modAssoc s i f).flash = s.flash := rfl
@[simp] theorem modAssoc_ageDue (s : State) (i : Nat) (f : Assoc → Assoc) : (modAssoc s i f).ageDue = s.ageDue := rfl
@[simp] theorem modAssoc_straps (s : State) (i : Nat) (f : Assoc → Assoc) : (modAssoc s i f).straps = s.straps := rfl
@[simp] theorem modAssoc_fuses (s : State) (i : Nat) (f : Assoc → Assoc) : (modAssoc s i f).fuses = s.fuses := rfl
@[simp] theorem modAssoc_fusesIn (s : State) (i : Nat) (f : Assoc → Assoc) : (modAssoc s i f).fusesIn = s.fusesIn := rfl
@[simp] theorem modAssoc_mst (s : State) (i : Nat) (f : Assoc → Assoc) : (modAssoc s i f).mst = s.mst := rfl
@[simp] theorem modAssoc_pw (s : State) (i : Nat) (f : Assoc → Assoc) : (modAssoc s i f).pw = s.pw := rfl
@[simp] theorem modAssoc_spi (s : State) (i : Nat) (f : Assoc → Assoc) : (modAssoc s i f).spi = s.spi := rfl
@[simp] theorem modAssoc_i3cPort (s : State) (i : Nat) (f : Assoc → Assoc) : (modAssoc s i f).i3cPort = s.i3cPort := rfl
@[simp] theorem modAssoc_spiDead (s : State) (i : Nat) (f : Assoc → Assoc) : (modAssoc s i f).spiDead = s.spiDead := rfl
@[simp] theorem modAssoc_portCnt (s : State) (i : Nat) (f : Assoc → Assoc) : (modAssoc s i f).portCnt = s.portCnt := rfl
@[simp] theorem modAssoc_i3c (s : State) (i : Nat) (f : Assoc → Assoc) : (modAssoc s i f).i3c = s.i3c := rfl
@[simp] theorem modAssoc_rawHalt (s : State) (i : Nat) (f : Assoc → Assoc) : (modAssoc s i f).rawHalt = s.rawHalt := rfl
@[simp] theorem modAssoc_release (s : State) (i : Nat) (f : Assoc → Assoc) : (modAssoc s i f).release = s.release := rfl
@[simp] theorem modAssoc_fatal (s : State) (i : Nat) (f : Assoc → Assoc) : (modAssoc s i f).fatal = s.fatal := rfl
@[simp] theorem modAssoc_pulse (s : State) (i : Nat) (f : Assoc → Assoc) : (modAssoc s i f).pulse = s.pulse := rfl
@[simp] theorem modAssoc_fresh (s : State) (i : Nat) (f : Assoc → Assoc) : (modAssoc s i f).fresh = s.fresh := rfl
@[simp] theorem modAssoc_pending (s : State) (i : Nat) (f : Assoc → Assoc) : (modAssoc s i f).pending = s.pending := rfl
@[simp] theorem modAssoc_strays (s : State) (i : Nat) (f : Assoc → Assoc) : (modAssoc s i f).strays = s.strays := rfl
@[simp] theorem modAssoc_lrQueue (s : State) (i : Nat) (f : Assoc → Assoc) : (modAssoc s i f).lrQueue = s.lrQueue := rfl
@[simp] theorem modAssoc_posted (s : State) (i : Nat) (f : Assoc → Assoc) : (modAssoc s i f).posted = s.posted := rfl
@[simp] theorem modAssoc_cmdBusy (s : State) (i : Nat) (f : Assoc → Assoc) : (modAssoc s i f).cmdBusy = s.cmdBusy := rfl
@[simp] theorem modAssoc_rwdHeld (s : State) (i : Nat) (f : Assoc → Assoc) : (modAssoc s i f).rwdHeld = s.rwdHeld := rfl
@[simp] theorem setLuff_part (s : State) (p : Nat) (l : Luff) : (setLuff s p l).part = s.part := rfl
@[simp] theorem setLuff_mem (s : State) (p : Nat) (l : Luff) : (setLuff s p l).mem = s.mem := rfl
@[simp] theorem setLuff_poison (s : State) (p : Nat) (l : Luff) : (setLuff s p l).poison = s.poison := rfl
@[simp] theorem setLuff_csr (s : State) (p : Nat) (l : Luff) : (setLuff s p l).csr = s.csr := rfl
@[simp] theorem setLuff_spars (s : State) (p : Nat) (l : Luff) : (setLuff s p l).spars = s.spars := rfl
@[simp] theorem setLuff_pes (s : State) (p : Nat) (l : Luff) : (setLuff s p l).pes = s.pes := rfl
@[simp] theorem setLuff_resvs (s : State) (p : Nat) (l : Luff) : (setLuff s p l).resvs = s.resvs := rfl
@[simp] theorem setLuff_dies (s : State) (p : Nat) (l : Luff) : (setLuff s p l).dies = s.dies := rfl
@[simp] theorem setLuff_hw (s : State) (p : Nat) (l : Luff) : (setLuff s p l).hw = s.hw := rfl
@[simp] theorem setLuff_traps (s : State) (p : Nat) (l : Luff) : (setLuff s p l).traps = s.traps := rfl
@[simp] theorem setLuff_flowMsgs (s : State) (p : Nat) (l : Luff) : (setLuff s p l).flowMsgs = s.flowMsgs := rfl
@[simp] theorem setLuff_notices (s : State) (p : Nat) (l : Luff) : (setLuff s p l).notices = s.notices := rfl
@[simp] theorem setLuff_gateMsgs (s : State) (p : Nat) (l : Luff) : (setLuff s p l).gateMsgs = s.gateMsgs := rfl
@[simp] theorem setLuff_gateWaits (s : State) (p : Nat) (l : Luff) : (setLuff s p l).gateWaits = s.gateWaits := rfl
@[simp] theorem setLuff_pcache (s : State) (p : Nat) (l : Luff) : (setLuff s p l).pcache = s.pcache := rfl
@[simp] theorem setLuff_tlb (s : State) (p : Nat) (l : Luff) : (setLuff s p l).tlb = s.tlb := rfl
@[simp] theorem setLuff_dramWords (s : State) (p : Nat) (l : Luff) : (setLuff s p l).dramWords = s.dramWords := rfl
@[simp] theorem setLuff_hdm (s : State) (p : Nat) (l : Luff) : (setLuff s p l).hdm = s.hdm := rfl
@[simp] theorem setLuff_sups (s : State) (p : Nat) (l : Luff) : (setLuff s p l).sups = s.sups := rfl
@[simp] theorem setLuff_supIssues (s : State) (p : Nat) (l : Luff) : (setLuff s p l).supIssues = s.supIssues := rfl
@[simp] theorem setLuff_caches (s : State) (p : Nat) (l : Luff) : (setLuff s p l).caches = s.caches := rfl
@[simp] theorem setLuff_llc (s : State) (p : Nat) (l : Luff) : (setLuff s p l).llc = s.llc := rfl
@[simp] theorem setLuff_homeTx (s : State) (p : Nat) (l : Luff) : (setLuff s p l).homeTx = s.homeTx := rfl
@[simp] theorem setLuff_sliceQ (s : State) (p : Nat) (l : Luff) : (setLuff s p l).sliceQ = s.sliceQ := rfl
@[simp] theorem setLuff_snoops (s : State) (p : Nat) (l : Luff) : (setLuff s p l).snoops = s.snoops := rfl
@[simp] theorem setLuff_fetchMoves (s : State) (p : Nat) (l : Luff) : (setLuff s p l).fetchMoves = s.fetchMoves := rfl
@[simp] theorem setLuff_ageHeld (s : State) (p : Nat) (l : Luff) : (setLuff s p l).ageHeld = s.ageHeld := rfl
@[simp] theorem setLuff_tap (s : State) (p : Nat) (l : Luff) : (setLuff s p l).tap = s.tap := rfl
@[simp] theorem setLuff_answers (s : State) (p : Nat) (l : Luff) : (setLuff s p l).answers = s.answers := rfl
@[simp] theorem setLuff_useStamp (s : State) (p : Nat) (l : Luff) : (setLuff s p l).useStamp = s.useStamp := rfl
@[simp] theorem setLuff_given (s : State) (p : Nat) (l : Luff) : (setLuff s p l).given = s.given := rfl
@[simp] theorem setLuff_chans (s : State) (p : Nat) (l : Luff) : (setLuff s p l).chans = s.chans := rfl
@[simp] theorem setLuff_engs (s : State) (p : Nat) (l : Luff) : (setLuff s p l).engs = s.engs := rfl
@[simp] theorem setLuff_works (s : State) (p : Nat) (l : Luff) : (setLuff s p l).works = s.works := rfl
@[simp] theorem setLuff_ctrls (s : State) (p : Nat) (l : Luff) : (setLuff s p l).ctrls = s.ctrls := rfl
@[simp] theorem setLuff_sess (s : State) (p : Nat) (l : Luff) : (setLuff s p l).sess = s.sess := rfl
@[simp] theorem setLuff_assocs (s : State) (p : Nat) (l : Luff) : (setLuff s p l).assocs = s.assocs := rfl
@[simp] theorem setLuff_mseqs (s : State) (p : Nat) (l : Luff) : (setLuff s p l).mseqs = s.mseqs := rfl
@[simp] theorem setLuff_ustores (s : State) (p : Nat) (l : Luff) : (setLuff s p l).ustores = s.ustores := rfl
@[simp] theorem setLuff_vault (s : State) (p : Nat) (l : Luff) : (setLuff s p l).vault = s.vault := rfl
@[simp] theorem setLuff_xforms (s : State) (p : Nat) (l : Luff) : (setLuff s p l).xforms = s.xforms := rfl
@[simp] theorem setLuff_flash (s : State) (p : Nat) (l : Luff) : (setLuff s p l).flash = s.flash := rfl
@[simp] theorem setLuff_ageDue (s : State) (p : Nat) (l : Luff) : (setLuff s p l).ageDue = s.ageDue := rfl
@[simp] theorem setLuff_straps (s : State) (p : Nat) (l : Luff) : (setLuff s p l).straps = s.straps := rfl
@[simp] theorem setLuff_fuses (s : State) (p : Nat) (l : Luff) : (setLuff s p l).fuses = s.fuses := rfl
@[simp] theorem setLuff_fusesIn (s : State) (p : Nat) (l : Luff) : (setLuff s p l).fusesIn = s.fusesIn := rfl
@[simp] theorem setLuff_mst (s : State) (p : Nat) (l : Luff) : (setLuff s p l).mst = s.mst := rfl
@[simp] theorem setLuff_pw (s : State) (p : Nat) (l : Luff) : (setLuff s p l).pw = s.pw := rfl
@[simp] theorem setLuff_spi (s : State) (p : Nat) (l : Luff) : (setLuff s p l).spi = s.spi := rfl
@[simp] theorem setLuff_i3cPort (s : State) (p : Nat) (l : Luff) : (setLuff s p l).i3cPort = s.i3cPort := rfl
@[simp] theorem setLuff_spiDead (s : State) (p : Nat) (l : Luff) : (setLuff s p l).spiDead = s.spiDead := rfl
@[simp] theorem setLuff_portCnt (s : State) (p : Nat) (l : Luff) : (setLuff s p l).portCnt = s.portCnt := rfl
@[simp] theorem setLuff_i3c (s : State) (p : Nat) (l : Luff) : (setLuff s p l).i3c = s.i3c := rfl
@[simp] theorem setLuff_rawHalt (s : State) (p : Nat) (l : Luff) : (setLuff s p l).rawHalt = s.rawHalt := rfl
@[simp] theorem setLuff_release (s : State) (p : Nat) (l : Luff) : (setLuff s p l).release = s.release := rfl
@[simp] theorem setLuff_fatal (s : State) (p : Nat) (l : Luff) : (setLuff s p l).fatal = s.fatal := rfl
@[simp] theorem setLuff_pulse (s : State) (p : Nat) (l : Luff) : (setLuff s p l).pulse = s.pulse := rfl
@[simp] theorem setLuff_fresh (s : State) (p : Nat) (l : Luff) : (setLuff s p l).fresh = s.fresh := rfl
@[simp] theorem setLuff_pending (s : State) (p : Nat) (l : Luff) : (setLuff s p l).pending = s.pending := rfl
@[simp] theorem setLuff_strays (s : State) (p : Nat) (l : Luff) : (setLuff s p l).strays = s.strays := rfl
@[simp] theorem setLuff_lrQueue (s : State) (p : Nat) (l : Luff) : (setLuff s p l).lrQueue = s.lrQueue := rfl
@[simp] theorem setLuff_posted (s : State) (p : Nat) (l : Luff) : (setLuff s p l).posted = s.posted := rfl
@[simp] theorem setLuff_cmdBusy (s : State) (p : Nat) (l : Luff) : (setLuff s p l).cmdBusy = s.cmdBusy := rfl
@[simp] theorem setLuff_rwdHeld (s : State) (p : Nat) (l : Luff) : (setLuff s p l).rwdHeld = s.rwdHeld := rfl
@[simp] theorem modDie_part (s : State) (d : Nat) (f : Die → Die) : (modDie s d f).part = s.part := rfl
@[simp] theorem modDie_mem (s : State) (d : Nat) (f : Die → Die) : (modDie s d f).mem = s.mem := rfl
@[simp] theorem modDie_poison (s : State) (d : Nat) (f : Die → Die) : (modDie s d f).poison = s.poison := rfl
@[simp] theorem modDie_csr (s : State) (d : Nat) (f : Die → Die) : (modDie s d f).csr = s.csr := rfl
@[simp] theorem modDie_spars (s : State) (d : Nat) (f : Die → Die) : (modDie s d f).spars = s.spars := rfl
@[simp] theorem modDie_pes (s : State) (d : Nat) (f : Die → Die) : (modDie s d f).pes = s.pes := rfl
@[simp] theorem modDie_resvs (s : State) (d : Nat) (f : Die → Die) : (modDie s d f).resvs = s.resvs := rfl
@[simp] theorem modDie_hw (s : State) (d : Nat) (f : Die → Die) : (modDie s d f).hw = s.hw := rfl
@[simp] theorem modDie_traps (s : State) (d : Nat) (f : Die → Die) : (modDie s d f).traps = s.traps := rfl
@[simp] theorem modDie_flowMsgs (s : State) (d : Nat) (f : Die → Die) : (modDie s d f).flowMsgs = s.flowMsgs := rfl
@[simp] theorem modDie_notices (s : State) (d : Nat) (f : Die → Die) : (modDie s d f).notices = s.notices := rfl
@[simp] theorem modDie_gateMsgs (s : State) (d : Nat) (f : Die → Die) : (modDie s d f).gateMsgs = s.gateMsgs := rfl
@[simp] theorem modDie_gateWaits (s : State) (d : Nat) (f : Die → Die) : (modDie s d f).gateWaits = s.gateWaits := rfl
@[simp] theorem modDie_luffs (s : State) (d : Nat) (f : Die → Die) : (modDie s d f).luffs = s.luffs := rfl
@[simp] theorem modDie_pcache (s : State) (d : Nat) (f : Die → Die) : (modDie s d f).pcache = s.pcache := rfl
@[simp] theorem modDie_tlb (s : State) (d : Nat) (f : Die → Die) : (modDie s d f).tlb = s.tlb := rfl
@[simp] theorem modDie_dramWords (s : State) (d : Nat) (f : Die → Die) : (modDie s d f).dramWords = s.dramWords := rfl
@[simp] theorem modDie_hdm (s : State) (d : Nat) (f : Die → Die) : (modDie s d f).hdm = s.hdm := rfl
@[simp] theorem modDie_sups (s : State) (d : Nat) (f : Die → Die) : (modDie s d f).sups = s.sups := rfl
@[simp] theorem modDie_supIssues (s : State) (d : Nat) (f : Die → Die) : (modDie s d f).supIssues = s.supIssues := rfl
@[simp] theorem modDie_caches (s : State) (d : Nat) (f : Die → Die) : (modDie s d f).caches = s.caches := rfl
@[simp] theorem modDie_llc (s : State) (d : Nat) (f : Die → Die) : (modDie s d f).llc = s.llc := rfl
@[simp] theorem modDie_homeTx (s : State) (d : Nat) (f : Die → Die) : (modDie s d f).homeTx = s.homeTx := rfl
@[simp] theorem modDie_sliceQ (s : State) (d : Nat) (f : Die → Die) : (modDie s d f).sliceQ = s.sliceQ := rfl
@[simp] theorem modDie_snoops (s : State) (d : Nat) (f : Die → Die) : (modDie s d f).snoops = s.snoops := rfl
@[simp] theorem modDie_fetchMoves (s : State) (d : Nat) (f : Die → Die) : (modDie s d f).fetchMoves = s.fetchMoves := rfl
@[simp] theorem modDie_ageHeld (s : State) (d : Nat) (f : Die → Die) : (modDie s d f).ageHeld = s.ageHeld := rfl
@[simp] theorem modDie_tap (s : State) (d : Nat) (f : Die → Die) : (modDie s d f).tap = s.tap := rfl
@[simp] theorem modDie_answers (s : State) (d : Nat) (f : Die → Die) : (modDie s d f).answers = s.answers := rfl
@[simp] theorem modDie_useStamp (s : State) (d : Nat) (f : Die → Die) : (modDie s d f).useStamp = s.useStamp := rfl
@[simp] theorem modDie_given (s : State) (d : Nat) (f : Die → Die) : (modDie s d f).given = s.given := rfl
@[simp] theorem modDie_chans (s : State) (d : Nat) (f : Die → Die) : (modDie s d f).chans = s.chans := rfl
@[simp] theorem modDie_engs (s : State) (d : Nat) (f : Die → Die) : (modDie s d f).engs = s.engs := rfl
@[simp] theorem modDie_works (s : State) (d : Nat) (f : Die → Die) : (modDie s d f).works = s.works := rfl
@[simp] theorem modDie_ctrls (s : State) (d : Nat) (f : Die → Die) : (modDie s d f).ctrls = s.ctrls := rfl
@[simp] theorem modDie_sess (s : State) (d : Nat) (f : Die → Die) : (modDie s d f).sess = s.sess := rfl
@[simp] theorem modDie_assocs (s : State) (d : Nat) (f : Die → Die) : (modDie s d f).assocs = s.assocs := rfl
@[simp] theorem modDie_mseqs (s : State) (d : Nat) (f : Die → Die) : (modDie s d f).mseqs = s.mseqs := rfl
@[simp] theorem modDie_ustores (s : State) (d : Nat) (f : Die → Die) : (modDie s d f).ustores = s.ustores := rfl
@[simp] theorem modDie_vault (s : State) (d : Nat) (f : Die → Die) : (modDie s d f).vault = s.vault := rfl
@[simp] theorem modDie_xforms (s : State) (d : Nat) (f : Die → Die) : (modDie s d f).xforms = s.xforms := rfl
@[simp] theorem modDie_flash (s : State) (d : Nat) (f : Die → Die) : (modDie s d f).flash = s.flash := rfl
@[simp] theorem modDie_ageDue (s : State) (d : Nat) (f : Die → Die) : (modDie s d f).ageDue = s.ageDue := rfl
@[simp] theorem modDie_straps (s : State) (d : Nat) (f : Die → Die) : (modDie s d f).straps = s.straps := rfl
@[simp] theorem modDie_fuses (s : State) (d : Nat) (f : Die → Die) : (modDie s d f).fuses = s.fuses := rfl
@[simp] theorem modDie_fusesIn (s : State) (d : Nat) (f : Die → Die) : (modDie s d f).fusesIn = s.fusesIn := rfl
@[simp] theorem modDie_mst (s : State) (d : Nat) (f : Die → Die) : (modDie s d f).mst = s.mst := rfl
@[simp] theorem modDie_pw (s : State) (d : Nat) (f : Die → Die) : (modDie s d f).pw = s.pw := rfl
@[simp] theorem modDie_spi (s : State) (d : Nat) (f : Die → Die) : (modDie s d f).spi = s.spi := rfl
@[simp] theorem modDie_i3cPort (s : State) (d : Nat) (f : Die → Die) : (modDie s d f).i3cPort = s.i3cPort := rfl
@[simp] theorem modDie_spiDead (s : State) (d : Nat) (f : Die → Die) : (modDie s d f).spiDead = s.spiDead := rfl
@[simp] theorem modDie_portCnt (s : State) (d : Nat) (f : Die → Die) : (modDie s d f).portCnt = s.portCnt := rfl
@[simp] theorem modDie_i3c (s : State) (d : Nat) (f : Die → Die) : (modDie s d f).i3c = s.i3c := rfl
@[simp] theorem modDie_rawHalt (s : State) (d : Nat) (f : Die → Die) : (modDie s d f).rawHalt = s.rawHalt := rfl
@[simp] theorem modDie_release (s : State) (d : Nat) (f : Die → Die) : (modDie s d f).release = s.release := rfl
@[simp] theorem modDie_fatal (s : State) (d : Nat) (f : Die → Die) : (modDie s d f).fatal = s.fatal := rfl
@[simp] theorem modDie_pulse (s : State) (d : Nat) (f : Die → Die) : (modDie s d f).pulse = s.pulse := rfl
@[simp] theorem modDie_fresh (s : State) (d : Nat) (f : Die → Die) : (modDie s d f).fresh = s.fresh := rfl
@[simp] theorem modDie_pending (s : State) (d : Nat) (f : Die → Die) : (modDie s d f).pending = s.pending := rfl
@[simp] theorem modDie_strays (s : State) (d : Nat) (f : Die → Die) : (modDie s d f).strays = s.strays := rfl
@[simp] theorem modDie_lrQueue (s : State) (d : Nat) (f : Die → Die) : (modDie s d f).lrQueue = s.lrQueue := rfl
@[simp] theorem modDie_posted (s : State) (d : Nat) (f : Die → Die) : (modDie s d f).posted = s.posted := rfl
@[simp] theorem modDie_cmdBusy (s : State) (d : Nat) (f : Die → Die) : (modDie s d f).cmdBusy = s.cmdBusy := rfl
@[simp] theorem modDie_rwdHeld (s : State) (d : Nat) (f : Die → Die) : (modDie s d f).rwdHeld = s.rwdHeld := rfl
@[simp] theorem modSeq_part (s : State) (k : Nat) (f : MSeq → MSeq) : (modSeq s k f).part = s.part := rfl
@[simp] theorem modSeq_mem (s : State) (k : Nat) (f : MSeq → MSeq) : (modSeq s k f).mem = s.mem := rfl
@[simp] theorem modSeq_poison (s : State) (k : Nat) (f : MSeq → MSeq) : (modSeq s k f).poison = s.poison := rfl
@[simp] theorem modSeq_csr (s : State) (k : Nat) (f : MSeq → MSeq) : (modSeq s k f).csr = s.csr := rfl
@[simp] theorem modSeq_spars (s : State) (k : Nat) (f : MSeq → MSeq) : (modSeq s k f).spars = s.spars := rfl
@[simp] theorem modSeq_pes (s : State) (k : Nat) (f : MSeq → MSeq) : (modSeq s k f).pes = s.pes := rfl
@[simp] theorem modSeq_resvs (s : State) (k : Nat) (f : MSeq → MSeq) : (modSeq s k f).resvs = s.resvs := rfl
@[simp] theorem modSeq_dies (s : State) (k : Nat) (f : MSeq → MSeq) : (modSeq s k f).dies = s.dies := rfl
@[simp] theorem modSeq_hw (s : State) (k : Nat) (f : MSeq → MSeq) : (modSeq s k f).hw = s.hw := rfl
@[simp] theorem modSeq_traps (s : State) (k : Nat) (f : MSeq → MSeq) : (modSeq s k f).traps = s.traps := rfl
@[simp] theorem modSeq_flowMsgs (s : State) (k : Nat) (f : MSeq → MSeq) : (modSeq s k f).flowMsgs = s.flowMsgs := rfl
@[simp] theorem modSeq_notices (s : State) (k : Nat) (f : MSeq → MSeq) : (modSeq s k f).notices = s.notices := rfl
@[simp] theorem modSeq_gateMsgs (s : State) (k : Nat) (f : MSeq → MSeq) : (modSeq s k f).gateMsgs = s.gateMsgs := rfl
@[simp] theorem modSeq_gateWaits (s : State) (k : Nat) (f : MSeq → MSeq) : (modSeq s k f).gateWaits = s.gateWaits := rfl
@[simp] theorem modSeq_luffs (s : State) (k : Nat) (f : MSeq → MSeq) : (modSeq s k f).luffs = s.luffs := rfl
@[simp] theorem modSeq_pcache (s : State) (k : Nat) (f : MSeq → MSeq) : (modSeq s k f).pcache = s.pcache := rfl
@[simp] theorem modSeq_tlb (s : State) (k : Nat) (f : MSeq → MSeq) : (modSeq s k f).tlb = s.tlb := rfl
@[simp] theorem modSeq_dramWords (s : State) (k : Nat) (f : MSeq → MSeq) : (modSeq s k f).dramWords = s.dramWords := rfl
@[simp] theorem modSeq_hdm (s : State) (k : Nat) (f : MSeq → MSeq) : (modSeq s k f).hdm = s.hdm := rfl
@[simp] theorem modSeq_sups (s : State) (k : Nat) (f : MSeq → MSeq) : (modSeq s k f).sups = s.sups := rfl
@[simp] theorem modSeq_supIssues (s : State) (k : Nat) (f : MSeq → MSeq) : (modSeq s k f).supIssues = s.supIssues := rfl
@[simp] theorem modSeq_caches (s : State) (k : Nat) (f : MSeq → MSeq) : (modSeq s k f).caches = s.caches := rfl
@[simp] theorem modSeq_llc (s : State) (k : Nat) (f : MSeq → MSeq) : (modSeq s k f).llc = s.llc := rfl
@[simp] theorem modSeq_homeTx (s : State) (k : Nat) (f : MSeq → MSeq) : (modSeq s k f).homeTx = s.homeTx := rfl
@[simp] theorem modSeq_sliceQ (s : State) (k : Nat) (f : MSeq → MSeq) : (modSeq s k f).sliceQ = s.sliceQ := rfl
@[simp] theorem modSeq_snoops (s : State) (k : Nat) (f : MSeq → MSeq) : (modSeq s k f).snoops = s.snoops := rfl
@[simp] theorem modSeq_fetchMoves (s : State) (k : Nat) (f : MSeq → MSeq) : (modSeq s k f).fetchMoves = s.fetchMoves := rfl
@[simp] theorem modSeq_ageHeld (s : State) (k : Nat) (f : MSeq → MSeq) : (modSeq s k f).ageHeld = s.ageHeld := rfl
@[simp] theorem modSeq_tap (s : State) (k : Nat) (f : MSeq → MSeq) : (modSeq s k f).tap = s.tap := rfl
@[simp] theorem modSeq_answers (s : State) (k : Nat) (f : MSeq → MSeq) : (modSeq s k f).answers = s.answers := rfl
@[simp] theorem modSeq_useStamp (s : State) (k : Nat) (f : MSeq → MSeq) : (modSeq s k f).useStamp = s.useStamp := rfl
@[simp] theorem modSeq_given (s : State) (k : Nat) (f : MSeq → MSeq) : (modSeq s k f).given = s.given := rfl
@[simp] theorem modSeq_chans (s : State) (k : Nat) (f : MSeq → MSeq) : (modSeq s k f).chans = s.chans := rfl
@[simp] theorem modSeq_engs (s : State) (k : Nat) (f : MSeq → MSeq) : (modSeq s k f).engs = s.engs := rfl
@[simp] theorem modSeq_works (s : State) (k : Nat) (f : MSeq → MSeq) : (modSeq s k f).works = s.works := rfl
@[simp] theorem modSeq_ctrls (s : State) (k : Nat) (f : MSeq → MSeq) : (modSeq s k f).ctrls = s.ctrls := rfl
@[simp] theorem modSeq_sess (s : State) (k : Nat) (f : MSeq → MSeq) : (modSeq s k f).sess = s.sess := rfl
@[simp] theorem modSeq_assocs (s : State) (k : Nat) (f : MSeq → MSeq) : (modSeq s k f).assocs = s.assocs := rfl
@[simp] theorem modSeq_ustores (s : State) (k : Nat) (f : MSeq → MSeq) : (modSeq s k f).ustores = s.ustores := rfl
@[simp] theorem modSeq_vault (s : State) (k : Nat) (f : MSeq → MSeq) : (modSeq s k f).vault = s.vault := rfl
@[simp] theorem modSeq_xforms (s : State) (k : Nat) (f : MSeq → MSeq) : (modSeq s k f).xforms = s.xforms := rfl
@[simp] theorem modSeq_flash (s : State) (k : Nat) (f : MSeq → MSeq) : (modSeq s k f).flash = s.flash := rfl
@[simp] theorem modSeq_ageDue (s : State) (k : Nat) (f : MSeq → MSeq) : (modSeq s k f).ageDue = s.ageDue := rfl
@[simp] theorem modSeq_straps (s : State) (k : Nat) (f : MSeq → MSeq) : (modSeq s k f).straps = s.straps := rfl
@[simp] theorem modSeq_fuses (s : State) (k : Nat) (f : MSeq → MSeq) : (modSeq s k f).fuses = s.fuses := rfl
@[simp] theorem modSeq_fusesIn (s : State) (k : Nat) (f : MSeq → MSeq) : (modSeq s k f).fusesIn = s.fusesIn := rfl
@[simp] theorem modSeq_mst (s : State) (k : Nat) (f : MSeq → MSeq) : (modSeq s k f).mst = s.mst := rfl
@[simp] theorem modSeq_pw (s : State) (k : Nat) (f : MSeq → MSeq) : (modSeq s k f).pw = s.pw := rfl
@[simp] theorem modSeq_spi (s : State) (k : Nat) (f : MSeq → MSeq) : (modSeq s k f).spi = s.spi := rfl
@[simp] theorem modSeq_i3cPort (s : State) (k : Nat) (f : MSeq → MSeq) : (modSeq s k f).i3cPort = s.i3cPort := rfl
@[simp] theorem modSeq_spiDead (s : State) (k : Nat) (f : MSeq → MSeq) : (modSeq s k f).spiDead = s.spiDead := rfl
@[simp] theorem modSeq_portCnt (s : State) (k : Nat) (f : MSeq → MSeq) : (modSeq s k f).portCnt = s.portCnt := rfl
@[simp] theorem modSeq_i3c (s : State) (k : Nat) (f : MSeq → MSeq) : (modSeq s k f).i3c = s.i3c := rfl
@[simp] theorem modSeq_rawHalt (s : State) (k : Nat) (f : MSeq → MSeq) : (modSeq s k f).rawHalt = s.rawHalt := rfl
@[simp] theorem modSeq_release (s : State) (k : Nat) (f : MSeq → MSeq) : (modSeq s k f).release = s.release := rfl
@[simp] theorem modSeq_fatal (s : State) (k : Nat) (f : MSeq → MSeq) : (modSeq s k f).fatal = s.fatal := rfl
@[simp] theorem modSeq_pulse (s : State) (k : Nat) (f : MSeq → MSeq) : (modSeq s k f).pulse = s.pulse := rfl
@[simp] theorem modSeq_fresh (s : State) (k : Nat) (f : MSeq → MSeq) : (modSeq s k f).fresh = s.fresh := rfl
@[simp] theorem modSeq_pending (s : State) (k : Nat) (f : MSeq → MSeq) : (modSeq s k f).pending = s.pending := rfl
@[simp] theorem modSeq_strays (s : State) (k : Nat) (f : MSeq → MSeq) : (modSeq s k f).strays = s.strays := rfl
@[simp] theorem modSeq_lrQueue (s : State) (k : Nat) (f : MSeq → MSeq) : (modSeq s k f).lrQueue = s.lrQueue := rfl
@[simp] theorem modSeq_posted (s : State) (k : Nat) (f : MSeq → MSeq) : (modSeq s k f).posted = s.posted := rfl
@[simp] theorem modSeq_cmdBusy (s : State) (k : Nat) (f : MSeq → MSeq) : (modSeq s k f).cmdBusy = s.cmdBusy := rfl
@[simp] theorem modSeq_rwdHeld (s : State) (k : Nat) (f : MSeq → MSeq) : (modSeq s k f).rwdHeld = s.rwdHeld := rfl
@[simp] theorem dropResv_part (s : State) (agent : Nat) : (dropResv s agent).part = s.part := rfl
@[simp] theorem dropResv_mem (s : State) (agent : Nat) : (dropResv s agent).mem = s.mem := rfl
@[simp] theorem dropResv_poison (s : State) (agent : Nat) : (dropResv s agent).poison = s.poison := rfl
@[simp] theorem dropResv_csr (s : State) (agent : Nat) : (dropResv s agent).csr = s.csr := rfl
@[simp] theorem dropResv_spars (s : State) (agent : Nat) : (dropResv s agent).spars = s.spars := rfl
@[simp] theorem dropResv_pes (s : State) (agent : Nat) : (dropResv s agent).pes = s.pes := rfl
@[simp] theorem dropResv_dies (s : State) (agent : Nat) : (dropResv s agent).dies = s.dies := rfl
@[simp] theorem dropResv_hw (s : State) (agent : Nat) : (dropResv s agent).hw = s.hw := rfl
@[simp] theorem dropResv_traps (s : State) (agent : Nat) : (dropResv s agent).traps = s.traps := rfl
@[simp] theorem dropResv_flowMsgs (s : State) (agent : Nat) : (dropResv s agent).flowMsgs = s.flowMsgs := rfl
@[simp] theorem dropResv_notices (s : State) (agent : Nat) : (dropResv s agent).notices = s.notices := rfl
@[simp] theorem dropResv_gateMsgs (s : State) (agent : Nat) : (dropResv s agent).gateMsgs = s.gateMsgs := rfl
@[simp] theorem dropResv_gateWaits (s : State) (agent : Nat) : (dropResv s agent).gateWaits = s.gateWaits := rfl
@[simp] theorem dropResv_luffs (s : State) (agent : Nat) : (dropResv s agent).luffs = s.luffs := rfl
@[simp] theorem dropResv_pcache (s : State) (agent : Nat) : (dropResv s agent).pcache = s.pcache := rfl
@[simp] theorem dropResv_tlb (s : State) (agent : Nat) : (dropResv s agent).tlb = s.tlb := rfl
@[simp] theorem dropResv_dramWords (s : State) (agent : Nat) : (dropResv s agent).dramWords = s.dramWords := rfl
@[simp] theorem dropResv_hdm (s : State) (agent : Nat) : (dropResv s agent).hdm = s.hdm := rfl
@[simp] theorem dropResv_sups (s : State) (agent : Nat) : (dropResv s agent).sups = s.sups := rfl
@[simp] theorem dropResv_supIssues (s : State) (agent : Nat) : (dropResv s agent).supIssues = s.supIssues := rfl
@[simp] theorem dropResv_caches (s : State) (agent : Nat) : (dropResv s agent).caches = s.caches := rfl
@[simp] theorem dropResv_llc (s : State) (agent : Nat) : (dropResv s agent).llc = s.llc := rfl
@[simp] theorem dropResv_homeTx (s : State) (agent : Nat) : (dropResv s agent).homeTx = s.homeTx := rfl
@[simp] theorem dropResv_sliceQ (s : State) (agent : Nat) : (dropResv s agent).sliceQ = s.sliceQ := rfl
@[simp] theorem dropResv_snoops (s : State) (agent : Nat) : (dropResv s agent).snoops = s.snoops := rfl
@[simp] theorem dropResv_fetchMoves (s : State) (agent : Nat) : (dropResv s agent).fetchMoves = s.fetchMoves := rfl
@[simp] theorem dropResv_ageHeld (s : State) (agent : Nat) : (dropResv s agent).ageHeld = s.ageHeld := rfl
@[simp] theorem dropResv_tap (s : State) (agent : Nat) : (dropResv s agent).tap = s.tap := rfl
@[simp] theorem dropResv_answers (s : State) (agent : Nat) : (dropResv s agent).answers = s.answers := rfl
@[simp] theorem dropResv_useStamp (s : State) (agent : Nat) : (dropResv s agent).useStamp = s.useStamp := rfl
@[simp] theorem dropResv_given (s : State) (agent : Nat) : (dropResv s agent).given = s.given := rfl
@[simp] theorem dropResv_chans (s : State) (agent : Nat) : (dropResv s agent).chans = s.chans := rfl
@[simp] theorem dropResv_engs (s : State) (agent : Nat) : (dropResv s agent).engs = s.engs := rfl
@[simp] theorem dropResv_works (s : State) (agent : Nat) : (dropResv s agent).works = s.works := rfl
@[simp] theorem dropResv_ctrls (s : State) (agent : Nat) : (dropResv s agent).ctrls = s.ctrls := rfl
@[simp] theorem dropResv_sess (s : State) (agent : Nat) : (dropResv s agent).sess = s.sess := rfl
@[simp] theorem dropResv_assocs (s : State) (agent : Nat) : (dropResv s agent).assocs = s.assocs := rfl
@[simp] theorem dropResv_mseqs (s : State) (agent : Nat) : (dropResv s agent).mseqs = s.mseqs := rfl
@[simp] theorem dropResv_ustores (s : State) (agent : Nat) : (dropResv s agent).ustores = s.ustores := rfl
@[simp] theorem dropResv_vault (s : State) (agent : Nat) : (dropResv s agent).vault = s.vault := rfl
@[simp] theorem dropResv_xforms (s : State) (agent : Nat) : (dropResv s agent).xforms = s.xforms := rfl
@[simp] theorem dropResv_flash (s : State) (agent : Nat) : (dropResv s agent).flash = s.flash := rfl
@[simp] theorem dropResv_ageDue (s : State) (agent : Nat) : (dropResv s agent).ageDue = s.ageDue := rfl
@[simp] theorem dropResv_straps (s : State) (agent : Nat) : (dropResv s agent).straps = s.straps := rfl
@[simp] theorem dropResv_fuses (s : State) (agent : Nat) : (dropResv s agent).fuses = s.fuses := rfl
@[simp] theorem dropResv_fusesIn (s : State) (agent : Nat) : (dropResv s agent).fusesIn = s.fusesIn := rfl
@[simp] theorem dropResv_mst (s : State) (agent : Nat) : (dropResv s agent).mst = s.mst := rfl
@[simp] theorem dropResv_pw (s : State) (agent : Nat) : (dropResv s agent).pw = s.pw := rfl
@[simp] theorem dropResv_spi (s : State) (agent : Nat) : (dropResv s agent).spi = s.spi := rfl
@[simp] theorem dropResv_i3cPort (s : State) (agent : Nat) : (dropResv s agent).i3cPort = s.i3cPort := rfl
@[simp] theorem dropResv_spiDead (s : State) (agent : Nat) : (dropResv s agent).spiDead = s.spiDead := rfl
@[simp] theorem dropResv_portCnt (s : State) (agent : Nat) : (dropResv s agent).portCnt = s.portCnt := rfl
@[simp] theorem dropResv_i3c (s : State) (agent : Nat) : (dropResv s agent).i3c = s.i3c := rfl
@[simp] theorem dropResv_rawHalt (s : State) (agent : Nat) : (dropResv s agent).rawHalt = s.rawHalt := rfl
@[simp] theorem dropResv_release (s : State) (agent : Nat) : (dropResv s agent).release = s.release := rfl
@[simp] theorem dropResv_fatal (s : State) (agent : Nat) : (dropResv s agent).fatal = s.fatal := rfl
@[simp] theorem dropResv_pulse (s : State) (agent : Nat) : (dropResv s agent).pulse = s.pulse := rfl
@[simp] theorem dropResv_fresh (s : State) (agent : Nat) : (dropResv s agent).fresh = s.fresh := rfl
@[simp] theorem dropResv_pending (s : State) (agent : Nat) : (dropResv s agent).pending = s.pending := rfl
@[simp] theorem dropResv_strays (s : State) (agent : Nat) : (dropResv s agent).strays = s.strays := rfl
@[simp] theorem dropResv_posted (s : State) (agent : Nat) : (dropResv s agent).posted = s.posted := rfl
@[simp] theorem dropResv_cmdBusy (s : State) (agent : Nat) : (dropResv s agent).cmdBusy = s.cmdBusy := rfl
@[simp] theorem dropResv_rwdHeld (s : State) (agent : Nat) : (dropResv s agent).rwdHeld = s.rwdHeld := rfl
@[simp] theorem setCache_part (s : State) (cache line v : Nat) : (setCache s cache line v).part = s.part := rfl
@[simp] theorem setCache_mem (s : State) (cache line v : Nat) : (setCache s cache line v).mem = s.mem := rfl
@[simp] theorem setCache_poison (s : State) (cache line v : Nat) : (setCache s cache line v).poison = s.poison := rfl
@[simp] theorem setCache_csr (s : State) (cache line v : Nat) : (setCache s cache line v).csr = s.csr := rfl
@[simp] theorem setCache_spars (s : State) (cache line v : Nat) : (setCache s cache line v).spars = s.spars := rfl
@[simp] theorem setCache_pes (s : State) (cache line v : Nat) : (setCache s cache line v).pes = s.pes := rfl
@[simp] theorem setCache_resvs (s : State) (cache line v : Nat) : (setCache s cache line v).resvs = s.resvs := rfl
@[simp] theorem setCache_dies (s : State) (cache line v : Nat) : (setCache s cache line v).dies = s.dies := rfl
@[simp] theorem setCache_hw (s : State) (cache line v : Nat) : (setCache s cache line v).hw = s.hw := rfl
@[simp] theorem setCache_traps (s : State) (cache line v : Nat) : (setCache s cache line v).traps = s.traps := rfl
@[simp] theorem setCache_flowMsgs (s : State) (cache line v : Nat) : (setCache s cache line v).flowMsgs = s.flowMsgs := rfl
@[simp] theorem setCache_notices (s : State) (cache line v : Nat) : (setCache s cache line v).notices = s.notices := rfl
@[simp] theorem setCache_gateMsgs (s : State) (cache line v : Nat) : (setCache s cache line v).gateMsgs = s.gateMsgs := rfl
@[simp] theorem setCache_gateWaits (s : State) (cache line v : Nat) : (setCache s cache line v).gateWaits = s.gateWaits := rfl
@[simp] theorem setCache_luffs (s : State) (cache line v : Nat) : (setCache s cache line v).luffs = s.luffs := rfl
@[simp] theorem setCache_pcache (s : State) (cache line v : Nat) : (setCache s cache line v).pcache = s.pcache := rfl
@[simp] theorem setCache_tlb (s : State) (cache line v : Nat) : (setCache s cache line v).tlb = s.tlb := rfl
@[simp] theorem setCache_dramWords (s : State) (cache line v : Nat) : (setCache s cache line v).dramWords = s.dramWords := rfl
@[simp] theorem setCache_hdm (s : State) (cache line v : Nat) : (setCache s cache line v).hdm = s.hdm := rfl
@[simp] theorem setCache_sups (s : State) (cache line v : Nat) : (setCache s cache line v).sups = s.sups := rfl
@[simp] theorem setCache_supIssues (s : State) (cache line v : Nat) : (setCache s cache line v).supIssues = s.supIssues := rfl
@[simp] theorem setCache_llc (s : State) (cache line v : Nat) : (setCache s cache line v).llc = s.llc := rfl
@[simp] theorem setCache_homeTx (s : State) (cache line v : Nat) : (setCache s cache line v).homeTx = s.homeTx := rfl
@[simp] theorem setCache_sliceQ (s : State) (cache line v : Nat) : (setCache s cache line v).sliceQ = s.sliceQ := rfl
@[simp] theorem setCache_snoops (s : State) (cache line v : Nat) : (setCache s cache line v).snoops = s.snoops := rfl
@[simp] theorem setCache_fetchMoves (s : State) (cache line v : Nat) : (setCache s cache line v).fetchMoves = s.fetchMoves := rfl
@[simp] theorem setCache_ageHeld (s : State) (cache line v : Nat) : (setCache s cache line v).ageHeld = s.ageHeld := rfl
@[simp] theorem setCache_tap (s : State) (cache line v : Nat) : (setCache s cache line v).tap = s.tap := rfl
@[simp] theorem setCache_answers (s : State) (cache line v : Nat) : (setCache s cache line v).answers = s.answers := rfl
@[simp] theorem setCache_useStamp (s : State) (cache line v : Nat) : (setCache s cache line v).useStamp = s.useStamp := rfl
@[simp] theorem setCache_given (s : State) (cache line v : Nat) : (setCache s cache line v).given = s.given := rfl
@[simp] theorem setCache_chans (s : State) (cache line v : Nat) : (setCache s cache line v).chans = s.chans := rfl
@[simp] theorem setCache_engs (s : State) (cache line v : Nat) : (setCache s cache line v).engs = s.engs := rfl
@[simp] theorem setCache_works (s : State) (cache line v : Nat) : (setCache s cache line v).works = s.works := rfl
@[simp] theorem setCache_ctrls (s : State) (cache line v : Nat) : (setCache s cache line v).ctrls = s.ctrls := rfl
@[simp] theorem setCache_sess (s : State) (cache line v : Nat) : (setCache s cache line v).sess = s.sess := rfl
@[simp] theorem setCache_assocs (s : State) (cache line v : Nat) : (setCache s cache line v).assocs = s.assocs := rfl
@[simp] theorem setCache_mseqs (s : State) (cache line v : Nat) : (setCache s cache line v).mseqs = s.mseqs := rfl
@[simp] theorem setCache_ustores (s : State) (cache line v : Nat) : (setCache s cache line v).ustores = s.ustores := rfl
@[simp] theorem setCache_vault (s : State) (cache line v : Nat) : (setCache s cache line v).vault = s.vault := rfl
@[simp] theorem setCache_xforms (s : State) (cache line v : Nat) : (setCache s cache line v).xforms = s.xforms := rfl
@[simp] theorem setCache_flash (s : State) (cache line v : Nat) : (setCache s cache line v).flash = s.flash := rfl
@[simp] theorem setCache_ageDue (s : State) (cache line v : Nat) : (setCache s cache line v).ageDue = s.ageDue := rfl
@[simp] theorem setCache_straps (s : State) (cache line v : Nat) : (setCache s cache line v).straps = s.straps := rfl
@[simp] theorem setCache_fuses (s : State) (cache line v : Nat) : (setCache s cache line v).fuses = s.fuses := rfl
@[simp] theorem setCache_fusesIn (s : State) (cache line v : Nat) : (setCache s cache line v).fusesIn = s.fusesIn := rfl
@[simp] theorem setCache_mst (s : State) (cache line v : Nat) : (setCache s cache line v).mst = s.mst := rfl
@[simp] theorem setCache_pw (s : State) (cache line v : Nat) : (setCache s cache line v).pw = s.pw := rfl
@[simp] theorem setCache_spi (s : State) (cache line v : Nat) : (setCache s cache line v).spi = s.spi := rfl
@[simp] theorem setCache_i3cPort (s : State) (cache line v : Nat) : (setCache s cache line v).i3cPort = s.i3cPort := rfl
@[simp] theorem setCache_spiDead (s : State) (cache line v : Nat) : (setCache s cache line v).spiDead = s.spiDead := rfl
@[simp] theorem setCache_portCnt (s : State) (cache line v : Nat) : (setCache s cache line v).portCnt = s.portCnt := rfl
@[simp] theorem setCache_i3c (s : State) (cache line v : Nat) : (setCache s cache line v).i3c = s.i3c := rfl
@[simp] theorem setCache_rawHalt (s : State) (cache line v : Nat) : (setCache s cache line v).rawHalt = s.rawHalt := rfl
@[simp] theorem setCache_release (s : State) (cache line v : Nat) : (setCache s cache line v).release = s.release := rfl
@[simp] theorem setCache_fatal (s : State) (cache line v : Nat) : (setCache s cache line v).fatal = s.fatal := rfl
@[simp] theorem setCache_pulse (s : State) (cache line v : Nat) : (setCache s cache line v).pulse = s.pulse := rfl
@[simp] theorem setCache_fresh (s : State) (cache line v : Nat) : (setCache s cache line v).fresh = s.fresh := rfl
@[simp] theorem setCache_pending (s : State) (cache line v : Nat) : (setCache s cache line v).pending = s.pending := rfl
@[simp] theorem setCache_strays (s : State) (cache line v : Nat) : (setCache s cache line v).strays = s.strays := rfl
@[simp] theorem setCache_lrQueue (s : State) (cache line v : Nat) : (setCache s cache line v).lrQueue = s.lrQueue := rfl
@[simp] theorem setCache_posted (s : State) (cache line v : Nat) : (setCache s cache line v).posted = s.posted := rfl
@[simp] theorem setCache_cmdBusy (s : State) (cache line v : Nat) : (setCache s cache line v).cmdBusy = s.cmdBusy := rfl
@[simp] theorem setCache_rwdHeld (s : State) (cache line v : Nat) : (setCache s cache line v).rwdHeld = s.rwdHeld := rfl
@[simp] theorem portCount_part (s : State) (n : Nat) : (portCount s n).part = s.part := rfl
@[simp] theorem portCount_mem (s : State) (n : Nat) : (portCount s n).mem = s.mem := rfl
@[simp] theorem portCount_poison (s : State) (n : Nat) : (portCount s n).poison = s.poison := rfl
@[simp] theorem portCount_csr (s : State) (n : Nat) : (portCount s n).csr = s.csr := rfl
@[simp] theorem portCount_spars (s : State) (n : Nat) : (portCount s n).spars = s.spars := rfl
@[simp] theorem portCount_pes (s : State) (n : Nat) : (portCount s n).pes = s.pes := rfl
@[simp] theorem portCount_resvs (s : State) (n : Nat) : (portCount s n).resvs = s.resvs := rfl
@[simp] theorem portCount_dies (s : State) (n : Nat) : (portCount s n).dies = s.dies := rfl
@[simp] theorem portCount_hw (s : State) (n : Nat) : (portCount s n).hw = s.hw := rfl
@[simp] theorem portCount_traps (s : State) (n : Nat) : (portCount s n).traps = s.traps := rfl
@[simp] theorem portCount_flowMsgs (s : State) (n : Nat) : (portCount s n).flowMsgs = s.flowMsgs := rfl
@[simp] theorem portCount_notices (s : State) (n : Nat) : (portCount s n).notices = s.notices := rfl
@[simp] theorem portCount_gateMsgs (s : State) (n : Nat) : (portCount s n).gateMsgs = s.gateMsgs := rfl
@[simp] theorem portCount_gateWaits (s : State) (n : Nat) : (portCount s n).gateWaits = s.gateWaits := rfl
@[simp] theorem portCount_luffs (s : State) (n : Nat) : (portCount s n).luffs = s.luffs := rfl
@[simp] theorem portCount_pcache (s : State) (n : Nat) : (portCount s n).pcache = s.pcache := rfl
@[simp] theorem portCount_tlb (s : State) (n : Nat) : (portCount s n).tlb = s.tlb := rfl
@[simp] theorem portCount_dramWords (s : State) (n : Nat) : (portCount s n).dramWords = s.dramWords := rfl
@[simp] theorem portCount_hdm (s : State) (n : Nat) : (portCount s n).hdm = s.hdm := rfl
@[simp] theorem portCount_sups (s : State) (n : Nat) : (portCount s n).sups = s.sups := rfl
@[simp] theorem portCount_supIssues (s : State) (n : Nat) : (portCount s n).supIssues = s.supIssues := rfl
@[simp] theorem portCount_caches (s : State) (n : Nat) : (portCount s n).caches = s.caches := rfl
@[simp] theorem portCount_llc (s : State) (n : Nat) : (portCount s n).llc = s.llc := rfl
@[simp] theorem portCount_homeTx (s : State) (n : Nat) : (portCount s n).homeTx = s.homeTx := rfl
@[simp] theorem portCount_sliceQ (s : State) (n : Nat) : (portCount s n).sliceQ = s.sliceQ := rfl
@[simp] theorem portCount_snoops (s : State) (n : Nat) : (portCount s n).snoops = s.snoops := rfl
@[simp] theorem portCount_fetchMoves (s : State) (n : Nat) : (portCount s n).fetchMoves = s.fetchMoves := rfl
@[simp] theorem portCount_ageHeld (s : State) (n : Nat) : (portCount s n).ageHeld = s.ageHeld := rfl
@[simp] theorem portCount_tap (s : State) (n : Nat) : (portCount s n).tap = s.tap := rfl
@[simp] theorem portCount_answers (s : State) (n : Nat) : (portCount s n).answers = s.answers := rfl
@[simp] theorem portCount_useStamp (s : State) (n : Nat) : (portCount s n).useStamp = s.useStamp := rfl
@[simp] theorem portCount_given (s : State) (n : Nat) : (portCount s n).given = s.given := rfl
@[simp] theorem portCount_chans (s : State) (n : Nat) : (portCount s n).chans = s.chans := rfl
@[simp] theorem portCount_engs (s : State) (n : Nat) : (portCount s n).engs = s.engs := rfl
@[simp] theorem portCount_works (s : State) (n : Nat) : (portCount s n).works = s.works := rfl
@[simp] theorem portCount_ctrls (s : State) (n : Nat) : (portCount s n).ctrls = s.ctrls := rfl
@[simp] theorem portCount_sess (s : State) (n : Nat) : (portCount s n).sess = s.sess := rfl
@[simp] theorem portCount_assocs (s : State) (n : Nat) : (portCount s n).assocs = s.assocs := rfl
@[simp] theorem portCount_mseqs (s : State) (n : Nat) : (portCount s n).mseqs = s.mseqs := rfl
@[simp] theorem portCount_ustores (s : State) (n : Nat) : (portCount s n).ustores = s.ustores := rfl
@[simp] theorem portCount_vault (s : State) (n : Nat) : (portCount s n).vault = s.vault := rfl
@[simp] theorem portCount_xforms (s : State) (n : Nat) : (portCount s n).xforms = s.xforms := rfl
@[simp] theorem portCount_flash (s : State) (n : Nat) : (portCount s n).flash = s.flash := rfl
@[simp] theorem portCount_ageDue (s : State) (n : Nat) : (portCount s n).ageDue = s.ageDue := rfl
@[simp] theorem portCount_straps (s : State) (n : Nat) : (portCount s n).straps = s.straps := rfl
@[simp] theorem portCount_fuses (s : State) (n : Nat) : (portCount s n).fuses = s.fuses := rfl
@[simp] theorem portCount_fusesIn (s : State) (n : Nat) : (portCount s n).fusesIn = s.fusesIn := rfl
@[simp] theorem portCount_mst (s : State) (n : Nat) : (portCount s n).mst = s.mst := rfl
@[simp] theorem portCount_pw (s : State) (n : Nat) : (portCount s n).pw = s.pw := rfl
@[simp] theorem portCount_spi (s : State) (n : Nat) : (portCount s n).spi = s.spi := rfl
@[simp] theorem portCount_i3cPort (s : State) (n : Nat) : (portCount s n).i3cPort = s.i3cPort := rfl
@[simp] theorem portCount_spiDead (s : State) (n : Nat) : (portCount s n).spiDead = s.spiDead := rfl
@[simp] theorem portCount_i3c (s : State) (n : Nat) : (portCount s n).i3c = s.i3c := rfl
@[simp] theorem portCount_rawHalt (s : State) (n : Nat) : (portCount s n).rawHalt = s.rawHalt := rfl
@[simp] theorem portCount_release (s : State) (n : Nat) : (portCount s n).release = s.release := rfl
@[simp] theorem portCount_fatal (s : State) (n : Nat) : (portCount s n).fatal = s.fatal := rfl
@[simp] theorem portCount_pulse (s : State) (n : Nat) : (portCount s n).pulse = s.pulse := rfl
@[simp] theorem portCount_fresh (s : State) (n : Nat) : (portCount s n).fresh = s.fresh := rfl
@[simp] theorem portCount_pending (s : State) (n : Nat) : (portCount s n).pending = s.pending := rfl
@[simp] theorem portCount_strays (s : State) (n : Nat) : (portCount s n).strays = s.strays := rfl
@[simp] theorem portCount_lrQueue (s : State) (n : Nat) : (portCount s n).lrQueue = s.lrQueue := rfl
@[simp] theorem portCount_posted (s : State) (n : Nat) : (portCount s n).posted = s.posted := rfl
@[simp] theorem portCount_cmdBusy (s : State) (n : Nat) : (portCount s n).cmdBusy = s.cmdBusy := rfl
@[simp] theorem portCount_rwdHeld (s : State) (n : Nat) : (portCount s n).rwdHeld = s.rwdHeld := rfl
@[simp] theorem modI3c_part (s : State) (f : I3c → I3c) : (modI3c s f).part = s.part := rfl
@[simp] theorem modI3c_mem (s : State) (f : I3c → I3c) : (modI3c s f).mem = s.mem := rfl
@[simp] theorem modI3c_poison (s : State) (f : I3c → I3c) : (modI3c s f).poison = s.poison := rfl
@[simp] theorem modI3c_csr (s : State) (f : I3c → I3c) : (modI3c s f).csr = s.csr := rfl
@[simp] theorem modI3c_spars (s : State) (f : I3c → I3c) : (modI3c s f).spars = s.spars := rfl
@[simp] theorem modI3c_pes (s : State) (f : I3c → I3c) : (modI3c s f).pes = s.pes := rfl
@[simp] theorem modI3c_resvs (s : State) (f : I3c → I3c) : (modI3c s f).resvs = s.resvs := rfl
@[simp] theorem modI3c_dies (s : State) (f : I3c → I3c) : (modI3c s f).dies = s.dies := rfl
@[simp] theorem modI3c_hw (s : State) (f : I3c → I3c) : (modI3c s f).hw = s.hw := rfl
@[simp] theorem modI3c_traps (s : State) (f : I3c → I3c) : (modI3c s f).traps = s.traps := rfl
@[simp] theorem modI3c_flowMsgs (s : State) (f : I3c → I3c) : (modI3c s f).flowMsgs = s.flowMsgs := rfl
@[simp] theorem modI3c_notices (s : State) (f : I3c → I3c) : (modI3c s f).notices = s.notices := rfl
@[simp] theorem modI3c_gateMsgs (s : State) (f : I3c → I3c) : (modI3c s f).gateMsgs = s.gateMsgs := rfl
@[simp] theorem modI3c_gateWaits (s : State) (f : I3c → I3c) : (modI3c s f).gateWaits = s.gateWaits := rfl
@[simp] theorem modI3c_luffs (s : State) (f : I3c → I3c) : (modI3c s f).luffs = s.luffs := rfl
@[simp] theorem modI3c_pcache (s : State) (f : I3c → I3c) : (modI3c s f).pcache = s.pcache := rfl
@[simp] theorem modI3c_tlb (s : State) (f : I3c → I3c) : (modI3c s f).tlb = s.tlb := rfl
@[simp] theorem modI3c_dramWords (s : State) (f : I3c → I3c) : (modI3c s f).dramWords = s.dramWords := rfl
@[simp] theorem modI3c_hdm (s : State) (f : I3c → I3c) : (modI3c s f).hdm = s.hdm := rfl
@[simp] theorem modI3c_sups (s : State) (f : I3c → I3c) : (modI3c s f).sups = s.sups := rfl
@[simp] theorem modI3c_supIssues (s : State) (f : I3c → I3c) : (modI3c s f).supIssues = s.supIssues := rfl
@[simp] theorem modI3c_caches (s : State) (f : I3c → I3c) : (modI3c s f).caches = s.caches := rfl
@[simp] theorem modI3c_llc (s : State) (f : I3c → I3c) : (modI3c s f).llc = s.llc := rfl
@[simp] theorem modI3c_homeTx (s : State) (f : I3c → I3c) : (modI3c s f).homeTx = s.homeTx := rfl
@[simp] theorem modI3c_sliceQ (s : State) (f : I3c → I3c) : (modI3c s f).sliceQ = s.sliceQ := rfl
@[simp] theorem modI3c_snoops (s : State) (f : I3c → I3c) : (modI3c s f).snoops = s.snoops := rfl
@[simp] theorem modI3c_fetchMoves (s : State) (f : I3c → I3c) : (modI3c s f).fetchMoves = s.fetchMoves := rfl
@[simp] theorem modI3c_ageHeld (s : State) (f : I3c → I3c) : (modI3c s f).ageHeld = s.ageHeld := rfl
@[simp] theorem modI3c_tap (s : State) (f : I3c → I3c) : (modI3c s f).tap = s.tap := rfl
@[simp] theorem modI3c_answers (s : State) (f : I3c → I3c) : (modI3c s f).answers = s.answers := rfl
@[simp] theorem modI3c_useStamp (s : State) (f : I3c → I3c) : (modI3c s f).useStamp = s.useStamp := rfl
@[simp] theorem modI3c_given (s : State) (f : I3c → I3c) : (modI3c s f).given = s.given := rfl
@[simp] theorem modI3c_chans (s : State) (f : I3c → I3c) : (modI3c s f).chans = s.chans := rfl
@[simp] theorem modI3c_engs (s : State) (f : I3c → I3c) : (modI3c s f).engs = s.engs := rfl
@[simp] theorem modI3c_works (s : State) (f : I3c → I3c) : (modI3c s f).works = s.works := rfl
@[simp] theorem modI3c_ctrls (s : State) (f : I3c → I3c) : (modI3c s f).ctrls = s.ctrls := rfl
@[simp] theorem modI3c_sess (s : State) (f : I3c → I3c) : (modI3c s f).sess = s.sess := rfl
@[simp] theorem modI3c_assocs (s : State) (f : I3c → I3c) : (modI3c s f).assocs = s.assocs := rfl
@[simp] theorem modI3c_mseqs (s : State) (f : I3c → I3c) : (modI3c s f).mseqs = s.mseqs := rfl
@[simp] theorem modI3c_ustores (s : State) (f : I3c → I3c) : (modI3c s f).ustores = s.ustores := rfl
@[simp] theorem modI3c_vault (s : State) (f : I3c → I3c) : (modI3c s f).vault = s.vault := rfl
@[simp] theorem modI3c_xforms (s : State) (f : I3c → I3c) : (modI3c s f).xforms = s.xforms := rfl
@[simp] theorem modI3c_flash (s : State) (f : I3c → I3c) : (modI3c s f).flash = s.flash := rfl
@[simp] theorem modI3c_ageDue (s : State) (f : I3c → I3c) : (modI3c s f).ageDue = s.ageDue := rfl
@[simp] theorem modI3c_straps (s : State) (f : I3c → I3c) : (modI3c s f).straps = s.straps := rfl
@[simp] theorem modI3c_fuses (s : State) (f : I3c → I3c) : (modI3c s f).fuses = s.fuses := rfl
@[simp] theorem modI3c_fusesIn (s : State) (f : I3c → I3c) : (modI3c s f).fusesIn = s.fusesIn := rfl
@[simp] theorem modI3c_mst (s : State) (f : I3c → I3c) : (modI3c s f).mst = s.mst := rfl
@[simp] theorem modI3c_pw (s : State) (f : I3c → I3c) : (modI3c s f).pw = s.pw := rfl
@[simp] theorem modI3c_spi (s : State) (f : I3c → I3c) : (modI3c s f).spi = s.spi := rfl
@[simp] theorem modI3c_i3cPort (s : State) (f : I3c → I3c) : (modI3c s f).i3cPort = s.i3cPort := rfl
@[simp] theorem modI3c_spiDead (s : State) (f : I3c → I3c) : (modI3c s f).spiDead = s.spiDead := rfl
@[simp] theorem modI3c_portCnt (s : State) (f : I3c → I3c) : (modI3c s f).portCnt = s.portCnt := rfl
@[simp] theorem modI3c_rawHalt (s : State) (f : I3c → I3c) : (modI3c s f).rawHalt = s.rawHalt := rfl
@[simp] theorem modI3c_release (s : State) (f : I3c → I3c) : (modI3c s f).release = s.release := rfl
@[simp] theorem modI3c_fatal (s : State) (f : I3c → I3c) : (modI3c s f).fatal = s.fatal := rfl
@[simp] theorem modI3c_pulse (s : State) (f : I3c → I3c) : (modI3c s f).pulse = s.pulse := rfl
@[simp] theorem modI3c_fresh (s : State) (f : I3c → I3c) : (modI3c s f).fresh = s.fresh := rfl
@[simp] theorem modI3c_pending (s : State) (f : I3c → I3c) : (modI3c s f).pending = s.pending := rfl
@[simp] theorem modI3c_strays (s : State) (f : I3c → I3c) : (modI3c s f).strays = s.strays := rfl
@[simp] theorem modI3c_lrQueue (s : State) (f : I3c → I3c) : (modI3c s f).lrQueue = s.lrQueue := rfl
@[simp] theorem modI3c_posted (s : State) (f : I3c → I3c) : (modI3c s f).posted = s.posted := rfl
@[simp] theorem modI3c_cmdBusy (s : State) (f : I3c → I3c) : (modI3c s f).cmdBusy = s.cmdBusy := rfl
@[simp] theorem modI3c_rwdHeld (s : State) (f : I3c → I3c) : (modI3c s f).rwdHeld = s.rwdHeld := rfl
@[simp] theorem ageWant_part (s : State) (r : AgeRec) : (ageWant s r).part = s.part := rfl
@[simp] theorem ageWant_mem (s : State) (r : AgeRec) : (ageWant s r).mem = s.mem := rfl
@[simp] theorem ageWant_poison (s : State) (r : AgeRec) : (ageWant s r).poison = s.poison := rfl
@[simp] theorem ageWant_csr (s : State) (r : AgeRec) : (ageWant s r).csr = s.csr := rfl
@[simp] theorem ageWant_spars (s : State) (r : AgeRec) : (ageWant s r).spars = s.spars := rfl
@[simp] theorem ageWant_pes (s : State) (r : AgeRec) : (ageWant s r).pes = s.pes := rfl
@[simp] theorem ageWant_resvs (s : State) (r : AgeRec) : (ageWant s r).resvs = s.resvs := rfl
@[simp] theorem ageWant_dies (s : State) (r : AgeRec) : (ageWant s r).dies = s.dies := rfl
@[simp] theorem ageWant_hw (s : State) (r : AgeRec) : (ageWant s r).hw = s.hw := rfl
@[simp] theorem ageWant_traps (s : State) (r : AgeRec) : (ageWant s r).traps = s.traps := rfl
@[simp] theorem ageWant_flowMsgs (s : State) (r : AgeRec) : (ageWant s r).flowMsgs = s.flowMsgs := rfl
@[simp] theorem ageWant_notices (s : State) (r : AgeRec) : (ageWant s r).notices = s.notices := rfl
@[simp] theorem ageWant_gateMsgs (s : State) (r : AgeRec) : (ageWant s r).gateMsgs = s.gateMsgs := rfl
@[simp] theorem ageWant_gateWaits (s : State) (r : AgeRec) : (ageWant s r).gateWaits = s.gateWaits := rfl
@[simp] theorem ageWant_luffs (s : State) (r : AgeRec) : (ageWant s r).luffs = s.luffs := rfl
@[simp] theorem ageWant_pcache (s : State) (r : AgeRec) : (ageWant s r).pcache = s.pcache := rfl
@[simp] theorem ageWant_tlb (s : State) (r : AgeRec) : (ageWant s r).tlb = s.tlb := rfl
@[simp] theorem ageWant_dramWords (s : State) (r : AgeRec) : (ageWant s r).dramWords = s.dramWords := rfl
@[simp] theorem ageWant_hdm (s : State) (r : AgeRec) : (ageWant s r).hdm = s.hdm := rfl
@[simp] theorem ageWant_sups (s : State) (r : AgeRec) : (ageWant s r).sups = s.sups := rfl
@[simp] theorem ageWant_supIssues (s : State) (r : AgeRec) : (ageWant s r).supIssues = s.supIssues := rfl
@[simp] theorem ageWant_caches (s : State) (r : AgeRec) : (ageWant s r).caches = s.caches := rfl
@[simp] theorem ageWant_llc (s : State) (r : AgeRec) : (ageWant s r).llc = s.llc := rfl
@[simp] theorem ageWant_homeTx (s : State) (r : AgeRec) : (ageWant s r).homeTx = s.homeTx := rfl
@[simp] theorem ageWant_sliceQ (s : State) (r : AgeRec) : (ageWant s r).sliceQ = s.sliceQ := rfl
@[simp] theorem ageWant_snoops (s : State) (r : AgeRec) : (ageWant s r).snoops = s.snoops := rfl
@[simp] theorem ageWant_fetchMoves (s : State) (r : AgeRec) : (ageWant s r).fetchMoves = s.fetchMoves := rfl
@[simp] theorem ageWant_ageHeld (s : State) (r : AgeRec) : (ageWant s r).ageHeld = s.ageHeld := rfl
@[simp] theorem ageWant_tap (s : State) (r : AgeRec) : (ageWant s r).tap = s.tap := rfl
@[simp] theorem ageWant_answers (s : State) (r : AgeRec) : (ageWant s r).answers = s.answers := rfl
@[simp] theorem ageWant_useStamp (s : State) (r : AgeRec) : (ageWant s r).useStamp = s.useStamp := rfl
@[simp] theorem ageWant_given (s : State) (r : AgeRec) : (ageWant s r).given = s.given := rfl
@[simp] theorem ageWant_chans (s : State) (r : AgeRec) : (ageWant s r).chans = s.chans := rfl
@[simp] theorem ageWant_engs (s : State) (r : AgeRec) : (ageWant s r).engs = s.engs := rfl
@[simp] theorem ageWant_works (s : State) (r : AgeRec) : (ageWant s r).works = s.works := rfl
@[simp] theorem ageWant_ctrls (s : State) (r : AgeRec) : (ageWant s r).ctrls = s.ctrls := rfl
@[simp] theorem ageWant_sess (s : State) (r : AgeRec) : (ageWant s r).sess = s.sess := rfl
@[simp] theorem ageWant_assocs (s : State) (r : AgeRec) : (ageWant s r).assocs = s.assocs := rfl
@[simp] theorem ageWant_mseqs (s : State) (r : AgeRec) : (ageWant s r).mseqs = s.mseqs := rfl
@[simp] theorem ageWant_ustores (s : State) (r : AgeRec) : (ageWant s r).ustores = s.ustores := rfl
@[simp] theorem ageWant_vault (s : State) (r : AgeRec) : (ageWant s r).vault = s.vault := rfl
@[simp] theorem ageWant_xforms (s : State) (r : AgeRec) : (ageWant s r).xforms = s.xforms := rfl
@[simp] theorem ageWant_flash (s : State) (r : AgeRec) : (ageWant s r).flash = s.flash := rfl
@[simp] theorem ageWant_straps (s : State) (r : AgeRec) : (ageWant s r).straps = s.straps := rfl
@[simp] theorem ageWant_fuses (s : State) (r : AgeRec) : (ageWant s r).fuses = s.fuses := rfl
@[simp] theorem ageWant_fusesIn (s : State) (r : AgeRec) : (ageWant s r).fusesIn = s.fusesIn := rfl
@[simp] theorem ageWant_mst (s : State) (r : AgeRec) : (ageWant s r).mst = s.mst := rfl
@[simp] theorem ageWant_pw (s : State) (r : AgeRec) : (ageWant s r).pw = s.pw := rfl
@[simp] theorem ageWant_spi (s : State) (r : AgeRec) : (ageWant s r).spi = s.spi := rfl
@[simp] theorem ageWant_i3cPort (s : State) (r : AgeRec) : (ageWant s r).i3cPort = s.i3cPort := rfl
@[simp] theorem ageWant_spiDead (s : State) (r : AgeRec) : (ageWant s r).spiDead = s.spiDead := rfl
@[simp] theorem ageWant_portCnt (s : State) (r : AgeRec) : (ageWant s r).portCnt = s.portCnt := rfl
@[simp] theorem ageWant_i3c (s : State) (r : AgeRec) : (ageWant s r).i3c = s.i3c := rfl
@[simp] theorem ageWant_rawHalt (s : State) (r : AgeRec) : (ageWant s r).rawHalt = s.rawHalt := rfl
@[simp] theorem ageWant_release (s : State) (r : AgeRec) : (ageWant s r).release = s.release := rfl
@[simp] theorem ageWant_fatal (s : State) (r : AgeRec) : (ageWant s r).fatal = s.fatal := rfl
@[simp] theorem ageWant_pulse (s : State) (r : AgeRec) : (ageWant s r).pulse = s.pulse := rfl
@[simp] theorem ageWant_fresh (s : State) (r : AgeRec) : (ageWant s r).fresh = s.fresh := rfl
@[simp] theorem ageWant_pending (s : State) (r : AgeRec) : (ageWant s r).pending = s.pending := rfl
@[simp] theorem ageWant_strays (s : State) (r : AgeRec) : (ageWant s r).strays = s.strays := rfl
@[simp] theorem ageWant_lrQueue (s : State) (r : AgeRec) : (ageWant s r).lrQueue = s.lrQueue := rfl
@[simp] theorem ageWant_posted (s : State) (r : AgeRec) : (ageWant s r).posted = s.posted := rfl
@[simp] theorem ageWant_cmdBusy (s : State) (r : AgeRec) : (ageWant s r).cmdBusy = s.cmdBusy := rfl
@[simp] theorem ageWant_rwdHeld (s : State) (r : AgeRec) : (ageWant s r).rwdHeld = s.rwdHeld := rfl
@[simp] theorem modSup_part (s : State) (c : Nat) (f : Sup → Sup) : (modSup s c f).part = s.part := rfl
@[simp] theorem modSup_mem (s : State) (c : Nat) (f : Sup → Sup) : (modSup s c f).mem = s.mem := rfl
@[simp] theorem modSup_poison (s : State) (c : Nat) (f : Sup → Sup) : (modSup s c f).poison = s.poison := rfl
@[simp] theorem modSup_csr (s : State) (c : Nat) (f : Sup → Sup) : (modSup s c f).csr = s.csr := rfl
@[simp] theorem modSup_spars (s : State) (c : Nat) (f : Sup → Sup) : (modSup s c f).spars = s.spars := rfl
@[simp] theorem modSup_pes (s : State) (c : Nat) (f : Sup → Sup) : (modSup s c f).pes = s.pes := rfl
@[simp] theorem modSup_resvs (s : State) (c : Nat) (f : Sup → Sup) : (modSup s c f).resvs = s.resvs := rfl
@[simp] theorem modSup_dies (s : State) (c : Nat) (f : Sup → Sup) : (modSup s c f).dies = s.dies := rfl
@[simp] theorem modSup_hw (s : State) (c : Nat) (f : Sup → Sup) : (modSup s c f).hw = s.hw := rfl
@[simp] theorem modSup_traps (s : State) (c : Nat) (f : Sup → Sup) : (modSup s c f).traps = s.traps := rfl
@[simp] theorem modSup_flowMsgs (s : State) (c : Nat) (f : Sup → Sup) : (modSup s c f).flowMsgs = s.flowMsgs := rfl
@[simp] theorem modSup_notices (s : State) (c : Nat) (f : Sup → Sup) : (modSup s c f).notices = s.notices := rfl
@[simp] theorem modSup_gateMsgs (s : State) (c : Nat) (f : Sup → Sup) : (modSup s c f).gateMsgs = s.gateMsgs := rfl
@[simp] theorem modSup_gateWaits (s : State) (c : Nat) (f : Sup → Sup) : (modSup s c f).gateWaits = s.gateWaits := rfl
@[simp] theorem modSup_luffs (s : State) (c : Nat) (f : Sup → Sup) : (modSup s c f).luffs = s.luffs := rfl
@[simp] theorem modSup_pcache (s : State) (c : Nat) (f : Sup → Sup) : (modSup s c f).pcache = s.pcache := rfl
@[simp] theorem modSup_tlb (s : State) (c : Nat) (f : Sup → Sup) : (modSup s c f).tlb = s.tlb := rfl
@[simp] theorem modSup_dramWords (s : State) (c : Nat) (f : Sup → Sup) : (modSup s c f).dramWords = s.dramWords := rfl
@[simp] theorem modSup_hdm (s : State) (c : Nat) (f : Sup → Sup) : (modSup s c f).hdm = s.hdm := rfl
@[simp] theorem modSup_supIssues (s : State) (c : Nat) (f : Sup → Sup) : (modSup s c f).supIssues = s.supIssues := rfl
@[simp] theorem modSup_caches (s : State) (c : Nat) (f : Sup → Sup) : (modSup s c f).caches = s.caches := rfl
@[simp] theorem modSup_llc (s : State) (c : Nat) (f : Sup → Sup) : (modSup s c f).llc = s.llc := rfl
@[simp] theorem modSup_homeTx (s : State) (c : Nat) (f : Sup → Sup) : (modSup s c f).homeTx = s.homeTx := rfl
@[simp] theorem modSup_sliceQ (s : State) (c : Nat) (f : Sup → Sup) : (modSup s c f).sliceQ = s.sliceQ := rfl
@[simp] theorem modSup_snoops (s : State) (c : Nat) (f : Sup → Sup) : (modSup s c f).snoops = s.snoops := rfl
@[simp] theorem modSup_fetchMoves (s : State) (c : Nat) (f : Sup → Sup) : (modSup s c f).fetchMoves = s.fetchMoves := rfl
@[simp] theorem modSup_ageHeld (s : State) (c : Nat) (f : Sup → Sup) : (modSup s c f).ageHeld = s.ageHeld := rfl
@[simp] theorem modSup_tap (s : State) (c : Nat) (f : Sup → Sup) : (modSup s c f).tap = s.tap := rfl
@[simp] theorem modSup_answers (s : State) (c : Nat) (f : Sup → Sup) : (modSup s c f).answers = s.answers := rfl
@[simp] theorem modSup_useStamp (s : State) (c : Nat) (f : Sup → Sup) : (modSup s c f).useStamp = s.useStamp := rfl
@[simp] theorem modSup_given (s : State) (c : Nat) (f : Sup → Sup) : (modSup s c f).given = s.given := rfl
@[simp] theorem modSup_chans (s : State) (c : Nat) (f : Sup → Sup) : (modSup s c f).chans = s.chans := rfl
@[simp] theorem modSup_engs (s : State) (c : Nat) (f : Sup → Sup) : (modSup s c f).engs = s.engs := rfl
@[simp] theorem modSup_works (s : State) (c : Nat) (f : Sup → Sup) : (modSup s c f).works = s.works := rfl
@[simp] theorem modSup_ctrls (s : State) (c : Nat) (f : Sup → Sup) : (modSup s c f).ctrls = s.ctrls := rfl
@[simp] theorem modSup_sess (s : State) (c : Nat) (f : Sup → Sup) : (modSup s c f).sess = s.sess := rfl
@[simp] theorem modSup_assocs (s : State) (c : Nat) (f : Sup → Sup) : (modSup s c f).assocs = s.assocs := rfl
@[simp] theorem modSup_mseqs (s : State) (c : Nat) (f : Sup → Sup) : (modSup s c f).mseqs = s.mseqs := rfl
@[simp] theorem modSup_ustores (s : State) (c : Nat) (f : Sup → Sup) : (modSup s c f).ustores = s.ustores := rfl
@[simp] theorem modSup_vault (s : State) (c : Nat) (f : Sup → Sup) : (modSup s c f).vault = s.vault := rfl
@[simp] theorem modSup_xforms (s : State) (c : Nat) (f : Sup → Sup) : (modSup s c f).xforms = s.xforms := rfl
@[simp] theorem modSup_flash (s : State) (c : Nat) (f : Sup → Sup) : (modSup s c f).flash = s.flash := rfl
@[simp] theorem modSup_ageDue (s : State) (c : Nat) (f : Sup → Sup) : (modSup s c f).ageDue = s.ageDue := rfl
@[simp] theorem modSup_straps (s : State) (c : Nat) (f : Sup → Sup) : (modSup s c f).straps = s.straps := rfl
@[simp] theorem modSup_fuses (s : State) (c : Nat) (f : Sup → Sup) : (modSup s c f).fuses = s.fuses := rfl
@[simp] theorem modSup_fusesIn (s : State) (c : Nat) (f : Sup → Sup) : (modSup s c f).fusesIn = s.fusesIn := rfl
@[simp] theorem modSup_mst (s : State) (c : Nat) (f : Sup → Sup) : (modSup s c f).mst = s.mst := rfl
@[simp] theorem modSup_pw (s : State) (c : Nat) (f : Sup → Sup) : (modSup s c f).pw = s.pw := rfl
@[simp] theorem modSup_spi (s : State) (c : Nat) (f : Sup → Sup) : (modSup s c f).spi = s.spi := rfl
@[simp] theorem modSup_i3cPort (s : State) (c : Nat) (f : Sup → Sup) : (modSup s c f).i3cPort = s.i3cPort := rfl
@[simp] theorem modSup_spiDead (s : State) (c : Nat) (f : Sup → Sup) : (modSup s c f).spiDead = s.spiDead := rfl
@[simp] theorem modSup_portCnt (s : State) (c : Nat) (f : Sup → Sup) : (modSup s c f).portCnt = s.portCnt := rfl
@[simp] theorem modSup_i3c (s : State) (c : Nat) (f : Sup → Sup) : (modSup s c f).i3c = s.i3c := rfl
@[simp] theorem modSup_rawHalt (s : State) (c : Nat) (f : Sup → Sup) : (modSup s c f).rawHalt = s.rawHalt := rfl
@[simp] theorem modSup_release (s : State) (c : Nat) (f : Sup → Sup) : (modSup s c f).release = s.release := rfl
@[simp] theorem modSup_fatal (s : State) (c : Nat) (f : Sup → Sup) : (modSup s c f).fatal = s.fatal := rfl
@[simp] theorem modSup_pulse (s : State) (c : Nat) (f : Sup → Sup) : (modSup s c f).pulse = s.pulse := rfl
@[simp] theorem modSup_fresh (s : State) (c : Nat) (f : Sup → Sup) : (modSup s c f).fresh = s.fresh := rfl
@[simp] theorem modSup_pending (s : State) (c : Nat) (f : Sup → Sup) : (modSup s c f).pending = s.pending := rfl
@[simp] theorem modSup_strays (s : State) (c : Nat) (f : Sup → Sup) : (modSup s c f).strays = s.strays := rfl
@[simp] theorem modSup_lrQueue (s : State) (c : Nat) (f : Sup → Sup) : (modSup s c f).lrQueue = s.lrQueue := rfl
@[simp] theorem modSup_posted (s : State) (c : Nat) (f : Sup → Sup) : (modSup s c f).posted = s.posted := rfl
@[simp] theorem modSup_cmdBusy (s : State) (c : Nat) (f : Sup → Sup) : (modSup s c f).cmdBusy = s.cmdBusy := rfl
@[simp] theorem modSup_rwdHeld (s : State) (c : Nat) (f : Sup → Sup) : (modSup s c f).rwdHeld = s.rwdHeld := rfl
@[simp] theorem ptInvalidate_part (s : State) (die : Nat) (t : PTable) (p : Nat) : (ptInvalidate s die t p).part = s.part := rfl
@[simp] theorem ptInvalidate_mem (s : State) (die : Nat) (t : PTable) (p : Nat) : (ptInvalidate s die t p).mem = s.mem := rfl
@[simp] theorem ptInvalidate_poison (s : State) (die : Nat) (t : PTable) (p : Nat) : (ptInvalidate s die t p).poison = s.poison := rfl
@[simp] theorem ptInvalidate_csr (s : State) (die : Nat) (t : PTable) (p : Nat) : (ptInvalidate s die t p).csr = s.csr := rfl
@[simp] theorem ptInvalidate_spars (s : State) (die : Nat) (t : PTable) (p : Nat) : (ptInvalidate s die t p).spars = s.spars := rfl
@[simp] theorem ptInvalidate_pes (s : State) (die : Nat) (t : PTable) (p : Nat) : (ptInvalidate s die t p).pes = s.pes := rfl
@[simp] theorem ptInvalidate_resvs (s : State) (die : Nat) (t : PTable) (p : Nat) : (ptInvalidate s die t p).resvs = s.resvs := rfl
@[simp] theorem ptInvalidate_dies (s : State) (die : Nat) (t : PTable) (p : Nat) : (ptInvalidate s die t p).dies = s.dies := rfl
@[simp] theorem ptInvalidate_hw (s : State) (die : Nat) (t : PTable) (p : Nat) : (ptInvalidate s die t p).hw = s.hw := rfl
@[simp] theorem ptInvalidate_traps (s : State) (die : Nat) (t : PTable) (p : Nat) : (ptInvalidate s die t p).traps = s.traps := rfl
@[simp] theorem ptInvalidate_flowMsgs (s : State) (die : Nat) (t : PTable) (p : Nat) : (ptInvalidate s die t p).flowMsgs = s.flowMsgs := rfl
@[simp] theorem ptInvalidate_notices (s : State) (die : Nat) (t : PTable) (p : Nat) : (ptInvalidate s die t p).notices = s.notices := rfl
@[simp] theorem ptInvalidate_gateMsgs (s : State) (die : Nat) (t : PTable) (p : Nat) : (ptInvalidate s die t p).gateMsgs = s.gateMsgs := rfl
@[simp] theorem ptInvalidate_gateWaits (s : State) (die : Nat) (t : PTable) (p : Nat) : (ptInvalidate s die t p).gateWaits = s.gateWaits := rfl
@[simp] theorem ptInvalidate_luffs (s : State) (die : Nat) (t : PTable) (p : Nat) : (ptInvalidate s die t p).luffs = s.luffs := rfl
@[simp] theorem ptInvalidate_tlb (s : State) (die : Nat) (t : PTable) (p : Nat) : (ptInvalidate s die t p).tlb = s.tlb := rfl
@[simp] theorem ptInvalidate_dramWords (s : State) (die : Nat) (t : PTable) (p : Nat) : (ptInvalidate s die t p).dramWords = s.dramWords := rfl
@[simp] theorem ptInvalidate_hdm (s : State) (die : Nat) (t : PTable) (p : Nat) : (ptInvalidate s die t p).hdm = s.hdm := rfl
@[simp] theorem ptInvalidate_sups (s : State) (die : Nat) (t : PTable) (p : Nat) : (ptInvalidate s die t p).sups = s.sups := rfl
@[simp] theorem ptInvalidate_supIssues (s : State) (die : Nat) (t : PTable) (p : Nat) : (ptInvalidate s die t p).supIssues = s.supIssues := rfl
@[simp] theorem ptInvalidate_caches (s : State) (die : Nat) (t : PTable) (p : Nat) : (ptInvalidate s die t p).caches = s.caches := rfl
@[simp] theorem ptInvalidate_llc (s : State) (die : Nat) (t : PTable) (p : Nat) : (ptInvalidate s die t p).llc = s.llc := rfl
@[simp] theorem ptInvalidate_homeTx (s : State) (die : Nat) (t : PTable) (p : Nat) : (ptInvalidate s die t p).homeTx = s.homeTx := rfl
@[simp] theorem ptInvalidate_sliceQ (s : State) (die : Nat) (t : PTable) (p : Nat) : (ptInvalidate s die t p).sliceQ = s.sliceQ := rfl
@[simp] theorem ptInvalidate_snoops (s : State) (die : Nat) (t : PTable) (p : Nat) : (ptInvalidate s die t p).snoops = s.snoops := rfl
@[simp] theorem ptInvalidate_fetchMoves (s : State) (die : Nat) (t : PTable) (p : Nat) : (ptInvalidate s die t p).fetchMoves = s.fetchMoves := rfl
@[simp] theorem ptInvalidate_ageHeld (s : State) (die : Nat) (t : PTable) (p : Nat) : (ptInvalidate s die t p).ageHeld = s.ageHeld := rfl
@[simp] theorem ptInvalidate_tap (s : State) (die : Nat) (t : PTable) (p : Nat) : (ptInvalidate s die t p).tap = s.tap := rfl
@[simp] theorem ptInvalidate_answers (s : State) (die : Nat) (t : PTable) (p : Nat) : (ptInvalidate s die t p).answers = s.answers := rfl
@[simp] theorem ptInvalidate_useStamp (s : State) (die : Nat) (t : PTable) (p : Nat) : (ptInvalidate s die t p).useStamp = s.useStamp := rfl
@[simp] theorem ptInvalidate_given (s : State) (die : Nat) (t : PTable) (p : Nat) : (ptInvalidate s die t p).given = s.given := rfl
@[simp] theorem ptInvalidate_chans (s : State) (die : Nat) (t : PTable) (p : Nat) : (ptInvalidate s die t p).chans = s.chans := rfl
@[simp] theorem ptInvalidate_engs (s : State) (die : Nat) (t : PTable) (p : Nat) : (ptInvalidate s die t p).engs = s.engs := rfl
@[simp] theorem ptInvalidate_works (s : State) (die : Nat) (t : PTable) (p : Nat) : (ptInvalidate s die t p).works = s.works := rfl
@[simp] theorem ptInvalidate_ctrls (s : State) (die : Nat) (t : PTable) (p : Nat) : (ptInvalidate s die t p).ctrls = s.ctrls := rfl
@[simp] theorem ptInvalidate_sess (s : State) (die : Nat) (t : PTable) (p : Nat) : (ptInvalidate s die t p).sess = s.sess := rfl
@[simp] theorem ptInvalidate_assocs (s : State) (die : Nat) (t : PTable) (p : Nat) : (ptInvalidate s die t p).assocs = s.assocs := rfl
@[simp] theorem ptInvalidate_mseqs (s : State) (die : Nat) (t : PTable) (p : Nat) : (ptInvalidate s die t p).mseqs = s.mseqs := rfl
@[simp] theorem ptInvalidate_ustores (s : State) (die : Nat) (t : PTable) (p : Nat) : (ptInvalidate s die t p).ustores = s.ustores := rfl
@[simp] theorem ptInvalidate_vault (s : State) (die : Nat) (t : PTable) (p : Nat) : (ptInvalidate s die t p).vault = s.vault := rfl
@[simp] theorem ptInvalidate_xforms (s : State) (die : Nat) (t : PTable) (p : Nat) : (ptInvalidate s die t p).xforms = s.xforms := rfl
@[simp] theorem ptInvalidate_flash (s : State) (die : Nat) (t : PTable) (p : Nat) : (ptInvalidate s die t p).flash = s.flash := rfl
@[simp] theorem ptInvalidate_ageDue (s : State) (die : Nat) (t : PTable) (p : Nat) : (ptInvalidate s die t p).ageDue = s.ageDue := rfl
@[simp] theorem ptInvalidate_straps (s : State) (die : Nat) (t : PTable) (p : Nat) : (ptInvalidate s die t p).straps = s.straps := rfl
@[simp] theorem ptInvalidate_fuses (s : State) (die : Nat) (t : PTable) (p : Nat) : (ptInvalidate s die t p).fuses = s.fuses := rfl
@[simp] theorem ptInvalidate_fusesIn (s : State) (die : Nat) (t : PTable) (p : Nat) : (ptInvalidate s die t p).fusesIn = s.fusesIn := rfl
@[simp] theorem ptInvalidate_mst (s : State) (die : Nat) (t : PTable) (p : Nat) : (ptInvalidate s die t p).mst = s.mst := rfl
@[simp] theorem ptInvalidate_pw (s : State) (die : Nat) (t : PTable) (p : Nat) : (ptInvalidate s die t p).pw = s.pw := rfl
@[simp] theorem ptInvalidate_spi (s : State) (die : Nat) (t : PTable) (p : Nat) : (ptInvalidate s die t p).spi = s.spi := rfl
@[simp] theorem ptInvalidate_i3cPort (s : State) (die : Nat) (t : PTable) (p : Nat) : (ptInvalidate s die t p).i3cPort = s.i3cPort := rfl
@[simp] theorem ptInvalidate_spiDead (s : State) (die : Nat) (t : PTable) (p : Nat) : (ptInvalidate s die t p).spiDead = s.spiDead := rfl
@[simp] theorem ptInvalidate_portCnt (s : State) (die : Nat) (t : PTable) (p : Nat) : (ptInvalidate s die t p).portCnt = s.portCnt := rfl
@[simp] theorem ptInvalidate_i3c (s : State) (die : Nat) (t : PTable) (p : Nat) : (ptInvalidate s die t p).i3c = s.i3c := rfl
@[simp] theorem ptInvalidate_rawHalt (s : State) (die : Nat) (t : PTable) (p : Nat) : (ptInvalidate s die t p).rawHalt = s.rawHalt := rfl
@[simp] theorem ptInvalidate_release (s : State) (die : Nat) (t : PTable) (p : Nat) : (ptInvalidate s die t p).release = s.release := rfl
@[simp] theorem ptInvalidate_fatal (s : State) (die : Nat) (t : PTable) (p : Nat) : (ptInvalidate s die t p).fatal = s.fatal := rfl
@[simp] theorem ptInvalidate_pulse (s : State) (die : Nat) (t : PTable) (p : Nat) : (ptInvalidate s die t p).pulse = s.pulse := rfl
@[simp] theorem ptInvalidate_fresh (s : State) (die : Nat) (t : PTable) (p : Nat) : (ptInvalidate s die t p).fresh = s.fresh := rfl
@[simp] theorem ptInvalidate_pending (s : State) (die : Nat) (t : PTable) (p : Nat) : (ptInvalidate s die t p).pending = s.pending := rfl
@[simp] theorem ptInvalidate_strays (s : State) (die : Nat) (t : PTable) (p : Nat) : (ptInvalidate s die t p).strays = s.strays := rfl
@[simp] theorem ptInvalidate_lrQueue (s : State) (die : Nat) (t : PTable) (p : Nat) : (ptInvalidate s die t p).lrQueue = s.lrQueue := rfl
@[simp] theorem ptInvalidate_posted (s : State) (die : Nat) (t : PTable) (p : Nat) : (ptInvalidate s die t p).posted = s.posted := rfl
@[simp] theorem ptInvalidate_cmdBusy (s : State) (die : Nat) (t : PTable) (p : Nat) : (ptInvalidate s die t p).cmdBusy = s.cmdBusy := rfl
@[simp] theorem ptInvalidate_rwdHeld (s : State) (die : Nat) (t : PTable) (p : Nat) : (ptInvalidate s die t p).rwdHeld = s.rwdHeld := rfl
@[simp] theorem modHw_part (s : State) (p : Nat) (f : PartHw → PartHw) : (modHw s p f).part = s.part := rfl
@[simp] theorem modHw_mem (s : State) (p : Nat) (f : PartHw → PartHw) : (modHw s p f).mem = s.mem := rfl
@[simp] theorem modHw_poison (s : State) (p : Nat) (f : PartHw → PartHw) : (modHw s p f).poison = s.poison := rfl
@[simp] theorem modHw_csr (s : State) (p : Nat) (f : PartHw → PartHw) : (modHw s p f).csr = s.csr := rfl
@[simp] theorem modHw_spars (s : State) (p : Nat) (f : PartHw → PartHw) : (modHw s p f).spars = s.spars := rfl
@[simp] theorem modHw_pes (s : State) (p : Nat) (f : PartHw → PartHw) : (modHw s p f).pes = s.pes := rfl
@[simp] theorem modHw_resvs (s : State) (p : Nat) (f : PartHw → PartHw) : (modHw s p f).resvs = s.resvs := rfl
@[simp] theorem modHw_dies (s : State) (p : Nat) (f : PartHw → PartHw) : (modHw s p f).dies = s.dies := rfl
@[simp] theorem modHw_traps (s : State) (p : Nat) (f : PartHw → PartHw) : (modHw s p f).traps = s.traps := rfl
@[simp] theorem modHw_flowMsgs (s : State) (p : Nat) (f : PartHw → PartHw) : (modHw s p f).flowMsgs = s.flowMsgs := rfl
@[simp] theorem modHw_notices (s : State) (p : Nat) (f : PartHw → PartHw) : (modHw s p f).notices = s.notices := rfl
@[simp] theorem modHw_gateMsgs (s : State) (p : Nat) (f : PartHw → PartHw) : (modHw s p f).gateMsgs = s.gateMsgs := rfl
@[simp] theorem modHw_gateWaits (s : State) (p : Nat) (f : PartHw → PartHw) : (modHw s p f).gateWaits = s.gateWaits := rfl
@[simp] theorem modHw_luffs (s : State) (p : Nat) (f : PartHw → PartHw) : (modHw s p f).luffs = s.luffs := rfl
@[simp] theorem modHw_pcache (s : State) (p : Nat) (f : PartHw → PartHw) : (modHw s p f).pcache = s.pcache := rfl
@[simp] theorem modHw_tlb (s : State) (p : Nat) (f : PartHw → PartHw) : (modHw s p f).tlb = s.tlb := rfl
@[simp] theorem modHw_dramWords (s : State) (p : Nat) (f : PartHw → PartHw) : (modHw s p f).dramWords = s.dramWords := rfl
@[simp] theorem modHw_hdm (s : State) (p : Nat) (f : PartHw → PartHw) : (modHw s p f).hdm = s.hdm := rfl
@[simp] theorem modHw_sups (s : State) (p : Nat) (f : PartHw → PartHw) : (modHw s p f).sups = s.sups := rfl
@[simp] theorem modHw_supIssues (s : State) (p : Nat) (f : PartHw → PartHw) : (modHw s p f).supIssues = s.supIssues := rfl
@[simp] theorem modHw_caches (s : State) (p : Nat) (f : PartHw → PartHw) : (modHw s p f).caches = s.caches := rfl
@[simp] theorem modHw_llc (s : State) (p : Nat) (f : PartHw → PartHw) : (modHw s p f).llc = s.llc := rfl
@[simp] theorem modHw_homeTx (s : State) (p : Nat) (f : PartHw → PartHw) : (modHw s p f).homeTx = s.homeTx := rfl
@[simp] theorem modHw_sliceQ (s : State) (p : Nat) (f : PartHw → PartHw) : (modHw s p f).sliceQ = s.sliceQ := rfl
@[simp] theorem modHw_snoops (s : State) (p : Nat) (f : PartHw → PartHw) : (modHw s p f).snoops = s.snoops := rfl
@[simp] theorem modHw_fetchMoves (s : State) (p : Nat) (f : PartHw → PartHw) : (modHw s p f).fetchMoves = s.fetchMoves := rfl
@[simp] theorem modHw_ageHeld (s : State) (p : Nat) (f : PartHw → PartHw) : (modHw s p f).ageHeld = s.ageHeld := rfl
@[simp] theorem modHw_tap (s : State) (p : Nat) (f : PartHw → PartHw) : (modHw s p f).tap = s.tap := rfl
@[simp] theorem modHw_answers (s : State) (p : Nat) (f : PartHw → PartHw) : (modHw s p f).answers = s.answers := rfl
@[simp] theorem modHw_useStamp (s : State) (p : Nat) (f : PartHw → PartHw) : (modHw s p f).useStamp = s.useStamp := rfl
@[simp] theorem modHw_given (s : State) (p : Nat) (f : PartHw → PartHw) : (modHw s p f).given = s.given := rfl
@[simp] theorem modHw_chans (s : State) (p : Nat) (f : PartHw → PartHw) : (modHw s p f).chans = s.chans := rfl
@[simp] theorem modHw_engs (s : State) (p : Nat) (f : PartHw → PartHw) : (modHw s p f).engs = s.engs := rfl
@[simp] theorem modHw_works (s : State) (p : Nat) (f : PartHw → PartHw) : (modHw s p f).works = s.works := rfl
@[simp] theorem modHw_ctrls (s : State) (p : Nat) (f : PartHw → PartHw) : (modHw s p f).ctrls = s.ctrls := rfl
@[simp] theorem modHw_sess (s : State) (p : Nat) (f : PartHw → PartHw) : (modHw s p f).sess = s.sess := rfl
@[simp] theorem modHw_assocs (s : State) (p : Nat) (f : PartHw → PartHw) : (modHw s p f).assocs = s.assocs := rfl
@[simp] theorem modHw_mseqs (s : State) (p : Nat) (f : PartHw → PartHw) : (modHw s p f).mseqs = s.mseqs := rfl
@[simp] theorem modHw_ustores (s : State) (p : Nat) (f : PartHw → PartHw) : (modHw s p f).ustores = s.ustores := rfl
@[simp] theorem modHw_vault (s : State) (p : Nat) (f : PartHw → PartHw) : (modHw s p f).vault = s.vault := rfl
@[simp] theorem modHw_xforms (s : State) (p : Nat) (f : PartHw → PartHw) : (modHw s p f).xforms = s.xforms := rfl
@[simp] theorem modHw_flash (s : State) (p : Nat) (f : PartHw → PartHw) : (modHw s p f).flash = s.flash := rfl
@[simp] theorem modHw_ageDue (s : State) (p : Nat) (f : PartHw → PartHw) : (modHw s p f).ageDue = s.ageDue := rfl
@[simp] theorem modHw_straps (s : State) (p : Nat) (f : PartHw → PartHw) : (modHw s p f).straps = s.straps := rfl
@[simp] theorem modHw_fuses (s : State) (p : Nat) (f : PartHw → PartHw) : (modHw s p f).fuses = s.fuses := rfl
@[simp] theorem modHw_fusesIn (s : State) (p : Nat) (f : PartHw → PartHw) : (modHw s p f).fusesIn = s.fusesIn := rfl
@[simp] theorem modHw_mst (s : State) (p : Nat) (f : PartHw → PartHw) : (modHw s p f).mst = s.mst := rfl
@[simp] theorem modHw_pw (s : State) (p : Nat) (f : PartHw → PartHw) : (modHw s p f).pw = s.pw := rfl
@[simp] theorem modHw_spi (s : State) (p : Nat) (f : PartHw → PartHw) : (modHw s p f).spi = s.spi := rfl
@[simp] theorem modHw_i3cPort (s : State) (p : Nat) (f : PartHw → PartHw) : (modHw s p f).i3cPort = s.i3cPort := rfl
@[simp] theorem modHw_spiDead (s : State) (p : Nat) (f : PartHw → PartHw) : (modHw s p f).spiDead = s.spiDead := rfl
@[simp] theorem modHw_portCnt (s : State) (p : Nat) (f : PartHw → PartHw) : (modHw s p f).portCnt = s.portCnt := rfl
@[simp] theorem modHw_i3c (s : State) (p : Nat) (f : PartHw → PartHw) : (modHw s p f).i3c = s.i3c := rfl
@[simp] theorem modHw_rawHalt (s : State) (p : Nat) (f : PartHw → PartHw) : (modHw s p f).rawHalt = s.rawHalt := rfl
@[simp] theorem modHw_release (s : State) (p : Nat) (f : PartHw → PartHw) : (modHw s p f).release = s.release := rfl
@[simp] theorem modHw_fatal (s : State) (p : Nat) (f : PartHw → PartHw) : (modHw s p f).fatal = s.fatal := rfl
@[simp] theorem modHw_pulse (s : State) (p : Nat) (f : PartHw → PartHw) : (modHw s p f).pulse = s.pulse := rfl
@[simp] theorem modHw_fresh (s : State) (p : Nat) (f : PartHw → PartHw) : (modHw s p f).fresh = s.fresh := rfl
@[simp] theorem modHw_pending (s : State) (p : Nat) (f : PartHw → PartHw) : (modHw s p f).pending = s.pending := rfl
@[simp] theorem modHw_strays (s : State) (p : Nat) (f : PartHw → PartHw) : (modHw s p f).strays = s.strays := rfl
@[simp] theorem modHw_lrQueue (s : State) (p : Nat) (f : PartHw → PartHw) : (modHw s p f).lrQueue = s.lrQueue := rfl
@[simp] theorem modHw_posted (s : State) (p : Nat) (f : PartHw → PartHw) : (modHw s p f).posted = s.posted := rfl
@[simp] theorem modHw_cmdBusy (s : State) (p : Nat) (f : PartHw → PartHw) : (modHw s p f).cmdBusy = s.cmdBusy := rfl
@[simp] theorem modHw_rwdHeld (s : State) (p : Nat) (f : PartHw → PartHw) : (modHw s p f).rwdHeld = s.rwdHeld := rfl
@[simp] theorem modSpar_part (s : State) (g : Nat) (f : Spar → Spar) : (modSpar s g f).part = s.part := rfl
@[simp] theorem modSpar_mem (s : State) (g : Nat) (f : Spar → Spar) : (modSpar s g f).mem = s.mem := rfl
@[simp] theorem modSpar_poison (s : State) (g : Nat) (f : Spar → Spar) : (modSpar s g f).poison = s.poison := rfl
@[simp] theorem modSpar_csr (s : State) (g : Nat) (f : Spar → Spar) : (modSpar s g f).csr = s.csr := rfl
@[simp] theorem modSpar_pes (s : State) (g : Nat) (f : Spar → Spar) : (modSpar s g f).pes = s.pes := rfl
@[simp] theorem modSpar_resvs (s : State) (g : Nat) (f : Spar → Spar) : (modSpar s g f).resvs = s.resvs := rfl
@[simp] theorem modSpar_dies (s : State) (g : Nat) (f : Spar → Spar) : (modSpar s g f).dies = s.dies := rfl
@[simp] theorem modSpar_hw (s : State) (g : Nat) (f : Spar → Spar) : (modSpar s g f).hw = s.hw := rfl
@[simp] theorem modSpar_traps (s : State) (g : Nat) (f : Spar → Spar) : (modSpar s g f).traps = s.traps := rfl
@[simp] theorem modSpar_flowMsgs (s : State) (g : Nat) (f : Spar → Spar) : (modSpar s g f).flowMsgs = s.flowMsgs := rfl
@[simp] theorem modSpar_notices (s : State) (g : Nat) (f : Spar → Spar) : (modSpar s g f).notices = s.notices := rfl
@[simp] theorem modSpar_gateMsgs (s : State) (g : Nat) (f : Spar → Spar) : (modSpar s g f).gateMsgs = s.gateMsgs := rfl
@[simp] theorem modSpar_gateWaits (s : State) (g : Nat) (f : Spar → Spar) : (modSpar s g f).gateWaits = s.gateWaits := rfl
@[simp] theorem modSpar_luffs (s : State) (g : Nat) (f : Spar → Spar) : (modSpar s g f).luffs = s.luffs := rfl
@[simp] theorem modSpar_pcache (s : State) (g : Nat) (f : Spar → Spar) : (modSpar s g f).pcache = s.pcache := rfl
@[simp] theorem modSpar_tlb (s : State) (g : Nat) (f : Spar → Spar) : (modSpar s g f).tlb = s.tlb := rfl
@[simp] theorem modSpar_dramWords (s : State) (g : Nat) (f : Spar → Spar) : (modSpar s g f).dramWords = s.dramWords := rfl
@[simp] theorem modSpar_hdm (s : State) (g : Nat) (f : Spar → Spar) : (modSpar s g f).hdm = s.hdm := rfl
@[simp] theorem modSpar_sups (s : State) (g : Nat) (f : Spar → Spar) : (modSpar s g f).sups = s.sups := rfl
@[simp] theorem modSpar_supIssues (s : State) (g : Nat) (f : Spar → Spar) : (modSpar s g f).supIssues = s.supIssues := rfl
@[simp] theorem modSpar_caches (s : State) (g : Nat) (f : Spar → Spar) : (modSpar s g f).caches = s.caches := rfl
@[simp] theorem modSpar_llc (s : State) (g : Nat) (f : Spar → Spar) : (modSpar s g f).llc = s.llc := rfl
@[simp] theorem modSpar_homeTx (s : State) (g : Nat) (f : Spar → Spar) : (modSpar s g f).homeTx = s.homeTx := rfl
@[simp] theorem modSpar_sliceQ (s : State) (g : Nat) (f : Spar → Spar) : (modSpar s g f).sliceQ = s.sliceQ := rfl
@[simp] theorem modSpar_snoops (s : State) (g : Nat) (f : Spar → Spar) : (modSpar s g f).snoops = s.snoops := rfl
@[simp] theorem modSpar_fetchMoves (s : State) (g : Nat) (f : Spar → Spar) : (modSpar s g f).fetchMoves = s.fetchMoves := rfl
@[simp] theorem modSpar_ageHeld (s : State) (g : Nat) (f : Spar → Spar) : (modSpar s g f).ageHeld = s.ageHeld := rfl
@[simp] theorem modSpar_tap (s : State) (g : Nat) (f : Spar → Spar) : (modSpar s g f).tap = s.tap := rfl
@[simp] theorem modSpar_answers (s : State) (g : Nat) (f : Spar → Spar) : (modSpar s g f).answers = s.answers := rfl
@[simp] theorem modSpar_useStamp (s : State) (g : Nat) (f : Spar → Spar) : (modSpar s g f).useStamp = s.useStamp := rfl
@[simp] theorem modSpar_given (s : State) (g : Nat) (f : Spar → Spar) : (modSpar s g f).given = s.given := rfl
@[simp] theorem modSpar_chans (s : State) (g : Nat) (f : Spar → Spar) : (modSpar s g f).chans = s.chans := rfl
@[simp] theorem modSpar_engs (s : State) (g : Nat) (f : Spar → Spar) : (modSpar s g f).engs = s.engs := rfl
@[simp] theorem modSpar_works (s : State) (g : Nat) (f : Spar → Spar) : (modSpar s g f).works = s.works := rfl
@[simp] theorem modSpar_ctrls (s : State) (g : Nat) (f : Spar → Spar) : (modSpar s g f).ctrls = s.ctrls := rfl
@[simp] theorem modSpar_sess (s : State) (g : Nat) (f : Spar → Spar) : (modSpar s g f).sess = s.sess := rfl
@[simp] theorem modSpar_assocs (s : State) (g : Nat) (f : Spar → Spar) : (modSpar s g f).assocs = s.assocs := rfl
@[simp] theorem modSpar_mseqs (s : State) (g : Nat) (f : Spar → Spar) : (modSpar s g f).mseqs = s.mseqs := rfl
@[simp] theorem modSpar_ustores (s : State) (g : Nat) (f : Spar → Spar) : (modSpar s g f).ustores = s.ustores := rfl
@[simp] theorem modSpar_vault (s : State) (g : Nat) (f : Spar → Spar) : (modSpar s g f).vault = s.vault := rfl
@[simp] theorem modSpar_xforms (s : State) (g : Nat) (f : Spar → Spar) : (modSpar s g f).xforms = s.xforms := rfl
@[simp] theorem modSpar_flash (s : State) (g : Nat) (f : Spar → Spar) : (modSpar s g f).flash = s.flash := rfl
@[simp] theorem modSpar_ageDue (s : State) (g : Nat) (f : Spar → Spar) : (modSpar s g f).ageDue = s.ageDue := rfl
@[simp] theorem modSpar_straps (s : State) (g : Nat) (f : Spar → Spar) : (modSpar s g f).straps = s.straps := rfl
@[simp] theorem modSpar_fuses (s : State) (g : Nat) (f : Spar → Spar) : (modSpar s g f).fuses = s.fuses := rfl
@[simp] theorem modSpar_fusesIn (s : State) (g : Nat) (f : Spar → Spar) : (modSpar s g f).fusesIn = s.fusesIn := rfl
@[simp] theorem modSpar_mst (s : State) (g : Nat) (f : Spar → Spar) : (modSpar s g f).mst = s.mst := rfl
@[simp] theorem modSpar_pw (s : State) (g : Nat) (f : Spar → Spar) : (modSpar s g f).pw = s.pw := rfl
@[simp] theorem modSpar_spi (s : State) (g : Nat) (f : Spar → Spar) : (modSpar s g f).spi = s.spi := rfl
@[simp] theorem modSpar_i3cPort (s : State) (g : Nat) (f : Spar → Spar) : (modSpar s g f).i3cPort = s.i3cPort := rfl
@[simp] theorem modSpar_spiDead (s : State) (g : Nat) (f : Spar → Spar) : (modSpar s g f).spiDead = s.spiDead := rfl
@[simp] theorem modSpar_portCnt (s : State) (g : Nat) (f : Spar → Spar) : (modSpar s g f).portCnt = s.portCnt := rfl
@[simp] theorem modSpar_i3c (s : State) (g : Nat) (f : Spar → Spar) : (modSpar s g f).i3c = s.i3c := rfl
@[simp] theorem modSpar_rawHalt (s : State) (g : Nat) (f : Spar → Spar) : (modSpar s g f).rawHalt = s.rawHalt := rfl
@[simp] theorem modSpar_release (s : State) (g : Nat) (f : Spar → Spar) : (modSpar s g f).release = s.release := rfl
@[simp] theorem modSpar_fatal (s : State) (g : Nat) (f : Spar → Spar) : (modSpar s g f).fatal = s.fatal := rfl
@[simp] theorem modSpar_pulse (s : State) (g : Nat) (f : Spar → Spar) : (modSpar s g f).pulse = s.pulse := rfl
@[simp] theorem modSpar_fresh (s : State) (g : Nat) (f : Spar → Spar) : (modSpar s g f).fresh = s.fresh := rfl
@[simp] theorem modSpar_pending (s : State) (g : Nat) (f : Spar → Spar) : (modSpar s g f).pending = s.pending := rfl
@[simp] theorem modSpar_strays (s : State) (g : Nat) (f : Spar → Spar) : (modSpar s g f).strays = s.strays := rfl
@[simp] theorem modSpar_lrQueue (s : State) (g : Nat) (f : Spar → Spar) : (modSpar s g f).lrQueue = s.lrQueue := rfl
@[simp] theorem modSpar_posted (s : State) (g : Nat) (f : Spar → Spar) : (modSpar s g f).posted = s.posted := rfl
@[simp] theorem modSpar_cmdBusy (s : State) (g : Nat) (f : Spar → Spar) : (modSpar s g f).cmdBusy = s.cmdBusy := rfl
@[simp] theorem modSpar_rwdHeld (s : State) (g : Nat) (f : Spar → Spar) : (modSpar s g f).rwdHeld = s.rwdHeld := rfl
@[simp] theorem modPe_part (s : State) (k : Nat) (f : Pe → Pe) : (modPe s k f).part = s.part := rfl
@[simp] theorem modPe_mem (s : State) (k : Nat) (f : Pe → Pe) : (modPe s k f).mem = s.mem := rfl
@[simp] theorem modPe_poison (s : State) (k : Nat) (f : Pe → Pe) : (modPe s k f).poison = s.poison := rfl
@[simp] theorem modPe_csr (s : State) (k : Nat) (f : Pe → Pe) : (modPe s k f).csr = s.csr := rfl
@[simp] theorem modPe_spars (s : State) (k : Nat) (f : Pe → Pe) : (modPe s k f).spars = s.spars := rfl
@[simp] theorem modPe_resvs (s : State) (k : Nat) (f : Pe → Pe) : (modPe s k f).resvs = s.resvs := rfl
@[simp] theorem modPe_dies (s : State) (k : Nat) (f : Pe → Pe) : (modPe s k f).dies = s.dies := rfl
@[simp] theorem modPe_hw (s : State) (k : Nat) (f : Pe → Pe) : (modPe s k f).hw = s.hw := rfl
@[simp] theorem modPe_traps (s : State) (k : Nat) (f : Pe → Pe) : (modPe s k f).traps = s.traps := rfl
@[simp] theorem modPe_flowMsgs (s : State) (k : Nat) (f : Pe → Pe) : (modPe s k f).flowMsgs = s.flowMsgs := rfl
@[simp] theorem modPe_notices (s : State) (k : Nat) (f : Pe → Pe) : (modPe s k f).notices = s.notices := rfl
@[simp] theorem modPe_gateMsgs (s : State) (k : Nat) (f : Pe → Pe) : (modPe s k f).gateMsgs = s.gateMsgs := rfl
@[simp] theorem modPe_gateWaits (s : State) (k : Nat) (f : Pe → Pe) : (modPe s k f).gateWaits = s.gateWaits := rfl
@[simp] theorem modPe_luffs (s : State) (k : Nat) (f : Pe → Pe) : (modPe s k f).luffs = s.luffs := rfl
@[simp] theorem modPe_pcache (s : State) (k : Nat) (f : Pe → Pe) : (modPe s k f).pcache = s.pcache := rfl
@[simp] theorem modPe_tlb (s : State) (k : Nat) (f : Pe → Pe) : (modPe s k f).tlb = s.tlb := rfl
@[simp] theorem modPe_dramWords (s : State) (k : Nat) (f : Pe → Pe) : (modPe s k f).dramWords = s.dramWords := rfl
@[simp] theorem modPe_hdm (s : State) (k : Nat) (f : Pe → Pe) : (modPe s k f).hdm = s.hdm := rfl
@[simp] theorem modPe_sups (s : State) (k : Nat) (f : Pe → Pe) : (modPe s k f).sups = s.sups := rfl
@[simp] theorem modPe_supIssues (s : State) (k : Nat) (f : Pe → Pe) : (modPe s k f).supIssues = s.supIssues := rfl
@[simp] theorem modPe_caches (s : State) (k : Nat) (f : Pe → Pe) : (modPe s k f).caches = s.caches := rfl
@[simp] theorem modPe_llc (s : State) (k : Nat) (f : Pe → Pe) : (modPe s k f).llc = s.llc := rfl
@[simp] theorem modPe_homeTx (s : State) (k : Nat) (f : Pe → Pe) : (modPe s k f).homeTx = s.homeTx := rfl
@[simp] theorem modPe_sliceQ (s : State) (k : Nat) (f : Pe → Pe) : (modPe s k f).sliceQ = s.sliceQ := rfl
@[simp] theorem modPe_snoops (s : State) (k : Nat) (f : Pe → Pe) : (modPe s k f).snoops = s.snoops := rfl
@[simp] theorem modPe_fetchMoves (s : State) (k : Nat) (f : Pe → Pe) : (modPe s k f).fetchMoves = s.fetchMoves := rfl
@[simp] theorem modPe_ageHeld (s : State) (k : Nat) (f : Pe → Pe) : (modPe s k f).ageHeld = s.ageHeld := rfl
@[simp] theorem modPe_tap (s : State) (k : Nat) (f : Pe → Pe) : (modPe s k f).tap = s.tap := rfl
@[simp] theorem modPe_answers (s : State) (k : Nat) (f : Pe → Pe) : (modPe s k f).answers = s.answers := rfl
@[simp] theorem modPe_useStamp (s : State) (k : Nat) (f : Pe → Pe) : (modPe s k f).useStamp = s.useStamp := rfl
@[simp] theorem modPe_given (s : State) (k : Nat) (f : Pe → Pe) : (modPe s k f).given = s.given := rfl
@[simp] theorem modPe_chans (s : State) (k : Nat) (f : Pe → Pe) : (modPe s k f).chans = s.chans := rfl
@[simp] theorem modPe_engs (s : State) (k : Nat) (f : Pe → Pe) : (modPe s k f).engs = s.engs := rfl
@[simp] theorem modPe_works (s : State) (k : Nat) (f : Pe → Pe) : (modPe s k f).works = s.works := rfl
@[simp] theorem modPe_ctrls (s : State) (k : Nat) (f : Pe → Pe) : (modPe s k f).ctrls = s.ctrls := rfl
@[simp] theorem modPe_sess (s : State) (k : Nat) (f : Pe → Pe) : (modPe s k f).sess = s.sess := rfl
@[simp] theorem modPe_assocs (s : State) (k : Nat) (f : Pe → Pe) : (modPe s k f).assocs = s.assocs := rfl
@[simp] theorem modPe_mseqs (s : State) (k : Nat) (f : Pe → Pe) : (modPe s k f).mseqs = s.mseqs := rfl
@[simp] theorem modPe_ustores (s : State) (k : Nat) (f : Pe → Pe) : (modPe s k f).ustores = s.ustores := rfl
@[simp] theorem modPe_vault (s : State) (k : Nat) (f : Pe → Pe) : (modPe s k f).vault = s.vault := rfl
@[simp] theorem modPe_xforms (s : State) (k : Nat) (f : Pe → Pe) : (modPe s k f).xforms = s.xforms := rfl
@[simp] theorem modPe_flash (s : State) (k : Nat) (f : Pe → Pe) : (modPe s k f).flash = s.flash := rfl
@[simp] theorem modPe_ageDue (s : State) (k : Nat) (f : Pe → Pe) : (modPe s k f).ageDue = s.ageDue := rfl
@[simp] theorem modPe_straps (s : State) (k : Nat) (f : Pe → Pe) : (modPe s k f).straps = s.straps := rfl
@[simp] theorem modPe_fuses (s : State) (k : Nat) (f : Pe → Pe) : (modPe s k f).fuses = s.fuses := rfl
@[simp] theorem modPe_fusesIn (s : State) (k : Nat) (f : Pe → Pe) : (modPe s k f).fusesIn = s.fusesIn := rfl
@[simp] theorem modPe_mst (s : State) (k : Nat) (f : Pe → Pe) : (modPe s k f).mst = s.mst := rfl
@[simp] theorem modPe_pw (s : State) (k : Nat) (f : Pe → Pe) : (modPe s k f).pw = s.pw := rfl
@[simp] theorem modPe_spi (s : State) (k : Nat) (f : Pe → Pe) : (modPe s k f).spi = s.spi := rfl
@[simp] theorem modPe_i3cPort (s : State) (k : Nat) (f : Pe → Pe) : (modPe s k f).i3cPort = s.i3cPort := rfl
@[simp] theorem modPe_spiDead (s : State) (k : Nat) (f : Pe → Pe) : (modPe s k f).spiDead = s.spiDead := rfl
@[simp] theorem modPe_portCnt (s : State) (k : Nat) (f : Pe → Pe) : (modPe s k f).portCnt = s.portCnt := rfl
@[simp] theorem modPe_i3c (s : State) (k : Nat) (f : Pe → Pe) : (modPe s k f).i3c = s.i3c := rfl
@[simp] theorem modPe_rawHalt (s : State) (k : Nat) (f : Pe → Pe) : (modPe s k f).rawHalt = s.rawHalt := rfl
@[simp] theorem modPe_release (s : State) (k : Nat) (f : Pe → Pe) : (modPe s k f).release = s.release := rfl
@[simp] theorem modPe_fatal (s : State) (k : Nat) (f : Pe → Pe) : (modPe s k f).fatal = s.fatal := rfl
@[simp] theorem modPe_pulse (s : State) (k : Nat) (f : Pe → Pe) : (modPe s k f).pulse = s.pulse := rfl
@[simp] theorem modPe_fresh (s : State) (k : Nat) (f : Pe → Pe) : (modPe s k f).fresh = s.fresh := rfl
@[simp] theorem modPe_pending (s : State) (k : Nat) (f : Pe → Pe) : (modPe s k f).pending = s.pending := rfl
@[simp] theorem modPe_strays (s : State) (k : Nat) (f : Pe → Pe) : (modPe s k f).strays = s.strays := rfl
@[simp] theorem modPe_lrQueue (s : State) (k : Nat) (f : Pe → Pe) : (modPe s k f).lrQueue = s.lrQueue := rfl
@[simp] theorem modPe_posted (s : State) (k : Nat) (f : Pe → Pe) : (modPe s k f).posted = s.posted := rfl
@[simp] theorem modPe_cmdBusy (s : State) (k : Nat) (f : Pe → Pe) : (modPe s k f).cmdBusy = s.cmdBusy := rfl
@[simp] theorem modPe_rwdHeld (s : State) (k : Nat) (f : Pe → Pe) : (modPe s k f).rwdHeld = s.rwdHeld := rfl
@[simp] theorem modXf_part (s : State) (d : Nat) (f : XfDie → XfDie) : (modXf s d f).part = s.part := rfl
@[simp] theorem modXf_mem (s : State) (d : Nat) (f : XfDie → XfDie) : (modXf s d f).mem = s.mem := rfl
@[simp] theorem modXf_poison (s : State) (d : Nat) (f : XfDie → XfDie) : (modXf s d f).poison = s.poison := rfl
@[simp] theorem modXf_csr (s : State) (d : Nat) (f : XfDie → XfDie) : (modXf s d f).csr = s.csr := rfl
@[simp] theorem modXf_spars (s : State) (d : Nat) (f : XfDie → XfDie) : (modXf s d f).spars = s.spars := rfl
@[simp] theorem modXf_pes (s : State) (d : Nat) (f : XfDie → XfDie) : (modXf s d f).pes = s.pes := rfl
@[simp] theorem modXf_resvs (s : State) (d : Nat) (f : XfDie → XfDie) : (modXf s d f).resvs = s.resvs := rfl
@[simp] theorem modXf_dies (s : State) (d : Nat) (f : XfDie → XfDie) : (modXf s d f).dies = s.dies := rfl
@[simp] theorem modXf_hw (s : State) (d : Nat) (f : XfDie → XfDie) : (modXf s d f).hw = s.hw := rfl
@[simp] theorem modXf_traps (s : State) (d : Nat) (f : XfDie → XfDie) : (modXf s d f).traps = s.traps := rfl
@[simp] theorem modXf_flowMsgs (s : State) (d : Nat) (f : XfDie → XfDie) : (modXf s d f).flowMsgs = s.flowMsgs := rfl
@[simp] theorem modXf_notices (s : State) (d : Nat) (f : XfDie → XfDie) : (modXf s d f).notices = s.notices := rfl
@[simp] theorem modXf_gateMsgs (s : State) (d : Nat) (f : XfDie → XfDie) : (modXf s d f).gateMsgs = s.gateMsgs := rfl
@[simp] theorem modXf_gateWaits (s : State) (d : Nat) (f : XfDie → XfDie) : (modXf s d f).gateWaits = s.gateWaits := rfl
@[simp] theorem modXf_luffs (s : State) (d : Nat) (f : XfDie → XfDie) : (modXf s d f).luffs = s.luffs := rfl
@[simp] theorem modXf_pcache (s : State) (d : Nat) (f : XfDie → XfDie) : (modXf s d f).pcache = s.pcache := rfl
@[simp] theorem modXf_tlb (s : State) (d : Nat) (f : XfDie → XfDie) : (modXf s d f).tlb = s.tlb := rfl
@[simp] theorem modXf_dramWords (s : State) (d : Nat) (f : XfDie → XfDie) : (modXf s d f).dramWords = s.dramWords := rfl
@[simp] theorem modXf_hdm (s : State) (d : Nat) (f : XfDie → XfDie) : (modXf s d f).hdm = s.hdm := rfl
@[simp] theorem modXf_sups (s : State) (d : Nat) (f : XfDie → XfDie) : (modXf s d f).sups = s.sups := rfl
@[simp] theorem modXf_supIssues (s : State) (d : Nat) (f : XfDie → XfDie) : (modXf s d f).supIssues = s.supIssues := rfl
@[simp] theorem modXf_caches (s : State) (d : Nat) (f : XfDie → XfDie) : (modXf s d f).caches = s.caches := rfl
@[simp] theorem modXf_llc (s : State) (d : Nat) (f : XfDie → XfDie) : (modXf s d f).llc = s.llc := rfl
@[simp] theorem modXf_homeTx (s : State) (d : Nat) (f : XfDie → XfDie) : (modXf s d f).homeTx = s.homeTx := rfl
@[simp] theorem modXf_sliceQ (s : State) (d : Nat) (f : XfDie → XfDie) : (modXf s d f).sliceQ = s.sliceQ := rfl
@[simp] theorem modXf_snoops (s : State) (d : Nat) (f : XfDie → XfDie) : (modXf s d f).snoops = s.snoops := rfl
@[simp] theorem modXf_fetchMoves (s : State) (d : Nat) (f : XfDie → XfDie) : (modXf s d f).fetchMoves = s.fetchMoves := rfl
@[simp] theorem modXf_ageHeld (s : State) (d : Nat) (f : XfDie → XfDie) : (modXf s d f).ageHeld = s.ageHeld := rfl
@[simp] theorem modXf_tap (s : State) (d : Nat) (f : XfDie → XfDie) : (modXf s d f).tap = s.tap := rfl
@[simp] theorem modXf_answers (s : State) (d : Nat) (f : XfDie → XfDie) : (modXf s d f).answers = s.answers := rfl
@[simp] theorem modXf_useStamp (s : State) (d : Nat) (f : XfDie → XfDie) : (modXf s d f).useStamp = s.useStamp := rfl
@[simp] theorem modXf_given (s : State) (d : Nat) (f : XfDie → XfDie) : (modXf s d f).given = s.given := rfl
@[simp] theorem modXf_chans (s : State) (d : Nat) (f : XfDie → XfDie) : (modXf s d f).chans = s.chans := rfl
@[simp] theorem modXf_engs (s : State) (d : Nat) (f : XfDie → XfDie) : (modXf s d f).engs = s.engs := rfl
@[simp] theorem modXf_works (s : State) (d : Nat) (f : XfDie → XfDie) : (modXf s d f).works = s.works := rfl
@[simp] theorem modXf_ctrls (s : State) (d : Nat) (f : XfDie → XfDie) : (modXf s d f).ctrls = s.ctrls := rfl
@[simp] theorem modXf_sess (s : State) (d : Nat) (f : XfDie → XfDie) : (modXf s d f).sess = s.sess := rfl
@[simp] theorem modXf_assocs (s : State) (d : Nat) (f : XfDie → XfDie) : (modXf s d f).assocs = s.assocs := rfl
@[simp] theorem modXf_mseqs (s : State) (d : Nat) (f : XfDie → XfDie) : (modXf s d f).mseqs = s.mseqs := rfl
@[simp] theorem modXf_ustores (s : State) (d : Nat) (f : XfDie → XfDie) : (modXf s d f).ustores = s.ustores := rfl
@[simp] theorem modXf_vault (s : State) (d : Nat) (f : XfDie → XfDie) : (modXf s d f).vault = s.vault := rfl
@[simp] theorem modXf_flash (s : State) (d : Nat) (f : XfDie → XfDie) : (modXf s d f).flash = s.flash := rfl
@[simp] theorem modXf_ageDue (s : State) (d : Nat) (f : XfDie → XfDie) : (modXf s d f).ageDue = s.ageDue := rfl
@[simp] theorem modXf_straps (s : State) (d : Nat) (f : XfDie → XfDie) : (modXf s d f).straps = s.straps := rfl
@[simp] theorem modXf_fuses (s : State) (d : Nat) (f : XfDie → XfDie) : (modXf s d f).fuses = s.fuses := rfl
@[simp] theorem modXf_fusesIn (s : State) (d : Nat) (f : XfDie → XfDie) : (modXf s d f).fusesIn = s.fusesIn := rfl
@[simp] theorem modXf_mst (s : State) (d : Nat) (f : XfDie → XfDie) : (modXf s d f).mst = s.mst := rfl
@[simp] theorem modXf_pw (s : State) (d : Nat) (f : XfDie → XfDie) : (modXf s d f).pw = s.pw := rfl
@[simp] theorem modXf_spi (s : State) (d : Nat) (f : XfDie → XfDie) : (modXf s d f).spi = s.spi := rfl
@[simp] theorem modXf_i3cPort (s : State) (d : Nat) (f : XfDie → XfDie) : (modXf s d f).i3cPort = s.i3cPort := rfl
@[simp] theorem modXf_spiDead (s : State) (d : Nat) (f : XfDie → XfDie) : (modXf s d f).spiDead = s.spiDead := rfl
@[simp] theorem modXf_portCnt (s : State) (d : Nat) (f : XfDie → XfDie) : (modXf s d f).portCnt = s.portCnt := rfl
@[simp] theorem modXf_i3c (s : State) (d : Nat) (f : XfDie → XfDie) : (modXf s d f).i3c = s.i3c := rfl
@[simp] theorem modXf_rawHalt (s : State) (d : Nat) (f : XfDie → XfDie) : (modXf s d f).rawHalt = s.rawHalt := rfl
@[simp] theorem modXf_release (s : State) (d : Nat) (f : XfDie → XfDie) : (modXf s d f).release = s.release := rfl
@[simp] theorem modXf_fatal (s : State) (d : Nat) (f : XfDie → XfDie) : (modXf s d f).fatal = s.fatal := rfl
@[simp] theorem modXf_pulse (s : State) (d : Nat) (f : XfDie → XfDie) : (modXf s d f).pulse = s.pulse := rfl
@[simp] theorem modXf_fresh (s : State) (d : Nat) (f : XfDie → XfDie) : (modXf s d f).fresh = s.fresh := rfl
@[simp] theorem modXf_pending (s : State) (d : Nat) (f : XfDie → XfDie) : (modXf s d f).pending = s.pending := rfl
@[simp] theorem modXf_strays (s : State) (d : Nat) (f : XfDie → XfDie) : (modXf s d f).strays = s.strays := rfl
@[simp] theorem modXf_lrQueue (s : State) (d : Nat) (f : XfDie → XfDie) : (modXf s d f).lrQueue = s.lrQueue := rfl
@[simp] theorem modXf_posted (s : State) (d : Nat) (f : XfDie → XfDie) : (modXf s d f).posted = s.posted := rfl
@[simp] theorem modXf_cmdBusy (s : State) (d : Nat) (f : XfDie → XfDie) : (modXf s d f).cmdBusy = s.cmdBusy := rfl
@[simp] theorem modXf_rwdHeld (s : State) (d : Nat) (f : XfDie → XfDie) : (modXf s d f).rwdHeld = s.rwdHeld := rfl
@[simp] theorem setSlot_part (s : State) (k : Nat) (v : Option KeySlot) : (setSlot s k v).part = s.part := rfl
@[simp] theorem setSlot_mem (s : State) (k : Nat) (v : Option KeySlot) : (setSlot s k v).mem = s.mem := rfl
@[simp] theorem setSlot_poison (s : State) (k : Nat) (v : Option KeySlot) : (setSlot s k v).poison = s.poison := rfl
@[simp] theorem setSlot_csr (s : State) (k : Nat) (v : Option KeySlot) : (setSlot s k v).csr = s.csr := rfl
@[simp] theorem setSlot_spars (s : State) (k : Nat) (v : Option KeySlot) : (setSlot s k v).spars = s.spars := rfl
@[simp] theorem setSlot_pes (s : State) (k : Nat) (v : Option KeySlot) : (setSlot s k v).pes = s.pes := rfl
@[simp] theorem setSlot_resvs (s : State) (k : Nat) (v : Option KeySlot) : (setSlot s k v).resvs = s.resvs := rfl
@[simp] theorem setSlot_dies (s : State) (k : Nat) (v : Option KeySlot) : (setSlot s k v).dies = s.dies := rfl
@[simp] theorem setSlot_hw (s : State) (k : Nat) (v : Option KeySlot) : (setSlot s k v).hw = s.hw := rfl
@[simp] theorem setSlot_traps (s : State) (k : Nat) (v : Option KeySlot) : (setSlot s k v).traps = s.traps := rfl
@[simp] theorem setSlot_flowMsgs (s : State) (k : Nat) (v : Option KeySlot) : (setSlot s k v).flowMsgs = s.flowMsgs := rfl
@[simp] theorem setSlot_notices (s : State) (k : Nat) (v : Option KeySlot) : (setSlot s k v).notices = s.notices := rfl
@[simp] theorem setSlot_gateMsgs (s : State) (k : Nat) (v : Option KeySlot) : (setSlot s k v).gateMsgs = s.gateMsgs := rfl
@[simp] theorem setSlot_gateWaits (s : State) (k : Nat) (v : Option KeySlot) : (setSlot s k v).gateWaits = s.gateWaits := rfl
@[simp] theorem setSlot_luffs (s : State) (k : Nat) (v : Option KeySlot) : (setSlot s k v).luffs = s.luffs := rfl
@[simp] theorem setSlot_pcache (s : State) (k : Nat) (v : Option KeySlot) : (setSlot s k v).pcache = s.pcache := rfl
@[simp] theorem setSlot_tlb (s : State) (k : Nat) (v : Option KeySlot) : (setSlot s k v).tlb = s.tlb := rfl
@[simp] theorem setSlot_dramWords (s : State) (k : Nat) (v : Option KeySlot) : (setSlot s k v).dramWords = s.dramWords := rfl
@[simp] theorem setSlot_hdm (s : State) (k : Nat) (v : Option KeySlot) : (setSlot s k v).hdm = s.hdm := rfl
@[simp] theorem setSlot_sups (s : State) (k : Nat) (v : Option KeySlot) : (setSlot s k v).sups = s.sups := rfl
@[simp] theorem setSlot_supIssues (s : State) (k : Nat) (v : Option KeySlot) : (setSlot s k v).supIssues = s.supIssues := rfl
@[simp] theorem setSlot_caches (s : State) (k : Nat) (v : Option KeySlot) : (setSlot s k v).caches = s.caches := rfl
@[simp] theorem setSlot_llc (s : State) (k : Nat) (v : Option KeySlot) : (setSlot s k v).llc = s.llc := rfl
@[simp] theorem setSlot_homeTx (s : State) (k : Nat) (v : Option KeySlot) : (setSlot s k v).homeTx = s.homeTx := rfl
@[simp] theorem setSlot_sliceQ (s : State) (k : Nat) (v : Option KeySlot) : (setSlot s k v).sliceQ = s.sliceQ := rfl
@[simp] theorem setSlot_snoops (s : State) (k : Nat) (v : Option KeySlot) : (setSlot s k v).snoops = s.snoops := rfl
@[simp] theorem setSlot_fetchMoves (s : State) (k : Nat) (v : Option KeySlot) : (setSlot s k v).fetchMoves = s.fetchMoves := rfl
@[simp] theorem setSlot_ageHeld (s : State) (k : Nat) (v : Option KeySlot) : (setSlot s k v).ageHeld = s.ageHeld := rfl
@[simp] theorem setSlot_tap (s : State) (k : Nat) (v : Option KeySlot) : (setSlot s k v).tap = s.tap := rfl
@[simp] theorem setSlot_answers (s : State) (k : Nat) (v : Option KeySlot) : (setSlot s k v).answers = s.answers := rfl
@[simp] theorem setSlot_useStamp (s : State) (k : Nat) (v : Option KeySlot) : (setSlot s k v).useStamp = s.useStamp := rfl
@[simp] theorem setSlot_given (s : State) (k : Nat) (v : Option KeySlot) : (setSlot s k v).given = s.given := rfl
@[simp] theorem setSlot_chans (s : State) (k : Nat) (v : Option KeySlot) : (setSlot s k v).chans = s.chans := rfl
@[simp] theorem setSlot_engs (s : State) (k : Nat) (v : Option KeySlot) : (setSlot s k v).engs = s.engs := rfl
@[simp] theorem setSlot_works (s : State) (k : Nat) (v : Option KeySlot) : (setSlot s k v).works = s.works := rfl
@[simp] theorem setSlot_ctrls (s : State) (k : Nat) (v : Option KeySlot) : (setSlot s k v).ctrls = s.ctrls := rfl
@[simp] theorem setSlot_sess (s : State) (k : Nat) (v : Option KeySlot) : (setSlot s k v).sess = s.sess := rfl
@[simp] theorem setSlot_assocs (s : State) (k : Nat) (v : Option KeySlot) : (setSlot s k v).assocs = s.assocs := rfl
@[simp] theorem setSlot_mseqs (s : State) (k : Nat) (v : Option KeySlot) : (setSlot s k v).mseqs = s.mseqs := rfl
@[simp] theorem setSlot_ustores (s : State) (k : Nat) (v : Option KeySlot) : (setSlot s k v).ustores = s.ustores := rfl
@[simp] theorem setSlot_xforms (s : State) (k : Nat) (v : Option KeySlot) : (setSlot s k v).xforms = s.xforms := rfl
@[simp] theorem setSlot_flash (s : State) (k : Nat) (v : Option KeySlot) : (setSlot s k v).flash = s.flash := rfl
@[simp] theorem setSlot_ageDue (s : State) (k : Nat) (v : Option KeySlot) : (setSlot s k v).ageDue = s.ageDue := rfl
@[simp] theorem setSlot_straps (s : State) (k : Nat) (v : Option KeySlot) : (setSlot s k v).straps = s.straps := rfl
@[simp] theorem setSlot_fuses (s : State) (k : Nat) (v : Option KeySlot) : (setSlot s k v).fuses = s.fuses := rfl
@[simp] theorem setSlot_fusesIn (s : State) (k : Nat) (v : Option KeySlot) : (setSlot s k v).fusesIn = s.fusesIn := rfl
@[simp] theorem setSlot_mst (s : State) (k : Nat) (v : Option KeySlot) : (setSlot s k v).mst = s.mst := rfl
@[simp] theorem setSlot_pw (s : State) (k : Nat) (v : Option KeySlot) : (setSlot s k v).pw = s.pw := rfl
@[simp] theorem setSlot_spi (s : State) (k : Nat) (v : Option KeySlot) : (setSlot s k v).spi = s.spi := rfl
@[simp] theorem setSlot_i3cPort (s : State) (k : Nat) (v : Option KeySlot) : (setSlot s k v).i3cPort = s.i3cPort := rfl
@[simp] theorem setSlot_spiDead (s : State) (k : Nat) (v : Option KeySlot) : (setSlot s k v).spiDead = s.spiDead := rfl
@[simp] theorem setSlot_portCnt (s : State) (k : Nat) (v : Option KeySlot) : (setSlot s k v).portCnt = s.portCnt := rfl
@[simp] theorem setSlot_i3c (s : State) (k : Nat) (v : Option KeySlot) : (setSlot s k v).i3c = s.i3c := rfl
@[simp] theorem setSlot_rawHalt (s : State) (k : Nat) (v : Option KeySlot) : (setSlot s k v).rawHalt = s.rawHalt := rfl
@[simp] theorem setSlot_release (s : State) (k : Nat) (v : Option KeySlot) : (setSlot s k v).release = s.release := rfl
@[simp] theorem setSlot_fatal (s : State) (k : Nat) (v : Option KeySlot) : (setSlot s k v).fatal = s.fatal := rfl
@[simp] theorem setSlot_pulse (s : State) (k : Nat) (v : Option KeySlot) : (setSlot s k v).pulse = s.pulse := rfl
@[simp] theorem setSlot_fresh (s : State) (k : Nat) (v : Option KeySlot) : (setSlot s k v).fresh = s.fresh := rfl
@[simp] theorem setSlot_pending (s : State) (k : Nat) (v : Option KeySlot) : (setSlot s k v).pending = s.pending := rfl
@[simp] theorem setSlot_strays (s : State) (k : Nat) (v : Option KeySlot) : (setSlot s k v).strays = s.strays := rfl
@[simp] theorem setSlot_lrQueue (s : State) (k : Nat) (v : Option KeySlot) : (setSlot s k v).lrQueue = s.lrQueue := rfl
@[simp] theorem setSlot_posted (s : State) (k : Nat) (v : Option KeySlot) : (setSlot s k v).posted = s.posted := rfl
@[simp] theorem setSlot_cmdBusy (s : State) (k : Nat) (v : Option KeySlot) : (setSlot s k v).cmdBusy = s.cmdBusy := rfl
@[simp] theorem setSlot_rwdHeld (s : State) (k : Nat) (v : Option KeySlot) : (setSlot s k v).rwdHeld = s.rwdHeld := rfl

@[simp] theorem getChan_modChan_self (s : State) (k : Nat) (f : Chan → Chan) : getChan (modChan s k f) k = f (getChan s k) := by
  unfold getChan modChan; exact tget_tmod_self _ _ _ _
theorem getChan_modChan_ne (s : State) (k i : Nat) (f : Chan → Chan) (h : k ≠ i) : getChan (modChan s k f) i = getChan s i := by
  unfold getChan modChan; exact tget_tmod_ne _ _ _ _ _ h
@[simp] theorem getEng_modEng_self (s : State) (k : Nat) (f : Eng → Eng) : getEng (modEng s k f) k = f (getEng s k) := by
  unfold getEng modEng; exact tget_tmod_self _ _ _ _
theorem getEng_modEng_ne (s : State) (k i : Nat) (f : Eng → Eng) (h : k ≠ i) : getEng (modEng s k f) i = getEng s i := by
  unfold getEng modEng; exact tget_tmod_ne _ _ _ _ _ h
@[simp] theorem getWork_modWork_self (s : State) (k : Nat) (f : Work → Work) : getWork (modWork s k f) k = f (getWork s k) := by
  unfold getWork modWork; exact tget_tmod_self _ _ _ _
theorem getWork_modWork_ne (s : State) (k i : Nat) (f : Work → Work) (h : k ≠ i) : getWork (modWork s k f) i = getWork s i := by
  unfold getWork modWork; exact tget_tmod_ne _ _ _ _ _ h
@[simp] theorem getSess_modSess_self (s : State) (k : Nat) (f : Sess → Sess) : getSess (modSess s k f) k = f (getSess s k) := by
  unfold getSess modSess; exact tget_tmod_self _ _ _ _
theorem getSess_modSess_ne (s : State) (k i : Nat) (f : Sess → Sess) (h : k ≠ i) : getSess (modSess s k f) i = getSess s i := by
  unfold getSess modSess; exact tget_tmod_ne _ _ _ _ _ h
@[simp] theorem getAssoc_modAssoc_self (s : State) (k : Nat) (f : Assoc → Assoc) : getAssoc (modAssoc s k f) k = f (getAssoc s k) := by
  unfold getAssoc modAssoc; exact tget_tmod_self _ _ _ _
theorem getAssoc_modAssoc_ne (s : State) (k i : Nat) (f : Assoc → Assoc) (h : k ≠ i) : getAssoc (modAssoc s k f) i = getAssoc s i := by
  unfold getAssoc modAssoc; exact tget_tmod_ne _ _ _ _ _ h
@[simp] theorem getDie_modDie_self (s : State) (k : Nat) (f : Die → Die) : getDie (modDie s k f) k = f (getDie s k) := by
  unfold getDie modDie; exact tget_tmod_self _ _ _ _
theorem getDie_modDie_ne (s : State) (k i : Nat) (f : Die → Die) (h : k ≠ i) : getDie (modDie s k f) i = getDie s i := by
  unfold getDie modDie; exact tget_tmod_ne _ _ _ _ _ h
@[simp] theorem getSeq_modSeq_self (s : State) (k : Nat) (f : MSeq → MSeq) : getSeq (modSeq s k f) k = f (getSeq s k) := by
  unfold getSeq modSeq; exact tget_tmod_self _ _ _ _
theorem getSeq_modSeq_ne (s : State) (k i : Nat) (f : MSeq → MSeq) (h : k ≠ i) : getSeq (modSeq s k f) i = getSeq s i := by
  unfold getSeq modSeq; exact tget_tmod_ne _ _ _ _ _ h
@[simp] theorem getSpar_modSpar_self (s : State) (k : Nat) (f : Spar → Spar) : getSpar (modSpar s k f) k = f (getSpar s k) := by
  unfold getSpar modSpar; exact tget_tmod_self _ _ _ _
theorem getSpar_modSpar_ne (s : State) (k i : Nat) (f : Spar → Spar) (h : k ≠ i) : getSpar (modSpar s k f) i = getSpar s i := by
  unfold getSpar modSpar; exact tget_tmod_ne _ _ _ _ _ h
@[simp] theorem getPe_modPe_self (s : State) (k : Nat) (f : Pe → Pe) : getPe (modPe s k f) k = f (getPe s k) := by
  unfold getPe modPe; exact tget_tmod_self _ _ _ _
theorem getPe_modPe_ne (s : State) (k i : Nat) (f : Pe → Pe) (h : k ≠ i) : getPe (modPe s k f) i = getPe s i := by
  unfold getPe modPe; exact tget_tmod_ne _ _ _ _ _ h
@[simp] theorem getXf_modXf_self (s : State) (k : Nat) (f : XfDie → XfDie) : getXf (modXf s k f) k = f (getXf s k) := by
  unfold getXf modXf; exact tget_tmod_self _ _ _ _
theorem getXf_modXf_ne (s : State) (k i : Nat) (f : XfDie → XfDie) (h : k ≠ i) : getXf (modXf s k f) i = getXf s i := by
  unfold getXf modXf; exact tget_tmod_ne _ _ _ _ _ h

end Sys2Proof.Machine
end

