-- ==== Sys2Proof/Laws/Sup.lean ====
section
/-! SUPPORT. The laws of a supervisor core's special registers. -/

namespace Sys2Proof.Machine

@[simp] theorem getSup_modSup_self (s : State) (c : Nat) (f : Sup → Sup) : getSup (modSup s c f) c = f (getSup s c) :=
  tget_tmod_self _ _ _ _

theorem getSup_modSup_ne (s : State) (c c' : Nat) (f : Sup → Sup) (h : c ≠ c') : getSup (modSup s c f) c' = getSup s c' :=
  tget_tmod_ne _ _ _ _ _ h

@[simp] theorem getSup_dropResv (s : State) (a c : Nat) : getSup (dropResv s a) c = getSup s c := rfl

@[simp] theorem spr_dropResv (s : State) (a c n : Nat) : spr (dropResv s a) c n = spr s c n := rfl

theorem spr_setSpr (s : State) (c n n' : Nat) (v : Word) : spr (setSpr s c n v) c n' = if n = n' then v else spr s c n' := by
  unfold spr setSpr; rw [getSup_modSup_self]; exact tget_tset _ _ _ _ _

@[simp] theorem spr_setSpr_self (s : State) (c n : Nat) (v : Word) : spr (setSpr s c n v) c n = v := by rw [spr_setSpr, if_pos rfl]

theorem spr_setSpr_ne (s : State) (c n n' : Nat) (v : Word) (h : n ≠ n') : spr (setSpr s c n v) c n' = spr s c n' := by
  rw [spr_setSpr, if_neg h]

/-- A change that leaves the special registers of a core alone. -/
theorem spr_modSup_keep (s : State) (c n : Nat) (f : Sup → Sup) (h : ∀ x, (f x).spr = x.spr) : spr (modSup s c f) c n = spr s c n := by
  unfold spr; rw [getSup_modSup_self, h]

/-- What entry to a level leaves in the special registers (R345). -/
theorem spr_enterLevel (s : State) (c l vec cause detail call : Nat) (addr : Word) (epc n : Nat) :
    spr (enterLevel s c l vec cause detail call addr epc) c n =
      if n = 0 then wput (wput (wput (spr s c zStatus) 1 0 l) (1 + l) (1 + l) 0) (3 + l) (3 + l) 1
      else if n = zLevel l + 4 then addr
      else if n = zLevel l + 3 then w64 (cause * 2 ^ 56 + detail % 2 ^ 8 * 2 ^ 48 + call % 2 ^ 5 * 2 ^ 40)
      else if n = zLevel l + 2 then w64 (wfld (spr s c zStatus) 5 0)
      else if n = zLevel l + 1 then w64 (epc % 2 ^ 51) else spr s c n := by
  unfold enterLevel
  dsimp only
  rw [spr_modSup_keep]
  · simp only [spr_setSpr, spr_dropResv, eq_comm (b := n)]
  · intro x; rfl

/-- What the return from a level leaves in `STATUS` (R345). -/
theorem spr_leaveLevel (s : State) (c l : Nat) :
    spr (leaveLevel s c l) c zStatus =
      wput (wput (wput (spr s c zStatus) 1 0 (wfld (spr s c (zLevel l + 2)) 1 0)) (1 + l) (1 + l)
        (wfld (spr s c (zLevel l + 2)) (1 + l) (1 + l))) (3 + l) (3 + l) 0 := by
  unfold leaveLevel
  dsimp only
  rw [spr_modSup_keep]
  · exact spr_setSpr_self _ _ _ _
  · intro x; rfl

end Sys2Proof.Machine
end

