-- ==== Sys2Proof/Laws/Token.lean ====
section
/-! SUPPORT. What the check of a flit on receipt leaves (R95) where no injection is armed for that detector (R546). -/

namespace Sys2Proof.Machine

theorem recvFlit_clean {f g : Flit} {err : BitVec 160} (s : State) (die block unit det : Nat) (ha : armed s die det block unit 1 = none)
    (h : checkFlit f err = .clean g) :
    recvFlit s die block unit det f err = (some g, s) := by
  unfold recvFlit; rw [ha, h]; rfl

theorem recvFlit_fixed {f g : Flit} {err : BitVec 160} (s : State) (die block unit det : Nat) (ha : armed s die det block unit 1 = none)
    (h : checkFlit f err = .fixed g) :
    recvFlit s die block unit det f err =
      (some g, report (countF s die bSch rSchFlitcnt 15 0 1) die block unit det cCorrected 0x00 0 g.tag 0) := by
  unfold recvFlit; rw [ha, h]; rfl

theorem recvFlit_bad {f : Flit} {t : Word} {err : BitVec 160} (s : State) (die block unit det : Nat) (ha : armed s die det block unit 1 = none)
    (h : checkFlit f err = .bad t) :
    recvFlit s die block unit det f err =
      (none, deferred (countF s die bSch rSchFlitcnt 31 16 1) die block unit det 0x06 0 t 0) := by
  unfold recvFlit; rw [ha, h]; rfl

end Sys2Proof.Machine
end

