-- ==== Sys2Proof/Laws/Vault.lean ====
section
/-! SUPPORT. What a command of the key vault does (spec 15: R475), said once. -/

namespace Sys2Proof.Machine

/-- A key-vault command reads its words, takes its effect or its error, and raises source 0x304. -/
theorem kvRun_eq {s r : State} {cmd src dst : Nat} (hc : ¬(cmd = 0 ∨ 6 ≤ cmd)) (hr : kvRead s cmd = r) :
    kvRun s cmd src dst = (match kvEffect r cmd src dst with
      | .error e => evRaise (setReg r 0 bWad rWadKvcmd (cmd * 2 ^ 27 + e * 2 ^ 24 + src * 2 ^ 12 + dst)) 0 0x304
      | .ok t => evRaise (setReg t 0 bWad rWadKvcmd (cmd * 2 ^ 27 + 0 * 2 ^ 24 + src * 2 ^ 12 + dst)) 0 0x304) := by
  subst hr
  unfold kvRun
  exact if_neg hc

/-- `KV_IMPORT` reads five words. -/
theorem kvRead_import (s : State) : kvRead s 2 = unitRead s 0 (baseOf s 0 bWad rWadKvaddrHi) 5 := if_pos rfl

/-- `KV_DERIVE` reads eight words. -/
theorem kvRead_derive (s : State) : kvRead s 3 = unitRead s 0 (baseOf s 0 bWad rWadKvaddrHi) 8 :=
  (if_neg (by decide)).trans (if_pos rfl)

end Sys2Proof.Machine
end

