-- ==== Sys2Proof/Tests/Slice0.lean ====
section
/-! SUPPORT. Tests: the checks of WellFormed refuse an ill-formed command of each shape, a held mailbox, and, for the statements of
Sys2Proof/Certificates/Slice0/Obligations.lean, states and operands that meet their hypotheses. Each witness is named after its statement. -/

namespace Sys2Proof.Tests
open Sys2Proof.Machine
/- The evaluations run one after another, so that few of them are in memory at a time. -/
set_option Elab.async false

/-! ### WellFormed refuses a command at a die that the part lacks (R2, R3), in each shape of command -/

theorem test_wellFormed_die_refused : WellFormed .p7202 (.purge 2 0) = false ∧ WellFormed .p7404 (.purge 4 0) = false := by decide +kernel
theorem test_wellFormed_pe_refused : WellFormed .p7202 (.runlimit ⟨2, 0, 0⟩) = false := by decide +kernel
theorem test_wellFormed_core_refused :
    WellFormed .p7202 (.reservationTimeout (.pe ⟨2, 0, 0⟩)) = false ∧ WellFormed .p7202 (.reservationTimeout (.sup ⟨2, 0⟩)) = false := by
  decide +kernel
theorem test_wellFormed_supervisor_refused : WellFormed .p7404 (.eventAccept ⟨7, 0⟩) = false := by decide +kernel
theorem test_wellFormed_accepted :
    WellFormed .p7202 (.runlimit ⟨1, 31, 8⟩) = true ∧ WellFormed .p7808 (.eventAccept ⟨7, 7⟩) = true ∧ WellFormed .p7202 .resetNAssert = true := by
  decide +kernel

/-- A block enabled. -/
def on (s : State) (d b : Nat) : State := setF s d b rBlkCtl 0 0 1

/-- The 7808 with AUX and VIN48 present, RESET_N deasserted, and every kind of block of die 0 enabled. -/
def up : State :=
  [bMdr, bEvc, bPrt, bMem, bCoh, bChn, bHxp, bFrl, bWad, bRtl, bSch, bClu 0, bCen 0].foldl (fun s b => on s 0 b)
    { State.reset with mst := { Mst.init with resetN := false }, pw := { Power.init with hv := true } }

/-- A page of 2^18 words at address 0, readable, writable, executable and open to the user. -/
def page (part asid : Nat) : TlbLine := ⟨0, 0, part, asid, 0, 2 ^ 18, w64 (2 ^ 63 + 2 ^ 61 + 2 ^ 60 + 2 ^ 59 + 2 ^ 58), 0⟩

/-- An instance of partition 3. -/
def inst3 : Inst := ⟨w64 (3 * 2 ^ 54), false, 0, 3, 0, 1, [], [], 1, false, 0, .none, 0, 0, 0, 0, 0⟩
/-- PE 0 of spar 0 of die 0, and logical core 0. -/
def pe0 : PeId := ⟨0, 0, 0⟩
def sup0 : SupId := ⟨0, 0⟩
/-- PE 0 runs an instance, and logical core 0 a thread at PL2; both have line 0 in their L1I. -/
def running : State :=
  { up with pes := [(0, { Pe.init with inst := some inst3, cfg := w64 (2 ^ 63), l1i := [0] })],
            sups := [(0, { Sup.init with on := true, l1i := [0] })],
            tlb := [page 3 0, page 0 0], pcache := [⟨0, .pxt, 3, [w64 (2 ^ 63)]⟩, ⟨0, .pxt, 0, [w64 (2 ^ 63)]⟩] }

theorem test_base_live : (dieLive up 0 && sparLive up 0 && engUp up 0 && mstUp up && homeLive up 0 && blkEn up 0 bSch) = true := by
  decide +kernel

/-! ### A mailbox message is stable from its GO to its acknowledgement (R508) -/

/-- The 7404 with the inbound message of partition 3 not acknowledged. -/
def mail3 : State := setMail { up with part := .p7404 } 3 0 true
/-- IACK and IGO in one write: the acknowledgement first, so the message is pending again and nothing is counted. -/
theorem test_mailbox_acknowledged_before_go :
    (let s := prtPulse mail3 (rPrtMbdb + 3) (2 ^ 31 + 2 ^ 30)
     mailBusy s 3 0 = true ∧ getReg s 0 bPrt rPrtMbrej = 0) ∧
    (let s := prtPulse mail3 (rPrtMbdb + 3) (2 ^ 31)
     mailBusy s 3 0 = true ∧ getReg s 0 bPrt rPrtMbrej = 1) := by decide +kernel
/-- A write of a message word while IBUSY is 1 is ignored and counted; with IBUSY 0 it is taken. -/
theorem test_mailbox_word_held :
    (let s := regWrite mail3 0 bPrt (rPrtMbi + 48) 7 (2 ^ 32 - 1) .masthead
     getReg s 0 bPrt (rPrtMbi + 48) = 0 ∧ getReg s 0 bPrt rPrtMbrej = 1) ∧
    (let s := regWrite (mailAck mail3 3 false) 0 bPrt (rPrtMbi + 48) 7 (2 ^ 32 - 1) .masthead
     getReg s 0 bPrt (rPrtMbi + 48) = 7 ∧ getReg s 0 bPrt rPrtMbrej = 0) := by decide +kernel

/-! ### Witnesses of the statements' hypotheses -/

/-- A clean flit of class FRAME for spar 0: partition 3, frame 1, generation 0, codelet 0. -/
def flit3 (port : Nat) : Flit := ⟨mkRoute 0 0 0 0, 0, mkTag 3 1 0 0 port 1, 7⟩
/-- Spar 0 holds the token, with its frame and its codelet of arity `n` cached. -/
def tokenAt (n : Nat) (f : Flit) (m : Tab (Option Match)) : State :=
  { modSpar up 0 fun x =>
      { x with iq := [⟨f, false, false⟩], store := m, fcache := [⟨1, 3, fsLive, 0, 0, 0, 0⟩],
               ccache := [⟨3, 0, 0, 0, 1, 0, 0, w64 (n * 2 ^ 60)⟩] } with
    pcache := [⟨8, .pmt, 3, [w64 (2 ^ 63), 0]⟩, ⟨0, .ppt, 3, [w64 (2 ^ 63 + 64 * 2 ^ 52), 0, 0, 0, 0, 0, 0, 0]⟩] }
/-- The entry of codelet 0 with the operand of port 0. -/
def half3 : Match := newMatch (flit3 0) 2
def set3 : Nat := setHash (tagKey (flit3 0).tag)

/-- What every clause about a token on the hit path asks. -/
def hitPath (s : State) (f : Flit) (n : Nat) : Bool :=
  sparLive s 0 && (nextIq s 0 == some (⟨f, false, false⟩, 0)) && flitCls f != 1 && !itemMode s 0 && !inMiss s 0 (tagKey f.tag)
    && !inEvb s 0 (tagKey f.tag) && ((cachedFrame s 0 3 1).map (·.gen) == some (tagGen f.tag))
    && ((cachedFrame s 0 3 1).any fun fr => (cachedCodelet s 0 fr (tagCodelet f.tag)).any fun cl => wfld cl.entry 63 60 == n)

theorem witness_TokenArrivalFollowsFiringRule_one :
    hitPath (tokenAt 1 (flit3 0) []) (flit3 0) 1 = true ∧ portOk 1 0 = true ∧ neverProduced (flit3 0) = false := by decide +kernel
/-- The three places from which the next token comes: back from the miss buffer, also where the pipeline stands at a token of that key,
where the pipeline stands, and the input queue. -/
theorem witness_TokenArrivalFollowsFiringRule_sources :
    (getSpar (modSpar up 0 fun x => { x with reentry := [flit3 0] }) 0).reentry = [flit3 0] ∧
    (getSpar (modSpar up 0 fun x => { x with reentry := [flit3 0] }) 0).pipe = none ∧
    (let s := modSpar up 0 fun x => { x with reentry := [flit3 0], pipe := some (flit3 1) }
     (getSpar s 0).reentry = [flit3 0] ∧ (getSpar s 0).pipe = some (flit3 1) ∧
     ((getSpar s 0).reentry.any fun x => tagKey x.tag == tagKey (flit3 1).tag) = true) ∧
    (let s := modSpar up 0 fun x => { x with reentry := [{ flit3 0 with tag := 0 }], pipe := some (flit3 0) }
     ((getSpar s 0).reentry.any fun x => tagKey x.tag == tagKey (flit3 0).tag) = false ∧ (getSpar s 0).pipe = some (flit3 0)) ∧
    (let s := tokenAt 1 (flit3 0) []
     (getSpar s 0).reentry = [] ∧ (getSpar s 0).pipe = none ∧ nextIq s 0 = some (⟨flit3 0, false, false⟩, 0) ∧ flitCls (flit3 0) ≠ 1) := by
  decide +kernel
theorem witness_TokenArrivalFollowsFiringRule_misaddressed :
    hitPath (tokenAt 1 (flit3 2) []) (flit3 2) 1 = true ∧ portOk 1 (tagPort (flit3 2).tag) = false ∧
    neverProduced { flit3 0 with kind := 5 } = true ∧ itemMode (setF (tokenAt 1 (flit3 0) []) 0 (bClu 0) rCluSchctl 31 31 1) 0 = true ∧
    (let s := modSpar (tokenAt 1 (flit3 0) []) 0 fun x => { x with fcache := [⟨1, 3, fsLive, 2, 0, 0, 0⟩] }
     ((cachedFrame s 0 3 1).map (·.gen)) = some 2 ∧ tagGen (flit3 0).tag ≠ 2) := by
  decide +kernel
/-- The ways to the miss buffer: the key waits there, is being evicted, has no cached frame, or spilled; with room and without. -/
theorem witness_TokenArrivalFollowsFiringRule_missed :
    (let s := modSpar (tokenAt 2 (flit3 0) []) 0 fun x => { x with miss := [flit3 1] }
     inMiss s 0 (tagKey (flit3 0).tag) = true ∧ (getSpar s 0).miss.length < 64) ∧
    (let s := modSpar (tokenAt 2 (flit3 0) []) 0 fun x => { x with miss := List.replicate 64 (flit3 1) }
     inMiss s 0 (tagKey (flit3 0).tag) = true ∧ 64 ≤ (getSpar s 0).miss.length) ∧
    inEvb (modSpar up 0 fun x => { x with evb := [half3] }) 0 (tagKey (flit3 0).tag) = true ∧ cachedFrame up 0 3 1 = none ∧
    (let s := filterUp (tokenAt 2 (flit3 0) []) 0 3 1
     hitPath s (flit3 0) 2 = true ∧ filterOf s 0 3 1 ≠ 0) := by decide +kernel
theorem witness_TokenArrivalFollowsFiringRule_two :
    (let s := tokenAt 2 (flit3 1) [(8 * set3, some half3)]
     hitPath s (flit3 1) 2 = true ∧ filterOf s 0 3 1 = 0 ∧ wayHit s 0 set3 (tagKey (flit3 1).tag) = some 0 ∧
     wayOf s 0 set3 0 = some half3 ∧ held half3 1 = false ∧ complete (addOperand half3 (flit3 1)) = true) ∧
    (let s := tokenAt 2 (flit3 0) [(8 * set3, some half3)]
     hitPath s (flit3 0) 2 = true ∧ wayHit s 0 set3 (tagKey (flit3 0).tag) = some 0 ∧ held half3 0 = true) ∧
    (let s := tokenAt 3 (flit3 1) [(8 * set3, some { half3 with arity := 3 })]
     hitPath s (flit3 1) 3 = true ∧ complete (addOperand { half3 with arity := 3 } (flit3 1)) = false) := by decide +kernel
/-- Entry `n` of the set of the token's key, of another key. -/
def other3 (n : Nat) : Nat × Option Match := (8 * set3 + n, some { half3 with key := tagKey (flit3 0).tag + 1 + n, age := n })
theorem witness_TokenArrivalFollowsFiringRule_absent :
    (let s := tokenAt 2 (flit3 0) []
     wayHit s 0 set3 (tagKey (flit3 0).tag) = none ∧ (wayFree s 0 set3).isSome = true) ∧
    (let s := tokenAt 2 (flit3 0) ((List.range 8).map other3)
     hitPath s (flit3 0) 2 = true ∧ wayHit s 0 set3 (tagKey (flit3 0).tag) = none ∧ wayFree s 0 set3 = none ∧
     (getSpar s 0).evb.length < 8 ∧ (wayOf s 0 set3 (victim s 0 set3)).isSome = true) ∧
    8 ≤ (getSpar (modSpar up 0 fun x => { x with evb := List.replicate 8 half3 }) 0).evb.length := by decide +kernel

/-- A state with a flit in the miss buffer, a victim of the given key and a flit at ingress. -/
def beside (part : Nat) : State :=
  modSpar (tokenAt 1 (flit3 0) []) 0 fun x =>
    { x with iq := [], miss := [flit3 0], fcache := [], evb := [{ half3 with key := part * 2 ^ 49 }], arr := [flit3 0] }
theorem witness_MatchingUnitMissEvictIngress :
    (let s := beside 9
     let t := unitRead (modSpar s 0 fun x => { x with miss := x.miss.tail }) 0 (descAddr s 0 1) 3
     sparLive s 0 = true ∧ (getSpar s 0).miss = [flit3 0] ∧ inEvb s 0 (tagKey (flit3 0).tag) = false ∧
     (firstBelow 3 fun j => isPoisoned t (descAddr t 0 1 + j)) = none ∧ cachedFrame s 0 3 1 = none ∧ readFrame t 0 3 1 = none ∧
     ptValid (ptFill s 8 .pmt (keyPart (9 * 2 ^ 49))) 8 .pmt (keyPart (9 * 2 ^ 49)) = false ∧ holding s 0 .matcher = false ∧
     half3.dissolving = false ∧ holding s 0 .ingress = false ∧
     atIngress s 0 false = some (flit3 0) ∧ (getSpar s 0).divert = [] ∧ placeFor s 0 (flit3 0) = some false ∧
     checkFlit (flit3 0) 0 = .clean (flit3 0)) ∧
    (let s := ptFill (beside 3) 8 .pmt (keyPart (3 * 2 ^ 49))
     let b := bucketAt s 0 3 (keyFrame (3 * 2 ^ 49))
     ptValid s 8 .pmt (keyPart (3 * 2 ^ 49)) = true ∧ (findLine (notePoison (unitRead s 0 b 256) 0 b) b fun w0 _ => !wbit w0 63).isSome = true) ∧
    (match checkFlit (flit3 0) 3 with | .bad _ => true | _ => false) = true := by decide +kernel
theorem witness_MatchingUnitMissEvictIngress_injection :
    (let s := beside 9
     armed (leaveIngress s 0 false) 0 0x0111 (bClu 0) 0xFF 1 = none ∧ tagPart (flit3 0).tag ∉ (getSpar s 0).divert ∧
     (recvFlit (leaveIngress s 0 false) 0 (bClu 0) 0xFF 0x0111 (flit3 0) 0).1 = some (flit3 0)) ∧
    (let s := modDie (beside 9) 0 fun x => { x with inj := some ⟨1, bClu 0, 0xFF, 0x0111, 1, 3⟩ }
     (armed (leaveIngress s 0 false) 0 0x0111 (bClu 0) 0xFF 1).isSome = true ∧
     (recvFlit (leaveIngress s 0 false) 0 (bClu 0) 0xFF 0x0111 (flit3 0) 0).1 = none) := by decide +kernel
/-- Frame 1 of partition 3 LIVE in memory. -/
def frame3 (s : State) : State := poke (poke s (descAddr s 0 1) (w64 (3 * 2 ^ 54 + 2 ^ 46))) 300 1
theorem witness_MatchingUnitMissEvictIngress_live :
    let s := unitRead (modSpar (frame3 (beside 3)) 0 fun x => { x with miss := [] }) 0 (descAddr up 0 1) 3
    (readFrame s 0 3 1).any (fun fr => fr.gen == 0 && (cachedCodelet (cacheFrame s 0 fr) 0 fr 0).any fun cl => wfld cl.entry 63 60 ≤ 1) = true := by
  decide +kernel
theorem witness_MatchingUnitMissEvictIngress_diversion :
    stuckAt (modSpar up 0 fun x => { x with arr := [flit3 0], iq := List.replicate 16 ⟨flit3 0, false, false⟩ }) 0 3 = true ∧
    iqHeld (getSpar up 0) 3 ≤ pptQshare up 0 3 / 2 := by decide +kernel

/-- The spill ring of spar 0 with one slot written: a token of partition 3. -/
def ring3 : State := writeSlot (poke up (sprBase up 0) 1) 0 0 0 (flit3 0).tag 7 0 8
theorem witness_SpillRingProtocolAndPurge :
    (dieLive up 0 && sparLive up 0) = true ∧
    (let t := unitRead (farAdd up 0 (sprBase up 0) 1).2 0 (sprBase up 0 + 1) 1
     (peek up (sprBase up 0)).toNat - (peek t (sprBase up 0 + 1)).toNat < 2 ^ 20) ∧
    (let b := sprBase ring3 0
     let t := unitRead (unitRead ring3 0 (b + 1) 1) 0 (b + 16) 4
     (firstBelow 4 fun j => isPoisoned t (b + 16 + j)) = none ∧ isPoisoned ring3 (b + 1) = false ∧ wbit (peek ring3 (b + 18)) 63 = true ∧
     peek ring3 (b + 1) = 0 ∧ wfld (peek ring3 (b + 18)) 31 0 = 0 ∧ (getSpar ring3 0).iq.length < 1024) ∧
    (let s := tokenAt 1 { flit3 0 with route := mkRoute 0 1 0 0 } []
     ((nextIq s 0).map fun p => (flitCls p.1.flit, routeBad p.1.flit)) = some (1, false) ∧ (getSpar s 0).pipe = none ∧
     (getSpar s 0).reentry = [] ∧ (getSpar s 0).purges.length < 16) ∧
    (let s := tokenAt 1 { flit3 0 with route := mkRoute 3 1 0 0 } []
     ((nextIq s 0).map fun p => (flitCls p.1.flit, routeBad p.1.flit)) = some (1, true)) ∧
    (let s := modSpar up 0 fun x => { x with purges := [(flit3 0).tag], holds := [⟨0, (flit3 0).tag, 7, 0, 8, .manager⟩, ⟨0, 0, 7, 0, 8, .link 0 1⟩] }
     (getSpar s 0).purges = [(flit3 0).tag] ∧ (getHw s 3).destroying = false ∧ destroyingPart s = none ∧
     ((getSpar s 0).holds.map (·.producer)) = [.manager, .link 0 1] ∧
     0 - (peek (unitRead s (holderDie 0 .manager) (sprBase s 0 + 1) 1) (sprBase s 0 + 1)).toNat < 2 ^ 20) ∧
    (getHw (modHw up 3 fun h => { h with destroying := true }) 3).destroying = true := by decide +kernel
theorem witness_SpillRingProtocolAndPurge_poisoned :
    let b := sprBase up 0
    let s : State := { up with poison := [(b, true)] }
    let t : State := { up with poison := [(b + 1, true)] }
    isPoisoned s b = true ∧ (firstBelow 2 fun j => isPoisoned (unitRead s 0 b 2) (b + j)) = some 0 ∧
    isPoisoned t b = false ∧ isPoisoned (unitRead (farAdd t 0 b 1).2 0 (b + 1) 1) (b + 1) = true ∧
    (firstBelow 2 fun j => isPoisoned (unitRead up 0 b 2) (b + j)) = none := by decide +kernel
theorem witness_SpillRingProtocolAndPurge_generations :
    let u := modHw up 3 fun h => { h with destroying := true }
    (getHw u 3).destroying = true ∧ (tagGen (mkTag 3 5 63 0 0 0) + 1) % 64 = frGen u 0 5 ∧ (tagGen (mkTag 3 5 0 0 0 0) + 1) % 64 ≠ frGen u 0 5 := by
  decide +kernel
theorem witness_SpillRingProtocolAndPurge_full :
    let s := poke up (sprBase up 0) (w64 (2 ^ 20))
    2 ^ 20 ≤ (peek s (sprBase s 0)).toNat - (peek (unitRead (farAdd s 0 (sprBase s 0) 1).2 0 (sprBase s 0 + 1) 1) (sprBase s 0 + 1)).toNat := by
  decide +kernel

/-- A flit at router 0's unit port for spar 1, one in a sender's queue of link 0 of die 0, one at its ESCAPE receiver. -/
def meshed : State :=
  modDie up 0 fun x => { x with
    routers := [(0, { Router.init with q := [(8, [flit3 0]), (9, [{ flit3 0 with route := mkRoute 1 0 0 1 }])] })]
    links := [(0, { Link.init with tx := [(0, [(flit3 0, true)]), (1, [(flit3 0, true)])], used := [(0, 31)], back := [(0, 1)], esc := some (flit3 0) })] }
theorem witness_MeshAndLinksMoveFlits :
    dieLive meshed 0 = true ∧ stationLive meshed 0 0 = true ∧ (getLink meshed 0 0).out = false ∧ (getLink meshed 0 0).escUsed = false ∧
    tget (fun _ => []) (getLink meshed 0 0).tx 0 = [(flit3 0, true)] ∧ flitCls (flit3 0) ≠ 2 ∧
    poolCredits 0 0 - tget (fun _ => 0) (getLink meshed 0 0).used 0 < 2 ∧ 2 ≤ poolCredits 0 1 - tget (fun _ => 0) (getLink meshed 0 0).used 1 ∧
    0 < tget (fun _ => 0) (getLink meshed 0 0).back 0 ∧ (getLink meshed 0 0).esc = some (flit3 0) ∧ checkFlit (flit3 0) 0 = .clean (flit3 0) ∧
    linkPeer meshed 1 1 = (0, 0) ∧ (tokenSlot meshed 0 0).isSome = true ∧
    (recvFlit (modLink meshed 0 0 fun l => { l with esc := none }) 0 bSys 0 0x0401 (flit3 0) 0).1 = some (flit3 0) ∧
    (getDie meshed 0).withdrawn = false ∧
    (let t := modLink meshed 0 0 fun l => { l with esc := none }
     ((getSpar (appendSlot t 0 0 (.link 0 0) 0 7 0 8) 0).holds.any fun h => h.producer == .link 0 0) = false ∧
     ((getSpar (appendSlot (poke t (sprBase t 0) (w64 (2 ^ 20))) 0 0 (.link 0 0) 0 7 0 8) 0).holds.any fun h => h.producer == .link 0 0) = true) := by
  decide +kernel

theorem witness_MeshAndLinksMoveFlits_hops :
    (hopCandidates meshed 0 0 .unit 0).head?.isSome = true ∧ hopCandidates meshed 0 0 .unit 1 = [] ∧
    (hopCandidates meshed 0 0 .east 1).head?.isSome = true ∧ hopCandidates meshed 0 0 .east 0 = [] := by decide +kernel

/-- Table entries of partition 3 at die 0: matching, scheduling with item spar 1 and 32 item slots, progress with one gate, execution. -/
def tables3 (s : State) : State :=
  { s with pcache := [⟨0, .pmt, 3, [w64 (2 ^ 63), 4096]⟩, ⟨8, .pmt, 3, [w64 (2 ^ 63), 4096]⟩, ⟨264, .pmt, 3, [w64 (2 ^ 63), 4096]⟩,
      ⟨0, .pst, 3, [w64 (2 ^ 63 + 2 ^ 43 + 5 * 2 ^ 38), 8192]⟩, ⟨8, .pst, 3, [w64 (2 ^ 63 + 2 ^ 43 + 5 * 2 ^ 38), 8192]⟩,
      ⟨0, .ppt, 3, [w64 (2 ^ 63 + 64 * 2 ^ 52 + 8 * 2 ^ 40 + 2 * 2 ^ 24 + 2 * 2 ^ 16 + 2 ^ 15), 16384, 0, 0, 0, 0, 0, 0]⟩,
      ⟨0, .pxt, 3, [w64 (2 ^ 63 + 10 * 2 ^ 52), w64 (64 * 2 ^ 14), 0, 32768, 0, 0, 0, 0]⟩,
      ⟨0, .pxt, 0, [w64 (2 ^ 63)]⟩],
            tlb := [page 3 0, page 0 0, { page 3 0 with unit := 1 }] }
/-- Spar 0 with ready entries: one of level 2, and one whose flow key is on its way. -/
def ready3 : State :=
  modSpar (tables3 up) 0 fun x => { x with rl := [{ inst3 with level := 2 }, { inst3 with flow := .keyWait, body := 512, key := 4 }],
                                           staging := [⟨1, 2, 3, 4⟩] }
/-- Logical core 1 has line 32 and a hold of its `lr` on it, so that a request to the line waits. -/
def taken32 (s : State) : State := { ((lineForWrite s 257 32).map (·.2)).getD s with resvs := [⟨supAgent 1, 512, true⟩] }
theorem witness_ReadyListsDispatchItemsAndRatline :
    sparLive ready3 0 = true ∧ hasPlace ready3 0 3 1 = true ∧ ready3.pw.level2 = false ∧
    (let s := { ready3 with pw := { ready3.pw with level2 := true } }
     (minBy (fun i => if dispatchable s 0 (availableSlots s 0).length i then rlKey i else 2 ^ 80) (getSpar s 0).rl).any
       (fun p => dispatchable s 0 (availableSlots s 0).length p.1) = true) ∧
    ((getSpar ready3 0).rl[1]?.map (·.flow)) = some .keyWait ∧
    (let u := xlateNote ready3 (codeletCtx 0 3 0) 516
     (translate u (codeletCtx 0 3 0) .read 516).toOption = some 516 ∧ backed u 516 = true ∧
     ((lineForRead u 0 32).any fun t => !l2Poisoned t 0 516 && arbiterExists t 0 inst3 (l2Word t 0 516)) = true ∧
     (lineForRead (taken32 u) 0 32).isSome = false) ∧
    (dieLive ready3 0 && blkEn ready3 0 bRtl) = true ∧ (getSpar ready3 0).staging = [⟨1, 2, 3, 4⟩] ∧
    bitOf (getReg ready3 0 bRtl rRtlCfg) 31 = false := by decide +kernel
/-- Spar 0 in item mode for partition 3 with a valid item in slot 0 of its ring. -/
def item3 : State :=
  [(8192 + 16, w64 512), (8192 + 17, 0), (8192 + 20, w64 (2 ^ 63)), (512, w64 (2 ^ 46))].foldl (fun s p => poke s p.1 p.2)
    (setF (setF (tables3 up) 0 (bClu 0) rCluSchctl 31 31 1) 0 (bClu 0) rCluSchctl 25 16 3)
theorem witness_ReadyListsDispatchItemsAndRatline_item :
    itemMode item3 0 = true ∧ ptValid item3 8 .pst 3 = true ∧ pstIv item3 8 3 = true ∧ pstItemBase item3 8 3 = 0 ∧
    itemRing item3 8 3 0 = 8192 ∧ peek item3 8193 = 0 ∧ ((List.range 5).all fun k => !isPoisoned item3 (8192 + 16 + k)) = true ∧
    wbit (peek item3 (8192 + 20)) 63 = true ∧ wfld (peek item3 (8192 + 20)) 31 0 = 0 ∧
    hasPlace item3 0 3 (itemLevel (peek item3 (8192 + 17))) = true ∧ wfld (peek item3 (8192 + 17)) 31 0 = 0 ∧
    (itemCode item3 (codeletCtx 0 3 0) 512 0).isSome = true := by decide +kernel

def who3 : FlowWho := ⟨0, 1, false⟩
/-- A state with one flow message of the given kind and the given entries of die 0's arbiter. -/
def flow3 (k : FlowKind) (l : List FlowEntry) : State :=
  { modDie ready3 0 (fun x => { x with flows := l }) with flowMsgs := [⟨k, 0, 3, 9, 0, 5, who3⟩] }
theorem witness_FlowArbiterGrantsInOrder :
    (dieLive up 0 && blkEn up 0 bSch) = true ∧ (flow3 .request []).flowMsgs[0]? = some ⟨.request, 0, 3, 9, 0, 5, who3⟩ ∧
    ((flows (flow3 .request []) 0).any (sameFlow 3 9)) = false ∧
    ((flows (flow3 .request [⟨3, 9, 1, 6, true, false, who3⟩]) 0).any (sameFlow 3 9)) = true ∧
    ((flows (flow3 .request [⟨3, 9, 1, 6, true, false, who3⟩]) 0).any fun e => e.reserved && e.spar == 0) = false ∧
    ((flows (flow3 .release [⟨3, 9, 0, 5, true, true, who3⟩]) 0).zipIdx.find? fun p => p.1.held && sameFlow 3 9 p.1 && p.1.spar == 0).isSome = true ∧
    ((flows (flow3 .cancel [⟨3, 9, 0, 5, false, true, who3⟩]) 0).zipIdx.find? fun p =>
      !p.1.held && sameFlow 3 9 p.1 && p.1.spar == 0 && p.1.slot == 5).isSome = true ∧
    (let s := modSpar up 0 fun x => { x with rl := [{ inst3 with flow := .refused, slot := 5, key := 9 }] }
     ((getSpar s 0).rl.zipIdx.find? fun p => p.1.flow == .refused && p.1.slot == 5).isSome = true) ∧
    (let s := modSpar up 0 fun x => { x with rl := [{ inst3 with flow := .requested, slot := 5, key := 9 }] }
     ((getSpar s 0).rl.zipIdx.find? fun p => p.1.flow == .requested && p.1.slot == 5 && p.1.part == 3 && p.1.key == 9).isSome = true) := by
  decide +kernel
/-- A message of die 1 to die 0's arbiter, over a link whose next slot is the token class's. -/
def far3 : FlowMsg := ⟨.request, 0, 3, 9, 32, 5, who3⟩
def behindTokens : State :=
  modLink (modLink { up with flowMsgs := [far3] } 1 0 fun l => { l with tx := [(0, [(flit3 0, false)])] }) 1 1 fun l =>
    { l with tx := [(0, [(flit3 0, false)])] }
theorem witness_FlowArbiterGrantsInOrder_cross :
    (flowCross (flow3 .request []) ⟨.request, 0, 3, 9, 0, 5, who3⟩).isSome = true ∧ behindTokens.flowMsgs[0]? = some far3 := by decide +kernel
theorem witness_FlowArbiterGrantsInOrder_waits : flowCross behindTokens far3 = none := by
  have h1 : ringWay behindTokens (nDies behindTokens.part) 1 0 = [(1, 1)] := by decide +kernel
  have h2 : linkGrants behindTokens 1 1 .coherence = false := by decide +kernel
  have h3 : flowEnds far3 = (1, 0) := by decide
  unfold flowCross cohCross; rw [h3, h1]; simp [h2]
theorem witness_FlowArbiterGrantsInOrder_full :
    let s := flow3 .request (⟨3, 1, 0, 0, true, true, who3⟩ :: List.replicate (4096 - 256) ⟨4, 2, 1, 6, true, false, who3⟩)
    ((flows s 0).any fun e => e.reserved && e.spar == 0) = true ∧
    ¬((flows s 0).filter fun e => !e.reserved).length < 4096 - 32 * nDies s.part ∧ ringWay s (nDies s.part) 0 0 = [] := by decide +kernel
/-- Token flits wait on the link from die 0 to die 1. -/
def aheadOfTokens : State := modLink up 0 0 fun l => { l with tx := [(0, [(flit3 0, false)])] }
theorem witness_FlowArbiterGrantsInOrder_refusals (s : State) (h : ringWay s (nDies s.part) 0 0 = []) :
    cohCross s 0 0 = some s ∧ cohCross aheadOfTokens 0 1 = none := by
  have h1 : ringWay aheadOfTokens (nDies aheadOfTokens.part) 0 1 = [(0, 0)] := by decide +kernel
  have h2 : linkGrants aheadOfTokens 0 0 .coherence = false := by decide +kernel
  refine ⟨by unfold cohCross; rw [h]; rfl, ?_⟩
  unfold cohCross; rw [h1]; simp [h2]

/-- A notice and a gate message; the gate's line holds `LIMIT` 2 and `COUNT` 1. -/
def gated3 (release : Bool) : State :=
  { poke (tables3 up) 16384 (w64 (2 * 2 ^ 32 + 1)) with
    notices := [⟨0, 0, 3, true⟩], gateMsgs := [⟨0, ⟨release, 3, 0, 0, 0, 512, 0⟩⟩], gateWaits := [(0, 3, 0)] }
theorem witness_AdmissionNoticesAndLoopGates :
    (let s := gated3 false
     dieLive s 0 = true ∧ blkEn s 0 bSch = true ∧ s.notices[0]? = some ⟨0, 0, 3, true⟩ ∧
     gateExists s 0 3 0 = true ∧ gateWaiters s 0 3 0 < 2 ^ pptLog2W s 0 3 ∧ wfld (peek s (gateLine s 0 3 0)) 63 32 ≠ 0 ∧
     wfld (peek s (gateLine s 0 3 0)) 31 0 ≠ 0 ∧ gateExists s 0 3 1 = false ∧ s.gateWaits.contains (0, 3, 0) = true) ∧
    (let s := poke (gated3 false) (16384 + 1) (w64 (4 * 2 ^ 32))
     2 ^ pptLog2W s 0 3 ≤ gateWaiters s 0 3 0) ∧ (readClean { gated3 false with poison := [(16384, true)] } 0 16384 4).1 = false ∧
    (readClean (gated3 false) 0 16384 4).1 = true ∧
    (let s := poke (gated3 true) 16384 (w64 (2 * 2 ^ 32))
     (s.gateMsgs.map (·.op.release)) = [true] ∧ wfld (peek s (gateLine s 0 3 0)) 31 0 = 0) := by decide +kernel

/-- Partition 3 LIVE in memory with frame 1 free. -/
def live3 (s : State) : State := modHw (poke (tables3 s) (ptAddr s 0 .pxt 3 + 7) (w64 (2 ^ 62))) 3 fun h => { h with free := [1] }
theorem witness_LuffDetectorCountsStuckIntervals :
    up.fatal = false ∧ (dieLive up 0 && blkEn up 0 bSch) = true ∧ ptValid up 0 .ppt 3 = false ∧
    (let s := setLuff (live3 up) 3 ⟨1, true, false, true, false, 0, true⟩
     let t := (luffLive s 3).2
     (getLuff s 3).due = true ∧ ptValid s 0 .ppt 3 = true ∧ pptLuffw s 0 3 ≠ 0 ∧ (luffLive s 3).1 = true ∧
     (if (getLuff t 3).fired then 0 else if (getLuff t 3).pend && !(getLuff t 3).opened then (getLuff t 3).run + 1 else 0) = pptLuffw t 0 3 ∧
     ((getLuff t 3).fired || (getLuff t 3).armed) = true) ∧
    (let s := setLuff (live3 up) 3 ⟨0, false, false, false, false, 0, true⟩
     let t := (luffLive s 3).2
     (getLuff s 3).due = true ∧ (luffLive s 3).1 = true ∧ ((getLuff t 3).fired || (getLuff t 3).armed) = false) ∧
    (let s := setLuff (poke (live3 up) (ptAddr (tables3 up) 0 .pxt 3 + 7) 0) 3 ⟨0, false, false, false, false, 0, true⟩
     (getLuff s 3).due = true ∧ ptValid s 0 .ppt 3 = true ∧ pptLuffw s 0 3 ≠ 0 ∧ (luffLive s 3).1 = false) := by decide +kernel

/-- Die 0's ledger of 256 entries from word 65,536, with entry 0 of partition 3 in a state, of a kind, owned by engine 0. Its
descriptor is at word 1,024. -/
def ledger (s : State) (st kind : Nat) : State :=
  [(65536, w64 (st * 2 ^ 60 + kind * 2 ^ 44)), (65539, w64 (3 * 2 ^ 54)), (65541, 1024)].foldl (fun s p => poke s p.1 p.2)
    (setReg (setReg s 0 bChn rChnLdgcount 256) 0 bChn rChnLdgbaseLo 65536)
/-- `tryAlloc` gives a handle. -/
def gives (a : Alloc) : Bool := match a with | .got _ _ _ => true | _ => false
theorem witness_InboundFetchAndTrapComplete :
    (let s := modChan (ledger (live3 up) lOpen xkRecv) 0 fun c => { c with inbound := [⟨0, 0, 0, 0⟩] }
     dieLive s 0 = true ∧ chanLost s 0 = false ∧ (getChan s 0).inbound[0]? = some ⟨0, 0, 0, 0⟩ ∧ ptFill s 0 .ppt 3 = s ∧ entPart s 0 = 3 ∧
     gives (tryAlloc s (uCen (entOwner s 0)) 3 (entAsid s 0)) = true ∧
     tryAlloc (modHw s 3 fun h => { h with free := [] }) (uCen 0) 3 0 = .empty ∧
     tryAlloc (modHw s 3 fun h => { h with destroying := true }) (uCen 0) 3 0 = .closed ∧
     ((getChan (countAllocFail s 0 3 true) 0).inbound.any (·.index == 0)) = true) ∧
    (let s := modSpar (tables3 up) 0 fun x => { x with fetches := [⟨3, 512, 512, (flit3 0).tag⟩] }
     sparLive s 0 = true ∧ (getSpar s 0).fetches[0]? = some ⟨3, 512, 512, (flit3 0).tag⟩ ∧
     isPoisoned (unitRead (modSpar s 0 fun x => { x with fetches := [] }) 0 512 1) 512 = false ∧ homeOf s 8 3 1 = some 0) ∧
    (let s := { tables3 up with traps := [⟨0, 0, 0, 0, 0, 3, 1, 0, false, 0, 0, 0, 0, 0⟩, ⟨0, 0, 0, 0, 0, 3, 1, 0, true, 0, 0, 0, 0, 0⟩] }
     let a := pxtTrbase s 0 3 + 16
     ptValid s 0 .pxt 3 = true ∧ (s.traps.map (·.byTrap)) = [false, true] ∧
     (farAdd (ptFill s 0 .pxt 3) 0 (pxtTrbase s 0 3) 1).1 = 0 ∧ isPoisoned s a = false ∧ peek s a = 0 ∧
     peek (poke s a 1) a ≠ 0) := by decide +kernel
theorem witness_InboundFetchAndTrapComplete_poisoned :
    let s : State := { tables3 up with poison := [(pxtTrbase (tables3 up) 0 3, true), (pxtTrbase (tables3 up) 0 3 + 16, true)] }
    ptValid s 0 .pxt 3 = true ∧ isPoisoned s (pxtTrbase s 0 3) = true := by decide +kernel

theorem witness_FetchFailuresAndExceptionEntry :
    coreIssues { running with tlb := [] } (.pe pe0) = true ∧ (fetchFail { running with tlb := [] } (.pe 0) 0 1).isSome = true ∧
    coreIssues { running with tlb := [] } (.sup sup0) = true ∧ (fetchFail { running with tlb := [] } (.sup 0) 0 1).isSome = true ∧
    (fetchInstr { running with tlb := [] } (.pe 0) 0 1).isSome = true ∧ (fetchInstr { running with tlb := [] } (.sup 0) 0 1).isSome = true := by
  decide +kernel

/-- The core issues an instruction of `n` parcels at 0, and its fetch leaves the state as it was. -/
def issues (s : State) (core : CoreId) (n : Nat) : Bool :=
  coreIssues s core && hartPc s (hartOf core) == 0 && fetchFail s (hartOf core) 0 n == none && fetchInstr s (hartOf core) 0 n == some s
/-- Such a state meets the premise of the statements about instructions, with `t` the state itself. -/
theorem runs_of_issues {s : State} {core : CoreId} {n : Nat} (h : issues s core n = true) : Runs s core n (hartOf core) 0 s := by
  simp only [issues, Bool.and_eq_true, beq_iff_eq] at h
  exact ⟨h.1.1.1, rfl, h.1.1.2.symm, h.1.2, h.2⟩
theorem witness_every_length :
    ∀ n ∈ [1, 2, 3, 4], issues running (.pe pe0) n = true ∧ issues running (.sup sup0) n = true := by decide +kernel

/-- Logical core 0 at a level of privilege. -/
def atLevel (l : Nat) : State := modSup running 0 fun x => { x with spr := tset sprReset x.spr 0 (w64 l) }
theorem witness_ControlInstructionsComplete :
    issues running (.pe pe0) 1 = true ∧ issues running (.sup sup0) 1 = true ∧ levelOf running 0 = 2 ∧
    wfld (spr running 0 (zLevel 2 + 2)) 1 0 ≤ 2 ∧ issues (atLevel 1) (.sup sup0) 1 = true ∧ levelOf (atLevel 1) 0 = 1 ∧
    (ownHeld running 0).isSome = true ∧
    (let s := taken32 (modPe running 0 fun x => { x with sb := [(513, some 1)] })
     issues s (.pe pe0) 1 = true ∧ ownHeld s 0 = none) := by decide +kernel
/-- Logical core 0 at level 1 with level 2 saved, and at level 0. -/
theorem witness_ControlInstructionsComplete_eret :
    (let s := modSup (atLevel 1) 0 fun x => { x with spr := tset sprReset x.spr (zLevel 1 + 2) 2 }
     issues s (.sup sup0) 1 = true ∧ levelOf s 0 = 1 ∧ 1 < wfld (spr s 0 (zLevel 1 + 2)) 1 0) ∧
    issues (atLevel 0) (.sup sup0) 1 = true ∧ levelOf (atLevel 0) 0 = 0 := by decide +kernel
theorem witness_IntegerInstructionsComplete :
    issues running (.pe pe0) 2 = true ∧ intReg 0 2 1 2 = some 3 ∧ intReg 511 2 1 2 = none ∧ (posLen 0).isSome = true ∧ fld 5 13 7 = 0 ∧
    ([Encoding.sub 9, .op2 1, .op3 4, .op4 2, .fn 8 0x3FF].all fun e => !assigned e && issues running (.pe pe0) (encParcels e)) = true := by
  decide +kernel
/-- Logical core 0 with its trap enables set. -/
def trapping : State := modSup running 0 fun x => { x with spr := [(1, 63)] }
theorem witness_WideArithmeticCompletes :
    issues running (.sup sup0) 2 = true ∧ getD running (.sup 0) 1 = 0 ∧ bitOf (trapen running (.sup 0)) 5 = false ∧
    issues trapping (.sup sup0) 2 = true ∧ bitOf (trapen trapping (.sup 0)) 5 = true ∧
    (let s := setD running (.sup 0) 1 7
     issues s (.sup sup0) 2 = true ∧ getD s (.sup 0) 1 ≠ 0) := by decide +kernel
theorem witness_DecimalCompletes :
    (let s := setD (setD running (.sup 0) 1 0xC) (.sup 0) 2 0xAAC
     issues s (.sup sup0) 2 = true ∧ issues s (.pe pe0) 2 = true ∧
     (decResult 0 false ((getD s (.sup 0) 1).setWidth 128) ((getD s (.sup 0) 1).setWidth 128)).isSome = true ∧
     (decResult 1 false ((getD s (.sup 0) 1).setWidth 128) ((getD s (.sup 0) 1).setWidth 128)).isSome = true ∧
     decResult 1 false ((getD s (.sup 0) 2).setWidth 128) ((getD s (.sup 0) 1).setWidth 128) = none) ∧
    (let s := modSpar up 0 fun x => { x with decWait := [⟨0, 0, false, 1, 0xC, 0xC, true⟩] }
     sparLive s 0 = true ∧ (getSpar s 0).decRun = none ∧ (decNext (getSpar s 0)).isSome = true) ∧
    leader up 0 = 0 ∧ (getPe up 0).pair = none ∧
    (let s := modPe (modPe running 0 fun x => { x with pair := some (true, 1) }) 1 fun x => { x with pair := some (false, 0) }
     issues s (.pe pe0) 2 = true ∧ (getPe s 0).pair = some (true, 1) ∧ leader s 1 ≠ 1) := by decide +kernel
/-- Spar 0's sequencer serves a request, under stores whose first nano-word is `n` and whose microwords are 0. -/
def sequencing (live : Bool) (n : Nat) : State :=
  { modSpar up 0 fun x => { x with decRun := some ⟨0, 0, false, 1, 0xC, 0xC, live⟩ } with ustores := ⟨[], [], [], [(0, n)], true⟩ }
/-- How the request ends: 0 END, 1 DEXC, 2 as a micro-trap would. -/
def endsBy : SeqEnd → Nat
  | .result _ _ => 0
  | .dexc => 1
  | .fault _ => 2
  | .runs => 3
theorem witness_DecimalCompletes_ends :
    ([true, false].all fun live =>
      [(2 ^ 96, 0), (4 * 2 ^ 96, 1), (2 ^ 104, 2)].all fun p =>
        let s := sequencing live p.1
        ((getSpar s 0).decRun.any fun j => j.live == live && endsBy (seqEnd s 0 j) == p.2 && (decResult j.op j.wide j.a j.b).isSome)) = true ∧
    endsBy (seqEnd up 0 ⟨0, 0, false, 1, 0xC, 0xC, true⟩) = 3 ∧ decResult 0 false 0xAAC 0xC = none := by decide +kernel
theorem witness_FloatingPointCompletes :
    issues running (.sup sup0) 2 = true ∧ roundMode running (.sup 0) 0 = some 0 ∧
    (fpRounded (fpFmt true) 0 0 2 0 0 0).any (fun r => r.2 &&& (trapen running (.sup 0) % 32) == 0) = true ∧
    (convert 1 0 0).any (fun r => r.2 &&& (trapen running (.sup 0) % 32) == 0) = true ∧
    issues trapping (.sup sup0) 2 = true ∧
    (fpRounded (fpFmt true) 0 3 2 0 0 0).any (fun r => r.2 &&& (trapen trapping (.sup 0) % 32) != 0) = true := by decide +kernel
theorem witness_BranchesAndJumpsComplete :
    issues running (.pe pe0) 2 = true ∧ getD running (.pe 0) 1 = getD running (.pe 0) 2 ∧
    (let s := setD running (.pe 0) 1 (-1)
     issues s (.pe pe0) 2 = true ∧ getD s (.pe 0) 1 ≠ getD s (.pe 0) 2 ∧ (getD s (.pe 0) 1).slt (getD s (.pe 0) 2) = true) := by decide +kernel

/-- A memory operand at the address in A register 0, of register 1. -/
def at0 : MemOp := ⟨1, 0, 0, 0, .d9 0⟩
/-- What an access answers: 0 a value, 1 a failure, 2 a wait. -/
def gets {α : Type} (g : Got α) : Nat := match g with | .ok _ _ => 0 | .bad _ _ _ => 1 | .wait => 2
/-- PE 0 and core 0 with `a` in A register 0. -/
def pointing (a : Nat) : State := setA (setA running (.pe 0) 0 a) (.sup 0) 0 a
theorem witness_RegisterInstructionsLeaveTheRest :
    issues running (.sup sup0) 2 = true ∧ intReg 0 2 (getD running (.sup 0) 1) (getD running (.sup 0) 2) = some 0 ∧
    answersNext (exec (.intRegOp (.sup sup0) 3 1 2 0) running) = true ∧
    answersNext (exec (.intImmOp (.sup sup0) (.ri .addi 3 1 5)) running) = true ∧
    answersNext (exec (.intImmOp (.sup sup0) (.ri .addai 3 1 5)) running) = true ∧
    ([0, 1, 2, 5, 6, 7].all fun fn => answersNext (exec (.classMove (.sup sup0) (.rr 3 1 0 fn)) running)) = true ∧
    answersNext (exec (.classMove (.sup sup0) (.rr 3 1 2 3)) running) = true := by decide +kernel
theorem witness_StoresChangeOnlyTheirWord :
    (let s := pointing 512
     let u := xlateNote s (hartCtx s (.sup 0)) 512
     issues s (.sup sup0) (dispLen at0.disp) = true ∧ effective s (.sup 0) at0 false = some (512, 512) ∧
     (translate s (hartCtx s (.sup 0)) .write 512).toOption = some 512 ∧ backed u 512 = true ∧ homesQuiet u = true ∧
     ((lineForWrite u 256 32).any fun q => strayOf q.2 256 32 == none && ownsLine q.2 256 32) = true ∧
     answersNext (exec (.st (.sup sup0) at0) s) = true) ∧
    (let s := modPe (pointing 512) 0 fun x => { x with sb := [(513, some 1)] }
     issues s (.pe pe0) (dispLen at0.disp) = true ∧ effective s (.pe 0) at0 false = some (512, 512) ∧ isScratch 512 = false ∧
     (translate s (hartCtx s (.pe 0)) .write 512).toOption = some 512 ∧
     (scopeLines (getPe (xlateNote s (hartCtx s (.pe 0)) 512) 0)).contains 32 = true ∧
     answersNext (exec (.st (.pe pe0) at0) s) = true) ∧
    (let s := pointing 512
     let u := xlateNote s (hartCtx s (.pe 0)) 512
     (scopeLines (getPe u 0)).length < 16 ∧ homesQuiet u = true ∧ answersNext (exec (.st (.pe pe0) at0) s) = true) := by decide +kernel
/-- A page at word 2^30 that maps device space of die 0. -/
def devPage (part : Nat) : TlbLine := ⟨0, 0, part, 0, 2 ^ 30, 2 ^ 18, w64 (2 ^ 63 + 2 ^ 61 + 2 ^ 60 + 2 ^ 59 + 2 ^ 58 + 2 ^ 57 + 2 ^ 47), 0⟩
theorem witness_LoadsAndStoresComplete :
    (let s := pointing 512
     issues s (.pe pe0) 2 = true ∧ effective s (.pe 0) at0 false = some (512, 512) ∧ gets (loadWords s (.pe 0) 512 1) = 0 ∧
     gets (loadWords s (.pe 0) 512 2) = 0 ∧ (scopeLines (getPe s 0)).length < 16 ∧ isScratch 512 = false ∧
     (translate s (hartCtx s (.pe 0)) .write 512).toOption = some 512 ∧
     issues s (.sup sup0) 2 = true ∧ effective s (.sup 0) at0 false = some (512, 512) ∧ gets (loadWords s (.sup 0) 512 1) = 0 ∧
     gets (loadWords s (.sup 0) 512 2) = 0 ∧ (translate s (hartCtx s (.sup 0)) .write 512).toOption = some 512 ∧
     (match region s 512 with | .device _ _ => false | _ => true) = true ∧ (lineForWrite s 256 32).isSome = true) ∧
    (let s := taken32 (pointing 512)
     issues s (.pe pe0) 2 = true ∧ gets (loadWords s (.pe 0) 512 1) = 2 ∧ issues s (.sup sup0) 2 = true ∧
     gets (loadWords s (.sup 0) 512 1) = 2 ∧ lineForWrite s 256 32 = none) ∧
    (let s := pointing (2 ^ 18)
     issues s (.pe pe0) 2 = true ∧ effective s (.pe 0) at0 false = some (2 ^ 18, 2 ^ 18) ∧ gets (loadWords s (.pe 0) (2 ^ 18) 1) = 1 ∧
     (translate s (hartCtx s (.pe 0)) .write (2 ^ 18)).toOption = none) ∧
    (let s := pointing 513
     issues s (.pe pe0) 2 = true ∧ effective s (.pe 0) at0 false = some (513, 513)) ∧
    (let s := { pointing (2 ^ 30) with tlb := [page 3 0, page 0 0, devPage 0] }
     issues s (.sup sup0) 2 = true ∧ effective s (.sup 0) at0 false = some (2 ^ 30, 2 ^ 30) ∧
     (translate s (hartCtx s (.sup 0)) .write (2 ^ 30)).toOption = some (2 ^ 47) ∧ region s (2 ^ 47) = .device 0 0) := by decide +kernel
/-- Scratch within and past the spar's part of its L2, and a reserved addressing mode. -/
theorem witness_LoadsAndStoresComplete_scratch :
    (let s := running
     issues s (.pe pe0) 2 = true ∧ effective s (.pe 0) { at0 with mode := 7 } false = none ∧
     issues s (.sup sup0) 2 = true ∧ effective s (.sup 0) { at0 with mode := 7 } false = none) ∧
    (let s := pointing scratchBase
     issues s (.pe pe0) 2 = true ∧ effective s (.pe 0) at0 false = some (scratchBase, scratchBase) ∧ isScratch scratchBase = true ∧
     scratchOk s 0 scratchBase = false) ∧
    (let s := setF (pointing scratchBase) 0 (bClu 0) rCluL1ctl 14 12 1
     issues s (.pe pe0) 2 = true ∧ effective s (.pe 0) at0 false = some (scratchBase, scratchBase) ∧ scratchOk s 0 scratchBase = true ∧
     (scopeLines (getPe s 0)).length < 16) ∧
    (let s := modPe (setF (pointing scratchBase) 0 (bClu 0) rCluL1ctl 14 12 1) 0 fun x => { x with sb := [(scratchKey, some 1)] }
     (scopeLines (getPe s 0)).contains (scratchKey / 16) = true) := by decide +kernel
theorem witness_ReservationsAndAtomicsComplete :
    (let s := pointing 512
     let u := xlateNote s (hartCtx s (.sup 0)) 512
     issues s (.sup sup0) 2 = true ∧ atomicPoint s (.sup 0) = some s ∧ effective s (.sup 0) at0 true = some (512, 512) ∧
     (atomicAddr u (.sup 0) .read 512).toOption = some 512 ∧ lrTurn u 2304 32 = true ∧ agentOf (.sup 0) = 2304 ∧
     ((lineForWrite u (cacheOf (.sup 0)) 32).any fun r => gets (atomicWord r.2 (.sup 0) 512 512) == 0) = true ∧
     (atomicAddr u (.sup 0) .readWrite 512).toOption = some 512 ∧ resvOf u (.sup 0) = none ∧
     ((lineForWrite u (cacheOf (.sup 0)) 32).any fun r => gets (atomicStore (dropResv r.2 2304) (.sup 0) 512 512 0) == 0) = true ∧
     amoFar u (.sup 0) 0 512 = false ∧ (amoLine u (.sup 0) false 512).isSome = true ∧ amoFar u (.sup 0) 2 512 = true ∧
     ((amoLine u (.sup 0) true 512).any fun r => backed r.2 512 && !isPoisoned r.2 512) = true ∧ amoResult 0 (peek u 512) 0 0 = some 0) ∧
    (let s := { pointing 512 with resvs := [⟨supAgent 0, 512, true⟩] }
     issues s (.sup sup0) 2 = true ∧ (resvOf s (.sup 0)).map (·.line) = some (lineOf 512)) ∧
    (let s := { pointing 512 with lrQueue := [(0, 32)] }
     issues s (.sup sup0) 2 = true ∧ lrTurn s 2304 32 = false) ∧
    (let s := taken32 (modPe (pointing 512) 0 fun x => { x with sb := [(513, some 1)] })
     issues s (.pe pe0) 2 = true ∧ atomicPoint s (.pe 0) = none) := by decide +kernel
theorem witness_ReservationsAndAtomicsComplete_ends :
    (let s := pointing scratchBase
     issues s (.pe pe0) 2 = true ∧ (atomicPoint s (.pe 0)).isSome = true ∧ effective s (.pe 0) at0 true = some (scratchBase, scratchBase) ∧
     (atomicAddr s (.pe 0) .read scratchBase).toOption = none ∧ effective s (.pe 0) { at0 with mode := 1 } true = none) ∧
    (let s := { pointing 512 with resvs := [⟨supAgent 0, 512, true⟩] }
     let u := xlateNote s (hartCtx s (.sup 0)) 512
     (resvOf u (.sup 0)).map (·.line) = some (lineOf 512) ∧
     ((ownLine u (.sup 0) 512).any fun r => gets (atomicStore (dropResv r.2 2304) (.sup 0) 512 512 0) == 0) = true) ∧
    (let s := { pointing 512 with resvs := [⟨supAgent 0, 1024, true⟩] }
     ((resvOf s (.sup 0)).map (·.line)).any (· != lineOf 512) = true) ∧
    (let s := { taken32 (pointing 512) with resvs := [⟨supAgent 0, 512, false⟩, ⟨supAgent 1, 512, true⟩] }
     issues s (.sup sup0) 2 = true ∧ (resvOf s (.sup 0)).map (·.line) = some (lineOf 512) ∧ ownLine s (.sup 0) 512 = none ∧ amoLine s (.sup 0) false 512 = none ∧ amoLine s (.sup 0) true 512 = none) ∧
    (let s := { pointing 512 with poison := [(512, true)] }
     issues s (.sup sup0) 2 = true ∧ ((ownLine s (.sup 0) 512).any fun r => gets (atomicWord r.2 (.sup 0) 512 512) == 1) = true ∧
     ((amoLine s (.sup 0) true 512).any fun r => isPoisoned r.2 512) = true) ∧
    (let u := xlateNote (pointing 512) (hartCtx (pointing 512) (.sup 0)) 512
     ((amoLine u (.sup 0) false 512).any fun r => match atomicWord r.2 (.sup 0) 512 512 with
       | .ok old w => (amoResult 0 old 0 0).any fun v => gets (atomicStore w (.sup 0) 512 512 v) == 0
       | _ => false) = true) ∧
    coreIssues running (.sup sup0) = true ∧ coreIssues running (.pe pe0) = true := by decide +kernel
/-- PE 0's instance with partition 3's tables, and `a` in A register 1. -/
def codelet (a : Nat) : State := setA { live3 running with tlb := [page 3 0, page 0 0] } (.pe 0) 1 a
theorem witness_CodeletOutputsAreHeld :
    (let s := codelet 512
     issues s (.pe pe0) 2 = true ∧ (getPe s 0).inst = some inst3 ∧ scopeOuts (getPe s 0) < 16 ∧
     tagPort (raisePrio (ownTag 3 (getD s (.pe 0) 2))) + 1 ≤ 7 ∧
     ((fetchWords s (.pe 0) [512, 513]).toOption.any fun ws => scopeOuts (getPe s 0) + ws.length ≤ 16) = true ∧
     (atomicAddr s (.pe 0) .read (getA s (.pe 0) 1)).toOption = some 512 ∧ ptValid s 8 .pst 3 = true ∧ pstIv s 8 3 = true) ∧
    (let s := setA (codelet 512) (.sup 0) 1 512
     issues s (.sup sup0) 2 = true ∧ (atomicAddr s (.sup 0) .read (getA s (.sup 0) 1)).toOption = some 512 ∧
     (s.supIssues.filter fun x => x.2 == 0).length < 16 ∧
     (({ s with supIssues := List.replicate 16 (0, 0) } : State).supIssues.filter fun x => x.2 == 0).length = 16) := by decide +kernel
/-- Logical core 0 runs a thread of partition 3. -/
def supIn3 : State := modSup (codelet 512) 0 fun x => { x with spr := [(zCtx, w64 (3 * 2 ^ 16))] }
theorem witness_CodeletOutputsAreHeld_post :
    (let s := supIn3
     issues s (.sup sup0) 2 = true ∧ hartPart s (.sup 0) = 3 ∧ ptValid s 0 .pst 3 = true ∧ pstIv s 0 3 = true ∧
     (tryPost s 0 3 (hartAsid s (.sup 0)) 0 1 2 3 4).1 = .done ∧
     (tryPost (poke s 8192 32) 0 3 (hartAsid s (.sup 0)) 0 1 2 3 4).1 = .full) := by decide +kernel
/-- PE 0's scope with 16 outputs, under a partition that traps past them and under one that makes a commit point. -/
def brimful (cfg : Nat) : State :=
  modPe (codelet 512) 0 fun x => { x with held := List.replicate 16 (.flit (flit3 0)), cfg := w64 cfg }
theorem witness_CodeletOutputsAreHeld_limits :
    scopeOuts (getPe (brimful 0) 0) = 16 ∧ wbit (getPe (brimful 0) 0).cfg 62 = false ∧ wbit (getPe (brimful (2 ^ 62)) 0).cfg 62 = true ∧
    ((ownHeld (brimful (2 ^ 62)) 0).any fun y => !(getPe (commitAwait y 0) 0).opWait) = true ∧
    ((ownHeld (modPe (brimful (2 ^ 62)) 0 fun x => { x with out := List.replicate 48 (.flit (flit3 0)) }) 0).any
      fun y => (getPe (commitAwait y 0) 0).opWait) = true ∧
    ownHeld (taken32 (modPe (brimful (2 ^ 62)) 0 fun x => { x with sb := [(513, some 1)] })) 0 = none ∧
    (let s := setA (codelet 512) (.sup 0) 1 (2 ^ 18)
     issues s (.sup sup0) 2 = true ∧ (atomicAddr s (.sup 0) .read (getA s (.sup 0) 1)).toOption = none) ∧
    (let s := codelet (2 ^ 18)
     (fetchWords s (.pe 0) [2 ^ 18]).toOption = none ∧ ptValid s 8 .pst 5 = false ∧
     7 < tagPort (mkTag 3 1 0 0 7 0) + 1) ∧
    (match holdOut (brimful 0) 0 (.post 3 0 0 1 2 3 4) with | .next _ => false | _ => true) = true ∧
    (match holdOut (codelet 512) 0 (.post 3 0 0 1 2 3 4) with | .next _ => true | _ => false) = true := by decide +kernel
theorem witness_CodeletOutputsAreHeld_lost :
    (tryPost { supIn3 with poison := [(8192, true)] } 0 3 0 0 1 2 3 4).1 = .lost ∧
    (tryPost { supIn3 with poison := [(8193, true)] } 0 3 0 0 1 2 3 4).1 = .lost := by decide +kernel
theorem witness_FrameInstructionsComplete :
    (let s := codelet 512
     issues s (.pe pe0) 2 = true ∧ (getPe s 0).inst = some inst3 ∧ gives (tryAlloc s 8 3 0) = true ∧
     gateExists s (peDie 0) 3 0 = true ∧ mayFree s 0 inst3 (getD s (.pe 0) 1) = false) ∧
    (let s := modHw (codelet 512) 3 fun h => { h with free := [] }
     issues s (.pe pe0) 2 = true ∧ tryAlloc s 8 3 0 = .empty) ∧
    (let s := modHw (codelet 512) 3 fun h => { h with destroying := true }
     issues s (.pe pe0) 2 = true ∧ tryAlloc s 8 3 0 = .closed) ∧
    (let s := { codelet 512 with tlb := [{ page 3 0 with va := 2 ^ 18 }] }
     (match tryAlloc s 8 3 0 with | .fault _ _ => true | _ => false) = true) ∧
    (let s := setD (frame3 (codelet 512)) (.pe 0) 1 (mkTag 3 1 0 0 0 0)
     issues s (.pe pe0) 2 = true ∧ mayFree s 0 inst3 (getD s (.pe 0) 1) = true) := by decide +kernel
theorem witness_FrameInstructionsComplete_poisoned :
    let s : State := setD { frame3 (codelet 512) with poison := [(descAddr (codelet 512) 0 1, true)] } (.pe 0) 1 (mkTag 3 1 0 0 0 0)
    let t : State := { codelet 512 with poison := ((getHw (codelet 512) 3).free.map fun f => (descAddr (codelet 512) 0 f, true)) }
    isPoisoned (unitRead s 0 (descAddr s 0 1) 1) (descAddr s 0 1) = true ∧ issues t (.pe pe0) 2 = true ∧
    (match tryAlloc t 8 3 0 with | .lost _ _ => true | _ => false) = true ∧ gateExists t 0 3 1 = false := by decide +kernel
/-- An issue flit of partition 3 whose descriptor is at word 1,024, and a hand-off of entry 0. -/
def issue3 : Flit := ⟨mkRoute 0 2 0 0, 0, mkTag 3 1 0 0 0 0, 1024⟩
def hand3 : Flit := ⟨mkRoute 0 2 0 0, 1, mkTag 3 1 0 0 0 0, 0⟩
/-- PE 0 with three released outputs. -/
def outs : State :=
  modPe (codelet 512) 0 fun x => { x with out := [.flit (flit3 0), .fetch 3 [(512, 512)] 0, .post 3 0 0 1 2 3 4] }
theorem witness_ProcessingElementOutputsLeave :
    sparLive outs 0 = true ∧ (getPe outs 0).decimal = false ∧
    ((List.range 3).all fun n => ((getPe outs 0).out[n]?).any fun o => !outBlocked (getPe outs 0) n o) = true ∧
    (homeOf outs 8 3 1).isSome = true ∧ homeOf outs 8 4 1 = none ∧ (routerTakes (ptFill outs 8 .pmt 3) 0 0 (flit3 0)).isSome = true ∧
    (routerTakes outs 0 0 issue3).isSome = true ∧ flitCls issue3 = 2 ∧
    (agentTakes outs 0 3 [(512, 512)] 0).isSome = true ∧ (tryPost outs 8 3 0 0 1 2 3 4).1 = .done ∧
    (tryPost (poke outs 8192 32) 8 3 0 0 1 2 3 4).1 = .full ∧
    outBlocked { getPe outs 0 with out := [.flit (flit3 0), .flit (flit3 0)] } 1 (.flit (flit3 0)) = true := by decide +kernel
theorem witness_SpecialAndControlRegisterAccess :
    (issues running (.sup sup0) 2 = true ∧ levelOf running 0 = 2 ∧ sprExists 0 = true ∧ sprShut 0 = false ∧ sprShut 0x20 = true ∧
     sprExists 0x20 = true ∧ (csrRead running (coreSrc running 0) 0).1 = 0 ∧ (csrWrite running (coreSrc running 0) 1 0).1 = 0 ∧
     (csrWrite running (coreSrc running 0) (2 ^ 20 - 1) 0).1 = 1 ∧ issues running (.pe pe0) 4 = true ∧ issues running (.sup sup0) 4 = true) ∧
    (issues (atLevel 1) (.sup sup0) 2 = true ∧ levelOf (atLevel 1) 0 = 1) ∧
    (issues (atLevel 0) (.sup sup0) 2 = true ∧ levelOf (atLevel 0) 0 = 0) := by decide +kernel
theorem witness_SpecialAndControlRegisterAccess_refused :
    sprExists 0x7F = false ∧ issues running (.sup sup0) 2 = true ∧
    (issues (atLevel 1) (.sup sup0) 2 = true ∧ levelOf (atLevel 1) 0 ≠ 0 ∧
     (csrRead (atLevel 1) (coreSrc (atLevel 1) 0) (2 ^ 20 * bMst + 25)).1 = 2) := by decide +kernel

/-- Requests to read a line, of the cache of spar 0, of a device, and to write it of a unit. -/
def rd0 : HomeReq := reqOf .rdS (cacheId 0)
def dev0 : HomeReq := reqOf .devRd (.function 0 1)
theorem witness_HomesAndSnoopsComplete :
    (homeDie 5 < nDies up.part ∧ homeLive up 5 = true ∧ backed up 80 = true ∧ homeTx up 5 = none ∧ sliceWait up (homeSlice up 5) = [] ∧
     sliceBusy up (homeSlice up 5) < 64 ∧ llcLine up 5 = none ∧ rd0.kind ≠ .wb ∧ wholeLine rd0 = false ∧ wayFor up 5 = .room ∧
     ordered rd0.id = false ∧ ordered dev0.id = true) ∧
    (let u := unbacked up (idDie rd0.id) (16 * 2 ^ 38)
     region up (16 * 2 ^ 38) = .unbacked ∧ dieLive up (idDie rd0.id) = true ∧ (∀ j < 16, backed u (16 * 2 ^ 38 + j) = false)) ∧
    sliceWait (setWait up (homeSlice up 5) [(5, rd0)]) (homeSlice up 5) ≠ [] ∧
    ((homeTx (setTx up 5 (some ⟨.memread, some rd0, [], []⟩)) 5).map fun x => (x.phase, x.req)) = some (.memread, some rd0) ∧
    (let s := setLlc up 5 (some ⟨0, 0, false, false, 0⟩)
     let u := useLine s 5
     llcLine s 5 = some ⟨0, 0, false, false, 0⟩ ∧ needsSnoop u 5 ((llcLine u 5).getD ⟨0, 0, false, false, 0⟩) rd0 (hintOn u 5 rd0) = false) ∧
    (let s := setLlc up 5 (some ⟨2, 2, false, false, 0⟩)
     let u := useLine s 5
     (llcLine u 5).any (fun l => needsSnoop u 5 l rd0 (hintOn u 5 rd0) && !(snoopTargets u 5 l (notAsked u 5 rd0)).isEmpty) = true) ∧
    (let s := setLlc (setTx up 5 (some ⟨.snooping, some rd0, [1], []⟩)) 5 (some ⟨2, 2, false, false, 0⟩)
     ((homeTx s 5).map fun x => (x.phase, x.req)) = some (.snooping, some rd0) ∧
     (llcLine (passLate { s with snoops := s.snoops.filter fun n => n.line != 5 } 5 [1]) 5).isSome = true) ∧
    (let s := { up with snoops := [⟨5, 1, true, 0, 0, true⟩] }
     (s.snoops.map (·.passed)) = [true] ∧ s.fatal = false ∧ (getDie s (destDie 1)).withdrawn = false ∧ dieLive s (destDie 1) = true ∧
     destHeld s 5 1 = false ∧ ((snoopReach 1).any fun c => cacheState s c 5 == 4) = false) ∧
    (let s := { up with snoops := [⟨5, 1001, true, 0, 0, false⟩] }
     linkPeer s 1 1 = (0, 0) ∧ linkGrants s 0 0 .coherence = true) ∧
    (let s := { setLlc (setTx up 5 (some ⟨.snooping, some rd0, [1, 2], []⟩)) 5 (some ⟨2, 2, false, false, 0⟩) with answers := [⟨5, 1, 0⟩] }
     s.answers[0]? = some ⟨5, 1, 0⟩ ∧ (homeTx s 5).map (·.due) = some [1, 2] ∧ ((([1, 2] : List Nat).erase 1).isEmpty) = false ∧
     ((([1] : List Nat).erase 1).isEmpty) = true ∧ (llcLine s 5).isSome = true) ∧
    (let s := setF up 0 bMem rMemScrub 31 31 1
     blkEn s 0 bMem = true ∧ getF s 0 bMem rMemScrub 31 31 = 1 ∧ (match region s 80 with | .dram _ _ => true | _ => false) = true ∧
     homeDie 5 = 0 ∧ llcLine s 5 = none) ∧
    regOpen up 0 (bClu 0) rCluL1ctl = true ∧ (getSpar up 0).gated = false := by decide +kernel
/-- A request of die 1, behind token flits on both ways to die 0, and within its die. -/
def rd1 : HomeReq := reqOf .rdS (cacheId 32)
theorem witness_HomesAndSnoopsComplete_cross :
    idDie rd1.id = 1 ∧ homeDie 5 = 0 ∧ cohCross up (idDie rd0.id) (homeDie 5) = some up ∧ cohCross behindTokens 1 0 = none := by
  have h1 : ringWay behindTokens (nDies behindTokens.part) 1 0 = [(1, 1)] := by decide +kernel
  have h2 : linkGrants behindTokens 1 1 .coherence = false := by decide +kernel
  have h3 : ringWay up (nDies up.part) 0 0 = [] := by decide +kernel
  refine ⟨by decide, by decide +kernel, ?_, ?_⟩
  · have : idDie rd0.id = 0 ∧ homeDie 5 = 0 := by decide +kernel
    unfold cohCross; rw [this.1, this.2, h3]; rfl
  · unfold cohCross; rw [h1]; simp [h2]
theorem witness_HomesAndSnoopsComplete_ends :
    (let r := { rd0 with kind := .wb }
     llcLine up 5 = none ∧ r.kind = .wb ∧ ordered r.id = false) ∧
    (let r : HomeReq := { rd0 with kind := .devWr, mask := -1 }
     wholeLine r = true ∧ (llcLine (installLine (setTx up 5 none) 5) 5).isSome = true) ∧
    (let s := setTx up 5 (some ⟨.evicting, none, [1], []⟩)
     let t := setLlc s 5 (some ⟨1, 2, false, false, 0⟩)
     ((homeTx t 5).map fun x => (x.phase, x.req)) = some (.evicting, none) ∧ (llcLine (passLate (dropSnoops t 5) 5 [1]) 5).isSome = true) ∧
    (let s := { setTx up 5 (some ⟨.snooping, some rd0, [1], []⟩) with answers := [⟨5, 1, 3⟩] }
     s.answers[0]? = some ⟨5, 1, 3⟩ ∧ (getDie s (destDie 1)).withdrawn = false ∧ destDie 1 = homeDie 5 ∧ homeLive s 5 = true ∧
     (homeTx s 5).map (fun x => (inPass x, x.due.contains 1, x.due.contains 2)) = some (true, true, false) ∧
     (armed s 0 0x0303 bCoh (sliceHash 5) 3).isSome = false ∧
     (armed (modDie s 0 fun x => { x with inj := some ⟨1, bCoh, sliceHash 5, 0x0303, 3, 0⟩ }) 0 0x0303 bCoh (sliceHash 5) 3).isSome = true) ∧
    (getDie (modDie up 0 fun x => { x with withdrawn := true }) (destDie 1)).withdrawn = true ∧
    (homeTx (setTx up 5 (some ⟨.memread, some rd0, [], []⟩)) 5).map inPass = some false := by decide +kernel
/-- Source 7 of die 0 enabled and PENDING, with core 0 its target. -/
def source7 : State := setF (setReg (setReg running 0 bEvc (rEvcCfg + 7) (2 ^ 31 + 2 ^ 24)) 0 bEvc (rEvcTgtLo + 7) 1) 0 bEvc rEvcCoreEn 7 0 1
theorem witness_EventsReachCores_ends :
    (evState up 0 7 = evIdle ∧ evState (setEv up 0 7 evPending false) 0 7 = evPending ∧
     evState (setEv up 0 7 evOffered false) 0 7 = evOffered) ∧
    routable up 0 7 = false ∧ rawHalted running 0 = false ∧
    (let s := modSup { running with rawHalt := true } 0 fun x => { x with openOffer := some 7, spr := [(zDbgctl, 1), (0, w64 (2 ^ 2 + 1))] }
     rawHalted s 0 = true) ∧
    (let s := modSup running 0 fun x => { x with openOffer := some 7, sealedOffer := some 0x304, spr := [(0, w64 (2 ^ 2 + 2 ^ 3))] }
     supLive s 0 = true ∧ acceptsOpen s 0 = true ∧ acceptsSealed s 0 = true) ∧
    outranked (setF (setReg (setReg source7 0 bEvc (rEvcCfg + 8) (2 ^ 31 + 2 ^ 24)) 0 bEvc (rEvcTgtLo + 8) 1) 0 bEvc (rEvcCfg + 7) 29 26 15) 0 7 0 = true := by
  decide +kernel
theorem filter_split {α : Type} (p : α → Bool) (l : List α) : l.length = (l.filter p).length + (l.filter fun a => !p a).length := by
  induction l with
  | nil => rfl
  | cons a l ih => cases h : p a <;> simp only [List.filter_cons, h, Bool.not_true, Bool.not_false, Bool.false_eq_true, if_true, if_false, List.length_cons, ih] <;> omega
/-- Of more than `m * n` things in `n` classes, more than `m` are in one. -/
theorem pigeonhole (m : Nat) (f : Nat → Nat) : ∀ (n : Nat) (l : List Nat), (∀ b ∈ l, f b < n) → m * n < l.length →
    ∃ y, m < (l.filter fun b => f b == y).length
  | 0, l, h, hl => by
    cases l with
    | nil => simp at hl
    | cons b l => exact absurd (h b List.mem_cons_self) (Nat.not_lt_zero _)
  | n + 1, l, h, hl => by
    by_cases c : m < (l.filter fun b => f b == n).length
    · exact ⟨n, c⟩
    · have s := filter_split (fun b => f b == n) l
      obtain ⟨y, hy⟩ := pigeonhole m f n (l.filter fun b => !(f b == n))
        (fun b hb => by
          have := List.mem_filter.1 hb; have l1 := h b this.1; have l2 : f b ≠ n := by simpa using this.2
          omega)
        (by rw [Nat.mul_succ] at hl; omega)
      refine ⟨y, Nat.lt_of_lt_of_le hy ?_⟩
      rw [List.filter_filter]
      exact (List.Sublist.length_le (by
        rw [← List.filter_filter, List.filter_filter]
        exact (List.filter_sublist (p := fun b => !(f b == n)) (l := l.filter fun b => f b == y)).trans (List.Sublist.refl _) |> fun s => by
          rw [List.filter_filter] at s; simpa [Bool.and_comm] using s))
/-- Seventeen lines of die 0 share a slice and a set of its LLC, whatever set the LLC gives a line. -/
theorem crowded_set : ∃ (la : Nat) (bs : List Nat), bs.length = 16 ∧ la ∉ bs ∧ la < 2 ^ 20 ∧
    ∀ b ∈ bs, b < 2 ^ 20 ∧ sliceHash b % 32 = sliceHash la % 32 ∧ (Config.llcSet b).toNat % 1024 = (Config.llcSet la).toNat % 1024 := by
  let f : Nat → Nat := fun b => sliceHash b % 32 * 1024 + (Config.llcSet b).toNat % 1024
  obtain ⟨y, hy⟩ := pigeonhole 16 f 32768 (List.range (2 ^ 20))
    (fun b _ => by
      have h1 : sliceHash b % 32 < 32 := Nat.mod_lt _ (by decide)
      have h2 : (Config.llcSet b).toNat % 1024 < 1024 := Nat.mod_lt _ (by decide)
      show sliceHash b % 32 * 1024 + (Config.llcSet b).toNat % 1024 < 32768; omega)
    (by rw [List.length_range]; decide)
  have hm : ∀ b ∈ (List.range (2 ^ 20)).filter (fun b => f b == y), b < 2 ^ 20 ∧ f b = y := fun b hb => by
    have := List.mem_filter.1 hb; exact ⟨List.mem_range.1 this.1, by simpa using this.2⟩
  have hd : ((List.range (2 ^ 20)).filter (fun b => f b == y)).Nodup := List.Pairwise.filter _ List.nodup_range
  generalize (List.range (2 ^ 20)).filter (fun b => f b == y) = l at hy hm hd
  cases l with
  | nil => simp at hy
  | cons la t =>
    refine ⟨la, t.take 16, by simp at hy ⊢; omega, fun h => (List.nodup_cons.1 hd).1 (List.mem_of_mem_take h), (hm la List.mem_cons_self).1, fun b hb => ?_⟩
    have hb' := hm b (List.mem_cons_of_mem _ (List.mem_of_mem_take hb))
    have he : f b = f la := hb'.2.trans (hm la List.mem_cons_self).2.symm
    have h1 : (Config.llcSet b).toNat % 1024 < 1024 := Nat.mod_lt _ (by decide)
    have h2 : (Config.llcSet la).toNat % 1024 < 1024 := Nat.mod_lt _ (by decide)
    have he' : sliceHash b % 32 * 1024 + (Config.llcSet b).toNat % 1024 = sliceHash la % 32 * 1024 + (Config.llcSet la).toNat % 1024 := he
    exact ⟨hb'.1, by omega, by omega⟩
theorem homeDie_low {b : Nat} (h : b < 2 ^ 20) : homeDie b = 0 := by
  have h1 : fld (16 * b) 48 46 = 0 := by unfold fld; omega
  have h2 : fld (16 * b) 45 40 = 0 := by unfold fld; omega
  have h3 : fld (16 * b) 39 37 = 0 := by unfold fld; omega
  simp only [homeDie, regionMap, h1, h2, h3, if_true]
/-- An LLC that holds the lines `bs`, with a transaction on each or on none. -/
def crowd (bs : List Nat) (busy : Bool) : State :=
  { up with llc := bs.map fun b => (b, some ⟨0, 0, false, false, 0⟩),
            homeTx := if busy then bs.map fun b => (b, some ⟨.evicting, none, [], []⟩) else [] }
theorem fld_mod32 (n i : Nat) : fld n (5 * i + 4) (5 * i) < 32 := by
  unfold fld; have : 5 * i + 4 + 1 - 5 * i = 5 := by omega
  rw [this]; exact Nat.mod_lt _ (by decide)
theorem sliceHash_lt (b : Nat) : sliceHash b % 32 = sliceHash b := by
  have : ∀ (l : List Nat) (h : Nat), h < 32 → l.foldl (fun h i => h ^^^ fld b (5 * i + 4) (5 * i)) h < 32 := by
    intro l; induction l with
    | nil => intro h hh; exact hh
    | cons i l ih => intro h hh; exact ih _ (Nat.xor_lt_two_pow (n := 5) hh (fld_mod32 b i))
  exact Nat.mod_eq_of_lt (this _ _ (by decide))
theorem tget_map {α : Type} {bs : List Nat} {v : α} {d : Nat → α} {b : Nat} (h : b ∈ bs) : tget d (bs.map fun b => (b, v)) b = v := by
  induction bs with
  | nil => cases h
  | cons c t ih =>
    simp only [List.map_cons, tget]
    by_cases e : c = b
    · simp [e]
    · simp only [e, if_false]; exact ih (by rcases List.mem_cons.1 h with r | r; exact absurd r.symm e; exact r)
theorem tget_absent {α : Type} {bs : List Nat} {v : α} {d : Nat → α} {b : Nat} (h : b ∉ bs) : tget d (bs.map fun b => (b, v)) b = d b := by
  induction bs with
  | nil => rfl
  | cons c t ih =>
    simp only [List.map_cons, tget]
    rw [if_neg (fun e => h (by simp [e])), ih (fun e => h (by simp [e]))]
theorem filterMap_all {α β : Type} {v : α} {f : Nat × α → Option β} {g : Nat → β} {bs : List Nat} (h : ∀ b ∈ bs, f (b, v) = some (g b)) :
    (bs.map fun b => (b, v)).filterMap f = bs.map g := by
  induction bs with
  | nil => rfl
  | cons b t ih =>
    simp only [List.map_cons, List.filterMap_cons, h b List.mem_cons_self, ih fun c hc => h c (List.mem_cons_of_mem _ hc)]
theorem filterMap_nothing {α β : Type} {v : α} {f : Nat × α → Option β} {bs : List Nat} (h : ∀ b ∈ bs, f (b, v) = none) :
    (bs.map fun b => (b, v)).filterMap f = [] := by
  induction bs with
  | nil => rfl
  | cons b t ih =>
    simp only [List.map_cons, List.filterMap_cons, h b List.mem_cons_self, ih fun c hc => h c (List.mem_cons_of_mem _ hc)]
theorem find_head {α : Type} {p : α → Bool} {l : List α} {a : α} (h : l.head? = some a) (hp : p a = true) : l.find? p = some a := by
  cases l with
  | nil => cases h
  | cons b t => cases h; simp [hp]
/-- The set of the LLC has a victim while one of its lines has no transaction, and none while each has one. -/
theorem witness_HomesAndSnoopsComplete_ways : ∃ la bs, bs.length = 16 ∧ llcLine (crowd bs false) la = none ∧ llcLine (crowd bs true) la = none ∧
    (∃ v ∈ bs, wayFor (crowd bs false) la = .victim v) ∧ wayFor (crowd bs true) la = .busy := by
  obtain ⟨la, bs, hl, hn, hlow, hb⟩ := crowded_set
  let z : HomeLine := ⟨0, 0, false, false, 0⟩
  have hs : ∀ busy, ∀ b ∈ bs, homeSlice (crowd bs busy) b = homeSlice (crowd bs busy) la := fun busy b h => by
    have := (hb b h).2.1; rw [sliceHash_lt, sliceHash_lt] at this
    simp only [homeSlice, homeDie_low (hb b h).1, homeDie_low hlow, this]
  have hllc : ∀ busy, (crowd bs busy).llc = bs.map fun b => (b, some z) := fun _ => rfl
  have hmates : ((bs.map fun b => (b, z)).filter fun m => sameSet la m.1) = bs.map fun b => (b, z) := by
    apply List.filter_eq_self.2
    intro m hm
    obtain ⟨b, h, rfl⟩ := List.mem_map.1 hm
    simp [sameSet, (hb b h).2.2]
  have hlines : ∀ busy, sliceLines (crowd bs busy) la = bs.map fun b => (b, z) := fun busy => by
    unfold sliceLines
    rw [hllc, filterMap_all (g := fun b => (b, z)) (fun b h => by simp only [hs busy b h, if_true])]
  have hcoming : ∀ busy, sliceComing (crowd bs busy) la = [] := fun busy => by
    cases busy with
    | false => rfl
    | true =>
      unfold sliceComing
      rw [show (crowd bs true).homeTx = bs.map fun b => (b, some ⟨.evicting, none, [], []⟩) from rfl, filterMap_nothing (fun b _ => by simp)]
  refine ⟨la, bs, hl, tget_absent hn, tget_absent hn, ?_, ?_⟩
  · have hv : ∃ v ∈ bs, List.head? (bs.map fun b => (b, z)) = some (v, z) := by
      cases bs with
      | nil => cases hl
      | cons v t => exact ⟨v, List.mem_cons_self, rfl⟩
    obtain ⟨v, hv, he⟩ := hv
    refine ⟨v, hv, ?_⟩
    unfold wayFor
    rw [hlines, hcoming]
    simp only [List.length_map, hl, List.length_nil, Nat.add_zero, Nat.lt_irrefl, decide_false, Bool.false_eq_true, if_false,
      hmates, List.filter_nil, Bool.or_self]
    rw [List.filter_eq_self.2 (fun m _ => by rfl)]
    rw [find_head he (by simp [z])]
  · unfold wayFor
    rw [hlines, hcoming]
    simp only [List.length_map, hl, List.length_nil, Nat.add_zero, Nat.lt_irrefl, decide_false, Bool.false_eq_true, if_false, hmates,
      List.filter_nil, Bool.or_self]
    rw [List.filter_eq_nil_iff.2 (fun m hm => by
      obtain ⟨b, h, rfl⟩ := List.mem_map.1 hm
      have : homeTx (crowd bs true) b = some ⟨.evicting, none, [], []⟩ := tget_map h
      simp [this])]
    rfl
theorem witness_EventsReachCores :
    (dieLive source7 0 = true ∧ routable source7 0 7 = true ∧ candidate source7 0 7 = some 0 ∧ outranked source7 0 7 0 = false) ∧
    unitRaises 0 5 = true ∧ unitRaises 0 0xE00 = false ∧
    (regOpen up 0 bEvc rEvcSet && regOpen up 0 bEvc rEvcDone && regOpen up 0 bEvc rEvcCoreEn) = true ∧ evState up 0 7 ≠ evActive ∧
    (let s := setEv up 0 7 evActive false
     evState s 0 7 = evActive ∧ bitOf (evCfg (typeNow s 0 7) 7 7) 23 = false ∧ bitOf (evCfg (typeNow s 0 7) 0 7) 30 = false) ∧
    (let s := setEv up 0 7 evActive true
     evState s 0 7 = evActive ∧ bitOf (evCfg (typeNow s 0 7) 0 7) 23 = true) ∧
    (let s := modSup running 0 fun x => { x with openOffer := some 7, spr := [(0, w64 (2 ^ 2 + 1))] }
     supLive s 0 = true ∧ acceptsOpen s 0 = true ∧ acceptsSealed s 0 = false) ∧
    (let s := modSup running 0 fun x => { x with sealedOffer := some 0x304, spr := [(0, w64 (2 ^ 3 + 2))] }
     supLive s 0 = true ∧ acceptsSealed s 0 = true ∧ acceptsOpen s 0 = false) := by decide +kernel

/-- Engine 0 has a flit at ingress, and one in its intake. -/
def intake (f : Flit) : State := modEng (modDie (tables3 up) 0 fun x => { x with engIn := [(0, [f])] }) 0 fun e => { e with intake := [f] }
theorem witness_IntakeTakesIssuesAndHandoffs :
    (let s := intake issue3
     engUp s (servingFor s 0) = true ∧ tget (fun _ => []) (getDie s 0).engIn 0 = [issue3] ∧ checkFlit issue3 0 = .clean issue3 ∧
     wbit issue3.value 63 = false ∧ issue3.kind ≠ 1 ∧ issue3.kind.toNat < 2 ∧ routeBad issue3 = false ∧ intakeLen s 0 < 768 ∧
     (getEng s 0).intake = [issue3] ∧ (getEng s 0).blocked = false ∧
     origKind issue3 ≠ 1 ∧ (match issueCheck s (issueReq s 0 issue3) with | .refuse _ => true | _ => false) = true) ∧
    (let f := { issue3 with kind := 2 }
     checkFlit f 0 = .clean f ∧ 2 ≤ f.kind.toNat) ∧
    (let s := intake hand3
     tget (fun _ => []) (getDie s 0).engIn 0 = [hand3] ∧ checkFlit hand3 0 = .clean hand3 ∧ hand3.kind = 1 ∧ origKind hand3 = 1) ∧
    (getEng (modEng up 0 fun e => { e with rescan := true }) 0).rescan = true ∧ intakeRoom (intake issue3) 0 issue3 = true ∧
    ((getEng up 0).evq.find? fun v => v.1 == 9) = none ∧
    ((getEng (modEng up 0 fun e => { e with evq := [(9, 0, 0)] }) 0).evq.find? fun v => v.1 == 9) = some (9, 0, 0) ∧
    intakeRoom (modEng up 0 fun e => { e with intake := List.replicate 768 issue3, ringTail := 2 ^ 15 }) 0 issue3 = false := by decide +kernel
theorem witness_IntakeTakesIssuesAndHandoffs_ends :
    (let f := flit3 0
     recvFlit up 0 (bCen 0) 0xFF 0x0505 { f with route := mkRoute 0 3 0 0 } 0 = (some { f with route := mkRoute 0 3 0 0 }, up) ∧
     routeBad { f with route := mkRoute 0 3 0 0 } = true) ∧
    (recvFlit up 0 (bCen 0) 0xFF 0x0505 issue3 3).1 = none ∧
    (let s := modEng up 0 fun e => { e with intake := List.replicate 768 issue3 }
     768 ≤ intakeLen s 0 ∧ 20480 ≤ 2 ^ 15 - inUsed s 0 ∧ 2 ^ 15 - inUsed (modEng s 0 fun e => { e with ringTail := 12289 }) 0 < 20480) ∧
    rescanDue up 0 = false ∧ rescanDue (modEng up 0 fun e => { e with evq := [(9, 0, 0)] }) 0 = true ∧
    (getEng (modEng up 0 fun e => { e with blocked := true }) 0).blocked = true ∧
    wbit ({ issue3 with value := w64 (2 ^ 63) } : Flit).value 63 = true ∧ armed up 0 0x0505 (bCen 0) 0xFF 1 = none := by decide +kernel
/-- A MOVE of one word for partition 3, which has quota, with `n` exchanges numbered before. -/
def movable (n : Nat) : State :=
  modChan ([(131096, w64 (2 ^ 63 + 2 ^ 24)), (1024, w64 (2 ^ 60)), (1026, 512), (1027, 600), (1028, 1)].foldl (fun s p => poke s p.1 p.2)
    (setReg (setReg (intake issue3) 0 bChn rChnLdgcount 256) 0 bChn rChnPctbaseLo 131072)) 0 fun c => { c with count := n }
theorem witness_IntakeTakesIssuesAndHandoffs_verdicts :
    (getEng (movable 1) 0).intake = [issue3] ∧ issueCheck (movable 1) (issueReq (movable 1) 0 issue3) = .accept ∧
    (getEng (movable 0) 0).intake = [issue3] ∧ issueCheck (movable 0) (issueReq (movable 0) 0 issue3) = .wait := by decide +kernel
theorem witness_JournalAndNumberBlocks :
    (let s := setF up 0 bChn rChnLdev 31 30 1
     dieLive s 0 = true ∧ ldevUp s 0 = true ∧ getF s 0 bChn rChnLdev 31 30 = 1 ∧ s.fatal = false ∧ chanLost s 0 = false ∧
     (getChan s 0).limit < numMultiple (getChan s 0) + 2 ^ 21 ∧ (getChan s 0).jrecs = []) ∧
    (let s := jAppend (setF up 0 bChn rChnLdev 31 30 2) 0 (blankRec 5 0)
     ldevUp s 0 = true ∧ getF s 0 bChn rChnLdev 31 30 = 2 ∧ jReady (getChan s 0) (jSize s 0) 1 ≠ [] ∧ jReady (getChan s 0) (jSize s 0) 0 = []) ∧
    65536 ≤ (getChan (modChan up 0 fun c => { c with jsince := 65536 }) 0).jsince ∧
    (let c := getChan (modChan up 0 fun c => { c with jhead := 2 }) 0
     (jCtl c).head ≠ c.jhead) := by decide +kernel
/-- A record of the entry 0, of a type. -/
def recOf (t : Nat) : JRec := { blankRec t 0 with index := 0, eng := some 0 }
theorem witness_JournalAndNumberBlocks_records :
    (let s := modChan (ledger up lAccepting xkMove) 0 fun c => { c with live := [0] }
     ((getChan s 0).live.contains (recOf 1).index && ent s 0 1 == (recOf 1).xnum) = true ∧
     entState (setEntF (evPush s 0 8 1 0) 0 9 55 0 1) 0 = lAccepting) ∧
    ((getChan up 0).live.contains (recOf 2).index) = false ∧ (recOf 5).typ = 5 ∧
    (let c := getChan (modChan up 0 fun c => { c with jstop := some 0 }) 0
     c.jstop ≠ none) ∧
    ((getChan up 0).jsince < 65536 ∧ (jCtl (getChan up 0)).head = (getChan up 0).jhead) ∧
    (let s := modChan up 0 fun c => { c with limit := 2 ^ 22 }
     numMultiple (getChan s 0) + 2 ^ 21 ≤ (getChan s 0).limit) ∧
    (((getChan (jAppend (setF up 0 bChn rChnLdev 31 30 1) 0 (blankRec 5 (w64 (2 ^ 22)))) 0).jrecs.any
      fun r => r.typ == 5 && decide (2 ^ 21 ≤ r.xnum.toNat)) = true) ∧
    ldevUp up 0 = false ∧ mastheadUp up = true := by decide +kernel
/-- Entry 0 served by engine 0. -/
def served (st kind : Nat) : State := modEng (ledger (tables3 up) st kind) 0 fun e => { e with serve := [(0, false)] }
/-- A key that every partition may use. -/
def key7 : KeySlot := ⟨List.replicate 32 0, 3, true, false, 31⟩
/-- Entry 0 ACTIVE with one stage of encryption in counter mode with key 7, of two words. -/
def ciphering (kind : Nat) : State :=
  { modWork (poke (poke (poke (served lActive kind) 1026 512) 1028 2) 1029 2048) 0 fun w =>
      { w with chain := [w64 (2 ^ 62), 0, 4096, 0, w64 (3 * 2 ^ 60 + 3 * 2 ^ 56 + 7)] } with
    vault := [(7, some key7)], pcache := (served lActive kind).pcache ++ [⟨0, .ptt, 3, [w64 (2 ^ 63 + 2 ^ 55 + 2 ^ 47)]⟩] }
theorem witness_ExchangesStartTransferAndRetire :
    (let s := served lOpen xkMove
     let v := (entClean s 0 0).2
     engUp s 0 = true ∧ serves s 0 0 = true ∧ (entClean s 0 0).1 = true ∧ entState v 0 = lOpen ∧ firstOpen v 0 0 = true ∧ startRoom v 0 0 = true ∧
     (readDesc v 0 0).1 = true ∧ issueFault (readDesc v 0 0).2 0 0 = none) ∧
    (let s : State := { served lOpen xkMove with poison := [(entDesc (served lOpen xkMove) 0, true)] }
     let v := (entClean s 0 0).2
     (entClean s 0 0).1 = true ∧ entState v 0 = lOpen ∧ firstOpen v 0 0 = true ∧ startRoom v 0 0 = true ∧ (readDesc v 0 0).1 = false) ∧
    (let s : State := { served lOpen xkMove with poison := [(65536, true)] }
     engUp s 0 = true ∧ serves s 0 0 = true ∧ ldgDie s 0 = some 0 ∧ (entClean s 0 0).1 = false) ∧
    (let s := poke (poke (served lOpen xkMove) 1026 (w64 (2 ^ 18))) 1028 1
     engUp s 0 = true ∧ serves s 0 0 = true ∧ entState s 0 = lOpen ∧ firstOpen s 0 0 = true ∧ startRoom s 0 0 = true ∧
     (readDesc s 0 0).1 = true ∧ issueFault (issueNote (readDesc s 0 0).2 0 0) 0 0 = some rsXlate) ∧
    (let s := modWork (served lOpen xkMove) 1 fun w => { w with staged := 257 }
     entState s 0 = lOpen ∧ firstOpen s 0 0 = true ∧ startRoom s 0 0 = false) ∧
    (let s := served lActive xkMove
     entState s 0 = lActive ∧ entKind s 0 = xkMove ∧ xformOf s 0 = 0) ∧
    (let s := served lClosing xkMove
     dieLive s 0 = true ∧ ldgDie s 0 = some 0 ∧ entState s 0 = lClosing ∧ entKind (termDecide (failedResult (spoilDest s 0) 0) 0) 0 ≠ xkSend) ∧
    (let s := served lClosing xkSend
     entState s 0 = lClosing ∧ entKind (termDecide (failedResult (spoilDest s 0) 0) 0) 0 = xkSend) ∧
    (let s := modChan (poke (served 9 xkMove) 65536 (w64 (lCompleted * 2 ^ 60 + 2 ^ 44 + 2 ^ 40))) 0 fun c =>
       { c with live := [0], held := [⟨3, [1, 2], some 0, 0⟩] }
     (getChan s 0).live.contains 0 = true ∧ isTerminal (entState s 0) = true ∧ wbit (ent s 0 0) 40 = true ∧ entDur s 0 = false ∧
     (getChan s 0).held[0]? = some ⟨3, [1, 2], some 0, 0⟩ ∧ (crTake s 0 3 [1, 2]).1 = true) ∧
    (getWork (modWork up 0 fun w => { w with termDone := true }) 0).termDone = true := by decide +kernel
theorem witness_ExchangesStartTransferAndRetire_chain :
    (let s := modWork (served lActive xkWrite) 0 fun w => { w with chainDone := true }
     isNvme (entKind s 0) = true ∧ entKind s 0 ≠ xkRead ∧ (getWork s 0).chainDone = true ∧ ((getEng s 0).cmds.any (·.index == 0)) = false ∧ xformOf s 0 = 0) ∧
    (let s := poke (served lActive xkMove) 1029 2048
     let u := ptFill s 0 .ptt (entPart s 0)
     entKind s 0 = xkMove ∧ xformOf s 0 ≠ 0 ∧ (getWork s 0).chainDone = false ∧ chainCheck u 0 0 (chainOf u 0) = some (wholeChain, 1)) ∧
    (let s := ciphering xkMove
     let u := ptFill s 0 .ptt (entPart s 0)
     entKind s 0 = xkMove ∧ xformOf s 0 ≠ 0 ∧ (getWork s 0).chainDone = false ∧ chainCheck u 0 0 (chainOf u 0) = none) ∧
    (let s := served lActive xkMove
     (sourceWords s (xCtx s 0 0) 0).toOption.isSome = true ∧ (destBufs s (xCtx s 0 0) 0).toOption.isSome = true) ∧
    firstOpen (modEng (served lOpen xkMove) 0 fun e => { e with serve := [(1, false), (0, false)] }) 0 0 = true ∧
    (let s := modChan up 0 fun c => { c with held := [⟨3, [1, 2], none, 0⟩] }
     (getChan s 0).held[0]? = some ⟨3, [1, 2], none, 0⟩) := by decide +kernel
/-- Entry 0 with an NVMe command of controller 0. -/
def nvme (st : Nat) : State := modEng (served st xkRead) 0 fun e => { e with cmds := [⟨0, 0, 0, 0, 0, 0, false, false⟩] }
theorem witness_NvmeCommandsComplete :
    (let s := nvme lActive
     let t := nvEvent s 0 0 0 0 0
     servingFor s 0 = 0 ∧ engUp s 0 = true ∧ entState t 0 = lActive ∧ entGen t 0 = 0 ∧
     ((getEng t 0).cmds.find? fun m => m.eng == 0 && m.ctrl == 0 && m.pair == 0 && m.slot == 0).isSome = true ∧
     ((getEng t 0).cmds.find? fun m => m.eng == 0 && m.ctrl == 0 && m.pair == 0 && m.slot == 1) = none ∧
     2 ^ 10 / 2 ^ 10 % 64 ≠ entGen t 0 ∧ ((getEng s 0).cmds.find? fun m => m.index == 0).isSome = true ∧ entState s 0 = lActive) ∧
    (entState (nvme lAborting) 0 = lAborting ∧ ((getEng (nvme lAborting) 0).cmds.any fun m => m.index == 0) = true) ∧
    ((getEng (nvme lActive) 0).cmds.any fun m => cidOf m 0 0 0 0 && !m.came) = true ∧
    ((getEng (modEng up 0 fun e => { e with late := [⟨0, 0, 0, 0, 0, 0, false, false⟩] }) 0).late.any fun m => cidOf m 0 0 0 0) = true ∧
    (getEng up 0).cmds = [] ∧ (getEng up 0).late = [] ∧
    up.fatal = false ∧
    ((getCtrl up 0).out = false ∧ (getCtrl up 0).wasReset = false ∧ (getCtrl (modCtrl up 0 fun x => { x with wasReset := true }) 0).wasReset = true) := by
  decide +kernel
theorem witness_TakeOverAndPowerFailSteps :
    (engUp up 0 = true) ∧
    (let s := modEng (on up 0 (bCen 1)) 0 fun e => { e with out := true }
     dieLive s 0 = true ∧ (getEng s 0).out = true ∧ (getEng s 0).adopted = false ∧ servingFor s 0 = 1) ∧
    (let s := setF (setF up 0 bChn rChnStat 31 31 1) 0 bChn rChnLdev 31 30 1
     pfail s 0 = true ∧ s.fatal = false ∧ getF s 0 bChn rChnLdev 31 30 = 1 ∧ dieLive s (getF s 0 bChn rChnLdev 29 27) = true) ∧
    regOpen up 0 bChn rChnIdrack = true ∧ getF (setF up 0 bChn rChnIdrstat 31 31 1) 0 bChn rChnIdrstat 31 31 = 1 := by decide +kernel
theorem witness_TakeOverAndPowerFailSteps_rows :
    armed up 0 0x0503 (bCen 0) 0xFF 3 = none ∧
    (armed (modDie up 0 fun x => { x with inj := some ⟨1, bCen 0, 0xFF, 0x0503, 3, 0⟩ }) 0 0x0503 (bCen 0) 0xFF 3).isSome = true ∧
    (let s := modEng up 0 fun e => { e with out := true }
     dieLive s 0 = true ∧ (getEng s 0).out = true ∧ (getEng s 0).adopted = false ∧ servingFor s 0 = 0) ∧
    ([lOpen, lActive, lAborting, lClosing].all fun st => entState (setOwner (served st xkMove) 0 0) 0 == st) = true ∧
    (let s := setOwner (served lOpen xkMove) 0 0
     serves s 0 0 = true) ∧
    (entKind (setOwner (served lActive xkRecv) 0 0) 0 = xkRecv) ∧
    dieLive up 0 = true ∧ regOpen up 0 bChn rChnIdrack = true := by decide +kernel

/-- Session 0 (table at word 196,608) in a state, and association 0 (table at word 229,376), both on die 0 and engine 0. -/
def hxp (st : Nat) : State :=
  [(196608, w64 (2 ^ 63 + st * 2 ^ 60)), (229376, w64 (2 ^ 63))].foldl (fun s p => poke s p.1 p.2)
    (setReg (setReg up 0 bHxp rHxpStbaseLo 196608) 0 bHxp rHxpAtbaseLo 229376)
/-- A key of zeros. -/
def key0 : List Nat := List.replicate 32 0
/-- A frame of a type for session 0, or for association 0. -/
def frame (n : Option Nat) (typ seq : Nat) : HxFrame := ⟨n, 0, false, typ, false, seq, 0, 0, 0, 0, 0, 0, 0, [], []⟩
/-- It with its tag, under the key of zeros. -/
def signed (f : HxFrame) : HxFrame :=
  { f with tag := toBytes (if f.session.isNone && (f.typ == 4 || f.typ == 5) then openTag key0 (hdrBytes (frHdr f)) [] else ownTagOf f key0) }
/-- Engine 0 holds a frame, and the key of zeros is the key of session 0 and of association 0, which is open. -/
def framed (f : HxFrame) : State :=
  modSess (modAssoc (modEng { hxp ssOpen with vault := [(0, some ⟨key0, 3, true, false, 31⟩)] } 0 fun e => { e with hxq := [f] }) 0
    fun x => { x with phase := 2, keys := [⟨false, 0, key0, key0⟩] }) 0 fun x => { x with keys := [⟨false, 0, key0, key0⟩] }
/-- The state once the engine has taken the frame. -/
def takenOf (n : Option Nat) (t : Nat) : State := modEng (framed (signed (frame n t 1))) 0 popFrame
theorem ownTag_bytes (f : HxFrame) : ∀ x ∈ ownTagOf f key0, x < 256 := gcmTag_lt (by decide +kernel)
/-- Frames of every type carry a tag that verifies. -/
theorem witness_HxpFramesReachTheirEngine_verify :
    (∀ t ∈ [1, 2, 3, 4, 5, 6, 7, 8], verify (takenOf (some 0) t) (signed (frame (some 0) t 1)) = some ([], 0)) ∧
    (∀ t ∈ [9, 10, 11, 4, 5], verify (takenOf none t) (signed (frame none t 1)) = some ([], 0)) := by
  have hs : ∀ t ∈ [1, 2, 3], bySession t = true ∧ stState (takenOf (some 0) t) 0 = ssOpen ∧ stConf (takenOf (some 0) t) 0 = false ∧
      phases (getSess (takenOf (some 0) t) 0).phRx (getSess (takenOf (some 0) t) 0).phCut.isSome 0 = [0] ∧
      heldKey (takenOf (some 0) t) (getSess (takenOf (some 0) t) 0).keys false 0 = some key0 := by decide +kernel
  have hc : ∀ t ∈ [4, 5, 6, 7, 8], bySession t = false ∧ (getAssoc (takenOf (some 0) t) 0).phase = 2 ∧ stConf (takenOf (some 0) t) 0 = false ∧
      phases (getAssoc (takenOf (some 0) t) 0).phRx false 0 = [0] ∧
      heldKey (takenOf (some 0) t) (getAssoc (takenOf (some 0) t) 0).keys false 0 = some key0 := by decide +kernel
  have ha : ∀ t ∈ [9, 10, 11], ¬(t = 4 ∨ t = 5) ∧ (getAssoc (takenOf none t) 0).phase = 2 ∧
      phases (getAssoc (takenOf none t) 0).phRx false 0 = [0] ∧
      heldKey (takenOf none t) (getAssoc (takenOf none t) 0).keys false 0 = some key0 := by decide +kernel
  have ho : ∀ t ∈ [4, 5], (t = 4 ∨ t = 5) ∧ masterKey (takenOf none t) 0 = some key0 := by decide +kernel
  constructor
  · intro t ht
    rcases List.mem_append.1 (show t ∈ [1, 2, 3] ++ [4, 5, 6, 7, 8] from ht) with h | h
    · obtain ⟨a, b, c, d, e⟩ := hs t h
      exact verify_session rfl a b c d e (ofBytes_toBytes (ownTag_bytes _))
    · obtain ⟨a, b, c, d, e⟩ := hc t h
      exact verify_control rfl a b c d e (ofBytes_toBytes (ownTag_bytes _))
  · intro t ht
    rcases List.mem_append.1 (show t ∈ [9, 10, 11] ++ [4, 5] from ht) with h | h
    · obtain ⟨a, b, c, d⟩ := ha t h
      have hn : (t == 4 || t == 5) = false := by simpa using a
      exact verify_assoc rfl a b c d (by simp only [signed, frame, Option.isNone_none, Bool.true_and, hn, Bool.false_eq_true, if_false]; exact ofBytes_toBytes (ownTag_bytes _))
    · obtain ⟨a, b⟩ := ho t h
      have hn : (t == 4 || t == 5) = true := by simpa using a
      exact verify_open rfl a b (by simp only [signed, frame, Option.isNone_none, Bool.true_and, hn, if_true]; exact ofBytes_toBytes openTag_lt)
theorem witness_HxpFramesReachTheirEngine :
    engUp (framed (frame none 1 1)) 0 = true ∧ verify (modEng (framed (frame none 4 1)) 0 popFrame) (frame none 11 1) = none ∧
    ([1, 2, 3, 4, 5, 6, 7, 8].all fun t =>
      let u := takenOf (some 0) t
      let f := signed (frame (some 0) t 1)
      let w := setUp u 0 false true
      ctlFresh w f && ctlFresh (noteTime w f 0) f && !onSteering (noteTime w f 0) f) = true ∧
    ([9, 10, 11].all fun t =>
      let u := takenOf none t
      let f := signed (frame none t 1)
      ctlFresh (noteTime (setUp u 0 false true) f 0) f) = true ∧
    ctlFresh (modAssoc (framed (frame (some 0) 8 1)) 0 fun x => { x with ctlRx := some 5 }) (frame (some 0) 8 1) = false ∧
    (let s := poke (framed (frame (some 0) 2 1)) (229376 + 13) (w64 (2 ^ 63))
     onSteering s (frame (some 0) 2 1) = true) := by decide +kernel
/-- An IPv4 frame to port 0 of address 0, which is association 0's own on shroud A. -/
def ipFrame : List Byte :=
  toBytes (List.replicate 12 0 ++ [8, 0, 0x45, 0, 0, 28, 0, 0, 0, 0, 0, 17, 0xBA, 0xD2] ++ List.replicate 8 0 ++ [0, 0, 0, 0, 0, 8, 0, 0])
/-- A priority flow control frame that pauses priority 0. -/
def pfcFrame : List Byte :=
  toBytes ([1, 0x80, 0xC2, 0, 0, 1] ++ List.replicate 6 0 ++ [0x88, 8, 1, 1, 0, 1] ++ List.replicate 42 1)
theorem witness_HxpFramesReachTheirEngine_mac :
    let s := setF (hxp ssOpen) 0 bHxp rHxpCfg 31 16 0
    dieLive s 0 = true ∧ blkEn s 0 bHxp = true ∧ (ofBytes ipFrame).length ≤ 9216 ∧ macHeld s 0 = 0 ∧ 9216 < (List.replicate 9217 (0 : Byte)).length ∧
    2 ^ 21 < macHeld (modDie s 0 fun x => { x with mac := [.inbound 0 0 (2 ^ 21) (frame none 11 1)] }) 0 + (ofBytes ipFrame).length ∧
    subPorts s 0 = 1 ∧ subPorts (setF s 0 bHxp rHxpPort 31 30 2) 0 = 4 ∧
    parseFrame (ofBytes []) = none ∧ isPfc s 0 (ofBytes ipFrame) = false ∧
    isPfc (setF s 0 bHxp rHxpPort 29 22 1) 0 (ofBytes pfcFrame) = true ∧
    ¬((parseFrame (ofBytes ipFrame)).any fun f => localAddr s 0 1 f) = true ∧
    (parseFrame (ofBytes ipFrame)).any (fun f => localAddr s 0 0 f && f.dport == getF s 0 bHxp rHxpCfg 31 16) = true := by decide +kernel
theorem witness_SessionTimersComplete :
    (let s := modSess (hxp ssOpening) 0 fun x => { x with opens := 1 }
     stDie s 0 < nDies s.part ∧ stOk s 0 = true ∧ engUp s (frameEng s (some 0) (stAssoc s 0)) = true ∧ stState s 0 = ssOpening ∧ (getSess s 0).opens = 1) ∧
    (let s := modSess (hxp ssOpening) 0 fun x => { x with opens := 8 }
     stState s 0 = ssOpening ∧ 8 ≤ (getSess s 0).opens) ∧
    stState (hxp ssClosing) 0 = ssClosing ∧ stState (hxp ssOpen) 0 = ssOpen ∧
    (missingRun (poke (hxp ssOpen) (stMap (hxp ssOpen) 0) 2) 0).isSome = true ∧
    (let s := modSess (hxp ssOpen) 0 fun x => { x with unacked := [⟨0, 0, 0, 1, 0, [], 0⟩], expiries := 7 }
     let u := modDie s 0 fun x => { x with timebase := 10 ^ 10 }
     ((getSess s 0).unacked.filter fun g => decide (retxTime s 0 ≤ (timeOf s (stDie s 0) - g.sentAt).toNat)) = [] ∧
     ((getSess u 0).unacked.filter fun g => decide (retxTime u 0 ≤ (timeOf u (stDie u 0) - g.sentAt).toNat)) ≠ [] ∧
     (getSess (modSess u 0 fun x => { x with expiries := x.expiries + 1 }) 0).expiries = 8) := by decide +kernel
theorem witness_AssociationTimersComplete :
    (let s := modAssoc (hxp ssOpen) 0 fun x => { x with phase := 1 }
     shDie s 0 false < nDies s.part ∧ atOk s 0 = true ∧ engUp s (frameEng s none 0) = true ∧ (getAssoc s 0).phase = 1) ∧
    (let s := poke (modAssoc (hxp ssOpen) 0 fun x => { x with phase := 2, lease := .steering }) (229376 + 13) (w64 (2 ^ 61 + 2 ^ 60))
     (getAssoc s 0).phase = 2 ∧ isInit s 0 = true ∧ (getAssoc s 0).lease = .steering ∧ lShrB s 0 ≠ prefB s 0 ∧ shUp s 0 (prefB s 0) = true) ∧
    (let s := poke (modAssoc (hxp ssOpen) 0 fun x => { x with lease := .steering }) 229376 (w64 (2 ^ 63 + 2 ^ 62))
     atOk s 0 = true ∧ isInit s 0 = false ∧ (getAssoc s 0).lease = .steering) ∧
    ([Lease.lapsed, .claiming, .releasing].all fun l => (getAssoc (modAssoc (hxp ssOpen) 0 fun x => { x with lease := l }) 0).lease == l) = true := by
  decide +kernel
/-- A start field takes effect where its command does not run, and is refused where it does. -/
theorem starts_when_idle {s : State} {d b w cc : Nat} (h : cmdRuns s d b w cc = false) : Starts s d b w cc (cmdBegin s d b w cc) := ⟨h, rfl⟩
theorem still_runs {s : State} {d b w cc : Nat} (h : cmdRuns s d b w cc = true) : StillRuns s d b w cc s := ⟨rfl, h⟩
/-- The command registers, each with its block, word and start field. -/
def cmdRegs : List (Nat × Nat × Nat) :=
  [(bHxp, rHxpScmd, 0), (bChn, rChnUload, 0), (bFrl, rFrlPttcmd, 0), (bWad, rWadKvcmd, 0), (bSch, rSchInvcmd, 0), (bSch, rSchInvcmd, 1),
   (bSch, rSchPstcmd, 0), (bSch, rSchPptcmd, 0), (bSch, rSchPxtcmd, 0), (bMdr, rMdrPaircmd, 0), (bMst, rMstUpdcmd, 0), (bUmb, rUmbCmd, 0),
   (bPwr, rPwrGate, 0), (bFus, rFusProg, 0), (bClu 0, rCluL1ctl, 0)]
theorem witness_command_starts : ∀ r ∈ cmdRegs, cmdRuns up 0 r.1 r.2.1 r.2.2 = false ∧
    cmdRuns { up with cmdBusy := [(cmdKey 0 r.1 r.2.1 r.2.2, 1)] } 0 r.1 r.2.1 r.2.2 = true := by decide +kernel
/-- Entry 0 an ACTIVE SEND of one word to session 0, which is OPEN with window. -/
def sending : State :=
  [(196608, w64 (2 ^ 63 + ssOpen * 2 ^ 60)), (229376, w64 (2 ^ 63)), (1026, 512), (1028, 1)].foldl (fun s p => poke s p.1 p.2)
    (setReg (setReg (modSess (ledger (tables3 up) lActive xkSend) 0 fun x => { x with peerMax := 1 }) 0 bHxp rHxpStbaseLo 196608)
      0 bHxp rHxpAtbaseLo 229376)
/-- The same with no credit left. -/
def spent (s : State) : State := modSess s 0 fun x => { x with txCredit := x.txNext }
theorem witness_HxpCommandsComplete :
    (regOpen up 0 bHxp rHxpScmd && regOpen up 0 bHxp rHxpRawtx && dieLive up 0 && blkEn up 0 bHxp) = true ∧ isInit (poke (hxp ssClosed) 229376 (w64 (2 ^ 63 + 2 ^ 62))) 0 = false ∧
    (let t := scmdEvent (scmd (modAssoc (hxp ssClosed) 0 fun x => { x with phase := 2 }) 0 1 0) 0 1 0
     stOk t 0 = true ∧ atOk t 0 = true ∧ stState t 0 = ssClosed ∧ isInit t 0 = true ∧ (getAssoc t 0).phase = 2) ∧
    (let t := scmdEvent (scmd (hxp ssOpen) 0 2 0) 0 2 0
     stOk t 0 = true ∧ stState t 0 = ssOpen) ∧
    (let t := scmdEvent (scmd (hxp ssClosed) 0 3 0) 0 3 0
     atOk t 0 = true ∧ isInit t 0 = true ∧ (getAssoc t 0).phase = 0) ∧
    (engUp sending 0 = true ∧ servingFor sending (entOwner sending 0) = 0 ∧ sendSession sending 0 = 0 ∧ entKind sending 0 = xkSend ∧
     entState sending 0 = lActive ∧ (getWork sending 0).firstSeq = none ∧ xformOf sending 0 = 0 ∧ stState sending 0 = ssOpen ∧
     (sourceWords sending (xCtx sending (stDie sending 0) 0) 0).toOption = some [0] ∧ 1 ≤ (getSess sending 0).peerMax ∧
     sndFind sending 0 (ent sending 0 1) = none ∧ sndFree sending 0 = some 0 ∧
     serBefore (getSess sending 0).txNext (getSess sending 0).txCredit = true ∧
     serBefore (getSess (spent sending) 0).txNext (getSess (spent sending) 0).txCredit = false) ∧
    (let s := poke sending 196608 (w64 (2 ^ 63 + ssClosed * 2 ^ 60))
     stState s 0 ≠ ssOpen ∧ segSent s 0 0 = false) ∧
    (let s := poke sending 1026 (w64 (2 ^ 18))
     stState s 0 = ssOpen ∧ (sourceWords s (xCtx s (stDie s 0) 0) 0).toOption = none) ∧
    (let s := modSess sending 0 fun x => { x with peerMax := 0 }
     stState s 0 = ssOpen ∧ (getSess s 0).peerMax < ([0] : List Nat).length) ∧
    (let t := setReg (setF up 0 bHxp rHxpPort 3 0 1) 0 bHxp rHxpRawtx (64 * 2 ^ 16)
     portUp t 0 0 = true ∧ portUp t 0 1 = false ∧ (getDie t 0).rawTx = [] ∧
     (getDie (modDie t 0 fun x => { x with rawTx := [.outbound 0 0 0 [0]] }) 0).rawTx ≠ []) := by decide +kernel

/-- Engine 0 with context 0 busy on a microword of zeros, and the stores in use. -/
def micro : State := { modCtx up 0 0 (fun x => { x with busy := true }) with ustores := ⟨[], [], [], [], true⟩ }
/-- The same with context 0 in the sequencer. -/
def inSeq (s : State) : State := modSeq (noteWaits s 0) 0 fun q => { q with cur := 0, running := true }
theorem witness_MicrowordsRunAndTrap :
    (firstBelow 16 fun c => !(getCtx up 0 c).busy) = some 0 ∧
    (let s := evPush up 0 3 1 2
     (getEng s 0).evq = [(3, 1, 2)] ∧ (getEng s 0).flitq = []) ∧
    (let s := modEng up 0 fun e => { e with flitq := [issue3] }
     (getEng s 0).evq = [] ∧ (getEng s 0).flitq = [issue3]) ∧
    (micro.ustores.on = true ∧ nextCtx (noteWaits micro 0) 0 = some 0) ∧
    nextCtx (noteWaits { up with ustores := ⟨[], [], [], [], true⟩ } 0) 0 = none ∧
    uTrap (uNote (inSeq micro) 0 0 (uWord (inSeq micro) 0 0)) 0 0 (uWord (inSeq micro) 0 0) = none ∧
    (let s := { micro with ustores := ⟨[], [(0, 2 ^ 131 - 1)], [], [], true⟩ }
     nextCtx (noteWaits s 0) 0 = some 0 ∧ (uTrap (uNote (inSeq s) 0 0 (uWord (inSeq s) 0 0)) 0 0 (uWord (inSeq s) 0 0)).isSome = true) ∧
    (let s := modSeq micro 0 fun q => { q with running := true, cur := 0 }
     (getSeq s 0).running = true ∧ (getCtx s 0 (getSeq s 0).cur).busy = true) ∧
    (getCtx micro 0 0).trap = false ∧ (getCtx (modCtx micro 0 0 fun x => { x with trap := true }) 0 0).trap = true ∧
    (getCtx (modCtx micro 0 0 fun x => { x with pend := some (.value 5) }) 0 0).pend = some (.value 5) ∧
    (getCtx (modCtx micro 0 0 fun x => { x with pend := some (.read 512 512) }) 0 0).pend = some (.read 512 512) ∧ isPoisoned micro 512 = false ∧
    isPoisoned { micro with poison := [(512, true)] } 512 = true ∧
    (getCtx (modCtx micro 0 0 fun x => { x with timer := some (1, 2) }) 0 0).timer = some (1, 2) ∧
    ((getSeq (modSeq micro 0 fun q => { q with streams := [(1, 0)] }) 0).streams.find? fun p => p.2 == 0) = some (1, 0) := by decide +kernel
theorem witness_StoresAreLoadedAndRewritten :
    (micro.ustores.on = true ∧ nextCtx (noteWaits micro 0) 0 = some 0) ∧
    (getSeq up 0).rewrite = [] ∧
    (let s := modSeq up 0 fun q => { q with rewrite := [(0, true, 16)] }
     (getSeq s 0).rewrite = [(0, true, 16)] ∧ ((shadowWord s true 16).any fun p => isPoisoned s p) = false ∧
     ((shadowWord s true 16).any fun p => isPoisoned { s with poison := [(shadowBase s + 4112 + 50, true)] } p) = true) ∧
    regOpen up 0 bChn rChnUload = true ∧ storesIdle up = false ∧
    (loadStores (poke State.reset (shadowBase State.reset) (w64 (0x4D435331 * 2 ^ 32 + 2 ^ 16))) false).isOk = true := by decide +kernel

/-- Exchange 0's transform: one stage of encryption with key 7, of 16 bytes, on Woad engine 0. -/
def job3 : ChainJob := ⟨0, 3, 16, 0, false, false, 1, [7], none, none, []⟩
/-- Exchange 0, a MOVE with that stage, with its key in the vault. -/
def turning (j : ChainJob) : State := modXf (ciphering xkMove) 0 fun x => { x with jobs := [j], reserved := some 0 }
theorem witness_TransformTurnsComplete :
    (let s := turning job3
     let t := noEngine s 0
     let v := modXf t 0 fun x => { x with reserved := some 0 }
     dieLive s 0 = true ∧ (chooseTurn t 0).2 = some 0 ∧ ((getXf v 0).jobs.find? fun q => q.index == 0) = some job3 ∧ keysBad v 0 0 = none ∧
     turnEngines v 0 job3 = some (none, [0]) ∧ keyPlaces v 0 0 [0] = [(0, 7)] ∧ (cached v 0 0).contains 7 = false ∧
     (cached (modXf v 0 fun x => { x with kcache := [(0, [7])] }) 0 0).contains 7 = true ∧
     (keysBad { v with vault := [] } 0 0).isSome = true ∧
     (woadUp s 0).contains 0 = true ∧ (furlUp s 0).contains 0 = true ∧ (vaultSlot s 7).isSome = true ∧
     blkEn s 0 bFrl = true ∧ regOpen s 0 bFrl rFrlPttcmd = true) ∧
    (chooseTurn (noEngine up 0) 0).2 = none ∧
    (let s := turning { job3 with running := some (none, [0], 16) }
     entState s 0 = lActive ∧ (turnWords s (xCtx s 0 0) 0 0 16).toOption = some [0, 0] ∧
     ((getXf s 0).jobs.find? fun q => q.index == 0) = some { job3 with running := some (none, [0], 16) } ∧
     entState (setEntF s 0 0 63 60 lClosing) 0 ≠ lActive) ∧
    (let s := turning { job3 with running := some (none, [0], 8) }
     (turnWords s (xCtx s 0 0) 0 0 8).toOption = some [0] ∧ job3.done + 8 < job3.total ∧
     canSave { getXf s 0 with jobs := [] } none [0] = some (none, [(0, 0)])) ∧
    (let s := poke (turning { job3 with running := some (none, [0], 8) }) 1026 (w64 (2 ^ 18))
     (turnWords s (xCtx s 0 0) 0 0 8).toOption = none) ∧
    canSave { getXf up 0 with jobs := (List.range 256).map fun n => { job3 with saved := some (none, [(0, n)]) } } none [0] = none := by decide +kernel
theorem witness_VaultCommandsComplete :
    (regOpen up 0 bWad rWadKvcmd && dieLive up 0 && blkEn up 0 bWad) = true ∧ vaultSlot up 8 = none ∧
    (let s := unitRead { up with vault := [(7, some key7), (9, some { key7 with uses := 0 })] } 0 (baseOf up 0 bWad rWadKvaddrHi) 8
     vaultSlot s 7 = some key7 ∧ vaultSlot s 8 = none ∧ bitOf key7.uses 4 = true ∧ bitOf key7.uses 3 = true ∧ (kvBytes s 8).isSome = true ∧
     (kvBytes s 5).isSome = true ∧ (vaultSlot s 9).any (fun v => !bitOf v.uses 3) = true ∧
     kvBytes { s with poison := [(baseOf up 0 bWad rWadKvaddrHi, true)] } 5 = none) := by decide +kernel
theorem witness_TableCommandsAndTenantChannels :
    (regOpen up 0 bSch rSchInvcmd && regOpen up 0 bSch rSchPstcmd && regOpen up 0 bSch rSchPptcmd && regOpen up 0 bSch rSchPxtcmd) = true ∧
    regOpen up 0 bPrt (rPrtRingdb + 3) = true ∧ implemented up.part 0 bPrt (rPrtMbdb + 3) = false ∧
    (let s := { up with part := .p7404 }
     regOpen s 0 bPrt (rPrtMbdb + 3) = true ∧ implemented s.part 0 bPrt (rPrtRingdb + 3) = false) ∧
    (dieLive up 0 && blkEn up 0 bSch && blkEn up 0 bPrt) = true ∧ destroyingPart up = none ∧ destroySettle up = up ∧ up.part = .p7808 ∧
    (let s := { up with part := .p7404 }
     dieLive s 0 = true ∧ blkEn s 0 bPrt = true ∧ bitOf (getReg s 0 bPrt rPrtMbdb) 0 = false ∧ bitOf (getReg s 0 bPrt rPrtMbdb) 1 = false) ∧
    (let s := setReg { up with part := .p7404 } 0 bPrt rPrtMbdb 3
     bitOf (getReg s 0 bPrt rPrtMbdb) 0 = true ∧ bitOf (getReg s 0 bPrt rPrtMbdb) 1 = true) := by decide +kernel
theorem witness_TableCommandsAndTenantChannels_admission :
    let b : State := { up with pcache := [⟨0, .ppt, 3, [w64 (2 ^ 63), 0, 0, 0, 0, 0, 0, 0]⟩] }
    let s := poke b (ptAddr up 0 .ppt 3) (w64 (2 ^ 63 + 2 ^ 14))
    let t := ptFill (ptInvalidate s 0 .ppt 3) 0 .ppt 3
    admissionClosed s 0 3 = false ∧ admissionClosed t 0 3 = true := by decide +kernel
/-- Partition 3 with a range of one frame, 5, its trap frame, FIXED and its own. -/
def owned (st : Nat) : State :=
  { poke (poke up (descAddr up 0 5) (w64 (3 * 2 ^ 54 + st * 2 ^ 46))) 31 0 with
    pcache := [⟨0, .pxt, 3, [w64 (2 ^ 63), w64 (5 * 2 ^ 39 + 2 ^ 14), w64 (5 * 2 ^ 39), 32768, 0, 0, 0, 0]⟩] }
theorem witness_PartitionsAreCreatedAndDestroyed :
    regOpen up 0 bSch rSchPxtcmd = true ∧
    (let s := owned fsFixed
     destroySettle s = s ∧ destroyingPart s = none ∧ ptValid s 0 .pxt 3 = true ∧ pxtPstate s 3 = 0 ∧ trapFrameOk s 3 = true ∧
     rangeOk s 3 = true ∧ createErr s 3 = 0 ∧ createErr s 4 = 1 ∧ destroyErr s 3 = 4) ∧
    (let s := owned fsLive
     trapFrameOk s 3 = false ∧ createErr s 3 = 2) ∧
    (let s := { owned fsFixed with pcache := [⟨0, .pxt, 3, [w64 (2 ^ 63), w64 (5 * 2 ^ 39 + 2 * 2 ^ 14), w64 (5 * 2 ^ 39), 32768, 0, 0, 0, 0]⟩] }
     ptValid s 0 .pxt 3 = true ∧ pxtPstate s 3 = 0 ∧ trapFrameOk s 3 = true ∧ rangeOk s 3 = false ∧ createErr s 3 = 3) ∧
    (let s := poke (owned fsFixed) (ptAddr up 0 .pxt 3 + 7) (w64 (2 ^ 62))
     destroyErr s 3 = 0 ∧ createErr s 3 = 4) ∧
    (let s := modHw (poke (owned fsFixed) (ptAddr up 0 .pxt 3 + 7) (w64 (2 ^ 63))) 3 fun h => { h with destroying := true }
     (destroyingPart (destroySettle s)).isSome = true) := by decide +kernel

theorem witness_RetiredUnitsReturnOrStay :
    (let s := modPe (setF up 0 (bClu 0) rCluPestat 1 0 2) 0 fun x => { x with departs := 1 }
     dieLive s 0 = true ∧ peStat s 0 0 = 2 ∧ (getPe s 0).departs = 1 ∧ emptySlot (report (setPeStat s 0 0 1) 0 (bClu 0) 0 0x0108 cCorrected 0x0D 0 0 0) 0 = none) ∧
    (let s := modPe (setF (setF up 0 (bClu 0) rCluPestat 1 0 2) 0 (bClu 0) rCluPemap 3 0 15) 0 fun x => { x with departs := 1 }
     peStat s 0 0 = 2 ∧ emptySlot (report (setPeStat s 0 0 1) 0 (bClu 0) 0 0x0108 cCorrected 0x0D 0 0 0) 0 = some 0) ∧
    (getPe (setF up 0 (bClu 0) rCluPestat 1 0 2) 0).departs ≠ 1 ∧
    (let s := setF up 0 bMdr rMdrPairstat 1 0 2
     pairStat s 0 0 = 2 ∧ tget (fun _ => 0) (getDie s 0).pairFences 0 ≤ 1 ∧ emptyCore s 0 = none) ∧
    (let s := modDie (setF (setF up 0 bMdr rMdrPairstat 1 0 2) 0 bMdr rMdrPairmap 3 0 15) 0 fun x => { x with pairFences := [(0, 2)] }
     pairStat s 0 0 = 2 ∧ 1 < tget (fun _ => 0) (getDie s 0).pairFences 0 ∧ emptyCore s 0 = some 0) ∧
    (let s := modDie up 0 fun x => { x with pairReset := 1 }
     regOpen s 0 bMdr rMdrPaircmd = true ∧ bitOf (getDie (setF s 0 bMdr rMdrPaircmd 2 0 0) 0).pairReset 0 = true ∧ bitOf (getDie (setF s 0 bMdr rMdrPaircmd 2 0 1) 0).pairReset 1 = false) := by
  decide +kernel
/-- A record in slot 0 of die 0's log. -/
def logged (ack : Bool) : State := setLog up 0 0 (some ⟨ack, 1, false, 0, 0, 0, 0, 0, 0, 0, 0, 0, 0, 0, 0, 0⟩)
theorem witness_FaultsAreLoggedAndContained :
    (dieLive up 0 && dieLive up 1) = true ∧ (getDie up 1).withdrawn = false ∧
    (regOpen up 0 bMdr rMdrFnctl && regOpen up 0 bMdr rMdrWdraw && regOpen up 0 bMdr rMdrInjctl) = true ∧
    busBad up (regIdx 0 bMdr rMdrLogack) true = false ∧ (getDie up 0).rstBusy.contains bMdr = false ∧
    (let s := modDie up 1 fun x => { x with withdrawn := true }
     busBad s (regIdx 1 bMdr rMdrLogack) true = false ∧ (getDie s 1).rstBusy.contains bMdr = false) ∧
    (getDie (modDie up 0 fun x => { x with inj := some ⟨1, 0, 0, 0x0101, 0, 0⟩ }) 0).inj.isSome = true ∧ bitOf 0x0101 31 = false ∧
    ((logAt (setF (logged false) 0 bMdr rMdrLogack 9 0 0) 0 0).map (·.ack)) = some false ∧
    ((logAt (setF (logged true) 0 bMdr rMdrLogack 9 0 0) 0 0).map (·.ack)) = some true ∧ logAt (setF up 0 bMdr rMdrLogack 9 0 0) 0 0 = none ∧
    blkEn up 0 bSch = true ∧ mismWords up 0 bSch = [] ∧
    mismWords (modDie up 0 fun x => { x with perr := [⟨bSch * 2 ^ 20 + rSchPmtbaseHi, 0, false⟩] }) 0 bSch = [rSchPmtbaseHi] ∧
    (let t := setReg up 0 bMdr rMdrInjctl ((2 ^ 31 + 0x0101) % 2 ^ 30)
     bitOf (2 ^ 31 + 0x0101) 31 = true ∧ (getDie t 0).inj = none ∧ injErr t 0 0x0101 0 0 0 = 1) ∧
    (let t := setReg (setReg up 0 bMdr rMdrInjctl 0x0101) 0 bMdr rMdrInjtgt (bClu 0 * 2 ^ 24)
     (getDie t 0).inj = none ∧ injErr t 0 0x0101 (getF t 0 bMdr rMdrInjtgt 31 24) (getF t 0 bMdr rMdrInjtgt 23 16) 0 = 0) := by decide +kernel
/-- A link that fails, and one that is out of service already, on the ring; parity faults of a spar's block and of others. -/
theorem witness_FaultsAreLoggedAndContained_links :
    up.pw.aux = true ∧ up.mst.resetN = false ∧ (getLink up 0 0).out = false ∧
    (getLink (modLink up 0 0 fun l => { l with out := true }) 0 0).out = true ∧
    (getLink (turnBack (turnBack up 0 0) (linkPeer up 0 0).1 (linkPeer up 0 0).2) 0 0).out = true ∧
    blkKind (bClu 0) = some .clu ∧ blkKind bSch = some .sch ∧ blkKind bHxp = some .hxp ∧ blkKind bUmb = some .umb := by decide +kernel
/-- A report of a detector of die 0. -/
def det (b u d : Nat) (f : Finding) : DetReport := ⟨0, BitVec.ofNat 8 b, BitVec.ofNat 8 u, BitVec.ofNat 16 d, f, 0, 0, 0, false⟩
theorem witness_DetectionsAreRecordedAndContained :
    dieUp up 0 = true ∧ detExists up 0 0x0101 (bClu 0) 200 = false ∧
    (detExists up 0 0x0101 (bClu 0) 0 = true ∧ unitKind 0 (bClu 0) 0 0x0101 = .pe 0 ∧ unitServes up 0 (bClu 0) (.pe 0) = true) ∧
    (detExists up 0 0x0113 (bClu 0) 0xFF = true ∧ unitKind 0 (bClu 0) 0xFF 0x0113 = .spar 0 ∧ unitServes up 0 (bClu 0) (.spar 0) = true) ∧
    (detExists up 0 0x0311 bMem 0 = true ∧ unitServes up 0 bMem (unitKind 0 bMem 0 0x0311) = true) ∧
    unitServes (modSpar up 0 fun x => { x with out := true }) 0 (bClu 0) (.spar 0) = false ∧ (det (bClu 0) 0 0x0101 (.wire 2)).inj = false := by
  decide +kernel
/-- An injection that is armed, and one that fits; a wire of an engine and of the clock; the detectors of flits and of the multiplier. -/
theorem witness_DetectionsAreRecordedAndContained_kinds :
    (let r := { det (bClu 0) 0 0x0101 .error with inj := true }
     let s := modDie up 0 fun x => { x with inj := some ⟨1, bClu 0, 0, 0x0101, 0, 0⟩ }
     ((getDie s 0).inj.any fun j => injFits j r) = true ∧ ((getDie up 0).inj.any fun j => injFits j r) = false) ∧
    (detExists up 0 0x0503 (bCen 0) 0xFF = true ∧ unitKind 0 (bCen 0) 0xFF 0x0503 = .engine 0 ∧ unitServes up 0 (bCen 0) (.engine 0) = true) ∧
    ([(bClk, 0xFF, 0x0708), (bClu 0, 0xFF, 0x0111), (bCen 0, 0xFF, 0x0505)].all fun p =>
      detExists up 0 p.2.2 p.1 p.2.1 && unitServes up 0 p.1 (unitKind 0 p.1 p.2.1 p.2.2)) = true := by decide +kernel
theorem witness_BlockHeaderCommandsComplete :
    (blkKind (bClu 1)).isSome = true ∧ (getDie up 0).withdrawn = false ∧ (getDie up 0).rstBusy.contains (bClu 1) = false ∧
    blkEn up 0 (bClu 1) = false ∧ mismWords up 0 (bClu 1) = [] ∧ unitTaken up 0 (bClu 1) = false ∧ openSrc .pl1 = true ∧
    getF up 0 (bClu 1) rBlkCtl 31 31 = 0 ∧ blkEn (setF up 0 (bClu 1) rBlkCtl 0 0 0) 0 (bClu 1) = false ∧
    unitTaken (modSpar up 1 fun x => { x with out := true }) 0 (bClu 1) = true ∧
    mismWords (modDie up 0 fun x => { x with perr := [⟨bClu 1 * 2 ^ 20 + rCluSchctl, 0, false⟩] }) 0 (bClu 1) ≠ [] ∧
    (getDie (modDie up 0 fun x => { x with rstBusy := [bClu 1] }) 0).rstBusy.contains (bClu 1) = true ∧
    blkEn up 0 (bClu 0) = true ∧ heldFrom up 0 (bClu 0) .pl1 = false ∧ blkEn up 0 bSys = true ∧ heldFrom up 0 bWad .pl1 = true ∧
    blkEn up 0 bWad = true := by decide +kernel
theorem witness_BlockHeaderCommandsComplete_held :
    (3 : Csr).toNat = 3 ∧ blkEn up 0 (bClu 0) = true ∧ heldFrom up 0 (bClu 0) .pl1 = false ∧
    heldFrom (setF up 0 (bClu 0) rBlkCtl 31 31 1) 0 (bClu 0) .pl1 = true ∧ ctlFixed (bClu 0) = false ∧ ctlShut (bClu 0) .pl1 = false ∧
    (blkKind bFus).isSome = true ∧ ctlFixed bFus = true ∧ (blkKind bDbg).isSome = true ∧ ctlFixed bDbg = false ∧ ctlShut bDbg .pl1 = true ∧
    (blkKind bMst).isSome = true ∧ (getDie up 1).withdrawn = false ∧ (getDie up 1).rstBusy.contains bMst = false := by decide +kernel
theorem witness_RegisterWritesComplete :
    implemented up.part 0 bSch rSchPmtbaseHi = true ∧ (rowOf bSch rSchPmtbaseHi).isSome = true ∧ rSchPmtbaseHi ≠ rBlkCtl ∧
    isMark bSch rSchFlwm = true ∧ implemented up.part 0 bSch rSchFlwm = true ∧ isClear bPrt rPrtCntClr = true ∧
    implemented up.part 0 bPrt rPrtCntClr = true ∧ isClear bSch rSchFlwm = false ∧ isMark bSch rSchPmtbaseHi = false ∧
    busBad up (2 ^ 20 - 1) true = true ∧
    idxAlias (2 ^ 31 + bSch * 2 ^ 20 + rSchPmtbaseHi * 32) = true ∧ busBad up (2 ^ 31 + bSch * 2 ^ 20 + rSchPmtbaseHi * 32) true = false ∧
    regIdx 0 bSch rSchPmtbaseHi < 2 ^ 32 := by decide +kernel
theorem witness_RegisterWritesComplete_held :
    (rowOf bSch rSchPmtbaseHi).any (fun r => decide (r.rwd &&& (2 ^ 32 - 1) ≠ 0) && r.rw == 0 && !mailHeld up 0 bSch rSchPmtbaseHi) = true ∧
    blkEn up 0 bSch = true ∧
    (let s := setF up 0 bSch rBlkCtl 0 0 0
     blkEn s 0 bSch = false ∧ holdsRwd bSch rSchPmtbaseHi 1 = true ∧ holdsRwd bSch rSchLuffwptr 1 = false) ∧
    (getDie (modDie up 0 fun x => { x with rstBusy := [bSch] }) 0).rstBusy.contains bSch = true ∧
    (rowOf bSch rSchLuffwptr).any (fun r => decide (r.rwd &&& (2 ^ 32 - 1) ≠ 0) && r.rw == 0) = true ∧
    (getDie (modDie up 1 fun x => { x with withdrawn := true }) 1).withdrawn = true ∧ regOpen up 0 bSch rSchInvcmd = true := by decide +kernel

/-- A staged image of 16,384 bytes at word 262,144, of kind 1, which CHECK has passed. -/
def staged : State :=
  let s := poke (setReg (setReg up 0 bMst rMstUpdaddrLo 262144) 0 bMst rMstUpdlen 16384) 262144 (w64 (2 ^ 32))
  { s with mst := { s.mst with checked := some (262144, 16384), programmed := [0] } }
theorem witness_ImageUpdatesFollowTheirChecks :
    mstTakes up = false ∧ mstTakes (setStep staged 15) = true ∧ regOpen (setStep staged 15) 0 bMst rMstUpdcmd = true ∧
    cmdRuns (setStep staged 15) 0 bMst rMstUpdcmd 0 = false ∧
    regOpen staged 0 bMst rMstUpdcmd = true ∧ dieLive staged 0 = true ∧ updLen (setReg staged 0 bMst rMstUpdlen 8) < 16384 ∧
    mstUp staged = true ∧ updAt staged = 262144 ∧ 16384 ≤ updLen staged ∧ (updWords staged).find? (isPoisoned staged) = none ∧
    imSize (memRd staged 262144) = updLen staged ∧ imSize (memRd (setReg staged 0 bMst rMstUpdlen 16392) 262144) ≠ 16392 ∧
    (updWords { staged with poison := [(262145, true)] }).find? (isPoisoned { staged with poison := [(262145, true)] }) = some 262145 ∧
    slotRuns staged 0 = false ∧ committed staged 0 = true ∧ flBlank staged (slotAt 0) (slotSize 0) = true ∧
    memRd staged 262144 4 = slotKind 0 ∧ (updWords staged).any (isPoisoned staged) = false ∧ staged.mst.programmed.contains 0 = true ∧
    staged.mst.programmed.contains 1 = false ∧ ldevUp staged 0 = false ∧ ldevUp (setF staged 0 bChn rChnLdev 31 30 1) 0 = true := by decide +kernel
/-- The commit record in force names slot 0 no longer COMMITTED; in force means its CRC (R463, R583) reads right. -/
def uncommitted : State := flProgram staged (commitAt 0 0) (commitBytes ⟨1, [], []⟩)
theorem witness_ImageUpdatesFollowTheirChecks_uncommitted :
    committed uncommitted 0 = false ∧ (uncommitted.mst.checked == some (262144, 16384)) = true := by decide +kernel
/-- The part at level FULL with set 0 running. -/
def full : State := setReg (setLevel (setStep staged 15) 1) 0 bMst rMstSet (2 ^ 31)
theorem witness_ImageUpdatesFollowTheirChecks_running : slotRuns full 0 = true := by decide +kernel
theorem witness_StagingAndFusesComplete :
    (regOpen up 0 bMst rMstUpddata && regOpen up 0 bMst rMstUpdaddrLo && regOpen up 0 bFus rFusProg) = true ∧
    mstUp up = true ∧ (setF (setF up 0 bFus rFusProg 11 8 2) 0 bFus rFusProg 2 0 1).mst.armed = none ∧
    (let s := { up with mst := { up.mst with armed := some (2, 1, 0) } }
     s.mst.armed = some (2, 1, 0) ∧ (timeOf s 0 - 0).toNat ≤ 1000000 ∧ (burn s.fuses 2 1).isSome = true ∧ cmdRuns s 0 bFus rFusProg 0 = false ∧
     cmdRuns { s with cmdBusy := [(cmdKey 0 bFus rFusProg 0, 1)] } 0 bFus rFusProg 0 = true ∧ s.fuses.dbg ≤ 3) ∧
    burn up.fuses 9 0 = none ∧ 1000000 < (timeOf (modDie up 0 fun x => { x with timebase := 1000001 }) 0 - 0).toNat := by decide +kernel

/-- The part after step 14. -/
def after14 : State := setStep up 14
theorem witness_SupplyFailuresAndTamper :
    (regOpen up 0 bPwr rPwrRtcLo && regOpen up 0 bPwr rPwrTamper) = true ∧
    (after14.pw.aux = true ∧ after14.mst.resetN = false ∧ started after14 = true ∧ after14.pw.hv = true ∧ after14.pw.warned = false) ∧
    (up.pw.aux = true ∧ up.mst.resetN = false ∧ started up = false ∧ up.pw.warned = false) ∧ up.mst.job = none ∧ up.mst.fuseJob = none ∧
    ({ up with fatal := true }.pw.hv = true ∧ { up with fatal := true }.fatal = true ∧ up.fatal = false ∧ up.pw.hv = true) ∧
    ({ up with pw := { up.pw with aux := false } }.pw.domainLost = false) ∧
    ({ after14 with pw := { after14.pw with warned := true } }.pw.warned = true) ∧ State.reset.pw.hv = false ∧ up.pw.domainLost = false ∧
    (∀ vbat, answersNext (exec (.auxLoss vbat) up) = true) ∧
    ({ up with pw := { up.pw with aux := false, domainLost := true } }.pw.domainLost = true) ∧ dieUp up 0 = true := by decide +kernel
theorem witness_ReefLevelsAndTemperature :
    regOpen up 0 bPwr rPwrReef = true ∧ mstUp (modDie up 0 fun x => { x with blkOut := [bMst] }) = false ∧
    ({ up with pw := { up.pw with level2 := true } }.pw.level2 = true) ∧ (getDie (report up 0 bPwr 3 0x070B cCorrected 0 0 0 0) 0).sensOut.length ≤ 8 ∧
    (up.pw.hv = true ∧ dieUp up 0 = true ∧ reefTarget up = getF up 0 bPwr rPwrReef 5 4 ∧ mstUp up = true ∧ up.pw.level2 = false ∧ up.pw.alarm = false) ∧
    (let s := setF (setF up 0 bPwr rPwrReef 1 0 0) 0 bPwr rPwrReef 5 4 1
     let t := setF s 0 bPwr rPwrReef 7 6 2
     s.pw.reef = .steady ∧ reefTarget s < 1 ∧ getF s 0 bPwr rPwrReef 5 4 = 1 ∧ 1 < reefTarget t ∧ getF t 0 bPwr rPwrReef 5 4 = 1 ∧
     slowDue s = false ∧ slowDue t = true) ∧
    ([ReefPhase.raised 0, .lowering].all fun p => { up with pw := { up.pw with reef := p } }.pw.reef == p) = true ∧
    getF (setF up 0 bPwr rPwrReef 7 6 0) 0 bPwr rPwrReef 7 6 = 0 ∧ getF (setF up 0 bPwr rPwrReef 7 6 1) 0 bPwr rPwrReef 7 6 = 1 ∧
    getF (setF up 0 bPwr rPwrReef 7 6 2) 0 bPwr rPwrReef 7 6 = 2 ∧ ({ up with pw := { up.pw with alarm := true } }.pw.alarm = true) ∧
    (getDie up 0).sensOut.contains 3 = false ∧
    (let s := modDie up 0 fun x => { x with sensOut := [0, 1, 2, 4, 5, 6, 7, 8] }
     (getDie s 0).sensOut.contains 3 = false ∧
     8 < (getDie (report (modDie s 0 fun x => { x with sensOut := x.sensOut ++ [3] }) 0 bPwr 3 0x070B cCorrected 0x00 0 0 0) 0).sensOut.length) := by
  decide +kernel
theorem witness_ReefLevelsAndTemperature_limits :
    getF (setF up 0 bPwr rPwrReef 9 8 2) 0 bPwr rPwrReef 9 8 = 2 ∧ (getDie (modDie up 0 fun x => { x with sensOut := [3] }) 0).sensOut.contains 3 = true := by
  decide +kernel
theorem witness_UmberGatingAndTimebase :
    (regOpen up 0 bUmb rUmbCmd && regOpen up 0 bPwr rPwrGate) = true ∧ getF up 0 bUmb rUmbCfg 15 8 < 256 ∧
    (let s := setF up 0 bUmb rUmbCmd 29 28 1
     s.pw.hv = true ∧ mstUp s = true) ∧
    (up.pw.hv = true ∧ mstUp up = true ∧ dieUp up 0 = true) ∧
    ([61, 62, 63].all fun m => refGood up 0 m 0) = true ∧
    (let s := { setStep up 15 with ageDue := [⟨3, 0, [], 0, 0, 0, 0, 0⟩] }
     mstUp s = true ∧ startStep s = 15 ∧ s.ageDue = [⟨3, 0, [], 0, 0, 0, 0, 0⟩]) ∧
    offsetOf up 0 1 < 24 ∧ gateTarget (bClu 1) 0 = true ∧ gateBusy up 0 (bClu 1) 0 = false ∧ heldFrom up 0 (bClu 1) .pl1 = false ∧
    gateBusy up 0 (bClu 0) 0 = true ∧ gateTarget bWad 0 = true ∧ gateBusy up 0 bWad 0 = false ∧ heldFrom up 0 bWad .pl1 = true := by decide +kernel
/-- A reference that reads badly, armed perturbations of a sample and of a canary, offsets at their cap, and a unit with no gate. -/
theorem witness_UmberGatingAndTimebase_armed :
    ([61, 62, 63].find? fun m => !refGood up 0 m (if m = 61 then 5 else 0)) = some 61 ∧
    armed up 0 0x0711 bUmb 61 3 = none ∧
    (armed (modDie up 0 fun x => { x with inj := some ⟨1, bUmb, 61, 0x0711, 3, 0⟩ }) 0 0x0711 bUmb 61 3).isSome = true ∧
    canaryArmed up 0 (.pair 0) = none ∧
    (canaryArmed (modDie up 0 fun x => { x with inj := some ⟨1, bUmb, 32, 0x0712, 3, 0⟩ }) 0 (.pair 0)).isSome = true ∧
    (let s := setOffset (setOffset (setOffset up 0 0 24 false) 0 1 24 false) 0 2 24 false
     24 ≤ offsetOf s 0 0 ∧ 24 ≤ offsetOf s 0 1 ∧ 24 ≤ offsetOf s 0 2) ∧
    getF up 0 bUmb rUmbCfg 15 8 < 255 ∧ 0 ≤ getF up 0 bUmb rUmbCfg 15 8 ∧
    gateTarget bSys 0 = false := by decide +kernel
theorem witness_PortWordsComplete :
    mstUp up = true ∧ up.spiDead = false ∧ (getPort up .spi).want = .command ∧ (getPort up .spi).access = none ∧
    (getPort up .i3c).want = .command ∧ (getPort up .i3c).access = none ∧
    (let s := modPort up .spi fun x => { x with access := some (0, some 1) }
     (getPort s .spi).access = some (0, some 1) ∧ noAnswer s 0 = false) ∧
    (let s := modPort up .i3c fun x => { x with access := some (0, none) }
     (getPort s .i3c).access = some (0, none) ∧ noAnswer s 0 = false) := by decide +kernel
/-- In NOSTART an access to the log is made, and one to another block is not. -/
theorem witness_PortWordsComplete_noStart :
    noStartShut up .port 0 false = false ∧ (startLevel (setLevel up 4) = 4 ∧ noStartShut (setLevel up 4) .port (2 ^ 20 * bSch) true = true) ∧
    noStartShut (setLevel up 4) .i3c (2 ^ 20 * bMst + 32 * rMstUpdcmd) true = true ∧
    noStartShut (setLevel up 4) .i3c (2 ^ 20 * bMdr + 32 * rMdrLog) false = false := by decide +kernel
/-- An access while the high-voltage stages are off, of a block that they supply. -/
theorem witness_PortWordsComplete_noAnswer : noAnswer { up with pw := { up.pw with hv := false } } (2 ^ 20 * bSch) = true := by decide +kernel
theorem witness_SerialContactsComplete :
    mstUp up = true ∧
    (let s := { up with i3c := { up.i3c with enabled := true, dynamic := some 9, causes := 2 } }
     s.i3c.enabled = true ∧ s.i3c.dynamic.isSome = true ∧ s.i3c.role = false ∧ firstCause s = some 1 ∧ s.i3c.again = none ∧ s.i3c.nacks < 8) ∧
    (let s := { up with i3c := { up.i3c with enabled := true, dynamic := some 9, causes := 2, again := some 1, nacks := 8 } }
     s.i3c.again = some 1 ∧ 8 ≤ s.i3c.nacks) ∧
    ({ up with i3c := { up.i3c with role := true } }.i3c.role = true) ∧ dieLive up 0 = true ∧ up.pw.hv = true ∧ up.pw.aux = true ∧
    debugRuns up = true ∧ debugRuns (setF up 0 bDbg rDbgCtl 0 0 0) = false ∧ debugClosed up = false ∧ up.rawHalt ≠ true ∧
    debugClosed { up with fusesIn := { up.fusesIn with dbg := 3 } } = true := by decide +kernel
theorem witness_SerialContactsComplete_codes :
    (([1] : List Byte).head?.map (·.getLsbD 0)) = some true ∧ up.i3c.dynamic = none ∧
    (0x33 : BitVec 8).toNat ∉ [0x00, 0x01, 0x06, 0x07, 0x80, 0x81, 0x87, 0x88, 0x8B, 0x8C, 0x8D, 0x8E, 0x8F, 0x90, 0x91] ∧
    (0x58 : Byte).toNat / 2 = 0x2C + up.straps.toNat % 4 ∧ (0x5A : Byte).toNat / 2 ≠ 0x2C + up.straps.toNat % 4 ∧
    (let s := { up with i3c := { up.i3c with dynamic := some 9 } }
     ibiWins s ⟨none, true⟩ = true ∧ ibiWins s ⟨some (10, false), false⟩ = true ∧ ibiWins s ⟨some (8, true), true⟩ = false ∧
     ibiWins s ⟨some (9, true), true⟩ = false) ∧
    ([TapIns.idcode, .bypass, .samplePreload, .extest, .debug 9].all fun i =>
      ({ up with tap := { up.tap with ir := i } } : State).tap.ir == i) = true ∧ up.pw.hv = true ∧
    subPorts up 0 = 1 ∧ ({ up with i3c := { up.i3c with again := some 1 } }.i3c.again = some 1) := by decide +kernel
/-- Every start test of every die passes. -/
def passing : StartInputs :=
  let b : BootRec := ⟨0, 0, 0, 0, 0, [], [], [], [], [], 0, false, false, 0, 0⟩
  ⟨List.replicate 8 ⟨true, true, true, 7, 2 ^ 30, BitVec.allOnes 32, BitVec.allOnes 288, BitVec.allOnes 9, []⟩, b, b, 0, 0, true, none⟩
theorem witness_StartAndResetComplete :
    (up.pw.aux = true ∧ up.mst.resetN = false) ∧ ({ up with pw := { up.pw with aux := false } }.pw.aux = false) ∧
    (State.reset.pw.aux = true ∧ State.reset.mst.resetN = true) ∧
    (let t := { setStep up 5 with mst := { (setStep up 5).mst with pwrok := true } }
     mstUp t = true ∧ startStep t = 5 ∧ t.fatal = false) ∧
    (let s := { after14 with pw := { after14.pw with warned := true } }
     s.pw.warned = true ∧ started s = true ∧ s.fatal = false ∧ mstUp s = true ∧ s.mst.pwrok = false) ∧
    passing.ends = none ∧ ({ passing with ends := some (.power 3) }.ends = some (.power 3)) ∧ up.mst.job = none ∧ up.mst.fuseJob = none ∧
    (startStep after14 = 14 ∧ after14.pw.warned = false ∧ dieLive after14 0 = true ∧ (journalReplay after14 []).isSome = true) := by decide +kernel
theorem witness_StartLevelsFollowTheTests :
    minimumMet { up with mst := { up.mst with flashUp := true } } passing = true ∧ zeroPasses up passing = true ∧
    minimumMet up { passing with tests := [] } = false ∧
    zeroPasses up { passing with tests := [⟨true, true, true, 3, 2 ^ 30, BitVec.allOnes 32, BitVec.allOnes 288, BitVec.allOnes 9, []⟩] } = false ∧
    bestSet up = none := by decide +kernel
theorem witness_StepRunsTheFrontCommandOrOneTick :
    { up with pending := [Instr.mstCheck] }.pending = [Instr.mstCheck] ∧ up.pending = [] := by decide +kernel
theorem witness_EveryCommandOfThePartCompletes :
    nDies ({ up with part := .p7202 } : State).part ≤ 2 ∧ WellFormed up.part .mstCheck = true ∧ WellFormed up.part (.testAccessPortOperation (.debug 0 [])) = true ∧
    debugRuns (setF up 0 bDbg rDbgCtl 0 0 0) = false := by decide +kernel
theorem witness_EveryStepKeepsTheStoresCanonical :
    StoresWf up ∧ answersNext (step up) = true := by unfold StoresWf; decide +kernel
theorem witness_BlockCommandsLeaveMemory :
    answersNext (exec (.blkEnable 0 0x21 .pl2) up) = true ∧ answersNext (exec (.blkRst 0 0x21 1 .pl2) up) = true ∧
    answersNext (exec (.pxtInv 0 3) up) = true ∧ answersNext (exec (.frlPttcmd 0 3) up) = true ∧
    answersNext (exec (.fusGo 2 1) up) = true ∧
    answersNext (exec (.kvGen 7 8) up) = true ∧ answersNext (exec (.kvImport 7 8) up) = true ∧ answersNext (exec (.kvDerive 7 8) up) = true ∧
    answersNext (exec (.kvSetattr 7 8) up) = true ∧ answersNext (exec (.kvZero 7 8) up) = true ∧ homesQuiet up = true ∧
    answersNext (exec (.mailboxIgo 3) { up with part := .p7404 }) = true := by decide +kernel
end Sys2Proof.Tests
end

section
/-! SUPPORT. Every command answers a next state, but a debug instruction of the test access port that runs (R3, R5, R662): once for each
guard of the commands, and from these for each command. -/

namespace Sys2Proof.Machine

theorem onDie_completes (s : State) (d : Nat) (t : State) : ∃ u, onDie s d t = .next u := ⟨_, rfl⟩

theorem execTrapDelivery_completes (trap : Nat) (s : State) : ∃ t, execTrapDelivery trap s = .next t := by
  unfold execTrapDelivery
  split
  · exact unitDo_completes _ _ _ _
  · exact ⟨s, rfl⟩

theorem execCompactInstruction_completes (core : CoreId) (op : CompactOp) (rd rs : Fin 32) (s : State) :
    ∃ t, execCompactInstruction core op rd rs s = .next t := by
  cases op with
  | c16 op => exact instrDo_completes _ _ _ _
  | other e => exact instrDo_completes _ _ _ _

theorem execCsrrd_completes (core : CoreId) (op : CsrForm) (s : State) : ∃ t, execCsrrd core op s = .next t := by
  cases op with
  | reg rd rs1 rs2 => exact instrDo_completes _ _ _ _
  | imm rt fn3 rsv csridx => exact instrDo_completes _ _ _ _

theorem execCsrwr_completes (core : CoreId) (op : CsrForm) (s : State) : ∃ t, execCsrwr core op s = .next t := by
  cases op with
  | reg rd rs1 rs2 => exact instrDo_completes _ _ _ _
  | imm rt fn3 rsv csridx => exact instrDo_completes _ _ _ _

theorem execHomeRequest_completes (line : BitVec 45) (req : HomeReq) (s : State) : ∃ t, execHomeRequest line req s = .next t := by
  unfold execHomeRequest
  dsimp only
  split
  · exact ⟨_, rfl⟩
  · exact ⟨s, rfl⟩
  · exact unitDo_completes _ _ _ _

theorem execOpenResend_completes (target : HxpTarget) (s : State) : ∃ t, execOpenResend target s = .next t := by
  cases target with
  | assoc i => exact unitDo_completes _ _ _ _
  | session n => exact unitDo_completes _ _ _ _

/-- Every command but those of the test access port answers a next state, by the guard through which it acts. -/
theorem exec_completes (s : State) (c : Instr) (h : ∀ op, c ≠ .testAccessPortOperation op) : ∃ t, exec c s = .next t := by
  cases c with
  | tokenArrival | probeDataReturn | eviction | flitIngress | diversionStart | diversionEnd | spillRingAppend |
    spillRingHoldRetry | spillRingConsume | spillRingMeasure | purge | purgeComplete | meshHop | linkFlitReceive | escapeSend |
    escapeReceive | creditReturn | readyPromote | dispatch | flowKeyReturn | flowRequest | flowRequestRetry |
    flowRelease | flowCancel | itemTake | wqpostRetry | ratlineRecordWrite | admissionNotice | luffEvaluate | gateRequest |
    gateRelease | gateGrantRetry | inboundAllocRetry | inboundAllocTimeout | fetchRequest | fetchReply | runlimit | outputLeave |
    decimalRequestAccept | decimalResult | memreadData | snoopTimeout | patrolScrubRead | lockstepMismatch | eventRaise |
    eventAccept | exchangeIssue | handoff | intakeSpillMove | rescan | journalDurable | journalControlRewrite |
    numblk | exchangeStart | transferDone | terminalStateWrite | ledgerRetire | completionRecordRetry | nvmeCompletion |
    nvmeTimeout | abortDone | engineWatchdog | takeover | hxpFrameReceive | data | ack | nak | open_ | openAck | close |
    closeAck | reset | lease | leaseAck | probe | closingTimeout | ackTimer | nakTimer | retransmitTimeout | shroudDown | probeTimer |
    leaseRenewal | leaseEnd | leaseLapsedReclaim | failback | hxpSendStart | contextTakeEvent | microword | longrun |
    memoryReadComplete | contextTimerExpire | storeRewrite | transformTurnStart | turnEnd | keyCacheFetch | xformEngineLoss |
    faultDetection | peBistDone | pairBistDone | linkFailure | dieWithdrawal | configParityCheck |
    thermtrip | sensorOutOfUse | canaryIntervalEnd | ethernetLinkChange | streamCommandComplete =>
    exact unitDo_completes _ _ _ _
  | flowGrant | eventRoute | blkResetDone | retryCounterLeak => exact onDie_completes _ _ _
  | l1dInvalidate | evcSet | evcDone | evcCoreEnWrite | idrAck | hxpOpenSession | hxpCloseSession | hxpOpenAssociation |
    hxpRawtx | chnUload | kvGen | kvImport | kvDerive | kvSetattr | kvZero | frlPttcmd | schInvPmt | schInvCc | schPstcmd |
    schPptcmd | pxtInv | create | destroy | mailboxIgo | mailboxIack | mailboxOgo | mailboxOack | ringDoorbell | mdrPaircmd |
    mdrLogack | mdrFnctlWrite | mdrWdraw | mdrInjctl | blkEnable | blkDisable | blkRst | blkClrrej | mstCheck | mstInval |
    mstErase | mstProgram | mstCommit | jreport | mstUpddataWrite | mstUpdaddrLoWrite | fusArm | fusGo | pwrRtcWrite |
    pwrTamperClr | pwrReefWrite | umbSampleNow | umbReplanNow | gatePowerOff | gatePowerOn =>
    exact regDo_completes _ _ _ _ _ _
  | nop | commit | end_ | fence | fenceDev | eret | wfe | sys | intRegOp | intImmOp | classMove | rdflg | clrflg | addcSubc |
    mulw | divsDivu | fpOperation | fcat | fcvt | padd | psub | pchk | condBranch | jmp | call | jr | ld | st | ldw | stw | lr |
    sc | amo | send | sendSig | sendp | sendpSig | fetch | falloc | fallocG | ffree | ffreeG | xissue | wqpost | sprd | spwr |
    evsrcRead | evdoneWrite | bpctlFlush | xlinv =>
    exact instrDo_completes _ _ _ _
  | reservationTimeout core | lrHoldExpire core =>
    cases core with
    | pe | sup => exact unitDo_completes _ _ _ _
  | resetNDeassert | resetNAssert | pwrokAssert | luffIntervalEnd | snoopReceive | snoopAnswer | journalWriteFail |
    controllerFatal | controllerResetTimeout | powerFailWarning | pfailJournalStop | pfailGpfStart | journalReplay |
    faultNPulseExpire | counterClear | watermarkWrite | registerWrite | vin48Loss | powerReturnReset | tamperZeroise | auxLoss |
    reefChange | thermalLevelStep | thrmalrtNAssert | thrmalrtNDeassert | powerLimitStep | umberSample | dailyReplan |
    ageingLogWrite | timebaseAlignment | spiFrame | spiIdleTimeout | read | write | poll | rdata | portrd | portclr |
    portAccessEnd | i3cPrivateWrite | i3cPrivateRead | i3cCcc | ibi | ibiRetry | getacccr | auxRestore | controllerRoleRequest =>
    exact ⟨_, rfl⟩
  | trapDelivery => exact execTrapDelivery_completes _ _
  | compactInstruction => exact execCompactInstruction_completes _ _ _ _ _
  | csrrd => exact execCsrrd_completes _ _ _
  | csrwr => exact execCsrwr_completes _ _ _
  | homeRequest => exact execHomeRequest_completes _ _ _
  | openResend => exact execOpenResend_completes _ _
  | testAccessPortOperation op => exact absurd rfl (h op)

/-! ### The test access port (R662) -/

/-- A scan completes unless a debug instruction is loaded and runs. -/
theorem tapUnder_completes {s : State} (l : List Bool) (h : ∀ code, s.tap.ir = .debug code → debugRuns s = false) :
    ∃ t, tapUnder s l = .next t := by
  unfold tapUnder
  cases hir : s.tap.ir with
  | idcode | bypass | samplePreload | extest => exact ⟨_, rfl⟩
  | debug code => exact ⟨tapBypass s l, if_neg (ne_true_of_eq_false (h code hir))⟩

/-- A scan completes, or it is refused for the debug unit. -/
theorem tapUnder_outcome (s : State) (l : List Bool) : (∃ t, tapUnder s l = .next t) ∨ tapUnder s l = .refused .debugUnit := by
  cases hd : debugRuns s with
  | false => exact .inl (tapUnder_completes l fun _ _ => hd)
  | true =>
    unfold tapUnder
    cases s.tap.ir with
    | idcode | bypass | samplePreload | extest => exact .inl ⟨_, rfl⟩
    | debug code => exact .inr (if_pos hd)

theorem execTestAccessPortOperation_off {s : State} (op : TapOp) (h : s.pw.aux = false) :
    execTestAccessPortOperation op s = .next s := by
  unfold execTestAccessPortOperation; rw [h]; rfl

/-- Whether debug instructions run does not depend on the instruction register. -/
theorem debugRuns_tapLoad (s : State) (i : TapIns) : debugRuns (tapLoad s i) = debugRuns s := rfl

/-- An operation of the port completes, unless it scans under a debug instruction while AUX is there and debug access is open. -/
theorem execTestAccessPortOperation_completes {s : State} {op : TapOp}
    (h : s.pw.aux = true → debugRuns s = true → ∀ code l, op ≠ .debug code l ∧ (op = .scan l → s.tap.ir ≠ .debug code)) :
    ∃ t, execTestAccessPortOperation op s = .next t := by
  cases ha : s.pw.aux with
  | false => exact ⟨s, execTestAccessPortOperation_off op ha⟩
  | true =>
    have closed {code l} (hop : op = .debug code l ∨ op = .scan l ∧ s.tap.ir = .debug code) : debugRuns s = false := by
      refine Bool.eq_false_iff.mpr fun hr => ?_
      obtain ⟨hdebug, hscan⟩ := h ha hr code l
      exact hop.elim hdebug fun ⟨hop, hir⟩ => hscan hop hir
    unfold execTestAccessPortOperation
    rw [if_neg (by simp [ha])]
    cases op with
    | idcode | bypass | samplePreload | extest => exact tapUnder_completes _ nofun
    | debug code l => exact tapUnder_completes l fun _ _ => closed (.inl rfl)
    | scan l => exact tapUnder_completes l fun _ hir => closed (.inr ⟨rfl, hir⟩)
    | trst | halt => exact ⟨_, rfl⟩

theorem execTestAccessPortOperation_outcome (op : TapOp) (s : State) :
    (∃ t, execTestAccessPortOperation op s = .next t) ∨ execTestAccessPortOperation op s = .refused .debugUnit := by
  unfold execTestAccessPortOperation
  split
  · exact .inl ⟨s, rfl⟩
  · cases op with
    | idcode | bypass | samplePreload | extest | debug | scan => exact tapUnder_outcome _ _
    | trst | halt => exact .inl ⟨_, rfl⟩

/-! ### All commands -/

/-- What a command can answer: a next state, or the one refusal of a debug instruction. -/
theorem exec_outcome (s : State) (c : Instr) : (∃ t, exec c s = .next t) ∨ exec c s = .refused .debugUnit := by
  by_cases h : ∃ op, c = .testAccessPortOperation op
  · obtain ⟨op, rfl⟩ := h
    exact execTestAccessPortOperation_outcome op s
  · exact .inl (exec_completes s c fun op hc => h ⟨op, hc⟩)

/-- Settles O3: each command completes through its guard, and the port's operations through the instruction they scan under. -/
theorem everyCommandOfThePartCompletes : Obligations.EveryCommandOfThePartCompletes := by
  refine ⟨fun s c h => ?_, fun s c r hr => ?_, fun _ _ f => f.rec, fun s die spar hd => ?_⟩
  · by_cases hc : ∃ op, c = .testAccessPortOperation op
    · obtain ⟨op, rfl⟩ := hc
      exact execTestAccessPortOperation_completes (h op rfl)
    · exact exec_completes s c fun op e => hc ⟨op, e⟩
  · rcases exec_outcome s c with ⟨t, ht⟩ | ht
    · rw [ht] at hr; cases hr
    · rw [ht] at hr; cases hr; rfl
  · have habsent : ¬ (die : Nat) < nDies s.part := Nat.not_lt.mpr hd
    exact ⟨unitDo_absent _ _ habsent, unitDo_absent _ _ habsent, fun _ _ => unitDo_absent _ _ habsent⟩

end Sys2Proof.Machine
end

section
/-! SUPPORT. Writes of registers (R12, R15, R222, R550 to R553, R560): the parts of an index, the verdict on a write from PL2,
what the fields of a register take, and what a write that reaches its register does. -/

namespace Sys2Proof.Machine

/-! ### The parts of the index of a register (R550) -/

section Index
variable {d b w : Nat}

theorem idxDie_regIdx (hd : d < 8) (hb : b < 2 ^ 8) (hw : w < 2 ^ 20) : idxDie (regIdx d b w) = d := by
  unfold idxDie regIdx fld; omega

theorem idxBlk_regIdx (hb : b < 2 ^ 8) (hw : w < 2 ^ 20) : idxBlk (regIdx d b w) = b := by
  unfold idxBlk regIdx fld; omega

theorem idxAlias_regIdx (hd : d < 8) (hb : b < 2 ^ 8) (hw : w < 2 ^ 20) : idxAlias (regIdx d b w) = false := by
  have hlt : regIdx d b w < 2 ^ 31 := by unfold regIdx; omega
  unfold idxAlias bitOf
  rw [Nat.div_eq_of_lt hlt]; rfl

theorem idxWord_of_bitForm {i : Nat} (h : idxAlias i = true) : idxWord i = fld i 19 5 := if_pos h

theorem idxWord_regIdx (hd : d < 8) (hb : b < 2 ^ 8) (hw : w < 2 ^ 20) : idxWord (regIdx d b w) = w := by
  unfold idxWord
  rw [idxAlias_regIdx hd hb hw]
  unfold regIdx fld
  simp only [Bool.false_eq_true, if_false]
  omega

end Index

theorem nDies_le_eight (p : PartKind) : nDies p ≤ 8 := by cases p <;> decide

/-! ### The verdict on a write from PL2, and its effect (R222, R552, R553) -/

/-- PL2 is refused no register: its write raises a bus error, or it reaches the register or, by the bit form of its index,
one bit of it (R222, R551). -/
theorem csrWrite_pl2 (s : State) (i v : Nat) :
    (csrWrite s .pl2 i v).2 =
      if busBad s i true = true then busCount s i
      else if idxAlias i = true then
        regWrite s (idxDie i) (idxBlk i) (idxWord i) (v % 2 * 2 ^ fld i 4 0) (2 ^ fld i 4 0) .pl2
      else regWrite s (idxDie i) (idxBlk i) (idxWord i) v (2 ^ 32 - 1) .pl2 := by
  have hverdict : csrVerdict s .pl2 i true = if busBad s i true = true then 1 else 0 := rfl
  unfold csrWrite
  rw [hverdict]
  cases busBad s i true with
  | true | false => rfl

/-- A register that exists on a die in service raises no bus error. -/
theorem busBad_regIdx {s : State} {d b w : Nat} (hb : b < 2 ^ 8) (hw : w < 2 ^ 20) (hd : d < nDies s.part)
    (hi : implemented s.part d b w = true) (hs : (getDie s d).withdrawn = false) : busBad s (regIdx d b w) true = false := by
  have h8 : d < 8 := Nat.lt_of_lt_of_le hd (nDies_le_eight _)
  unfold busBad
  rw [idxDie_regIdx h8 hb hw, idxBlk_regIdx hb hw, idxWord_regIdx h8 hb hw]
  simp [hi, hs, hd]

theorem csrWrite_pl2_regIdx {s : State} {d b w : Nat} (v : Nat) (hb : b < 2 ^ 8) (hw : w < 2 ^ 20) (hd : d < nDies s.part)
    (hi : implemented s.part d b w = true) (hs : (getDie s d).withdrawn = false) :
    (csrWrite s .pl2 (regIdx d b w) v).2 = regWrite s d b w v (2 ^ 32 - 1) .pl2 := by
  have h8 : d < 8 := Nat.lt_of_lt_of_le hd (nDies_le_eight _)
  rw [csrWrite_pl2, if_neg (ne_true_of_eq_false (busBad_regIdx hb hw hd hi hs)),
    if_neg (ne_true_of_eq_false (idxAlias_regIdx h8 hb hw)),
    idxDie_regIdx h8 hb hw, idxBlk_regIdx hb hw, idxWord_regIdx h8 hb hw]

/-! ### What the fields of a register take (R12, R15, R560) -/

/-- The fields take the write, and then the pulses of the bits written as 1 act (R551). -/
theorem regWrite_fields_pulses {s : State} {d b w : Nat} {r : RegRow} (v mask : Nat) (src : CsrSrc) (hr : rowOf b w = some r)
    (hs : (getDie s d).withdrawn = false) (hb : (getDie s d).rstBusy.contains b = false) (hw : w ≠ rBlkCtl) :
    regWrite s d b w v mask src =
      if v &&& r.w1p &&& mask = 0 then takeFields s d b w v mask r
      else countOnce s (pulse (takeFields s d b w v mask r) d b w
        (regStored (takeFields s d b w v mask r) d b w ||| (v &&& r.w1p &&& mask)) (v &&& r.w1p &&& mask) src) d b := by
  unfold regWrite
  rw [hr]
  dsimp only
  rw [if_neg (by simp [hs]), if_neg (ne_true_of_eq_false hb), if_neg hw]

section Rwd
/-! A register without RW fields, written in its RWD fields. -/
variable {s : State} {d b w v mask : Nat} {r : RegRow}

/-- The RWD fields of an enabled block refuse the write, which is counted. -/
theorem takeFields_enabled (hrw : r.rw = 0) (hm : r.rwd &&& mask ≠ 0) (he : blkEn s d b = true) :
    takeFields s d b w v mask r = reject s d b := by
  unfold takeFields
  simp only [hrw, he, if_true, Nat.or_zero, Nat.zero_and, Bool.true_and, bne_iff_ne, ne_eq, hm, not_false_eq_true]

/-- The RWD fields of a disabled block take the write, held back or at once. -/
theorem takeFields_disabled (hrw : r.rw = 0) (hm : r.rwd &&& mask ≠ 0) (hmail : mailHeld s d b w = false)
    (he : blkEn s d b = false) :
    takeFields s d b w v mask r =
      if holdsRwd b w (r.rwd &&& mask) = true then
        parityWrite (setHeld s d b w (merged (regStored s d b w) v (r.rwd &&& mask))) d b w
      else parityWrite (fieldWrite s d b w (merged (getReg s d b w) v (r.rwd &&& mask)) (r.rwd &&& mask)) d b w := by
  have hown : r.rwd &&& (r.rwd &&& mask) = r.rwd &&& mask := by rw [← Nat.and_assoc, Nat.and_self]
  unfold takeFields
  simp only [hrw, he, hmail, hm, hown, if_true, if_false, Bool.false_eq_true, Bool.false_and, Nat.zero_or, Nat.zero_and]

/-- The RWD fields of a disabled block wait for its next enabling. -/
theorem takeFields_held (hrw : r.rw = 0) (hm : r.rwd &&& mask ≠ 0) (hmail : mailHeld s d b w = false) (he : blkEn s d b = false)
    (hh : holdsRwd b w (r.rwd &&& mask) = true) :
    takeFields s d b w v mask r = parityWrite (setHeld s d b w (merged (regStored s d b w) v (r.rwd &&& mask))) d b w :=
  (takeFields_disabled hrw hm hmail he).trans (if_pos hh)

/-- The RWD fields that a disabled block does not hold back take the write at once. -/
theorem takeFields_live (hrw : r.rw = 0) (hm : r.rwd &&& mask ≠ 0) (hmail : mailHeld s d b w = false) (he : blkEn s d b = false)
    (hh : holdsRwd b w (r.rwd &&& mask) = false) :
    takeFields s d b w v mask r =
      parityWrite (fieldWrite s d b w (merged (getReg s d b w) v (r.rwd &&& mask)) (r.rwd &&& mask)) d b w :=
  (takeFields_disabled hrw hm hmail he).trans (if_neg (ne_true_of_eq_false hh))

end Rwd

/-! ### The commands that write registers -/

theorem exec_counterClear {b : BitVec 8} {w : BitVec 20} (s : State) (die : DieNo) (value : Csr)
    (h : isClear b.toNat w.toNat = true) :
    exec (.counterClear die b w value) s = .next (csrWrite s .pl2 (regIdx die b.toNat w.toNat) value.toNat).2 :=
  congrArg Host.Outcome.next (if_pos h)

theorem exec_counterClear_idle {b : BitVec 8} {w : BitVec 20} (s : State) (die : DieNo) (value : Csr)
    (h : isClear b.toNat w.toNat = false) : exec (.counterClear die b w value) s = .next s :=
  congrArg Host.Outcome.next (if_neg (ne_true_of_eq_false h))

theorem exec_watermarkWrite {b : BitVec 8} {w : BitVec 20} (s : State) (die : DieNo) (value : Csr)
    (h : isMark b.toNat w.toNat = true) :
    exec (.watermarkWrite die b w value) s = .next (csrWrite s .pl2 (regIdx die b.toNat w.toNat) value.toNat).2 :=
  congrArg Host.Outcome.next (if_pos h)

theorem exec_watermarkWrite_idle {b : BitVec 8} {w : BitVec 20} (s : State) (die : DieNo) (value : Csr)
    (h : isMark b.toNat w.toNat = false) : exec (.watermarkWrite die b w value) s = .next s :=
  congrArg Host.Outcome.next (if_neg (ne_true_of_eq_false h))

theorem exec_registerWrite (s : State) (idx : BitVec 32) (value : Csr) (src : CsrSrc) :
    exec (.registerWrite idx value src) s = .next (csrWrite s src idx.toNat value.toNat).2 := rfl

/-! ### A command that is a write of a register (R541, R552, R562) -/

section Guard
variable {s : State} {d b w : Nat}

/-- A write at a withdrawn die is counted at Madder of die 0, an acknowledgement of its log apart. -/
theorem regDo_withdrawn (live : Bool) (t : State) (h : busBad s (regIdx d b w) true = false) (hs : (getDie s d).withdrawn = true)
    (hl : ¬(b = bMdr ∧ w = rMdrLogack)) : regDo s d b w live t = .next (reject s 0 bMdr) := by
  unfold regDo regTake; rw [if_neg (ne_true_of_eq_false h), if_pos ⟨hs, hl⟩]

/-- A write of a block in reset is counted at the block. -/
theorem regDo_inReset (live : Bool) (t : State) (h : busBad s (regIdx d b w) true = false) (hs : (getDie s d).withdrawn = false)
    (hr : (getDie s d).rstBusy.contains b = true) : regDo s d b w live t = .next (reject s d b) := by
  unfold regDo regTake; rw [if_neg (ne_true_of_eq_false h), if_neg (by simp [hs]), if_pos hr]

/-- A block that takes the write but no commands is left as it was. -/
theorem regDo_idle (t : State) (h : regOpen s d b w = true) : regDo s d b w false t = .next s :=
  regDo_live (live := true) s h rfl

theorem regDo_open (live : Bool) (t : State) (h : regOpen s d b w = true) :
    regDo s d b w live t = .next (if live = true then t else s) := by
  cases live with
  | true => exact regDo_live t h rfl
  | false => exact regDo_idle t h

end Guard

/-- Settles O51: the verdict on the access, then what the fields and the pulses of the register do. -/
theorem registerWritesComplete : Obligations.RegisterWritesComplete := by
  rintro s die blk word value _ _ _ _ rfl rfl rfl rfl
  refine ⟨?_, ?_, exec_counterClear_idle s die value, exec_watermarkWrite_idle s die value, ?_, ?_, ?_⟩
  · rintro hd hi hs hb hw r _ _ hr rfl rfl _ rfl
    have hwrite : (csrWrite s .pl2 (regIdx die blk.toNat word.toNat) value.toNat).2 = _ :=
      (csrWrite_pl2_regIdx value.toNat blk.isLt word.isLt hd hi hs).trans (regWrite_fields_pulses _ _ _ hr hs hb hw)
    refine ⟨fun hc => ?_, fun hm => ?_, fun idx hidx => ?_⟩
    · rw [exec_counterClear s die value hc, hwrite]
    · rw [exec_watermarkWrite s die value hm, hwrite]
    · rw [exec_registerWrite, hidx, hwrite]
  · rintro r _ rfl hm hrw hmail
    exact ⟨takeFields_enabled hrw hm, takeFields_held hrw hm hmail, takeFields_live hrw hm hmail⟩
  · rintro idx _ rfl h
    rw [exec_registerWrite, csrWrite_pl2, if_pos h]; rfl
  · rintro idx _ rfl ha h
    rw [exec_registerWrite, csrWrite_pl2, if_neg (ne_true_of_eq_false h), if_pos ha, idxWord_of_bitForm ha]
  · intro d b w live t
    exact ⟨regDo_bad live t, fun h => ⟨regDo_withdrawn live t h, regDo_inReset live t h, regDo_open live t⟩⟩

end Sys2Proof.Machine
end

section
/-! SUPPORT. The token mesh and the links (R28, R95, R113, R116 to R119): what each of their commands does in each of its cases. -/

namespace Sys2Proof.Machine

/-- A command at a unit that acts answers what its effect comes to. -/
theorem unitDo_eq {s t t' : State} {d : Nat} {live : Bool} (h : d < nDies s.part) (hl : live = true) (he : t = t') :
    unitDo s d live t = .next t' := he ▸ unitDo_live t h hl

/-! ### An output of a router grants (R113) -/

section Hop
variable {s : State} {d r : Nat} {out : MeshPort} {x : Nat × Flit}

/-- VC1 goes ahead, unless VC0 waits and 15 grants have passed it by. -/
theorem meshHop_vc1 (h1 : (hopCandidates s d r out 1).head? = some x)
    (h0 : hopCandidates s d r out 0 = [] ∨ tget (fun _ => 0) (getRouter s d r).cnt (portNo out) < 15) :
    meshHop s d r out = grantHop s d r out 1 x := by
  obtain ⟨rest, h1⟩ := List.head?_eq_some_iff.mp h1
  unfold meshHop
  rw [h1]
  cases h : hopCandidates s d r out 0 with
  | nil => rfl
  | cons y ys =>
    have hn : ¬15 ≤ tget (fun _ => 0) (getRouter s d r).cnt (portNo out) :=
      Nat.not_le.mpr (h0.resolve_left (by simp [h]))
    simp [hn]

/-- VC0 is granted alone, or as the one grant in 16. -/
theorem meshHop_vc0 (h0 : (hopCandidates s d r out 0).head? = some x)
    (h1 : hopCandidates s d r out 1 = [] ∨ 15 ≤ tget (fun _ => 0) (getRouter s d r).cnt (portNo out)) :
    meshHop s d r out = grantHop s d r out 0 x := by
  obtain ⟨rest, h0⟩ := List.head?_eq_some_iff.mp h0
  unfold meshHop
  rw [h0]
  cases h : hopCandidates s d r out 1 with
  | nil => rfl
  | cons y ys =>
    have hn : 15 ≤ tget (fun _ => 0) (getRouter s d r).cnt (portNo out) := h1.resolve_left (by simp [h])
    simp [hn]

end Hop

/-! ### Slots leave the ring of dies as it was (R26, R119) -/

theorem poolNo_eq_zero {pool : Pool} : poolNo pool = 0 ↔ pool = .through := by cases pool <;> decide

/-- What a head flit needs, by the number of its pool: 2 credits for a THROUGH flit from the mesh, and else 1 (R117). -/
theorem creditsNeeded_poolNo (pool : Pool) (mesh : Bool) :
    (if pool = .through ∧ mesh then 2 else 1) = if poolNo pool = 0 ∧ mesh then 2 else 1 := by simp only [poolNo_eq_zero]

theorem poolNo_le_one {pool : Pool} (h : pool ≠ .exitCe) : poolNo pool ≤ 1 := by
  cases pool with
  | through | exitSpar => decide
  | exitCe => exact absurd rfl h

theorem slotUsed_part (s : State) (d k : Nat) (c : LinkClass) : (slotUsed s d k c).part = s.part := by
  unfold slotUsed
  split <;> rfl

theorem tokenSlot_part {s u : State} {d k : Nat} (h : tokenSlot s d k = some u) : u.part = s.part := by
  unfold tokenSlot at h
  dsimp only at h
  split at h
  · obtain rfl := Option.some.inj h
    rfl
  · split at h
    · obtain rfl := Option.some.inj h
      exact slotUsed_part s d k .token
    · cases h

theorem linkPeer_of_part {s u : State} (h : u.part = s.part) (d k : Nat) : linkPeer u d k = linkPeer s d k := by
  unfold linkPeer; rw [h]

/-! ### A flit crosses a link (R95, R116 to R118) -/

section Cross
variable {s u : State} {d k pool v : Nat} {f : Flit} {mesh : Bool} {rest : List (Flit × Bool)}

theorem linkReceive_crosses {p : Nat × Nat} (err : BitVec 160) (hp : p = linkPeer s d k)
    (hq : tget (fun _ => []) (getLink s p.1 p.2).tx (2 * pool + v) = (f, mesh) :: rest)
    (hout : (getLink s p.1 p.2).out = false) (hback : (getLink s d k).out = false) (hslot : tokenSlot s p.1 p.2 = some u)
    (hcr : (if pool = 0 ∧ mesh then 2 else 1) ≤ poolCredits pool v - tget (fun _ => 0) (getLink s p.1 p.2).used (2 * pool + v)) :
    linkReceive s d k pool v err =
      drainAll (arriveLink (modLink u p.1 p.2 fun l =>
        { l with tx := tset (fun _ => []) l.tx (2 * pool + v) rest, used := tmod (fun _ => 0) l.used (2 * pool + v) (· + 1) })
        d k (2 * pool + v) f err) p.1 (1 - p.2) := by
  subst hp
  unfold linkReceive
  dsimp only
  rw [hq]
  dsimp only
  rw [if_neg (by simp [hout, hback, Nat.not_lt.mpr hcr]), hslot]

/-- A head flit without its credits takes the ESCAPE credit. -/
theorem escapeSend_leaves {p : Nat × Nat} (hp : p = linkPeer s d k)
    (hq : tget (fun _ => []) (getLink s d k).tx (2 * pool + v) = (f, mesh) :: rest)
    (hout : (getLink s d k).out = false) (hesc : (getLink s d k).escUsed = false) (hpool : pool ≤ 1) (hcls : flitCls f ≠ 2)
    (hslot : tokenSlot s d k = some u)
    (hcr : poolCredits pool v - tget (fun _ => 0) (getLink s d k).used (2 * pool + v) < (if pool = 0 ∧ mesh then 2 else 1)) :
    escapeSend s d k pool v =
      drainAll (count (modLink (modLink u d k fun l => { l with tx := tset (fun _ => []) l.tx (2 * pool + v) rest, escUsed := true })
        p.1 p.2 fun l => { l with esc := some { f with route := mkRoute 2 (flitCls f) (flitDie f) (flitDest f) } })
        d bSch (if k = 0 then rSchLnkesc0 else rSchLnkesc1)) d (1 - k) := by
  subst hp
  unfold escapeSend
  dsimp only
  rw [hq]
  dsimp only
  rw [if_neg (by simp [hout, hesc, hcls, Nat.not_lt.mpr hpool, Nat.not_le.mpr hcr]), hslot]
  dsimp only
  rw [linkPeer_of_part (tokenSlot_part hslot)]

/-- A flit on VC2 that passes the check is appended to the ring of its spar, and the ESCAPE credit goes back unless the slot is held. -/
theorem escapeReceive_appends {t w : State} {g : Nat} {f0 : Flit} {err : BitVec 160} (hf : (getLink s d k).esc = some f0)
    (hw : w = modLink s d k fun l => { l with esc := none })
    (hr : recvFlit w d bSys (2 * d + k) 0x0401 f0 err = (some f, t))
    (hlive : (getDie w (flitDie f)).withdrawn = false) (hg : g = gspar (flitDie f) (flitDest f))
    (hu : u = appendSlot t d g (.link d k) f.tag f.value (flitCls f) (if flitCls f = 1 then 0 else 8 + origKind f)) :
    escapeReceive s d k err =
      if ((getSpar u g).holds.any fun h => h.producer == .link d k) = true then u else escapeFree u d k := by
  subst hw hg hu
  unfold escapeReceive
  rw [hf]
  dsimp only
  rw [hr]
  exact if_neg (ne_true_of_eq_false hlive)

theorem creditReturn_usable {i : Nat} (h : 0 < tget (fun _ => 0) (getLink s d k).back i) :
    creditReturn s d k i = modLink s d k fun l =>
      { l with back := tmod (fun _ => 0) l.back i (· - 1), used := tmod (fun _ => 0) l.used i (· - 1) } :=
  if_neg (Nat.ne_of_gt h)

end Cross

theorem stationLive_of_dieLive {s : State} {d : Nat} (h : dieLive s d = true) : stationLive s d 0 = true := by
  simp only [dieLive, Bool.and_eq_true] at h
  simp [stationLive, h.1.1, h.2]

/-- Settles O11, by what an output, a sender's queue, the ESCAPE receiver and a returned credit do. -/
theorem meshAndLinksMoveFlits : Obligations.MeshAndLinksMoveFlits := by
  intro s die hd hdie
  refine ⟨?_, ?_, ?_⟩
  · rintro r out c1 c0 n rfl rfl rfl
    exact ⟨fun x h1 h0 => unitDo_eq hd hdie (meshHop_vc1 h1 h0),
      fun x h0 h1 => unitDo_eq hd hdie (meshHop_vc0 h0 h1)⟩
  · rintro link pool vc1 hst i p rfl hp
    refine ⟨?_, ?_, fun hback => unitDo_eq hd hst (creditReturn_usable hback)⟩
    · rintro err f mesh rest u t hq hout hin hslot hcr rfl
      rw [creditsNeeded_poolNo] at hcr
      exact unitDo_eq hd hst (congrArg strmSettle (linkReceive_crosses err hp hq hout hin hslot hcr))
    · intro f mesh rest u hpool hslot hq hcls hout hesc hcr
      rw [creditsNeeded_poolNo] at hcr
      exact unitDo_eq hd hst (escapeSend_leaves hp hq hout hesc (poolNo_le_one hpool) hcls hslot hcr)
  · intro link err f0 f v t g u hf hv hr hlive hg hu
    have hexec : exec (.escapeReceive die link err) s = .next (escapeReceive s die link err) :=
      unitDo_live _ hd (stationLive_of_dieLive hdie)
    rw [hexec, escapeReceive_appends hf hv hr (hv ▸ hlive) hg hu]
    exact ⟨fun hheld => congrArg _ (if_pos hheld), fun hwritten => congrArg _ (if_neg (ne_true_of_eq_false hwritten))⟩

end Sys2Proof.Machine
end

section
/-! SUPPORT. Homes and snoops (R27, R295, R303, R315, R318 to R324, R328, R332, R542, R546): what a request meets at its slice and its
home, and how a pass of snoops ends. -/

namespace Sys2Proof.Machine

/-! ### Lines that nothing backs (R303) -/

theorem isPoisoned_of_not_backed {s : State} {wa : Nat} (h : backed s wa = false) : isPoisoned s wa = true := by
  unfold isPoisoned; rw [h]; rfl

/-- All 16 words of a line that nothing backs are read as poisoned. -/
theorem linePsn_of_not_backed {s : State} {la : Nat} (h : ∀ j < 16, backed s (16 * la + j) = false) : linePsn s la = 2 ^ 16 - 1 := by
  have hmarks : (List.range 16).map (fun j => b2n (isPoisoned s (16 * la + j)) * 2 ^ j) = (List.range 16).map fun j => b2n true * 2 ^ j :=
    List.map_congr_left fun j hj => by rw [isPoisoned_of_not_backed (h j (List.mem_range.mp hj))]
  unfold linePsn
  rw [hmarks]
  decide

/-- A write of such a line is discarded, and a read answered. -/
theorem unbackedReply_write {s : State} {la : Nat} {r : HomeReq} (h : r.kind ∈ [ReqKind.wb, .devWr, .devWrH]) :
    unbackedReply s la r = s := by
  simp only [List.mem_cons, List.not_mem_nil, or_false] at h
  unfold unbackedReply
  rcases h with h | h | h <;> rw [h]

theorem unbackedReply_read {s : State} {la : Nat} {r : HomeReq} (h : r.kind ∉ [ReqKind.wb, .devWr, .devWrH]) :
    unbackedReply s la r = homeReply s r la (peeks s (16 * la) 16) (linePsn s la) := by
  simp only [List.mem_cons, List.not_mem_nil, or_false, not_or] at h
  obtain ⟨hwb, hwr, hwrh⟩ := h
  unfold unbackedReply
  split
  · exact absurd ‹_› hwb
  · exact absurd ‹_› hwr
  · exact absurd ‹_› hwrh
  · rfl

section Request
variable {s : State} {line : BitVec 45} {la : Nat} {r : HomeReq}

theorem exec_homeRequest_unbacked (hl : la = line.toNat) (h : region s (16 * la) = .unbacked) (hd : dieLive s (idDie r.id) = true) :
    exec (.homeRequest line r) s = .next (unbackedReply (unbacked s (idDie r.id) (16 * la)) la r) := by
  subst hl
  show execHomeRequest line r s = _
  unfold execHomeRequest
  dsimp only
  rw [h]
  exact congrArg _ (if_pos hd)

/-- A request for a line that memory backs comes to its home over the links (R27). -/
theorem exec_homeRequest_backed (hl : la = line.toNat) (h : backed s (16 * la) = true) (hd : homeDie la < nDies s.part)
    (hh : homeLive s la = true) :
    exec (.homeRequest line r) s = .next ((cohCross s (idDie r.id) (homeDie la)).elim s fun s => homeRequest s la r) := by
  subst hl
  show execHomeRequest line r s = _
  unfold execHomeRequest
  unfold backed at h
  dsimp only
  cases hr : region s (16 * line.toNat) with
  | dram d o | cxl d o => exact unitDo_live _ hd hh
  | device d o | unbacked => rw [hr] at h; cases h

end Request

/-! ### A request at its slice (R295, R321, R323) -/

section Slice
variable {s : State} {la : Nat} {r : HomeReq}

theorem homeRequest_ordered (h : ordered r.id = true) :
    homeRequest s la r = settleHome { s with posted := s.posted ++ [⟨la, r, false⟩] } la := if_pos h

theorem homeRequest_arrives (h : ordered r.id = false) : homeRequest s la r = settleHome (arrive s la r) la :=
  if_neg (ne_true_of_eq_false h)

/-- A request waits behind others in the input queue, or for one of the 64 transactions of its slice. -/
theorem arrive_waits (h : sliceWait s (homeSlice s la) ≠ [] ∨ homeTx s la = none ∧ 64 ≤ sliceBusy s (homeSlice s la)) :
    arrive s la r = setWait s (homeSlice s la) (sliceWait s (homeSlice s la) ++ [(la, r)]) := by
  refine if_pos ?_
  rcases h with h | ⟨htx, hbusy⟩
  · simp [h]
  · simp [htx, hbusy]

/-- A request gets through the input queue: nothing waits there, and it needs no transaction or there is one for it. -/
theorem arrive_enters (hw : sliceWait s (homeSlice s la) = []) (h : homeTx s la ≠ none ∨ sliceBusy s (homeSlice s la) < 64) :
    arrive s la r = enterHome s la r := by
  refine if_neg ?_
  rcases h with h | h
  · simp [hw, h]
  · simp [hw, Nat.not_le.mpr h]

theorem arrive_behind {x : HomeTx} (hw : sliceWait s (homeSlice s la) = []) (hx : homeTx s la = some x) :
    arrive s la r = setTx s la (some { x with queue := x.queue ++ [.req r] }) := by
  rw [arrive_enters hw (.inl (by simp [hx]))]
  unfold enterHome
  rw [hx]

theorem arrive_taken (hw : sliceWait s (homeSlice s la) = []) (hx : homeTx s la = none) (hb : sliceBusy s (homeSlice s la) < 64) :
    arrive s la r = takeReq s la r := by
  rw [arrive_enters hw (.inr hb)]
  unfold enterHome
  rw [hx]

/-! ### A line that the LLC does not hold (R318, R321, R332) -/

theorem takeReq_held {l : HomeLine} (h : llcLine s la = some l) : takeReq s la r = takeHeld s la l r := by
  unfold takeReq; rw [h]

/-- A write-back that its line no longer waits for comes late. -/
theorem takeReq_late (h : llcLine s la = none) (hk : r.kind = .wb) : takeReq s la r = count s (homeDie la) bCoh rCohLatecnt := by
  unfold takeReq; rw [h]; dsimp only; rw [hk]

theorem takeReq_absent (h : llcLine s la = none) (hk : r.kind ≠ .wb) : takeReq s la r = takeAbsent s la r [] := by
  unfold takeReq
  rw [h]
  dsimp only
  split
  · exact absurd ‹_› hk
  · rfl

theorem takeAbsent_room (q : List HomeJob) (h : wayFor s la = .room) : takeAbsent s la r q = readLine s la r q := by
  unfold takeAbsent; rw [h]

theorem takeAbsent_busy (q : List HomeJob) (h : wayFor s la = .busy) : takeAbsent s la r q = setTx s la (some ⟨.way, some r, [], q⟩) := by
  unfold takeAbsent; rw [h]

theorem takeAbsent_victim {v : Nat} {l : HomeLine} {ts : List Nat} (q : List HomeJob) (h : wayFor s la = .victim v)
    (hv : llcLine s v = some l) (hts : ts = snoopTargets s v l none) :
    takeAbsent s la r q =
      if ts.isEmpty then readLine (setLlc s v none) la r q
      else sendSnoops (setTx (setTx s la (some ⟨.way, some r, [], q⟩)) v (some ⟨.evicting, none, ts, []⟩)) v true ts := by
  subst hts
  unfold takeAbsent; rw [h]; dsimp only; rw [hv]

theorem readLine_part (q : List HomeJob) (h : wholeLine r = false) : readLine s la r q = setTx s la (some ⟨.memread, some r, [], q⟩) :=
  if_neg (ne_true_of_eq_false h)

/-- A write of the whole line needs no memory read. -/
theorem readLine_whole {t : State} (q : List HomeJob) (h : wholeLine r = true) (ht : t = installLine (setTx s la none) la) :
    readLine s la r q = takeHeld t la ((llcLine t la).getD ⟨0, 0, false, false, 0⟩) r := ht ▸ if_pos h

/-! ### A line that the LLC holds (R319, R321) -/

theorem takeHeld_wb {l : HomeLine} (hk : r.kind = .wb) : takeHeld s la l r = perform s la l r false := by
  unfold takeHeld; rw [hk]

/-- The request is performed at once, or behind a pass of snoops where it needs one and there is someone to ask. -/
theorem takeHeld_eq {l m : HomeLine} {t : State} {ts : List Nat} (hk : r.kind ≠ .wb) (ht : t = useLine s la)
    (hm : m = (llcLine t la).getD l)
    (hts : ts = if needsSnoop t la m r (freeHint t la r) then snoopTargets t la m (notAsked t la r) else []) :
    takeHeld s la l r =
      if ts.isEmpty then perform t la m r false
      else sendSnoops (setTx t la (some ⟨.snooping, some r, ts, []⟩)) la (snoopInv r.kind) ts := by
  subst ht hm hts
  unfold takeHeld
  split
  · exact absurd ‹_› hk
  · rfl

theorem takeHeld_performs {l m : HomeLine} {t : State} (hk : r.kind ≠ .wb) (ht : t = useLine s la) (hm : m = (llcLine t la).getD l)
    (h : needsSnoop t la m r (freeHint t la r) = false ∨ snoopTargets t la m (notAsked t la r) = []) :
    takeHeld s la l r = perform t la m r false := by
  rw [takeHeld_eq hk ht hm rfl]
  refine if_pos ?_
  rcases h with h | h <;> simp [h]

theorem takeHeld_snoops {l m : HomeLine} {t : State} {ts : List Nat} (hk : r.kind ≠ .wb) (ht : t = useLine s la)
    (hm : m = (llcLine t la).getD l) (hts : ts = snoopTargets t la m (notAsked t la r))
    (hn : needsSnoop t la m r (freeHint t la r) = true) (hne : ts ≠ []) :
    takeHeld s la l r = sendSnoops (setTx t la (some ⟨.snooping, some r, ts, []⟩)) la (snoopInv r.kind) ts := by
  rw [takeHeld_eq hk ht hm (hts.trans (if_pos hn).symm)]
  exact if_neg (by simp [hne])

end Slice

/-! ### A transaction ends (R321, R324) -/

section Ends
variable {s : State} {la : Nat} {x : HomeTx} {r : HomeReq} {l : HomeLine}

theorem memreadData_takes {t : State} (check : MemCheck) (hx : homeTx s la = some x) (hp : x.phase = .memread) (hr : x.req = some r)
    (ht : t = installLine (setTx (lineRead s la check) la none) la) :
    memreadData s la check = drainHome (takeHeld t la ((llcLine t la).getD ⟨0, 0, false, false, 0⟩) r) la x.queue := by
  subst ht
  unfold memreadData
  rw [hx]
  dsimp only
  rw [hp, hr]

theorem endPass_request (hr : x.req = some r) :
    endPass s la x l = drainHome (perform (setLlc (setTx s la none) la (some l)) la l r false) la x.queue := by
  unfold endPass; rw [hr]

theorem endPass_victim (hr : x.req = none) : endPass s la x l = drainHome (setLlc (setTx s la none) la none) la x.queue := by
  unfold endPass; rw [hr]

theorem inPass_snooping (h : x.phase = .snooping) : inPass x = true := by unfold inPass; rw [h]; rfl

theorem inPass_evicting (h : x.phase = .evicting) : inPass x = true := by unfold inPass; rw [h]; rfl

/-- The timer of a pass ends it with no holder tracked. -/
theorem snoopTimeout_ends {t : State} (hx : homeTx s la = some x) (hp : inPass x = true) (ht : t = passLate (dropSnoops s la) la x.due)
    (hl : llcLine t la = some l) : snoopTimeout s la = endPass t la x { l with hs := 0, pres := 0, remote := false } := by
  subst ht
  unfold snoopTimeout
  rw [hx]
  dsimp only
  rw [if_pos hp, hl]

end Ends

/-! ### A snoop arrives (R320, R322) -/

/-- No cache answers more than HIT_DATA. -/
theorem snoopCache_answer_le (s : State) (c la : Nat) (inv : Bool) : (snoopCache s c la inv).1 ≤ 2 := by
  unfold snoopCache
  split
  · exact Nat.zero_le 2
  · dsimp only
    split <;> decide

theorem snoopDest_answer_le (s : State) (t la : Nat) (inv : Bool) : (snoopDest s t la inv).1 ≤ 2 := by
  unfold snoopDest
  refine List.foldlRecOn (motive := fun a : Nat × State => a.1 ≤ 2) _ _ (Nat.zero_le 2) fun a ha c _ => ?_
  exact Nat.max_le.mpr ⟨ha, snoopCache_answer_le a.2 c la inv⟩

section Arrives
variable {s : State} {n : Nat} {sn : Snoop}

/-- A die in service that holds no `lr` on the line and has lost no cache with it answers with what its caches answer. -/
theorem lookup_answers {d : Nat} {t : State} {r : Nat × State} (hd : d = destDie sn.dest) (hf : s.fatal = false)
    (hw : (getDie s d).withdrawn = false) (hlive : dieLive s d = true) (hheld : destHeld s sn.line sn.dest = false)
    (hlost : ((snoopReach sn.dest).any fun c => cacheState s c sn.line == 4) = false) (ht : t = { s with snoops := dropAt s.snoops n })
    (hr : r = snoopDest t sn.dest sn.line sn.inv) :
    lookup s n sn = { r.2 with answers := s.answers ++ [⟨sn.line, sn.dest, r.1⟩] } := by
  have hone : snoopOne t sn.dest sn.line sn.inv = r := by
    subst hd ht hr
    exact (if_neg (ne_true_of_eq_false hw)).trans (if_neg (ne_true_of_eq_false hlost))
  have hr4 : r.1 ≠ 4 := by
    have hle : r.1 ≤ 2 := hr ▸ snoopDest_answer_le t sn.dest sn.line sn.inv
    omega
  subst hd ht
  unfold lookup
  dsimp only
  rw [if_neg (by simp [hf, hlive, hheld]), hone, if_neg hr4]

theorem snoopReceive_passed (hn : s.snoops[n]? = some sn) (hp : sn.passed = true) : snoopReceive s n = lookup s n sn := by
  unfold snoopReceive; rw [hn]; exact if_pos hp

theorem snoopReceive_ring (hn : s.snoops[n]? = some sn) (hp : sn.passed = false)
    (hg : linkGrants s (linkPeer s (sn.dest - 1000) (1 - sn.link)).1 sn.link .coherence = true) :
    snoopReceive s n = lookup (passOn s n sn) n { sn with passed := true } := by
  unfold snoopReceive; rw [hn]; dsimp only; rw [if_neg (ne_true_of_eq_false hp), if_pos hg]

theorem exec_snoopReceive {t : State} (h : snoopReceive s n = t) : exec (.snoopReceive n) s = .next (strmSettle t) :=
  congrArg (fun t => Host.Outcome.next (strmSettle t)) h

end Arrives

/-! ### An answer of a snoop (R321, R322, R542, R546) -/

/-- What a home that acts does with an answer that has reached it, which `snoopAnswer_atHome` ties to the command. -/
def answerAtHome (s : State) (a : SnoopAns) : State :=
  match homeTx s a.line with
  | none => count s (homeDie a.line) bCoh rCohLatecnt
  | some x =>
    if (armed s (homeDie a.line) 0x0303 bCoh (sliceHash a.line) 3).isSome then s
    else if inPass x && x.due.contains a.src then
      if a.kind = 3 then snoopTimeout s a.line
      else
        let l := (llcLine s a.line).getD ⟨0, 0, false, false, 0⟩
        let m := if a.kind = 2 then { l with dirty := true } else l
        let u := setLlc s a.line (some m)
        let y := { x with due := x.due.erase a.src }
        if y.due.isEmpty then endPass u a.line y (afterPass m (txInv y)) else setTx u a.line (some y)
    else count s (homeDie a.line) bCoh rCohLatecnt

theorem snoopAnswer_atHome {s v t : State} {n : Nat} {a : SnoopAns} (hn : s.answers[n]? = some a)
    (hv : (if (getDie s (destDie a.src)).withdrawn then some s else cohCross s (destDie a.src) (homeDie a.line)) = some v)
    (ht : t = { v with answers := dropAt v.answers n }) (hlive : homeLive t a.line = true) :
    snoopAnswer s n = answerAtHome t a := by
  subst ht
  unfold snoopAnswer answerAtHome
  rw [hn]
  dsimp only
  rw [hv]
  dsimp only
  rw [if_neg (by simp [hlive])]
  cases homeTx { v with answers := dropAt v.answers n } a.line with
  | none | some x => rfl

section Answer
variable {s : State} {a : SnoopAns} {x : HomeTx}

theorem answerAtHome_noTx (hx : homeTx s a.line = none) : answerAtHome s a = count s (homeDie a.line) bCoh rCohLatecnt := by
  unfold answerAtHome; rw [hx]

/-- Under an armed PERTURB the answer goes unheard. -/
theorem answerAtHome_unheard (hx : homeTx s a.line = some x)
    (ha : (armed s (homeDie a.line) 0x0303 bCoh (sliceHash a.line) 3).isSome = true) : answerAtHome s a = s := by
  unfold answerAtHome; rw [hx]; exact if_pos ha

section Heard
variable (hx : homeTx s a.line = some x) (ha : (armed s (homeDie a.line) 0x0303 bCoh (sliceHash a.line) 3).isSome = false)
include hx ha

theorem answerAtHome_stray (h : inPass x = false ∨ x.due.contains a.src = false) :
    answerAtHome s a = count s (homeDie a.line) bCoh rCohLatecnt := by
  unfold answerAtHome
  rw [hx]
  dsimp only
  rw [if_neg (ne_true_of_eq_false ha), if_neg]
  rcases h with h | h <;> simp only [h, Bool.false_and, Bool.and_false, Bool.false_eq_true, not_false_eq_true]

section Due
variable (hp : inPass x = true) (hdue : x.due.contains a.src = true)
include hp hdue

/-- The answer of a withdrawn die that owned the line ends the pass as its timer does. -/
theorem answerAtHome_withdrawn (hk : a.kind = 3) : answerAtHome s a = snoopTimeout s a.line := by
  unfold answerAtHome
  rw [hx]
  dsimp only
  rw [if_neg (ne_true_of_eq_false ha), if_pos (by rw [hp, hdue]; rfl), if_pos hk]

/-- Any other answer is noted in the home line; the last one ends the pass. -/
theorem answerAtHome_due {l m : HomeLine} {u : State} (hk : a.kind ≠ 3) (hl : llcLine s a.line = some l)
    (hm : m = if a.kind = 2 then { l with dirty := true } else l) (hu : u = setLlc s a.line (some m)) :
    answerAtHome s a =
      if (x.due.erase a.src).isEmpty then
        endPass u a.line { x with due := x.due.erase a.src } (afterPass m (txInv { x with due := x.due.erase a.src }))
      else setTx u a.line (some { x with due := x.due.erase a.src }) := by
  subst hm hu
  unfold answerAtHome
  rw [hx]
  dsimp only
  rw [if_neg (ne_true_of_eq_false ha), if_pos (by rw [hp, hdue]; rfl), if_neg hk, hl]
  rfl

end Due
end Heard
end Answer

theorem txInv_of_req {x : HomeTx} {r : HomeReq} (h : x.req = some r) : txInv x = snoopInv r.kind := by unfold txInv; rw [h]; rfl

/-! ### Patrol scrub and the L1D (R315, R328) -/

section Scrub
variable {s : State} {la : Nat} {check : LineCheck}

theorem enterJob_scrub (hx : homeTx s la = none) : enterJob s la (.scrub check) = scrubRead s la check := by
  unfold enterJob; dsimp only; rw [hx]

theorem enterJob_scrub_behind {x : HomeTx} (hx : homeTx s la = some x) :
    enterJob s la (.scrub check) = setTx s la (some { x with queue := x.queue ++ [.scrub check] }) := by
  unfold enterJob; dsimp only; rw [hx]

theorem exec_patrolScrubRead {line : BitVec 45} {d o : Nat} (hl : la = line.toNat) (hd : homeDie la < nDies s.part)
    (hlive : dieLive s (homeDie la) = true) (hen : blkEn s (homeDie la) bMem = true)
    (hon : getF s (homeDie la) bMem rMemScrub 31 31 = 1) (hr : region s (16 * la) = .dram d o) :
    exec (.patrolScrubRead line check) s = .next (enterJob s la (.scrub check)) := by
  subst hl
  show execPatrolScrubRead line check s = _
  unfold execPatrolScrubRead
  dsimp only
  rw [hr]
  exact unitDo_live _ hd (by simp [hlive, hen, hon])

end Scrub

theorem exec_l1dInvalidate {s t : State} {die : DieNo} {spar : SparNo} {g en : Nat} (hg : g = gspar die spar)
    (ho : regOpen s die (0x20 + spar) rCluL1ctl = true) (hlive : dieLive s die = true) (hgate : (getSpar s g).gated = false)
    (hen : en = regStored s die (0x20 + spar) rCluL1ctl)
    (ht : t = if cmdRuns s die (0x20 + spar) rCluL1ctl 0 then s else cmdBegin s die (0x20 + spar) rCluL1ctl 0) :
    exec (.l1dInvalidate die spar) s =
      .next ((List.range 9).foldl (fun s p => if bitOf en p then s else modPe s (peKey g p) fun x => { x with l1d := [] }) t) := by
  subst hg hen ht
  have hexec : exec (.l1dInvalidate die spar) s = .next (l1dInvalidate s (gspar die spar)) :=
    regDo_live _ ho (by simp [hlive, hgate])
  rw [hexec]
  unfold l1dInvalidate
  rw [gspar_die spar.isLt, gspar_spar spar.isLt]

/-- Settles O30, by the cases of a request at its slice and its home, of the end of a transaction, and of a snoop and its answer. -/
theorem homesAndSnoopsComplete : Obligations.HomesAndSnoopsComplete := by
  intro s line la hla
  refine ⟨?_, ?_, ?_, ?_, ?_, ?_, ?_, ?_⟩
  · rintro r u hreg hlive rfl
    rw [exec_homeRequest_unbacked hla hreg hlive]
    exact ⟨fun hk => congrArg _ (unbackedReply_write hk), fun hk => ⟨linePsn_of_not_backed, congrArg _ (unbackedReply_read hk)⟩⟩
  · intro hd hlive hb r
    rw [exec_homeRequest_backed hla hb hd hlive]
    refine ⟨fun hc => by rw [hc]; rfl, ?_⟩
    rintro u sl hc rfl
    rw [hc]
    refine ⟨fun ho => congrArg _ (homeRequest_ordered ho), fun ho => ?_⟩
    have hreach {t : State} (h : arrive u la r = t) :
        (Host.Outcome.next ((some u).elim s fun s => homeRequest s la r) : Out) = .next (settleHome t la) :=
      congrArg _ (h ▸ homeRequest_arrives ho)
    refine ⟨fun h => hreach (arrive_waits h), fun x hw hx => hreach (arrive_behind hw hx), fun hw hx hbusy => ?_⟩
    have htake {t : State} (h : takeReq u la r = t) := hreach ((arrive_taken hw hx hbusy).trans h)
    refine ⟨fun hl hk => htake (takeReq_late hl hk), fun hl hk => ?_, fun l hl hk => ?_, ?_⟩
    · have habsent {t : State} (h : takeAbsent u la r [] = t) := htake ((takeReq_absent hl hk).trans h)
      refine ⟨fun hroom hwhole => habsent ((takeAbsent_room _ hroom).trans (readLine_part _ hwhole)),
        fun t hroom hwhole ht => habsent ((takeAbsent_room _ hroom).trans (readLine_whole _ hwhole ht)),
        fun hbusy => habsent (takeAbsent_busy _ hbusy), ?_⟩
      intro v l ts hv hvl hts
      have hvictim := takeAbsent_victim (r := r) [] hv hvl hts
      exact ⟨fun h => habsent (hvictim.trans (if_pos (by simp [h]))), fun h => habsent (hvictim.trans (if_neg (by simp [h])))⟩
    · exact htake ((takeReq_held hl).trans (takeHeld_wb hk))
    · rintro l t m ts hl hk ht hm rfl
      exact ⟨fun h => htake ((takeReq_held hl).trans (takeHeld_performs hk ht hm h)),
        fun hn hts => htake ((takeReq_held hl).trans (takeHeld_snoops hk ht hm rfl hn hts))⟩
  · intro hd hlive
    have hdo {t t' : State} (h : t = t') : homeDo s la t = .next t' := unitDo_eq hd hlive h
    subst hla
    refine ⟨fun x r check t hx hp hr ht => hdo (memreadData_takes check hx hp hr ht),
      fun x r t l hx hp hr ht hl => hdo ?_, fun x t l hx hp hr ht hl => hdo ?_⟩
    · exact (snoopTimeout_ends hx (inPass_snooping hp) ht hl).trans (endPass_request hr)
    · exact (snoopTimeout_ends hx (inPass_evicting hp) ht hl).trans (endPass_victim hr)
  · intro n sn d t r hn hd hf hp hw hlive hheld hlost ht hr
    exact exec_snoopReceive ((snoopReceive_passed hn hp).trans (lookup_answers hd hf hw hlive hheld hlost ht hr))
  · intro n sn hn hp hg
    exact exec_snoopReceive (snoopReceive_ring hn hp hg)
  · intro n a v t hn hv ht hlive
    have hat {t' : State} (h : answerAtHome t a = t') : exec (.snoopAnswer n) s = .next t' :=
      congrArg _ ((snoopAnswer_atHome hn hv ht hlive).trans h)
    refine ⟨fun hx => hat (answerAtHome_noTx hx), fun x hx ha => hat (answerAtHome_unheard hx ha), fun x hx ha => ?_⟩
    refine ⟨fun h => hat (answerAtHome_stray hx ha h), fun hp hdue => ?_⟩
    refine ⟨fun hk => hat (answerAtHome_withdrawn hx ha hp hdue hk), fun l m u hk hl hm hu => ?_⟩
    have hnoted := answerAtHome_due hx ha hp hdue hk hl hm hu
    refine ⟨fun hmore => hat (hnoted.trans (if_neg (ne_true_of_eq_false hmore))), ?_, fun hlast hr => ?_⟩
    · intro r l' hlast hr hl'
      have hinv : txInv { x with due := x.due.erase a.src } = snoopInv r.kind := txInv_of_req hr
      rw [hinv, ← hl'] at hnoted
      exact hat (hnoted.trans ((if_pos hlast).trans (endPass_request hr)))
    · exact hat (hnoted.trans ((if_pos hlast).trans (endPass_victim hr)))
  · intro hd hlive hen hon d o check hr
    rw [exec_patrolScrubRead hla hd hlive hen hon hr]
    exact ⟨fun hx => congrArg _ (enterJob_scrub hx), fun x hx => congrArg _ (enterJob_scrub_behind hx)⟩
  · intro die spar g hg ho hlive hgate t en hen ht
    exact exec_l1dInvalidate hg ho hlive hgate hen ht

end Sys2Proof.Machine
end

section
/-! SUPPORT. The matching unit beside its hit path, and a spar's ingress (R95, R100, R105, R106, R162, R163): what each of their
commands does in each of its cases. -/

namespace Sys2Proof.Machine

/-! ### The data of a miss-buffer flit returns (R100, R105) -/

section Probe
variable {s t : State} {g d : Nat} {f : Flit}

/-- The oldest flit of the miss buffer leaves it, and those behind its key go back to the pipeline. -/
theorem probeReturn_oldest {rest : List Flit} {t0 : State} (hm : (getSpar s g).miss = f :: rest) (hev : inEvb s g (tagKey f.tag) = false)
    (ht0 : t0 = modSpar s g fun x => { x with miss := dropAt x.miss 0 }) (hp : probe t0 g f = some t) :
    probeReturn s g 0 = reenter t g (tagKey f.tag) := by
  subst ht0
  unfold probeReturn
  rw [hm]
  simp [hev, hp]

/-- A codelet of arity 0 or 1 fires at once. -/
theorem resolve_direct {fr : FrameLine} {cl : CodeletLine} (ha : wfld cl.entry 63 60 ≤ 1)
    (hp : portOk (wfld cl.entry 63 60) (tagPort f.tag) = true) :
    resolve s g fr cl f = some (fireDirect s g fr cl f (wfld cl.entry 63 60)) := by
  unfold resolve
  simp [hp, ha]

section Descriptor
/-! The frame is not cached, and its descriptor is read without poison. -/
variable (hd : g / 32 = d) (hc : cachedFrame s g (tagPart f.tag) (tagFrame f.tag) = none)
  (ht : t = unitRead s d (descAddr s d (tagFrame f.tag)) 3)
  (hpsn : (firstBelow 3 fun j => isPoisoned t (descAddr t d (tagFrame f.tag) + j)) = none)
include hd hc ht hpsn

theorem probe_notLive (hr : readFrame t d (tagPart f.tag) (tagFrame f.tag) = none) : probe s g f = some (countClu t g rCluStalecnt) := by
  subst hd ht
  unfold probe
  simp [hc, hpsn, hr]

theorem probe_codelet {fr : FrameLine} {cl : CodeletLine} (hr : readFrame t d (tagPart f.tag) (tagFrame f.tag) = some fr)
    (hg : fr.gen = tagGen f.tag) (hcl : cachedCodelet (cacheFrame t g fr) g fr (tagCodelet f.tag) = some cl) :
    probe s g f = resolve (cacheFrame t g fr) g fr cl f := by
  subst hd ht
  unfold probe
  simp [hc, hpsn, hr, hg, hcl]

end Descriptor
end Probe

/-! ### The eviction engine (R106) -/

section Evict
variable {s t : State} {g : Nat} {m : Match} {rest : List Match} (hv : (getSpar s g).evb = m :: rest)
  (hh : holding s g .matcher = false) (hm : m.dissolving = false) (ht : t = ptFill s (uSpar g) .pmt (keyPart m.key))
include hv hh hm ht

theorem evict_orphan (hp : ptValid t (uSpar g) .pmt (keyPart m.key) = false) :
    evict s g = evbHead (countCluN t g rCluOrphcnt (operandCount m)) g none := by
  subst ht
  unfold evict
  rw [hv]
  simp [hh, hm, hp]

theorem evict_freeLine {u : State} {d b a : Nat} (hd : g / 32 = d) (hp : ptValid t (uSpar g) .pmt (keyPart m.key) = true)
    (hb : b = bucketAt t g (keyPart m.key) (keyFrame m.key)) (hu : u = notePoison (unitRead t d b 256) d b)
    (ha : findLine u b (fun w0 _ => !wbit w0 63) = some a) :
    evict s g = evbHead (filterUp (countClu (stores u d a (lineWords m)) g rCluMsevcnt) g (keyPart m.key) (keyFrame m.key)) g none := by
  subst ht hd hb hu
  unfold evict
  rw [hv]
  simp [hh, hm, hp, ha]

end Evict

/-! ### Ingress and diversion (R95, R162, R163) -/

/-- A flit for which ingress has a place is checked, and enters the input queue if one goes on. -/
theorem ingress_place {s : State} {g d spar : Nat} {vc1 r : Bool} {f : Flit} {u : Option Flit × State} {err : BitVec 160} (hd : g / 32 = d)
    (hs : g % 32 = spar) (hf : atIngress s g vc1 = some f) (hh : holding s g .ingress = false) (hdiv : tagPart f.tag ∉ (getSpar s g).divert)
    (hr : placeFor s g f = some r) (hu : recvFlit (leaveIngress s g vc1) d (bClu spar) 0xFF 0x0111 f err = u) :
    ingress s g vc1 err = u.1.elim u.2 fun k => iqEnter u.2 g k r false := by
  subst hd hs hu
  unfold ingress
  simp [hf, hh, hdiv, hr]

/-- Settles O9: each path is the branch of its command that the hypotheses select. -/
theorem matchingUnitMissEvictIngress : Obligations.MatchingUnitMissEvictIngress := by
  intro s die spar g hd hlive
  have hdie : g / 32 = (die : Nat) := gspar_die spar.isLt
  have hspar : g % 32 = (spar : Nat) := gspar_spar spar.isLt
  have hdo {t t' : State} (h : t = t') : sparDo s die spar t = .next t' := unitDo_eq hd hlive h
  refine ⟨?_, ?_, ?_, ?_, ?_⟩
  · intro f rest t0 t hm hev ht0 hc ht hpsn
    have hprobe {u : State} (h : probe t0 g f = some u) :
        exec (.probeDataReturn die spar 0) s = .next (reenter u g (tagKey f.tag)) := hdo (probeReturn_oldest hm hev ht0 h)
    refine ⟨fun hr => hprobe (probe_notLive hdie hc ht hpsn hr), fun fr hr hg cl hcl ha hp => hprobe ?_⟩
    exact (probe_codelet hdie hc ht hpsn hr hg hcl).trans (resolve_direct ha hp)
  · rintro m rest s' s'' b hv hh hm hs' hb hs''
    exact ⟨fun hp => hdo (evict_orphan hv hh hm hs' hp), fun hp a ha => hdo (evict_freeLine hv hh hm hs' hdie hp hb hs'' ha)⟩
  · intro vc1 err f hf hh hdiv r hr
    have hin {u : Option Flit × State} (hu : recvFlit (leaveIngress s g vc1) die (bClu spar) 0xFF 0x0111 f err = u) :
        exec (.flitIngress die spar vc1 err) s = .next (u.1.elim u.2 fun k => iqEnter u.2 g k r false) :=
      hdo (ingress_place hdie hspar hf hh hdiv hr hu)
    refine ⟨fun u hu => ⟨fun k hk => ?_, fun hk => ?_⟩, fun ha hc => hin (recvFlit_clean _ _ _ _ _ ha hc),
      fun t ha hc => hin (recvFlit_bad _ _ _ _ _ ha hc)⟩
    · rw [hin hu, hk]; rfl
    · rw [hin hu, hk]; rfl
  · intro part hst hdiv
    exact hdo (if_pos (by simpa using ⟨hst, hdiv⟩))
  · intro part hq
    exact hdo (if_pos hq)

end Sys2Proof.Machine
end

section
/-! SUPPORT. The spill ring and the purge of a frame (R58, R109, R111, R165, R166, R326, R498): what each of their commands does in
each of its cases. -/

namespace Sys2Proof.Machine

/-! ### A far add, and a slot appended (R111, R165, R326) -/

/-- A far add gives the word as it was. -/
theorem farAdd_old (s : State) (d wa : Nat) (k : Word) : (farAdd s d wa k).1 = peek s wa := by
  unfold farAdd
  split
  · rfl
  · split <;> rfl

section Append
variable {s t : State} {d g b : Nat} {p : Producer} {tag value : Word} {cls kind : Nat} (hb : b = sprBase s g)
include hb

theorem appendSlot_tailPoisoned (hp : isPoisoned s b = true) : appendSlot s d g p tag value cls kind = (farAdd s d b 1).2 := by
  subst hb
  exact if_pos hp

/-- With a readable `TAIL` the producer has a slot, and reads `HEAD`. -/
theorem appendSlot_reserved (ht : t = unitRead (farAdd s d b 1).2 d (b + 1) 1) (hp : isPoisoned s b = false) :
    appendSlot s d g p tag value cls kind =
      if isPoisoned t (b + 1) then hwPoison t d (b + 1)
      else if (peek s b).toNat - (peek t (b + 1)).toNat < 2 ^ 20 then writeSlot t d g (peek s b).toNat tag value cls kind
      else holdSlot t d g ⟨(peek s b).toNat, tag, value, cls, kind, p⟩ := by
  subst hb ht
  unfold appendSlot
  simp only [farAdd_old]
  exact if_neg (ne_true_of_eq_false hp)

end Append

/-! ### A held slot is written (R118, R165) -/

/-- A slot with room is written; a link's receiver then gives its ESCAPE credit back. -/
theorem holdRetry_room {s t w : State} {g k b d : Nat} {h : Hold} (hk : (getSpar s g).holds[k]? = some h) (hb : b = sprBase s g)
    (hd : d = holderDie g h.producer) (ht : t = unitRead s d (b + 1) 1) (hpsn : isPoisoned t (b + 1) = false)
    (hroom : h.slot - (peek t (b + 1)).toNat < 2 ^ 20)
    (hw : w = writeSlot (modSpar t g fun x => { x with holds := dropAt x.holds k }) d g h.slot h.tag h.value h.cls h.kind) :
    (h.producer = .manager → holdRetry s g k = w) ∧ (∀ e l, h.producer = .link e l → holdRetry s g k = escapeFree w e l) := by
  subst hb hd ht hw
  unfold holdRetry
  rw [hk]
  dsimp only
  rw [if_neg (ne_true_of_eq_false hpsn), if_pos hroom]
  generalize holderDie g h.producer = d
  exact ⟨fun hp => by rw [hp], fun e l hp => by rw [hp]⟩

/-! ### The spar takes and measures its slots (R111, R166, R326) -/

section Ring
variable {s t : State} {g d b : Nat} (hd : g / 32 = d) (hb : b = sprBase s g)
include hd hb

theorem ringConsume_takes {u : State} {head : Word} {a : Nat} {f : Flit} (hhead : head = peek s (b + 1))
    (ha : a = b + 16 + 4 * (head.toNat % 2 ^ 20)) (hu : u = unitRead s d (b + 1) 1) (hpsn : isPoisoned u (b + 1) = false)
    (ht : t = unitRead u d a 4) (hslot : (firstBelow 4 fun j => isPoisoned t (a + j)) = none)
    (hf : f = slotFlit g (peek t a) (peek t (a + 1)) (peek s (a + 2))) (hq : (getSpar s g).iq.length < 1024)
    (hvalid : wbit (peek s (a + 2)) 63 = true) (hlap : wfld (peek s (a + 2)) 31 0 = wfld head 31 0) :
    ringConsume s g =
      uncountSlot (iqEnter (store (store t d (a + 2) 0) d (b + 1) (head + 1)) g f false true) g (tagPart f.tag) := by
  subst hd hb hhead ha hu ht hf
  unfold ringConsume
  simp only [if_neg (Nat.not_le.mpr hq), hpsn, hslot, hvalid, hlap, Bool.false_eq_true, if_false, beq_self_eq_true, Bool.and_self, if_true]

/-! The measure's own equation lemma is out of reach, for the kernel evaluates the words that it matches on; its definition is unfolded
as a function. -/

variable (ht : t = unitRead s d b 2)
include ht

theorem ringMeasure_poisoned {j : Nat} (hj : (firstBelow 2 fun j => isPoisoned t (b + j)) = some j) :
    ringMeasure s g = hwPoison t d (b + j) := by
  subst hd hb ht
  conv => lhs; fun; fun; delta ringMeasure
  extract_lets +onlyGivenNames d b t
  replace hj : (firstBelow 2 fun j => isPoisoned t (b + j)) = _ := hj
  rw [hj]

theorem ringMeasure_stores {spar occ old : Nat} {u : State} {r : State × Side} (hs : g % 32 = spar)
    (hj : (firstBelow 2 fun j => isPoisoned t (b + j)) = none) (hocc : occ = (peek t b - peek t (b + 1)).toNat)
    (hold : old = getF t d (bClu spar) rCluSrocc 20 0) (hu : u = setF t d (bClu spar) rCluSrocc 20 0 (min occ (2 ^ 20)))
    (hr : r = watermarkN 32 u d (bClu spar) rCluSrwm rCluSrxc (8 * spar + 4) (8 * spar + 5) old (min occ (2 ^ 20)) (getSpar u g).srSide) :
    ringMeasure s g = modSpar r.1 g fun x => { x with srSide := r.2 } := by
  subst hd hs hb ht hr hu hold hocc
  conv => lhs; fun; fun; delta ringMeasure
  extract_lets +onlyGivenNames d b t
  replace hj : (firstBelow 2 fun j => isPoisoned t (b + j)) = _ := hj
  rw [hj]

end Ring

/-! ### A purge begins (R58, R92, R109) -/

section Purge
variable {s : State} {g k : Nat} {p : IqPlace} (hn : nextIq s g = some (p, k)) (hc : flitCls p.flit = 1) (hpipe : (getSpar s g).pipe = none)
  (hre : (getSpar s g).reentry = [])
include hn hc hpipe hre

theorem takePurge_never (hb : routeBad p.flit = true) : takePurge s g = dropNever (iqRemove s g k) g p.flit := by
  unfold takePurge
  simp [hn, hc, hpipe, hre, hb]

theorem takePurge_begins (hb : routeBad p.flit = false) (hl : (getSpar s g).purges.length < 16) :
    takePurge s g = modSpar (iqRemove s g k) g fun x =>
      { x with purges := x.purges ++ [p.flit.tag]
               fcache := x.fcache.filter fun l => !(l.part == tagPart p.flit.tag && l.frame == tagFrame p.flit.tag) } := by
  unfold takePurge
  simp [hn, hc, hpipe, hre, hb, hl]

end Purge

/-! ### A purge is complete (R58, R498) -/

theorem finishPurge_oldest {s u : State} {g d : Nat} {t : Word} {rest : List Word} (hd : g / 32 = d) (hp : (getSpar s g).purges = t :: rest)
    (hu : u = purgeReady (purgeMatch (modSpar s g fun x => { x with purges := rest }) g t) g t) :
    finishPurge s g = purgeDone u d t := by
  subst hd hu
  unfold finishPurge
  rw [hp]

theorem purgeDone_live {s : State} {d : Nat} {t : Word} (h : (getHw s (tagPart t)).destroying = false) :
    purgeDone s d t = modHw s (tagPart t) fun h => enterQuar h (tagFrame t) := if_neg (ne_true_of_eq_false h)

/-- Under DESTROY only the purge of a frame's last generation frees its descriptor. -/
theorem purgeDone_destroying {s : State} {d : Nat} {t : Word} (h : (getHw s (tagPart t)).destroying = true) :
    purgeDone s d t =
      if (tagGen t + 1) % 64 = frGen s d (tagFrame t) then setFrame s d (tagFrame t) (frGen s d (tagFrame t)) fsFree else s := if_pos h

/-- Where nothing is under DESTROY nothing settles. -/
theorem destroySettle_none {s : State} (h : destroyingPart s = none) : destroySettle s = s := by
  unfold destroySettle
  rw [h]

/-- Settles O10: each command of the ring and of a purge is the branch that the hypotheses select. -/
theorem spillRingProtocolAndPurge : Obligations.SpillRingProtocolAndPurge := by
  intro s die spar g b hg hb hd hdl
  have hdie : g / 32 = (die : Nat) := hg ▸ gspar_die spar.isLt
  have hspar : g % 32 = (spar : Nat) := hg ▸ gspar_spar spar.isLt
  refine ⟨fun tag value kind t ht => ?_, fun k h t0 t hk ht0 hpsn hroom ht => ?_, fun hlive => ?_⟩
  · have hdo {u : State} (h : appendSlot s die g .manager tag value 0 (8 + kind.toNat) = u) :
        exec (.spillRingAppend die spar tag value kind) s = .next u := unitDo_eq hd hdl (hg ▸ h)
    have hres (hp : isPoisoned s b = false) := appendSlot_reserved (p := .manager) (tag := tag) (value := value) (cls := 0)
      (kind := 8 + kind.toNat) hb ht hp
    refine ⟨fun hp => hdo (appendSlot_tailPoisoned hb hp), fun hp hh => hdo ((hres hp).trans (if_pos hh)), fun hp hh hr => ?_, fun hp hh hr => ?_⟩
    · exact hdo ((hres hp).trans ((if_neg (ne_true_of_eq_false hh)).trans (if_pos hr)))
    · exact hdo ((hres hp).trans ((if_neg (ne_true_of_eq_false hh)).trans (if_neg (Nat.not_lt.mpr hr))))
  · have hdo {u : State} (h : holdRetry s g k = u) : exec (.spillRingHoldRetry die spar k) s = .next u := unitDo_eq hd hdl (hg ▸ h)
    obtain ⟨hmanager, hlink⟩ := holdRetry_room hk hb rfl ht0 hpsn hroom ht
    exact ⟨fun hp => hdo (hmanager hp), fun e l hp => hdo (hlink e l hp)⟩
  · have hdo {t t' : State} (h : t = t') : sparDo s die spar t = .next t' := unitDo_eq hd (hg ▸ hlive) h
    subst hg
    refine ⟨?_, ?_, ?_, ?_, ?_⟩
    · intro head a t f hhead ha hpsn ht hslot hf hq hvalid hlap
      exact hdo (ringConsume_takes hdie hb hhead ha rfl hpsn ht hslot hf hq hvalid hlap)
    · intro t j ht hj
      exact hdo (ringMeasure_poisoned hdie hb ht hj)
    · intro t occ old u r ht hj hocc hold hu hr
      exact hdo (ringMeasure_stores hdie hb ht hspar hj hocc hold hu hr)
    · intro p k hn hc hpipe hre
      exact ⟨fun hbad => hdo (takePurge_never hn hc hpipe hre hbad), fun hbad hl => hdo (takePurge_begins hn hc hpipe hre hbad hl)⟩
    · intro t rest u v hp hu
      have hdone {w w' : State} (h : purgeDone u die t = w) (hw : destroySettle w = w') : exec (.purgeComplete die spar) s = .next w' :=
        hdo (by rw [finishPurge_oldest hdie hp hu, h, hw])
      refine ⟨fun hl hv hn => ?_, fun hdes => ⟨fun hgen => ?_, fun hgen => ?_⟩⟩
      · exact hdone ((purgeDone_live hl).trans hv.symm) (destroySettle_none hn)
      · exact hdone ((purgeDone_destroying hdes).trans (if_pos hgen)) rfl
      · exact hdone ((purgeDone_destroying hdes).trans (if_neg hgen)) rfl

end Sys2Proof.Machine
end

section
/-! SUPPORT. The intake of a channel engine (R92, R95, R367, R369, R370, R378, R430, R431, R451): what is received, what the intake takes,
and what its oldest flit does. -/

namespace Sys2Proof.Machine

/-! ### The intake takes a checked flit (R92, R367, R430) -/

section Take
variable {s : State} {k : Nat} {f : Flit}

theorem intakeTake_badRoute (hb : routeBad f = true) :
    intakeTake s k f = deferred s (k / 16) (bCen (k % 16)) 0xFF 0x0402 0x06 0 f.tag 0 := if_pos hb

variable (hb : routeBad f = false)
include hb

theorem intakeTake_badKind (hk : 2 ≤ f.kind.toNat) :
    intakeTake s k f = deferred (count s (k / 16) bChn rChnBadflit) (k / 16) (bCen (k % 16)) 0xFF 0x0504 0x06 0 f.tag 0 :=
  (if_neg (ne_true_of_eq_false hb)).trans (if_pos hk)

variable (hk : f.kind.toNat < 2)
include hk

theorem intakeTake_room (hr : intakeLen s k < 768) : intakeTake s k f = drain (modEng s k fun e => { e with intake := e.intake ++ [f] }) k :=
  (if_neg (ne_true_of_eq_false hb)).trans ((if_neg (Nat.not_le.mpr hk)).trans (if_pos hr))

/-- A full intake sends the flit to its spill ring, and drops a hand-off where too few slots are free. -/
theorem intakeTake_full (hr : 768 ≤ intakeLen s k) :
    intakeTake s k f = if f.kind = 1 ∧ 2 ^ 15 - inUsed s k < 20480 then dropHandoff s k else spillIntake s k f :=
  (if_neg (ne_true_of_eq_false hb)).trans ((if_neg (Nat.not_le.mpr hk)).trans (if_neg (Nat.not_lt.mpr hr)))

end Take

section Drop
variable {s v : State} {k : Nat} (hv : v = count s (k / 16) (bCen (k % 16)) rCenHodrop)
include hv

theorem dropHandoff_pending (h : rescanDue v k = true) : dropHandoff s k = v := by
  subst hv
  exact if_pos h

theorem dropHandoff_raises (h : rescanDue v k = false) : dropHandoff s k = evPush (modEng v k fun e => { e with rescan := true }) k 9 0 0 := by
  subst hv
  exact if_neg (ne_true_of_eq_false h)

end Drop

/-! ### The oldest flit that the mesh holds for an engine (R92, R95, R431) -/

/-- The command by which an engine receives a flit: a hand-off's where its `KIND` is 1. -/
def receiveCmd (die : DieNo) (eng : EngNo) (err : BitVec 160) (f : Flit) : Instr :=
  if f.kind = 1 then .handoff die eng err else .exchangeIssue die eng err

section Receive
variable {s : State} {die : DieNo} {eng : EngNo} {f : Flit} {rest : List Flit} {err : BitVec 160}

theorem exec_receiveCmd (hd : (die : Nat) < nDies s.part) (hup : engUp s (servingFor s (engKey die eng)) = true) :
    exec (receiveCmd die eng err f) s = .next (engineReceive s die eng (f.kind == 1) err) := by
  unfold receiveCmd
  split
  · next h => rw [beq_iff_eq.mpr h]; exact unitDo_live _ hd hup
  · next h => rw [beq_eq_false_iff_ne.mpr h]; exact unitDo_live _ hd hup

variable (hq : tget (fun _ => []) (getDie s die).engIn eng = f :: rest)
include hq

theorem engineReceive_waits (hr : intakeRoom s (servingFor s (engKey die eng)) f = false) :
    engineReceive s die eng (f.kind == 1) err = s := by
  unfold engineReceive
  rw [hq]
  exact if_pos (.inr (by simp [hr]))

/-- A flit for which the intake has room leaves the mesh, and goes on to the intake if its check lets it. -/
theorem engineReceive_room {k : Nat} {t u : State} {r : Option Flit × State} (hk : k = engKey die eng)
    (hr : intakeRoom s (servingFor s k) f = true) (ht : t = modDie s die fun x => { x with engIn := tset (fun _ => []) x.engIn eng rest })
    (hu : u = if wbit f.value 63 ∧ f.kind ≠ 1 then { t with supIssues := t.supIssues.eraseP fun x => x.1 == k } else t)
    (hrecv : r = recvFlit u die (bCen eng) 0xFF 0x0505 f err) :
    engineReceive s die eng (f.kind == 1) err = r.1.elim r.2 fun g => intakeTake r.2 (servingFor u k) g := by
  subst hk ht hu hrecv
  unfold engineReceive
  rw [hq]
  simp [hr]

end Receive

/-! ### The oldest flit of an intake acts (R369, R370, R378) -/

theorem intakeHead_blocked {s : State} {k : Nat} (hb : (getEng s k).blocked = true) : intakeHead s k = none := by
  unfold intakeHead
  split
  · rfl
  · exact if_pos hb

section Head
variable {s next : State} {k : Nat} {f : Flit} {rest : List Flit} (hq : (getEng s k).intake = f :: rest) (hb : (getEng s k).blocked = false)
include hq hb

theorem intakeHead_handoff (hn : next = modEng s k fun e => { e with intake := rest, flitq := e.flitq ++ [f] }) (ho : origKind f = 1) :
    intakeHead s k = some (takeHandoff next k f) := by
  subst hn
  unfold intakeHead
  simp [hq, hb, ho]

section Issue
variable {r : IssueReq} (hr : r = issueReq s k f) (ho : origKind f ≠ 1)
include hr ho

theorem intakeHead_wait (hc : issueCheck s r = .wait) : intakeHead s k = none := by
  subst hr
  unfold intakeHead
  simp [hq, hb, ho, hc]

variable (hn : next = modEng s k fun e => { e with intake := rest, flitq := e.flitq ++ [f] })
include hn

theorem intakeHead_refuse {reason : Nat} (hc : issueCheck s r = .refuse reason) :
    intakeHead s k = some (refuseIssue (noteOpen (issueReads next r) r.part) r reason) := by
  subst hr hn
  unfold intakeHead
  simp [hq, hb, ho, hc]

theorem intakeHead_accept (hc : issueCheck s r = .accept) : intakeHead s k = some (acceptIssue (noteOpen (issueReads next r) r.part) r) := by
  subst hr hn
  unfold intakeHead
  simp [hq, hb, ho, hc]

end Issue
end Head

/-! ### A rescan (R430, R451) -/

theorem rescanTaken_event {s t : State} {k : Nat} {v : Nat × Word × Word} (hv : (getEng s k).evq.find? (fun v => v.1 == 9) = some v)
    (ht : t = modEng s k fun e => { e with evq := e.evq.erase v }) :
    rescanTaken s k = modEng t k fun e => { e with rescan := rescanRuns t k } := by
  subst ht
  unfold rescanTaken
  rw [hv]

theorem rescanTaken_none {s : State} {k : Nat} (hv : (getEng s k).evq.find? (fun v => v.1 == 9) = none) : rescanTaken s k = s := by
  unfold rescanTaken
  rw [hv]

/-- Settles O32: a flit is received or waits, then the intake's oldest flit, its spill ring and its rescan each act by their own rule. -/
theorem intakeTakesIssuesAndHandoffs : Obligations.IntakeTakesIssuesAndHandoffs := by
  intro s die eng k hk hd
  subst hk
  refine ⟨?_, ?_, ?_, intakeHead_blocked, ?_, fun v t => rescanTaken_event, rescanTaken_none, ?_⟩
  · intro f rest err t u r cmd hup hq hr ht hu hrecv hcmd
    have hexec : exec cmd s = .next (r.1.elim r.2 fun g => intakeTake r.2 (servingFor u (engKey die eng)) g) := by
      rw [← engineReceive_room hq rfl hr ht hu hrecv, hcmd]
      exact exec_receiveCmd hd hup
    refine ⟨fun hn => ?_, fun g ha hc => hrecv.trans (recvFlit_clean _ _ _ _ _ ha hc), fun g q hg hq => ?_⟩
    · rw [hexec, hn]; rfl
    · have htake {w : State} (h : intakeTake r.2 q g = w) : exec cmd s = .next w := by
        rw [hexec, hg, ← h, hq]; rfl
      refine ⟨fun hb => htake (intakeTake_badRoute hb), fun hb h2 => htake (intakeTake_badKind hb h2),
        fun hb h2 hroom => htake (intakeTake_room hb h2 hroom), fun hb h2 hfull => ⟨fun hslot => ?_, fun v h1 hslot hv => ?_⟩⟩
      · refine htake ((intakeTake_full hb h2 hfull).trans (if_neg ?_))
        rintro ⟨h1, hlt⟩
        rcases hslot with h0 | hge
        · rw [h0] at h1; exact absurd h1 (by decide)
        · exact absurd hlt (Nat.not_lt.mpr hge)
      · have hdrop := (intakeTake_full hb h2 hfull).trans (if_pos ⟨h1, hslot⟩)
        exact ⟨fun hp => htake (hdrop.trans (dropHandoff_pending hv hp)), fun hp => htake (hdrop.trans (dropHandoff_raises hv hp))⟩
  · intro f rest err hup hq hr
    exact (exec_receiveCmd hd hup).trans (congrArg _ (engineReceive_waits hq hr))
  · intro f rest r next hq hb hr hn
    exact ⟨intakeHead_handoff hq hb hn, fun reason ho => intakeHead_refuse hq hb hr ho hn, fun ho => intakeHead_accept hq hb hr ho hn,
      fun ho => intakeHead_wait hq hb hr ho⟩
  · rintro q rfl hup
    exact unitDo_live _ hd hup
  · intro hup hr
    exact unitDo_eq hd hup (if_pos hr)

end Sys2Proof.Machine
end

section
/-! SUPPORT. Invalidations of the table caches (R88, R101, R121, R124, R157, R168, R180, R491, R510, R566) and tenant channels (R507 to
R509, R552): the guards of their registers, then the effects that the guards let through. -/

namespace Sys2Proof.Machine

/-! ### The guards of the SCH and PRT registers (R552, R560) -/

section Guards
variable {s t t' : State}

theorem schCommand_open {d w : Nat} (ho : regOpen s d bSch w = true) (hd : dieLive s d = true) (hb : blkEn s d bSch = true) (h : t = t') :
    schCommand s d w t = .next t' := h ▸ regDo_live t ho (by rw [hd, hb]; rfl)

theorem prtDo_open {w : Nat} (ho : regOpen s 0 bPrt w = true) (hd : dieLive s 0 = true) (hb : blkEn s 0 bPrt = true) (h : t = t') :
    prtDo s w t = .next t' := h ▸ regDo_live t ho (by rw [hd, hb]; rfl)

/-- A register that its part does not have raises a bus error. -/
theorem busBad_absent {d b w : Nat} (hd : d < 8) (hb : b < 2 ^ 8) (hw : w < 2 ^ 20) (hi : implemented s.part d b w = false) :
    busBad s (regIdx d b w) true = true := by
  unfold busBad
  rw [idxDie_regIdx hd hb hw, idxBlk_regIdx hb hw, idxWord_regIdx hd hb hw]
  simp [hi]

theorem prtDo_absent {w : Nat} (hw : w < 2 ^ 20) (hi : implemented s.part 0 bPrt w = false) :
    prtDo s w t = .next (busCount s (regIdx 0 bPrt w)) :=
  regDo_bad _ _ (busBad_absent (by decide) (by decide) hw hi)

end Guards

/-! ### The progress command and SCH_PXTCMD (R157, R168, R180, R510) -/

/-- The progress entry is read again; on die 0 an admission that closes is counted, and the luff detector is armed. -/
theorem pptRenew_eq {b t u : State} {d p : Nat}
    (ht : t = ptFill (ptInvalidate (schPart rSchPptcmd d p b) d .ppt p) d .ppt p)
    (hu : u = if d = 0 ∧ admissionClosed b d p = false ∧ admissionClosed t d p = true then pptCount t d p 4 else t) :
    pptRenew b d p = if d = 0 then setLuff u p { getLuff u p with run := 0, armed := true } else u := by
  have hnote : noteClosing t d p (admissionClosed b d p) = u := by
    rw [hu]
    unfold noteClosing
    simp only [Bool.not_eq_true']
  subst ht
  unfold pptRenew
  dsimp only
  rw [hnote]

section Pxt
variable {s v : State} {d op p : Nat} {effect : State → State} (hv : v = destroySettle s)
include hv

theorem pxtBusy_free (h : d ≠ 0 ∨ destroyingPart v = none) :
    pxtBusy s d op p effect = startCmd v d bSch rSchPxtcmd 0 (fun t => pxtFields t d op p (pxtErr t d)) effect := by
  subst hv
  refine if_neg ?_
  rintro ⟨h0, hs⟩
  rcases h with h | h
  · exact h h0
  · rw [h] at hs; cases hs

theorem pxtBusy_destroying {q : Nat} (hd : d = 0) (h : destroyingPart v = some q) :
    pxtBusy s d op p effect = reject (pxtFields v d op p (pxtErr v d)) d bSch := by
  subst hv
  exact if_pos ⟨hd, by rw [h]; rfl⟩

end Pxt

/-! ### Mailboxes (R507, R508) -/

theorem mailGo_free {s : State} {p : Nat} {out : Bool} (h : mailBusy s p (b2n out) = false) :
    mailGo s p out = evRaise (setMail s p (b2n out) true) 1 ((if out then 0x800 else 0x400) + p) := if_neg (ne_true_of_eq_false h)

theorem mailGo_outstanding {s : State} {p : Nat} {out : Bool} (h : mailBusy s p (b2n out) = true) :
    mailGo s p out = count s 0 bPrt rPrtMbrej := if_pos h

/-- Settles O45: behind the guard of its register each command starts or is refused, and a message goes, is ignored or ends. -/
theorem tableCommandsAndTenantChannels : Obligations.TableCommandsAndTenantChannels := by
  refine ⟨?_, ?_⟩
  · intro s die part d p put hd hp hdl hb hput
    obtain rfl : put = fun w t => setF t d bSch w 9 0 p := funext fun w => funext fun t => hput w t
    subst hd hp
    refine ⟨fun ho => ?_, fun ho => ?_, fun ho => ?_, fun v fields ho hv hfields => ?_⟩
    · refine ⟨fun b h => ?_, fun b h => ?_, fun b h => ?_, fun b h => ?_⟩
      · exact schCommand_open ho hdl hb (startCmd_go _ _ h)
      · exact schCommand_open ho hdl hb (startCmd_busy _ _ h)
      · exact schCommand_open ho hdl hb (startCmd_go _ _ h)
      · exact schCommand_open ho hdl hb (startCmd_busy _ _ h)
    · exact ⟨fun b h => schCommand_open ho hdl hb (startCmd_go _ _ h), fun b h => schCommand_open ho hdl hb (startCmd_busy _ _ h)⟩
    · refine ⟨fun b t u h ht hu => ?_, fun b h => schCommand_open ho hdl hb (startCmd_busy _ _ h)⟩
      exact schCommand_open ho hdl hb ((startCmd_go _ _ h).trans (pptRenew_eq ht hu))
    · subst hfields
      refine ⟨fun b hq h => ?_, fun b hq h => ?_, fun q h0 hq => ?_⟩
      · exact schCommand_open ho hdl hb ((pxtBusy_free hv hq).trans (startCmd_go _ _ h))
      · exact schCommand_open ho hdl hb ((pxtBusy_free hv hq).trans (startCmd_busy _ _ h))
      · exact schCommand_open ho hdl hb (pxtBusy_destroying hv h0 hq)
  · intro s part p hp hdl hb
    subst hp
    have hword {w : Nat} (hw : w ≤ 0x1000) : w + (part : Nat) < 2 ^ 20 := by have := part.isLt; omega
    refine ⟨?_, fun ho => ?_, fun hi out => ?_⟩
    · rintro bell rfl
      refine ⟨fun ho => ?_, fun hi => ?_⟩
      · refine ⟨fun h => ?_, fun h => ?_, prtDo_open ho hdl hb rfl, fun h => ?_, fun h => ?_, prtDo_open ho hdl hb rfl⟩
        · exact prtDo_open ho hdl hb (mailGo_free (out := false) h)
        · exact prtDo_open ho hdl hb (mailGo_outstanding (out := false) h)
        · exact prtDo_open ho hdl hb (mailGo_free (out := true) h)
        · exact prtDo_open ho hdl hb (mailGo_outstanding (out := true) h)
      · have hbad {t : State} : prtDo s (rPrtMbdb + part) t = _ := prtDo_absent (hword (by decide)) hi
        exact ⟨hbad, hbad, hbad, hbad⟩
    · exact ⟨prtDo_open ho hdl hb rfl, prtDo_open ho hdl hb rfl⟩
    · exact prtDo_absent (hword (by decide)) hi

end Sys2Proof.Machine
end

section
/-! SUPPORT. The ready lists, dispatch, item rings and the Ratline ring (R127, R131, R135, R144, R151, R319): what each of their
commands does in each of its cases. -/

namespace Sys2Proof.Machine

/-! ### An entry moves up a level (R127) -/

theorem promote_moves {s : State} {g k : Nat} {i : Inst} (hi : (getSpar s g).rl[k]? = some i) (hl : 2 ≤ i.level)
    (hp : hasPlace s g i.part (i.level - 1) = true) :
    promote s g k = ratInst (modSpar s g fun x => { x with rl := setAt x.rl k { i with level := i.level - 1 } }) g 2
      { i with level := i.level - 1 } 0 0 := by
  unfold promote
  rw [hi]
  exact if_pos ⟨hl, hp⟩

/-! ### One dispatch (R131) -/

section Dispatch
variable {s : State} {g k : Nat} {i : Inst}
  (hmin : minBy (fun i => if dispatchable s g (availableSlots s g).length i then rlKey i else 2 ^ 80) (getSpar s g).rl = some (i, k))
include hmin

theorem dispatchOne_idle (hd : dispatchable s g (availableSlots s g).length i = false) : dispatchOne s g = s := by
  unfold dispatchOne
  dsimp only
  rw [hmin]
  exact if_neg (ne_true_of_eq_false hd)

theorem dispatchOne_starts {r : State × Nat} {f : Word × State} (hd : dispatchable s g (availableSlots s g).length i = true)
    (hr : r = startOn (rlRemove s g k) g i (availableSlots s g)) (hf : f = takeFree r.1) :
    dispatchOne s g = ratInst (modHw (ptFill f.2 (g / 32) .pxt i.part) i.part fun h =>
      { h with fired := true, lastFire := timeOf f.2 (g / 32) }) g 1 i r.2 f.1.toNat := by
  subst hr hf
  unfold dispatchOne
  dsimp only
  rw [hmin]
  exact if_pos hd

end Dispatch
/-! ### A frame word comes through the spar L2 (R135, R319) -/

section L2Read
variable {s u t : State} {c : Ctx} {g va pa : Nat} (hu : u = xlateNote s c va) (ht : translate u c .read va = .ok pa) (hb : backed u pa = true)
include hu ht hb

theorem l2Read_backed : l2Read s c g va =
    (lineForRead u g (pa / 16)).map fun t => (if l2Poisoned t g pa then .error tPoison else .ok (l2Word t g pa), t) := by
  subst hu
  unfold l2Read
  simp [ht, hb]

theorem l2Read_waits (hl : lineForRead u g (pa / 16) = none) : l2Read s c g va = none := by
  rw [l2Read_backed hu ht hb, hl]; rfl

theorem l2Read_word (hl : lineForRead u g (pa / 16) = some t) (hp : l2Poisoned t g pa = false) :
    l2Read s c g va = some (.ok (l2Word t g pa), t) := by
  rw [l2Read_backed hu ht hb, hl]
  simp [hp]

end L2Read

section KeyReturn
variable {s t : State} {g k : Nat} {i : Inst} (hi : (getSpar s g).rl[k]? = some i) (hf : i.flow = .keyWait)
include hi hf

theorem keyReturn_waits (hr : l2Read s (codeletCtx (g / 32) i.part i.asid) g (i.body + i.key.toNat) = none) : keyReturn s g k = s := by
  unfold keyReturn
  simp only [hi, hf, if_true, hr]

/-- The key that has come makes the entry wait for a request slot, where the flow has an arbiter. -/
theorem keyReturn_key {key : Word} (hr : l2Read s (codeletCtx (g / 32) i.part i.asid) g (i.body + i.key.toNat) = some (.ok key, t))
    (ha : arbiterExists t g i key = true) :
    keyReturn s g k =
      assignSlots (modSpar t g fun x => { x with rl := setAt x.rl k { i with flow := .slotWait, key := key } }) g 64 := by
  unfold keyReturn
  simp [hi, hf, hr, ha]

end KeyReturn

/-! ### An item is taken (R144) -/

section Item
variable {s t u : State} {g d part m n b a cb e graph : Nat} {head w1 w4 : Word} {c : Ctx} (hd : g / 32 = d) (hn : n = uSpar g)
  (hpart : part = getF s d (bClu (g % 32)) rCluSchctl 25 16) (hmode : itemMode s g = true) (hv : ptValid s n .pst part = true)
  (hiv : pstIv s n part = true) (hg : g = pstItemBase s n part + m) (hm : m < 2 ^ pstLog2I s n part) (hb : b = itemRing s n part m)
  (hhead : head = peek s (b + 1)) (ha : a = b + 16 + 8 * (head.toNat % 2 ^ pstLog2N s n part)) (hw4 : w4 = peek s (a + 4))
  (hw1 : w1 = peek s (a + 1)) (hclean : isPoisoned (unitRead s d (b + 1) 1) (b + 1) = false)
  (ht : t = unitRead (unitRead s d (b + 1) 1) d a 5) (hslot : ∀ k < 5, isPoisoned t (a + k) = false)
include hd hn hpart hmode hv hiv hg hm hb hhead ha hw4 hw1 hclean ht hslot

/-- The slot at `HEAD` of a spar that is member `m` of its partition's item set: a valid item of this lap enters the level that it names,
and its slot is freed. -/
theorem itemTake_enters (hvalid : wbit w4 63 = true) (hlap : wfld w4 31 0 = wfld head 31 0) (hplace : hasPlace t g part (itemLevel w1) = true)
    (hc : c = codeletCtx d part (wfld w4 45 40)) (hflow : wfld w1 31 0 = 0 ∨ flowDie u n part (w64 (wfld w1 31 0)) < nDies u.part)
    (hgraph : graph = wfld (peek t a) 48 0) (hu : u = unitNote (unitNote t c graph 4) c (graph + 4 + wfld w1 63 46) 1)
    (hcode : itemCode u c graph (wfld w1 63 46) = some (cb, e)) :
    itemTake s g = store (store (enterItem u g part (wfld w4 45 40) (peek u a) w1 (peek u (a + 2)) (peek u (a + 3)) cb e)
      d (a + 4) 0) d (b + 1) (head + 1) := by
  have hle : pstItemBase s n part ≤ g := by omega
  obtain rfl : m = g - pstItemBase s n part := by omega
  have hnone : ((List.range 5).find? fun k => isPoisoned t (a + k)) = none := by simpa using hslot
  have harb : ¬(wfld w1 31 0 ≠ 0 ∧ nDies u.part ≤ flowDie u n part (w64 (wfld w1 31 0))) :=
    fun h => hflow.elim h.1 (Nat.not_lt.mpr h.2)
  subst hd hn hpart hb hhead ha hw4 hw1 ht hc hgraph hu
  unfold itemTake
  simp only [hmode, hv, hiv, hle, hm, hclean, hnone, hvalid, hlap, hplace, hcode, harb, decide_true, Bool.and_self, Bool.not_true,
    Bool.false_eq_true, if_false, beq_self_eq_true]

end Item

/-! ### Ratline takes a staged record (R151) -/

theorem ratWrite_stores {s t : State} {die spar g cfg k a : Nat} {r : RatRec} {rest : List RatRec} (hg : g = gspar die spar)
    (hq : (getSpar s g).staging = r :: rest) (ht : t = modSpar s g fun x => { x with staging := rest }) (hcfg : cfg = getReg t die bRtl rRtlCfg)
    (hk : k = getReg t die bRtl rRtlWptr) (hroom : bitOf cfg 31 = false ∨ k < 2 ^ fld cfg 30 26)
    (ha : a = baseOf t die bRtl rRtlBaseHi + 4 * (k % 2 ^ fld cfg 30 26)) :
    ratWrite s die spar = setReg (stores t die a [r.time, r.tag, r.info, r.fkey]) die bRtl rRtlWptr ((k + 1) % 2 ^ 32) := by
  have hn : ¬(bitOf cfg 31 = true ∧ 2 ^ fld cfg 30 26 ≤ k) :=
    fun h => hroom.elim (fun h0 => ne_true_of_eq_false h0 h.1) (Nat.not_lt.mpr h.2)
  subst hg ht hcfg hk ha
  unfold ratWrite
  dsimp only
  rw [hq]
  exact if_neg hn

/-- Settles O12: behind the guard of its spar or of Ratline each command is the branch that the hypotheses select. -/
theorem readyListsDispatchItemsAndRatline : Obligations.ReadyListsDispatchItemsAndRatline := by
  intro s die spar g hg hd
  have hdie : g / 32 = (die : Nat) := hg ▸ gspar_die spar.isLt
  have hspar : g % 32 = (spar : Nat) := hg ▸ gspar_spar spar.isLt
  refine ⟨fun hlive => ?_, fun hdl hb r rest t cfg k a hq ht hcfg hk hroom ha => ?_⟩
  · have hdo {t t' : State} (h : t = t') : sparDo s die spar t = .next t' := unitDo_eq hd (hg ▸ hlive) h
    subst hg
    refine ⟨?_, ?_, ?_, ?_, ?_, ?_⟩
    · intro k i hi hl hp
      exact hdo (promote_moves hi hl hp)
    · intro h2
      exact hdo (if_neg (ne_true_of_eq_false h2))
    · intro h2
      exact hdo (if_pos h2)
    · intro v i k r f hmin
      exact ⟨dispatchOne_idle hmin, dispatchOne_starts hmin⟩
    · intro k i c va u pa hi hf hc hva hu ht hb
      subst hc hva
      refine ⟨fun hl => ?_, fun t key hl hp hkey ha => ?_⟩
      · exact hdo (keyReturn_waits hi hf (l2Read_waits hu ht hb hl))
      · exact hdo (keyReturn_key hi hf (hkey ▸ l2Read_word hu ht hb hl hp) ha)
    · intro part m n b head a w1 w4 graph c cb e t u hn hpart hmode hv hiv hgm hm hb hhead ha hw4 hw1 hclean ht hslot hvalid hlap hplace hc hflow
        hgraph hu hcode
      exact hdo (itemTake_enters hdie hn (hpart.trans (by rw [hspar])) hmode hv hiv hgm hm hb hhead ha hw4 hw1 hclean ht hslot hvalid hlap hplace hc hflow
        hgraph hu hcode)
  · exact unitDo_eq hd (by rw [hdl, hb]; rfl) (ratWrite_stores hg hq ht hcfg hk hroom ha)

end Sys2Proof.Machine
end

section
/-! SUPPORT. The flow arbiters (R137 to R140, R148): what each of their messages does where it crosses to its end and where it waits. -/

namespace Sys2Proof.Machine

/-! ### A request reaches its arbiter (R137, R139, R140) -/

section Request
variable {s v : State} {d k : Nat} {m : FlowMsg}

theorem requestsAt_request (hm : s.flowMsgs[k]? = some m) (hk : m.kind = .request) (hd : m.die = d) : requestsAt s d [k] = [k] := by
  unfold requestsAt
  simp [List.eraseDups_cons, hm, hk, hd]

theorem crossRequests_crosses (hm : s.flowMsgs[k]? = some m) (hc : flowCross s m = some v) : crossRequests s [k] = ([k], v) := by
  unfold crossRequests
  simp [hm, hc]

theorem pickAt_singleton {α : Type} {l : List α} {a : α} (h : l[k]? = some a) : pickAt l [k] = [a] := by
  unfold pickAt
  simp [h]

/-- One request alone is taken as it is, and the round robin stays where it stands. -/
theorem admitAll_singleton (s : State) (d : Nat) (m : FlowMsg) : admitAll s d 1 [m] = admitFlow s d m := rfl

/-- A request that crosses alone is taken by the arbiter. -/
theorem exec_flowRequest_crosses {die : DieNo} {t : State} (hd : (die : Nat) < nDies s.part) (hdl : dieLive s die = true)
    (hb : blkEn s die bSch = true) (hm : s.flowMsgs[k]? = some m) (hk : m.kind = .request) (hmd : m.die = (die : Nat))
    (hc : flowCross s m = some v) (ht : t = { v with flowMsgs := dropAll s.flowMsgs [k] }) :
    exec (.flowRequest die [k]) s = .next (admitFlow t die m) := by
  subst ht
  refine (show _ = execFlowRequest die [k] s from rfl).trans ?_
  unfold execFlowRequest
  rw [requestsAt_request hm hk hmd, crossRequests_crosses hm hc]
  dsimp only
  rw [pickAt_singleton hm]
  exact schDo_live _ hd hdl hb

end Request

/-! ### The arbiter refuses, grants or lets wait (R137, R138, R148) -/

section Admit
variable {s : State} {d : Nat} {m : FlowMsg} {own shared : Bool} (ho : own = !((flows s d).any fun e => e.reserved && e.spar == m.spar))
  (hs : shared = decide (((flows s d).filter fun e => !e.reserved).length < 4096 - 32 * nDies s.part))
include ho hs

section Full
variable (hown : own = false) (hshared : shared = false)
include hown hshared

theorem admitFlow_refused {u : State} (hc : cohCross s d (m.spar / 32) = some u) :
    admitFlow s d m = markRefused (count u d bSch rSchFlownakcnt) m := by
  subst ho hs
  unfold admitFlow
  simp [hown, hshared, hc]

theorem admitFlow_waits (hc : cohCross s d (m.spar / 32) = none) : admitFlow s d m = { s with flowMsgs := s.flowMsgs ++ [m] } := by
  subst ho hs
  unfold admitFlow
  simp [hown, hshared, hc]

end Full

section Place
variable (h : (own || shared) = true) {e : FlowEntry}
include h

/-- The first request of a flow holds it. -/
theorem admitFlow_held (hf : (flows s d).any (sameFlow m.part m.key) = false) (he : e = ⟨m.part, m.key, m.spar, m.slot, true, own, m.who⟩) :
    admitFlow s d m = grantTo (setFlows s d (flows s d ++ [e])) d e := by
  subst he ho hs
  unfold admitFlow
  simp only [h, hf, if_true, Bool.not_false]

theorem admitFlow_behind (hf : (flows s d).any (sameFlow m.part m.key) = true) (he : e = ⟨m.part, m.key, m.spar, m.slot, false, own, m.who⟩) :
    admitFlow s d m = ratFlow (setFlows s d (flows s d ++ [e])) d 3 m.spar m.part m.key m.who := by
  subst he ho hs
  unfold admitFlow
  simp only [h, hf, if_true, Bool.not_true, Bool.false_eq_true, if_false]

end Place
end Admit

/-! ### A refused request is sent again (R137) -/

theorem askAgain_refused {s : State} {g slot k : Nat} {i : Inst}
    (h : ((getSpar s g).rl.zipIdx.find? fun p => p.1.flow == .refused && p.1.slot == slot) = some (i, k)) :
    askAgain s g slot = sendFlow (modSpar s g fun x => { x with rl := setAt x.rl k { i with flow := .requested } }) .request g i.part i.key slot
      (flowWho i) := by
  unfold askAgain
  rw [h]

/-! ### Grants, releases and cancels (R137 to R140) -/

section Message
variable {s : State} {d n : Nat} {m : FlowMsg} (hm : s.flowMsgs[n]? = some m)
include hm

section Waits
variable (hc : flowCross s m = none)
include hc

theorem takeGrant_waits : takeGrant s d n = s := by unfold takeGrant; simp [hm, hc]
theorem takeRelease_waits : takeRelease s d n = s := by unfold takeRelease; simp [hm, hc]
theorem takeCancel_waits : takeCancel s d n = s := by unfold takeCancel; simp [hm, hc]

end Waits

variable {v t : State} (hc : flowCross s m = some v) (ht : t = { v with flowMsgs := dropAt v.flowMsgs n })
include hc ht

section Grant
variable (hk : m.kind = .grant) (hd : m.spar / 32 = d) (hl : dieLive s d = true) {found : Option (Inst × Nat)}
  (hfound : found = ((getSpar t m.spar).rl.zipIdx.find? fun p =>
    p.1.flow == .requested && p.1.slot == m.slot && p.1.part == m.part && p.1.key == m.key))
include hk hd hl hfound

theorem takeGrant_held {i : Inst} {k : Nat} (h : found = some (i, k)) :
    takeGrant s d n = modSpar t m.spar fun x => { x with rl := setAt x.rl k { i with flow := .held } } := by
  subst hfound ht
  unfold takeGrant
  simp [hm, hc, hk, hd, hl, h]

/-- A grant whose entry is gone is answered with a release. -/
theorem takeGrant_gone (h : found = none) : takeGrant s d n = sendFlow t .release m.spar m.part m.key m.slot m.who := by
  subst hfound ht
  unfold takeGrant
  simp [hm, hc, hk, hd, hl, h]

end Grant

theorem takeRelease_held {e : FlowEntry} {k : Nat} (hk : m.kind = .release) (hd : m.die = d)
    (hf : ((flows t d).zipIdx.find? fun p => p.1.held && sameFlow m.part m.key p.1 && p.1.spar == m.spar) = some (e, k)) :
    takeRelease s d n = grantNext (ratFlow (setFlows t d (dropAt (flows t d) k)) d 5 m.spar m.part m.key m.who) d m.part m.key := by
  subst ht
  unfold takeRelease
  simp [hm, hc, hk, hd, hf]

theorem takeCancel_waiting {e : FlowEntry} {k : Nat} (hk : m.kind = .cancel) (hd : m.die = d)
    (hf : ((flows t d).zipIdx.find? fun p => !p.1.held && sameFlow m.part m.key p.1 && p.1.spar == m.spar && p.1.slot == m.slot) = some (e, k)) :
    takeCancel s d n = setFlows t d (dropAt (flows t d) k) := by
  subst ht
  unfold takeCancel
  simp [hm, hc, hk, hd, hf]

end Message

/-- Settles O13: a request crosses alone and is refused, held or let wait; every other message crosses and acts, or waits. -/
theorem flowArbiterGrantsInOrder : Obligations.FlowArbiterGrantsInOrder := by
  intro s die hd hdl
  refine ⟨?_, ?_, ?_, ?_⟩
  · intro k m v t own shared hb hm hmd hc ht ho hs hk
    have hadmit {w : State} (h : admitFlow t die m = w) : exec (.flowRequest die [k]) s = .next w :=
      h ▸ exec_flowRequest_crosses hd hdl hb hm hk hmd hc ht
    refine ⟨fun hown hshared => ⟨fun u hu => ?_, fun hu => ?_⟩, fun h hf e he => ?_, fun h hf e he => ?_⟩
    · exact hadmit (admitFlow_refused ho hs hown hshared hu)
    · exact hadmit (admitFlow_waits ho hs hown hshared hu)
    · exact hadmit (admitFlow_held ho hs h hf he)
    · exact hadmit (admitFlow_behind ho hs h hf he)
  · rintro spar g slot i k rfl hl hf
    exact unitDo_eq hd hl (askAgain_refused hf)
  · intro n m hm hc
    refine ⟨(onDie_next _ hd).trans (congrArg _ (takeGrant_waits hm hc)), fun hb => ?_⟩
    have hlive : (dieLive s die && blkEn s die bSch) = true := by rw [hdl, hb]; rfl
    exact ⟨unitDo_eq hd hlive (takeRelease_waits hm hc), unitDo_eq hd hlive (takeCancel_waits hm hc)⟩
  · intro n m v t hm hc ht
    refine ⟨?_, fun e k hb hk hmd hf => ?_, fun e k hb hk hmd hf => ?_⟩
    · intro found hk hmd hfound
      exact ⟨fun i k hf => (onDie_next _ hd).trans (congrArg _ (takeGrant_held hm hc ht hk hmd hdl hfound hf)),
        fun hf => (onDie_next _ hd).trans (congrArg _ (takeGrant_gone hm hc ht hk hmd hdl hfound hf))⟩
    · exact unitDo_eq hd (by rw [hdl, hb]; rfl) (takeRelease_held hm hc ht hk hmd hf)
    · exact unitDo_eq hd (by rw [hdl, hb]; rfl) (takeCancel_waiting hm hc ht hk hmd hf)

end Sys2Proof.Machine
end

section
/-! SUPPORT. Admission notices and loop gates (R140, R168, R174, R175, R326): what a notice, a gate message and a waiting gate do. -/

namespace Sys2Proof.Machine

/-! ### A notice is counted (R140, R168) -/

theorem takeNotice_crosses {s v t0 t : State} {d k : Nat} {n : Notice} (hn : s.notices[k]? = some n) (hd : n.die = d)
    (hfirst : ((s.notices.take k).any fun m => m.die == d && m.spar == n.spar) = false) (hc : cohCross s (n.spar / 32) d = some v)
    (ht0 : t0 = ptFill v d .ppt n.part)
    (ht : t = modDie { t0 with notices := dropAt t0.notices k } d fun x => { x with closed :=
      (if n.close then x.closed.filter (· != (n.part, n.spar)) ++ [(n.part, n.spar)] else x.closed.filter (· != (n.part, n.spar))) }) :
    takeNotice s d k = noteClosing t d n.part (admissionClosed t0 d n.part) := by
  subst ht0 ht
  unfold takeNotice
  simp only [hn, hd, hfirst, hc, ne_eq, not_true_eq_false, Bool.false_eq_true, or_self, if_false, Option.elim]

/-! ### A request and a release at their gate (R174, R175, R326) -/

section Gate
variable {s t : State} {d a : Nat} {o : GateOp}

theorem gateRequest_noGate (h : gateExists s d o.part o.gate = false) : gateRequest s d o = gateReply s d o.part o.rtag 0 :=
  if_pos (by rw [h]; rfl)

theorem gateRelease_noGate (h : gateExists s d o.part o.gate = false) : gateRelease s d o = s := if_pos (by rw [h]; rfl)

variable (hg : gateExists s d o.part o.gate = true) (ha : a = gateLine s d o.part o.gate) (ht : t = (readClean s d a 4).2)
include hg ha ht

theorem gateRequest_poisoned (hp : (readClean s d a 4).1 = false) : gateRequest s d o = t := by
  subst ha ht
  unfold gateRequest
  simp [hg, hp]

theorem gateRelease_poisoned (hp : (readClean s d a 4).1 = false) : gateRelease s d o = t := by
  subst ha ht
  unfold gateRelease
  simp [hg, hp]

variable (hp : (readClean s d a 4).1 = true)
include hp

theorem gateRequest_waiter {e : Nat} {u : State} (hroom : gateWaiters t d o.part o.gate < 2 ^ pptLog2W t d o.part)
    (hlimit : wfld (peek t a) 63 32 ≠ 0) (he : e = waiterAt t d o.part o.gate (wfld (peek t (a + 1)) 63 32))
    (hu : u = stores t d e [o.rtag, w64 (o.asid % 64 * 2 ^ 58 + o.graph % 2 ^ 49), o.uword, 0]) :
    gateRequest s d o = gateTry (gateSet u d (a + 1) true (wfld (peek t (a + 1)) 63 32 + 1)) d o.part o.gate := by
  subst ha ht he hu
  unfold gateRequest
  simp [hg, hp, hroom, hlimit]

theorem gateRequest_refused (h : 2 ^ pptLog2W t d o.part ≤ gateWaiters t d o.part o.gate ∨ wfld (peek t a) 63 32 = 0) :
    gateRequest s d o = gateTry (gateRefuse t d o.part o.gate o.rtag) d o.part o.gate := by
  have hn : ¬(gateWaiters t d o.part o.gate < 2 ^ pptLog2W t d o.part ∧ wfld (peek t a) 63 32 ≠ 0) :=
    fun hn => h.elim (Nat.not_le.mpr hn.1) hn.2
  subst ha ht
  unfold gateRequest
  simp [hg, hp, hn]

/-- A release counts down, or counts as one too many where nothing is held. -/
theorem gateRelease_counts : gateRelease s d o =
    gateTry (if wfld (peek t a) 31 0 = 0 then gateSet t d (a + 3) false (wfld (peek t (a + 3)) 31 0 + 1)
      else gateSet t d a false (wfld (peek t a) 31 0 - 1)) d o.part o.gate := by
  subst ha ht
  unfold gateRelease
  simp [hg, hp]

end Gate

/-! ### A gate message arrives, and a waiting gate tries again (R174, R175) -/

section Message
variable {s t0 : State} {d k : Nat} {m : GateMsg} (hm : s.gateMsgs[k]? = some m) (hd : m.die = d)
  (ht0 : t0 = ptFill { s with gateMsgs := dropAt s.gateMsgs k } d .ppt m.op.part)
include hm hd ht0

theorem gateMsg_request (hr : m.op.release = false) : gateMsg s d k false = gateRequest t0 d m.op := by
  subst ht0
  unfold gateMsg
  simp [hm, hd, hr]

theorem gateMsg_release (hr : m.op.release = true) : gateMsg s d k true = gateRelease t0 d m.op := by
  subst ht0
  unfold gateMsg
  simp [hm, hd, hr]

end Message

theorem gateRetry_waiting {s : State} {d part gate : Nat} {r : Bool × State} (hw : s.gateWaits.contains (d, part, gate) = true)
    (hg : gateExists s d part gate = true) (hr : r = readClean s d (gateLine s d part gate) 4) :
    gateRetry s d part gate = if r.1 then gateTry r.2 d part gate else r.2 := by
  subst hr
  exact if_pos (by rw [hw, hg]; rfl)

/-- Settles O14: behind the guard of the SCH block each message is the branch that the hypotheses select. -/
theorem admissionNoticesAndLoopGates : Obligations.AdmissionNoticesAndLoopGates := by
  intro s die hd hdl hb
  have hdo {t t' : State} (h : t = t') : schDo s die t = .next t' := h ▸ schDo_live t hd hdl hb
  refine ⟨?_, ?_, ?_⟩
  · intro k n v t0 t hn hnd hfirst hc ht0 ht
    exact hdo (takeNotice_crosses hn hnd hfirst hc ht0 ht)
  · rintro k m o t0 t a hm hmd rfl ht0 ha ht
    have hreq {u : State} (hr : m.op.release = false) (h : gateRequest t0 die m.op = u) : exec (.gateRequest die k) s = .next u :=
      hdo ((gateMsg_request hm hmd ht0 hr).trans h)
    have hrel {u : State} (hr : m.op.release = true) (h : gateRelease t0 die m.op = u) : exec (.gateRelease die k) s = .next u :=
      hdo ((gateMsg_release hm hmd ht0 hr).trans h)
    refine ⟨fun hr hg => ?_, fun hr hg => ?_, fun hg hp => ⟨fun hr => ?_, fun hr => ?_⟩, fun hr hg hp => ⟨?_, fun h => ?_⟩,
      fun hr hg hp => ⟨fun hc => ?_, fun hc => ?_⟩⟩
    · exact hreq hr (gateRequest_noGate hg)
    · exact hrel hr (gateRelease_noGate hg)
    · exact hreq hr (gateRequest_poisoned hg ha ht hp)
    · exact hrel hr (gateRelease_poisoned hg ha ht hp)
    · intro hroom hlimit e u he hu
      exact hreq hr (gateRequest_waiter hg ha ht hp hroom hlimit he hu)
    · exact hreq hr (gateRequest_refused hg ha ht hp h)
    · exact hrel hr ((gateRelease_counts hg ha ht hp).trans (by rw [if_neg hc]))
    · exact hrel hr ((gateRelease_counts hg ha ht hp).trans (by rw [if_pos hc]))
  · intro part gate hw hg r hr
    exact hdo (gateRetry_waiting hw hg hr)

end Sys2Proof.Machine
end

section
/-! SUPPORT. The luff detector (R179 to R181): what the end of an interval and an evaluation do to a partition's run count. -/

namespace Sys2Proof.Machine

@[simp] theorem getLuff_setLuff_self (s : State) (p : Nat) (l : Luff) : getLuff (setLuff s p l) p = l := tget_tset_self _ _ _ _

/-- `PSTATE` is read at its home, and a word that does not read clean counts as not LIVE (R306, R498). -/
theorem luffLive_eq (s : State) (p : Nat) : luffLive s p =
    ((readClean s 0 (ptAddr s 0 .pxt p + 7) 1).1 && pxtPstate (readClean s 0 (ptAddr s 0 .pxt p + 7) 1).2 p == 1,
      (readClean s 0 (ptAddr s 0 .pxt p + 7) 1).2) := by unfold luffLive; rfl

/-- What the detector holds of a partition once its summaries have come (R179, R180). -/
theorem getLuff_luffSummary (s : State) (p : Nat) : getLuff (luffSummary s p) p =
    ⟨(getLuff s p).run, (getLuff s p).armed, (getHw s p).fired || !luffComplete s, (pendFlags s p).any id,
      (getHw s p).opened || openNow s p, (getHw s p).lastFire, true⟩ := by
  unfold luffSummary
  exact getLuff_setLuff_self _ _ _

/-- What the evaluation makes of the flags of an interval, in one record (R180). -/
theorem luffCount_eq (l : Luff) : luffCount l =
    { l with due := false, run := if l.fired then 0 else if l.pend && !l.opened then l.run + 1 else 0, armed := l.fired || l.armed } := by
  unfold luffCount
  cases l.fired with
  | true => rfl
  | false => cases l.pend && !l.opened with
    | true | false => rfl

/-- The summaries of the watched partitions come before the next interval begins for any of them (R179). -/
theorem luffInterval_eq {s t u : State} (ht : t = (luffParts s).foldl luffPart s) (hu : u = (t.hw.map (·.1)).foldl newInterval t) :
    luffInterval s = { u with fetchMoves := u.fetchMoves.filter (replyMoves u) } := by
  unfold luffInterval
  dsimp only
  rw [← ht, ← hu]

section Judge
variable {s t : State} {p : Nat} (hdue : (getLuff s p).due = true)
include hdue

/-- A partition without a `LUFFW` is not judged. -/
theorem luffJudge_unwatched (h : ptValid s 0 .ppt p = false ∨ pptLuffw s 0 p = 0) :
    luffJudge s p = setLuff s p { getLuff s p with due := false } := by
  have hw : (ptValid s 0 .ppt p && pptLuffw s 0 p != 0) = false := by
    rcases h with h | h
    · rw [h]; rfl
    · rw [h]; exact Bool.and_false _
  unfold luffJudge
  simp [hdue, hw]

variable (hv : ptValid s 0 .ppt p = true) (hw : pptLuffw s 0 p ≠ 0) (ht : t = (luffLive s p).2)
include hv hw ht

/-- A partition that is not LIVE is not judged. -/
theorem luffJudge_notLive (hl : (luffLive s p).1 = false) : luffJudge s p = setLuff t p { getLuff t p with due := false } := by
  subst ht
  unfold luffJudge
  simp [hdue, hv, hw, hl]

variable (hl : (luffLive s p).1 = true) {l : Luff} (hc : luffCount (getLuff t p) = l)
include hl hc

theorem luffJudge_live : luffJudge s p =
    if l.armed ∧ l.run = pptLuffw t 0 p then luffReport (setLuff t p { l with armed := false }) p l else setLuff t p l := by
  subst ht hc
  unfold luffJudge
  simp [hdue, hv, hw, hl]

end Judge

/-- Settles O15: an evaluation is the branch that the watch, the count and the armed bit select. -/
theorem luffDetectorCountsStuckIntervals : Obligations.LuffDetectorCountsStuckIntervals := by
  intro s
  refine ⟨?_, luffLive_eq s, fun hd hdl hb part => schDo_live _ hd hdl hb, getLuff_luffSummary s, ?_⟩
  · intro t u ht hu hf
    exact congrArg _ ((if_neg (ne_true_of_eq_false hf)).trans (luffInterval_eq ht hu))
  · rintro p l run t rfl hdue
    refine ⟨luffJudge_unwatched hdue, fun hv hw ht => ⟨luffJudge_notLive hdue hv hw ht, fun hrun hl => ?_⟩⟩
    have hjudge := luffJudge_live hdue hv hw ht hl (luffCount_eq _)
    rw [← hrun] at hjudge
    refine ⟨fun ha hr => ?_, fun hn => ?_⟩
    · rw [ha] at hjudge
      exact hjudge.trans (if_pos ⟨rfl, hr⟩)
    · refine hjudge.trans (if_neg fun ⟨ha, hr⟩ => ?_)
      exact hn.elim (fun h => ne_true_of_eq_false h ha) fun h => h hr

end Sys2Proof.Machine
end

section
/-! SUPPORT. Inbound exchanges that wait for a frame (R171), fetch replies (R72) and trap delivery (R76 to R79): what each does in each of its
cases. -/

namespace Sys2Proof.Machine

/-! ### An inbound exchange tries its allocation again, or gives up (R171) -/

section Inbound
variable {s : State} {d k : Nat} {b : Inbound}

theorem exec_inboundAllocRetry {die : DieNo} (hd : (die : Nat) < nDies s.part) (hl : dieLive s die = true) (hc : chanLost s die = false)
    (hb : (getChan s die).inbound[k]? = some b) : exec (.inboundAllocRetry die k) s = .next (rxComplete (inboundTry s die b) b.session) := by
  refine unitDo_eq hd (by rw [hl, hc]; rfl) ?_
  unfold inboundRetry
  rw [hb]

theorem exec_inboundAllocTimeout {die : DieNo} (hd : (die : Nat) < nDies s.part) (hl : dieLive s die = true) (hc : chanLost s die = false)
    (hb : (getChan s die).inbound[k]? = some b) : exec (.inboundAllocTimeout die k) s =
      .next (rxComplete (recvFail (modChan s die fun c => { c with inbound := dropAt c.inbound k }) b.index rsNoFrame 0) b.session) := by
  refine unitDo_eq hd (by rw [hl, hc]; rfl) ?_
  unfold inboundTimeout
  rw [hb]

variable {part asid : Nat} {t : State} (hp : part = entPart s b.index) (ha : asid = entAsid s b.index)
  (ht : t = allocNote (ptFill s d .ppt part) (uCen (entOwner s b.index)) part asid)
include hp ha ht

/-- With a handle the frame is allocated, and the exchange closes. -/
theorem inboundTry_got {f pa : Nat} {h : PartHw} {u : State} (hg : tryAlloc t (uCen (entOwner t b.index)) part asid = .got f h pa)
    (hu : u = store (doAlloc t d part asid (stGraph t b.session) f h pa (ent t b.index 1)) d (pa + 1) (w64 b.buffer)) :
    inboundTry s d b = closeOk (setEnt (modChan u d fun c => { c with inbound := c.inbound.filter (·.index != b.index) }) b.index 2
      (mkTag part f (frGen u d f) (stCodelet u b.session) 0 0)) b.index := by
  subst hp ha ht hu
  unfold inboundTry
  simp only [hg]

/-- Without one the exchange goes on waiting, and the failure is counted. -/
theorem inboundTry_waits {closed : Bool} (hn : tryAlloc t (uCen (entOwner t b.index)) part asid = if closed then .closed else .empty)
    (hw : (getChan (countAllocFail t d part closed) d).inbound.any (·.index == b.index) = true) :
    inboundTry s d b = countAllocFail t d part closed := by
  subst hp ha ht
  unfold inboundTry
  cases closed with
  | true | false => simp only [hn, if_true, if_false, Bool.false_eq_true, hw]

end Inbound

/-! ### A word that the fetch agent asked for returns (R72, R179) -/

theorem fetchReply_token {s t : State} {g d k h : Nat} {j : FetchJob} {f : Flit} (hd : g / 32 = d) (hj : (getSpar s g).fetches[k]? = some j)
    (ht : t = unitRead (modSpar s g fun x => { x with fetches := dropAt x.fetches k }) d j.pa 1) (hp : isPoisoned t j.pa = false)
    (hh : homeOf t (uSpar g) (tagPart j.tag) (tagFrame j.tag) = some h) (hf : f = mkToken h kValue j.tag (peek t j.pa)) :
    fetchReply s g k =
      refillReplies { modSpar t g (fun x => { x with replies := x.replies ++ [f] }) with fetchMoves := t.fetchMoves ++ [f] } g := by
  subst hd ht hf
  unfold fetchReply
  simp only [hj, hp, hh, Bool.false_eq_true, if_false]

/-! ### A trap is delivered (R76, R77, R79) -/

section Deliver
variable {u v : State} {t : Trap} {d b k a : Nat} {r : Word × State} (hd : t.die = d) (hv : ptValid u d .pxt t.part = true)
  (hb : b = pxtTrbase u d t.part) (hr : r = farAdd (ptFill u d .pxt t.part) d b 1)
include hd hv hb hr

/-- Where `TAIL` is poisoned no slot is known, and the trap is counted as one that found the ring full. -/
theorem deliver_tailPoisoned (hp : isPoisoned u b = true) (hn : t.byTrap = false) : deliver u t =
    trapToken (evRaise (modHw r.2 t.part fun h => { h with trapOvf := h.trapOvf + 1 }) 0 (0x400 + t.part)) t (w64 (2 ^ 63)) := by
  subst hd hb hr
  unfold deliver
  simp only [hv, hp, hn, Bool.not_true, Bool.false_and, Bool.false_eq_true, if_true, if_false]

variable (hk : k = r.1.toNat % 2 ^ pxtLog2Tr u d t.part) (ha : a = b + 16 + 8 * k) (hread : v = unitRead r.2 d a 1)
  (hp : isPoisoned u b = false) (hpa : isPoisoned v a = false)
include hk ha hread hp hpa

/-- A slot that reads 0 is free and takes the record. -/
theorem deliver_free (h0 : peek v a = 0) : deliver u t =
    if t.byTrap then evRaise (writeTrap v d a t) 0 (0x800 + t.part) else trapToken (writeTrap v d a t) t (w64 k) := by
  subst hd hb hr hk ha hread
  unfold deliver
  simp only [hv, hp, hpa, h0, beq_self_eq_true, Bool.not_true, Bool.not_false, Bool.and_self, Bool.false_eq_true, if_true, if_false]

theorem deliver_full (h0 : peek v a ≠ 0) (hn : t.byTrap = false) : deliver u t =
    trapToken (evRaise (modHw v t.part fun h => { h with trapOvf := h.trapOvf + 1 }) 0 (0x400 + t.part)) t (w64 (2 ^ 63)) := by
  subst hd hb hr hk ha hread
  unfold deliver
  simp only [hv, hp, hpa, hn, beq_false_of_ne h0, Bool.not_true, Bool.not_false, Bool.true_and, Bool.false_and, Bool.false_eq_true, if_false]

end Deliver

theorem exec_trapDelivery {s u : State} {n d : Nat} {t : Trap} (ht : s.traps[n]? = some t) (htd : t.die = d) (hd : d < nDies s.part)
    (hl : dieLive s d = true) (hu : u = { s with traps := dropAt s.traps n }) : exec (.trapDelivery n) s = .next (deliver u t) := by
  subst htd hu
  refine (show _ = execTrapDelivery n s from rfl).trans ?_
  unfold execTrapDelivery
  rw [ht]
  exact unitDo_live _ hd hl

/-- Settles O16: each wait ends in the branch that its allocation, its word or its ring slot selects. -/
theorem inboundFetchAndTrapComplete : Obligations.InboundFetchAndTrapComplete := by
  intro s die hd hl
  refine ⟨?_, ?_, ?_⟩
  · intro hc k b part asid t hb hp ha ht
    have hretry {w : State} (h : inboundTry s die b = w) : exec (.inboundAllocRetry die k) s = .next (rxComplete w b.session) :=
      h ▸ exec_inboundAllocRetry hd hl hc hb
    refine ⟨fun f h pa u hg hu => ?_, fun closed hn hw => ?_, exec_inboundAllocTimeout hd hl hc hb⟩
    · exact hretry (inboundTry_got hp ha ht hg hu)
    · exact hretry (inboundTry_waits hp ha ht hn hw)
  · rintro spar g k j h t rfl hlive hj ht hp hh f hf
    exact unitDo_eq hd hlive (fetchReply_token (gspar_die spar.isLt) hj ht hp hh hf)
  · intro n t b r k a u v ht htd hu hv hb hr hk ha hread
    have hdo {w : State} (h : deliver u t = w) : exec (.trapDelivery n) s = .next w := h ▸ exec_trapDelivery ht htd hd hl hu
    refine ⟨fun hp hn => ?_, fun hp hpa => ⟨fun h0 hn => ?_, fun h0 hn => ?_, fun h0 hn => ?_⟩⟩
    · exact hdo (deliver_tailPoisoned htd hv hb hr hp hn)
    · exact hdo ((deliver_free htd hv hb hr hk ha hread hp hpa h0).trans (if_neg (ne_true_of_eq_false hn)))
    · exact hdo ((deliver_free htd hv hb hr hk ha hread hp hpa h0).trans (if_pos hn))
    · exact hdo (deliver_full htd hv hb hr hk ha hread hp hpa h0 hn)

end Sys2Proof.Machine
end

section
/-! SUPPORT. CREATE and DESTROY of a partition (R180, R494, R498, R510): the checks of each, and what each does when they pass. -/

namespace Sys2Proof.Machine

/-! ### The check that fails first (R494, R498) -/

section Checks
variable {s : State} {p : Nat}

theorem createErr_invalid (h : ptValid s 0 .pxt p = false) : createErr s p = 1 := if_pos (by rw [h]; rfl)

theorem destroyErr_invalid (h : ptValid s 0 .pxt p = false) : destroyErr s p = 1 := if_pos (by rw [h]; rfl)

variable (hv : ptValid s 0 .pxt p = true)
include hv

theorem createErr_notNone (h : pxtPstate s p ≠ 0) : createErr s p = 4 := by
  unfold createErr; simp [hv, h]

theorem createErr_trapFrame (h : pxtPstate s p = 0) (hf : trapFrameOk s p = false) : createErr s p = 2 := by
  unfold createErr; simp [hv, h, hf]

theorem createErr_range (h : pxtPstate s p = 0) (hf : trapFrameOk s p = true) (hr : rangeOk s p = false) : createErr s p = 3 := by
  unfold createErr; simp [hv, h, hf, hr]

theorem destroyErr_notLive (h : pxtPstate s p ≠ 1) : destroyErr s p = 4 := by
  unfold destroyErr; simp [hv, h]

theorem destroyErr_live (h : pxtPstate s p = 1) : destroyErr s p = if pctOk s 0 p && pctWord s 0 p 2 != 0 then 5 else 0 := by
  unfold destroyErr; simp [hv, h]

end Checks

/-! ### CREATE and DESTROY behind their checks (R180, R494, R498) -/

section Effects
variable {b t : State} {p a : Nat}

theorem create_fails {e : Nat} {r : State} (he : e = createErr b p) (hne : e ≠ 0) (hr : r = if e = 3 then readRange b p else b) :
    create b p = pxtFields r 0 1 p e := by
  subst he hr
  unfold create
  simp only [hne, false_or, if_false]

theorem destroy_fails {e : Nat} (he : e = destroyErr b p) (hne : e ≠ 0) : destroy b p = pxtFields b 0 2 p e := by
  subst he
  unfold destroy
  simp only [hne, if_false]

/-- CREATE stores no counts and `PSTATE` LIVE, and builds the free list of the range. -/
theorem create_passes {free : List Nat} (he : createErr b p = 0) (ht : t = pxtFields (readRange b p) 0 1 p 0) (ha : a = ptAddr t 0 .pxt p)
    (hfree : free = (frameRange t p).filter fun f => frState t 0 f == fsFree) :
    create b p = setLuff (modHw (store (store t 0 (a + 6) 0) 0 (a + 7) (w64 (2 ^ 62))) p fun h => { h with free := free, quar := [] }) p
      Luff.init := by
  subst ht ha hfree
  unfold create
  simp only [he, true_or, if_true]

theorem destroy_passes {u : State} (he : destroyErr b p = 0) (ht : t = pxtFields b 0 2 p 0) (ha : a = ptAddr t 0 .pxt p + 7)
    (hu : u = modHw (unitMod (readRange t p) 0 a fun w => wput w 63 62 2) p fun h => { h with destroying := true }) :
    destroy b p = destroySettle ((frameRange u p).foldl (fun s f => destroyFrame s p f) u) := by
  subst ht ha hu
  unfold destroy
  simp only [he, if_true]

end Effects

/-- A command of SCH_PXTCMD on die 0 is refused while DESTROY, or another command, runs (R510, R566). -/
theorem pxtBusy_refuses {s v b : State} {op p q : Nat} {effect : State → State} (hv : v = destroySettle s)
    (h : destroyingPart v = some q ∧ b = v ∨ destroyingPart v = none ∧ StillRuns v 0 bSch rSchPxtcmd 0 b) :
    pxtBusy s 0 op p effect = reject (pxtFields b 0 op p (pxtErr b 0)) 0 bSch := by
  rcases h with ⟨hq, rfl⟩ | ⟨hq, h⟩
  · exact pxtBusy_destroying hv rfl hq
  · exact (pxtBusy_free hv (.inr hq)).trans (startCmd_busy _ _ h)

/-- Settles O46: behind the guard of its register each command fails at its first check, does its work, or is refused. -/
theorem partitionsAreCreatedAndDestroyed : Obligations.PartitionsAreCreatedAndDestroyed := by
  rintro s part p v rfl ho hd hb hv
  refine ⟨fun b hq h => ?_, fun b q h => ?_, ?_, ?_⟩
  · have hstart {op : Nat} {effect : State → State} {w : State} (he : effect b = w) : pxtBusy s 0 op part effect = w :=
      ((pxtBusy_free hv (.inr hq)).trans (startCmd_go _ _ h)).trans he
    refine ⟨fun e r he hne hr => ?_, fun r t a free he hr ht ha hfree => ?_, fun e he hne => ?_, fun t a u he ht ha hu => ?_⟩
    · exact schCommand_open ho hd hb (hstart (create_fails he hne hr))
    · subst hr
      exact schCommand_open ho hd hb (hstart (create_passes he ht ha hfree))
    · exact schCommand_open ho hd hb (hstart (destroy_fails he hne))
    · exact schCommand_open ho hd hb (hstart (destroy_passes he ht ha hu))
  · exact ⟨schCommand_open ho hd hb (pxtBusy_refuses hv h), schCommand_open ho hd hb (pxtBusy_refuses hv h)⟩
  · rintro e rfl
    exact ⟨destroyErr_invalid, destroyErr_notLive, destroyErr_live⟩
  · rintro e rfl
    exact ⟨createErr_invalid, createErr_notNone, createErr_trapFrame, createErr_range⟩

end Sys2Proof.Machine
end

section
/-! SUPPORT. The registers of a core (R192, R193, R195): what a register, the flags and the program counter read as after one of them was
written, and what writing a supervisor core's registers leaves. -/

namespace Sys2Proof.Machine

@[simp] theorem hartRegs_modRegs (s : State) (h : Hart) (f : Regs → Regs) : hartRegs (modRegs s h f) h = f (hartRegs s h) := by
  cases h with
  | pe k => exact congrArg Pe.regs (getPe_modPe_self s k _)
  | sup c => exact congrArg Sup.regs (getSup_modSup_self s c _)

section Registers
variable (s : State) (h : Hart) (r q n : Nat) (v : Word)

theorem getD_setD : getD (setD s h r v) h q = if r = q then v else getD s h q := by simp [getD, setD, tget_tset]
theorem getA_setA : getA (setA s h r n) h q = if r = q then n % 2 ^ 49 else getA s h q := by
  simp only [getA, setA, hartRegs_modRegs, tget_tset]
  split <;> simp

@[simp] theorem getD_setA : getD (setA s h r n) h q = getD s h q := by simp [getD, setA]
@[simp] theorem getA_setD : getA (setD s h r v) h q = getA s h q := by simp [getA, setD]
@[simp] theorem getM_setD : getM (setD s h r v) h q = getM s h q := by simp [getM, setD]
@[simp] theorem getM_setA : getM (setA s h r n) h q = getM s h q := by simp [getM, setA]
@[simp] theorem getW_setD : getW (setD s h r v) h q = getW s h q := by simp [getW, setD]
@[simp] theorem getW_setA : getW (setA s h r n) h q = getW s h q := by simp [getW, setA]
@[simp] theorem hartFlags_setD : hartFlags (setD s h r v) h = hartFlags s h := by simp [hartFlags, setD]
@[simp] theorem hartFlags_setA : hartFlags (setA s h r n) h = hartFlags s h := by simp [hartFlags, setA]

@[simp] theorem getD_setPc : getD (setPc s h n) h q = getD s h q := by simp [getD, setPc]
@[simp] theorem getA_setPc : getA (setPc s h n) h q = getA s h q := by simp [getA, setPc]
@[simp] theorem getM_setPc : getM (setPc s h n) h q = getM s h q := by simp [getM, setPc]
@[simp] theorem getW_setPc : getW (setPc s h n) h q = getW s h q := by simp [getW, setPc]
@[simp] theorem hartFlags_setPc : hartFlags (setPc s h n) h = hartFlags s h := by simp [hartFlags, setPc]
@[simp] theorem hartPc_setPc : hartPc (setPc s h n) h = n % 2 ^ 51 := by simp [hartPc, setPc]

end Registers

/-- What a change of a supervisor core's registers leaves of the state: all but those registers. -/
def RegsOnly (s t : State) (c : Nat) : Prop :=
  (∀ n, spr t c n = spr s c n) ∧ (∀ c', c' ≠ c → getSup t c' = getSup s c') ∧ (∀ a, rdByte t a = rdByte s a) ∧ t.csr = s.csr ∧
  t.pes = s.pes ∧ t.spars = s.spars ∧ t.resvs = s.resvs ∧ t.caches = s.caches

theorem modRegs_regsOnly (s : State) (c : Nat) (f : Regs → Regs) : RegsOnly s (modRegs s (.sup c) f) c :=
  ⟨fun n => spr_modSup_keep s c n _ fun _ => rfl, fun c' hc => getSup_modSup_ne s c c' _ (Ne.symm hc), fun _ => rfl, rfl, rfl, rfl, rfl, rfl⟩

theorem RegsOnly.trans {s t u : State} {c : Nat} (hst : RegsOnly s t c) (htu : RegsOnly t u c) : RegsOnly s u c := by
  obtain ⟨hspr, hsup, hmem, hcsr, hpes, hspars, hresvs, hcaches⟩ := hst
  obtain ⟨kspr, ksup, kmem, kcsr, kpes, kspars, kresvs, kcaches⟩ := htu
  exact ⟨fun n => (kspr n).trans (hspr n), fun c' hc => (ksup c' hc).trans (hsup c' hc), fun a => (kmem a).trans (hmem a), kcsr.trans hcsr,
    kpes.trans hpes, kspars.trans hspars, kresvs.trans hresvs, kcaches.trans hcaches⟩

end Sys2Proof.Machine
end

section
/-! SUPPORT. Integer instructions (R226, R231, R258 to R262): what each gives after its fetch, and the frame of those that write one register
of a supervisor core. -/

namespace Sys2Proof.Machine

/-- The instruction of a core that runs it, with what its meaning gives. -/
theorem instrDo_eq {s t : State} {core : CoreId} {n pc : Nat} {h : Hart} {body : Hart → State → Res} {r : Res} (hr : Runs s core n h pc t)
    (hb : body h t = r) : instrDo core n body s = .next (coreAfter core pc n r) := hb ▸ instrDo_runs body hr

/-! ### Results (R258, R260, R261) -/

section Results
variable (s : State) (h : Hart) (rd rs1 rs2 : Nat)

/-- A shift takes its count mod 64 (R231). -/
theorem wfld_count (y : Word) : wfld y 5 0 = y.toNat % 64 := fld_zero _ _

theorem intReg_sums_shifts (x y : Word) : intReg 0 rs2 x y = some (x + y) ∧ intReg 1 rs2 x y = some (x - y) ∧
    intReg 8 rs2 x y = some (x <<< (y.toNat % 64)) ∧ intReg 10 rs2 x y = some (x.sshiftRight (y.toNat % 64)) ∧
    intReg 13 rs2 x y = some (x * y) := by
  rw [← wfld_count]
  exact ⟨rfl, rfl, rfl, rfl, rfl⟩

theorem riOp_table (imm : BitVec 14) {x i : Word} (hx : x = getD s h rs1) (hi : i = imm.signExtend 64) :
    ∀ q ∈ [(RiOp.addi, x + i), (.andi, x &&& i), (.ori, x ||| i), (.xori, x ^^^ i), (.slti, boolWord (x.slt i)), (.sltiu, boolWord (x.ult i))],
      riOp s h q.1 rd rs1 imm = .next (setD s h rd q.2) := by
  subst hx hi
  simp only [List.forall_mem_cons]
  exact ⟨rfl, rfl, rfl, rfl, rfl, rfl, List.forall_mem_nil _⟩

theorem riOp_shi {imm : BitVec 14} (hz : fld imm.toNat 11 6 = 0) :
    riOp s h .shi rd rs1 imm = .next (setD s h rd (shift (fld imm.toNat 13 12) (getD s h rs1) (fld imm.toNat 5 0))) :=
  congrArg (writeD s h rd) (if_pos hz)

theorem riOp_field {imm : BitVec 14} {pos len : Nat} {x : Word} (hx : x = getD s h rs1) (hp : posLen imm = some (pos, len)) :
    ∀ q ∈ [(RiOp.extu, w64 (wfld x (pos + len - 1) pos)), (.exts, exts x pos len), (.ins, ins (getD s h rd) x pos len)],
      riOp s h q.1 rd rs1 imm = .next (setD s h rd q.2) := by
  subst hx
  simp only [List.forall_mem_cons, riOp, hp]
  exact ⟨rfl, rfl, rfl, List.forall_mem_nil _⟩

theorem riOp_noField {imm : BitVec 14} (hp : posLen imm = none) : ∀ op ∈ [RiOp.extu, .exts, .ins], riOp s h op rd rs1 imm = illegal s := by
  simp only [List.forall_mem_cons, riOp, hp]
  exact ⟨rfl, rfl, rfl, List.forall_mem_nil _⟩

theorem riOp_addai {rd rs1 : Nat} (imm : BitVec 14) (hd : rd < 16) (h1 : rs1 < 16) :
    riOp s h .addai rd rs1 imm = .next (setA s h rd (addA (getA s h rs1) imm.toInt)) := if_pos ⟨hd, h1⟩

theorem ri32Op_table (imm : BitVec 32) {x sx : Word} (hx : x = getD s h rd) (hs : sx = imm.signExtend 64) :
    ∀ q ∈ [(Ri32Op.li32, (0 : BitVec 3), sx), (.li32, 1, w64 imm.toNat), (.li32, 2, wput x 63 32 imm.toNat), (.li32, 3, wput x 31 0 imm.toNat),
        (.addi32, 0, x + sx), (.logic32, 0, x &&& sx), (.logic32, 1, x ||| sx), (.logic32, 2, x ^^^ sx)],
      ri32Op s h q.1 rd q.2.1.toNat imm = .next (setD s h rd q.2.2) := by
  subst hx hs
  simp only [List.forall_mem_cons]
  exact ⟨rfl, rfl, rfl, rfl, rfl, rfl, rfl, rfl, List.forall_mem_nil _⟩

theorem ri32Op_lia32 {rd : Nat} (imm : BitVec 32) (hd : rd < 16) :
    ri32Op s h .lia32 rd 0 imm = .next (setA s h rd imm.toNat) ∧
    ri32Op s h .lia32 rd 1 imm = .next (setA s h rd (addA (getA s h rd) imm.toInt)) :=
  ⟨if_neg (Nat.not_le_of_lt hd), if_neg (Nat.not_le_of_lt hd)⟩

theorem imm48Op_lia48 {rd : Nat} (imm : BitVec 48) (hd : rd < 16) : imm48Op s h true rd 0 imm = .next (setA s h rd imm.toNat) := by
  simp [imm48Op, hd]

theorem compactOp_table {rs : Nat} {x y i : Word} (hx : x = getD s h rd) (hy : y = getD s h rs) (hi : i = (BitVec.ofNat 5 rs).signExtend 64) :
    ∀ q ∈ [((1 : Fin 15), y), (2, x + y), (3, x - y), (4, x &&& y), (5, x ||| y), (6, x ^^^ y), (7, x + i), (8, x <<< rs), (9, x >>> rs),
        (10, x.sshiftRight rs), (11, i)],
      compactOp s h q.1 rd rs = .next (setD s h rd q.2) := by
  subst hx hy hi
  simp only [List.forall_mem_cons]
  exact ⟨rfl, rfl, rfl, rfl, rfl, rfl, rfl, rfl, rfl, rfl, rfl, List.forall_mem_nil _⟩

end Results

/-! ### Moves (R262) -/

section Moves
variable (s : State) (h : Hart) {rd rs1 : Nat} (rs2 : Nat)

theorem moveRr_toA (hd : rd < 16) : ∀ q ∈ [(0, 32, (getD s h rs1).toNat), (2, 16, getA s h rs1)], rs1 < q.2.1 →
    moveRr s h q.1 rd rs1 0 = .next (setA s h rd q.2.2) := by
  simp only [List.forall_mem_cons]
  refine ⟨fun h1 => ?_, fun h1 => ?_, List.forall_mem_nil _⟩ <;> simp [moveRr, hd, h1]

theorem moveRr_adda (hd : rd < 16) (h1 : rs1 < 16) : moveRr s h 3 rd rs1 rs2 = .next (setA s h rd (getA s h rs1 + (getD s h rs2).toNat)) := by
  simp [moveRr, hd, h1]

theorem moveRr_toD (hd : rd < 32) : ∀ q ∈ [(1, 16, w64 (getA s h rs1)), (5, 8, getM s h rs1), (6, 4, loHalf (getW s h rs1)),
    (7, 4, hiHalf (getW s h rs1))], rs1 < q.2.1 → moveRr s h q.1 rd rs1 0 = .next (setD s h rd q.2.2) := by
  simp only [List.forall_mem_cons]
  refine ⟨fun h1 => ?_, fun h1 => ?_, fun h1 => ?_, fun h1 => ?_, List.forall_mem_nil _⟩ <;> simp [moveRr, hd, h1]

theorem moveRr_toM (hd : rd < 8) (h1 : rs1 < 32) : moveRr s h 4 rd rs1 0 = .next (setM s h rd (getD s h rs1)) := by simp [moveRr, hd, h1]

end Moves

/-! ### The instructions -/

section Instr
variable {s t : State} {core : CoreId} {h : Hart} {pc : Nat}

/-- INT_REG_OP ends with the result of its table, or as an invalid encoding. -/
theorem exec_intRegOp (hr : Runs s core 2 h pc t) (rd rs1 rs2 : Fin 32) {fn : BitVec 9} {o : Option Word}
    (ho : intReg fn.toNat rs2 (getD t h rs1) (getD t h rs2) = o) :
    exec (.intRegOp core rd rs1 rs2 fn) s = .next (coreAfter core pc 2 (writeD t h rd o)) := instrDo_eq hr (congrArg (writeD t h rd) ho)

theorem exec_riOp (hr : Runs s core 2 h pc t) {op : RiOp} {rd rs1 : Fin 32} {imm : BitVec 14} {r : Res} (ho : riOp t h op rd rs1 imm = r) :
    exec (.intImmOp core (.ri op rd rs1 imm)) s = .next (coreAfter core pc 2 r) := instrDo_eq hr ho

theorem exec_ri32Op (hr : Runs s core 3 h pc t) {op : Ri32Op} {rd : Fin 32} {fn3 : BitVec 3} {imm : BitVec 32} {r : Res}
    (ho : ri32Op t h op rd fn3.toNat imm = r) : exec (.intImmOp core (.ri32 op rd fn3 imm)) s = .next (coreAfter core pc 3 r) := instrDo_eq hr ho

theorem exec_imm48Op (hr : Runs s core 4 h pc t) {lia : Bool} {rd : Fin 32} {fn3 : BitVec 3} {imm : BitVec 48} {r : Res}
    (ho : imm48Op t h lia rd fn3.toNat imm = r) : exec (.intImmOp core (.imm48 lia rd fn3 imm)) s = .next (coreAfter core pc 4 r) := instrDo_eq hr ho

theorem exec_moveRr (hr : Runs s core 2 h pc t) {rd rs1 rs2 : Fin 32} {fn : BitVec 9} {r : Res} (ho : moveRr t h fn.toNat rd rs1 rs2 = r) :
    exec (.classMove core (.rr rd rs1 rs2 fn)) s = .next (coreAfter core pc 2 r) := instrDo_eq hr ho

theorem exec_moveWr (hr : Runs s core 2 h pc t) {wd ws : Fin 4} {rs1 rs2 : Fin 32} {fn : BitVec 10} {r : Res}
    (ho : moveWr t h fn.toNat wd ws rs1 rs2 = r) : exec (.classMove core (.wr wd ws rs1 rs2 fn)) s = .next (coreAfter core pc 2 r) :=
  instrDo_eq hr ho

theorem exec_compactOp (hr : Runs s core 1 h pc t) {op : Fin 15} {rd rs : Fin 32} {r : Res} (ho : compactOp t h op rd rs = r) :
    exec (.compactInstruction core (.c16 op) rd rs) s = .next (coreAfter core pc 1 r) := instrDo_eq hr ho

end Instr

/-- Settles O19: after its fetch each instruction ends as its table says. -/
theorem integerInstructionsComplete : Obligations.IntegerInstructionsComplete := by
  intro s t core h pc
  refine ⟨fun hr => ⟨?_, ?_, ?_, ?_, fun rd => instrDo_eq hr rfl, fun imm hz => instrDo_eq hr (if_pos ⟨rfl, rfl, hz⟩)⟩, fun hr => ?_,
    fun hr rd imm => ⟨exec_imm48Op hr rfl, exec_imm48Op hr rfl, fun hd => exec_imm48Op hr (imm48Op_lia48 t h imm hd)⟩, fun hr => ?_,
    fun e rd rs he hr => instrDo_eq hr (if_neg (ne_true_of_eq_false he))⟩
  · rintro rd rs1 rs2 x y rfl rfl
    obtain ⟨hadd, hsub, hsll, hsra, hmul⟩ := intReg_sums_shifts rs2 (getD t h rs1) (getD t h rs2)
    have hrun (fn : BitVec 9) o := exec_intRegOp hr rd rs1 rs2 (fn := fn) (o := o)
    exact ⟨fun fn v => hrun fn _, fun fn => hrun fn _, hrun 0 _ hadd, hrun 1 _ hsub, hrun 8 _ hsll, hrun 10 _ hsra, hrun 13 _ hmul⟩
  · intro rd rs1 imm x i hx hi
    refine ⟨fun op v hm => exec_riOp hr (riOp_table t h rd rs1 imm hx hi (op, v) hm), fun hz => hx ▸ exec_riOp hr (riOp_shi t h rd rs1 hz),
      fun pos len op v hp hm => exec_riOp hr (riOp_field t h rd rs1 hx hp (op, v) hm),
      fun hp op hm => exec_riOp hr (riOp_noField t h rd rs1 hp op hm), fun hd h1 => exec_riOp hr (riOp_addai t h imm hd h1)⟩
  · intro rd rs1 rs2
    refine ⟨fun fn n v hm hd h1 => ?_, fun fn n v hm h1 => ?_, fun hd h1 => ?_, fun hd => ?_⟩
    · exact exec_moveRr hr (moveRr_toA t h hd (fn.toNat, n, v) (by simpa [← BitVec.toNat_inj] using hm) h1)
    · exact exec_moveRr hr (moveRr_toD t h rd.isLt (fn.toNat, n, v) (by simpa [← BitVec.toNat_inj] using hm) h1)
    · exact exec_moveRr hr (moveRr_adda t h rs2 hd h1)
    · exact exec_moveRr hr (moveRr_toM t h hd rs1.isLt)
  · intro wd ws rs1 rs2
    exact ⟨exec_moveWr hr rfl, exec_moveWr hr rfl⟩
  · intro rd imm x sx hx hs
    refine ⟨fun op fn3 v hm => exec_ri32Op hr (ri32Op_table t h rd imm hx hs (op, fn3, v) hm), fun hd => ?_⟩
    obtain ⟨hset, hadd⟩ := ri32Op_lia32 t h imm hd
    exact ⟨exec_ri32Op hr hset, exec_ri32Op hr hadd⟩
  · rintro rd rs x y i hx rfl hi
    exact ⟨fun op v hm => exec_compactOp hr (compactOp_table t h rd hx rfl hi (op, v) hm), fun hd => exec_compactOp hr (if_pos hd),
      fun hd => exec_compactOp hr (if_pos hd), fun hd => exec_compactOp hr (if_pos hd), exec_compactOp hr rfl⟩

/-! ### The frame of the instructions that write one register (R192, R193) -/

/-- A result in a D or an A register, and the program counter at the next instruction. -/
def putReg (t : State) (h : Hart) (toD : Bool) (rd : Nat) (v : Word) (a pc : Nat) : State :=
  setPc (if toD then setD t h rd v else setA t h rd a) h pc

theorem putReg_regsOnly {t : State} {c : Nat} {toD : Bool} {rd : Nat} {v : Word} {a pc : Nat} :
    RegsOnly t (putReg t (.sup c) toD rd v a pc) c := by
  refine RegsOnly.trans ?_ (modRegs_regsOnly _ _ _)
  cases toD with
  | true => exact modRegs_regsOnly t c fun x => { x with d := tset (fun _ => 0) x.d rd v }
  | false => exact modRegs_regsOnly t c fun x => { x with a := tset (fun _ => 0) x.a rd (BitVec.ofNat 49 a) }

section PutReg
variable {t : State} {h : Hart} {toD : Bool} {rd : Nat} {v : Word} {a pc : Nat}

theorem getD_putReg {r : Nat} (hr : toD = true → r ≠ rd) : getD (putReg t h toD rd v a pc) h r = getD t h r := by
  cases toD with
  | true => simp [putReg, getD_setD, (hr rfl).symm]
  | false => simp [putReg]

theorem getA_putReg {r : Nat} (hr : toD = false → r ≠ rd) : getA (putReg t h toD rd v a pc) h r = getA t h r := by
  cases toD with
  | true => simp [putReg]
  | false => simp [putReg, getA_setA, (hr rfl).symm]

theorem getW_putReg (r : Nat) : getW (putReg t h toD rd v a pc) h r = getW t h r := by cases toD with | true | false => simp [putReg]
theorem getM_putReg (r : Nat) : getM (putReg t h toD rd v a pc) h r = getM t h r := by cases toD with | true | false => simp [putReg]
theorem hartFlags_putReg : hartFlags (putReg t h toD rd v a pc) h = hartFlags t h := by cases toD with | true | false => simp [putReg]
theorem hartPc_putReg : hartPc (putReg t h toD rd v a pc) h = pc % 2 ^ 51 := by simp [putReg]

end PutReg

/-- A move of the frame ends with one register written. -/
theorem moveRr_oneReg (s : State) (h : Hart) {n rd rs1 rs2 : Nat} {toD : Bool} (hd : rd < 32) (h1 : rs1 < 32) (h2 : n ≠ 3 → rs2 = 0)
    (hm : n = 0 ∧ rd < 16 ∧ toD = false ∨ n ∈ [2, 3] ∧ rd < 16 ∧ rs1 < 16 ∧ toD = false ∨ n = 1 ∧ rs1 < 16 ∧ toD = true ∨
      n = 5 ∧ rs1 < 8 ∧ toD = true ∨ n ∈ [6, 7] ∧ rs1 < 4 ∧ toD = true) :
    ∃ v a, moveRr s h n rd rs1 rs2 = .next (if toD then setD s h rd v else setA s h rd a) := by
  simp only [List.mem_cons, List.not_mem_nil, or_false] at hm
  by_cases hadda : n = 3
  · obtain ⟨hd, h1, rfl⟩ : rd < 16 ∧ rs1 < 16 ∧ toD = false := by simpa [hadda] using hm
    exact ⟨0, _, hadda ▸ moveRr_adda s h rs2 hd h1⟩
  · obtain rfl := h2 hadda
    have intoA {a} (k : Nat) (hd : rd < 16) := moveRr_toA s h (rs1 := rs1) hd (n, k, a)
    have intoD {v} (k : Nat) := moveRr_toD s h (rs1 := rs1) hd (n, k, v)
    rcases hm with ⟨rfl, hd, rfl⟩ | ⟨rfl | rfl, hd, h1, rfl⟩ | ⟨rfl, h1, rfl⟩ | ⟨rfl, h1, rfl⟩ | ⟨rfl | rfl, h1, rfl⟩
    · exact ⟨0, _, intoA 32 hd (.head _) h1⟩
    · exact ⟨0, _, intoA 16 hd (.tail _ (.head _)) h1⟩
    · exact absurd rfl hadda
    · exact ⟨_, 0, intoD 16 (.head _) h1⟩
    · exact ⟨_, 0, intoD 8 (.tail _ (.head _)) h1⟩
    · exact ⟨_, 0, intoD 4 (.tail _ (.tail _ (.head _))) h1⟩
    · exact ⟨_, 0, intoD 4 (.tail _ (.tail _ (.tail _ (.head _)))) h1⟩

/-- Settles O5: each of them puts one register, and that leaves the rest. -/
theorem registerInstructionsLeaveTheRest : Obligations.RegisterInstructionsLeaveTheRest := by
  intro s t u p h pc rd rs1 rs2 c toD hr hu hc
  obtain ⟨hissue, rfl, hrest⟩ := hr
  have hr : Runs s (.sup p) 2 (.sup (supOf p)) pc t := ⟨hissue, rfl, hrest⟩
  have toNext {r : State} (he : exec c s = .next (coreAfter (.sup p) pc 2 (.next r))) : u = setPc r (.sup (supOf p)) (pc + 2) :=
    Host.Outcome.next.inj (hu.symm.trans he)
  obtain ⟨v, a, rfl⟩ : ∃ v a, u = putReg t (.sup (supOf p)) toD rd v a (pc + 2) := by
    rcases hc with ⟨fn, v, rfl, hv, rfl⟩ | ⟨imm, rfl, rfl⟩ | ⟨imm, hd, h1, rfl, rfl⟩ | ⟨fn, rfl, h2, hm⟩
    · exact ⟨v, 0, toNext (exec_intRegOp hr rd rs1 rs2 hv)⟩
    · exact ⟨_, 0, toNext (exec_riOp hr rfl)⟩
    · exact ⟨0, _, toNext (exec_riOp hr (riOp_addai t _ imm hd h1))⟩
    · obtain ⟨v, a, hv⟩ := moveRr_oneReg t _ rd.isLt rs1.isLt (fun hn => congrArg Fin.val (h2 hn)) hm
      exact ⟨v, a, toNext (exec_moveRr hr hv)⟩
  exact ⟨fun r hne => getD_putReg fun ht => Fin.val_ne_of_ne (hne ht), fun r hne => getA_putReg fun ht => Fin.val_ne_of_ne (hne ht),
    fun _ => getW_putReg _, fun _ => getM_putReg _, hartFlags_putReg, hartPc_putReg, putReg_regsOnly⟩

end Sys2Proof.Machine
end

section
/-! SUPPORT. Reset (R192, R380, R560, R577, R641, R653): the registers that the start and the blocks are read from. -/

namespace Sys2Proof.Machine

/-- A register that nothing has written reads as its Reset column. -/
theorem getReg_reset (d b w : Nat) : getReg State.reset d b w = (csrReset .p7808 (regIdx d b w)).toNat :=
  congrArg BitVec.toNat (tget_nil (csrReset .p7808) _)

theorem startstat_reset : getReg State.reset 0 bMst rMstStartstat = 1 := by
  rw [getReg_reset]
  decide +kernel

/-- `BLK_CTL` at reset (R560): bit [0], EN, stands in SYS alone, whose blocks are these of each die. -/
theorem blkCtl_reset (d : Fin 8) : getReg State.reset d bSys rBlkCtl = 1 ∧ getReg State.reset d (bClu 0) rBlkCtl = 0 ∧
    getReg State.reset d (bCen 0) rBlkCtl = 0 ∧ getReg State.reset d bSch rBlkCtl = 0 := by
  simp only [getReg_reset]
  revert d
  decide +kernel

theorem mdrWptr_reset (d : Fin 8) : getReg State.reset d bMdr rMdrWptr = 0 := by
  rw [getReg_reset]
  revert d
  decide +kernel

/-- Settles O2: no table holds an entry, and each register reads its Reset column. -/
theorem resetLeavesThePartHeld : Obligations.ResetLeavesThePartHeld := by
  refine ⟨?_, ?_, rfl, rfl, rfl, rfl, rfl, fun k => rfl, fun k => rfl, fun d => ?_, rfl, rfl⟩
  · simp [startStep, getF, startstat_reset, fld]
  · simp [startLevel, getF, startstat_reset, fld]
  · obtain ⟨hsys, hclu, hcen, hsch⟩ := blkCtl_reset d
    simp [blkEn, getF, hsys, hclu, hcen, hsch, mdrWptr_reset, fld]

end Sys2Proof.Machine
end

section
/-! SUPPORT. How an instruction begins and ends (R199, R201, R345): a fetch that fails, and entry to a level and the return from it. -/

namespace Sys2Proof.Machine

/-- A fetch that fails ends the instruction in its own cause with the word address (R201), whatever the instruction would have done. -/
theorem instrDo_fetchFails {s t : State} {core : CoreId} {n pc e wa : Nat} {h : Hart} (body : Hart → State → Res)
    (hi : coreIssues s core = true) (hh : h = hartOf core) (hpc : pc = hartPc s h) (hf : fetchFail s h pc n = some (e, wa))
    (ht : fetchInstr s h pc n = some t) : instrDo core n body s = .next (coreAfter core pc n (.trap t e 0 wa)) := by
  subst hh hpc
  rw [instrDo_run n body hi, runInstr_fail body hf ht]

/-! ### Entry to a level and the return from it (R345) -/

section Level
variable {s t : State} {c l vec cause detail call epc : Nat} {addr : Word} (hl : l = 1 ∨ l = 2)
  (ht : t = enterLevel s c l vec cause detail call addr epc)
include ht

/-- Entry leaves `STATUS` with the level, its IE 0 and its EXC 1. -/
theorem status_enterLevel : spr t c zStatus = wput (wput (wput (spr s c zStatus) 1 0 l) (1 + l) (1 + l) 0) (3 + l) (3 + l) 1 := by
  rw [ht, spr_enterLevel, if_pos rfl]

include hl

/-- Entry saves the parcel address, the level with the STATUS bits, the cause and the address in the registers of its level. -/
theorem saved_enterLevel : spr t c (zLevel l + 1) = w64 (epc % 2 ^ 51) ∧ spr t c (zLevel l + 2) = w64 (wfld (spr s c zStatus) 5 0) ∧
    spr t c (zLevel l + 3) = w64 (cause * 2 ^ 56 + detail % 2 ^ 8 * 2 ^ 48 + call % 2 ^ 5 * 2 ^ 40) ∧ spr t c (zLevel l + 4) = addr := by
  subst ht
  simp only [spr_enterLevel]
  rcases hl with rfl | rfl <;> simp

theorem levelOf_enterLevel : levelOf t c = l := by
  unfold levelOf
  rw [status_enterLevel ht, wfld_wput_ne _ _ _ _ _ _ (by omega) (by omega) (by omega),
    wfld_wput_ne _ _ _ _ _ _ (by omega) (by omega) (by omega), wfld_wput_self _ _ _ _ (by omega) (by omega)]
  exact Nat.mod_eq_of_lt (by omega)

theorem excOf_enterLevel : excOf t c l = true := by
  unfold excOf
  rw [status_enterLevel ht, wbit_wput_self _ _ _ (by omega)]
  rfl

theorem ieOf_enterLevel : ieOf t c l = false := by
  unfold ieOf
  rw [status_enterLevel ht, wbit_wput_ne _ _ _ _ _ (by omega) (by omega) (by omega), wbit_wput_self _ _ _ (by omega)]
  rfl

/-- The core goes on at the vector base, which entry leaves as it was, plus the offset. -/
theorem hartPc_enterLevel : hartPc t (.sup c) = (wfld (spr s c (zLevel l)) 50 0 / 2 ^ 10 * 2 ^ 10 + vec) % 2 ^ 51 := by
  subst ht
  unfold enterLevel hartPc hartRegs
  simp only [getSup_modSup_self, BitVec.toNat_ofNat, spr_setSpr, spr_dropResv]
  rcases hl with rfl | rfl <;> simp

/-- The return goes on at the saved address. -/
theorem hartPc_leaveLevel : hartPc (leaveLevel t c l) (.sup c) = epc % 2 ^ 51 := by
  obtain ⟨hepc, -⟩ := saved_enterLevel hl ht
  unfold leaveLevel hartPc hartRegs
  simp only [getSup_modSup_self, BitVec.toNat_ofNat]
  rw [spr_setSpr_ne _ _ _ _ _ (Nat.succ_ne_zero _).symm, spr_dropResv, hepc, wfld_w64 _ _ _ (by omega), fld_zero]
  simp

/-- The return finds the level that entry saved. -/
theorem levelOf_leaveLevel : levelOf (leaveLevel t c l) c = levelOf s c := by
  obtain ⟨-, hestat, -⟩ := saved_enterLevel hl ht
  unfold levelOf
  rw [spr_leaveLevel, wfld_wput_ne _ _ _ _ _ _ (by omega) (by omega) (by omega),
    wfld_wput_ne _ _ _ _ _ _ (by omega) (by omega) (by omega), wfld_wput_self _ _ _ _ (by omega) (by omega), hestat,
    wfld_w64 _ _ _ (by omega)]
  simp only [wfld, fld_zero]
  omega

end Level

/-- Settles O17: a fetch's failure is the instruction's end, and each register of a level reads what entry wrote. -/
theorem fetchFailuresAndExceptionEntry : Obligations.FetchFailuresAndExceptionEntry := by
  refine ⟨fun s core h pc e wa hi hh hpc hf t ht => ⟨?_, ?_⟩, fun s t c l vec cause detail call epc addr hl ht => ?_⟩
  · rintro p rfl
    exact instrDo_fetchFails _ hi hh hpc hf ht
  · rintro p rfl
    exact instrDo_fetchFails _ hi hh hpc hf ht
  · obtain ⟨hepc, hestat, hesynd, headdr⟩ := saved_enterLevel hl ht
    exact ⟨hepc, hestat, hesynd, headdr, levelOf_enterLevel hl ht, excOf_enterLevel hl ht, ieOf_enterLevel hl ht, hartPc_enterLevel hl ht,
      hartPc_leaveLevel hl ht, levelOf_leaveLevel hl ht⟩

end Sys2Proof.Machine
end

section
/-! SUPPORT. Branches and jumps (R206, R216 to R219, R229): where each condition and each jump leads. -/

namespace Sys2Proof.Machine

/-! ### Conditions (R206, R216, R218, R229) -/

section Conditions
variable (t : State) (h : Hart) (rs1 rs2 : Nat) (off : Int)

theorem branchIf_table {x y : Word} (hx : x = getD t h rs1) (hy : y = getD t h rs2) :
    ∀ q ∈ [(BrOp.eq, x == y), (.ne, x != y), (.lt, x.slt y), (.ge, !x.slt y), (.ltu, x.ult y), (.geu, !x.ult y)],
      branchIf t h q.1 rs1 rs2 off = branchTo h off t q.2 ∧ hasLong q.1 = true := by
  subst hx hy
  simp only [List.forall_mem_cons]
  exact ⟨⟨rfl, rfl⟩, ⟨rfl, rfl⟩, ⟨rfl, rfl⟩, ⟨rfl, rfl⟩, ⟨rfl, rfl⟩, ⟨rfl, rfl⟩, List.forall_mem_nil _⟩

theorem branchIf_aeq (h1 : rs1 < 16) (h2 : rs2 < 16) :
    branchIf t h .aeq rs1 rs2 off = branchTo h off t (getA t h rs1 == getA t h rs2) := if_pos ⟨h1, h2⟩

/-- A floating-point condition is a comparison, and has no long form. -/
theorem branchIf_fp (dbl : Bool) : ∀ q ∈ [(BrOp.flt dbl, 1), (.feq dbl, 0), (.funo dbl, 3)],
    branchIf t h q.1 rs1 rs2 off = fpBranch t h dbl q.2 rs1 rs2 (branchTo h off) ∧ hasLong q.1 = false := by
  simp only [List.forall_mem_cons]
  exact ⟨⟨rfl, rfl⟩, ⟨rfl, rfl⟩, ⟨rfl, rfl⟩, List.forall_mem_nil _⟩

variable {dbl : Bool} {k : Nat} {run : State → Bool → Res} {r : Nat × Nat}
  (hr : r = fCmp (fpFmt dbl) k (fpArg dbl (getD t h rs1)) (fpArg dbl (getD t h rs2)))
include hr

theorem fpBranch_quiet (hx : r.2 &&& (trapen t h % 32) = 0) :
    fpBranch t h dbl k rs1 rs2 run = run (raiseFlags t h r.2) (r.1 == 1) := by
  subst hr
  exact if_neg (not_not_intro hx)

theorem fpBranch_traps (hx : r.2 &&& (trapen t h % 32) ≠ 0) :
    fpBranch t h dbl k rs1 rs2 run = .trap t tFp (r.2 &&& (trapen t h % 32)) 0 := by
  subst hr
  exact if_pos hx

end Conditions

/-! ### The instructions (R217, R219) -/

section Instr
variable {s t : State} {core : CoreId} {h : Hart} {pc : Nat} {r : Res}

theorem exec_br (hr : Runs s core 2 h pc t) {op : BrOp} {rs1 rs2 : Fin 32} {off : BitVec 14} (ho : branchIf t h op rs1 rs2 off.toInt = r) :
    exec (.condBranch core (.br op rs1 rs2 off)) s = .next (coreAfter core pc 2 r) := instrDo_eq hr ho

theorem exec_brl (hr : Runs s core 3 h pc t) {op : BrOp} {rs1 rs2 : Fin 32} {off : BitVec 30} (hl : hasLong op = true)
    (ho : branchIf t h op rs1 rs2 off.toInt = r) : exec (.condBranch core (.brl op rs1 rs2 off)) s = .next (coreAfter core pc 3 r) :=
  instrDo_eq hr ((if_pos hl).trans ho)

theorem exec_brl_noLong (hr : Runs s core 3 h pc t) {op : BrOp} {rs1 rs2 : Fin 32} {off : BitVec 30} (hl : hasLong op = false) :
    exec (.condBranch core (.brl op rs1 rs2 off)) s = .next (coreAfter core pc 3 (illegal t)) :=
  instrDo_eq hr (if_neg (ne_true_of_eq_false hl))

/-- A branch whose condition is known, as the predictor and the program counter see it. -/
theorem coreAfter_branchTo {goes : Nat → Int → State → Bool → State}
    (hg : ∀ n off u taken target, target = ((Int.ofNat (hartPc u h) + off) % 2 ^ 51).toNat →
      (taken = true → goes n off u taken = coreAfter core pc n (.jump (predict u h (hartPc u h) target 0 true) target)) ∧
      (taken = false → goes n off u taken = coreAfter core pc n (.next (predict u h (hartPc u h) target 0 false))))
    (n : Nat) (off : Int) (u : State) (taken : Bool) : coreAfter core pc n (branchTo h off u taken) = goes n off u taken := by
  obtain ⟨hyes, hno⟩ := hg n off u taken _ rfl
  cases taken with
  | true => exact (hyes rfl).symm
  | false => exact (hno rfl).symm

end Instr

/-- Settles O23: a condition selects between the target and the next instruction, and a jump has its target. -/
theorem branchesAndJumpsComplete : Obligations.BranchesAndJumpsComplete := by
  intro s t core h pc goes hg
  have hgo := coreAfter_branchTo hg
  refine ⟨?_, ?_, fun rs imm off hr => hgo 2 _ t _ ▸ instrDo_eq hr rfl, fun hr target => ⟨instrDo_eq hr rfl, ?_⟩, ?_⟩
  · intro rs1 rs2 x y op taken hx hy hop
    have hcond off : branchIf t h op rs1 rs2 off = branchTo h off t taken ∧ hasLong op = true := by
      rcases hop with hm | ⟨h1, h2, he⟩
      · exact branchIf_table t h rs1 rs2 off hx hy (op, taken) hm
      · obtain ⟨rfl, rfl⟩ := Prod.mk.inj he
        exact ⟨branchIf_aeq t h rs1 rs2 off h1 h2, rfl⟩
    exact ⟨fun off hr => hgo 2 _ t _ ▸ exec_br hr (hcond _).1, fun off hr => hgo 3 _ t _ ▸ exec_brl hr (hcond 0).2 (hcond _).1⟩
  · intro rs1 rs2 dbl op k r hm hrd
    have hcond off := branchIf_fp t h rs1 rs2 off dbl (op, k) hm
    refine ⟨fun off hr => ⟨fun hx => ?_, fun hx => ?_⟩, fun off hr => exec_brl_noLong hr (hcond 0).2⟩
    · exact hgo 2 _ _ _ ▸ exec_br hr ((hcond _).1.trans (fpBranch_quiet t h rs1 rs2 hrd hx))
    · exact exec_br hr ((hcond _).1.trans (fpBranch_traps t h rs1 rs2 hrd hx))
  · rintro rl u rfl
    exact instrDo_eq hr rfl
  · rintro hr rd rs1 u target rfl rfl
    exact instrDo_eq hr (if_pos ⟨rfl, rfl⟩)

end Sys2Proof.Machine
end

section
/-! SUPPORT. Loads and stores (R197, R209, R268, R280, R288, R298, R310, R344): what each is after its fetch, and what a store does where its
address leads. -/

namespace Sys2Proof.Machine

/-! ### The instructions (R209, R268) -/

section Instr
variable {s t : State} {core : CoreId} {h : Hart} {pc n : Nat} {op : MemOp} (hr : Runs s core n h pc t) (hn : n = dispLen op.disp)
include hr hn

theorem exec_memory_reserved (he : effective t h op false = none) : ∀ c ∈ [Instr.ld core op, .st core op, .ldw core op, .stw core op],
    exec c s = .next (coreAfter core pc n (illegal t)) := by
  subst hn
  simp only [List.forall_mem_cons]
  refine ⟨instrDo_eq hr ?_, instrDo_eq hr ?_, instrDo_eq hr ?_, instrDo_eq hr ?_, List.forall_mem_nil _⟩
  · simp only [he]
  · simp only [he]
  · simp only [he, ite_self]
  · simp only [he, ite_self]

theorem exec_pair_noRegister (hrt : 4 ≤ op.rt.val) : ∀ c ∈ [Instr.ldw core op, .stw core op],
    exec c s = .next (coreAfter core pc n (illegal t)) := by
  subst hn
  simp only [List.forall_mem_cons]
  exact ⟨instrDo_eq hr (if_pos hrt), instrDo_eq hr (if_pos hrt), List.forall_mem_nil _⟩

section Address
variable {ea na : Nat} (he : effective t h op false = some (ea, na))
include he

theorem exec_ld {g : Got (List Word)} (hg : loadWords t h ea 1 = g) : exec (.ld core op) s = .next (coreAfter core pc n
    (g.run t fun v u => .next (setA (setD u h op.rt (v.getD 0 0)) h op.ab na))) := by
  subst hn
  exact instrDo_eq hr (by simp only [he, hg])

theorem exec_st : exec (.st core op) s = .next (coreAfter core pc n (storeWords t h ea [getD t h op.rt] fun u => setA u h op.ab na)) := by
  subst hn
  exact instrDo_eq hr (by simp only [he])

variable (hrt : op.rt.val < 4)
include hrt

theorem exec_pair_odd (hodd : ea % 2 = 1) : ∀ c ∈ [Instr.ldw core op, .stw core op], exec c s = .next (coreAfter core pc n (illegal t)) := by
  subst hn
  have hw : ¬4 ≤ op.rt.val := by omega
  simp only [List.forall_mem_cons]
  refine ⟨instrDo_eq hr ?_, instrDo_eq hr ?_, List.forall_mem_nil _⟩
  · simp only [he, hw, hodd, if_true, if_false]
  · simp only [he, hw, hodd, if_true, if_false]

variable (heven : ea % 2 = 0)
include heven

theorem exec_ldw {g : Got (List Word)} (hg : loadWords t h ea 2 = g) : exec (.ldw core op) s = .next (coreAfter core pc n
    (g.run t fun v u => .next (setA (setW u h op.rt (mkWide (v.getD 1 0) (v.getD 0 0))) h op.ab na))) := by
  subst hn
  have hw : ¬4 ≤ op.rt.val := by omega
  exact instrDo_eq hr (by simp only [he, hg, hw, heven, Nat.zero_ne_one, if_false])

theorem exec_stw : exec (.stw core op) s = .next (coreAfter core pc n
    (storeWords t h ea [loHalf (getW t h op.rt), hiHalf (getW t h op.rt)] fun u => setA u h op.ab na)) := by
  subst hn
  have hw : ¬4 ≤ op.rt.val := by omega
  exact instrDo_eq hr (by simp only [he, hw, heven, Nat.zero_ne_one, if_false])

end Address
end Instr

/-! ### A store where its address leads (R64, R280, R288, R298, R310, R344) -/

section Store
variable {t u : State} {k c ea pa : Nat} {vs : List Word} {fin : State → State}

/-- A store within the limit of its scope's lines is held. -/
theorem peStore_room {key : Nat} (hroom : (scopeLines (getPe t k)).length < 16 ∨ (scopeLines (getPe t k)).contains (key / 16) = true) :
    peStore t k key vs fin = .next (fin (holdWords (askLine t k key) k key vs)) := by
  refine if_neg ?_
  rcases hroom with hlt | hin
  · simp only [Nat.not_le.mpr hlt, decide_false, Bool.false_and, Bool.false_eq_true, not_false_eq_true]
  · simp only [hin, Bool.not_true, Bool.and_false, Bool.false_eq_true, not_false_eq_true]

/-- A store to scratch asks for no line. -/
theorem askLine_scratch {key x : Nat} (hk : key = scratchKey + x) : askLine t k key = t := if_neg fun h => absurd h.1 (by omega)

theorem storeWords_scratch_unconverted (hs : isScratch ea = true) (hok : scratchOk t k ea = false) :
    storeWords t (.pe k) ea vs fin = .trap t tProt 0 ea := by simp [storeWords, hs, hok]

theorem storeWords_scratch (hs : isScratch ea = true) (hok : scratchOk t k ea = true) :
    storeWords t (.pe k) ea vs fin = peStore t k (scratchKey + (ea - scratchBase)) vs fin := by simp [storeWords, hs, hok]

section Translated
variable {h : Hart} (hu : u = xlateNote t (hartCtx t h) ea)
include hu

theorem storeWords_untranslated {e : Nat} (hs : ∀ k, h = .pe k → isScratch ea = false) (hx : translate t (hartCtx t h) .write ea = .error e) :
    storeWords t h ea vs fin = .trap u e 0 ea := by
  subst hu
  cases h with
  | pe k => simp [storeWords, hs k rfl, hx]
  | sup c => simp [storeWords, hx]

theorem storeWords_pe (hh : h = .pe k) (hs : isScratch ea = false) (hx : translate t (hartCtx t h) .write ea = .ok pa) :
    storeWords t h ea vs fin = peStore u k pa vs fin := by
  subst hu hh
  simp [storeWords, hs, hx]

theorem storeWords_sup (hh : h = .sup c) (hx : translate t (hartCtx t h) .write ea = .ok pa) :
    storeWords t h ea vs fin = supStore u c pa ea vs fin := by
  subst hu hh
  simp [storeWords, hx]

end Translated

section Memory
variable (hreg : ∀ d o, region u pa ≠ .device d o)
include hreg

/-- A supervisor's store is performed in its L2 once that owns the line. -/
theorem supStore_owned {r : Bool × State} {w : State} (hl : lineForWrite u (256 + c) (pa / 16) = some r)
    (hw : w = if backed u pa then fillSupL1d r.2 c (pa / 16) else r.2) : supStore u c pa ea vs fin = .next (fin (coreStores w c pa vs)) := by
  subst hw
  unfold supStore
  split
  · next d o hd => exact absurd hd (hreg d o)
  · rw [hl]

theorem supStore_waits (hl : lineForWrite u (256 + c) (pa / 16) = none) : supStore u c pa ea vs fin = .done u := by
  unfold supStore
  split
  · next d o hd => exact absurd hd (hreg d o)
  · rw [hl]

end Memory

/-- A store to device space enters the posted queue of a root port, whose answer may be a bus error. -/
theorem supStore_device {d : Nat} {o : Nat} {f : Word × State} (hreg : region u pa = .device d o)
    (hf : f = takeFree { u with given := u.given ++ [.devWrite d o vs] }) :
    supStore u c pa ea vs fin = if wbit f.1 0 then .trap f.2 tBuserr 0 ea else .next (fin f.2) := by
  subst hf
  unfold supStore
  rw [hreg]

end Store

/-- Settles O24: an access is reserved, or goes through its words, and a store through where its address leads. -/
theorem loadsAndStoresComplete : Obligations.LoadsAndStoresComplete := by
  intro s t core h pc n op hr hn
  refine ⟨exec_memory_reserved hr hn, exec_pair_noRegister hr hn, fun ea na he => ?_⟩
  have hld g := exec_ld hr hn he (g := g)
  refine ⟨fun v u => hld (.ok [v] u), fun e a u => hld (.bad e a u), hld .wait, fun hrt heven => ?_, fun hrt hodd => ?_, ?_⟩
  · have hldw g := exec_ldw hr hn he hrt heven (g := g)
    exact ⟨fun lo hi u => hldw (.ok [lo, hi] u), fun e a u => hldw (.bad e a u), hldw .wait⟩
  · have hillegal := exec_pair_odd hr hn he hrt hodd
    exact ⟨hillegal _ (by simp), hillegal _ (by simp)⟩
  · intro c vs u hc hu
    have hst {r} (hw : storeWords t h ea vs (fun u => setA u h op.ab na) = r) : exec c s = .next (coreAfter core pc n r) := by
      subst hw
      rcases hc with hc | ⟨hrt, heven, hc⟩
      · obtain ⟨rfl, rfl⟩ := Prod.mk.inj hc
        exact exec_st hr hn he
      · obtain ⟨rfl, rfl⟩ := Prod.mk.inj hc
        exact exec_stw hr hn he hrt heven
    refine ⟨fun k hk => ⟨?_, fun hs pa hx hroom => hst ((storeWords_pe hu hk hs hx).trans (peStore_room hroom))⟩,
      fun e hx hs => hst (storeWords_untranslated hu hs hx), fun q pa hq hx => ⟨fun hreg => ?_, fun d o f hreg hf => ?_⟩⟩
    · intro hs key hkey
      subst hk
      refine ⟨fun hok => hst (storeWords_scratch_unconverted hs hok), fun hok hroom => hst ?_⟩
      rw [storeWords_scratch hs hok, ← hkey, peStore_room hroom, askLine_scratch hkey]
    · have hsup := storeWords_sup (vs := vs) (fin := fun u => setA u h op.ab na) hu hq hx
      exact ⟨fun r w hl hw => hst (hsup.trans (supStore_owned hreg hl hw)), fun hl => hst (hsup.trans (supStore_waits hreg hl))⟩
    · have hdev := (storeWords_sup (vs := vs) (fin := fun u => setA u h op.ab na) hu hq hx).trans (supStore_device hreg hf)
      exact ⟨fun hb => hst (hdev.trans (if_pos hb)), fun hb => hst (hdev.trans (if_neg (ne_true_of_eq_false hb)))⟩

end Sys2Proof.Machine
end

section
/-! SUPPORT. Special registers, accesses to the CSR space by a core, and `xlinv` (R192, R202, R220, R222, R223, R275, R348, R505): what the
level of the core and the register make of each. -/

namespace Sys2Proof.Machine

/-! ### The level (R192, R220) -/

theorem privileged_low {t : State} {c lvl : Nat} (hl : levelOf t c < lvl) (body : Nat → State → Res) :
    privileged lvl body (.sup c) t = .trap t tPriv 0 0 := if_pos hl

theorem privileged_open {t : State} {c lvl : Nat} (hl : ¬levelOf t c < lvl) (body : Nat → State → Res) :
    privileged lvl body (.sup c) t = body c t := if_neg hl

/-! ### A field that is not 0, and an access that reaches the level (R202, R275) -/

section Fields
variable {rd rs1 rs2 : Nat} (n : Nat) (h : Hart) (t : State)

theorem sprdOp_field (hz : rs1 ≠ 0 ∨ rs2 ≠ 0) : sprdOp rd rs1 rs2 n h t = illegal t := if_pos hz
theorem spwrOp_field (hz : rd ≠ 0 ∨ rs2 ≠ 0) : spwrOp rd rs1 rs2 n h t = illegal t := if_pos hz

variable {r : Res}

theorem sprdOp_access (ho : sprAccess n (fun c s => let q := readSpr s c n; .next (setD q.2 (.sup c) rd q.1)) h t = r) :
    sprdOp rd 0 0 n h t = r := (if_neg (by simp)).trans ho

theorem spwrOp_access (ho : sprAccess n (fun c s => .next (writeSpr s c n (getD s (.sup c) rs1))) h t = r) :
    spwrOp 0 rs1 0 n h t = r := (if_neg (by simp)).trans ho

end Fields

/-! ### The register of an access at PL1 or PL2 (R348) -/

section Access
variable {t : State} {c n : Nat} (hl : ¬levelOf t c < 1) (body : Nat → State → Res)
include hl

theorem sprAccess_unassigned (he : sprExists n = false) : sprAccess n body (.sup c) t = illegal t :=
  (privileged_open hl _).trans (if_pos (by rw [he]; rfl))

theorem sprAccess_sealed (he : sprExists n = true) (hs : sprShut n = true) (h2 : levelOf t c ≠ 2) :
    sprAccess n body (.sup c) t = .trap t tPriv 0 0 := (privileged_open hl _).trans (by simp [he, hs, h2])

theorem sprAccess_open (he : sprExists n = true) (hs : sprShut n = false ∨ levelOf t c = 2) : sprAccess n body (.sup c) t = body c t :=
  (privileged_open hl _).trans (by rcases hs with hs | hs <;> simp [he, hs])

end Access

/-! ### The instructions (R222, R223, R275, R505) -/

/-- The body of `xlinv`: the translations that match are dropped. -/
def xlinvOp (rs1 rs2 : Nat) (c : Nat) (s : State) : Res :=
  .next { s with tlb := s.tlb.filter fun l => !xlMatches (getD s (.sup c) rs1) (getD s (.sup c) rs2) l }

section Instr
variable {s t : State} {core : CoreId} {h : Hart} {pc : Nat} {rd rs1 rs2 : Fin 32}

section Register
variable (hr : Runs s core 2 h pc t)
include hr

theorem exec_sprd {num : BitVec 7} {r : Res} (ho : sprdOp rd rs1 rs2 num.toNat h t = r) :
    exec (.sprd core rd rs1 rs2 num) s = .next (coreAfter core pc 2 r) := instrDo_eq hr ho
theorem exec_spwr {num : BitVec 7} {r : Res} (ho : spwrOp rd rs1 rs2 num.toNat h t = r) :
    exec (.spwr core rd rs1 rs2 num) s = .next (coreAfter core pc 2 r) := instrDo_eq hr ho
theorem exec_evsrcRead {r : Res} (ho : sprdOp rd rs1 rs2 zEvsrc h t = r) :
    exec (.evsrcRead core rd rs1 rs2) s = .next (coreAfter core pc 2 r) := instrDo_eq hr ho
theorem exec_evdoneWrite {r : Res} (ho : spwrOp rd rs1 rs2 zEvdone h t = r) :
    exec (.evdoneWrite core rd rs1 rs2) s = .next (coreAfter core pc 2 r) := instrDo_eq hr ho
theorem exec_bpctlFlush {r : Res} (ho : spwrOp rd rs1 rs2 zBpctl h t = r) :
    exec (.bpctlFlush core rd rs1 rs2) s = .next (coreAfter core pc 2 r) := instrDo_eq hr ho

theorem exec_xlinv_field (hz : (rd : Nat) ≠ 0) : exec (.xlinv core rd rs1 rs2) s = .next (coreAfter core pc 2 (illegal t)) :=
  instrDo_eq hr (if_pos hz)

theorem exec_xlinv {r : Res} (ho : privileged 1 (xlinvOp rs1 rs2) h t = r) :
    exec (.xlinv core 0 rs1 rs2) s = .next (coreAfter core pc 2 r) := instrDo_eq hr ((if_neg (not_not_intro rfl)).trans ho)

theorem exec_csrrd_field (hz : (rs2 : Nat) ≠ 0) : exec (.csrrd core (.reg rd rs1 rs2)) s = .next (coreAfter core pc 2 (illegal t)) :=
  instrDo_eq hr (if_pos hz)

theorem exec_csrrd {r : Res} (ho : privileged 1 (fun c s => csrrdOp rd (wfld (getD s (.sup c) rs1) 31 0) c s) h t = r) :
    exec (.csrrd core (.reg rd rs1 0)) s = .next (coreAfter core pc 2 r) := instrDo_eq hr ((if_neg (not_not_intro rfl)).trans ho)

theorem exec_csrwr_field (hz : (rd : Nat) ≠ 0) : exec (.csrwr core (.reg rd rs1 rs2)) s = .next (coreAfter core pc 2 (illegal t)) :=
  instrDo_eq hr (if_pos hz)

theorem exec_csrwr {r : Res}
    (ho : privileged 1 (fun c s => csrwrOp (wfld (getD s (.sup c) rs1) 31 0) (wfld (getD s (.sup c) rs2) 31 0) c s) h t = r) :
    exec (.csrwr core (.reg 0 rs1 rs2)) s = .next (coreAfter core pc 2 r) := instrDo_eq hr ((if_neg (not_not_intro rfl)).trans ho)

end Register

section Immediate
variable {rt : Fin 32} {fn3 : BitVec 3} {rsv : BitVec 16} {idx : BitVec 32} (hr : Runs s core 4 h pc t)
include hr

theorem exec_csri_field (hz : fn3 ≠ 0 ∨ rsv ≠ 0) :
    exec (.csrrd core (.imm rt fn3 rsv idx)) s = .next (coreAfter core pc 4 (illegal t)) ∧
    exec (.csrwr core (.imm rt fn3 rsv idx)) s = .next (coreAfter core pc 4 (illegal t)) :=
  ⟨instrDo_eq hr (if_pos hz), instrDo_eq hr (if_pos hz)⟩

theorem exec_csrrd_imm {r : Res} (ho : privileged 1 (csrrdOp rt idx.toNat) h t = r) :
    exec (.csrrd core (.imm rt 0 0 idx)) s = .next (coreAfter core pc 4 r) := instrDo_eq hr ((if_neg (by simp)).trans ho)

theorem exec_csrwr_imm {r : Res} (ho : privileged 1 (fun c s => csrwrOp idx.toNat (wfld (getD s (.sup c) rt) 31 0) c s) h t = r) :
    exec (.csrwr core (.imm rt 0 0 idx)) s = .next (coreAfter core pc 4 r) := instrDo_eq hr ((if_neg (by simp)).trans ho)

end Immediate
end Instr

theorem readSpr_evsrc (t : State) (c : Nat) : readSpr t c zEvsrc = readEvsrc t c := rfl
theorem writeSpr_evdone (t : State) (c : Nat) (v : Word) : writeSpr t c zEvdone v = writeEvdone t c v := rfl
theorem writeSpr_bpctl (t : State) (c : Nat) (v : Word) : writeSpr t c zBpctl v = writeBpctl t c v := rfl

/-- Settles O29: an unused field is judged first, then the level, then the register, and behind them each access is its own operation. -/
theorem specialAndControlRegisterAccess : Obligations.SpecialAndControlRegisterAccess := by
  intro s t core h pc rd rs1 rs2 low hlow
  have hpriv (hl : low = true) (body : Nat → State → Res) : privileged 1 body h t = .trap t tPriv 0 0 := by
    subst hlow
    cases h with
    | pe k => rfl
    | sup c => exact privileged_low (Nat.lt_one_iff.mpr (beq_iff_eq.mp hl)) body
  have hopen {c : Nat} (hc : h = .sup c) (hl : low = false) : ¬levelOf t c < 1 := by
    subst hc hlow
    exact fun h1 => ne_of_beq_false hl (Nat.lt_one_iff.mp h1)
  refine ⟨fun hr => ⟨fun hz => ?_, fun hz => ?_, fun hz => ?_, fun hz => exec_csrrd_field hr (Fin.val_ne_of_ne hz), fun hl => ?_, ?_⟩,
    fun rt fn3 rsv idx hr => ⟨exec_csri_field hr, fun hl => ⟨exec_csrrd_imm hr (hpriv hl _), exec_csrwr_imm hr (hpriv hl _)⟩, ?_⟩⟩
  · have hz : rs1.val ≠ 0 ∨ rs2.val ≠ 0 := hz.imp Fin.val_ne_of_ne Fin.val_ne_of_ne
    exact ⟨fun num => exec_sprd hr (sprdOp_field _ h t hz), exec_evsrcRead hr (sprdOp_field _ h t hz)⟩
  · have hz : rd.val ≠ 0 ∨ rs2.val ≠ 0 := hz.imp Fin.val_ne_of_ne Fin.val_ne_of_ne
    exact ⟨fun num => exec_spwr hr (spwrOp_field _ h t hz), exec_evdoneWrite hr (spwrOp_field _ h t hz),
      exec_bpctlFlush hr (spwrOp_field _ h t hz)⟩
  · exact ⟨exec_xlinv_field hr (Fin.val_ne_of_ne hz), exec_csrwr_field hr (Fin.val_ne_of_ne hz)⟩
  · have hrd n : sprdOp rd 0 0 n h t = .trap t tPriv 0 0 := sprdOp_access n h t (hpriv hl _)
    have hwr n : spwrOp 0 rs1 0 n h t = .trap t tPriv 0 0 := spwrOp_access n h t (hpriv hl _)
    exact ⟨fun num => ⟨exec_sprd hr (hrd _), exec_spwr hr (hwr _)⟩, exec_evsrcRead hr (hrd _), exec_evdoneWrite hr (hwr _),
      exec_bpctlFlush hr (hwr _), exec_xlinv hr (hpriv hl _), exec_csrrd hr (hpriv hl _), exec_csrwr hr (hpriv hl _)⟩
  · rintro c rfl hl
    have h1 := hopen rfl hl
    have hgo (body : Nat → State → Res) := privileged_open h1 body
    have hread {n : Nat} {r : Res} := sprdOp_access (rd := rd) (r := r) n (.sup c) t
    have hwrite {n : Nat} {r : Res} := spwrOp_access (rs1 := rs1) (r := r) n (.sup c) t
    refine ⟨fun num => ⟨fun he => ?_, fun he hs h2 => ?_, fun he hs => ?_⟩, ?_, ?_, ?_, exec_xlinv hr (hgo _), ?_, ?_⟩
    · exact ⟨exec_sprd hr (hread (sprAccess_unassigned h1 _ he)), exec_spwr hr (hwrite (sprAccess_unassigned h1 _ he))⟩
    · exact ⟨exec_sprd hr (hread (sprAccess_sealed h1 _ he hs h2)), exec_spwr hr (hwrite (sprAccess_sealed h1 _ he hs h2))⟩
    · refine ⟨?_, exec_spwr hr (hwrite (sprAccess_open h1 _ he hs))⟩
      rintro r rfl
      exact exec_sprd hr (hread (sprAccess_open h1 _ he hs))
    · rw [← readSpr_evsrc]
      exact exec_evsrcRead hr (hread (sprAccess_open h1 _ rfl (.inl rfl)))
    · rw [← writeSpr_evdone]
      exact exec_evdoneWrite hr (hwrite (sprAccess_open h1 _ rfl (.inl rfl)))
    · rw [← writeSpr_bpctl]
      exact exec_bpctlFlush hr (hwrite (sprAccess_open h1 _ rfl (.inl rfl)))
    · rintro r rfl
      exact exec_csrrd hr (hgo _)
    · rintro r rfl
      exact exec_csrwr hr (hgo _)
  · rintro c rfl hl
    have hgo (body : Nat → State → Res) := privileged_open (hopen rfl hl) body
    refine ⟨?_, ?_⟩
    · rintro r rfl
      exact exec_csrrd_imm hr (hgo _)
    · rintro r rfl
      exact exec_csrwr_imm hr (hgo _)

end Sys2Proof.Machine
end

section
/-! SUPPORT. Carry chains, widening products and division (R232 to R235, R263): what a division gives for each divisor. -/

namespace Sys2Proof.Machine

section Divide
variable {t : State} {h : Hart} {signed : Bool} {wd rs1 rs2 : Nat}

theorem divide_quotient (hy : getD t h rs2 ≠ 0) :
    divide t h signed wd rs1 rs2 = .next (setW t h wd (divWide signed (getD t h rs1) (getD t h rs2))) := if_neg hy

theorem divide_zero_traps (hy : getD t h rs2 = 0) (he : bitOf (trapen t h) 5 = true) :
    divide t h signed wd rs1 rs2 = .trap t tDz 0 0 := (if_pos hy).trans (if_pos he)

theorem divide_zero_quiet (hy : getD t h rs2 = 0) (he : bitOf (trapen t h) 5 = false) :
    divide t h signed wd rs1 rs2 = .next (raiseFlags (setW t h wd (mkWide (getD t h rs1) 0)) h fDZ) :=
  (if_pos hy).trans (if_neg (ne_true_of_eq_false he))

end Divide

/-- DIVS_DIVU is a division, signed under one of its two function numbers. -/
theorem exec_divsDivu {s t : State} {core : CoreId} {h : Hart} {pc : Nat} (hr : Runs s core 2 h pc t) {wd : Fin 4} {rs1 rs2 : Fin 32}
    (signed : Bool) {r : Res} (ho : divide t h signed wd rs1 rs2 = r) :
    exec (.divsDivu core wd 0 rs1 rs2 (if signed then 0x20 else 0x21)) s = .next (coreAfter core pc 2 r) := by
  cases signed with
  | true | false => exact instrDo_eq hr ho

/-- Settles O20: a carry chain and a product are written as computed, and a division turns on its divisor. -/
theorem wideArithmeticCompletes : Obligations.WideArithmeticCompletes := by
  rintro s t core h pc wd ws rs1 rs2 x y hr rfl rfl
  refine ⟨instrDo_eq hr rfl, instrDo_eq hr rfl, instrDo_eq hr rfl, instrDo_eq hr rfl, instrDo_eq hr rfl, instrDo_eq hr rfl,
    instrDo_eq hr rfl, instrDo_eq hr rfl, fun hy => exec_divsDivu hr false (divide_quotient hy),
    fun hy => exec_divsDivu hr true (divide_quotient hy), ?_, fun hw => instrDo_eq hr (if_pos (Fin.val_ne_of_ne hw))⟩
  rintro fn hfn hy
  obtain ⟨signed, rfl⟩ : ∃ signed : Bool, fn = if signed then 0x20 else 0x21 := hfn.elim (⟨true, ·⟩) (⟨false, ·⟩)
  exact ⟨fun he => exec_divsDivu hr signed (divide_zero_traps hy he), fun he => exec_divsDivu hr signed (divide_zero_quiet hy he)⟩

end Sys2Proof.Machine
end

section
/-! SUPPORT. Floating point (R228, R229, R265 to R267): what the tables of operations and conversions hold, and how an instruction ends with
what it finds there. -/

namespace Sys2Proof.Machine

/-! ### A result and its exceptions (R229) -/

section Write
variable {t : State} {h : Hart} {rd : Nat} {r : Nat × Nat}

theorem fpWrite_quiet (hx : r.2 &&& (trapen t h % 32) = 0) : fpWrite t h rd r = .next (setD (raiseFlags t h r.2) h rd (w64 r.1)) :=
  if_neg (not_not_intro hx)

theorem fpWrite_traps (hx : r.2 &&& (trapen t h % 32) ≠ 0) : fpWrite t h rd r = .trap t tFp (r.2 &&& (trapen t h % 32)) 0 := if_pos hx

/-- An instruction that writes a floating-point result ends with the result and its flags, or with the trap of those that are enabled. -/
theorem fpWrite_ends {core : CoreId} {pc : Nat} {o : Out} (ho : o = .next (coreAfter core pc 2 (fpWrite t h rd r))) :
    (r.2 &&& (trapen t h % 32) = 0 → o = .next (coreAfter core pc 2 (.next (setD (raiseFlags t h r.2) h rd (w64 r.1))))) ∧
    (r.2 &&& (trapen t h % 32) ≠ 0 → o = .next (coreAfter core pc 2 (.trap t tFp (r.2 &&& (trapen t h % 32)) 0))) :=
  ⟨fun hx => fpWrite_quiet hx ▸ ho, fun hx => fpWrite_traps hx ▸ ho⟩

end Write

/-! ### The tables (R265, R267) -/

section Table
variable (f : Fmt) (m x y z : Nat) {op rs2 : Nat}

theorem fpRounded_table (rs2 : Nat) : ∀ q ∈ [(0x00, fAdd f m false x y), (0x01, fAdd f m true x y), (0x02, fMul f m x y),
    (0x03, fDiv f m x y), (0x05, fMadd f m x y z)], fpRounded f m q.1 rs2 x y z = some q.2 := by
  simp only [List.forall_mem_cons]
  exact ⟨rfl, rfl, rfl, rfl, rfl, List.forall_mem_nil _⟩

theorem fpRounded_table_unary : ∀ q ∈ [(0x04, fSqrt f m x), (0x0C, fRound f m x)], fpRounded f m q.1 0 x y z = some q.2 := by
  simp only [List.forall_mem_cons]
  exact ⟨rfl, rfl, List.forall_mem_nil _⟩

/-- An operation that does not round is in the second half of the table alone. -/
theorem fpPlain_table (rs2 : Nat) : ∀ q ∈ [(0x08, fMinMax f false false x y), (0x09, fMinMax f true false x y),
    (0x0A, fMinMax f false true x y), (0x0B, fMinMax f true true x y), (0x0F, (x % signBit f + b2n (fSign f y) * signBit f, 0)),
    (0x11, fCmp f 0 x y), (0x12, fCmp f 1 x y), (0x13, fCmp f 2 x y), (0x14, fCmp f 3 x y)],
    fpRounded f m q.1 rs2 x y z = none ∧ fpPlain f q.1 rs2 x y = some q.2 := by
  simp only [List.forall_mem_cons]
  exact ⟨⟨rfl, rfl⟩, ⟨rfl, rfl⟩, ⟨rfl, rfl⟩, ⟨rfl, rfl⟩, ⟨rfl, rfl⟩, ⟨rfl, rfl⟩, ⟨rfl, rfl⟩, ⟨rfl, rfl⟩, ⟨rfl, rfl⟩,
    List.forall_mem_nil _⟩

theorem fpPlain_table_unary : ∀ q ∈ [(0x0D, (x ^^^ signBit f, 0)), (0x0E, (x % signBit f, 0))],
    fpRounded f m q.1 0 x y z = none ∧ fpPlain f q.1 0 x y = some q.2 := by
  simp only [List.forall_mem_cons]
  exact ⟨⟨rfl, rfl⟩, ⟨rfl, rfl⟩, List.forall_mem_nil _⟩

theorem fpRounded_none (hop : 6 ≤ op ∧ op ≠ 0x0C ∨ rs2 ≠ 0 ∧ (op = 0x04 ∨ op = 0x0C)) : fpRounded f m op rs2 x y z = none := by
  unfold fpRounded
  split <;> simp_all

theorem fpPlain_none (hop : op ≤ 7 ∨ op = 0x0C ∨ op = 0x10 ∨ 0x15 ≤ op ∨ rs2 ≠ 0 ∧ (op = 0x0D ∨ op = 0x0E)) :
    fpPlain f op rs2 x y = none := by
  unfold fpPlain
  split <;> simp_all

theorem convert_none (v : Word) (hop : 0x0A ≤ op) : convert op m v = none := by
  unfold convert
  split <;> simp_all

theorem convert_assigned (v : Word) : ∀ op ≤ 9, ∃ r, convert op m v = some r
  | 0, _ | 1, _ | 2, _ | 3, _ | 4, _ | 5, _ | 6, _ | 7, _ | 8, _ | 9, _ => ⟨_, rfl⟩

end Table

/-! ### The floating-point instructions (R228, R265 to R267) -/

/-- What FP_OPERATION finds under a rounding mode: the result of an operation that rounds or else, under `RM` 0, of one that does not. -/
def fpFound (t : State) (h : Hart) (dbl : Bool) (rd rs1 rs2 fn m : Nat) : Option (Nat × Nat) :=
  (fpRounded (fpFmt dbl) m (fld fn 5 0) rs2 (fpArg dbl (getD t h rs1)) (fpArg dbl (getD t h rs2)) (fpArg dbl (getD t h rd))).or
    (if fld fn 8 6 = 0 then fpPlain (fpFmt dbl) (fld fn 5 0) rs2 (fpArg dbl (getD t h rs1)) (fpArg dbl (getD t h rs2)) else none)

section Operation
variable {t : State} {h : Hart} {dbl : Bool} {rd rs1 rs2 fn m : Nat}

theorem fpOp_found (hm : roundMode t h (fld fn 8 6) = some m) :
    fpOp t h dbl rd rs1 rs2 fn = (fpFound t h dbl rd rs1 rs2 fn m).elim (illegal t) (fpWrite t h rd) := by
  unfold fpOp fpFound
  simp only [hm]
  cases fpRounded (fpFmt dbl) m (fld fn 5 0) rs2 (fpArg dbl (getD t h rs1)) (fpArg dbl (getD t h rs2)) (fpArg dbl (getD t h rd)) with
  | some r => rfl
  | none =>
    simp only [Option.none_or]
    split <;> next hf => rw [hf]; rfl

theorem fpOp_noMode (hm : roundMode t h (fld fn 8 6) = none) : fpOp t h dbl rd rs1 rs2 fn = illegal t := by
  unfold fpOp
  simp only [hm]

theorem fpFound_rounded {r : Nat × Nat} (hf : fpRounded (fpFmt dbl) m (fld fn 5 0) rs2 (fpArg dbl (getD t h rs1))
    (fpArg dbl (getD t h rs2)) (fpArg dbl (getD t h rd)) = some r) : fpFound t h dbl rd rs1 rs2 fn m = some r := by
  rw [fpFound, hf, Option.some_or]

theorem fpFound_plain {r : Nat × Nat} (hz : fld fn 8 6 = 0) (hf : fpRounded (fpFmt dbl) m (fld fn 5 0) rs2 (fpArg dbl (getD t h rs1))
      (fpArg dbl (getD t h rs2)) (fpArg dbl (getD t h rd)) = none ∧
    fpPlain (fpFmt dbl) (fld fn 5 0) rs2 (fpArg dbl (getD t h rs1)) (fpArg dbl (getD t h rs2)) = some r) :
    fpFound t h dbl rd rs1 rs2 fn m = some r := by
  obtain ⟨hnone, hsome⟩ := hf
  rw [fpFound, hnone, Option.none_or, if_pos hz, hsome]

/-- Nothing is found for a function number without a row, and for an `RS2` or `RM` that must be 0 and is not. -/
theorem fpFound_none (hop : 0x15 ≤ fld fn 5 0 ∨ fld fn 5 0 = 0x06 ∨ fld fn 5 0 = 0x07 ∨ fld fn 5 0 = 0x10 ∨
    (rs2 ≠ 0 ∧ (fld fn 5 0 = 0x04 ∨ fld fn 5 0 = 0x0C ∨ fld fn 5 0 = 0x0D ∨ fld fn 5 0 = 0x0E)) ∨
    (fld fn 8 6 ≠ 0 ∧ 0x08 ≤ fld fn 5 0 ∧ fld fn 5 0 ≠ 0x0C)) : fpFound t h dbl rd rs1 rs2 fn m = none := by
  rw [fpFound, fpRounded_none _ _ _ _ _ (by omega), Option.none_or]
  split
  · exact fpPlain_none _ _ _ (by omega)
  · rfl

end Operation

section Instr
variable {s t : State} {core : CoreId} {h : Hart} {pc : Nat} (hr : Runs s core 2 h pc t)
include hr

theorem exec_fpOperation {dbl : Bool} {rd rs1 rs2 : Fin 32} {fn : BitVec 9} {m : Nat} (hm : roundMode t h (fld fn.toNat 8 6) = some m)
    {o : Option (Nat × Nat)} (ho : fpFound t h dbl rd rs1 rs2 fn.toNat m = o) :
    exec (.fpOperation core dbl rd rs1 rs2 fn) s = .next (coreAfter core pc 2 (o.elim (illegal t) (fpWrite t h rd))) :=
  instrDo_eq hr (ho ▸ fpOp_found hm)

theorem exec_fcvt {rd rs1 : Fin 32} {fn : BitVec 9} {m : Nat} (hm : roundMode t h (fld fn.toNat 8 6) = some m)
    (hz : fld fn.toNat 5 0 ≠ 0 ∨ fld fn.toNat 8 6 = 0) {r : Nat × Nat} (hc : convert (fld fn.toNat 5 0) m (getD t h rs1) = some r) :
    exec (.fcvt core rd rs1 0 fn) s = .next (coreAfter core pc 2 (fpWrite t h rd r)) :=
  instrDo_eq hr (by
    simp only [hm, hc]
    exact if_neg (not_or.mpr ⟨not_not_intro rfl, fun ⟨hop, hrm⟩ => hz.elim (· hop) hrm⟩))

theorem exec_fcvt_illegal {rd rs1 rs2 : Fin 32} {fn : BitVec 9} {m : Nat} (hm : roundMode t h (fld fn.toNat 8 6) = some m)
    (hz : rs2 ≠ 0 ∨ (fld fn.toNat 5 0 = 0 ∧ fld fn.toNat 8 6 ≠ 0) ∨ 0x0A ≤ fld fn.toNat 5 0) :
    exec (.fcvt core rd rs1 rs2 fn) s = .next (coreAfter core pc 2 (illegal t)) := by
  refine instrDo_eq hr ?_
  simp only [hm]
  split
  · rfl
  · next hn =>
    have hop : 0x0A ≤ fld fn.toNat 5 0 := by
      rcases hz with h2 | h1 | hop
      · exact absurd (.inl (Fin.val_ne_of_ne h2)) hn
      · exact absurd (.inr h1) hn
      · exact hop
    rw [convert_none _ _ hop]

end Instr

/-- Settles O22: an instruction writes what its table finds, with the flags or the trap, and is an invalid encoding where it finds nothing. -/
theorem floatingPointCompletes : Obligations.FloatingPointCompletes := by
  rintro s t core h pc dbl rd rs1 rs2 fn f rm op x y z on hr rfl rfl hop rfl rfl rfl rfl
  refine ⟨fun m hm => ⟨fun r hrow => fpWrite_ends (exec_fpOperation hr hm (o := some r) ?_),
    fun hbad => exec_fpOperation hr hm (o := none) (fpFound_none ?_), fun r hz hc => fpWrite_ends (exec_fcvt hr hm (hop ▸ hz) (hop ▸ hc)),
    convert_assigned m _ op, fun hz => exec_fcvt_illegal hr hm (hop ▸ hz)⟩, fun hm => ⟨instrDo_eq hr (fpOp_noMode hm), ?_⟩,
    instrDo_eq hr (if_pos ⟨rfl, rfl⟩), fun hz => instrDo_eq hr (if_neg ?_)⟩
  · rcases hrow with hrow | ⟨rfl, hrow⟩ | ⟨hz, hrow | ⟨rfl, hrow⟩⟩
    · exact fpFound_rounded (hop ▸ fpRounded_table _ m _ _ _ _ (op, r) hrow)
    · exact fpFound_rounded (hop ▸ fpRounded_table_unary _ m _ _ _ (op, r) hrow)
    · exact fpFound_plain hz (hop ▸ fpPlain_table _ m _ _ _ _ (op, r) hrow)
    · exact fpFound_plain hz (hop ▸ fpPlain_table_unary _ m _ _ _ (op, r) hrow)
  · simpa only [← hop, Fin.val_ne_zero_iff] using hbad
  · exact instrDo_eq hr (by simp only [hm]; rfl)
  · rintro ⟨hfn, h2⟩
    exact hz.elim (· (Fin.val_eq_zero_iff.mp h2)) (· (BitVec.eq_of_toNat_eq hfn))

end Sys2Proof.Machine
end

section
/-! SUPPORT. Packed decimal and a spar's sequencer (R244 to R250, R264, R449, R450, R529): what a decimal instruction does on a supervisor core
and on a PE, and how the sequencer takes and ends a request. -/

namespace Sys2Proof.Machine

/-! ### A decimal instruction (R244 to R247, R264, R529) -/

/-- A request of PE `k` for its spar's sequencer, at which the PE stalls (R247). -/
def decAsk (op : Nat) (wide : Bool) (rd : Nat) (a b : Wide) (k : Nat) (s : State) : State :=
  modSpar (modPe s k fun x => { x with decimal := true }) (peSpar k) fun z => { z with decWait := z.decWait ++
    [⟨peNo k, op, wide, rd, a, b, true⟩] }

section Issue
variable {t : State} {op rd k c : Nat} {wide : Bool} {a b : Wide}

theorem decIssue_sup_result {r : Wide × Bool} (hd : decResult op wide a b = some r) :
    decIssue op wide rd a b (.sup c) t = .next (decWrite t (.sup c) op wide rd r) := by simp only [decIssue, hd]

theorem decIssue_sup_invalid (hd : decResult op wide a b = none) : decIssue op wide rd a b (.sup c) t = .trap t tDecimal 0 0 := by
  simp only [decIssue, hd]

theorem decIssue_pe_alone (hp : ∀ q, (getPe t k).pair ≠ some (true, q)) :
    decIssue op wide rd a b (.pe k) t = .done (decAsk op wide rd a b k t) := by
  refine congrArg Res.done ?_
  split
  · next q hq => exact absurd hq (hp q)
  · rfl

theorem decIssue_pe_pair {q : Nat} (hp : (getPe t k).pair = some (true, q)) :
    decIssue op wide rd a b (.pe k) t = .done (decAsk op wide rd a b (peKey (peSpar k) q) (decAsk op wide rd a b k t)) := by
  simp only [decIssue, hp]
  rfl

end Issue

/-- Each form of a decimal instruction, with its operation, its width, its destination and its operands. -/
theorem exec_decimal {s t : State} {core : CoreId} {h : Hart} {pc : Nat} (hr : Runs s core 2 h pc t) {rd rs1 rs2 : Fin 32} {wd ws : Fin 4}
    {a b w : Wide} (ha : a = (getD t h rs1).setWidth 128) (hb : b = (getD t h rs2).setWidth 128) (hw : w = getW t h ws)
    {c : Instr} {op d : Nat} {wide : Bool} {x y : Wide}
    (hc : (c, op, wide, d, x, y) ∈ ([(.padd core (.d rd rs1 rs2), 0, false, rd, a, b), (.psub core (.d rd rs1 rs2), 1, false, rd, a, b),
        (.padd core (.w wd ws rs1 0), 0, true, wd, w, a), (.psub core (.w wd ws rs1 0), 1, true, wd, w, a),
        (.pchk core false rd rs1 0, 2, false, rd, a, 0)] : List (Instr × Nat × Bool × Nat × Wide × Wide)) ∨
      (rs1 < 4 ∧ (c, op, wide, d, x, y) = ((.pchk core true rd rs1 0, 2, true, rd, getW t h rs1, 0) : Instr × Nat × Bool × Nat × Wide × Wide)))
    {r : Res} (ho : decIssue op wide d x y h t = r) : exec c s = .next (coreAfter core pc 2 r) := by
  subst ha hb hw ho
  simp only [List.mem_cons, List.not_mem_nil, or_false, Prod.mk.injEq] at hc
  rcases hc with (⟨rfl, rfl, rfl, rfl, rfl, rfl⟩ | ⟨rfl, rfl, rfl, rfl, rfl, rfl⟩ | ⟨rfl, rfl, rfl, rfl, rfl, rfl⟩ |
    ⟨rfl, rfl, rfl, rfl, rfl, rfl⟩ | ⟨rfl, rfl, rfl, rfl, rfl, rfl⟩) | ⟨h4, rfl, rfl, rfl, rfl, rfl, rfl⟩
  · exact instrDo_eq hr rfl
  · exact instrDo_eq hr rfl
  · exact instrDo_eq hr rfl
  · exact instrDo_eq hr rfl
  · exact instrDo_eq hr rfl
  · exact instrDo_eq hr (if_neg (not_or.mpr ⟨not_not_intro rfl, fun ⟨_, hge⟩ => Nat.not_le_of_lt h4 hge⟩))

/-! ### The sequencer (R247 to R250, R449, R450, R529) -/

section Sequencer
variable {s : State} {g : Nat} {j : DecJob}

theorem decAccept_idle {n : Nat} (hi : (getSpar s g).decRun = none) (hn : decNext (getSpar s g) = some (j, n)) :
    decAccept s g = modSpar s g fun x => { x with decRun := some j, decRr := j.pe, decWait := dropAt x.decWait n } := by
  simp only [decAccept, hi, hn]

theorem decEnd_fault {upc : Nat} (hf : seqEnd s g j = .fault upc) : decEnd s g j = .fault upc := by simp only [decEnd, hf]

/-- Where the microcode causes no micro-trap, a request ends with what a supervisor core computes, whatever the image (R450). -/
theorem decEnd_of_no_fault (hf : ∀ upc, seqEnd s g j ≠ .fault upc) :
    decEnd s g j = (decResult j.op j.wide j.a j.b).elim .dexc fun r => .result r.1 r.2 := by
  unfold decEnd
  split
  · next upc hu => exact absurd hu (hf upc)
  · rfl

/-- The state after the sequencer has let its request go. -/
def decFree (s : State) (g : Nat) : State := modSpar s g fun x => { x with decRun := none }

/-- The state after the sequencer has let its request go, and its PE no longer stalls. -/
def decGo (s : State) (g : Nat) (j : DecJob) : State := modPe (decFree s g) (peKey g j.pe) fun p => { p with decimal := false }

/-- A fault at the micro address `upc`, recorded for the sequencer's spar (R250, R449). -/
def decRecord (s : State) (g upc : Nat) : State := report s (g / 32) (bClu (g % 32)) 0xFF 0x0112 cDeferred 0x00 0 0 (w64 upc)

variable (hrun : (getSpar s g).decRun = some j)
include hrun

theorem decFinish_dropped (hf : ∀ upc, seqEnd s g j ≠ .fault upc) (hl : j.live = false) : decFinish s g = decFree s g := by
  simp only [decFinish, hrun, decEnd_of_no_fault hf, hl]
  cases decResult j.op j.wide j.a j.b <;> rfl

theorem decFinish_result (hf : ∀ upc, seqEnd s g j ≠ .fault upc) (hl : j.live = true) {r : Wide × Bool}
    (hd : decResult j.op j.wide j.a j.b = some r) :
    decFinish s g = if leader (decGo s g j) (peKey g j.pe) ≠ peKey g j.pe then decGo s g j
      else mirror (setPc (decWrite (decGo s g j) (.pe (peKey g j.pe)) j.op j.wide j.rd r) (.pe (peKey g j.pe))
        (hartPc (decFree s g) (.pe (peKey g j.pe)) + 2)) (peKey g j.pe) := by
  simp only [decFinish, hrun, decEnd_of_no_fault hf, hd, hl]
  rfl

theorem decFinish_invalid (hf : ∀ upc, seqEnd s g j ≠ .fault upc) (hl : j.live = true) (hd : decResult j.op j.wide j.a j.b = none) :
    decFinish s g = if leader (decGo s g j) (peKey g j.pe) ≠ peKey g j.pe then decGo s g j
      else peTrap (decGo s g j) (peKey g j.pe) 0 tDecimal 0 0 (hartPc (decFree s g) (.pe (peKey g j.pe))) := by
  simp only [decFinish, hrun, decEnd_of_no_fault hf, hd, hl]
  rfl

theorem decFinish_fault_dropped {upc : Nat} (hf : seqEnd s g j = .fault upc) (hl : j.live = false) :
    decFinish s g = decRecord (decFree s g) g upc := by
  simp only [decFinish, hrun, decEnd_fault hf, hl]
  rfl

theorem decFinish_fault {upc : Nat} (hf : seqEnd s g j = .fault upc) (hl : j.live = true) :
    decFinish s g = transient (decRecord (decGo s g j) g upc) (peKey g j.pe) 0x0112 0 (w64 upc) false := by
  simp only [decFinish, hrun, decEnd_fault hf, hl]
  rfl

end Sequencer

/-- Settles O21: a supervisor core computes what a PE asks for, and the sequencer ends each request in the branch that its microcode, its
scope and its operands select. -/
theorem decimalCompletes : Obligations.DecimalCompletes := by
  refine fun s t core h pc => ⟨?_, ?_⟩
  · intro rd rs1 rs2 wd ws a b w hr ha hb hw c op wide d x y hc
    have hrun {r : Res} := exec_decimal hr ha hb hw hc (r := r)
    obtain ⟨-, hh, -⟩ := hr
    refine ⟨?_, ?_⟩
    · rintro p rfl
      subst hh
      exact ⟨fun r hd => hrun (decIssue_sup_result hd), fun hd => hrun (decIssue_sup_invalid hd)⟩
    · rintro p k ask rfl rfl hask
      subst hh
      obtain rfl : ask = decAsk op wide d x y := funext fun q => funext fun u => hask q u
      exact ⟨fun hp => hrun (decIssue_pe_alone hp), fun q hp => hrun (decIssue_pe_pair hp)⟩
  · rintro die spar g j rfl hdie hlive
    have hdo (t : State) : sparDo s die spar t = .next t := sparDo_live t hdie hlive
    have hrec (t : State) (upc : Nat) : decRecord t (gspar die spar) upc = report t die (bClu spar) 0xFF 0x0112 cDeferred 0x00 0 0 (w64 upc) := by
      rw [decRecord, gspar_die spar.isLt, gspar_spar spar.isLt]
    refine ⟨fun n hi hn => (hdo _).trans (congrArg _ (decAccept_idle hi hn)), ?_⟩
    rintro k free u hrun rfl rfl rfl
    have hend {t : State} (hf : decFinish s (gspar die spar) = t) : exec (.decimalResult die spar) s = .next t := (hdo _).trans (congrArg _ hf)
    refine ⟨fun hf => ⟨fun hl => hend (decFinish_dropped hrun hf hl), fun hl => ⟨fun r hd => ?_, fun hd hk => ?_⟩⟩,
      fun upc hf => ⟨fun hl => ?_, fun hl => ?_⟩⟩
    · have hres := decFinish_result hrun hf hl hd
      exact ⟨fun hk => hend (hres.trans (if_pos hk)), fun hk => hend (hres.trans (if_neg (not_not_intro hk)))⟩
    · exact hend ((decFinish_invalid hrun hf hl hd).trans (if_neg (not_not_intro hk)))
    · exact hrec _ _ ▸ hend (decFinish_fault_dropped hrun hf hl)
    · exact hrec _ _ ▸ hend (decFinish_fault hrun hf hl)

end Sys2Proof.Machine
end

section
/-! SUPPORT. The control instructions of X16 (R62, R63, R190, R192, R259, R281, R299, R343, R345, R362): the order in which the argument, the
kind of the core and its level are judged, and what each instruction does behind them. -/

namespace Sys2Proof.Machine

theorem Runs.hart_eq {s t : State} {core : CoreId} {n pc : Nat} {h : Hart} (hr : Runs s core n h pc t) : h = hartOf core := by
  obtain ⟨-, hh, -⟩ := hr
  exact hh

/-! ### The argument (R202, R259) -/

section Argument
variable (body : Hart → State → Res) (h : Hart) (t : State)

theorem noArg_zero : noArg 0 body h t = body h t := if_pos rfl
theorem noArg_ne_zero {arg : BitVec 5} (ha : arg ≠ 0) : noArg arg body h t = illegal t := if_neg ha

end Argument

/-! ### The operations behind argument and level (R62, R63, R281, R343, R345, R362) -/

/-- The body of `commit`. -/
def commitOp (k : Nat) (s : State) : Res :=
  atCommit s k fun s => .done (commitAwait (setPc s (.pe k) (hartPc s (.pe k) + 1)) k)

/-- The body of `end`. -/
def endOp (k : Nat) (s : State) : Res := atCommit s k fun s => .done (endInst (commitPoint s k) k 0)

/-- The body of `eret`. -/
def eretOp (c : Nat) (s : State) : Res :=
  if levelOf s c < wfld (spr s c (zLevel (levelOf s c) + 2)) 1 0 then illegal s else .done (leaveLevel s c (levelOf s c))

/-- The body of `wfe`. -/
def wfeOp (c : Nat) (s : State) : Res :=
  .next (modSup (dropResv s (supAgent c)) c fun x => { x with waiting := x.openOffer.isNone && x.sealedOffer.isNone })

/-- The body of `sys`. -/
def sysOp (arg : BitVec 5) (c : Nat) (s : State) : Res :=
  if levelOf s c = 2 then .trap s tPriv 0 0
  else .done (enterLevel s c (levelOf s c + 1) 0x200 tSys 0 arg.toNat 0 (hartPc s (.sup c) + 1))

section Bodies
variable {t t' : State} {k c : Nat} (arg : BitVec 5)

theorem atCommit_held (run : State → Res) (ho : ownHeld t k = some t') : atCommit t k run = run t' := by simp only [atCommit, ho]
theorem atCommit_waits (run : State → Res) (ho : ownHeld t k = none) : atCommit t k run = .done t := by simp only [atCommit, ho]

theorem eretOp_above (hl : levelOf t c < wfld (spr t c (zLevel (levelOf t c) + 2)) 1 0) : eretOp c t = illegal t := if_pos hl
theorem eretOp_returns (hl : wfld (spr t c (zLevel (levelOf t c) + 2)) 1 0 ≤ levelOf t c) :
    eretOp c t = .done (leaveLevel t c (levelOf t c)) := if_neg (Nat.not_lt_of_le hl)

theorem sysOp_top (hl : levelOf t c = 2) : sysOp arg c t = .trap t tPriv 0 0 := if_pos hl
theorem sysOp_enters (hl : levelOf t c ≠ 2) :
    sysOp arg c t = .done (enterLevel t c (levelOf t c + 1) 0x200 tSys 0 arg.toNat 0 (hartPc t (.sup c) + 1)) := if_neg hl

end Bodies

/-! ### The instructions -/

section Instr
variable {s t : State} {core : CoreId} {h : Hart} {pc : Nat} (hr : Runs s core 1 h pc t)
include hr

/-- An argument that must be 0 is judged before everything else (log 141). -/
theorem exec_argument {arg : BitVec 5} (ha : arg ≠ 0) : ∀ c ∈ [Instr.nop core arg, .commit core arg, .end_ core arg, .fence core arg,
    .fenceDev core arg, .eret core arg, .wfe core arg], exec c s = .next (coreAfter core pc 1 (illegal t)) := by
  have hrun (body : Hart → State → Res) := instrDo_eq hr (noArg_ne_zero body h t ha)
  simp only [List.forall_mem_cons]
  exact ⟨hrun _, hrun _, hrun _, hrun _, hrun _, hrun _, hrun _, List.forall_mem_nil _⟩

variable {r : Res}

theorem exec_nop : exec (.nop core 0) s = .next (coreAfter core pc 1 (.next t)) := instrDo_eq hr (noArg_zero _ h t)
theorem exec_fence : exec (.fence core 0) s = .next (coreAfter core pc 1 (.next t)) := instrDo_eq hr (noArg_zero _ h t)
theorem exec_commit (ho : codeletOnly commitOp h t = r) : exec (.commit core 0) s = .next (coreAfter core pc 1 r) :=
  instrDo_eq hr ((noArg_zero _ h t).trans ho)
theorem exec_end (ho : codeletOnly endOp h t = r) : exec (.end_ core 0) s = .next (coreAfter core pc 1 r) :=
  instrDo_eq hr ((noArg_zero _ h t).trans ho)
theorem exec_fenceDev (ho : privileged 0 (fun _ s => .next s) h t = r) : exec (.fenceDev core 0) s = .next (coreAfter core pc 1 r) :=
  instrDo_eq hr ((noArg_zero _ h t).trans ho)
theorem exec_eret (ho : privileged 1 eretOp h t = r) : exec (.eret core 0) s = .next (coreAfter core pc 1 r) :=
  instrDo_eq hr ((noArg_zero _ h t).trans ho)
theorem exec_wfe (ho : privileged 0 wfeOp h t = r) : exec (.wfe core 0) s = .next (coreAfter core pc 1 r) :=
  instrDo_eq hr ((noArg_zero _ h t).trans ho)
theorem exec_sys {arg : BitVec 5} (ho : privileged 0 (sysOp arg) h t = r) : exec (.sys core arg) s = .next (coreAfter core pc 1 r) :=
  instrDo_eq hr ho

end Instr

/-- Settles O18: the argument is judged first, then the kind of the core and its level, and behind them each instruction is its own
operation. -/
theorem controlInstructionsComplete : Obligations.ControlInstructionsComplete := by
  intro s t h pc
  refine ⟨fun core hr => ⟨exec_nop hr, exec_fence hr, fun arg ha => exec_argument hr ha⟩, fun p hr => ?_, fun p hr => ?_, ?_, ?_⟩
  · obtain rfl := hr.hart_eq
    simp only [List.forall_mem_cons]
    exact ⟨exec_fenceDev hr rfl, exec_eret hr rfl, exec_wfe hr rfl, exec_sys hr rfl, List.forall_mem_nil _⟩
  · obtain rfl := hr.hart_eq
    simp only [List.forall_mem_cons]
    exact ⟨exec_commit hr rfl, exec_end hr rfl, List.forall_mem_nil _⟩
  · rintro p k hr rfl
    obtain rfl := hr.hart_eq
    exact ⟨fun t' ho => ⟨exec_commit hr (atCommit_held _ ho), exec_end hr (atCommit_held _ ho)⟩,
      fun ho => ⟨exec_commit hr (atCommit_waits _ ho), exec_end hr (atCommit_waits _ ho)⟩⟩
  · rintro p c l hr rfl rfl
    obtain rfl := hr.hart_eq
    have hany (body : Nat → State → Res) := privileged_open (Nat.not_lt_zero (levelOf t (supOf p))) body
    have habove (hl : 1 ≤ levelOf t (supOf p)) := privileged_open (Nat.not_lt_of_le hl) eretOp
    refine ⟨exec_fenceDev hr (hany _), exec_wfe hr (hany _), fun hl => ?_, fun hl hlow => ?_, fun hl hlow => ?_, fun arg hl => ?_,
      fun arg hl => ?_⟩
    · exact exec_eret hr (privileged_low (Nat.lt_one_iff.mpr hl) _)
    · exact exec_eret hr ((habove hl).trans (eretOp_above hlow))
    · exact exec_eret hr ((habove hl).trans (eretOp_returns hlow))
    · exact exec_sys hr ((hany _).trans (sysOp_enters arg hl))
    · exact exec_sys hr ((hany _).trans (sysOp_top arg hl))

end Sys2Proof.Machine
end

section
/-! SUPPORT. Serving an exchange (R326, R374, R375, R377, R378, R390, R456): an entry is read, and what its start, its transfers, its terminal
state, its retirement and a held completion record come to. -/

namespace Sys2Proof.Machine

/-! ### A unit acts on a ledger entry (R306, R326) -/

section Entry
variable {s v : State} {d i : Nat} (f : State → State) (hv : v = (entClean s d i).2)
include hv

theorem onEntry_clean (hc : (entClean s d i).1 = true) : onEntry s d i f = f v := by
  subst hv
  exact if_pos hc

/-- An entry with a poisoned word is abandoned. -/
theorem onEntry_poisoned (hc : (entClean s d i).1 = false) : onEntry s d i f = v := by
  subst hv
  exact if_neg (ne_true_of_eq_false hc)

end Entry

theorem engKey_div {die : Nat} (eng : EngNo) : engKey die eng / 16 = die := by
  have := eng.isLt
  unfold engKey
  omega

/-! ### The start (R375, R390, R456) -/

section Start
variable {v : State} {k i : Nat}

/-- An NVMe exchange with a source whose chain has ended submits its command. -/
theorem exchangeStart_active (ha : entState v i = lActive) (hn : isNvme (entKind v i) = true) (hr : entKind v i ≠ xkRead)
    (hd : (getWork v i).chainDone = true) (hc : ((getEng v k).cmds.any (·.index == i)) = false) : exchangeStart v k i = nvStart v k i := by
  unfold exchangeStart
  rw [if_pos ha]
  exact if_pos ⟨hn, hr, hd, by rw [hc]; rfl⟩

variable (ho : entState v i = lOpen)
include ho

theorem not_active_of_open : ¬entState v i = lActive := by rw [ho]; decide

theorem exchangeStart_waits (hw : firstOpen v k i = false ∨ startRoom v k i = false) : exchangeStart v k i = queueWait v k i := by
  unfold exchangeStart
  rw [if_neg (not_active_of_open ho), if_neg (not_not_intro ho)]
  rcases hw with hw | hw
  · exact if_pos (by rw [hw]; rfl)
  · exact (congrArg _ (if_pos (by rw [hw]; rfl))).trans (ite_self _)

variable (hf : firstOpen v k i = true) (hr : startRoom v k i = true)
include hf hr

/-- A poisoned descriptor closes the exchange. -/
theorem exchangeStart_poisoned (hp : (readDesc v (k / 16) i).1 = false) : exchangeStart v k i =
    closeWith (modWork (readDesc v (k / 16) i).2 i fun w => { w with chain := [] }) i rsPoison 0 false := by
  unfold exchangeStart
  rw [if_neg (not_active_of_open ho), if_neg (not_not_intro ho)]
  simp only [hf, hr, hp, Bool.not_true, Bool.not_false, Bool.false_eq_true, true_or, ↓reduceIte]

variable {t : State} {chain : List Word} (hp : (readDesc v (k / 16) i).1 = true) (ht : t = issueNote (readDesc v (k / 16) i).2 (k / 16) i)
  (hch : chain = if xformOf t i = 0 then [] else (chainWords t (xCtx t (k / 16) i) i).toOption.getD [])
include hp ht hch

theorem exchangeStart_begins (he : issueFault t (k / 16) i = none) : exchangeStart v k i =
    beginWork (modWork (setEnt (setEntF t i 0 63 60 lActive) i 7 0) i fun w =>
      { w with staged := stageUnits t i, started := true, chain := chain }) k i := by
  subst hch ht
  unfold exchangeStart
  rw [if_neg (not_active_of_open ho), if_neg (not_not_intro ho)]
  simp only [hf, hr, hp, he, Bool.not_true, Bool.false_eq_true, false_or, ↓reduceIte]

theorem exchangeStart_fails {e : Nat} (he : issueFault t (k / 16) i = some e) : exchangeStart v k i =
    closeWith (modWork t i fun w => { w with chain := chain }) i e 0 false := by
  subst hch ht
  unfold exchangeStart
  rw [if_neg (not_active_of_open ho), if_neg (not_not_intro ho)]
  simp only [hf, hr, hp, he, Bool.not_true, Bool.false_eq_true, false_or, ↓reduceIte]

end Start

section Begin
variable {t : State} {k i : Nat}

theorem beginWork_direct (h : xformOf t i = 0 ∨ (getWork t i).chainDone = true) :
    beginWork t k i = if isNvme (entKind t i) then nvStart t k i else t := if_pos h

variable {u : State} (hx : xformOf t i ≠ 0) (hd : (getWork t i).chainDone = false) (hu : u = ptFill t (k / 16) .ptt (entPart t i))
include hx hd hu

theorem beginWork_chainFault {st code : Nat} (hc : chainCheck u (k / 16) i (chainOf u i) = some (st, code)) :
    beginWork t k i = chainError u (k / 16) i st code := by
  subst hu
  simp [beginWork, hx, hd, hc]

theorem beginWork_chain (hc : chainCheck u (k / 16) i (chainOf u i) = none) :
    beginWork t k i = if entKind t i = xkRead then nvStart u k i else chainStart u (k / 16) i := by
  subst hu
  simp [beginWork, hx, hd, hc]

end Begin

/-! ### Transfers and the end (R374, R375, R377) -/

section Transfer
variable {v : State} {k i : Nat} (ha : entState v i = lActive)
include ha

theorem transferDone_move (hk : entKind v i = xkMove) (hx : xformOf v i = 0) : transferDone v k i = moveWords v (k / 16) i := by
  simp [transferDone, ha, hk, hx]

/-- A MOVE or a read with a chain closes once the chain has ended. -/
theorem transferDone_chain (hk : entKind v i = xkMove ∨ entKind v i = xkRead) (hx : xformOf v i ≠ 0) :
    transferDone v k i = if (getWork v i).chainDone then closeOk v i else v := by
  simp [transferDone, ha, hk, hx]

end Transfer

theorem moveWords_ok {s : State} {d i len : Nat} {c : Ctx} {ws : List Word} {bs : List (Nat × Nat)} (hc : c = xCtx s d i)
    (hs : sourceWords s c i = .ok ws) (hb : destBufs s c i = .ok bs) (hl : len = wfld (descWord s i 4) 31 0) :
    moveWords s d i = closeOk (setXlen (fillBufs (readSource s c i) c (hintOf s i) bs (ws.take len)).1 i len) i := by
  subst hc hl
  simp [moveWords, hs, hb]

theorem terminalWrite_closing {v t u : State} {q i : Nat} (hs : entState v i = lClosing) (hq : q = servingFor v (entOwner v i))
    (ht : t = termDecide (failedResult (spoilDest v i) i) i) (hu : u = if entKind t i = xkSend then sndClear t i else t) :
    terminalWrite v i = modWork (nvDrop (unserve u q i) q i) i fun w => { w with staged := 0, data := [] } := by
  subst hu ht hq
  exact if_pos hs

theorem ledgerRetire_delivered {v : State} {d i : Nat} (ht : isTerminal (entState v i) = true) (hb : wbit (ent v i 0) 40 = true)
    (hd : entDur v i = false ∨ (getWork v i).termDone = true) : ledgerRetire v d i = retire v d i := by
  refine if_pos ?_
  rw [ht, hb]
  rcases hd with hd | hd <;> simp [hd]

/-! ### A held completion record (R378) -/

section Held
variable {s : State} {d n : Nat} {h : HeldRec} {r : Bool × State} (hh : (getChan s d).held[n]? = some h) (hr : r = crTake s d h.part h.words)
include hh hr

theorem recordRetry_full (hf : r.1 = false) : recordRetry s d n = r.2 := by
  subst hr
  simp [recordRetry, hh, hf]

variable {t : State} (ht : t = modChan r.2 d fun c => { c with held := dropAt c.held n }) (hw : r.1 = true)
include ht hw

theorem recordRetry_exchange {j : Nat} (hi : h.index = some j) : recordRetry s d n = setEntF t j 0 40 40 1 := by
  subst ht hr
  simp [recordRetry, hh, hw, hi]

/-- The record of a refusal is written, and the intake that it held goes on where no other holds it. -/
theorem recordRetry_refusal {e : Nat} (hi : h.index = none) (he : e = servingFor t h.eng) : recordRetry s d n =
    drain (modEng t e fun x => { x with blocked := (getChan t d).held.any fun q => q.index.isNone && servingFor t q.eng == e }) e := by
  subst he ht hr
  simp [recordRetry, hh, hw, hi]

end Held

/-- Settles O34: behind the guard of its unit each command acts on a clean entry, by the branch that the entry's state selects. -/
theorem exchangesStartTransferAndRetire : Obligations.ExchangesStartTransferAndRetire := by
  rintro s die eng index k i rfl rfl hdie
  have hdiv : engKey die eng / 16 = die := engKey_div eng
  have hserves (hup : engUp s (engKey die eng) = true) (hsv : serves s (engKey die eng) index.toNat = true) :
      (engUp s (engKey die eng) && serves s (engKey die eng) index.toNat) = true := by rw [hup, hsv]; rfl
  refine ⟨fun v hv => ⟨fun hup hsv hc => ?_, fun hup hsv hc => ?_, fun hlive hldg => ?_⟩, ?_, ?_, ?_⟩
  · exact ⟨unitDo_eq hdie (hserves hup hsv) (onEntry_poisoned _ hv hc), unitDo_eq hdie (hserves hup hsv) (onEntry_poisoned _ hv hc)⟩
  · have hstart {t : State} (h : exchangeStart v (engKey die eng) index.toNat = t) : exec (.exchangeStart die eng index) s = .next t :=
      unitDo_eq hdie (hserves hup hsv) ((onEntry_clean _ hv hc).trans h)
    have hdone {t : State} (h : transferDone v (engKey die eng) index.toNat = t) : exec (.transferDone die eng index) s = .next t :=
      unitDo_eq hdie (hserves hup hsv) ((onEntry_clean _ hv hc).trans h)
    refine ⟨fun t chain ho hf hr hp ht hch => ⟨fun he => ?_, fun e he => ?_⟩, fun ho hf hr hp => ?_, fun ho hw => ?_,
      fun ha hn hr hd hcmd => ?_, fun ha hk hx => ?_, fun ha hk hx => ?_⟩
    · rw [← hdiv] at hp ht hch he
      exact hstart (exchangeStart_begins ho hf hr hp ht hch he)
    · rw [← hdiv] at hp ht hch he
      exact hstart (exchangeStart_fails ho hf hr hp ht hch he)
    · rw [← hdiv] at hp ⊢
      exact hstart (exchangeStart_poisoned ho hf hr hp)
    · exact hstart (exchangeStart_waits ho hw)
    · exact hstart (exchangeStart_active ha hn hr hd hcmd)
    · exact hdone ((transferDone_move ha hk hx).trans (by rw [hdiv]))
    · exact hdone (transferDone_chain ha hk hx)
  · have hreach : (dieLive s die && ldgDie s index.toNat == some (die : Nat)) = true := by rw [hlive, hldg]; exact beq_self_eq_true _
    refine ⟨fun hc => unitDo_eq hdie hreach (onEntry_poisoned _ hv hc), fun q t u hc hs hq ht hu =>
      unitDo_eq hdie hreach ((onEntry_clean _ hv hc).trans (terminalWrite_closing hs hq ht hu)), fun hl => ?_⟩
    have hreaches : (dieLive s die && ldgDie s index.toNat == some (die : Nat) && (getChan s die).live.contains index.toNat) = true := by
      rw [hreach, hl]; rfl
    exact ⟨fun hc => unitDo_eq hdie hreaches (onEntry_poisoned _ hv hc), fun hc ht hb hd =>
      unitDo_eq hdie hreaches ((onEntry_clean _ hv hc).trans (ledgerRetire_delivered ht hb hd))⟩
  · rintro t d kind rfl rfl
    exact ⟨beginWork_direct, fun u hx hd hu => ⟨fun st code => beginWork_chainFault hx hd hu, beginWork_chain hx hd hu⟩⟩
  · exact fun c ws bs hc hs hb len hl => moveWords_ok hc hs hb hl
  · intro hlive n h r t hh hr ht
    exact ⟨fun hf => unitDo_eq hdie hlive (recordRetry_full hh hr hf),
      fun j hw hi => unitDo_eq hdie hlive (recordRetry_exchange hh hr ht hw hi),
      fun e hw hi he => unitDo_eq hdie hlive (recordRetry_refusal hh hr ht hw hi he)⟩

end Sys2Proof.Machine
end

section
/-! SUPPORT. The key vault (R306, R472, R475, R476, R483, R566): the guard of `WAD_KVCMD`, what each of its commands answers, and how the
answer ends the command. -/

namespace Sys2Proof.Machine

/-! ### The command register (R475, R483, R566) -/

/-- The end of a vault command: its fields and its `ERR` stand in `WAD_KVCMD`, and source 0x304 is raised. -/
def kvEnd (src dst cmd err : Nat) (t : State) : State :=
  evRaise (setReg t 0 bWad rWadKvcmd (cmd * 2 ^ 27 + err * 2 ^ 24 + src * 2 ^ 12 + dst)) 0 0x304

section Command
variable {s t : State} {cmd src dst : Nat}

variable (ho : regOpen s 0 bWad rWadKvcmd = true) (hd : dieLive s 0 = true) (hb : blkEn s 0 bWad = true)
include ho hd hb

theorem kvDo_acts : kvDo s cmd src dst = .next (kvCommand s cmd src dst) := regDo_live _ ho (by rw [hd, hb]; rfl)

theorem kvDo_busy (h : StillRuns s 0 bWad rWadKvcmd 0 t) : kvDo s cmd src dst =
    .next (reject (setReg t 0 bWad rWadKvcmd (cmd * 2 ^ 27 + getF t 0 bWad rWadKvcmd 26 24 * 2 ^ 24 + src * 2 ^ 12 + dst)) 0 bWad) :=
  (kvDo_acts ho hd hb).trans (congrArg _ (startCmd_busy _ _ h))

variable {r : State} (h : Starts s 0 bWad rWadKvcmd 0 t) (hc : ¬(cmd = 0 ∨ 6 ≤ cmd)) (hr : kvRead t cmd = r)
include h

theorem kvDo_starts : kvDo s cmd src dst = .next (kvRun t cmd src dst) :=
  (kvDo_acts ho hd hb).trans (congrArg _ (startCmd_go _ _ h))

include hc hr

theorem kvDo_fails {e : Nat} (he : kvEffect r cmd src dst = .error e) : kvDo s cmd src dst = .next (kvEnd src dst cmd e r) := by
  rw [kvDo_starts ho hd hb h, kvRun_eq hc hr, he]
  rfl

theorem kvDo_ends {u : State} (he : kvEffect r cmd src dst = .ok u) : kvDo s cmd src dst = .next (kvEnd src dst cmd 0 u) := by
  rw [kvDo_starts ho hd hb h, kvRun_eq hc hr, he]
  rfl

end Command

/-! ### What each command does (R472, R475, R476) -/

section Effect
variable {r : State} {a b : Nat} {v : KeySlot} {bytes key : List Nat}

theorem kvEffect_gen_free (hb : vaultSlot r b = none) :
    kvEffect r 1 a b = .ok (setSlot (freeWords 4 r).2 b (some (withAttr r (bytesOf (freeWords 4 r).1)))) := by
  simp [kvEffect, hb]

theorem kvEffect_gen_used (hb : vaultSlot r b = some v) : kvEffect r 1 a b = .error 1 := by simp [kvEffect, hb]

theorem kvEffect_setattr_free (hb : vaultSlot r b = none) : kvEffect r 4 a b = .error 1 := by simp [kvEffect, hb]

theorem kvEffect_setattr_used (hb : vaultSlot r b = some v) :
    kvEffect r 4 a b = .ok (forgetKey (setSlot r b (some (withAttr r v.key))) b) := by simp [kvEffect, hb]

/-- Neither an import nor a derivation goes into a slot in use, or from an empty one. -/
theorem kvEffect_slots (h : (vaultSlot r b).isSome = true ∨ vaultSlot r a = none) :
    kvEffect r 2 a b = .error 1 ∧ kvEffect r 3 a b = .error 1 := by
  rcases h with h | h
  · obtain ⟨w, hw⟩ := Option.isSome_iff_exists.mp h
    simp [kvEffect, hw]
  · cases hb : vaultSlot r b <;> simp [kvEffect, h, hb]

variable (hb : vaultSlot r b = none) (ha : vaultSlot r a = some v)
include hb ha

theorem kvEffect_import_use (hu : bitOf v.uses 3 = false) : kvEffect r 2 a b = .error 2 := by simp [kvEffect, hb, ha, hu]

theorem kvEffect_derive_use (hu : bitOf v.uses 4 = false) : kvEffect r 3 a b = .error 2 := by simp [kvEffect, hb, ha, hu]

theorem kvEffect_import_poison (hu : bitOf v.uses 3 = true) (hk : kvBytes r 5 = none) : kvEffect r 2 a b = .error 4 := by
  simp [kvEffect, hb, ha, hu, hk]

theorem kvEffect_derive_poison (hu : bitOf v.uses 4 = true) (hk : kvBytes r 8 = none) : kvEffect r 3 a b = .error 4 := by
  simp [kvEffect, hb, ha, hu, hk]

theorem kvEffect_import_wrapping (hu : bitOf v.uses 3 = true) (hk : kvBytes r 5 = some bytes)
    (hw : keyUnwrap (aesKeys v.key) bytes = none) : kvEffect r 2 a b = .error 3 := by
  simp [kvEffect, hb, ha, hu, hk, hw]

theorem kvEffect_import_key (hu : bitOf v.uses 3 = true) (hk : kvBytes r 5 = some bytes)
    (hw : keyUnwrap (aesKeys v.key) bytes = some key) : kvEffect r 2 a b = .ok (setSlot r b (some (withAttr r key))) := by
  simp [kvEffect, hb, ha, hu, hk, hw]

theorem kvEffect_derive_key (hu : bitOf v.uses 4 = true) (hk : kvBytes r 8 = some bytes) :
    kvEffect r 3 a b = .ok (setSlot r b (some (withAttr r (hmac sha256 v.key bytes)))) := by
  simp [kvEffect, hb, ha, hu, hk]

end Effect

/-- Settles O44: behind the guard of its register a command is refused, or ends with what the slots and the words that it reads make of it. -/
theorem vaultCommandsComplete : Obligations.VaultCommandsComplete := by
  rintro s ho hd hb src dst a b rfl rfl
  refine ⟨?_, ?_⟩
  · rintro t fields h rfl
    have hbusy (cmd : Nat) := kvDo_busy (cmd := cmd) (src := src.toNat) (dst := dst.toNat) ho hd hb h
    exact ⟨hbusy 1, hbusy 2, hbusy 3, hbusy 4, hbusy 5⟩
  · intro t h done hdone
    obtain rfl : done = kvEnd src.toNat dst.toNat := funext fun cmd => funext fun err => funext fun t => hdone cmd err t
    have fails {cmd e : Nat} {r : State} (hc : ¬(cmd = 0 ∨ 6 ≤ cmd)) (hr : kvRead t cmd = r) :=
      kvDo_fails (e := e) (src := src.toNat) (dst := dst.toNat) ho hd hb h hc hr
    have ends {cmd : Nat} {r u : State} (hc : ¬(cmd = 0 ∨ 6 ≤ cmd)) (hr : kvRead t cmd = r) :=
      kvDo_ends (u := u) (src := src.toNat) (dst := dst.toNat) ho hd hb h hc hr
    refine ⟨?_, fun v hv => fails (by decide) rfl (kvEffect_gen_used hv), ?_, ?_,
      fun v hv => ends (by decide) rfl (kvEffect_setattr_used hv), fun hv => fails (by decide) rfl (kvEffect_setattr_free hv),
      ends (cmd := 5) (by decide) rfl rfl⟩
    · rintro f hv rfl
      exact ends (by decide) rfl (kvEffect_gen_free hv)
    · rintro r rfl
      have importFails {e : Nat} := fails (e := e) (by decide) (kvRead_import t)
      refine ⟨fun hs => importFails (kvEffect_slots hs).1, fun v hfree hv => ⟨fun hu => ?_, fun hu hk => ?_,
        fun bytes hu hk => ⟨fun hw => ?_, fun key hw => ?_⟩⟩⟩
      · exact importFails (kvEffect_import_use hfree hv hu)
      · exact importFails (kvEffect_import_poison hfree hv hu hk)
      · exact importFails (kvEffect_import_wrapping hfree hv hu hk hw)
      · exact ends (by decide) (kvRead_import t) (kvEffect_import_key hfree hv hu hk hw)
    · rintro r rfl
      have deriveFails {e : Nat} := fails (e := e) (by decide) (kvRead_derive t)
      refine ⟨fun hs => deriveFails (kvEffect_slots hs).2, fun v hfree hv => ⟨fun hu => ?_, fun hu hk => ?_, fun bytes hu hk => ?_⟩⟩
      · exact deriveFails (kvEffect_derive_use hfree hv hu)
      · exact deriveFails (kvEffect_derive_poison hfree hv hu hk)
      · exact ends (by decide) (kvRead_derive t) (kvEffect_derive_key hfree hv hu hk)

end Sys2Proof.Machine
end

section
/-! SUPPORT. A detector's report (R325, R512, R513, R517, R521, R546): which reports act, and what the report of a wire, of memory, of a PE
and of another unit comes to. -/

namespace Sys2Proof.Machine

/-! ### Which reports act (R512, R513, R546) -/

section Ignored
variable {s : State} {r : DetReport} {k : UnitKind}

theorem detection_absent (he : detExists s r.die r.det.toNat r.block.toNat r.unit.toNat = false) : detection s r = s :=
  if_pos (by rw [he]; rfl)

theorem detection_outOfService
    (hs : unitServes s r.die r.block.toNat (unitKind r.die r.block.toNat r.unit.toNat r.det.toNat) = false) : detection s r = s :=
  if_pos (by rw [hs]; exact Bool.or_true _)

end Ignored

/-- The report acts from `t`: its detector exists, its unit serves, and an injection that it comes from is armed and used up (R546). -/
structure DetActs (s : State) (r : DetReport) (t : State) : Prop where
  named : detExists s r.die r.det.toNat r.block.toNat r.unit.toNat = true
  serves : unitServes s r.die r.block.toNat (unitKind r.die r.block.toNat r.unit.toNat r.det.toNat) = true
  start : r.inj = false ∧ t = s ∨ r.inj = true ∧ ((getDie s r.die).inj.any fun j => injFits j r) = true ∧ t = injUse s r.die

/-- A report whose injection is not armed changes nothing. -/
theorem detection_notArmed {s : State} {r : DetReport} (hi : r.inj = true) (ha : ((getDie s r.die).inj.any fun j => injFits j r) = false) :
    detection s r = s := by
  unfold detection
  simp only [hi, ha]
  exact ite_self s

section Acts
variable {s t : State} {r : DetReport} {k : UnitKind} (h : DetActs s r t) (hk : k = unitKind r.die r.block.toNat r.unit.toNat r.det.toNat)
include h

/-- What a report that acts does, by what was found and by the unit. -/
theorem detection_acts : detection s r = match r.found, unitKind r.die r.block.toNat r.unit.toNat r.det.toNat with
    | .wire n, _ => wireReport t r n
    | _, .pe p =>
      if r.det.toNat = 0x0713 then powerReport t r else if r.det.toNat < 0x0200 then peReport t r p else unitReport t r
    | _, _ =>
      if r.det.toNat = 0x0702 ∨ r.det.toNat = 0x070A ∨ r.det.toNat = 0x070B ∨ r.det.toNat = 0x0712 then powerReport t r
      else unitReport t r := by
  obtain ⟨hn, hs, ⟨hi, rfl⟩ | ⟨hi, ha, rfl⟩⟩ := h
  · unfold detection
    dsimp only
    rw [hn, hs, hi]
    rfl
  · unfold detection
    dsimp only
    rw [hn, hs, hi, ha]
    rfl

theorem detection_wire {n : Nat} (hf : r.found = .wire n) : detection s r = wireReport t r n := by
  rw [detection_acts h, hf]

include hk

theorem detection_pe {p : Nat} (hp : k = .pe p) (hf : ∀ n, r.found ≠ .wire n) (h1 : r.det.toNat < 0x0200) : detection s r = peReport t r p := by
  rw [detection_acts h, ← hk, hp]
  cases hr : r.found with
  | wire n => exact absurd hr (hf n)
  | _ => exact (if_neg (by omega)).trans (if_pos h1)

theorem detection_unit (hp : ∀ p, k ≠ .pe p) (hf : ∀ n, r.found ≠ .wire n)
    (h1 : ¬(r.det.toNat = 0x0702 ∨ r.det.toNat = 0x070A ∨ r.det.toNat = 0x070B ∨ r.det.toNat = 0x0712)) : detection s r = unitReport t r := by
  rw [detection_acts h, ← hk]
  cases hr : r.found with
  | wire n => exact absurd hr (hf n)
  | _ => cases k with
    | pe p => exact absurd rfl (hp p)
    | _ => exact if_neg h1

end Acts

/-! ### Which unit a detector names (R517) -/

/-- The detectors whose wire fault is FATAL (R513). -/
abbrev WireFatal (det : Nat) : Prop := det = 0x0701 ∨ det = 0x0702 ∨ det = 0x0708 ∨ det = 0x070A ∨ det = 0x0807 ∨ det = 0x0F11

section Named
variable {s : State} {d det b u : Nat}

/-- They are detectors of a die's power and clock, of the Masthead and of the system block. -/
theorem unitKind_wireFatal (h : detExists s d det b u = true) (hd : WireFatal det) :
    unitKind d b u det = .die d ∨ unitKind d b u det = .block := by
  rcases hd with rfl | rfl | rfl | rfl | rfl | rfl <;> simp [detExists] at h
  · exact .inl (by rw [h.1]; rfl)
  · exact .inl (by rw [h.1]; rfl)
  · exact .inl (by rw [h.1]; rfl)
  · exact .inl (by rw [h.1]; rfl)
  · exact .inr (by rw [h.1.1]; rfl)
  · exact .inr (by rw [h.1.1]; rfl)

theorem unitKind_memory (h : detExists s d det b u = true) (hd : det = 0x0311) : unitKind d b u det = .die d := by
  subst hd
  simp [detExists] at h
  rw [h.1]
  rfl

end Named

/-! ### What the report of a unit comes to (R95, R325, R517) -/

section Unit
variable {t : State} {r : DetReport}

theorem fenceUnit_spar {g det : Nat} (hk : unitKind r.die r.block.toNat r.unit.toNat r.det.toNat = .spar g) :
    fenceUnit t r det = sparOut (report t r.die r.block.toNat r.unit.toNat det cContained 0x07 r.addr r.tag r.info r.inj) g := by
  unfold fenceUnit; dsimp only; rw [hk]

theorem fenceUnit_engine {e det : Nat} (hk : unitKind r.die r.block.toNat r.unit.toNat r.det.toNat = .engine e) : fenceUnit t r det =
    report (modEng t e fun x => { x with out := true }) r.die r.block.toNat r.unit.toNat det cContained 0x07 r.addr r.tag r.info r.inj := by
  unfold fenceUnit; dsimp only; rw [hk]

theorem wireReport_glitch {n : Nat} (h : n = 1 ∨ n = 2) : wireReport t r n = count t r.die bMdr rMdrGlitchcnt := by
  rcases h with rfl | rfl <;> rfl

theorem wireReport_fatal {n : Nat} (hn : 2 < n) (hd : WireFatal r.det.toNat) : wireReport t r n =
    report t r.die r.block.toNat r.unit.toNat 0x0F01 cFatal 0x0C r.addr r.tag r.info r.inj :=
  (if_neg (by omega)).trans ((if_neg (by omega)).trans (if_pos hd))

theorem wireReport_fences {n : Nat} (hn : 2 < n) (hd : ¬WireFatal r.det.toNat) : wireReport t r n = fenceUnit t r 0x0F01 :=
  (if_neg (by omega)).trans ((if_neg (by omega)).trans (if_neg hd))

theorem peReport_transient {p : Nat} (hf : r.found = .error) (hd : r.det.toNat = 0x0101) :
    peReport t r p = transient t p 0x0101 0 r.info r.inj := by
  unfold peReport; rw [hf, hd]; rfl

theorem unitReport_memCorrected (hf : r.found = .corrected) (hd : r.det.toNat = 0x0311) : unitReport t r =
    report (count t r.die bMem (rMemCecnt + r.unit.toNat)) r.die r.block.toNat r.unit.toNat 0x0311 cCorrected 0x00 r.addr r.tag r.info r.inj := by
  unfold unitReport; rw [hf, hd]; rfl

theorem unitReport_memWords {l : List (BitVec 49)} (hf : r.found = .words l) (hd : r.det.toNat = 0x0311) : unitReport t r =
    report (poisonList (count t r.die bMem (rMemUecnt + r.unit.toNat)) l) r.die r.block.toNat r.unit.toNat 0x0311 cDeferred 0x05
      r.addr r.tag r.info r.inj := by
  unfold unitReport; rw [hf, hd]; rfl

theorem unitReport_flitLost (hf : r.found = .error) (hd : r.det.toNat = 0x0111 ∨ r.det.toNat = 0x0401 ∨ r.det.toNat = 0x0505) :
    unitReport t r = report (countF t r.die bSch rSchFlitcnt 31 16 1) r.die r.block.toNat r.unit.toNat r.det.toNat cDeferred 0x06
      r.addr r.tag r.info r.inj := by
  unfold unitReport
  rcases hd with hd | hd | hd <;> rw [hf, hd] <;> rfl

theorem unitReport_multiplier (hf : r.found = .error) (hd : r.det.toNat = 0x0708) : unitReport t r =
    report (setF t r.die bClk rClkStat 30 30 0) r.die r.block.toNat r.unit.toNat 0x0708 cFatal 0x0C r.addr r.tag r.info r.inj := by
  unfold unitReport; rw [hf, hd]; rfl

theorem unitReport_fences (hf : r.found = .error) (hd : r.det.toNat = 0x0113 ∨ r.det.toNat = 0x0503) :
    unitReport t r = fenceUnit t r r.det.toNat := by
  unfold unitReport
  rcases hd with hd | hd <;> rw [hf, hd] <;> rfl

end Unit

/-- Settles O49: a report that acts is a wire's, a PE's or another unit's, and each is recorded as its detector says. -/
theorem detectionsAreRecordedAndContained : Obligations.DetectionsAreRecordedAndContained := by
  rintro s r d b u det k rfl rfl rfl rfl hd hup hk
  have hdo {t : State} (h : detection s r = t) : exec (.faultDetection r) s = .next t := unitDo_eq hd hup h
  refine ⟨fun he => hdo (detection_absent he), fun _ hs => hdo (detection_outOfService (hk ▸ hs)), fun he hs =>
    ⟨fun hi ha => hdo (detection_notArmed hi ha), fun t ht => ?_⟩⟩
  have h : DetActs s r t := ⟨he, hk ▸ hs, ht⟩
  refine ⟨fun n hf => ⟨fun hn => ?_, fun hn hfatal => ?_, fun e hn he' => ?_⟩, fun hmem => ?_,
    fun hf => ⟨fun p hp hdet => ?_, fun g hg hdet => ?_, fun e he' hdet => ?_, fun hflit hp => ?_, fun hdet hp => ?_⟩⟩
  · exact hdo ((detection_wire h hf).trans (wireReport_glitch hn))
  · exact hdo ((detection_wire h hf).trans (wireReport_fatal hn hfatal))
  · subst he'
    have hd : ¬WireFatal r.det.toNat := fun hfatal => by rcases unitKind_wireFatal he hfatal with h | h <;> rw [h] at hk <;> cases hk
    exact hdo ((detection_wire h hf).trans ((wireReport_fences hn hd).trans (fenceUnit_engine hk.symm)))
  · have hp (p : Nat) : k ≠ .pe p := by rw [hk, unitKind_memory he hmem]; exact UnitKind.noConfusion
    have hunit (hf : ∀ n, r.found ≠ .wire n) := detection_unit h hk hp hf (by omega)
    exact ⟨fun hf => hdo ((hunit (by simp [hf])).trans (unitReport_memCorrected hf hmem)),
      fun l hf => hdo ((hunit (by simp [hf])).trans (unitReport_memWords hf hmem))⟩
  · exact hdo ((detection_pe h hk hp (by simp [hf]) (by omega)).trans (peReport_transient hf hdet))
  · subst hg
    refine hdo ((detection_unit h hk (by simp) (by simp [hf]) (by omega)).trans ((unitReport_fences hf (.inl hdet)).trans ?_))
    rw [fenceUnit_spar hk.symm, hdet]
  · subst he'
    refine hdo ((detection_unit h hk (by simp) (by simp [hf]) (by omega)).trans ((unitReport_fences hf (.inr hdet)).trans ?_))
    rw [fenceUnit_engine hk.symm, hdet]
  · exact hdo ((detection_unit h hk hp (by simp [hf]) (by omega)).trans (unitReport_flitLost hf hflit))
  · exact hdo ((detection_unit h hk hp (by simp [hf]) (by omega)).trans ((unitReport_multiplier hf hdet).trans (by rw [hdet])))

end Sys2Proof.Machine
end

section
/-! SUPPORT. The event controller (R343, R345, R353, R355, R359 to R363): what a raise, a completion and a routing do to a source in each of
its states, and what a core does with the offers in its slots. -/

namespace Sys2Proof.Machine

/-! ### A raise reaches a source (R359, R360) -/

section Raise
variable {s : State} {d k : Nat}

section Take
variable {soft counted : Bool}

theorem evTake_idle (h : evState s d k = evIdle) :
    evTake s d k soft counted = if evOn s d k || soft then setEv s d k evPending (bitOf (evCfg s d k) 23) else s := by
  unfold evTake; dsimp only; rw [h]; rfl

theorem evTake_pending (h : evState s d k = evPending) :
    evTake s d k soft counted = if counted then count s d bEvc rEvcMergecnt else s := by
  unfold evTake; dsimp only; rw [h]; rfl

theorem evTake_offered (h : evState s d k = evOffered) : evTake s d k soft counted = if counted then setEv s d k evOffered true else s := by
  unfold evTake; dsimp only; rw [h]; rfl

theorem evTake_active (h : evState s d k = evActive) : evTake s d k soft counted =
    if counted then setEv (if bitOf (evCfg s d k) 23 then count s d bEvc rEvcMergecnt else s) d k evActive true else s := by
  unfold evTake; dsimp only; rw [h]; rfl

end Take

/-! ### A completion (R360, R362) -/

theorem evComplete_notActive (h : evState s d k ≠ evActive) : evComplete s d k = count s d bEvc rEvcBaddone := if_neg h

section Active
variable {t : State} (h : evState s d k = evActive) (ht : t = typeNow s d k)
include h ht

/-- Nothing has come since the acceptance: the source is done. -/
theorem evComplete_done (hr : bitOf (evCfg t d k) 23 = false) (hl : (bitOf (evCfg t d k) 30 && bitOf (evCfg t d k) 22) = false) :
    evComplete s d k = setEv t d k evIdle false := by
  subst ht
  exact (if_pos h).trans ((if_neg (ne_true_of_eq_false hr)).trans (if_neg (ne_true_of_eq_false hl)))

/-- The source was raised again, or its level is asserted still. -/
theorem evComplete_again (hr : bitOf (evCfg t d k) 23 = true ∨ (bitOf (evCfg t d k) 30 && bitOf (evCfg t d k) 22) = true) :
    evComplete s d k = setEv t d k evPending false := by
  subst ht
  refine (if_pos h).trans ?_
  unfold evFinish
  dsimp only
  rcases hr with hr | hl
  · rw [if_pos hr]
  · rw [if_pos hl, ite_self]

end Active

/-- A global source number names its die and its local source (R362). -/
theorem completeSource_local (hk : k < 4096) : completeSource s (4096 * d + k) = forgetActive (evComplete s d k) (4096 * d + k) := by
  have hdie : (4096 * d + k) / 4096 = d := by omega
  have hno : (4096 * d + k) % 4096 = k := by omega
  unfold completeSource
  rw [hdie, hno]

end Raise

/-! ### A pending source is routed (R361) -/

section Route
variable {s : State} {d k c : Nat}

theorem routeEvent_candidate (hr : routable s d k = true) (hc : candidate s d k = some c) :
    routeEvent s d k = if outranked s d k c then s else placeOffer s d k c := by
  unfold routeEvent
  rw [if_pos hr, hc]
  rfl

theorem routeEvent_waits (h : routable s d k = false ∨ candidate s d k = none) : routeEvent s d k = s := by
  unfold routeEvent
  rcases h with h | h
  · exact if_neg (ne_true_of_eq_false h)
  · rw [h]; exact ite_self s

end Route

/-! ### A core accepts an offer (R343, R345, R362) -/

section Accept
variable {s : State} {c epc : Nat} (hepc : epc = (getSup s c).regs.pc.toNat)

theorem acceptEvent_neither (ho : acceptsOpen s c = false) (hz : acceptsSealed s c = false) : acceptEvent s c = s := by
  unfold acceptEvent; simp only [ho, hz, Bool.and_self, Bool.false_eq_true, if_false]

include hepc

theorem acceptEvent_open (ho : acceptsOpen s c = true) (hz : acceptsSealed s c = false) :
    acceptEvent s c = enterLevel s c 1 0x100 tEvent 0 0 0 epc := by
  subst hepc
  unfold acceptEvent; simp only [ho, hz, Bool.and_false, Bool.false_eq_true, if_false, if_true]

theorem acceptEvent_sealed (hz : acceptsSealed s c = true) (ho : acceptsOpen s c = false) :
    acceptEvent s c = enterLevel s c 2 0x100 tEvent 0 0 0 epc := by
  subst hepc
  unfold acceptEvent; simp only [ho, hz, Bool.and_true, Bool.false_eq_true, if_false, if_true]

/-- Which of two offers is accepted is a free value. -/
theorem acceptEvent_both (hz : acceptsSealed s c = true) (ho : acceptsOpen s c = true) : acceptEvent s c =
    enterLevel (takeFree s).2 c (if wbit (takeFree s).1 0 then 2 else 1) 0x100 tEvent 0 0 0 epc := by
  subst hepc
  unfold acceptEvent; simp only [ho, hz, Bool.and_self, if_true]

end Accept

/-! ### The commands -/

section Commands
variable {s t : State} {die : DieNo} {source : Fin 4096}

theorem exec_eventRaise (on : Bool) (hd : (die : Nat) < nDies s.part) (hl : dieLive s die = true) (hu : unitRaises die source = true) :
    exec (.eventRaise die ⟨source, on⟩) s = .next (evInput s die source on) := unitDo_live _ hd (by rw [hl, hu]; rfl)

theorem exec_eventRaise_soft (on : Bool) (hd : (die : Nat) < nDies s.part) (hu : unitRaises die source = false) :
    exec (.eventRaise die ⟨source, on⟩) s = .next s := unitDo_idle _ hd (by rw [hu]; exact Bool.and_false _)

theorem exec_evcSet (ho : regOpen s die bEvc rEvcSet = true) (hl : dieLive s die = true) :
    exec (.evcSet die source) s = .next (setF (evTake s die source true true) die bEvc rEvcSet 11 0 source) := by
  refine (regDo_live _ ho hl).trans ?_
  rw [Nat.mod_eq_of_lt source.isLt]
  rfl

theorem exec_evcDone (ho : regOpen s die bEvc rEvcDone = true) (hl : dieLive s die = true) (h : evComplete s die source = t) :
    exec (.evcDone die source) s = .next (setF (forgetActive t (4096 * die + source)) die bEvc rEvcDone 11 0 source) := by
  refine (regDo_live _ ho hl).trans ?_
  rw [Nat.mod_eq_of_lt source.isLt, completeSource_local source.isLt, h]

theorem exec_eventRoute (hd : (die : Nat) < nDies s.part) (h : routeEvent s die source = t) :
    exec (.eventRoute die source) s = .next t := by
  refine (onDie_next _ hd).trans ?_
  rw [Nat.mod_eq_of_lt source.isLt, h]

end Commands

section Core
variable {s t : State} {core : SupId} {c : Nat} (hc : c = supOf core) (hd : c / 8 < nDies s.part)
include hc hd

theorem exec_eventAccept (hl : supLive s c = true) (hh : rawHalted s c = false) (h : acceptEvent s c = t) :
    exec (.eventAccept core) s = .next t := by
  subst hc
  exact unitDo_eq hd (by rw [hl, hh]; rfl) h

theorem exec_eventAccept_halted (hh : rawHalted s c = true) : exec (.eventAccept core) s = .next s := by
  subst hc
  exact unitDo_idle _ hd (by rw [hh]; exact Bool.and_false _)

end Core

/-- Settles O31: a source's state selects what a raise and a completion do, its candidate where it is offered, and a core's level which offer
it accepts. -/
theorem eventsReachCores : Obligations.EventsReachCores := by
  refine ⟨?_, fun s die source hd hl => ⟨?_, fun ho => exec_evcSet ho hl, ?_, ?_, ?_, fun v ho => regDo_live _ ho hl, ?_⟩⟩
  · rintro s d k soft counted rep rfl
    exact ⟨evTake_idle, evTake_pending, evTake_offered, evTake_active⟩
  · rintro on t rfl
    exact ⟨exec_eventRaise on hd hl, exec_eventRaise_soft on hd⟩
  · intro ho t ht
    exact ⟨fun hs => exec_evcDone ho hl (evComplete_notActive hs), fun hs hr hv => exec_evcDone ho hl (evComplete_done hs ht hr hv),
      fun hs hr => exec_evcDone ho hl (evComplete_again hs ht hr)⟩
  · intro c hr hc
    have hroute := routeEvent_candidate hr hc
    exact ⟨fun h => exec_eventRoute hd (hroute.trans (if_neg (ne_true_of_eq_false h))),
      fun h => exec_eventRoute hd (hroute.trans (if_pos h))⟩
  · exact fun h => exec_eventRoute hd (routeEvent_waits h)
  · intro core c hc hdie hlive
    have hd : c / 8 < nDies s.part := hdie ▸ hd
    refine ⟨fun hh epc hepc => ⟨fun ho hz => ?_, fun hz ho => ?_, fun hz ho u hu => ?_⟩, fun h => ?_, fun n => ?_⟩
    · exact exec_eventAccept hc hd hlive hh (acceptEvent_open hepc ho hz)
    · exact exec_eventAccept hc hd hlive hh (acceptEvent_sealed hepc hz ho)
    · have hboth := exec_eventAccept hc hd hlive hh (acceptEvent_both hepc hz ho)
      rw [← hu] at hboth
      cases hw : wbit (takeFree s).1 0 with
      | true => exact .inr (by simpa [hw] using hboth)
      | false => exact .inl (by simpa [hw] using hboth)
    · cases hh : rawHalted s c with
      | true => exact exec_eventAccept_halted hc hd hh
      | false =>
        obtain ⟨ho, hz⟩ := h.resolve_left (ne_true_of_eq_false hh)
        exact exec_eventAccept hc hd hlive hh (acceptEvent_neither ho hz)
    · subst hc
      exact unitDo_live _ hd hlive

end Sys2Proof.Machine
end

section
/-! SUPPORT. Built-in tests of PEs and of pairs, and the start of a core held in reset (R342, R535, R537, R538, R566): which end
each comes to. -/

namespace Sys2Proof.Machine

/-! ### The built-in test of a PE (R535) -/

section Pe
variable {s : State} {k d g p : Nat} (hg : g = peSpar k) (hp : p = peNo k) (h : peStat s g p = 2)
include hg hp h

theorem peBist_fails (hd : d = peDie k) :
    peBist s k false = report (setPeStat s g p 3) d (bClu (g % 32)) p 0x0108 cContained 0x07 0 0 0 := by
  subst hd hg hp
  exact if_neg (not_not_intro h)

/-- A PE whose departure is not its first does not return. -/
theorem peBist_departed (hn : (getPe s k).departs ≠ 1) : peBist s k true = setPeStat s g p 3 := by
  subst hg hp
  exact (if_neg (not_not_intro h)).trans (if_neg hn)

/-! A PE that passes after its first departure is a spare, and fills a service slot where one is empty. -/
section Returns
variable {t : State} (hd : d = peDie k) (hf : (getPe s k).departs = 1)
  (ht : t = report (setPeStat s g p 1) d (bClu (g % 32)) p 0x0108 cCorrected 0x0D 0 0 0)
include hd hf ht

theorem peBist_fills {slot : Nat} (he : emptySlot t g = some slot) : peBist s k true = fillSlot t g slot p := by
  subst hd hg hp ht
  refine (if_neg (not_not_intro h)).trans ((if_pos hf).trans ?_)
  rw [he]

theorem peBist_spare (he : emptySlot t g = none) : peBist s k true = t := by
  subst hd hg hp ht
  refine (if_neg (not_not_intro h)).trans ((if_pos hf).trans ?_)
  rw [he]

end Returns
end Pe

/-! ### The built-in test of a fenced pair (R538) -/

section Pair
variable {s : State} {d j : Nat} (h : pairStat s d j = 2)
include h

theorem pairBist_fails : pairBist s d j false = report (setPairStat s d j 3) d bSys j 0x0204 cContained 0x07 0 0 0 :=
  if_neg (not_not_intro h)

theorem pairBist_fencedTwice (hf : 1 < tget (fun _ => 0) (getDie s d).pairFences j) : pairBist s d j true = setPairStat s d j 3 :=
  (if_neg (not_not_intro h)).trans (if_pos hf)

section Returns
variable (hf : tget (fun _ => 0) (getDie s d).pairFences j ≤ 1)
include hf

/-- The lowest core without a pair is served, and held in reset. -/
theorem pairBist_serves {c : Nat} (hc : emptyCore s d = some c) : pairBist s d j true =
    modDie (setPairStat (setPairOf s (8 * d + c) j) d j 0) d fun x => { x with pairReset := x.pairReset ||| 2 ^ c } := by
  refine (if_neg (not_not_intro h)).trans ((if_neg (Nat.not_lt.mpr hf)).trans ?_)
  rw [hc]

theorem pairBist_waits (hc : emptyCore s d = none) : pairBist s d j true = setPairStat s d j 1 := by
  refine (if_neg (not_not_intro h)).trans ((if_neg (Nat.not_lt.mpr hf)).trans ?_)
  rw [hc]

end Returns
end Pair

/-! ### `MDR_PAIRCMD` (R342, R537, R566) -/

section Command
variable {s b : State} {d c : Nat}

theorem pairCommand_busy (h : StillRuns s d bMdr rMdrPaircmd 0 b) : pairCommand s d c = reject (setF b d bMdr rMdrPaircmd 2 0 c) d bMdr := by
  unfold pairCommand
  exact startCmd_busy _ _ h

section Begins
variable {t : State} (h : Starts s d bMdr rMdrPaircmd 0 b) (ht : t = setF b d bMdr rMdrPaircmd 2 0 c)
include h ht

theorem pairCommand_starts (hr : bitOf (getDie b d).pairReset c = true) :
    pairCommand s d c = startCore (modDie t d fun x => { x with pairReset := x.pairReset - 2 ^ c }) (8 * d + c) := by
  subst ht
  unfold pairCommand
  exact (startCmd_go _ _ h).trans (if_pos hr)

/-- A core that is not held in reset is not started, and the command does not run on. -/
theorem pairCommand_rejected (hr : bitOf (getDie b d).pairReset c = false) :
    pairCommand s d c = reject { t with cmdBusy := tdel b.cmdBusy (cmdKey d bMdr rMdrPaircmd 0) } d bMdr := by
  subst ht
  unfold pairCommand
  exact (startCmd_go _ _ h).trans (if_neg (ne_true_of_eq_false hr))

end Begins

theorem exec_mdrPaircmd {t : State} {die : DieNo} {lcore : Fin 8} (ho : regOpen s die bMdr rMdrPaircmd = true) (hl : dieLive s die = true)
    (h : pairCommand s die lcore = t) : exec (.mdrPaircmd die lcore) s = .next t := h ▸ regDo_live _ ho hl

end Command

/-- Settles O47: a test that ends, and a command on a pair, are each the branch that the unit's history selects. -/
theorem retiredUnitsReturnOrStay : Obligations.RetiredUnitsReturnOrStay := by
  refine fun s => ⟨?_, fun die d hdie hd hl => ⟨?_, ?_⟩⟩
  · rintro pe k d g p rfl hdie hg hp hd
    refine ⟨onDie_next _ (hdie ▸ hd), fun hl hs => ?_⟩
    have hdo {pass : Bool} {t : State} (h : peBist s (peOf pe) pass = t) : exec (.peBistDone pe pass) s = .next t :=
      unitDo_eq (hdie ▸ hd) (hdie ▸ hl) h
    exact ⟨hdo (peBist_fails hg hp hs hdie), fun hn => hdo (peBist_departed hg hp hs hn), fun t hf ht =>
      ⟨fun slot he => hdo (peBist_fills hg hp hs hdie hf ht he), fun he => hdo (peBist_spare hg hp hs hdie hf ht he)⟩⟩
  · rintro pair j rfl hs
    subst hdie
    have hdo {pass : Bool} {t : State} (h : pairBist s die pair pass = t) : exec (.pairBistDone die pair pass) s = .next t :=
      unitDo_eq hd hl h
    exact ⟨hdo (pairBist_fails hs), fun hf => hdo (pairBist_fencedTwice hs hf), fun hf =>
      ⟨fun c hc => hdo (pairBist_serves hs hf hc), fun hc => hdo (pairBist_waits hs hf hc)⟩⟩
  · rintro lcore c t ho rfl
    subst hdie
    exact ⟨fun b h => exec_mdrPaircmd ho hl (pairCommand_busy h), fun b h ht =>
      ⟨fun hr => exec_mdrPaircmd ho hl (pairCommand_starts h ht hr), fun hr => exec_mdrPaircmd ho hl (pairCommand_rejected h ht hr)⟩⟩

end Sys2Proof.Machine
end

section
/-! SUPPORT. Reef levels and temperature (R355, R616, R617, R621 to R624, R626 to R628): which step a change of the level takes, how the
limits move, and what the contact, a trip and a sensor do. -/

namespace Sys2Proof.Machine

/-! ### A change of the effective level (R621 to R623) -/

section Reef
variable {s : State}

section Caused
variable {t eff : Nat} (ht : t = reefTarget s)
include ht

section Steady
variable (he : eff = getF s 0 bPwr rPwrReef 5 4) (hp : s.pw.reef = .steady)
include he hp

theorem reefStep_same (h : t = eff) : reefStep s = s := by
  subst ht he
  unfold reefStep
  rw [hp]
  exact if_pos h

/-- For a faster level the voltages rise first. -/
theorem reefStep_raises (h : t < eff) : reefStep s = reefIn ((upDies s).foldl (fun s d => railsAt s t d) s) (.raised t) := by
  subst ht he
  unfold reefStep
  rw [hp]
  exact (if_neg (Nat.ne_of_lt h)).trans (if_pos h)

/-- For a slower level the dividers switch first. -/
theorem reefStep_slows (h : eff < t) : reefStep s = reefIn (switchTo s t) .lowering := by
  subst ht he
  unfold reefStep
  rw [hp]
  exact (if_neg (Nat.ne_of_gt h)).trans (if_neg (Nat.lt_asymm h))

end Steady

/-- A faster level is abandoned for a slower one that a warning or a limit asks for. -/
theorem reefStep_abandons {n : Nat} (hp : s.pw.reef = .raised n) (h : slowDue s = true) : reefStep s = reefIn (switchTo s t) .lowering := by
  subst ht
  unfold reefStep
  rw [hp]
  exact if_pos h

end Caused

theorem reefStep_switches {n : Nat} (hp : s.pw.reef = .raised n) (h : slowDue s = false) : reefStep s = reefIn (switchTo s n) .steady := by
  unfold reefStep
  rw [hp]
  exact if_neg (ne_true_of_eq_false h)

theorem reefStep_lowers (hp : s.pw.reef = .lowering) : reefStep s = reefIn ((upDies s).foldl setRails s) .steady := by
  unfold reefStep
  rw [hp]

theorem exec_reefChange {u : State} (hv : s.pw.hv = true) (hd : dieUp s 0 = true) (h : reefStep s = u) : exec .reefChange s = .next u := by
  refine (congrArg Host.Outcome.next (if_pos ?_)).trans (congrArg _ h)
  rw [hv, hd]
  rfl

end Reef

/-! ### The thermal and the power limit (R626, R627) -/

section Limits
variable {s : State} {l : Nat}

theorem enterTwo_enters (h : s.pw.level2 = false) : enterTwo s = enterThermal { s with pw := { s.pw with level2 := true } } true :=
  if_neg (ne_true_of_eq_false h)

section Thermal
variable (hl : l = getF s 0 bPwr rPwrReef 7 6)
include hl

theorem hotStep_first (h : l = 0) : hotStep s = enterThermal (setF s 0 bPwr rPwrReef 7 6 1) false := by
  unfold hotStep
  simp only [← hl, h, Nat.zero_add, Nat.zero_lt_two, if_true]

theorem hotStep_second (h : l = 1) : hotStep s = setF s 0 bPwr rPwrReef 7 6 2 := by
  unfold hotStep
  simp only [← hl, h, Nat.one_lt_two, Nat.one_ne_zero, if_true, if_false]

theorem hotStep_beyond (h : 2 ≤ l) : hotStep s = enterTwo s := by
  subst hl
  exact if_neg (Nat.not_lt.mpr h)

/-- Below level 2 the limit falls, and at its end the source is raised. -/
theorem coolStep_below (h2 : s.pw.level2 = false) : coolStep s =
    if l = 0 then s else if l = 1 then raiseAll (setF s 0 bPwr rPwrReef 7 6 (l - 1)) 0xC03 else setF s 0 bPwr rPwrReef 7 6 (l - 1) := by
  subst hl
  unfold coolStep
  simp only [h2, Bool.false_and, Bool.false_eq_true, if_false]

end Thermal

section Commands
variable (hv : s.pw.hv = true) (hm : mstUp s = true)
include hv hm

theorem exec_thermalLevelStep (hot : Bool) : exec (.thermalLevelStep hot) s = .next (if hot then hotStep s else coolStep s) :=
  congrArg _ (if_pos (by rw [hv, hm]; rfl))

theorem exec_powerLimitStep (above : Bool) (hl : l = getF s 0 bPwr rPwrReef 9 8) :
    exec (.powerLimitStep above) s = .next (setF s 0 bPwr rPwrReef 9 8 (if above then min 2 (l + 1) else l - 1)) := by
  subst hl
  exact congrArg _ (if_pos (by rw [hv, hm]; rfl))

end Commands
end Limits

/-! ### The alarm contact (R355, R626, R646, R663) -/

section Alarm
variable {s : State} {on : Bool}

theorem alarmInput_changes (h : s.pw.alarm = !on) : alarmInput s on = rawChange { s with pw := { s.pw with alarm := on } } 1 :=
  if_neg (by rw [h]; cases on with | true | false => decide)

/-- The copies of a pair sample the contact whether or not the Masthead works; the sources and level 2 are the Masthead's. -/
theorem exec_thrmalrtNAssert (h : s.pw.alarm = false) : exec .thrmalrtNAssert s =
    .next (if mstUp s then enterTwo (evRaise (rawChange { s with pw := { s.pw with alarm := true } } 1) 0 0xC40)
      else rawChange { s with pw := { s.pw with alarm := true } } 1) := by
  rw [← alarmInput_changes h]
  show execThrmalrtNAssert s = _
  unfold execThrmalrtNAssert
  rw [h, Bool.not_false, Bool.and_true]

theorem exec_thrmalrtNDeassert (h : s.pw.alarm = true) : exec .thrmalrtNDeassert s =
    .next (if mstUp s then evRaise (rawChange { s with pw := { s.pw with alarm := false } } 1) 0 0xC41
      else rawChange { s with pw := { s.pw with alarm := false } } 1) := by
  rw [← alarmInput_changes h]
  show execThrmalrtNDeassert s = _
  unfold execThrmalrtNDeassert
  rw [h, Bool.and_true]

end Alarm

/-! ### The trip and the sensors (R624, R628) -/

section Sensor
variable {s t : State} {d n : Nat}

theorem sensorOut_fresh (h : (getDie s d).sensOut.contains n = false)
    (ht : t = report (modDie s d fun x => { x with sensOut := x.sensOut ++ [n] }) d bPwr n 0x070B cCorrected 0x00 0 0 0) :
    sensorOut s d n 0 false = if 8 < (getDie t d).sensOut.length then costDie t d else t := by
  subst ht
  exact if_neg (ne_true_of_eq_false h)

variable {die : DieNo} {sensor : Fin 16} (hdie : d = (die : Nat)) (hn : n = (sensor : Nat)) (hd : d < nDies s.part) (hup : dieUp s d = true)
include hdie hn hd hup

theorem exec_thermtrip (hv : s.pw.hv = true) (ht : t = report s d bPwr n 0x070A cFatal 0x0C 0 0 0) :
    exec (.thermtrip die sensor) s = .next (stopHv { t with pw := { t.pw with trip := true } }) := by
  subst hdie hn ht
  exact unitDo_eq hd hup (if_pos hv)

theorem exec_sensorOutOfUse (h : sensorOut s d n 0 false = t) : exec (.sensorOutOfUse die sensor) s = .next t := by
  subst hdie hn
  exact unitDo_eq hd hup h

end Sensor

/-- Settles O55: a change of the level takes the step that its phase and its causes select, each limit moves by one, and the contact, the trip
and a sensor act behind the guards of their units. -/
theorem reefLevelsAndTemperature : Obligations.ReefLevelsAndTemperature := by
  refine fun s => ⟨?_, fun d => rfl, by decide, fun ho hd req => regDo_live _ ho hd, fun hv hm => ⟨fun l hl => ?_, fun l hl => ?_⟩,
    fun hm => ?_, fun hm => ?_, ?_⟩
  · intro hv hd t e sw at' rl ht he hsw hat hrl
    obtain rfl : sw = switchTo s := funext hsw
    obtain rfl : at' = reefIn := funext fun u => funext fun p => hat u p
    obtain rfl : rl = fun n => (upDies s).foldl (fun s d => railsAt s n d) s := funext hrl
    have hdo {u : State} (h : reefStep s = u) := exec_reefChange hv hd h
    exact ⟨fun hp => ⟨fun h => hdo (reefStep_same ht he hp h), fun h => hdo (reefStep_raises ht he hp h),
        fun h => hdo (reefStep_slows ht he hp h)⟩,
      fun n hp => ⟨fun h => hdo (reefStep_abandons ht hp h), fun h => hdo (reefStep_switches hp h)⟩, fun hp => hdo (reefStep_lowers hp)⟩
  · have hhot {u : State} (h : hotStep s = u) : exec (.thermalLevelStep true) s = .next u := h ▸ exec_thermalLevelStep hv hm true
    have hcool {u : State} (h : coolStep s = u) : exec (.thermalLevelStep false) s = .next u := h ▸ exec_thermalLevelStep hv hm false
    refine ⟨fun h => hhot (hotStep_first hl h), fun h => hhot (hotStep_second hl h),
      fun h h2 => hhot ((hotStep_beyond hl h).trans (enterTwo_enters h2)), ?_, ?_, ?_⟩
    · rintro h2 rfl
      exact hcool (coolStep_below hl h2)
    · rintro h2 rfl
      exact hcool (coolStep_below hl h2)
    · rintro h2 rfl
      exact hcool (coolStep_below hl h2)
  · exact ⟨exec_powerLimitStep hv hm true hl, exec_powerLimitStep hv hm false hl⟩
  · exact ⟨fun h => (exec_thrmalrtNAssert h).trans (by rw [hm]; rfl), fun h => (exec_thrmalrtNDeassert h).trans (by rw [hm]; rfl)⟩
  · exact ⟨fun h => (exec_thrmalrtNAssert h).trans (by rw [hm]; rfl), fun h => (exec_thrmalrtNDeassert h).trans (by rw [hm]; rfl)⟩
  · intro die sensor d n hdie hn hd hup
    refine ⟨fun t hv ht => exec_thermtrip hdie hn hd hup hv ht, fun t hfresh ht => ⟨fun h => ?_, fun h => ?_⟩⟩
    · exact exec_sensorOutOfUse hdie hn hd hup ((sensorOut_fresh hfresh ht).trans (if_neg (Nat.not_lt.mpr h)))
    · exact exec_sensorOutOfUse hdie hn hd hup ((sensorOut_fresh hfresh ht).trans (if_pos h))

end Sys2Proof.Machine
end

section
/-! SUPPORT. One step of the machine, and what a change of every listed die leaves at one of them (R619). -/

namespace Sys2Proof.Machine

/-- A change of each die of a list that lists none twice acts once on a listed die, and leaves any other. -/
theorem getDie_foldl_modDie (f : Die → Die) (d : Nat) {l : List Nat} (hl : l.Nodup) (s : State) :
    getDie (l.foldl (fun s d => modDie s d f) s) d = if d ∈ l then f (getDie s d) else getDie s d := by
  induction l generalizing s with
  | nil => rfl
  | cons e l ih =>
    obtain ⟨he, hl⟩ := List.nodup_cons.mp hl
    have hone : getDie (modDie s e f) d = if e = d then f (getDie s d) else getDie s d := tget_tmod _ _ _ _ _
    rw [List.foldl_cons, ih hl, hone]
    by_cases hed : e = d
    · subst hed; simp [he]
    · simp [hed, Ne.symm hed]

theorem step_cons {s : State} {c : Instr} {rest : List Instr} (h : s.pending = c :: rest) : step s = exec c { s with pending := rest } := by
  unfold step; rw [h]

theorem step_nil {s : State} (h : s.pending = []) : step s = .next (tick s) := by unfold step; rw [h]

/-- Settles O1: the queue selects the branch, and the fold over the dies reaches each of them once. -/
theorem stepRunsTheFrontCommandOrOneTick : Obligations.StepRunsTheFrontCommandOrOneTick := by
  refine ⟨fun _ _ _ h => step_cons h, fun _ h => ⟨rfl, step_nil h⟩, fun s d hd => ?_⟩
  rw [getDie_foldl_modDie _ d List.nodup_range s, if_pos (List.mem_range.mpr hd)]

end Sys2Proof.Machine
end

section
/-! SUPPORT. What it is for a value of each shape that the model's functions answer to hold canonical stores (log entry 2), and the rules by which a
branch, a fold and an option keep it. -/

namespace Sys2Proof.Machine

variable {s t : State} {α β ε : Type}

/-- The value, where there is one, has the property. -/
def OptWf (P : α → Prop) (o : Option α) : Prop := ∀ a, o = some a → P a
/-- The state of a pair that ends with one has the property. -/
def SndP (P : State → Prop) (p : α × State) : Prop := P p.2
/-- The state of a pair that begins with one has the property. -/
def FstP (P : State → Prop) (p : State × α) : Prop := P p.1
/-- The state of a pair that ends with one has canonical stores. -/
abbrev SndWf (p : α × State) : Prop := SndP StoresWf p
/-- The state of a pair that begins with one has canonical stores. -/
abbrev FstWf (p : State × α) : Prop := FstP StoresWf p
/-- The state, where there is no error, has canonical stores. -/
def ExcWf (o : Except ε State) : Prop := ∀ t, o = .ok t → StoresWf t
/-- The next state, where there is one, has canonical stores. -/
def OutWf (o : Out) : Prop := ∀ t, o = .next t → StoresWf t
/-- The state that an instruction ends with has canonical stores. -/
def ResWf : Res → Prop
  | .next s => StoresWf s
  | .jump s _ => StoresWf s
  | .done s => StoresWf s
  | .trap s _ _ _ => StoresWf s

/-- The state after a read of an instruction has canonical stores. -/
def GotWf : Got α → Prop
  | .ok _ s => StoresWf s
  | .bad _ _ s => StoresWf s
  | .wait => True

theorem ite_wf {α : Sort _} {P : α → Prop} {c : Prop} [Decidable c] {a b : α} (ha : P a) (hb : P b) : P (if c then a else b) := by
  split
  · exact ha
  · exact hb
theorem foldl_wf {P : β → Prop} {f : β → α → β} {l : List α} {b : β} (hf : ∀ b a, P b → P (f b a)) (hb : P b) : P (l.foldl f b) := by
  induction l generalizing b with
  | nil => exact hb
  | cons a l ih => exact ih (hf b a hb)
theorem some_wf {P : α → Prop} {a : α} (h : P a) : OptWf P (some a) := by rintro t ⟨⟩; exact h
theorem none_wf {P : α → Prop} : OptWf P none := fun _ h => by cases h
theorem map_wf {P : α → Prop} {Q : β → Prop} {f : α → β} {o : Option α} (hf : ∀ a, P a → Q (f a)) (ho : OptWf P o) : OptWf Q (o.map f) := by
  cases o with
  | none => exact none_wf
  | some a => exact some_wf (hf a (ho a rfl))
theorem map_of_wf {Q : β → Prop} {f : α → β} {o : Option α} (hf : ∀ a, Q (f a)) : OptWf Q (o.map f) := by
  cases o with
  | none => exact none_wf
  | some a => exact some_wf (hf a)
theorem bind_wf {P : α → Prop} {Q : β → Prop} {f : α → Option β} {o : Option α} (ho : OptWf P o) (hf : ∀ a, P a → OptWf Q (f a)) : OptWf Q (o.bind f) := by
  cases o with
  | none => exact none_wf
  | some a => exact hf a (ho a rfl)
theorem bind_of_wf {Q : β → Prop} {f : α → Option β} {o : Option α} (hf : ∀ a, OptWf Q (f a)) : OptWf Q (o.bind f) := by
  cases o with
  | none => exact none_wf
  | some a => exact hf a
theorem getD_wf {P : State → Prop} {o : Option State} (ho : OptWf P o) (h : P s) : P (o.getD s) := by
  cases o with
  | none => exact h
  | some t => exact ho t rfl
theorem elim_of_wf {P : β → Prop} {o : Option α} {b : β} {f : α → β} (h : P b) (hf : ∀ a, P (f a)) : P (o.elim b f) := by
  cases o with
  | none => exact h
  | some a => exact hf a
theorem ok_wf (h : StoresWf s) : ExcWf (.ok s : Except ε State) := by rintro t ⟨⟩; exact h
theorem error_wf {e : ε} : ExcWf (.error e : Except ε State) := fun _ h => by cases h
theorem next_wf (h : StoresWf s) : OutWf (.next s) := by rintro t ⟨⟩; exact h
theorem upd_wf (hm : t.mem = s.mem) (hf : t.flash = s.flash) (h : StoresWf s) : StoresWf t := by
  unfold StoresWf at h ⊢
  rw [hm, hf]
  exact h
theorem snd_wf {P : State → Prop} {p : α × State} {a : α} (h : SndP P p) (e : p = (a, s)) : P s := by subst e; exact h
theorem fst_wf {P : State → Prop} {p : State × α} {a : α} (h : FstP P p) (e : p = (s, a)) : P s := by subst e; exact h
theorem elim_wf {Q : α → Prop} {P : β → Prop} {o : Option α} {b : β} {f : α → β} (ho : OptWf Q o) (h : P b) (hf : ∀ a, Q a → P (f a)) : P (o.elim b f) := by
  cases o with
  | none => exact h
  | some a => exact hf a (ho a rfl)
theorem of_snd {P : State → Prop} {p : α × State} (h : SndP P p) : P p.2 := h
theorem of_fst {P : State → Prop} {p : State × α} (h : FstP P p) : P p.1 := h
theorem got_ok_wf {g : Got α} {v : α} (h : GotWf g) (e : g = .ok v s) : StoresWf s := by subst e; exact h
theorem got_bad_wf {g : Got α} {c a : Nat} (h : GotWf g) (e : g = .bad c a s) : StoresWf s := by subst e; exact h
theorem res_next_wf {r : Res} (h : ResWf r) (e : r = .next s) : StoresWf s := by subst e; exact h
theorem snd_mk_wf {P : State → Prop} {a : α} (h : P s) : SndP P (a, s) := h
theorem fst_mk_wf {P : State → Prop} {a : α} (h : P s) : FstP P (s, a) := h
theorem refused_wf {r : Refusal} : OutWf (.refused r) := fun _ h => by cases h
theorem of_some {P : State → Prop} {o : Option State} (ho : OptWf P o) (e : o = some s) : P s := ho s e
theorem of_ok {o : Except ε State} (ho : ExcWf o) (e : o = .ok s) : StoresWf s := ho s e

end Sys2Proof.Machine
end

section
/-! SUPPORT. Faults, the home agents and what the units store, said once for each property of memory, the flash, the part, the links and the
vault that a store of a word keeps: canonical stores (log entry 2) are one, a failed link that stays out (R541) and an empty vault (R615) are
others. -/

namespace Sys2Proof.Machine

/-- The property depends on memory, the flash, the part and the vault, and is kept by a store of a word and where no failed link comes back. -/
structure Kept (P : State → Prop) : Prop where
  same : ∀ {s t : State}, P s → t.mem = s.mem → t.flash = s.flash → t.part = s.part →
    t.vault = s.vault → (∀ d k, (getLink s d k).out = true → (getLink t d k).out = true) → P t
  poke : ∀ {s : State} {wa : Nat} {v : Word}, P s → P (poke s wa v)

/-- The value of a table after a change of each of its entries, and of the default. -/
theorem tget_map_snd {α : Type} {a : α} {g : α → α} (ha : g a = a) (t : Tab α) (k : Nat) :
    tget (fun _ => a) (t.map fun e => (e.1, g e.2)) k = g (tget (fun _ => a) t k) := by
  induction t with
  | nil => exact ha.symm
  | cons e t ih =>
    obtain ⟨j, v⟩ := e
    show (if j = k then g v else _) = g (if j = k then v else _)
    rw [ih]
    split
    · rfl
    · rfl

theorem getDie_dropWaiting {s t : State} {la : Nat} (h : t.dies = s.dies.map fun e => (e.1, dropWaiting e.2 la)) (d : Nat) :
    getDie t d = dropWaiting (getDie s d) la := by
  unfold getDie
  rw [h]
  exact tget_map_snd (a := Die.init) (g := fun x => dropWaiting x la) rfl s.dies d
theorem getLink_dropWaiting {s t : State} {la : Nat} (h : t.dies = s.dies.map fun e => (e.1, dropWaiting e.2 la)) (d k : Nat) :
    (getLink t d k).out = (getLink s d k).out := by
  unfold getLink
  rw [getDie_dropWaiting h]
  show (tget (fun _ => Link.init) ((getDie s d).links.map fun e => (e.1, { e.2 with coh := e.2.coh.filter fun n => n.line != la })) k).out = _
  rw [tget_map_snd (g := fun l : Link => { l with coh := l.coh.filter fun n => n.line != la }) rfl]

section Kept

variable {P : State → Prop} (hK : Kept P) {s : State} {blk c cache cls d die k la n st t v wa word : Nat} {l : HomeLine} {r : HomeReq} {tag : Word}
  {inv : Bool}
include hK

theorem same_kept {t : State} (h : P s) (hm : t.mem = s.mem) (hf : t.flash = s.flash) (hp : t.part = s.part) (hv : t.vault = s.vault)
    (hd : t.dies = s.dies) : P t :=
  hK.same h hm hf hp hv fun d k ho => by unfold getLink getDie at ho ⊢; rw [hd]; exact ho
theorem die_kept {s : State} {d : Nat} {f : Die → Die} (hf : ∀ x, (f x).links = x.links) (h : P s) : P (modDie s d f) := by
  refine hK.same h rfl rfl rfl rfl fun e k ho => ?_
  unfold getLink at ho ⊢
  by_cases he : d = e
  · subst he; rw [getDie_modDie_self, hf]; exact ho
  · rw [getDie_modDie_ne _ _ _ _ he]; exact ho
theorem link_kept {s : State} {d k : Nat} {f : Link → Link} (hf : ∀ x, x.out = true → (f x).out = true) (h : P s) : P (modLink s d k f) := by
  refine hK.same h rfl rfl rfl rfl fun e j ho => ?_
  unfold getLink modLink at *
  by_cases he : d = e
  · subst he
    rw [getDie_modDie_self]
    dsimp only
    rw [tget_tmod]
    split
    · exact hf _ ho
    · exact ho
  · rw [getDie_modDie_ne _ _ _ _ he]; exact ho
theorem takeFree_kept {s : State} (h : P s) : SndP P (takeFree s) := snd_mk_wf (same_kept hK h rfl rfl rfl rfl rfl)
theorem give_kept {g : Given} (h : P s) : P (give s g) := same_kept hK h rfl rfl rfl rfl rfl
theorem modPe_kept {f : Pe → Pe} (h : P s) : P (modPe s k f) := same_kept hK h rfl rfl rfl rfl rfl
theorem modSup_kept {f : Sup → Sup} (h : P s) : P (modSup s c f) := same_kept hK h rfl rfl rfl rfl rfl
theorem pokes_kept {l : List Word} (h : P s) : P (pokes s wa l) := by
  induction l generalizing s wa with
  | nil => exact h
  | cons _ _ ih => exact ih (hK.poke h)
theorem poisonWords_kept (h : P s) : P (poisonWords s wa n) := by
  induction n generalizing s wa with
  | zero => exact h
  | succ _ ih => exact ih (same_kept hK h rfl rfl rfl rfl rfl)
theorem setReg_kept (h : P s) : P (setReg s die blk word v) := same_kept hK h rfl rfl rfl rfl rfl
theorem setF_kept {hi lo : Nat} (h : P s) : P (setF s die blk word hi lo v) := setReg_kept hK h
theorem countF_kept {hi lo : Nat} (h : P s) : P (countF s die blk word hi lo n) := setF_kept hK h
theorem count_kept (h : P s) : P (count s die blk word) := countF_kept hK h
theorem setEv_kept {rep : Bool} (h : P s) : P (setEv s die k st rep) := setReg_kept hK h
theorem evTake_kept {soft counted : Bool} (h : P s) : P (evTake s die k soft counted) := by
  unfold evTake
  extract_lets +onlyGivenNames rep
  split
  · exact ite_wf (setEv_kept hK h) h
  · exact ite_wf (count_kept hK h) h
  · exact ite_wf (setEv_kept hK h) h
  · exact ite_wf (setEv_kept hK (ite_wf (count_kept hK h) h)) h
theorem evRaise_kept (h : P s) : P (evRaise s die k) := evTake_kept hK h
theorem setLog_kept {r : Option FaultRec} (h : P s) : P (setLog s die k r) := die_kept hK (fun _ => rfl) h
theorem driveFault_kept (h : P s) : P (driveFault s cls) := ite_wf (same_kept hK h rfl rfl rfl rfl rfl) h
theorem fence_kept (h : P s) : P (fence s) :=
  ite_wf h (same_kept hK (foldl_wf (fun _ _ h => ite_wf (give_kept hK (takeFree_kept hK h)) (takeFree_kept hK h)) h) rfl rfl rfl rfl rfl)
theorem classSteps_kept (h : P s) : P (classSteps s die cls) :=
  ite_wf (fence_kept hK (driveFault_kept hK (evRaise_kept hK h))) (driveFault_kept hK (evRaise_kept hK h))
theorem dropRec_kept (h : P s) : P (dropRec s die cls) := ite_wf (countF_kept hK h) (ite_wf (countF_kept hK h) (countF_kept hK h))
theorem writeRec_kept {r : FaultRec} (h : P s) : P (writeRec s die r) := by
  refine ite_wf ?_ ?_
  · refine ite_wf ?_ ?_
    · exact dropRec_kept hK h
    · split
      · exact classSteps_kept hK (setLog_kept hK h)
      · exact ite_wf (fence_kept hK (dropRec_kept hK h)) (dropRec_kept hK h)
  · exact classSteps_kept hK (setReg_kept hK (setLog_kept hK h))
theorem mergeRec_kept {o r : FaultRec} (h : P s) : P (mergeRec s die k o r) :=
  ite_wf (fence_kept hK (ite_wf (classSteps_kept hK (setLog_kept hK h)) (setLog_kept hK h)))
    (ite_wf (classSteps_kept hK (setLog_kept hK h)) (setLog_kept hK h))
theorem modXf_kept {f : XfDie → XfDie} (h : P s) : P (modXf s d f) := same_kept hK h rfl rfl rfl rfl rfl
theorem xformClear_kept {woad : Bool} (h : P s) : P (xformClear s d woad) := modXf_kept hK h
theorem xformWipe_kept {put : State → Nat → List Word → State} {woad : Bool} (hput : ∀ x0 x1 x2, P x0 → P (put x0 x1 x2)) (h : P s) : P
    (xformWipe put s d woad) :=
  xformClear_kept hK (foldl_wf (fun _ _ h => foldl_wf (fun _ _ h1 => hput _ _ _ h1) h) h)
theorem logEntry_kept {r : FaultRec} (h : P s) : P (logEntry s die r) := by
  unfold logEntry
  split
  · split
    · exact mergeRec_kept hK h
    · exact writeRec_kept hK h
  · exact writeRec_kept hK h
theorem heldDie_kept {at' : Nat} (h : P s) : P (heldDie s at' d) :=
  foldl_wf (fun _ _ h => ite_wf (logEntry_kept hK (xformWipe_kept hK (fun _ _ _ h1 => pokes_kept hK h1) h)) h) h
theorem heldAll_kept (h : P s) : P (heldAll s) := foldl_wf (fun _ _ h => heldDie_kept hK h) h
theorem logDetection_kept {r : FaultRec} (h : P s) : P (logDetection s die r) := ite_wf (heldAll_kept hK (logEntry_kept hK h)) (logEntry_kept hK h)
theorem report_kept {udie block unit det action : Nat} {addr info : Word} {inj : Bool} (h : P s) : P
    (report s udie block unit det cls action addr tag info inj) :=
  ite_wf (logDetection_kept hK (logDetection_kept hK h)) (logDetection_kept hK h)
theorem injUse_kept (h : P s) : P (injUse s d) := die_kept hK (fun _ => rfl) h
theorem deferred_kept {block unit det action : Nat} {addr info : Word} (h : P s) : P (deferred s die block unit det action addr tag info) :=
  report_kept hK h
theorem unbacked_kept (h : P s) : P (unbacked s die wa) := deferred_kept hK (count_kept hK h)
theorem noteRead_kept {pa : Nat} (h : P s) : P (noteRead s die pa) := ite_wf (unbacked_kept hK h) h
theorem hwPoison_kept (h : P s) : P (hwPoison s die wa) := deferred_kept hK (count_kept hK h)
theorem slotUsed_kept {c : LinkClass} (h : P s) : P (slotUsed s d k c) := by
  unfold slotUsed
  split
  · exact link_kept hK (fun _ h => h) h
  · exact h
theorem cohSlots_kept {l : List (Nat × Nat)} (h : P s) : P (cohSlots s l) := foldl_wf (fun _ _ h => ite_wf (slotUsed_kept hK h) h) h
theorem cohPass_kept {a b : Nat} (h : P s) : P (cohPass s a b) := cohSlots_kept hK h
theorem turnSnoop_kept {n : Snoop} (h : P s) : P (turnSnoop s n) := foldl_wf (fun _ _ h => cohPass_kept hK h) (same_kept hK h rfl rfl rfl rfl rfl)
theorem ringCredit_kept (h : P s) : P (ringCredit s d k) := by
  unfold ringCredit
  split
  · exact link_kept hK (fun _ h => h) h
  next n rest _ =>
    have ht : P (modLink s d k fun l => { l with coh := rest }) := link_kept hK (fun _ h => h) h
    exact same_kept hK ht rfl rfl rfl rfl rfl
theorem dropSnoops_kept (h : P s) : P (dropSnoops s la) :=
  foldl_wf (fun _ _ h => ringCredit_kept hK h) (hK.same h rfl rfl rfl rfl fun d k => (getLink_dropWaiting rfl d k).trans)
theorem setLlc_kept {l : Option HomeLine} (h : P s) : P (setLlc s la l) := same_kept hK h rfl rfl rfl rfl rfl
theorem setTx_kept {t : Option HomeTx} (h : P s) : P (setTx s la t) := same_kept hK h rfl rfl rfl rfl rfl
theorem setCache_kept {line : Nat} (h : P s) : P (setCache s cache line v) := same_kept hK h rfl rfl rfl rfl rfl
theorem dropPeL1_kept {keep : Option Nat} (h : P s) : P (dropPeL1 s k la keep) :=
  ite_wf (modPe_kept hK (ite_wf (modPe_kept hK h) h)) (ite_wf (modPe_kept hK h) h)
theorem dropL1_kept {keep : Option Nat} (h : P s) : P (dropL1 s cache la keep) :=
  ite_wf (foldl_wf (fun _ _ h => dropPeL1_kept hK h) h) (ite_wf (modSup_kept hK (ite_wf (modSup_kept hK h) h)) (ite_wf (modSup_kept hK h) h))
theorem loseLine_kept (h : P s) : P (loseLine s cache la) := same_kept hK (dropL1_kept hK (setCache_kept hK h)) rfl rfl rfl rfl rfl
theorem takeWb_kept (h : P s) : P (takeWb s la c) := by
  unfold takeWb
  split
  · exact count_kept hK h
  · exact ite_wf (setLlc_kept hK h) (count_kept hK h)
theorem writeBack_kept (h : P s) : P (writeBack s la c) := by
  unfold writeBack
  extract_lets +onlyGivenNames s'
  split
  · exact setTx_kept hK (cohPass_kept hK h)
  · exact takeWb_kept hK (cohPass_kept hK h)
theorem evictLine_kept (h : P s) : P (evictLine s cache la) := ite_wf (writeBack_kept hK (loseLine_kept hK h)) (loseLine_kept hK h)
theorem l2Room_kept (h : P s) : P (l2Room s cache la) := by
  refine ite_wf ?_ ?_
  · exact h
  · extract_lets +onlyGivenNames f
    split
    · exact evictLine_kept hK (takeFree_kept hK h)
    · exact takeFree_kept hK h
theorem grant_kept {hs : Nat} {alone : Bool} (h : P s) : P (grant s la l c hs st alone) := by
  unfold grant
  extract_lets base rem l u
  have hu : P u := setCache_kept hK (setLlc_kept hK (l2Room_kept hK h))
  exact same_kept hK hu rfl rfl rfl rfl rfl
theorem deviceWord_kept {j : Nat} (h : P s) : P (deviceWord s r la j) :=
  ite_wf h (ite_wf (ite_wf (poisonWords_kept hK (hK.poke h)) (hK.poke h)) (ite_wf (deferred_kept hK (count_kept hK h))
    (ite_wf (poisonWords_kept hK (hK.poke h)) (hK.poke h))))
theorem deviceWrite_kept (h : P s) : P (deviceWrite s la r) := ite_wf h (foldl_wf (fun _ _ h => deviceWord_kept hK h) h)
theorem homeReply_kept {words : List Word} {psn : Nat} (h : P s) : P (homeReply s r la words psn) := same_kept hK h rfl rfl rfl rfl rfl
theorem farOp_kept (h : P s) : P (farOp s la r) := by
  refine ite_wf ?_ ?_
  · exact homeReply_kept hK h
  · split
    · exact homeReply_kept hK (hK.poke h)
    · exact h
theorem replyCross_kept (h : P s) : P (replyCross s la r) := by
  unfold replyCross
  split
  · exact cohPass_kept hK h
  · exact cohPass_kept hK h
  · exact h
  · exact cohPass_kept hK h
  · exact cohPass_kept hK h
  · exact h
  · exact h
theorem perform_kept {now : Bool} (h : P s) : P (perform s la l r now) := by
  unfold perform
  extract_lets +onlyGivenNames t none'
  have ht : P t := ite_wf h (replyCross_kept hK h)
  clear_value t
  split
  · split
    · exact ite_wf ht (homeReply_kept hK ht)
    · exact ite_wf (grant_kept hK ht) (ite_wf ht (grant_kept hK ht))
  · split
    · exact ht
    · exact grant_kept hK ht
  · split
    · exact ht
    · exact takeWb_kept hK (ite_wf (loseLine_kept hK ht) ht)
  · exact ite_wf (setLlc_kept hK ht) (farOp_kept hK (setLlc_kept hK ht))
  · exact ite_wf ht (homeReply_kept hK ht)
  · exact deviceWrite_kept hK (setLlc_kept hK ht)
  · split
    · exact dropL1_kept hK (deviceWrite_kept hK (grant_kept hK ht))
    · exact deviceWrite_kept hK (setLlc_kept hK (ite_wf ht (count_kept hK ht)))
theorem snoopCache_kept (h : P s) : SndP P (snoopCache s c la inv) := by
  unfold snoopCache
  split
  · exact snd_mk_wf (ite_wf (dropL1_kept hK h) h)
  · exact snd_mk_wf (ite_wf (loseLine_kept hK h) (setCache_kept hK h))
theorem snoopDest_kept (h : P s) : SndP P (snoopDest s t la inv) := foldl_wf (fun _ _ h => snd_mk_wf (snoopCache_kept hK h)) (snd_mk_wf h)
theorem forgetLine_kept (h : P s) : P (forgetLine s t la) := foldl_wf (fun _ _ h => setCache_kept hK h) h
theorem snoopOne_kept (h : P s) : SndP P (snoopOne s t la inv) :=
  ite_wf (snd_mk_wf (forgetLine_kept hK h)) (ite_wf (snd_mk_wf (forgetLine_kept hK h)) (snoopDest_kept hK h))
theorem keepStrays_kept {due : List Nat} (h : P s) : P (keepStrays s la due) := same_kept hK h rfl rfl rfl rfl rfl
theorem passLate_kept {due : List Nat} (h : P s) : P (passLate s la due) := by
  unfold passLate
  extract_lets d t inj
  have ht : P t := poisonWords_kept hK (keepStrays_kept hK h)
  exact report_kept hK (count_kept hK (ite_wf (injUse_kept hK ht) ht))
theorem snoopLinks_kept {ts : List Nat} (h : P s) : P (snoopLinks s la ts) :=
  ite_wf h (foldl_wf (fun _ _ h => cohPass_kept hK h) (cohSlots_kept hK h))
theorem snoopPass_kept {own : Option Nat} {ts : List Nat} (h : P s) : OptWf (SndP P) (snoopPass s la l inv own ts) := by
  refine ite_wf none_wf ?_
  extract_lets +onlyGivenNames r
  have hr : P r.2 := of_snd (foldl_wf (fun _ _ h => snd_mk_wf (snoopOne_kept hK h)) (snd_mk_wf (snoopLinks_kept hK h)))
  exact ite_wf (some_wf (snd_mk_wf (setLlc_kept hK hr))) (some_wf (snd_mk_wf (setLlc_kept hK (passLate_kept hK hr))))
theorem useLine_kept (h : P s) : P (useLine s la) := by
  unfold useLine
  extract_lets +onlyGivenNames t
  have ht : P t := same_kept hK h rfl rfl rfl rfl rfl
  split
  · exact setLlc_kept hK ht
  · exact ht
theorem installLine_kept (h : P s) : P (installLine s la) := setLlc_kept hK h
theorem fetchLine_kept (h : P s) : OptWf P (fetchLine s la) := by
  unfold fetchLine
  split
  · exact some_wf h
  · split
    · exact some_wf (installLine_kept hK h)
    · exact none_wf
    · split
      · exact some_wf (installLine_kept hK h)
      · exact map_wf (fun _ h3 => installLine_kept hK (setLlc_kept hK h3)) (snoopPass_kept hK h)
theorem lineRead_kept {check : MemCheck} (h : P s) : P (lineRead s la check) := by
  unfold lineRead
  extract_lets +onlyGivenNames d ch
  split
  · exact report_kept hK (count_kept hK h)
  · exact poisonWords_kept hK (deferred_kept hK (count_kept hK h))
  · exact foldl_wf (fun _ _ h1 => ite_wf (poisonWords_kept hK h1) h1) h
  · exact h
theorem scrubRead_kept {check : LineCheck} (h : P s) : P (scrubRead s la check) := by
  unfold scrubRead
  split
  · exact deferred_kept hK (count_kept hK h)
  · exact lineRead_kept hK h
theorem setWait_kept {sl : Nat} {q : List (Nat × HomeReq)} (h : P s) : P (setWait s sl q) := same_kept hK h rfl rfl rfl rfl rfl
theorem homeServe_kept {now : Bool} (h : P s) : OptWf (SndP P) (homeServe s la r now) := by
  unfold homeServe
  split
  · exact none_wf
  next t ht =>
    extract_lets +onlyGivenNames s'
    split
    · exact none_wf
    · refine ite_wf ?_ ?_
      · split
        · exact none_wf
        next t2 ht2 => exact some_wf (snd_mk_wf (perform_kept hK (snoopPass_kept hK (useLine_kept hK (of_some (fetchLine_kept hK h) ht)) _ ht2)))
      · exact some_wf (snd_mk_wf (perform_kept hK (useLine_kept hK (of_some (fetchLine_kept hK h) ht))))
theorem serveJob_kept {a2 : HomeJob} (h : P s) : OptWf P (serveJob s la a2) := by
  unfold serveJob
  split
  · exact some_wf (scrubRead_kept hK h)
  · split
    · exact some_wf (perform_kept hK h)
    · exact some_wf (count_kept hK h)
    · exact map_wf (fun _ h2 => h2) (homeServe_kept hK h)
theorem endTx_kept {t : HomeTx} (h : P s) : OptWf (FstP P) (endTx s la t) := by
  unfold endTx
  extract_lets +onlyGivenNames came src u first
  have hu : P u := dropSnoops_kept hK (same_kept hK h rfl rfl rfl rfl rfl)
  split
  · exact some_wf (fst_mk_wf hu)
  · extract_lets +onlyGivenNames v l
    have hv : P v := ite_wf (passLate_kept hK hu) hu
    split
    · exact map_wf (fun _ hp => fst_mk_wf (setLlc_kept hK hp)) (snoopPass_kept hK hv)
    · exact map_wf (fun _ hp => fst_mk_wf (perform_kept hK hp)) (snoopPass_kept hK hv)
    · exact some_wf (fst_mk_wf hv)
theorem serveAhead_kept (h : P s) : OptWf P (serveAhead n s la) := by
  induction n generalizing s la with
  | zero => exact none_wf
  | succ n ih =>
    unfold serveAhead
    extract_lets waits t room
    have ht : P t := ite_wf h (setWait_kept hK h)
    have hroom (u : State) (hu : P u) : OptWf P (room u) := ite_wf (some_wf hu) (bind_of_wf fun b => ih hu)
    refine bind_wf (P := FstP P) ?_ fun p hp => bind_wf (foldl_wf (fun _ _ ho => bind_wf ho fun u hu =>
      bind_wf (hroom u hu) fun _ hv => serveJob_kept hK hv) (some_wf hp)) hroom
    split
    · exact endTx_kept hK ht
    · exact some_wf (fst_mk_wf ht)
theorem loseEverywhere_kept (h : P s) : P (loseEverywhere s la) := by
  unfold loseEverywhere
  extract_lets +onlyGivenNames s'
  split
  · exact setLlc_kept hK (foldl_wf (fun _ _ h1 => loseLine_kept hK h1) h)
  · exact foldl_wf (fun _ _ h1 => loseLine_kept hK h1) h
theorem endHolds_kept (h : P s) : P (endHolds s la) := ite_wf (same_kept hK h rfl rfl rfl rfl rfl) h
theorem homeUnit_kept (h : P s) : OptWf P (homeUnit s la r) :=
  bind_wf (serveAhead_kept hK (cohPass_kept hK (endHolds_kept hK h))) (fun _ h => map_wf (fun _ h1 => cohPass_kept hK h1) (homeServe_kept hK h))
theorem unitTakes_kept {k : ReqKind} (h : P s) : P (unitTakes s die k la) :=
  getD_wf (homeUnit_kept hK h) (loseEverywhere_kept hK (endHolds_kept hK h))
theorem unitReads_kept (h : P s) : P (unitReads s die wa) := ite_wf (getD_wf (homeUnit_kept hK h) h) (noteRead_kept hK h)
theorem unitRead_kept (h : P s) : P (unitRead s die wa n) := foldl_wf (fun _ _ h => unitReads_kept hK h) h
theorem readClean_kept (h : P s) : SndP P (readClean s die wa n) := by
  unfold readClean
  extract_lets +onlyGivenNames s'
  split
  · exact snd_mk_wf (hwPoison_kept hK (unitRead_kept hK h))
  · exact snd_mk_wf (unitRead_kept hK h)
theorem store_kept {v : Word} (h : P s) : P (store s die wa v) := ite_wf (hK.poke (unitTakes_kept hK h)) (unbacked_kept hK h)
theorem unitMod_kept {f : Word → Word} (h : P s) : P (unitMod s die wa f) := ite_wf (store_kept hK (readClean_kept hK h)) (readClean_kept hK h)
theorem setFrame_kept {f gen : Nat} (h : P s) : P (setFrame s d f gen st) := unitMod_kept hK h
theorem modHw_kept {p : Nat} {f : PartHw → PartHw} (h : P s) : P (modHw s p f) := same_kept hK h rfl rfl rfl rfl rfl
theorem purgeDone_kept (h : P s) : P (purgeDone s d tag) := ite_wf (ite_wf (setFrame_kept hK h) h) (modHw_kept hK h)
theorem deadFlit_kept {f : Flit} (h : P s) : P (deadFlit s d f) := ite_wf (purgeDone_kept hK (count_kept hK h)) (count_kept hK h)
theorem turnFlit_kept {f : Flit × Bool} (h : P s) : P (turnFlit s d k f) := ite_wf (deadFlit_kept hK h) (link_kept hK (fun _ h => h) h)
theorem turnBack_kept (h : P s) : P (turnBack s d k) := by
  unfold turnBack
  extract_lets l under src t u v
  have ht : P t := same_kept hK (link_kept hK (s := s) (f := fun x => { x with out := true, tx := [], strm := [], coh := [], cohUsed := 0 })
    (fun _ _ => rfl) h)
    rfl rfl rfl rfl rfl
  have hv : P v := foldl_wf (fun _ _ h => turnFlit_kept hK h) (link_kept hK (fun _ h => h) ht)
  exact foldl_wf (fun _ _ h => turnSnoop_kept hK h) hv

end Kept

theorem setBytes_wf {wa v : Nat} (n : Nat) {k : Nat} {m : List Host.Cell} (h : Memory.wf m = true) : Memory.wf (setBytes wa v n k m) = true := by
  induction n generalizing k m with
  | zero => exact h
  | succ n ih => exact ih (tset_wf _ _ _ _ h)

/-- Canonical stores are such a property. -/
theorem wf_kept : Kept StoresWf where
  same h hm hf _ _ _ := upd_wf hm hf h
  poke h := ite_wf ⟨setBytes_wf 8 h.1, h.2⟩ h

end Sys2Proof.Machine
end

section
/-! SUPPORT. Registers, caches, faults, engines and links keep the stores (log entry 2). -/

namespace Sys2Proof.Machine

variable {s : State} {c cache d die k la wa : Nat} {v : Word}

theorem modDie_wf {f : Die → Die} (h : StoresWf s) : StoresWf (modDie s d f) := h
theorem modSpar_wf {g : Nat} {f : Spar → Spar} (h : StoresWf s) : StoresWf (modSpar s g f) := h
theorem typeNow_wf (h : StoresWf s) : StoresWf (typeNow s die k) := modDie_wf h
theorem enNow_wf (h : StoresWf s) : StoresWf (enNow s die k) := modDie_wf h
theorem evInput_wf {on : Bool} (h : StoresWf s) : StoresWf (evInput s die k on) :=
  ite_wf (evTake_kept wf_kept (setReg_kept wf_kept h)) (setReg_kept wf_kept h)
theorem evFinish_wf (h : StoresWf s) : StoresWf (evFinish s die k) :=
  ite_wf (setEv_kept wf_kept (typeNow_wf h)) (ite_wf (setEv_kept wf_kept (typeNow_wf h)) (setEv_kept wf_kept (typeNow_wf h)))
theorem evComplete_wf (h : StoresWf s) : StoresWf (evComplete s die k) := ite_wf (evFinish_wf h) (count_kept wf_kept h)
theorem reportAt0_wf {udie block unit det cls action : Nat} {addr tag info : Word} {inj : Bool} (h : StoresWf s) : StoresWf
    (reportAt0 s udie block unit det cls action addr tag info inj) :=
  logDetection_kept wf_kept h
theorem modChan_wf {f : Chan → Chan} (h : StoresWf s) : StoresWf (modChan s d f) := h
theorem modEng_wf {f : Eng → Eng} (h : StoresWf s) : StoresWf (modEng s k f) := h
theorem modSeq_wf {f : MSeq → MSeq} (h : StoresWf s) : StoresWf (modSeq s k f) := h
theorem modLink_wf {f : Link → Link} (h : StoresWf s) : StoresWf (modLink s d k f) := modDie_wf h
theorem tokenSlot_wf (h : StoresWf s) : OptWf StoresWf (tokenSlot s d k) :=
  ite_wf (some_wf (modLink_wf h)) (ite_wf (some_wf (modLink_wf (slotUsed_kept wf_kept h))) none_wf)
theorem cohCross_wf {a b : Nat} (h : StoresWf s) : OptWf StoresWf (cohCross s a b) :=
  foldl_wf (fun _ _ h => bind_wf h (fun _ h1 => ite_wf (some_wf (slotUsed_kept wf_kept h1)) none_wf)) (some_wf h)
theorem sendRing_wf {n : Snoop} (h : StoresWf s) : StoresWf (sendRing s d k n) :=
  ite_wf (turnSnoop_kept wf_kept h) (ite_wf (upd_wf rfl rfl h) (modLink_wf h))
theorem loseCache_wf (h : StoresWf s) : StoresWf (loseCache s cache) := h
theorem l1Victim_wf {sets ways : Nat} {lines : List Nat} (h : StoresWf s) : SndWf (l1Victim s sets ways la lines) :=
  ite_wf (snd_mk_wf h) (snd_mk_wf (takeFree_kept wf_kept h))
theorem fillPeL1i_wf (h : StoresWf s) : StoresWf (fillPeL1i s k la) := ite_wf h (modPe_kept wf_kept (l1Victim_wf h))
theorem fillSupL1i_wf (h : StoresWf s) : StoresWf (fillSupL1i s c la) := ite_wf h (modSup_kept wf_kept (l1Victim_wf h))
theorem fillSupL1d_wf (h : StoresWf s) : StoresWf (fillSupL1d s c la) := ite_wf h (modSup_kept wf_kept (l1Victim_wf h))
theorem homeNow_wf {r : HomeReq} (h : StoresWf s) : OptWf SndWf (homeNow s la r) :=
  bind_wf (cohCross_wf h) (fun _ h => bind_wf (serveAhead_kept wf_kept h) (fun _ h1 => bind_wf (homeServe_kept wf_kept h1)
    (fun _ h2 => map_wf (fun _ h3 => snd_mk_wf h3) (cohCross_wf h2))))
theorem lineForRead_wf (h : StoresWf s) : OptWf StoresWf (lineForRead s cache la) := ite_wf (some_wf h) (map_wf (fun _ h => h) (homeNow_wf h))
theorem lineForWrite_wf (h : StoresWf s) : OptWf SndWf (lineForWrite s cache la) := ite_wf (some_wf (snd_mk_wf h)) (homeNow_wf h)
theorem stores_wf {l : List Word} (h : StoresWf s) : StoresWf (stores s die wa l) := by
  induction l generalizing s wa with
  | nil => exact h
  | cons _ _ ih => exact ih (store_kept wf_kept h)
theorem farAdd_wf {k : Word} (h : StoresWf s) : SndWf (farAdd s die wa k) :=
  ite_wf (snd_mk_wf (hwPoison_kept wf_kept (noteRead_kept wf_kept h))) (ite_wf (snd_mk_wf (hwPoison_kept wf_kept (unitTakes_kept wf_kept h)))
    (snd_mk_wf (wf_kept.poke (unitTakes_kept wf_kept h))))
theorem l2Write_wf (h : StoresWf s) : StoresWf (l2Write s cache wa v) := by
  refine ite_wf ?_ ?_
  · exact setCache_kept wf_kept (by
    split
    · exact h
    · exact wf_kept.poke h)
  · split
    · exact h
    · exact wf_kept.poke h
theorem coreStore_wf {keep : Option Nat} (h : StoresWf s) : StoresWf (coreStore s die cache wa v keep) :=
  ite_wf (dropL1_kept wf_kept (l2Write_wf h)) (unbacked_kept wf_kept h)
theorem coreStores_wf {vs : List Word} (h : StoresWf s) : StoresWf (coreStores s c wa vs) :=
  ite_wf (foldl_wf (fun _ _ h => coreStore_wf h) h) (unbacked_kept wf_kept h)
theorem l1dWrite_wf {pa : Nat} (h : StoresWf s) : StoresWf (l1dWrite s k pa v) := ite_wf (modPe_kept wf_kept h) h
theorem l1dFill_wf (h : StoresWf s) : StoresWf (l1dFill s k la) := modPe_kept wf_kept h

end Sys2Proof.Machine
end

section
/-! SUPPORT. Tables, translation, tokens, channels and the stream plane keep the stores (log entry 2). -/

namespace Sys2Proof.Machine

variable {s t : State} {asid b cls d die f g i k kind n old p part r u v va w : Nat} {c : Ctx} {tag user value : Word}

theorem ptFill_wf {t : PTable} (h : StoresWf s) : StoresWf (ptFill s u t p) :=
  ite_wf h (ite_wf (upd_wf rfl rfl (readClean_kept wf_kept h)) (readClean_kept wf_kept h))
theorem ptInvalidate_wf {t : PTable} (h : StoresWf s) : StoresWf (ptInvalidate s die t p) := h
theorem pptCount_wf (h : StoresWf s) : StoresWf (pptCount s d p w) := ite_wf (farAdd_wf h) h
theorem pxtLive_wf {k : Word} (h : StoresWf s) : StoresWf (pxtLive s d p k) := ite_wf (farAdd_wf h) h
theorem walkReads_wf {t lvl : Nat} (h : StoresWf s) : StoresWf (walkReads s die va t lvl) := by
  induction lvl generalizing s t with
  | zero => exact ite_wf (unitRead_kept wf_kept h) (unitRead_kept wf_kept h)
  | succ _ ih => exact ite_wf (unitRead_kept wf_kept h) (ih (unitRead_kept wf_kept h))
theorem walkAll_wf (h : StoresWf s) : StoresWf (walkAll s c va) := by
  unfold walkAll
  extract_lets +onlyGivenNames t
  split
  · exact ite_wf h (unitRead_kept wf_kept h)
  · exact ite_wf (walkReads_wf (ite_wf h (unitRead_kept wf_kept h))) (ite_wf h (unitRead_kept wf_kept h))
theorem xlateNote_wf (h : StoresWf s) : StoresWf (xlateNote s c va) := by
  refine ite_wf ?_ ?_
  · exact ite_wf h (ptFill_wf h)
  · extract_lets +onlyGivenNames t
    split
    · exact upd_wf rfl rfl (walkAll_wf (ite_wf h (ptFill_wf h)))
    · exact deferred_kept wf_kept (walkAll_wf (ite_wf h (ptFill_wf h)))
    · exact walkAll_wf (ite_wf h (ptFill_wf h))
theorem unitNote_wf (h : StoresWf s) : StoresWf (unitNote s c va n) := by
  unfold unitNote
  extract_lets +onlyGivenNames s'
  split
  · exact unitRead_kept wf_kept (xlateNote_wf h)
  · exact xlateNote_wf h
theorem countClu_wf {word : Nat} (h : StoresWf s) : StoresWf (countClu s g word) := count_kept wf_kept h
theorem countCluN_wf {word : Nat} (h : StoresWf s) : StoresWf (countCluN s g word n) := countF_kept wf_kept h
theorem flitChecked_wf {block unit det : Nat} {inj : Bool} {a6 : FlitCheck} (h : StoresWf s) : SndWf (flitChecked s die block unit det inj a6) := by
  unfold flitChecked
  split
  · exact snd_mk_wf h
  · exact snd_mk_wf (report_kept wf_kept (countF_kept wf_kept h))
  · exact snd_mk_wf (report_kept wf_kept (countF_kept wf_kept h))
theorem recvFlit_wf {block unit det : Nat} {f : Flit} {err : BitVec 160} (h : StoresWf s) : SndWf (recvFlit s die block unit det f err) := by
  unfold recvFlit
  split
  · exact flitChecked_wf h
  · exact flitChecked_wf (injUse_kept wf_kept h)
theorem modRouter_wf {f : Router → Router} (h : StoresWf s) : StoresWf (modRouter s d r f) := modDie_wf h
theorem refillSrc_wf {p : MeshPort} (h : StoresWf s) : StoresWf (refillSrc s d r p v) := by
  unfold refillSrc
  extract_lets +onlyGivenNames x k
  split
  · exact h
  · exact ite_wf (modRouter_wf h) h
theorem inject_wf {p : MeshPort} {f : Flit} (h : StoresWf s) : StoresWf (inject s d r p f) := refillSrc_wf (modRouter_wf h)
theorem deadTo_wf {t : Nat} (h : StoresWf s) : StoresWf (deadTo s d t) := count_kept wf_kept h
theorem noHome_wf (h : StoresWf s) : StoresWf (noHome s d tag) := deferred_kept wf_kept (count_kept wf_kept h)
theorem peRelease_wf {o : Output} (h : StoresWf s) : StoresWf (peRelease s k o) := modPe_kept wf_kept h
theorem sendToken_wf {p : MeshPort} (h : StoresWf s) : StoresWf (sendToken s u r p kind tag value) := by
  unfold sendToken
  split
  · exact inject_wf (ptFill_wf h)
  · exact noHome_wf h
theorem purgeLost_wf (h : StoresWf s) : StoresWf (purgeLost s d tag) := purgeDone_kept wf_kept (noHome_wf h)
theorem sendPurge_wf (h : StoresWf s) : StoresWf (sendPurge s d tag) := by
  unfold sendPurge
  split
  · exact inject_wf h
  · exact purgeLost_wf h
theorem destroyFrame_wf (h : StoresWf s) : StoresWf (destroyFrame s p f) :=
  ite_wf (readClean_kept wf_kept h) (sendPurge_wf (setFrame_kept wf_kept (ite_wf (pxtLive_wf (readClean_kept wf_kept h))
    (readClean_kept wf_kept h))))
theorem allocNote_wf (h : StoresWf s) : StoresWf (allocNote s u part asid) := by
  refine ite_wf ?_ ?_
  · exact h
  · split
    · exact h
    · exact ite_wf (unitRead_kept wf_kept (unitRead_kept wf_kept h)) (xlateNote_wf (unitRead_kept wf_kept (unitRead_kept wf_kept h)))
theorem allocLost_wf {hart : PartHw} {addr : Nat} (h : StoresWf s) : StoresWf (allocLost s d part hart addr) :=
  hwPoison_kept wf_kept (modHw_kept wf_kept h)
theorem makeLive_wf {graph bodyPa : Nat} (h : StoresWf s) : StoresWf (makeLive s d part asid graph f bodyPa user) :=
  ite_wf (hwPoison_kept wf_kept (unitRead_kept wf_kept h)) (store_kept wf_kept
    (pxtLive_wf (store_kept wf_kept (store_kept wf_kept (unitRead_kept wf_kept h)))))
theorem doAlloc_wf {graph : Nat} {hart : PartHw} {bodyPa : Nat} (h : StoresWf s) : StoresWf (doAlloc s d part asid graph f hart bodyPa user) :=
  makeLive_wf (modHw_kept wf_kept h)
theorem countAllocFail_wf {closed : Bool} (h : StoresWf s) : StoresWf (countAllocFail s d part closed) :=
  ite_wf (pptCount_wf (pptCount_wf h)) (pptCount_wf h)
theorem addTrap_wf {t : Trap} (h : StoresWf s) : StoresWf (addTrap s t) := h
theorem unitTrap_wf {src cause : Nat} {addr : Word} {byTrap : Bool} (h : StoresWf s) : StoresWf (unitTrap s src g part cause tag addr byTrap) :=
  addTrap_wf h
theorem watermarkN_wf {blk wm xc evHi evLo new : Nat} {side : Side} (h : StoresWf s) : FstWf (watermarkN n s die blk wm xc evHi evLo old new side)
    :=
  fst_mk_wf (ite_wf (evRaise_kept wf_kept (countF_kept wf_kept (ite_wf (evRaise_kept wf_kept (countF_kept wf_kept h)) h)))
    (ite_wf (evRaise_kept wf_kept (countF_kept wf_kept h)) h))
theorem watermark_wf {blk wm xc evHi evLo new : Nat} {side : Side} (h : StoresWf s) : FstWf (watermark s die blk wm xc evHi evLo old new side) :=
  watermarkN_wf h
theorem iqMark_wf (h : StoresWf s) : StoresWf (iqMark s g old) := modSpar_wf (watermark_wf h)
theorem rlMark_wf (h : StoresWf s) : StoresWf (rlMark s g old) := modSpar_wf (watermark_wf h)
theorem flMark_wf (h : StoresWf s) : StoresWf (flMark s die old) := modDie_wf (watermark_wf h)
theorem ratEvent_wf {type level slot : Nat} {item : Bool} {info : Nat} {fkey : Word} (h : StoresWf s) : StoresWf
    (ratEvent s die g type level part slot item tag info fkey) :=
  ite_wf h (ite_wf (modSpar_wf h) (ite_wf (modSpar_wf (count_kept wf_kept (modSpar_wf h))) (modSpar_wf (modSpar_wf (modSpar_wf h)))))
theorem writeSlot_wf (h : StoresWf s) : StoresWf (writeSlot s d g n tag value cls kind) :=
  store_kept wf_kept (store_kept wf_kept (store_kept wf_kept (store_kept wf_kept h)))
theorem holdSlot_wf {hart : Hold} (h : StoresWf s) : StoresWf (holdSlot s d g hart) :=
  modSpar_wf (ite_wf (takeFree_kept wf_kept (count_kept wf_kept h)) (deferred_kept wf_kept (takeFree_kept wf_kept (count_kept wf_kept h))))
theorem appendSlot_wf {p : Producer} (h : StoresWf s) : StoresWf (appendSlot s d g p tag value cls kind) :=
  ite_wf (farAdd_wf h) (ite_wf (hwPoison_kept wf_kept (unitRead_kept wf_kept (farAdd_wf h)))
    (ite_wf (writeSlot_wf (unitRead_kept wf_kept (farAdd_wf h))) (holdSlot_wf (unitRead_kept wf_kept (farAdd_wf h)))))
theorem sendNotice_wf {close : Bool} (h : StoresWf s) : StoresWf (sendNotice s g part close) := h
theorem countSlot_wf (h : StoresWf s) : StoresWf (countSlot s g part) := ite_wf (sendNotice_wf (modSpar_wf (modSpar_wf h))) (modSpar_wf h)
theorem uncountSlot_wf (h : StoresWf s) : StoresWf (uncountSlot s g part) := ite_wf (sendNotice_wf (modSpar_wf (modSpar_wf h))) (modSpar_wf h)
theorem spillOwn_wf {p : Producer} (h : StoresWf s) : StoresWf (spillOwn s g p tag value cls kind) :=
  ite_wf (appendSlot_wf h) (countSlot_wf (appendSlot_wf h))
theorem onDie_wf (hs : StoresWf s) (ht : StoresWf t) : OutWf (onDie s d t) := next_wf (ite_wf ht hs)
theorem unitDo_wf {live : Bool} (hs : StoresWf s) (ht : StoresWf t) : OutWf (unitDo s d live t) := onDie_wf hs (ite_wf ht hs)
theorem busCount_wf (h : StoresWf s) : StoresWf (busCount s i) := setReg_kept wf_kept (count_kept wf_kept h)
theorem reject_wf (h : StoresWf s) : StoresWf (reject s d b) := count_kept wf_kept h
theorem regTake_wf (hs : StoresWf s) (ht : StoresWf t) : StoresWf (regTake s d b w t) :=
  ite_wf (busCount_wf hs) (ite_wf (reject_wf hs) (ite_wf (reject_wf hs) ht))
theorem regDo_wf {live : Bool} (hs : StoresWf s) (ht : StoresWf t) : OutWf (regDo s d b w live t) := next_wf (regTake_wf hs (ite_wf ht hs))
theorem setHeld_wf (h : StoresWf s) : StoresWf (setHeld s d b w v) := h
theorem cmdBegin_wf {cc : Nat} (h : StoresWf s) : StoresWf (cmdBegin s d b w cc) := upd_wf rfl rfl (takeFree_kept wf_kept h)
theorem startCmd_wf {cc : Nat} {fields effect : State → State} (h : StoresWf s) (hfields : ∀ x0, StoresWf x0 → StoresWf (fields x0))
    (heffect : ∀ x0, StoresWf x0 → StoresWf (effect x0)) : StoresWf (startCmd s d b w cc fields effect) :=
  ite_wf (reject_wf (hfields _ h)) (heffect _ (cmdBegin_wf h))
theorem parityWrite_wf (h : StoresWf s) : StoresWf (parityWrite s d b w) := by
  unfold parityWrite
  extract_lets +onlyGivenNames x s'
  split
  · exact ite_wf (ite_wf (modDie_wf (injUse_kept wf_kept (modDie_wf h))) (injUse_kept wf_kept (modDie_wf h))) (modDie_wf h)
  · exact modDie_wf h
theorem sparDo_wf {spar : Nat} (hs : StoresWf s) (ht : StoresWf t) : OutWf (sparDo s die spar t) := unitDo_wf hs ht
theorem schDo_wf (hs : StoresWf s) (ht : StoresWf t) : OutWf (schDo s die t) := unitDo_wf hs ht
theorem modWork_wf {f : Work → Work} (h : StoresWf s) : StoresWf (modWork s i f) := h
theorem modCtrl_wf {c : Nat} {f : Ctrl → Ctrl} (h : StoresWf s) : StoresWf (modCtrl s c f) := h
theorem evPush_wf {v0 v1 : Word} (h : StoresWf s) : StoresWf (evPush s k kind v0 v1) := modEng_wf h
theorem setEnt_wf {v : Word} (h : StoresWf s) : StoresWf (setEnt s i w v) := by
  unfold setEnt
  split
  · exact store_kept wf_kept h
  · exact h
theorem setEntF_wf {hi lo : Nat} (h : StoresWf s) : StoresWf (setEntF s i w hi lo v) := by
  unfold setEntF
  split
  · exact unitMod_kept wf_kept h
  · exact h
theorem entClean_wf (h : StoresWf s) : SndWf (entClean s d i) := by
  unfold entClean
  split
  · exact readClean_kept wf_kept h
  · exact snd_mk_wf h
theorem onEntry_wf {f : State → State} (h : StoresWf s) (hf : ∀ x0, StoresWf x0 → StoresWf (f x0)) : StoresWf (onEntry s d i f) :=
  ite_wf (hf _ (entClean_wf h)) (entClean_wf h)
theorem closeWith_wf {reason detail : Nat} {inDoubt : Bool} (h : StoresWf s) : StoresWf (closeWith s i reason detail inDoubt) :=
  modWork_wf (setEntF_wf (setEnt_wf (setEntF_wf (setEntF_wf h))))
theorem ldgMark_wf (h : StoresWf s) : StoresWf (ldgMark s d old) := modDie_wf (watermarkN_wf h)
theorem jMark_wf (h : StoresWf s) : StoresWf (jMark s d old) := modDie_wf (watermarkN_wf h)
theorem ldgTake_wf (h : StoresWf s) : StoresWf (ldgTake s d i) := ldgMark_wf (modChan_wf h)
theorem ldgFree_wf (h : StoresWf s) : StoresWf (ldgFree s d i) := ldgMark_wf (modChan_wf h)
theorem pickIndex_wf (h : StoresWf s) : SndWf (pickIndex s d) := ite_wf (snd_mk_wf h) (snd_mk_wf (takeFree_kept wf_kept h))
theorem pctAdd_wf {k : Word} (h : StoresWf s) : StoresWf (pctAdd s d p w k) := farAdd_wf h
theorem crSlot_wf (h : StoresWf s) : SndWf (crSlot s d b n) :=
  ite_wf (snd_mk_wf (readClean_kept wf_kept h)) (snd_mk_wf (readClean_kept wf_kept (readClean_kept wf_kept h)))
theorem crTake_wf {words : List Word} (h : StoresWf s) : SndWf (crTake s d p words) := by
  refine ite_wf ?_ ?_
  · exact snd_mk_wf (readClean_kept wf_kept h)
  · extract_lets +onlyGivenNames b x
    split
    · exact snd_mk_wf (crSlot_wf (readClean_kept wf_kept h))
    · exact snd_mk_wf (store_kept wf_kept (store_kept wf_kept (stores_wf (crSlot_wf (readClean_kept wf_kept h)))))
theorem crWrite_wf {hart : HeldRec} (h : StoresWf s) : SndWf (crWrite s d p hart) :=
  ite_wf (crTake_wf h) (snd_mk_wf (evRaise_kept wf_kept (modChan_wf (pctAdd_wf (crTake_wf h)))))
theorem doneToken_wf {e : Nat} {ctag v : Word} (h : StoresWf s) : StoresWf (doneToken s d e ctag v) := ite_wf h (sendToken_wf h)
theorem refuse_wf {ctag : Word} {reason : Nat} {rec : Bool} (h : StoresWf s) : StoresWf (refuse s k part ctag user kind reason rec) := by
  unfold refuse
  extract_lets +onlyGivenNames d t u
  have hu : StoresWf u := doneToken_wf (ite_wf h (pctAdd_wf h))
  exact ite_wf (ite_wf (crWrite_wf hu) (modEng_wf (crWrite_wf hu))) hu
theorem jPut_wf {r : JRec} (h : StoresWf s) : StoresWf (jPut s d r) := jMark_wf (modChan_wf h)
theorem relog_wf (h : StoresWf s) : StoresWf (relog s d) := by
  unfold relog
  extract_lets +onlyGivenNames c
  split
  · exact ite_wf (jPut_wf h) h
  · exact h
theorem jAppend_wf {r : JRec} (h : StoresWf s) : StoresWf (jAppend s d r) := relog_wf (jPut_wf h)
theorem advanceHead_wf (h : StoresWf s) : StoresWf (advanceHead s d) := jMark_wf (modChan_wf h)
theorem release_wf (h : StoresWf s) : StoresWf (release s d i) :=
  ite_wf (ite_wf (setEntF_wf (crWrite_wf (doneToken_wf h))) (crWrite_wf (doneToken_wf h))) (setEntF_wf (doneToken_wf h))
theorem ledgerPort_wf {w0 : Word} (h : StoresWf s) : StoresWf (ledgerPort s i w0) := by
  unfold ledgerPort
  split
  · exact h
  · exact ite_wf (ite_wf (jAppend_wf (release_wf (ite_wf (pctAdd_wf (setEnt_wf h)) (setEnt_wf h))))
      (release_wf (ite_wf (pctAdd_wf (setEnt_wf h)) (setEnt_wf h)))) (setEnt_wf h)
theorem termDecide_wf (h : StoresWf s) : StoresWf (termDecide s i) := ite_wf (ledgerPort_wf h) h
theorem retire_wf (h : StoresWf s) : StoresWf (retire s d i) :=
  advanceHead_wf (ldgFree_wf (upd_wf rfl rfl (jMark_wf (modChan_wf (setEntF_wf (ite_wf (pctAdd_wf (pctAdd_wf h)) (pctAdd_wf h)))))))
theorem strmEnter_wf {x : StrmItem} (h : StoresWf s) : StoresWf (strmEnter s d x) := by
  refine ite_wf ?_ ?_
  · refine ite_wf ?_ ?_
    · exact h
    · split
      · exact modDie_wf h
      · exact ite_wf (modDie_wf h) (give_kept wf_kept h)
  · exact modLink_wf h
theorem macMove_wf (h : StoresWf s) : OptWf StoresWf (macMove s d) := by
  unfold macMove
  split
  · exact none_wf
  · exact ite_wf (some_wf (strmEnter_wf (modDie_wf h))) none_wf
theorem hdrMove_wf (h : StoresWf s) : OptWf StoresWf (hdrMove s d) := by
  unfold hdrMove
  split
  · exact none_wf
  · exact ite_wf (some_wf (strmEnter_wf (modDie_wf h))) none_wf
theorem pauseEnd_wf (h : StoresWf s) : OptWf StoresWf (pauseEnd s d) := by
  unfold pauseEnd
  split
  · exact some_wf (give_kept wf_kept (modDie_wf h))
  · exact none_wf
theorem rawMove_wf (h : StoresWf s) : OptWf StoresWf (rawMove s d) := by
  unfold rawMove
  split
  · exact ite_wf none_wf (some_wf (give_kept wf_kept (modDie_wf h)))
  · exact none_wf
theorem linkMove_wf (h : StoresWf s) : OptWf StoresWf (linkMove s d k) := by
  unfold linkMove
  split
  · exact none_wf
  · exact ite_wf (ite_wf (some_wf (modLink_wf (slotUsed_kept wf_kept h))) (some_wf (strmEnter_wf (modLink_wf (slotUsed_kept wf_kept h))))) none_wf
theorem portMove_wf (h : StoresWf s) : OptWf StoresWf (portMove s d p) := by
  unfold portMove
  split
  · exact ite_wf (some_wf (modEng_wf (evPush_wf (takeFree_kept wf_kept (modDie_wf h))))) none_wf
  · exact none_wf
theorem firstMove_wf {l : List (State → Option State)} (hl : ∀ f ∈ l, OptWf StoresWf (f s)) : OptWf StoresWf (firstMove s l) := by
  induction l with
  | nil => exact none_wf
  | cons f l ih =>
    exact elim_wf (hl f List.mem_cons_self) (ih fun g hg => hl g (List.mem_cons_of_mem _ hg)) fun _ ht => some_wf ht
theorem strmMoves_wf (h : StoresWf s) : ∀ f ∈ strmMoves s, OptWf StoresWf (f s) := by
  intro f hf
  obtain ⟨d, -, hf⟩ := List.mem_flatMap.mp hf
  simp only [List.mem_cons, List.not_mem_nil, or_false] at hf
  rcases hf with rfl | rfl | rfl | rfl | rfl | rfl | rfl | rfl
  · exact pauseEnd_wf h
  · exact rawMove_wf h
  · exact portMove_wf h
  · exact portMove_wf h
  · exact linkMove_wf h
  · exact linkMove_wf h
  · exact macMove_wf h
  · exact hdrMove_wf h
theorem strmRun_wf (h : StoresWf s) : StoresWf (strmRun n s) := by
  induction n generalizing s with
  | zero => exact h
  | succ n ih => exact elim_wf (firstMove_wf (strmMoves_wf h)) h fun _ ht => ih ht
theorem strmSettle_wf (h : StoresWf s) : StoresWf (strmSettle s) := ite_wf (strmRun_wf h) h
theorem strmSend_wf {x : StrmItem} (h : StoresWf s) : StoresWf (strmSend s d x) := strmSettle_wf (modDie_wf h)

end Sys2Proof.Machine
end

section
/-! SUPPORT. The mesh, the scheduler, matching and progress keep the stores (log entry 2). -/

namespace Sys2Proof.Machine

variable {s : State} {a arity d die entry g gate k link msg n p part r set slot spar v w : Nat} {f : Flit} {i : Inst} {out : MeshPort}
  {err : BitVec 160} {pool : Pool} {vc1 : Bool} {key tag : Word} {m : Match} {fr : FrameLine} {cl : CodeletLine} {t : Trap}

theorem toTx_wf {fromMesh : Bool} (h : StoresWf s) : OptWf StoresWf (toTx s d k f fromMesh) :=
  ite_wf (some_wf (deadFlit_kept wf_kept h)) (ite_wf (some_wf (modLink_wf h)) none_wf)
theorem creditBack_wf {i : Nat} (h : StoresWf s) : StoresWf (creditBack s d k i) := modLink_wf h
theorem drainRx_wf {i : Nat} (h : StoresWf s) : StoresWf (drainRx s d k i) := by
  unfold drainRx
  split
  · exact h
  · extract_lets +onlyGivenNames r p moved
    have hm : OptWf StoresWf moved := ite_wf (ite_wf (some_wf (modRouter_wf h)) none_wf) (toTx_wf h)
    clear_value moved
    split
    · exact creditBack_wf (modLink_wf (of_some hm rfl))
    · exact h
theorem drainAll_wf (h : StoresWf s) : StoresWf (drainAll s d k) := foldl_wf (fun _ _ h => drainRx_wf h) h
theorem hopTo_wf (h : StoresWf s) : OptWf StoresWf (hopTo s d r out f) := by
  unfold hopTo
  split
  · exact ite_wf (some_wf (modRouter_wf h)) none_wf
  · exact ite_wf (toTx_wf h) none_wf
  · exact ite_wf (toTx_wf h) none_wf
  · exact ite_wf (ite_wf (some_wf (deadFlit_kept wf_kept h)) (ite_wf none_wf (some_wf (modSpar_wf h))))
      (ite_wf (ite_wf (some_wf (modDie_wf h)) none_wf) none_wf)
  · exact none_wf
theorem refillReplies_wf (h : StoresWf s) : StoresWf (refillReplies s g) := by
  unfold refillReplies
  split
  · exact h
  · exact ite_wf (modRouter_wf (modSpar_wf h)) h
theorem refillInput_wf (h : StoresWf s) : StoresWf (refillInput s d r p v) :=
  ite_wf (ite_wf (refillReplies_wf (refillSrc_wf h)) (refillSrc_wf h)) (ite_wf (refillSrc_wf h) (ite_wf (drainAll_wf h) (ite_wf (drainAll_wf h) h)))
theorem grantHop_wf {c : Nat × Flit} (h : StoresWf s) : StoresWf (grantHop s d r out v c) := by
  unfold grantHop
  split
  next t ht => exact refillInput_wf (modRouter_wf (of_some (hopTo_wf h) ht))
  · exact h
theorem meshHop_wf (h : StoresWf s) : StoresWf (meshHop s d r out) := by
  unfold meshHop
  extract_lets c1 c0 due
  clear_value c1 c0
  split
  · exact grantHop_wf h
  · exact ite_wf (grantHop_wf h) (grantHop_wf h)
  · exact grantHop_wf h
  · exact h
theorem execMeshHop_wf {router : Nat} (h : StoresWf s) : OutWf (execMeshHop die router out s) := unitDo_wf h (meshHop_wf h)
theorem landFlit_wf {i : Nat} {a4 : Option Flit} (h : StoresWf s) : StoresWf (landFlit s d k i a4) := by
  unfold landFlit
  split
  · exact drainRx_wf (modLink_wf h)
  · exact creditBack_wf h
theorem arriveLink_wf {i : Nat} (h : StoresWf s) : StoresWf (arriveLink s d k i f err) := landFlit_wf (recvFlit_wf h)
theorem linkReceive_wf {pool : Nat} (h : StoresWf s) : StoresWf (linkReceive s d k pool v err) := by
  unfold linkReceive
  extract_lets +onlyGivenNames p i l
  split
  · exact h
  · refine ite_wf ?_ ?_
    · exact h
    · split
      · exact h
      next t1 ht1 => exact drainAll_wf (arriveLink_wf (modLink_wf (of_some (tokenSlot_wf h) ht1)))
theorem execLinkFlitReceive_wf (h : StoresWf s) : OutWf (execLinkFlitReceive die link pool vc1 err s) :=
  unitDo_wf h (strmSettle_wf (linkReceive_wf h))
theorem escapeSend_wf {pool : Nat} (h : StoresWf s) : StoresWf (escapeSend s d k pool v) := by
  unfold escapeSend
  extract_lets +onlyGivenNames i l
  split
  · exact h
  · refine ite_wf ?_ ?_
    · exact h
    · split
      · exact h
      next t1 ht1 => exact drainAll_wf (count_kept wf_kept (modLink_wf (modLink_wf (of_some (tokenSlot_wf h) ht1))))
theorem execEscapeSend_wf (h : StoresWf s) : OutWf (execEscapeSend die link pool vc1 s) := unitDo_wf h (escapeSend_wf h)
theorem escapeFree_wf (h : StoresWf s) : StoresWf (escapeFree s d k) := modLink_wf h
theorem escapeReceive_wf (h : StoresWf s) : StoresWf (escapeReceive s d k err) := by
  unfold escapeReceive
  split
  · exact h
  · extract_lets +onlyGivenNames t r
    have hr : StoresWf r.2 := recvFlit_wf (modLink_wf h)
    exact elim_of_wf (escapeFree_wf hr) fun _ => ite_wf (escapeFree_wf (deadFlit_kept wf_kept hr))
      (ite_wf (appendSlot_wf hr) (escapeFree_wf (appendSlot_wf hr)))
theorem execEscapeReceive_wf (h : StoresWf s) : OutWf (execEscapeReceive die link err s) := unitDo_wf h (escapeReceive_wf h)
theorem creditReturn_wf {i : Nat} (h : StoresWf s) : StoresWf (creditReturn s d k i) := ite_wf h (modLink_wf h)
theorem execCreditReturn_wf (h : StoresWf s) : OutWf (execCreditReturn die link pool vc1 s) := unitDo_wf h (creditReturn_wf h)
theorem sendFlow_wf {k : FlowKind} {who : FlowWho} (h : StoresWf s) : StoresWf (sendFlow s k g part key slot who) := ite_wf (deadTo_wf h) h
theorem assignSlots_wf (h : StoresWf s) : StoresWf (assignSlots s g n) := by
  induction n generalizing s with
  | zero => exact h
  | succ n ih =>
    unfold assignSlots
    split
    · exact h
    · split
      · exact ite_wf (ih (sendFlow_wf (modSpar_wf h))) h
      · exact h
theorem releaseFlow_wf (h : StoresWf s) : StoresWf (releaseFlow s g i) := ite_wf (sendFlow_wf h) h
theorem ratInst_wf {type : Nat} {info : Nat} {fkey : optParam Word 0} (h : StoresWf s) : StoresWf (ratInst s g type i slot info fkey) := ratEvent_wf h
theorem dissolve_wf (h : StoresWf s) : StoresWf (dissolve s g i) := foldl_wf (fun _ _ h => spillOwn_wf h) (countClu_wf (ratInst_wf h))
theorem discardNoEntry_wf (h : StoresWf s) : StoresWf (discardNoEntry s g i) := deferred_kept wf_kept (countClu_wf h)
theorem enter_wf (h : StoresWf s) : StoresWf (enter s g i) := assignSlots_wf (rlMark_wf (ratInst_wf (ptFill_wf (modSpar_wf h))))
theorem enterReady_wf {src sel : Nat} (h : StoresWf s) : StoresWf (enterReady s g i src sel) :=
  ite_wf (discardNoEntry_wf h) (ite_wf (unitTrap_wf h) (ite_wf (discardNoEntry_wf h) (ite_wf (dissolve_wf h) (enter_wf h))))
theorem rlRemove_wf (h : StoresWf s) : StoresWf (rlRemove s g k) := rlMark_wf (modSpar_wf h)
theorem promote_wf (h : StoresWf s) : StoresWf (promote s g k) := by
  unfold promote
  split
  · exact ite_wf (ratInst_wf (modSpar_wf h)) h
  · exact h
theorem execReadyPromote_wf (h : StoresWf s) : OutWf (execReadyPromote die spar entry s) := sparDo_wf h (promote_wf h)
theorem l2Read_wf {c : Ctx} {va : Nat} (h : StoresWf s) : OptWf SndWf (l2Read s c g va) := by
  unfold l2Read
  extract_lets +onlyGivenNames s'
  split
  · exact some_wf (snd_mk_wf (xlateNote_wf h))
  · exact ite_wf (some_wf (snd_mk_wf (noteRead_kept wf_kept (xlateNote_wf h))))
      (map_wf (fun _ h1 => snd_mk_wf h1) (lineForRead_wf (xlateNote_wf h)))
theorem keyReturn_wf (h : StoresWf s) : StoresWf (keyReturn s g k) := by
  unfold keyReturn
  split
  · refine ite_wf ?_ ?_
    · extract_lets +onlyGivenNames va
      split
      · exact h
      next _ t1 ht1 => exact unitTrap_wf (rlRemove_wf (l2Read_wf h _ ht1))
      next _ t1 ht1 => exact ite_wf (discardNoEntry_wf (rlRemove_wf (l2Read_wf h _ ht1))) (assignSlots_wf (modSpar_wf (l2Read_wf h _ ht1)))
    · exact h
  · exact h
theorem execFlowKeyReturn_wf (h : StoresWf s) : OutWf (execFlowKeyReturn die spar entry s) := sparDo_wf h (keyReturn_wf h)
theorem startPe_wf {pair : Option (Bool × Nat)} (h : StoresWf s) : StoresWf (startPe s g k i pair) := modPe_kept wf_kept h
theorem startOn_wf {slots : List Nat} (h : StoresWf s) : FstWf (startOn s g i slots) :=
  ite_wf (fst_mk_wf (modSpar_wf (startPe_wf (startPe_wf h)))) (fst_mk_wf (modSpar_wf (startPe_wf h)))
theorem dispatchOne_wf (h : StoresWf s) : StoresWf (dispatchOne s g) := by
  unfold dispatchOne
  extract_lets +onlyGivenNames slots
  split
  · exact ite_wf (ratInst_wf (modHw_kept wf_kept (ptFill_wf (takeFree_kept wf_kept (startOn_wf (rlRemove_wf h)))))) h
  · exact h
theorem execDispatch_wf (h : StoresWf s) : OutWf (execDispatch die spar s) :=
  sparDo_wf h (ite_wf (dispatchOne_wf h) (dispatchOne_wf (dispatchOne_wf h)))
theorem setFlows_wf {l : List FlowEntry} (h : StoresWf s) : StoresWf (setFlows s d l) := flMark_wf (modDie_wf h)
theorem ratFlow_wf {type : Nat} {w : FlowWho} (h : StoresWf s) : StoresWf (ratFlow s d type g part key w) := ratEvent_wf h
theorem grantTo_wf {e : FlowEntry} (h : StoresWf s) : StoresWf (grantTo s d e) := ratFlow_wf h
theorem markRefused_wf {m : FlowMsg} (h : StoresWf s) : StoresWf (markRefused s m) := modSpar_wf h
theorem admitFlow_wf {m : FlowMsg} (h : StoresWf s) : StoresWf (admitFlow s d m) := by
  refine ite_wf ?_ ?_
  · exact ite_wf (grantTo_wf (setFlows_wf h)) (ratFlow_wf (setFlows_wf h))
  · split
    next t ht => exact markRefused_wf (count_kept wf_kept (of_some (cohCross_wf h) ht))
    · exact h
theorem admitAll_wf {l : List FlowMsg} (h : StoresWf s) : StoresWf (admitAll s d n l) := by
  induction n generalizing s l with
  | zero => exact h
  | succ n ih =>
    cases l with
    | nil => exact h
    | cons _ _ => exact ih (foldl_wf (fun _ _ ht => admitFlow_wf ht) (ite_wf (modDie_wf h) h))
theorem flowCross_wf {m : FlowMsg} (h : StoresWf s) : OptWf StoresWf (flowCross s m) := cohCross_wf h
theorem crossRequests_wf {ks : List Nat} (h : StoresWf s) : SndWf (crossRequests s ks) := foldl_wf (by
    intro _ _ h
    split
    · exact elim_wf (flowCross_wf h) h (fun _ h2 => snd_mk_wf h2)
    · exact h) (snd_mk_wf h)
theorem execFlowRequest_wf {msgs : List Nat} (h : StoresWf s) : OutWf (execFlowRequest die msgs s) :=
  schDo_wf h (admitAll_wf (upd_wf rfl rfl (crossRequests_wf h)))
theorem askAgain_wf (h : StoresWf s) : StoresWf (askAgain s g slot) := by
  unfold askAgain
  split
  · exact sendFlow_wf (modSpar_wf h)
  · exact h
theorem execFlowRequestRetry_wf (h : StoresWf s) : OutWf (execFlowRequestRetry die spar slot s) := sparDo_wf h (askAgain_wf h)
theorem takeGrant_wf (h : StoresWf s) : StoresWf (takeGrant s die msg) := by
  unfold takeGrant
  split
  · exact ite_wf (elim_wf (flowCross_wf h) h (by
    intro _ h1
    extract_lets +onlyGivenNames s'
    split
    · exact modSpar_wf h1
    · exact sendFlow_wf h1)) h
  · exact h
theorem execFlowGrant_wf (h : StoresWf s) : OutWf (execFlowGrant die msg s) := onDie_wf h (takeGrant_wf h)
theorem grantNext_wf (h : StoresWf s) : StoresWf (grantNext s d part key) := by
  unfold grantNext
  split
  · exact grantTo_wf (modDie_wf h)
  · exact h
theorem takeRelease_wf (h : StoresWf s) : StoresWf (takeRelease s die msg) := by
  unfold takeRelease
  split
  · exact ite_wf (elim_wf (flowCross_wf h) h (by
    intro _ h1
    extract_lets +onlyGivenNames s'
    split
    · exact grantNext_wf (ratFlow_wf (setFlows_wf h1))
    · exact h1)) h
  · exact h
theorem execFlowRelease_wf (h : StoresWf s) : OutWf (execFlowRelease die msg s) := schDo_wf h (takeRelease_wf h)
theorem takeCancel_wf (h : StoresWf s) : StoresWf (takeCancel s die msg) := by
  unfold takeCancel
  split
  · exact ite_wf (elim_wf (flowCross_wf h) h (by
    intro _ h1
    extract_lets +onlyGivenNames s'
    split
    · exact setFlows_wf h1
    · exact h1)) h
  · exact h
theorem execFlowCancel_wf (h : StoresWf s) : OutWf (execFlowCancel die msg s) := schDo_wf h (takeCancel_wf h)
theorem purgeEntry_wf (h : StoresWf s) : StoresWf (purgeEntry s g i) :=
  ite_wf (releaseFlow_wf (countClu_wf (ratInst_wf h))) (ite_wf (sendFlow_wf (countClu_wf (ratInst_wf h))) (countClu_wf (ratInst_wf h)))
theorem purgeReady_wf (h : StoresWf s) : StoresWf (purgeReady s g tag) :=
  assignSlots_wf (foldl_wf (fun _ _ h => purgeEntry_wf h) (rlMark_wf (modSpar_wf h)))
theorem enterItem_wf {asid : Nat} {w0 w1 a0 a1 : Word} {constBase : Nat} (h : StoresWf s) : StoresWf
    (enterItem s g part asid w0 w1 a0 a1 constBase entry) :=
  enter_wf h
theorem itemTake_wf (h : StoresWf s) : StoresWf (itemTake s g) := by
  refine ite_wf ?_ ?_
  · exact h
  · refine ite_wf ?_ ?_
    · exact hwPoison_kept wf_kept (unitRead_kept wf_kept h)
    · extract_lets +onlyGivenNames s'
      split
      · exact store_kept wf_kept (store_kept wf_kept (hwPoison_kept wf_kept (unitRead_kept wf_kept (unitRead_kept wf_kept h))))
      · refine ite_wf ?_ ?_
        · exact unitRead_kept wf_kept (unitRead_kept wf_kept h)
        · extract_lets +onlyGivenNames c graph s'
          split
          · exact ite_wf (store_kept wf_kept (store_kept wf_kept (deferred_kept wf_kept
              (countClu_wf (unitNote_wf (unitNote_wf (unitRead_kept wf_kept (unitRead_kept wf_kept h))))))))
              (store_kept wf_kept (store_kept wf_kept (enterItem_wf (unitNote_wf (unitNote_wf (unitRead_kept wf_kept (unitRead_kept wf_kept h)))))))
          · exact store_kept wf_kept (store_kept wf_kept (unitTrap_wf (countClu_wf
              (unitNote_wf (unitNote_wf (unitRead_kept wf_kept (unitRead_kept wf_kept h)))))))
theorem execItemTake_wf (h : StoresWf s) : OutWf (execItemTake die spar s) := sparDo_wf h (itemTake_wf h)
theorem tryPost_wf {u asid : Nat} {w0 w1 w2 w3 : Word} (h : StoresWf s) : SndWf (tryPost s u part asid g w0 w1 w2 w3) :=
  ite_wf (snd_mk_wf (hwPoison_kept wf_kept (unitRead_kept wf_kept h))) (ite_wf (snd_mk_wf (farAdd_wf (unitRead_kept wf_kept h)))
    (ite_wf (snd_mk_wf (store_kept wf_kept (store_kept wf_kept (stores_wf (farAdd_wf (unitRead_kept wf_kept h))))))
    (snd_mk_wf (unitTakes_kept wf_kept (unitRead_kept wf_kept h)))))
theorem ratWrite_wf (h : StoresWf s) : StoresWf (ratWrite s die spar) := by
  unfold ratWrite
  extract_lets +onlyGivenNames g
  split
  · exact h
  · exact ite_wf (count_kept wf_kept (modSpar_wf h)) (setReg_kept wf_kept (stores_wf (modSpar_wf h)))
theorem execRatlineRecordWrite_wf (h : StoresWf s) : OutWf (execRatlineRecordWrite die spar s) := unitDo_wf h (ratWrite_wf h)
theorem filterUp_wf {frame : Nat} (h : StoresWf s) : StoresWf (filterUp s g part frame) := modSpar_wf h
theorem filterDown_wf {frame : Nat} (h : StoresWf s) : StoresWf (filterDown s g part frame) := modSpar_wf h
theorem setWay_wf {m : Option Match} (h : StoresWf s) : StoresWf (setWay s g set w m) := modSpar_wf h
theorem touch_wf (h : StoresWf s) : StoresWf (touch s g set w) := foldl_wf (by
    intro _ _ h
    split
    · exact setWay_wf h
    · exact h) h
theorem fire_wf {ops : List Word} {kinds : List Nat} (h : StoresWf s) : StoresWf (fire s g fr cl tag arity ops kinds) := enterReady_wf h
theorem fireDirect_wf (h : StoresWf s) : StoresWf (fireDirect s g fr cl f arity) := fire_wf h
theorem fireMatch_wf (h : StoresWf s) : StoresWf (fireMatch s g fr cl m) := fire_wf h
theorem misaddressed_wf (h : StoresWf s) : StoresWf (misaddressed s g f) := unitTrap_wf (countClu_wf h)
theorem duplicate_wf (h : StoresWf s) : StoresWf (duplicate s g f) := unitTrap_wf (countClu_wf h)
theorem cacheFrame_wf {l : FrameLine} (h : StoresWf s) : StoresWf (cacheFrame s g l) := modSpar_wf h
theorem cacheCodelet_wf {l : CodeletLine} (h : StoresWf s) : StoresWf (cacheCodelet s g l) := modSpar_wf h
theorem hitWay_wf (h : StoresWf s) : StoresWf (hitWay s g fr cl set w m f) :=
  ite_wf (duplicate_wf h) (ite_wf (fireMatch_wf (touch_wf (setWay_wf h))) (touch_wf (setWay_wf h)))
theorem install_wf (h : StoresWf s) : OptWf StoresWf (install s g m) := by
  unfold install
  extract_lets +onlyGivenNames set
  split
  · exact some_wf (touch_wf (setWay_wf h))
  · refine ite_wf ?_ ?_
    · exact none_wf
    · extract_lets +onlyGivenNames w
      split
      · exact some_wf (touch_wf (setWay_wf (modSpar_wf h)))
      · exact none_wf
theorem storePath_wf (h : StoresWf s) : OptWf StoresWf (storePath s g fr cl arity f) := by
  unfold storePath
  extract_lets +onlyGivenNames set
  split
  · split
    · exact some_wf (hitWay_wf h)
    · exact none_wf
  · exact install_wf h
theorem toMiss_wf (h : StoresWf s) : OptWf StoresWf (toMiss s g f) := ite_wf (some_wf (modSpar_wf h)) none_wf
theorem dropNever_wf (h : StoresWf s) : StoresWf (dropNever s g f) := deferred_kept wf_kept (countClu_wf h)
theorem pipeline_wf (h : StoresWf s) : OptWf StoresWf (pipeline s g f) := by
  refine ite_wf ?_ ?_
  · exact some_wf (dropNever_wf h)
  · refine ite_wf ?_ ?_
    · exact some_wf (misaddressed_wf h)
    · refine ite_wf ?_ ?_
      · exact toMiss_wf h
      · split
        · exact toMiss_wf h
        · refine ite_wf ?_ ?_
          · exact some_wf (countClu_wf h)
          · split
            · exact toMiss_wf h
            · exact ite_wf (some_wf (misaddressed_wf h)) (ite_wf (some_wf (fireDirect_wf h)) (ite_wf (toMiss_wf h) (storePath_wf h)))
theorem iqRemove_wf (h : StoresWf s) : StoresWf (iqRemove s g k) := iqMark_wf (modSpar_wf h)
theorem takeQueued_wf (h : StoresWf s) : StoresWf (takeQueued s g) := by
  unfold takeQueued
  split
  · refine ite_wf ?_ ?_
    · exact h
    · split
      next t1 ht1 => exact iqRemove_wf (of_some (pipeline_wf h) ht1)
      · exact modSpar_wf (iqRemove_wf h)
  · exact h
theorem takeStanding_wf (h : StoresWf s) : StoresWf (takeStanding s g f) := by
  unfold takeStanding
  split
  next t ht => exact modSpar_wf (of_some (pipeline_wf h) ht)
  · exact h
theorem takeReentry_wf {rest : List Flit} (h : StoresWf s) : StoresWf (takeReentry s g f rest) := by
  unfold takeReentry
  split
  next t ht => exact modSpar_wf (of_some (pipeline_wf h) ht)
  · exact h
theorem takeToken_wf (h : StoresWf s) : StoresWf (takeToken s g) := by
  unfold takeToken
  split
  · exact ite_wf (takeReentry_wf h) (takeStanding_wf h)
  · exact takeStanding_wf h
  · exact takeReentry_wf h
  · exact takeQueued_wf h
theorem execTokenArrival_wf (h : StoresWf s) : OutWf (execTokenArrival die spar s) := sparDo_wf h (takeToken_wf h)
theorem notePoison_wf {b : Nat} (h : StoresWf s) : StoresWf (notePoison s d b) := foldl_wf (by
    intro _ _ h
    split
    · exact hwPoison_kept wf_kept h
    · exact h) h
theorem refill_wf (h : StoresWf s) : OptWf StoresWf (refill s g fr cl f a) :=
  ite_wf (map_wf (fun _ h => duplicate_wf (filterDown_wf (store_kept wf_kept (countClu_wf h)))) (install_wf h))
    (ite_wf (some_wf (fireMatch_wf (filterDown_wf (store_kept wf_kept (countClu_wf h)))))
    (map_wf (fun _ h => filterDown_wf (store_kept wf_kept (countClu_wf h))) (install_wf h)))
theorem resolve_wf (h : StoresWf s) : OptWf StoresWf (resolve s g fr cl f) := by
  refine ite_wf ?_ ?_
  · exact some_wf (misaddressed_wf h)
  · refine ite_wf ?_ ?_
    · exact some_wf (fireDirect_wf h)
    · refine ite_wf ?_ ?_
      · exact storePath_wf h
      · extract_lets +onlyGivenNames b s'
        split
        · exact refill_wf (notePoison_wf (unitRead_kept wf_kept h))
        · exact storePath_wf (notePoison_wf (unitRead_kept wf_kept h))
theorem probe_wf (h : StoresWf s) : OptWf StoresWf (probe s g f) := by
  unfold probe
  extract_lets +onlyGivenNames d part frame held s'
  split
  · exact some_wf (hwPoison_kept wf_kept (ite_wf (unitRead_kept wf_kept h) h))
  · split
    · exact some_wf (countClu_wf (ite_wf (unitRead_kept wf_kept h) h))
    · refine ite_wf ?_ ?_
      · exact some_wf (countClu_wf (ite_wf (cacheFrame_wf (ite_wf (unitRead_kept wf_kept h) h)) (ite_wf (unitRead_kept wf_kept h) h)))
      · split
        · exact resolve_wf (ite_wf (cacheFrame_wf (ite_wf (unitRead_kept wf_kept h) h)) (ite_wf (unitRead_kept wf_kept h) h))
        · extract_lets +onlyGivenNames s'
          split
          · exact resolve_wf (cacheCodelet_wf (unitNote_wf (unitNote_wf (ite_wf (cacheFrame_wf (ite_wf (unitRead_kept wf_kept h) h))
              (ite_wf (unitRead_kept wf_kept h) h)))))
          · exact some_wf (misaddressed_wf (unitNote_wf (unitNote_wf (ite_wf (cacheFrame_wf (ite_wf (unitRead_kept wf_kept h) h))
              (ite_wf (unitRead_kept wf_kept h) h)))))
theorem reenter_wf {key : Nat} (h : StoresWf s) : StoresWf (reenter s g key) := modSpar_wf h
theorem probeReturn_wf (h : StoresWf s) : StoresWf (probeReturn s g k) := by
  unfold probeReturn
  split
  · refine ite_wf ?_ ?_
    · exact h
    · split
      next t1 ht1 => exact reenter_wf (of_some (probe_wf (modSpar_wf h)) ht1)
      · exact h
  · exact h
theorem execProbeDataReturn_wf (h : StoresWf s) : OutWf (execProbeDataReturn die spar entry s) := sparDo_wf h (probeReturn_wf h)
theorem evbHead_wf {m : Option Match} (h : StoresWf s) : StoresWf (evbHead s g m) := modSpar_wf h
theorem spillOperand_wf (h : StoresWf s) : StoresWf (spillOperand s g m p) := spillOwn_wf h
theorem dissolveVictim_wf (h : StoresWf s) : StoresWf (dissolveVictim s g m n) := by
  induction n generalizing s m with
  | zero => exact evbHead_wf (countClu_wf h)
  | succ n ih =>
    unfold dissolveVictim
    split
    · exact evbHead_wf (countClu_wf h)
    · exact ite_wf (evbHead_wf (spillOperand_wf h)) (ih (spillOperand_wf h))
theorem evict_wf (h : StoresWf s) : StoresWf (evict s g) := by
  unfold evict
  split
  · exact h
  · refine ite_wf ?_ ?_
    · exact h
    · refine ite_wf ?_ ?_
      · exact dissolveVictim_wf h
      · refine ite_wf ?_ ?_
        · exact evbHead_wf (countCluN_wf (ptFill_wf h))
        · extract_lets +onlyGivenNames b s'
          split
          · exact evbHead_wf (filterUp_wf (countClu_wf (stores_wf (notePoison_wf (unitRead_kept wf_kept (ptFill_wf h))))))
          · exact dissolveVictim_wf (notePoison_wf (unitRead_kept wf_kept (ptFill_wf h)))
theorem execEviction_wf (h : StoresWf s) : OutWf (execEviction die spar s) := sparDo_wf h (evict_wf h)
theorem iqEnter_wf {reserved refill : Bool} (h : StoresWf s) : StoresWf (iqEnter s g f reserved refill) := iqMark_wf (modSpar_wf (ptFill_wf h))
theorem leaveIngress_wf (h : StoresWf s) : StoresWf (leaveIngress s g vc1) := modSpar_wf h
theorem divertFlit_wf (h : StoresWf s) : StoresWf (divertFlit s g f) :=
  ite_wf (dropNever_wf (countClu_wf h)) (ite_wf (spillOwn_wf (countClu_wf h)) (spillOwn_wf (countClu_wf h)))
theorem ingress_wf (h : StoresWf s) : StoresWf (ingress s g vc1 err) := by
  unfold ingress
  split
  · exact h
  · exact ite_wf h (elim_of_wf (recvFlit_wf (leaveIngress_wf h)) (fun _ => ite_wf (divertFlit_wf (recvFlit_wf (leaveIngress_wf h)))
      (iqEnter_wf (recvFlit_wf (leaveIngress_wf h)))))
theorem execFlitIngress_wf (h : StoresWf s) : OutWf (execFlitIngress die spar vc1 err s) := sparDo_wf h (ingress_wf h)
theorem execDiversionStart_wf (h : StoresWf s) : OutWf (execDiversionStart die spar part s) := sparDo_wf h (ite_wf (modSpar_wf h) h)
theorem execDiversionEnd_wf (h : StoresWf s) : OutWf (execDiversionEnd die spar part s) := sparDo_wf h (ite_wf (modSpar_wf h) h)
theorem execSpillRingAppend_wf {value : Word} {kind : BitVec 2} (h : StoresWf s) : OutWf (execSpillRingAppend die spar tag value kind s) :=
  unitDo_wf h (appendSlot_wf h)
theorem holdRetry_wf (h : StoresWf s) : StoresWf (holdRetry s g k) := by
  unfold holdRetry
  split
  · exact h
  · refine ite_wf ?_ ?_
    · split
      · exact escapeFree_wf (modSpar_wf (hwPoison_kept wf_kept (unitRead_kept wf_kept h)))
      · exact modSpar_wf (hwPoison_kept wf_kept (unitRead_kept wf_kept h))
    · refine ite_wf ?_ ?_
      · split
        · exact escapeFree_wf (writeSlot_wf (modSpar_wf (unitRead_kept wf_kept h)))
        · exact writeSlot_wf (modSpar_wf (unitRead_kept wf_kept h))
      · exact unitRead_kept wf_kept h
theorem execSpillRingHoldRetry_wf {hold : Nat} (h : StoresWf s) : OutWf (execSpillRingHoldRetry die spar hold s) := unitDo_wf h (holdRetry_wf h)
theorem ringConsume_wf (h : StoresWf s) : StoresWf (ringConsume s g) := by
  refine ite_wf ?_ ?_
  · exact h
  · refine ite_wf ?_ ?_
    · exact hwPoison_kept wf_kept (unitRead_kept wf_kept h)
    · extract_lets +onlyGivenNames s'
      split
      · exact ite_wf (store_kept wf_kept (store_kept wf_kept (hwPoison_kept wf_kept (unitRead_kept wf_kept (unitRead_kept wf_kept h)))))
          (hwPoison_kept wf_kept (unitRead_kept wf_kept (unitRead_kept wf_kept h)))
      · exact ite_wf (uncountSlot_wf (iqEnter_wf (store_kept wf_kept (store_kept wf_kept (unitRead_kept wf_kept (unitRead_kept wf_kept h))))))
          (unitRead_kept wf_kept (unitRead_kept wf_kept h))
theorem execSpillRingConsume_wf (h : StoresWf s) : OutWf (execSpillRingConsume die spar s) := sparDo_wf h (ringConsume_wf h)
theorem ringMeasure_wf (h : StoresWf s) : StoresWf (ringMeasure s g) := by
  conv in ringMeasure => delta ringMeasure
  extract_lets +onlyGivenNames d b t
  have ht : StoresWf t := unitRead_kept wf_kept h
  split
  · exact hwPoison_kept wf_kept ht
  · extract_lets occ old u r
    have hr : StoresWf r.1 := watermarkN_wf (setF_kept wf_kept ht)
    exact modSpar_wf hr
theorem execSpillRingMeasure_wf (h : StoresWf s) : OutWf (execSpillRingMeasure die spar s) := sparDo_wf h (ringMeasure_wf h)
theorem takePurge_wf (h : StoresWf s) : StoresWf (takePurge s g) := by
  unfold takePurge
  split
  · exact ite_wf h (ite_wf (dropNever_wf (iqRemove_wf h)) (ite_wf (modSpar_wf (iqRemove_wf h)) h))
  · exact h
theorem execPurge_wf (h : StoresWf s) : OutWf (execPurge die spar s) := sparDo_wf h (takePurge_wf h)
theorem purgeBucket_wf (h : StoresWf s) : StoresWf (purgeBucket s g tag) :=
  ite_wf (foldl_wf (fun _ _ h => ite_wf (filterDown_wf (store_kept wf_kept (countCluN_wf h))) h)
    (notePoison_wf (unitRead_kept wf_kept (ptFill_wf h)))) (ptFill_wf h)
theorem purgeMatch_wf (h : StoresWf s) : StoresWf (purgeMatch s g tag) := purgeBucket_wf (modSpar_wf (countCluN_wf h))
theorem finishPurge_wf (h : StoresWf s) : StoresWf (finishPurge s g) := by
  unfold finishPurge
  split
  · exact h
  · exact purgeDone_kept wf_kept (purgeReady_wf (purgeMatch_wf (modSpar_wf h)))
theorem destroyReads_wf (h : StoresWf s) : StoresWf (destroyReads s p) :=
  foldl_wf (fun _ _ h => unitRead_kept wf_kept h) (foldl_wf (fun _ _ h => unitRead_kept wf_kept h) h)
theorem destroySettle_wf (h : StoresWf s) : StoresWf (destroySettle s) := by
  unfold destroySettle
  split
  · exact ite_wf (modHw_kept wf_kept (unitMod_kept wf_kept (destroyReads_wf h))) (destroyReads_wf h)
  · exact h
theorem execPurgeComplete_wf (h : StoresWf s) : OutWf (execPurgeComplete die spar s) := sparDo_wf h (destroySettle_wf (finishPurge_wf h))
theorem noteClosing_wf {was : Bool} (h : StoresWf s) : StoresWf (noteClosing s d part was) := ite_wf (pptCount_wf h) h
theorem takeNotice_wf (h : StoresWf s) : StoresWf (takeNotice s die k) := by
  unfold takeNotice
  split
  · exact ite_wf h (elim_wf (cohCross_wf h) h (fun _ h1 => noteClosing_wf (modDie_wf (upd_wf rfl rfl (ptFill_wf h1)))))
  · exact h
theorem execAdmissionNotice_wf (h : StoresWf s) : OutWf (execAdmissionNotice die msg s) := schDo_wf h (takeNotice_wf h)
theorem gateSet_wf {hi : Bool} (h : StoresWf s) : StoresWf (gateSet s d a hi v) := unitMod_kept wf_kept h
theorem gateReply_wf {rtag v : Word} (h : StoresWf s) : StoresWf (gateReply s d part rtag v) := sendToken_wf h
theorem gateRefuse_wf {rtag : Word} (h : StoresWf s) : StoresWf (gateRefuse s d part gate rtag) := gateReply_wf (pptCount_wf (gateSet_wf h))
theorem gateWait_wf {w : Bool} (h : StoresWf s) : StoresWf (gateWait s d part gate w) := h
theorem gateAttempt_wf (h : StoresWf s) : StoresWf (gateAttempt s d part gate n) := by
  induction n generalizing s with
  | zero => exact gateWait_wf h
  | succ n ih =>
    refine ite_wf (gateWait_wf h) (ite_wf (ih (gateSet_wf (readClean_kept wf_kept h))) ?_)
    extract_lets +onlyGivenNames t
    have ht : StoresWf t := allocNote_wf (readClean_kept wf_kept h)
    extract_lets +onlyGivenNames rtag graph user
    split
    · exact ih (gateReply_wf (store_kept wf_kept (gateSet_wf (gateSet_wf (doAlloc_wf ht)))))
    · exact gateWait_wf (allocLost_wf ht)
    · exact ih (deferred_kept wf_kept (gateRefuse_wf (gateSet_wf ht)))
    · exact gateWait_wf ht
theorem gateTry_wf (h : StoresWf s) : StoresWf (gateTry s d part gate) := gateAttempt_wf h
theorem gateRequest_wf {o : GateOp} (h : StoresWf s) : StoresWf (gateRequest s d o) :=
  ite_wf (gateReply_wf h) (ite_wf (readClean_kept wf_kept h) (ite_wf (gateTry_wf (gateSet_wf (stores_wf (readClean_kept wf_kept h))))
    (gateTry_wf (gateRefuse_wf (readClean_kept wf_kept h)))))
theorem gateRelease_wf {o : GateOp} (h : StoresWf s) : StoresWf (gateRelease s d o) :=
  ite_wf h (ite_wf (readClean_kept wf_kept h) (gateTry_wf (ite_wf (gateSet_wf (readClean_kept wf_kept h)) (gateSet_wf (readClean_kept wf_kept h)))))
theorem gateMsg_wf {release : Bool} (h : StoresWf s) : StoresWf (gateMsg s die k release) := by
  unfold gateMsg
  split
  · exact ite_wf (ite_wf (gateRelease_wf (ptFill_wf h)) (gateRequest_wf (ptFill_wf h))) h
  · exact h
theorem execGateRequest_wf (h : StoresWf s) : OutWf (execGateRequest die msg s) := schDo_wf h (gateMsg_wf h)
theorem execGateRelease_wf (h : StoresWf s) : OutWf (execGateRelease die msg s) := schDo_wf h (gateMsg_wf h)
theorem gateRetry_wf (h : StoresWf s) : StoresWf (gateRetry s d part gate) :=
  ite_wf (ite_wf (gateTry_wf (readClean_kept wf_kept h)) (readClean_kept wf_kept h)) h
theorem execGateGrantRetry_wf (h : StoresWf s) : OutWf (execGateGrantRetry die part gate s) := schDo_wf h (gateRetry_wf h)
theorem fetchReply_wf (h : StoresWf s) : StoresWf (fetchReply s g k) := by
  unfold fetchReply
  split
  · refine ite_wf ?_ ?_
    · exact unitTrap_wf (unitRead_kept wf_kept (modSpar_wf h))
    · split
      · exact refillReplies_wf (upd_wf rfl rfl (unitRead_kept wf_kept (modSpar_wf h)))
      · exact noHome_wf (unitRead_kept wf_kept (modSpar_wf h))
  · exact h
theorem execFetchReply_wf {req : Nat} (h : StoresWf s) : OutWf (execFetchReply die spar req s) := sparDo_wf h (fetchReply_wf h)
theorem writeTrap_wf (h : StoresWf s) : StoresWf (writeTrap s d a t) := store_kept wf_kept (stores_wf h)
theorem trapToken_wf {v : Word} (h : StoresWf s) : StoresWf (trapToken s t v) := ite_wf (peRelease_wf h) (sendToken_wf h)
theorem deliver_wf (h : StoresWf s) : StoresWf (deliver s t) := by
  refine ite_wf (deferred_kept wf_kept h) ?_
  extract_lets b r k a lost w u free v
  have hr : StoresWf r.2 := farAdd_wf (ptFill_wf h)
  have hu : StoresWf u := ite_wf hr (ite_wf (hwPoison_kept wf_kept (unitRead_kept wf_kept hr)) (unitRead_kept wf_kept hr))
  have hv : StoresWf v := ite_wf (writeTrap_wf hu) (evRaise_kept wf_kept (modHw_kept wf_kept hu))
  exact ite_wf (evRaise_kept wf_kept hv) (trapToken_wf hv)
theorem execTrapDelivery_wf {trap : Nat} (h : StoresWf s) : OutWf (execTrapDelivery trap s) := by
  unfold execTrapDelivery
  split
  · exact unitDo_wf h (deliver_wf h)
  · exact next_wf h

end Sys2Proof.Machine
end

section
/-! SUPPORT. Cores, operands and the issue of an instruction keep the stores (log entry 2). -/

namespace Sys2Proof.Machine

variable {s : State} {c cause d detail die g k n out p part pc r source v : Nat} {pe : PeId} {hart : Hart}

theorem dropResv_wf {agent : Nat} (h : StoresWf s) : StoresWf (dropResv s agent) := h
theorem giveBack_wf {t : Taken} (h : StoresWf s) : StoresWf (giveBack s part t) := modHw_kept wf_kept h
theorem dropDecimal_wf (h : StoresWf s) : StoresWf (dropDecimal s k) := modSpar_wf (modPe_kept wf_kept h)
theorem discardScope_wf (h : StoresWf s) : StoresWf (discardScope s k) := by
  unfold discardScope
  extract_lets +onlyGivenNames p part s' s''
  split
  · exact dropDecimal_wf (dropDecimal_wf (modPe_kept wf_kept (foldl_wf (fun _ _ h1 => giveBack_wf h1) h)))
  · exact dropDecimal_wf (modPe_kept wf_kept (foldl_wf (fun _ _ h1 => giveBack_wf h1) h))
theorem commitWord_wf {a : Nat} {v : Word} (h : StoresWf s) : StoresWf (commitWord s k a v) :=
  ite_wf (modPe_kept wf_kept h) (ite_wf h (l1dWrite_wf (coreStore_wf h)))
theorem commitUnbacked_wf {sb : Tab (Option Word)} (h : StoresWf s) : StoresWf (commitUnbacked s k sb) :=
  foldl_wf (fun _ _ h => unbacked_kept wf_kept h) h
theorem ownHeld_wf (h : StoresWf s) : OptWf StoresWf (ownHeld s k) :=
  foldl_wf (fun _ _ h => bind_wf h (fun _ h1 => map_wf (fun _ h2 => h2) (lineForWrite_wf h1))) (some_wf h)
theorem commitTaken_wf {t : Taken} (h : StoresWf s) : StoresWf (commitTaken s d part t) := ite_wf (destroyFrame_wf (makeLive_wf h)) (makeLive_wf h)
theorem sendGate_wf {u : Nat} {o : GateOp} (h : StoresWf s) : StoresWf (sendGate s u o) := ite_wf (deadTo_wf h) h
theorem commitFree_wf {i : Inst} {x : Nat × Nat × Option Nat} (h : StoresWf s) : StoresWf (commitFree s k i x) := by
  refine ite_wf ?_ ?_
  · exact hwPoison_kept wf_kept (unitRead_kept wf_kept h)
  · refine ite_wf ?_ ?_
    · extract_lets +onlyGivenNames s' s''
      split
      · exact sendGate_wf (peRelease_wf (pxtLive_wf (setFrame_kept wf_kept (unitRead_kept wf_kept h))))
      · exact peRelease_wf (pxtLive_wf (setFrame_kept wf_kept (unitRead_kept wf_kept h)))
    · exact addTrap_wf (unitRead_kept wf_kept h)
theorem commitPoint_wf (h : StoresWf s) : StoresWf (commitPoint s k) := by
  unfold commitPoint
  split
  · exact h
  · exact modPe_kept wf_kept (foldl_wf (fun _ _ h1 => commitFree_wf h1) (modPe_kept wf_kept (foldl_wf (fun _ _ h1 => sendGate_wf h1) (foldl_wf (by
    intro _ _ h1
    split
    · exact commitWord_wf h1
    · exact h1) (commitUnbacked_wf (foldl_wf (fun _ _ h1 => commitTaken_wf h1) h))))))
theorem awaitPlaces_wf (h : StoresWf s) : StoresWf (awaitPlaces s k) := modPe_kept wf_kept h
theorem waitEnds_wf (h : StoresWf s) : StoresWf (waitEnds s k) := ite_wf (countCluN_wf (modPe_kept wf_kept (takeFree_kept wf_kept h))) h
theorem placesFreed_wf (h : StoresWf s) : StoresWf (placesFreed s k) := ite_wf (waitEnds_wf h) h
theorem setSlotPe_wf {slot : Nat} (h : StoresWf s) : StoresWf (setSlotPe s g slot p) := ite_wf (setF_kept wf_kept h) (setF_kept wf_kept h)
theorem setPeStat_wf (h : StoresWf s) : StoresWf (setPeStat s g p v) := setF_kept wf_kept (ite_wf h h)
theorem fillSlot_wf {slot : Nat} (h : StoresWf s) : StoresWf (fillSlot s g slot p) := modPe_kept wf_kept (setPeStat_wf (setSlotPe_wf h))
theorem checkService_wf (h : StoresWf s) : StoresWf (checkService s) := ite_wf (report_kept wf_kept h) h
theorem departPe_wf {retire : Bool} (h : StoresWf s) : FstWf (departPe s k retire) := by
  refine ite_wf ?_ ?_
  · exact fst_mk_wf (modPe_kept wf_kept (setPeStat_wf h))
  · extract_lets +onlyGivenNames s'
    split
    · exact fst_mk_wf (fillSlot_wf (setSlotPe_wf (modPe_kept wf_kept (setPeStat_wf h))))
    · exact fst_mk_wf (checkService_wf (setSlotPe_wf (modPe_kept wf_kept (setPeStat_wf h))))
theorem departTest_wf {margin : Bool} (h : StoresWf s) : FstWf (departTest s k margin) :=
  fst_mk_wf (ite_wf (count_kept wf_kept (departPe_wf h)) (departPe_wf h))
theorem clearPe_wf (h : StoresWf s) : StoresWf (clearPe s k) := by
  unfold clearPe
  extract_lets +onlyGivenNames s' s''
  split
  · exact report_kept wf_kept (departTest_wf (modPe_kept wf_kept (waitEnds_wf (dropResv_wf (dropDecimal_wf h)))))
  · exact modPe_kept wf_kept (waitEnds_wf (dropResv_wf (dropDecimal_wf h)))
theorem endInst_wf (h : StoresWf s) : StoresWf (endInst s k cause) := by
  unfold endInst
  split
  · exact h
  · exact assignSlots_wf (by
    split
    · exact clearPe_wf (clearPe_wf (releaseFlow_wf (ratInst_wf (takeFree_kept wf_kept h))))
    · exact clearPe_wf (releaseFlow_wf (ratInst_wf (takeFree_kept wf_kept h))))
theorem peTrap_wf {src addr parcel : Nat} (h : StoresWf s) : StoresWf (peTrap s k src cause detail addr parcel) := by
  unfold peTrap
  split
  · exact h
  · exact endInst_wf (addTrap_wf (discardScope_wf h))
theorem rollback_wf (h : StoresWf s) : StoresWf (rollback s k) := dropResv_wf (modPe_kept wf_kept (discardScope_wf h))
theorem execRunlimit_wf (h : StoresWf s) : OutWf (execRunlimit pe s) := sparDo_wf h (ite_wf h (peTrap_wf h))
theorem routerTakes_wf {f : Flit} (h : StoresWf s) : OptWf StoresWf (routerTakes s d r f) := ite_wf (some_wf (modRouter_wf h)) none_wf
theorem agentTakes_wf {words : List (Nat × Nat)} {tag : Word} (h : StoresWf s) : OptWf StoresWf (agentTakes s g part words tag) :=
  ite_wf (some_wf (modSpar_wf (modHw_kept wf_kept h))) none_wf
theorem outGone_wf (h : StoresWf s) : StoresWf (outGone s k n) := placesFreed_wf (modPe_kept wf_kept h)
theorem leftBy_wf {taken : Option State} (h : StoresWf s) (htaken : OptWf StoresWf taken) : StoresWf (leftBy s k n taken) :=
  elim_wf htaken h (fun _ h => outGone_wf h)
theorem outLeave_wf (h : StoresWf s) : StoresWf (outLeave s k n) := by
  unfold outLeave
  split
  · exact h
  · refine ite_wf ?_ ?_
    · exact h
    · extract_lets +onlyGivenNames d u
      split
      · refine ite_wf ?_ ?_
        · exact leftBy_wf h (routerTakes_wf h)
        · split
          · exact leftBy_wf h (routerTakes_wf (ptFill_wf h))
          · exact outGone_wf (ite_wf (purgeLost_wf h) (noHome_wf h))
      · exact leftBy_wf h (agentTakes_wf h)
      · exact ite_wf (tryPost_wf h) (outGone_wf (tryPost_wf h))
theorem execOutputLeave_wf (h : StoresWf s) : OutWf (execOutputLeave pe out s) := sparDo_wf h (outLeave_wf h)
theorem execFetchRequest_wf (h : StoresWf s) : OutWf (execFetchRequest pe out s) := sparDo_wf h (by
    split
    · exact outLeave_wf h
    · exact h)
theorem execWqpostRetry_wf (h : StoresWf s) : OutWf (execWqpostRetry pe out s) := sparDo_wf h (by
    split
    · exact outLeave_wf h
    · exact h)
theorem setSpr_wf {v : Word} (h : StoresWf s) : StoresWf (setSpr s c n v) := modSup_kept wf_kept h
theorem evReturn_wf (h : StoresWf s) : StoresWf (evReturn s g) := count_kept wf_kept (setEv_kept wf_kept h)
theorem evFenced_wf (h : StoresWf s) : StoresWf (evFenced s g) := ite_wf (count_kept wf_kept (evFinish_wf h)) h
theorem returnOffers_wf (h : StoresWf s) : StoresWf (returnOffers s c) := modSup_kept wf_kept (foldl_wf (fun _ _ h => evReturn_wf h) h)
theorem setPairOf_wf {j : Nat} (h : StoresWf s) : StoresWf (setPairOf s c j) := setF_kept wf_kept h
theorem setPairStat_wf {j : Nat} (h : StoresWf s) : StoresWf (setPairStat s d j v) := setF_kept wf_kept h
theorem stopCore_wf (h : StoresWf s) : StoresWf (stopCore s c) := modSup_kept wf_kept (dropResv_wf h)
theorem mapSpare_wf (h : StoresWf s) : FstWf (mapSpare s c) := by
  unfold mapSpare
  split
  · exact fst_mk_wf (modDie_wf (setPairStat_wf (setPairOf_wf h)))
  · exact fst_mk_wf (checkService_wf (setPairOf_wf (modDie_wf h)))
theorem fencePair_wf {det : Nat} {info : Word} {inj : Bool} (h : StoresWf s) : StoresWf (fencePair s c det info inj) :=
  ite_wf h (report_kept wf_kept (mapSpare_wf (evRaise_kept wf_kept (modDie_wf
    (setPairStat_wf (loseCache_wf (stopCore_wf (foldl_wf (fun _ _ h => evFenced_wf h) (returnOffers_wf h)))))))))
theorem enterLevel_wf {l vec call : Nat} {addr : Word} {epc : Nat} (h : StoresWf s) : StoresWf (enterLevel s c l vec cause detail call addr epc) :=
  modSup_kept wf_kept (setSpr_wf (setSpr_wf (setSpr_wf (setSpr_wf (setSpr_wf (dropResv_wf h))))))
theorem syncExc_wf {addr : Word} {epc : Nat} (h : StoresWf s) : StoresWf (syncExc s c cause detail addr epc) :=
  ite_wf (ite_wf (fencePair_wf h) (enterLevel_wf h)) (enterLevel_wf h)
theorem leaveLevel_wf {l : Nat} (h : StoresWf s) : StoresWf (leaveLevel s c l) := modSup_kept wf_kept (setSpr_wf (dropResv_wf h))
theorem startCore_wf (h : StoresWf s) : StoresWf (startCore s c) := modSup_kept wf_kept (setSpr_wf (stopCore_wf h))
theorem placeOffer_wf (h : StoresWf s) : StoresWf (placeOffer s d k c) := modSup_kept wf_kept (setReg_kept wf_kept (enNow_wf h))
theorem execEventRaise_wf {source : SourceInput} (h : StoresWf s) : OutWf (execEventRaise die source s) := unitDo_wf h (evInput_wf h)
theorem routeEvent_wf (h : StoresWf s) : StoresWf (routeEvent s die k) := ite_wf (elim_of_wf h (fun _ => ite_wf h (placeOffer_wf h))) h
theorem execEventRoute_wf (h : StoresWf s) : OutWf (execEventRoute die source s) := onDie_wf h (routeEvent_wf h)
theorem acceptEvent_wf (h : StoresWf s) : StoresWf (acceptEvent s c) :=
  ite_wf (enterLevel_wf (takeFree_kept wf_kept h)) (ite_wf (enterLevel_wf h) (ite_wf (enterLevel_wf h) h))
theorem execEventAccept_wf {core : SupId} (h : StoresWf s) : OutWf (execEventAccept core s) := unitDo_wf h (acceptEvent_wf h)
theorem evSoft_wf (h : StoresWf s) : StoresWf (evSoft s d k) := evTake_kept wf_kept h
theorem execEvcSet_wf (h : StoresWf s) : OutWf (execEvcSet die source s) := regDo_wf h (setF_kept wf_kept (evSoft_wf h))
theorem forgetActive_wf (h : StoresWf s) : StoresWf (forgetActive s g) := foldl_wf (fun _ _ h => ite_wf (modSup_kept wf_kept h) h) h
theorem completeSource_wf (h : StoresWf s) : StoresWf (completeSource s g) := forgetActive_wf (evComplete_wf h)
theorem execEvcDone_wf (h : StoresWf s) : OutWf (execEvcDone die source s) := regDo_wf h (setF_kept wf_kept (completeSource_wf h))
theorem writeCoreEn_wf (h : StoresWf s) : StoresWf (writeCoreEn s die v) := foldl_wf (fun _ _ h => ite_wf (returnOffers_wf h) h) (setF_kept wf_kept h)
theorem execEvcCoreEnWrite_wf {value : Csr} (h : StoresWf s) : OutWf (execEvcCoreEnWrite die value s) :=
  regDo_wf h (parityWrite_wf (writeCoreEn_wf h))
theorem execLockstepMismatch_wf {core : SupId} {valueClass : Nat} (h : StoresWf s) : OutWf (execLockstepMismatch core valueClass s) :=
  unitDo_wf h (fencePair_wf h)
theorem modRegs_wf {f : Regs → Regs} (h : StoresWf s) : StoresWf (modRegs s hart f) := by
  unfold modRegs
  split
  · exact modPe_kept wf_kept h
  · exact modSup_kept wf_kept h
theorem setPc_wf (h : StoresWf s) : StoresWf (setPc s hart pc) := modRegs_wf h
theorem setD_wf {v : Word} (h : StoresWf s) : StoresWf (setD s hart r v) := modRegs_wf h
theorem setA_wf (h : StoresWf s) : StoresWf (setA s hart r v) := modRegs_wf h
theorem setM_wf {v : Word} (h : StoresWf s) : StoresWf (setM s hart r v) := modRegs_wf h
theorem setW_wf {v : Wide} (h : StoresWf s) : StoresWf (setW s hart r v) := modRegs_wf h
theorem setFlags_wf (h : StoresWf s) : StoresWf (setFlags s hart v) := modRegs_wf h
theorem raiseFlags_wf {x : Nat} (h : StoresWf s) : StoresWf (raiseFlags s hart x) := setFlags_wf h
theorem illegal_wf (h : StoresWf s) : ResWf (illegal s) := h
theorem hartNote_wf {va : Nat} (h : StoresWf s) : StoresWf (hartNote s hart va) := ite_wf h (xlateNote_wf h)
theorem fetchCode_wf {la : Nat} (h : StoresWf s) : OptWf StoresWf (fetchCode s hart la) := by
  unfold fetchCode
  split
  · exact ite_wf (some_wf h) (map_wf (fun _ h1 => fillPeL1i_wf h1) (lineForRead_wf h))
  · exact ite_wf (some_wf h) (map_wf (fun _ h1 => fillSupL1i_wf h1) (lineForRead_wf h))
theorem codeWord_wf {wa : Nat} (h : StoresWf s) : OptWf StoresWf (codeWord s hart wa) := by
  unfold codeWord
  extract_lets +onlyGivenNames s'
  split
  · split
    · exact some_wf (upd_wf rfl rfl (takeFree_kept wf_kept (hartNote_wf h)))
    · exact some_wf (unbacked_kept wf_kept (hartNote_wf h))
    · exact fetchCode_wf (hartNote_wf h)
  · exact some_wf (hartNote_wf h)
theorem fetchInstr_wf (h : StoresWf s) : OptWf StoresWf (fetchInstr s hart pc n) :=
  foldl_wf (fun _ _ h => bind_wf h (fun _ h1 => codeWord_wf h1)) (some_wf h)
theorem runInstr_wf {body : Hart → State → Res} (hbody : ∀ x0 x1, StoresWf x1 → ResWf (body x0 x1)) (h : StoresWf s) : ResWf
    (runInstr hart n body s) := by
  unfold runInstr
  extract_lets +onlyGivenNames pc
  split
  · exact h
  next t ht =>
    split
    · exact of_some (fetchInstr_wf h) ht
    · exact hbody _ _ (of_some (fetchInstr_wf h) ht)
theorem mirror_wf (h : StoresWf s) : StoresWf (mirror s k) := by
  unfold mirror
  extract_lets +onlyGivenNames p
  split
  · exact modPe_kept wf_kept h
  · exact h
theorem peAfter_wf {r : Res} (h : ResWf r) : StoresWf (peAfter k pc n r) := by
  cases r with
  | next s => exact mirror_wf (setPc_wf h)
  | jump s target => exact mirror_wf (setPc_wf h)
  | done s => exact mirror_wf h
  | trap s cause detail addr => exact peTrap_wf h
theorem supAfter_wf {r : Res} (h : ResWf r) : StoresWf (supAfter c pc n r) := by
  cases r with
  | next s => exact setPc_wf h
  | jump s target => exact setPc_wf h
  | done s => exact h
  | trap s cause detail addr => exact syncExc_wf h
theorem instrDo_wf {core : CoreId} {body : Hart → State → Res} (hbody : ∀ x0 x1, StoresWf x1 → ResWf (body x0 x1)) (h : StoresWf s) : OutWf
    (instrDo core n body s) := by
  unfold instrDo
  split
  · exact sparDo_wf h (ite_wf (peAfter_wf (runInstr_wf (fun _ _ h1 => hbody _ _ h1) h)) h)
  · exact unitDo_wf h (ite_wf h (supAfter_wf (runInstr_wf (fun _ _ h1 => hbody _ _ h1) h)))
theorem codeletOnly_wf {body : Nat → State → Res} (hb : ∀ k t, StoresWf t → ResWf (body k t)) (h : StoresWf s) : ResWf (codeletOnly body hart s) :=
    by
  cases hart with
  | pe k => exact hb k s h
  | sup c => exact h
theorem privileged_wf {lvl : Nat} {body : Nat → State → Res} (hb : ∀ k t, StoresWf t → ResWf (body k t)) (h : StoresWf s) : ResWf
    (privileged lvl body hart s) := by
  cases hart with
  | pe k => exact h
  | sup c => exact ite_wf (P := ResWf) h (hb c s h)
theorem commitAwait_wf (h : StoresWf s) : StoresWf (commitAwait s k) := awaitPlaces_wf (commitPoint_wf h)
theorem atCommit_wf {run : State → Res} (h : StoresWf s) (hrun : ∀ x0, StoresWf x0 → ResWf (run x0)) : ResWf (atCommit s k run) := by
  unfold atCommit
  split
  next t ht => exact hrun _ (of_some (ownHeld_wf h) ht)
  · exact h
theorem inScope_wf {past : Pe → Bool} {run : State → Res} (h : StoresWf s) (hrun : ∀ x0, StoresWf x0 → ResWf (run x0)) : ResWf
    (inScope s k past run) :=
  ite_wf (ite_wf (atCommit_wf h (fun _ h => ite_wf (commitAwait_wf h) (hrun _ (commitAwait_wf h)))) h) (hrun _ h)
theorem holdOut_wf {o : Output} (h : StoresWf s) : ResWf (holdOut s k o) := inScope_wf h (fun _ h => modPe_kept wf_kept h)
theorem atomicPoint_wf {a1 : Hart} (h : StoresWf s) : OptWf StoresWf (atomicPoint s a1) := by
  unfold atomicPoint
  split
  · exact map_wf (fun _ h1 => commitPoint_wf h1) (ownHeld_wf h)
  · exact some_wf h
theorem atomicDone_wf (h : StoresWf s) : ResWf (atomicDone s hart pc n) := by
  unfold atomicDone
  split
  · exact awaitPlaces_wf (modPe_kept wf_kept (setPc_wf h))
  · exact h

end Sys2Proof.Machine
end

section
/-! SUPPORT. The instructions keep the stores (log entry 2). -/

namespace Sys2Proof.Machine

variable {s : State} {hart : Hart} {c k key kind la n pa pc rd rs1 rs2 target va wd ws : Nat} {core : CoreId} {fn : BitVec 9} {op : MemOp}
  {r : HomeReq} {dbl taken wide : Bool} {vs : List Word} {q : List HomeJob} {line : BitVec 45}

theorem writeD_wf {a3 : Option Word} (h : StoresWf s) : ResWf (writeD s hart rd a3) := by
  unfold writeD
  split
  · exact setD_wf h
  · exact illegal_wf h
theorem execIntRegOp_wf (h : StoresWf s) : OutWf (execIntRegOp core rd rs1 rs2 fn s) := instrDo_wf (fun _ _ h => writeD_wf h) h
theorem riOp_wf {op : RiOp} {imm : BitVec 14} (h : StoresWf s) : ResWf (riOp s hart op rd rs1 imm) := by
  unfold riOp
  extract_lets +onlyGivenNames x i
  split
  · exact writeD_wf h
  · exact writeD_wf h
  · exact writeD_wf h
  · exact writeD_wf h
  · exact writeD_wf h
  · exact writeD_wf h
  · exact writeD_wf h
  · exact writeD_wf h
  · exact writeD_wf h
  · exact writeD_wf h
  · exact ite_wf (setA_wf h) (illegal_wf h)
theorem ri32Op_wf {op : Ri32Op} {fn3 : Nat} {imm : BitVec 32} (h : StoresWf s) : ResWf (ri32Op s hart op rd fn3 imm) := by
  unfold ri32Op
  extract_lets +onlyGivenNames x sx
  split
  · exact writeD_wf h
  · exact writeD_wf h
  · exact writeD_wf h
  · refine ite_wf ?_ ?_
    · exact illegal_wf h
    · split
      · exact setA_wf h
      · exact setA_wf h
      · exact illegal_wf h
theorem imm48Op_wf {lia : Bool} {fn3 : Nat} {imm : BitVec 48} (h : StoresWf s) : ResWf (imm48Op s hart lia rd fn3 imm) :=
  ite_wf (ite_wf (setA_wf h) (illegal_wf h)) (writeD_wf h)
theorem execIntImmOp_wf {op : ImmOp} (h : StoresWf s) : OutWf (execIntImmOp core op s) := instrDo_wf (by
    intro _ _ h
    split
    · exact riOp_wf h
    · exact ri32Op_wf h
    · exact imm48Op_wf h) h
theorem moveRr_wf {fn : Nat} (h : StoresWf s) : ResWf (moveRr s hart fn rd rs1 rs2) := by
  refine ite_wf ?_ ?_
  · exact illegal_wf h
  · split
    · exact ite_wf (setA_wf h) (illegal_wf h)
    · exact ite_wf (setD_wf h) (illegal_wf h)
    · exact ite_wf (setA_wf h) (illegal_wf h)
    · exact ite_wf (setA_wf h) (illegal_wf h)
    · exact ite_wf (setM_wf h) (illegal_wf h)
    · exact ite_wf (setD_wf h) (illegal_wf h)
    · exact ite_wf (setD_wf h) (illegal_wf h)
    · exact ite_wf (setD_wf h) (illegal_wf h)
    · exact illegal_wf h
theorem moveWr_wf {fn : Nat} (h : StoresWf s) : ResWf (moveWr s hart fn wd ws rs1 rs2) := by
  unfold moveWr
  split
  · exact ite_wf (setW_wf h) (illegal_wf h)
  · exact ite_wf (setW_wf h) (illegal_wf h)
  · exact illegal_wf h
theorem execClassMove_wf {op : MoveForm} (h : StoresWf s) : OutWf (execClassMove core op s) := instrDo_wf (by
    intro _ _ h
    split
    · exact moveRr_wf h
    · exact moveWr_wf h) h
theorem compactOp_wf {op rs : Nat} (h : StoresWf s) : ResWf (compactOp s hart op rd rs) := by
  unfold compactOp
  extract_lets +onlyGivenNames x y sx
  split
  · exact setD_wf h
  · exact setD_wf h
  · exact setD_wf h
  · exact setD_wf h
  · exact setD_wf h
  · exact setD_wf h
  · exact setD_wf h
  · exact setD_wf h
  · exact setD_wf h
  · exact setD_wf h
  · exact setD_wf h
  · exact ite_wf (setA_wf h) (illegal_wf h)
  · exact ite_wf (setD_wf h) (illegal_wf h)
  · exact ite_wf (setA_wf h) (illegal_wf h)
  · exact illegal_wf h
theorem execCompactInstruction_wf {op : CompactOp} {rd rs : Fin 32} (h : StoresWf s) : OutWf (execCompactInstruction core op rd rs s) := by
  unfold execCompactInstruction
  split
  · exact instrDo_wf (fun _ _ h1 => compactOp_wf h1) h
  · exact instrDo_wf (fun _ _ h1 => ite_wf h1 (illegal_wf h1)) h
theorem execRdflg_wf {imm14 : BitVec 14} (h : StoresWf s) : OutWf (execRdflg core rd rs1 imm14 s) := instrDo_wf (fun _ _ h => writeD_wf h) h
theorem execClrflg_wf {imm14 : BitVec 14} (h : StoresWf s) : OutWf (execClrflg core rd rs1 imm14 s) :=
  instrDo_wf (fun _ _ h => ite_wf (modRegs_wf h) (illegal_wf h)) h
theorem execAddcSubc_wf {fn : BitVec 10} (h : StoresWf s) : OutWf (execAddcSubc core wd ws rs1 rs2 fn s) := instrDo_wf (by
    intro _ _ h
    split
    · exact setW_wf h
    · exact setW_wf h
    · exact illegal_wf h) h
theorem execMulw_wf {fn : BitVec 10} (h : StoresWf s) : OutWf (execMulw core wd ws rs1 rs2 fn s) := instrDo_wf (by
    intro _ _ h
    extract_lets +onlyGivenNames p plain acc
    split
    · exact ite_wf (setW_wf h) (illegal_wf h)
    · exact ite_wf (setW_wf h) (illegal_wf h)
    · exact ite_wf (setW_wf h) (illegal_wf h)
    · exact setW_wf h
    · exact setW_wf h
    · exact setW_wf h
    · exact illegal_wf h) h
theorem divide_wf {signed : Bool} (h : StoresWf s) : ResWf (divide s hart signed wd rs1 rs2) :=
  ite_wf (ite_wf h (raiseFlags_wf (setW_wf h))) (setW_wf h)
theorem execDivsDivu_wf {fn : BitVec 10} (h : StoresWf s) : OutWf (execDivsDivu core wd ws rs1 rs2 fn s) := instrDo_wf (by
    intro _ _ h
    refine ite_wf ?_ ?_
    · exact illegal_wf h
    · split
      · exact divide_wf h
      · exact divide_wf h
      · exact illegal_wf h) h
theorem fpResult_wf {x : Nat} {run : State → Res} (h : StoresWf s) (hrun : ∀ x0, StoresWf x0 → ResWf (run x0)) : ResWf (fpResult s hart x run) :=
  ite_wf h (hrun _ (raiseFlags_wf h))
theorem fpWrite_wf {r : Nat × Nat} (h : StoresWf s) : ResWf (fpWrite s hart rd r) := fpResult_wf h (fun _ h => setD_wf h)
theorem fpOp_wf {fn : Nat} (h : StoresWf s) : ResWf (fpOp s hart dbl rd rs1 rs2 fn) := by
  unfold fpOp
  extract_lets f x y z rm op r
  clear_value r
  split
  · exact fpWrite_wf h
  · exact illegal_wf h
theorem execFpOperation_wf (h : StoresWf s) : OutWf (execFpOperation core dbl rd rs1 rs2 fn s) := instrDo_wf (fun _ _ h => fpOp_wf h) h
theorem execFcat_wf (h : StoresWf s) : OutWf (execFcat core dbl rd rs1 rs2 fn s) := instrDo_wf (fun _ _ h => ite_wf (setD_wf h) (illegal_wf h)) h
theorem execFcvt_wf (h : StoresWf s) : OutWf (execFcvt core rd rs1 rs2 fn s) := instrDo_wf (by
    intro _ _ h
    extract_lets +onlyGivenNames rm op
    split
    · exact illegal_wf h
    · refine ite_wf ?_ ?_
      · exact illegal_wf h
      · split
        · exact fpWrite_wf h
        · exact illegal_wf h) h
theorem decWrite_wf {op : Nat} {r : Wide × Bool} (h : StoresWf s) : StoresWf (decWrite s hart op wide rd r) :=
  ite_wf (raiseFlags_wf (ite_wf (setW_wf h) (setD_wf h))) (ite_wf (setW_wf h) (setD_wf h))
theorem decIssue_wf {op : Nat} {a b : Wide} (h : StoresWf s) : ResWf (decIssue op wide rd a b hart s) := by
  unfold decIssue
  split
  · extract_lets +onlyGivenNames ask
    split
    · exact modSpar_wf (modPe_kept wf_kept (modSpar_wf (modPe_kept wf_kept h)))
    · exact modSpar_wf (modPe_kept wf_kept h)
  · split
    · exact decWrite_wf h
    · exact h
theorem decArith_wf {op : Nat} {f : DecForm} (h : StoresWf s) : ResWf (decArith op f hart s) := by
  unfold decArith
  split
  · exact decIssue_wf h
  · exact ite_wf (illegal_wf h) (decIssue_wf h)
theorem execPadd_wf {op : DecForm} (h : StoresWf s) : OutWf (execPadd core op s) := instrDo_wf (fun _ _ h => decArith_wf h) h
theorem execPsub_wf {op : DecForm} (h : StoresWf s) : OutWf (execPsub core op s) := instrDo_wf (fun _ _ h => decArith_wf h) h
theorem execPchk_wf (h : StoresWf s) : OutWf (execPchk core wide rd rs1 rs2 s) := instrDo_wf (fun _ _ h => ite_wf (illegal_wf h) (decIssue_wf h)) h
theorem decAccept_wf {g : Nat} (h : StoresWf s) : StoresWf (decAccept s g) := by
  unfold decAccept
  extract_lets +onlyGivenNames x
  split
  · exact modSpar_wf h
  · exact h
theorem execDecimalRequestAccept_wf {die spar : Nat} (h : StoresWf s) : OutWf (execDecimalRequestAccept die spar s) := sparDo_wf h (decAccept_wf h)
theorem predictDir_wf (h : StoresWf s) : StoresWf (predictDir s c pc taken) := modSup_kept wf_kept h
theorem predictTarget_wf (h : StoresWf s) : StoresWf (predictTarget s c pc target kind) := modSup_kept wf_kept h
theorem predict_wf (h : StoresWf s) : StoresWf (predict s hart pc target kind taken) := by
  unfold predict
  split
  · exact h
  · exact ite_wf h (ite_wf (predictTarget_wf (ite_wf (predictDir_wf h) h)) (ite_wf (predictDir_wf h) h))
theorem bpFlush_wf (h : StoresWf s) : StoresWf (bpFlush s c) := modSup_kept wf_kept h
theorem fpBranch_wf {run : State → Bool → Res} (h : StoresWf s) (hrun : ∀ x0 x1, StoresWf x0 → ResWf (run x0 x1)) : ResWf
    (fpBranch s hart dbl k rs1 rs2 run) :=
  fpResult_wf h (fun _ h => hrun _ _ h)
theorem branchTo_wf {off : ℤ} (h : StoresWf s) : ResWf (branchTo hart off s taken) := ite_wf (predict_wf h) (predict_wf h)
theorem branchIf_wf {op : BrOp} {off : ℤ} (h : StoresWf s) : ResWf (branchIf s hart op rs1 rs2 off) := by
  unfold branchIf
  extract_lets +onlyGivenNames x y go
  split
  · exact branchTo_wf h
  · exact branchTo_wf h
  · exact branchTo_wf h
  · exact branchTo_wf h
  · exact branchTo_wf h
  · exact branchTo_wf h
  · exact ite_wf (branchTo_wf h) (illegal_wf h)
  · exact fpBranch_wf h (fun _ _ h1 => branchTo_wf h1)
  · exact fpBranch_wf h (fun _ _ h1 => branchTo_wf h1)
  · exact fpBranch_wf h (fun _ _ h1 => branchTo_wf h1)
theorem execCondBranch_wf {op : BranchForm} (h : StoresWf s) : OutWf (execCondBranch core op s) := instrDo_wf (by
    intro _ _ h
    split
    · exact branchIf_wf h
    · exact ite_wf (branchIf_wf h) (illegal_wf h)
    · exact branchTo_wf h) h
theorem jumpTo_wf (h : StoresWf s) : ResWf (jumpTo s hart target kind) := predict_wf h
theorem execJmp_wf {rl : Nat} {target : BitVec 51} (h : StoresWf s) : OutWf (execJmp core rl target s) :=
  instrDo_wf (fun _ _ h => ite_wf (jumpTo_wf h) (illegal_wf h)) h
theorem execCall_wf {rl : Nat} {target : BitVec 51} (h : StoresWf s) : OutWf (execCall core rl target s) :=
  instrDo_wf (fun _ _ h => jumpTo_wf (setD_wf h)) h
theorem execJr_wf (h : StoresWf s) : OutWf (execJr core rd rs1 rs2 fn s) :=
  instrDo_wf (fun _ _ h => ite_wf (jumpTo_wf (ite_wf h (setD_wf h))) (illegal_wf h)) h
theorem Got.run_wf {α : Type} {g : Got α} {f : α → State → Res} (hg : GotWf g) (h : StoresWf s) (hf : ∀ v t, StoresWf t → ResWf (f v t)) : ResWf
    (g.run s f) := by
  cases g with
  | ok v t => exact hf v t hg
  | bad cause addr t => exact hg
  | wait => exact h
theorem l1dLoad_wf (h : StoresWf s) : GotWf (l1dLoad s k pa va) := by
  unfold l1dLoad
  extract_lets +onlyGivenNames hit
  clear_value hit
  split
  · exact ite_wf (P := GotWf) (l1dFill_wf h) (l1dFill_wf h)
  · split
    · trivial
    next t ht =>
      have hf (hw : StoresWf t) : StoresWf (if l1dOn t k then l1dFill t k (pa / 16) else t) := ite_wf (l1dFill_wf hw) hw
      exact ite_wf (P := GotWf) (hf (of_some (lineForRead_wf h) ht)) (hf (of_some (lineForRead_wf h) ht))
theorem peWord_wf (h : StoresWf s) : GotWf (peWord s k pa va) := by
  unfold peWord
  split
  · exact h
  · split
    · exact h
    · exact ite_wf (l1dLoad_wf h) (noteRead_kept wf_kept h)
theorem devLoad_wf {d o : Nat} (h : StoresWf s) : GotWf (devLoad s d o va n) :=
  ite_wf (upd_wf rfl rfl (takeFree_kept wf_kept h)) (of_snd (P := StoresWf)
    (foldl_wf (fun _ _ h => snd_mk_wf (takeFree_kept wf_kept h)) (snd_mk_wf (upd_wf rfl rfl (takeFree_kept wf_kept h)))))
theorem supWords_wf (h : StoresWf s) : GotWf (supWords s c pa va n) := by
  unfold supWords
  split
  · exact devLoad_wf h
  · exact noteRead_kept wf_kept h
  · split
    · exact trivial
    next t1 ht1 =>
      extract_lets +onlyGivenNames s'
      split
      · exact fillSupL1d_wf (of_some (lineForRead_wf h) ht1)
      · exact fillSupL1d_wf (of_some (lineForRead_wf h) ht1)
theorem appendWord_wf {g : Got Word} {l : List Word} (hg : GotWf g) :
    GotWf (match g with
      | .ok v s => .ok (l ++ [v]) s
      | .bad e a s => .bad e a s
      | .wait => .wait) := by
  cases g with
  | ok v s => exact hg
  | bad e a s => exact hg
  | wait => trivial
theorem loadWords_wf (h : StoresWf s) : GotWf (loadWords s hart va n) := by
  unfold loadWords
  cases hart with
  | sup c =>
    dsimp only
    split
    · exact xlateNote_wf h
    · exact supWords_wf (xlateNote_wf h)
  | pe k =>
    refine foldl_wf (P := GotWf) (fun g j hg => ?_) h
    cases g with
    | bad cause addr t => exact hg
    | wait => trivial
    | ok vs t =>
      refine appendWord_wf (ite_wf (P := GotWf) (ite_wf (P := GotWf) hg hg) ?_)
      dsimp only
      split
      · exact xlateNote_wf hg
      · exact peWord_wf (xlateNote_wf hg)
theorem execLd_wf (h : StoresWf s) : OutWf (execLd core op s) := instrDo_wf (by
    intro _ _ h
    split
    · exact illegal_wf h
    · exact Got.run_wf (loadWords_wf h) h (fun _ _ h2 => setA_wf (setD_wf h2))) h
theorem execLdw_wf (h : StoresWf s) : OutWf (execLdw core op s) := instrDo_wf (by
    intro _ _ h
    refine ite_wf ?_ ?_
    · exact illegal_wf h
    · split
      · exact illegal_wf h
      · exact ite_wf (illegal_wf h) (Got.run_wf (loadWords_wf h) h (fun _ _ h2 => setA_wf (setW_wf h2)))) h
theorem holdWords_wf (h : StoresWf s) : StoresWf (holdWords s k key vs) := modPe_kept wf_kept h
theorem askLine_wf (h : StoresWf s) : StoresWf (askLine s k key) := ite_wf (getD_wf (map_wf (fun _ h => h) (lineForWrite_wf h)) h) h
theorem peStore_wf {fin : State → State} (h : StoresWf s) (hfin : ∀ x0, StoresWf x0 → StoresWf (fin x0)) : ResWf (peStore s k key vs fin) :=
  inScope_wf h (fun _ h => hfin _ (holdWords_wf (askLine_wf h)))
theorem supStore_wf {fin : State → State} (h : StoresWf s) (hfin : ∀ x0, StoresWf x0 → StoresWf (fin x0)) : ResWf (supStore s c pa va vs fin) := by
  unfold supStore
  split
  · exact ite_wf (takeFree_kept wf_kept h) (hfin _ (takeFree_kept wf_kept h))
  · split
    · exact h
    next t1 ht1 => exact hfin _ (coreStores_wf (ite_wf (fillSupL1d_wf (lineForWrite_wf h _ ht1)) (lineForWrite_wf h _ ht1)))
theorem storeWords_wf {fin : State → State} (h : StoresWf s) (hfin : ∀ x0, StoresWf x0 → StoresWf (fin x0)) : ResWf (storeWords s hart va vs fin) :=
    by
  unfold storeWords
  extract_lets +onlyGivenNames s'
  split
  · refine ite_wf ?_ ?_
    · exact ite_wf (peStore_wf h (fun _ h1 => hfin _ h1)) h
    · split
      · exact xlateNote_wf h
      · exact peStore_wf (xlateNote_wf h) (fun _ h2 => hfin _ h2)
  · split
    · exact xlateNote_wf h
    · exact supStore_wf (xlateNote_wf h) (fun _ h2 => hfin _ h2)
theorem execSt_wf (h : StoresWf s) : OutWf (execSt core op s) := instrDo_wf (by
    intro _ _ h
    split
    · exact illegal_wf h
    · exact storeWords_wf h (fun _ h2 => setA_wf h2)) h
theorem execStw_wf (h : StoresWf s) : OutWf (execStw core op s) := instrDo_wf (by
    intro _ _ h
    refine ite_wf ?_ ?_
    · exact illegal_wf h
    · split
      · exact illegal_wf h
      · exact ite_wf (illegal_wf h) (storeWords_wf h (fun _ h2 => setA_wf h2))) h
theorem atomicDo_wf {acc : Acc} {ea : Nat} {body : Nat → State → Res} (h : StoresWf s) (hbody : ∀ x0 x1, StoresWf x1 → ResWf (body x0 x1)) : ResWf
    (atomicDo s hart acc ea body) := by
  unfold atomicDo
  split
  · exact h
  next t ht =>
    extract_lets +onlyGivenNames u
    split
    · exact hartNote_wf (of_some (atomicPoint_wf h) ht)
    · exact hbody _ _ (hartNote_wf (of_some (atomicPoint_wf h) ht))
theorem atomicWord_wf (h : StoresWf s) : GotWf (atomicWord s hart pa va) := by
  unfold atomicWord
  split
  · split
    next v t ht => exact got_ok_wf (devLoad_wf h) ht
    next e a t ht => exact got_bad_wf (devLoad_wf h) ht
    · trivial
  · exact noteRead_kept wf_kept h
  · exact ite_wf (P := GotWf) h h
theorem atomicStore_wf {v : Word} (h : StoresWf s) : GotWf (atomicStore s hart pa va v) := by
  unfold atomicStore
  split
  · exact ite_wf (takeFree_kept wf_kept h) (takeFree_kept wf_kept h)
  · exact coreStore_wf h
theorem lrWaits_wf {agent : Nat} (h : StoresWf s) : StoresWf (lrWaits s agent la) := ite_wf h h
theorem ownLine_wf (h : StoresWf s) : OptWf SndWf (ownLine s hart pa) := by
  unfold ownLine
  split
  · exact some_wf (snd_mk_wf h)
  · exact lineForWrite_wf h
theorem execLr_wf (h : StoresWf s) : OutWf (execLr core op s) := instrDo_wf (by
    intro _ _ h
    split
    · exact illegal_wf h
    · exact atomicDo_wf h (by
    intro _ _ h2
    refine ite_wf ?_ ?_
    · exact lrWaits_wf h
    · split
      · exact lrWaits_wf h
      next t3 ht3 => exact Got.run_wf (atomicWord_wf (ownLine_wf h2 _ ht3)) h (fun _ _ h4 => atomicDone_wf (upd_wf rfl rfl (setD_wf (dropResv_wf h4)))))) h
theorem execSc_wf (h : StoresWf s) : OutWf (execSc core op s) := instrDo_wf (by
    intro _ _ h
    split
    · exact illegal_wf h
    · exact atomicDo_wf h (by
    intro _ _ h2
    refine ite_wf ?_ ?_
    · exact atomicDone_wf (setD_wf (dropResv_wf h2))
    · split
      · exact h
      next t3 ht3 => exact Got.run_wf (atomicStore_wf (dropResv_wf (ownLine_wf h2 _ ht3))) h (fun _ _ h4 => atomicDone_wf (setD_wf h4)))) h
theorem hartDo_wf {f : Hart → State → State} (hf : ∀ x0 x1, StoresWf x1 → StoresWf (f x0 x1)) (h : StoresWf s) : OutWf (hartDo core f s) := by
  unfold hartDo
  split
  · exact sparDo_wf h (hf _ _ h)
  · exact unitDo_wf h (hf _ _ h)
theorem execReservationTimeout_wf (h : StoresWf s) : OutWf (execReservationTimeout core s) := hartDo_wf (fun _ _ h => dropResv_wf h) h
theorem execLrHoldExpire_wf (h : StoresWf s) : OutWf (execLrHoldExpire core s) := hartDo_wf (fun _ _ h => h) h
theorem contention_wf {took : Bool} (h : StoresWf s) : StoresWf (contention s hart pa took) := by
  unfold contention
  extract_lets +onlyGivenNames f
  split
  · exact modPe_kept wf_kept h
  · exact modSup_kept wf_kept h
theorem amoLine_wf {far : Bool} (h : StoresWf s) : OptWf SndWf (amoLine s hart far pa) :=
  ite_wf (some_wf (snd_mk_wf h)) (ite_wf (homeNow_wf h) (lineForWrite_wf h))
theorem amoDo_wf {far : Bool} {ea : Nat} {f : Word → Option Word} {fin : Word → State → Res} (h : StoresWf s)
    (hfin : ∀ v t, StoresWf t → ResWf (fin v t)) : ResWf (amoDo s hart far pa ea f fin) := by
  refine ite_wf (P := ResWf) (ite_wf (P := ResWf) h ?_) (Got.run_wf (atomicWord_wf h) h fun old t ht => ?_)
  · split
    · exact illegal_wf h
    · exact hfin _ _ (wf_kept.poke h)
  · split
    · exact illegal_wf ht
    · exact Got.run_wf (atomicStore_wf ht) h fun _ u hu => hfin _ _ hu
theorem execAmo_wf (h : StoresWf s) : OutWf (execAmo core rd rs1 rs2 fn s) := instrDo_wf (fun _ _ h => ite_wf (illegal_wf h) (atomicDo_wf h (by
    intro _ _ h1
    extract_lets +onlyGivenNames far
    split
    · exact h
    next t2 ht2 => exact amoDo_wf (amoLine_wf h1 _ ht2) (fun _ _ h3 => atomicDone_wf (setD_wf (contention_wf h3)))))) h
theorem sendSnoops_wf {inv : Bool} {ts : List Nat} (h : StoresWf s) : StoresWf (sendSnoops s la inv ts) :=
  ite_wf h (foldl_wf (fun _ _ h => ite_wf h (sendRing_wf h)) (upd_wf rfl rfl h))
theorem takeHeld_wf {l : HomeLine} (h : StoresWf s) : StoresWf (takeHeld s la l r) := by
  unfold takeHeld
  split
  · exact perform_kept wf_kept h
  · exact ite_wf (perform_kept wf_kept (useLine_kept wf_kept h)) (sendSnoops_wf (setTx_kept wf_kept (useLine_kept wf_kept h)))
theorem readLine_wf (h : StoresWf s) : StoresWf (readLine s la r q) :=
  ite_wf (takeHeld_wf (installLine_kept wf_kept (setTx_kept wf_kept h))) (setTx_kept wf_kept h)
theorem takeAbsent_wf (h : StoresWf s) : StoresWf (takeAbsent s la r q) := by
  unfold takeAbsent
  split
  · exact readLine_wf h
  · exact setTx_kept wf_kept h
  · split
    · exact readLine_wf h
    · exact ite_wf (readLine_wf (setLlc_kept wf_kept h)) (sendSnoops_wf (setTx_kept wf_kept (setTx_kept wf_kept h)))
theorem takeReq_wf (h : StoresWf s) : StoresWf (takeReq s la r) := by
  unfold takeReq
  split
  · exact takeHeld_wf h
  · split
    · exact count_kept wf_kept h
    · exact takeAbsent_wf h
theorem enterHome_wf (h : StoresWf s) : StoresWf (enterHome s la r) := by
  unfold enterHome
  split
  · exact setTx_kept wf_kept h
  · exact takeReq_wf h
theorem arrive_wf (h : StoresWf s) : StoresWf (arrive s la r) := ite_wf (setWait_kept wf_kept h) (enterHome_wf h)
theorem enterJob_wf {a2 : HomeJob} (h : StoresWf s) : StoresWf (enterJob s la a2) := by
  unfold enterJob
  split
  · exact enterHome_wf h
  · split
    · exact setTx_kept wf_kept h
    · exact scrubRead_kept wf_kept h
theorem drainSlice_wf {sl : Nat} (h : StoresWf s) : StoresWf (drainSlice sl n s) := by
  induction n generalizing s with
  | zero => exact h
  | succ n ih =>
    unfold drainSlice
    split
    · exact h
    · exact ite_wf h (ih (enterHome_wf (setWait_kept wf_kept h)))
theorem drainWays_wf {sl : Nat} (h : StoresWf s) : StoresWf (drainWays s sl) := foldl_wf (by
    intro _ _ h
    split
    · split
      · exact takeAbsent_wf (setTx_kept wf_kept h)
      · exact h
    · exact h) h
theorem donePosted_wf (h : StoresWf s) : StoresWf (pumpPosted.donePosted s) := h
theorem pumpPosted_wf (h : StoresWf s) : StoresWf (pumpPosted n s) := by
  induction n generalizing s with
  | zero => exact h
  | succ n ih =>
    unfold pumpPosted
    split
    · exact h
    · split
      · exact h
      · exact ih (donePosted_wf (arrive_wf (upd_wf rfl rfl h)))
theorem settleHome_wf (h : StoresWf s) : StoresWf (settleHome s la) := pumpPosted_wf (donePosted_wf (drainSlice_wf (drainWays_wf h)))
theorem drainHome_wf (h : StoresWf s) : StoresWf (drainHome s la q) := settleHome_wf (foldl_wf (fun _ _ h => enterJob_wf h) h)
theorem homeDo_wf {t : State} (hs : StoresWf s) (ht : StoresWf t) : OutWf (homeDo s la t) := unitDo_wf hs ht
theorem homeRequest_wf (h : StoresWf s) : StoresWf (homeRequest s la r) := ite_wf (settleHome_wf h) (settleHome_wf (arrive_wf h))
theorem unbackedReply_wf (h : StoresWf s) : StoresWf (unbackedReply s la r) := by
  unfold unbackedReply
  split
  · exact h
  · exact h
  · exact h
  · exact homeReply_kept wf_kept h
theorem execHomeRequest_wf {req : HomeReq} (h : StoresWf s) : OutWf (execHomeRequest line req s) := by
  unfold execHomeRequest
  extract_lets +onlyGivenNames la
  split
  · exact next_wf (ite_wf (unbackedReply_wf (unbacked_kept wf_kept h)) h)
  · exact next_wf h
  · exact homeDo_wf h (elim_wf (cohCross_wf h) h (fun _ h1 => homeRequest_wf h1))
theorem memreadData_wf {check : MemCheck} (h : StoresWf s) : StoresWf (memreadData s la check) := by
  unfold memreadData
  split
  · split
    · exact drainHome_wf (takeHeld_wf (installLine_kept wf_kept (setTx_kept wf_kept (lineRead_kept wf_kept h))))
    · exact h
  · exact h
theorem execMemreadData_wf {check : MemCheck} (h : StoresWf s) : OutWf (execMemreadData line check s) := homeDo_wf h (memreadData_wf h)
theorem passOn_wf {n : Snoop} (h : StoresWf s) : StoresWf (passOn s k n) :=
  ite_wf (ringCredit_kept wf_kept (upd_wf rfl rfl (slotUsed_kept wf_kept h)))
    (sendRing_wf (ringCredit_kept wf_kept (upd_wf rfl rfl (slotUsed_kept wf_kept h))))
theorem lookup_wf {n : Snoop} (h : StoresWf s) : StoresWf (lookup s k n) :=
  ite_wf h (ite_wf (snoopOne_kept wf_kept h) (upd_wf rfl rfl (snoopOne_kept wf_kept h)))
theorem snoopReceive_wf (h : StoresWf s) : StoresWf (snoopReceive s k) := by
  unfold snoopReceive
  split
  · exact h
  · exact ite_wf (lookup_wf h) (ite_wf (lookup_wf (passOn_wf h)) h)
theorem execSnoopReceive_wf {snoop : Nat} (h : StoresWf s) : OutWf (execSnoopReceive snoop s) := next_wf (strmSettle_wf (snoopReceive_wf h))
theorem endPass_wf {t : HomeTx} {l : HomeLine} (h : StoresWf s) : StoresWf (endPass s la t l) := by
  unfold endPass
  extract_lets +onlyGivenNames s'
  split
  · exact drainHome_wf (perform_kept wf_kept (setLlc_kept wf_kept (setTx_kept wf_kept h)))
  · exact drainHome_wf (setLlc_kept wf_kept (setTx_kept wf_kept h))
theorem snoopTimeout_wf (h : StoresWf s) : StoresWf (snoopTimeout s la) := by
  unfold snoopTimeout
  split
  · refine ite_wf ?_ ?_
    · extract_lets +onlyGivenNames s'
      split
      · exact endPass_wf (passLate_kept wf_kept (dropSnoops_kept wf_kept h))
      · exact drainHome_wf (setTx_kept wf_kept (passLate_kept wf_kept (dropSnoops_kept wf_kept h)))
    · exact h
  · exact h
theorem snoopAnswer_wf (h : StoresWf s) : StoresWf (snoopAnswer s k) := by
  unfold snoopAnswer
  split
  · exact h
  next a _ =>
    have ho : OptWf StoresWf (if (getDie s (destDie a.src)).withdrawn then some s else cohCross s (destDie a.src) (homeDie a.line)) :=
      ite_wf (some_wf h) (cohCross_wf h)
    split
    · exact h
    next t ht =>
      have ht := of_some ho ht
      refine ite_wf ht ?_
      split
      · exact ite_wf ht (ite_wf (ite_wf (snoopTimeout_wf ht) (ite_wf (endPass_wf (setLlc_kept wf_kept ht))
          (setTx_kept wf_kept (setLlc_kept wf_kept ht)))) (count_kept wf_kept ht))
      · exact count_kept wf_kept ht
theorem execSnoopAnswer_wf {answer : Nat} (h : StoresWf s) : OutWf (execSnoopAnswer answer s) := next_wf (snoopAnswer_wf h)
theorem execSnoopTimeout_wf (h : StoresWf s) : OutWf (execSnoopTimeout line s) := homeDo_wf h (snoopTimeout_wf h)
theorem execPatrolScrubRead_wf {check : LineCheck} (h : StoresWf s) : OutWf (execPatrolScrubRead line check s) := unitDo_wf h (enterJob_wf h)
theorem l1dInvalidate_wf {g : Nat} (h : StoresWf s) : StoresWf (l1dInvalidate s g) :=
  foldl_wf (fun _ _ h => ite_wf h (modPe_kept wf_kept h)) (ite_wf h (cmdBegin_wf h))
theorem execL1dInvalidate_wf {die spar : Nat} (h : StoresWf s) : OutWf (execL1dInvalidate die spar s) := regDo_wf h (l1dInvalidate_wf h)
theorem instOfPe_wf {f : Inst → Res} (h : StoresWf s) (hf : ∀ x0, ResWf (f x0)) : ResWf (instOfPe s k f) := by
  unfold instOfPe
  split
  · exact hf _
  · exact h
theorem sendOp_wf {urgent signal : Bool} {a5 : Hart} {a6 : State} (h : StoresWf a6) : ResWf (sendOp rd rs1 rs2 urgent signal a5 a6) :=
  codeletOnly_wf (fun _ _ h => instOfPe_wf h (fun _ => ite_wf (illegal_wf h) (holdOut_wf h))) h
theorem execSend_wf (h : StoresWf s) : OutWf (execSend core rd rs1 rs2 s) := instrDo_wf (fun _ _ h => sendOp_wf h) h
theorem execSendSig_wf (h : StoresWf s) : OutWf (execSendSig core rd rs1 rs2 s) := instrDo_wf (fun _ _ h => sendOp_wf h) h
theorem execSendp_wf (h : StoresWf s) : OutWf (execSendp core rd rs1 rs2 s) := instrDo_wf (fun _ _ h => sendOp_wf h) h
theorem execSendpSig_wf (h : StoresWf s) : OutWf (execSendpSig core rd rs1 rs2 s) := instrDo_wf (fun _ _ h => sendOp_wf h) h
theorem execFetch_wf (h : StoresWf s) : OutWf (execFetch core rd rs1 rs2 n s) :=
  instrDo_wf (fun _ _ h => codeletOnly_wf (fun _ _ h1 => instOfPe_wf h1 (by
    intro _
    refine ite_wf ?_ ?_
    · exact illegal_wf h1
    · extract_lets +onlyGivenNames vas s'
      split
      · exact foldl_wf (fun _ _ h4 => hartNote_wf h4) h1
      · exact holdOut_wf (foldl_wf (fun _ _ h4 => hartNote_wf h4) h1))) h) h
theorem execFalloc_wf (h : StoresWf s) : OutWf (execFalloc core rd rs1 rs2 s) :=
  instrDo_wf (fun _ _ h => codeletOnly_wf (fun _ _ h1 => instOfPe_wf h1 (by
    intro _
    extract_lets +onlyGivenNames hd d s' fail
    split
    · exact setD_wf (countAllocFail_wf (allocNote_wf h1))
    · exact setD_wf (countAllocFail_wf (allocNote_wf h1))
    · exact setD_wf (countAllocFail_wf (allocLost_wf (allocNote_wf h1)))
    · exact allocNote_wf h1
    · exact setD_wf (modPe_kept wf_kept (modHw_kept wf_kept (allocNote_wf h1))))) h) h
theorem execFallocG_wf (h : StoresWf s) : OutWf (execFallocG core rd rs1 rs2 s) :=
  instrDo_wf (fun _ _ h => codeletOnly_wf (fun _ _ h1 => instOfPe_wf h1 (fun _ => ite_wf (illegal_wf h1) (modPe_kept wf_kept h1))) h) h
theorem freeOp_wf {i : Inst} {gate : Option Nat} (h : StoresWf s) : ResWf (freeOp k i rs1 gate s) :=
  ite_wf (hwPoison_kept wf_kept (unitRead_kept wf_kept h)) (ite_wf (modPe_kept wf_kept (unitRead_kept wf_kept h)) (unitRead_kept wf_kept h))
theorem execFfree_wf (h : StoresWf s) : OutWf (execFfree core rd rs1 rs2 s) :=
  instrDo_wf (fun _ _ h => codeletOnly_wf (fun _ _ h1 => instOfPe_wf h1 (fun _ => ite_wf (illegal_wf h1) (freeOp_wf h1))) h) h
theorem execFfreeG_wf (h : StoresWf s) : OutWf (execFfreeG core rd rs1 rs2 s) :=
  instrDo_wf (fun _ _ h => codeletOnly_wf (fun _ _ h1 => instOfPe_wf h1 (fun _ => ite_wf (illegal_wf h1) (freeOp_wf h1))) h) h
theorem execXissue_wf (h : StoresWf s) : OutWf (execXissue core rd rs1 rs2 s) := instrDo_wf (by
    intro _ _ h
    refine ite_wf ?_ ?_
    · exact illegal_wf h
    · extract_lets +onlyGivenNames va tag s'
      split
      · exact hartNote_wf h
      · split
        · exact holdOut_wf (hartNote_wf h)
        · exact ite_wf h (inject_wf (upd_wf rfl rfl (hartNote_wf h)))) h
theorem setPostRr_wf {v : Nat} (h : StoresWf s) : StoresWf (setPostRr s hart v) := by
  unfold setPostRr
  split
  · exact modPe_kept wf_kept h
  · exact modSup_kept wf_kept h
theorem execWqpost_wf {fn : BitVec 10} (h : StoresWf s) : OutWf (execWqpost core wd ws rs1 rs2 fn s) := by
  refine instrDo_wf (fun hart t ht => ite_wf (P := ResWf) ht ?_) h
  cases hart with
  | sup c => exact setD_wf (tryPost_wf (setPostRr_wf ht))
  | pe k =>
    dsimp only
    split
    next u hu => exact setD_wf (setPostRr_wf (res_next_wf (holdOut_wf ht) hu))
    · exact holdOut_wf ht

end Sys2Proof.Machine
end

section
/-! SUPPORT. The flash, chains and the HXP wire keep the stores (log entry 2). -/

namespace Sys2Proof.Machine

variable {s : State} {a d i n va : Nat} {c : Ctx} {hint : BitVec 16}

theorem flProgram_wf {l : List Nat} (h : StoresWf s) : StoresWf (flProgram s a l) := by
  induction l generalizing s a with
  | nil => exact h
  | cons _ _ ih => exact ih ⟨h.1, tset_wf _ _ _ _ h.2⟩
theorem tabWfFrom_filter {α : Type} [DecidableEq α] {d : Nat → α} (p : Nat × α → Bool) {t : Tab α} {lo : Nat} (h : tabWfFrom d lo t = true) :
    tabWfFrom d lo (t.filter p) = true := by
  induction t generalizing lo with
  | nil => rfl
  | cons e t ih =>
    obtain ⟨j, v⟩ := e
    simp only [tabWfFrom, Bool.and_eq_true, decide_eq_true_eq] at h
    obtain ⟨⟨hj, hv⟩, ht⟩ := h
    rw [List.filter_cons]
    split
    · simp [tabWfFrom, hj, hv, ih ht]
    · exact tabWfFrom_mono d (j + 1) lo _ (ih ht) (by omega)
theorem flErase_wf (h : StoresWf s) : StoresWf (flErase s a n) := ⟨h.1, tabWfFrom_filter _ h.2⟩
theorem agePut_wf {half seq : Nat} {l : List AgeRec} (h : StoresWf s) : StoresWf (agePut s half seq l) := by
  induction l generalizing s seq with
  | nil => exact h
  | cons r l ih =>
    unfold agePut
    exact ih (flProgram_wf h)
theorem ageAppend_wf {r : AgeRec} (h : StoresWf s) : StoresWf (ageAppend s r) := by
  unfold ageAppend
  exact ite_wf (agePut_wf h) (agePut_wf (flErase_wf h))
theorem flUndo_wf {held : List Host.Cell} (h : StoresWf s) : StoresWf (flUndo s a n held) :=
  ⟨h.1, foldl_wf (P := fun t => tabWf flDflt t = true) (fun _ _ ht => tset_wf _ _ _ _ ht) (flErase_wf h).2⟩
theorem flCut_wf {a1 : FlashJob} (h : StoresWf s) : StoresWf (flCut s a1) := by
  unfold flCut
  split
  · exact flUndo_wf (takeFree_kept wf_kept h)
  · exact flUndo_wf (takeFree_kept wf_kept h)
  · exact flUndo_wf (takeFree_kept wf_kept h)
theorem notePages_wf (h : StoresWf s) : StoresWf (notePages s c va n) := foldl_wf (fun _ _ h => xlateNote_wf h) h
theorem noteBufs_wf {l : List (Nat × Nat)} (h : StoresWf s) : StoresWf (noteBufs s c l) := foldl_wf (fun _ _ h => notePages_wf h) h
theorem noteSide_wf {w : Word} {len : Nat} (h : StoresWf s) : StoresWf (noteSide s c w len) := by
  unfold noteSide
  extract_lets +onlyGivenNames s'
  split
  · exact ite_wf (xlateNote_wf h) h
  · exact noteBufs_wf (ite_wf (notePages_wf (ite_wf (xlateNote_wf h) h)) (ite_wf (xlateNote_wf h) h))
theorem readBufs_wf {l : List (Nat × Nat)} (h : StoresWf s) : StoresWf (readBufs s c l) := foldl_wf (by
    intro _ _ h
    extract_lets +onlyGivenNames s'
    split
    · exact unitReads_kept wf_kept (xlateNote_wf h)
    · exact xlateNote_wf h) h
theorem hintStore_wf {die : Nat} {wa : Nat} {v : Word} (h : StoresWf s) : StoresWf (hintStore s die hint wa v) := by
  refine ite_wf ?_ ?_
  · exact unbacked_kept wf_kept h
  · split
    next t ht => exact wf_kept.poke (homeNow_wf h _ ht)
    · exact store_kept wf_kept h
theorem xStore_wf {first : Bool} {v : Word} (h : StoresWf s) : StoresWf (xStore s c hint va first v) := by
  unfold xStore
  extract_lets +onlyGivenNames lead s'
  split
  · exact ite_wf (hintStore_wf (ite_wf (xlateNote_wf h) h)) (ite_wf (wf_kept.poke (ite_wf (xlateNote_wf h) h))
      (unbacked_kept wf_kept (ite_wf (xlateNote_wf h) h)))
  · exact ite_wf (xlateNote_wf h) h
theorem xStores_wf {ws : List Word} (h : StoresWf s) : StoresWf (xStores s c hint va ws) := foldl_wf (fun _ _ h => xStore_wf h) h
theorem fillBufs_wf {bs : List (Nat × Nat)} {ws : List Word} (h : StoresWf s) : FstWf (fillBufs s c hint bs ws) := by
  induction bs generalizing s ws with
  | nil => exact h
  | cons _ _ ih => exact ih (xStores_wf h)
theorem fillOvf_wf {ovf j : Nat} {o : Overflow} (h : StoresWf s) : FstWf (fillOvf s c hint ovf n j o) := by
  induction n generalizing s j o with
  | zero => exact h
  | succ n ih =>
    unfold fillOvf
    refine ite_wf (P := FstWf) h (ite_wf (P := FstWf) h ?_)
    extract_lets +onlyGivenNames t
    have ht : StoresWf t := unitNote_wf h
    split
    · exact ht
    · exact ht
    · refine ite_wf (P := FstWf) ht (ite_wf (P := FstWf) ht ?_)
      extract_lets +onlyGivenNames u
      have hu : StoresWf u := notePages_wf ht
      split
      · exact hu
      · exact ih (xStores_wf hu)
theorem freeWords_wf (h : StoresWf s) : SndWf (freeWords n s) := by
  induction n generalizing s with
  | zero => exact h
  | succ n ih => exact ih (takeFree_kept wf_kept h)
theorem failResult_wf {res status : Nat} (h : StoresWf s) : StoresWf (failResult s c hint res status) := ite_wf h (xStores_wf (freeWords_wf h))
theorem okResult_wf {res inb : Nat} {o : ChainOut} {v : Overflow} (h : StoresWf s) : StoresWf (okResult s c hint res inb o v) :=
  ite_wf h (xStores_wf h)
theorem readSource_wf (h : StoresWf s) : StoresWf (readSource s c i) := by
  unfold readSource
  extract_lets +onlyGivenNames w
  split
  · exact h
  · exact readBufs_wf (ite_wf (readBufs_wf h) h)
theorem resWritten_wf (h : StoresWf s) : StoresWf (resWritten s i) := modWork_wf h
theorem cameTo_wf (h : StoresWf s) : StoresWf (cameTo s i n) := modWork_wf h
theorem setXlen_wf (h : StoresWf s) : StoresWf (setXlen s i n) := setEntF_wf h
theorem chainOutput_wf {l : List Word} {inb : Nat} {o : ChainOut} (h : StoresWf s) : StoresWf (chainOutput s c i l inb o) := by
  refine ite_wf ?_ (ite_wf (modWork_wf (okResult_wf h)) ?_)
  · exact ite_wf (closeWith_wf (resWritten_wf (failResult_wf h))) (modWork_wf (okResult_wf h))
  · split
    · exact closeWith_wf (cameTo_wf h)
    · extract_lets +onlyGivenNames r v t
      have hv : StoresWf v.1 := fillOvf_wf (fillBufs_wf h)
      have ht : StoresWf t := ite_wf (setXlen_wf hv) hv
      clear_value t
      split
      · exact closeWith_wf (cameTo_wf (ite_wf (resWritten_wf (failResult_wf ht)) ht))
      · exact modWork_wf (okResult_wf ht)
theorem countXerr_wf {t : Stage} (h : StoresWf s) : StoresWf (countXerr s d t) := ite_wf (count_kept wf_kept h) (count_kept wf_kept h)
theorem chainError_wf {stage code : Nat} (h : StoresWf s) : StoresWf (chainError s d i stage code) :=
  closeWith_wf (resWritten_wf (failResult_wf (ite_wf (countXerr_wf h) h)))
theorem dropChain_wf (h : StoresWf s) : StoresWf (dropChain s d i) := h
theorem turnReads_wf {k : Nat} (h : StoresWf s) : StoresWf (turnReads s c i k n) := by
  unfold turnReads
  extract_lets +onlyGivenNames w
  split
  · exact h
  · exact ite_wf h (readBufs_wf (ite_wf (readBufs_wf h) h))
theorem chainFinish_wf {inp : List Word} (h : StoresWf s) : StoresWf (chainFinish s d i inp) := by
  unfold chainFinish
  extract_lets +onlyGivenNames l bytes
  split
  · exact chainOutput_wf h
  · exact chainError_wf (cameTo_wf h)
theorem modSess_wf {f : Sess → Sess} (h : StoresWf s) : StoresWf (modSess s i f) := h
theorem modAssoc_wf {f : Assoc → Assoc} (h : StoresWf s) : StoresWf (modAssoc s i f) := h
theorem setAt13_wf {hi lo v : Nat} (h : StoresWf s) : StoresWf (setAt13 s i hi lo v) := store_kept wf_kept h
theorem setSt_wf {v : Nat} (h : StoresWf s) : StoresWf (setSt s i v) := store_kept wf_kept h
theorem deriveAssoc_wf {sent : Bool} {ph : Nat} (h : StoresWf s) : StoresWf (deriveAssoc s i sent ph) := by
  unfold deriveAssoc
  split
  · exact modAssoc_wf h
  · exact h
theorem deriveSess_wf {sent : Bool} {ph : Nat} (h : StoresWf s) : StoresWf (deriveSess s n sent ph) := by
  unfold deriveSess
  split
  · exact modSess_wf h
  · exact h
theorem openAssocKeys_wf (h : StoresWf s) : StoresWf (openAssocKeys s i) := deriveAssoc_wf (deriveAssoc_wf (deriveAssoc_wf (modAssoc_wf h)))
theorem openSessKeys_wf (h : StoresWf s) : StoresWf (openSessKeys s n) := deriveSess_wf (deriveSess_wf (deriveSess_wf (modSess_wf h)))
theorem sendOn_wf {e : Nat} {b data : Bool} {body : List Nat} (h : StoresWf s) : StoresWf (sendOn s e i b data body) :=
  ite_wf (strmSend_wf (takeFree_kept wf_kept h)) h
theorem sendBoth_wf {e : Nat} {data : Bool} {body : List Nat} (h : StoresWf s) : StoresWf (sendBoth s e i data body) := sendOn_wf (sendOn_wf h)

end Sys2Proof.Machine
end

section
/-! SUPPORT. NVMe commands and HXP sessions keep the stores (log entry 2). -/

namespace Sys2Proof.Machine

variable {c cause cmd d detail die eng i k n pair reason sub typ : Nat} {s t : State} {l : List Nat} {data : List Word} {ctrl : BitVec 16}
  {index : BitVec 24} {b : Bool} {f : HxFrame} {session : Fin 65536} {assoc : Fin 4096}

theorem stagedData_wf {u : Nat} (h : StoresWf s) : SndWf (stagedData u n s) := by
  induction u generalizing n s with
  | zero => exact h
  | succ u ih => exact ih (takeFree_kept wf_kept h)
theorem nvData_wf {sgl : Bool} (h : StoresWf s) : SndWf (nvData s k i sgl) := by
  refine ite_wf ?_ ?_
  · exact snd_mk_wf h
  · refine ite_wf ?_ ?_
    · exact stagedData_wf h
    · split
      · exact snd_mk_wf h
      · exact snd_mk_wf h
theorem nvPointer_wf {sgl : Bool} {l : List (Nat × Nat)} (h : StoresWf s) : SndWf (nvPointer s sgl l).2 := by
  unfold nvPointer
  dsimp only
  split
  · exact h
  · exact h
  · split
    · exact takeFree_kept wf_kept h
    · exact ite_wf (P := StoresWf) h (takeFree_kept wf_kept h)
theorem nvSubmit_wf {slot : Nat} (h : StoresWf s) : StoresWf (nvSubmit s k i pair slot) := by
  unfold nvSubmit
  extract_lets c gen cid t u sgl r l v
  have hu : StoresWf u := modWork_wf (setEnt_wf (modEng_wf h))
  have hv : StoresWf v := nvData_wf hu
  exact ite_wf (give_kept wf_kept (of_snd (nvPointer_wf hv))) (give_kept wf_kept hv)
theorem nvSetup_wf (h : StoresWf s) : StoresWf (nvSetup s c) := h
theorem nvDrop_wf (h : StoresWf s) : StoresWf (nvDrop s k i) := modEng_wf h
theorem unserve_wf (h : StoresWf s) : StoresWf (unserve s k i) := modEng_wf h
theorem serveLast_wf (h : StoresWf s) : StoresWf (serveLast s k i) := modEng_wf (unserve_wf h)
theorem nvFail_wf (h : StoresWf s) : StoresWf (nvFail s i reason detail) := ite_wf (closeWith_wf h) (closeWith_wf h)
theorem nvRetry_wf (h : StoresWf s) : StoresWf (nvRetry s k i reason detail) :=
  ite_wf (serveLast_wf (setEnt_wf (setEntF_wf (setEntF_wf (setEntF_wf (nvDrop_wf h)))))) (nvFail_wf (nvDrop_wf h))
theorem chainStart_wf (h : StoresWf s) : StoresWf (chainStart s d i) := h
theorem closeOk_wf (h : StoresWf s) : StoresWf (closeOk s i) := closeWith_wf h
theorem nvSuccess_wf (h : StoresWf s) : StoresWf (nvSuccess s k i data) := by
  unfold nvSuccess
  extract_lets +onlyGivenNames d kind t len
  have ht : StoresWf t := modWork_wf (setEnt_wf (nvDrop_wf h))
  refine ite_wf (ite_wf (chainStart_wf (modWork_wf (setXlen_wf ht))) ?_)
    (ite_wf (closeOk_wf (setXlen_wf ht)) (ite_wf (closeOk_wf (setXlen_wf ?_)) (closeOk_wf (setXlen_wf ht))))
  · extract_lets c
    split
    · exact closeWith_wf ht
    · exact closeOk_wf (setXlen_wf (of_fst (fillBufs_wf ht)))
  · split
    · exact ite_wf (of_fst (fillBufs_wf ht)) ht
    · exact ht
theorem nvOutcome_wf {dw3 : Nat} (h : StoresWf s) : StoresWf (nvOutcome s k i dw3 data) :=
  ite_wf (nvSuccess_wf h) (ite_wf (closeWith_wf (nvDrop_wf h)) (nvRetry_wf h))
theorem nvEvent_wf {k0 cid : Nat} (h : StoresWf s) : StoresWf (nvEvent s k k0 c pair cid) :=
  ite_wf (evPush_wf (modEng_wf h)) (ite_wf (evPush_wf (modEng_wf h)) h)
theorem nvmeCompletion_wf {k0 cid dw3 : Nat} (h : StoresWf s) : StoresWf (nvmeCompletion s k0 c pair cid dw3 data) := by
  unfold nvmeCompletion
  extract_lets +onlyGivenNames k s'
  split
  · exact count_kept wf_kept (nvEvent_wf h)
  · exact ite_wf (count_kept wf_kept (nvEvent_wf h)) (ite_wf (nvOutcome_wf (nvEvent_wf h)) (nvEvent_wf h))
theorem execNvmeCompletion_wf {cid : BitVec 16} {dw3 : BitVec 32} (h : StoresWf s) : OutWf (execNvmeCompletion die eng ctrl pair cid dw3 data s) :=
  unitDo_wf h (nvmeCompletion_wf h)
theorem nvAbort_wf {m : NvCmd} (h : StoresWf s) : StoresWf (nvAbort s k m) := give_kept wf_kept (modEng_wf (setEnt_wf (setEntF_wf h)))
theorem nvmeTimeout_wf (h : StoresWf s) : StoresWf (nvmeTimeout s k i) := by
  unfold nvmeTimeout
  split
  · exact ite_wf (nvAbort_wf h) h
  · exact h
theorem execNvmeTimeout_wf (h : StoresWf s) : OutWf (execNvmeTimeout die eng index s) := unitDo_wf h (nvmeTimeout_wf h)
theorem abortDone_wf {confirmed : Bool} (h : StoresWf s) : StoresWf (abortDone s k i confirmed) := ite_wf (nvRetry_wf (ite_wf h (modWork_wf h))) h
theorem execAbortDone_wf {confirmed : Bool} (h : StoresWf s) : OutWf (execAbortDone die eng index confirmed s) := unitDo_wf h (abortDone_wf h)
theorem timeOutAll_wf (h : StoresWf s) : StoresWf (timeOutAll s c) := foldl_wf (fun _ _ h => foldl_wf (fun _ _ h1 => nvAbort_wf h1) h) h
theorem journalErr_wf (h : StoresWf s) : StoresWf (journalErr s d i) :=
  refuse_wf (upd_wf rfl rfl (ldgFree_wf (setEntF_wf (jMark_wf (modChan_wf (pctAdd_wf (pctAdd_wf h)))))))
theorem ldevLeaves_wf (h : StoresWf s) : StoresWf (ldevLeaves s) :=
  foldl_wf (fun _ _ h => ite_wf (foldl_wf (fun _ _ h1 => journalErr_wf h1) (evRaise_kept wf_kept (modChan_wf h))) h) h
theorem ctrlLost_wf (h : StoresWf s) : StoresWf (ctrlLost s c) := by
  unfold ctrlLost
  extract_lets +onlyGivenNames t u v
  have hu : StoresWf u := h
  have hv : StoresWf v := foldl_wf (fun _ _ h => ite_wf (nvFail_wf (dropChain_wf (modEng_wf (ite_wf (modWork_wf h) h)))) h) hu
  exact ite_wf (ldevLeaves_wf hv) hv
theorem execControllerFatal_wf (h : StoresWf s) : OutWf (execControllerFatal ctrl s) :=
  next_wf (ite_wf h (ite_wf (ctrlLost_wf h) (nvSetup_wf (give_kept wf_kept (timeOutAll_wf (modCtrl_wf h))))))
theorem execControllerResetTimeout_wf (h : StoresWf s) : OutWf (execControllerResetTimeout ctrl s) := next_wf (ite_wf h (ctrlLost_wf h))
theorem countHxp_wf {word : Nat} (h : StoresWf s) : StoresWf (countHxp s d word) := count_kept wf_kept h
theorem nextAssocCtl_wf (h : StoresWf s) : StoresWf (nextAssocCtl s i) := ite_wf (deriveAssoc_wf (modAssoc_wf (modAssoc_wf h))) (modAssoc_wf h)
theorem assocBody_wf {conf : Bool} {hart : Hdr} {payload : List Nat} (h : StoresWf s) : SndWf (assocBody s i conf hart payload) :=
  snd_mk_wf (nextAssocCtl_wf h)
theorem sendAssocOn_wf {hart : Hdr} (h : StoresWf s) : StoresWf (sendAssocOn s i b hart) := by
  conv in sendAssocOn => delta sendAssocOn
  split
  next _ t ht => exact sendOn_wf (snd_wf (assocBody_wf h) ht)
  next t ht => exact snd_wf (assocBody_wf h) ht
theorem sendLease_wf {rel : Bool} {ep : Nat} (h : StoresWf s) : StoresWf (sendLease s i typ rel ep b) := sendAssocOn_wf h
theorem sendSessBoth_wf {payload : List Nat} (h : StoresWf s) : StoresWf (sendSessBoth s n typ payload) := by
  conv in sendSessBoth => delta sendSessBoth
  extract_lets +onlyGivenNames i
  split
  next _ t ht => exact sendBoth_wf (snd_wf (assocBody_wf h) ht)
  next t ht => exact snd_wf (assocBody_wf h) ht
theorem sendAssocOpen_wf {nonce : Word} (h : StoresWf s) : StoresWf (sendAssocOpen s i typ nonce) := by
  conv in sendAssocOpen => delta sendAssocOpen
  extract_lets +onlyGivenNames s'
  split
  · exact nextAssocCtl_wf h
  · exact sendBoth_wf (nextAssocCtl_wf h)
theorem sendSessOpen_wf {nonce : Word} (h : StoresWf s) : StoresWf (sendSessOpen s n typ nonce) := sendSessBoth_wf h
theorem nextSessPhase_wf {ctl seq : Nat} (h : StoresWf s) : StoresWf (nextSessPhase s n ctl seq) := deriveSess_wf (modSess_wf h)
theorem sendAckNak_wf {ack credit : Nat} (h : StoresWf s) : StoresWf (sendAckNak s n typ ack credit) := by
  conv in sendAckNak => delta sendAckNak
  extract_lets +onlyGivenNames i
  refine ite_wf h ?_
  extract_lets +onlyGivenNames y c t u x
  have hu : StoresWf u := ite_wf (nextSessPhase_wf (modSess_wf h)) (modSess_wf h)
  split
  · exact hu
  · exact sendOn_wf hu
theorem sendAck_wf (h : StoresWf s) : StoresWf (sendAck s n) := ite_wf (sendAckNak_wf (modSess_wf h)) h
theorem sendSeg_wf {g : TxSeg} (h : StoresWf s) : StoresWf (sendSeg s n g) := by
  unfold sendSeg
  extract_lets +onlyGivenNames s'
  split
  · exact sendBoth_wf (modSess_wf h)
  · exact modSess_wf h
theorem resendSeg_wf {g : TxSeg} (h : StoresWf s) : StoresWf (resendSeg s n g) := sendSeg_wf (countHxp_wf h)
theorem firstSend_wf (h : StoresWf s) : StoresWf (firstSend s n i) := sendSeg_wf (modWork_wf (modSess_wf (ite_wf (nextSessPhase_wf h) h)))
theorem sendSegs_wf {fuel : Nat} (h : StoresWf s) : StoresWf (sendSegs s n i fuel) := by
  induction fuel generalizing s with
  | zero => exact h
  | succ _ ih => exact ite_wf (ih (firstSend_wf h)) h
theorem pump_wf (h : StoresWf s) : StoresWf (pump s n) := foldl_wf (fun _ _ h => sendSegs_wf h) h
theorem sndClear_wf (h : StoresWf s) : StoresWf (sndClear s i) := by
  unfold sndClear
  extract_lets +onlyGivenNames n
  split
  · exact store_kept wf_kept h
  · exact h
theorem sendWait_wf (h : StoresWf s) : StoresWf (sendWait s k i) := ite_wf (count_kept wf_kept (modEng_wf (setEntF_wf h))) (setEntF_wf h)
theorem sendStart_wf (h : StoresWf s) : StoresWf (sendStart s i) := by
  unfold sendStart
  extract_lets +onlyGivenNames n d w ws ready
  refine ite_wf h (ite_wf (closeWith_wf h) ?_)
  extract_lets +onlyGivenNames src
  clear_value src
  split
  · exact closeWith_wf h
  · refine ite_wf (closeWith_wf h) ?_
    extract_lets +onlyGivenNames cnt
    split
    · exact sendSegs_wf (foldl_wf (fun _ _ ht => resendSeg_wf ht) (modWork_wf h))
    · split
      · exact sendWait_wf h
      · exact ite_wf (sendWait_wf h) (sendSegs_wf (modSess_wf (modWork_wf (store_kept wf_kept (store_kept wf_kept h)))))
theorem execHxpSendStart_wf (h : StoresWf s) : OutWf (execHxpSendStart die eng index s) := unitDo_wf h (sendStart_wf h)
theorem recvFail_wf (h : StoresWf s) : StoresWf (recvFail s i reason detail) := closeWith_wf (setEntF_wf (setEnt_wf h))
theorem endExchanges_wf (h : StoresWf s) : StoresWf (endExchanges s n cause) :=
  foldl_wf (fun _ _ h => ite_wf h (ite_wf (ite_wf (closeWith_wf (dropChain_wf h)) (closeWith_wf (dropChain_wf h))) h)) h
theorem endInbound_wf (h : StoresWf s) : StoresWf (endInbound s n) := modChan_wf (foldl_wf (fun _ _ h => modSess_wf (recvFail_wf h)) (foldl_wf (by
    intro _ _ h
    split
    · exact modSess_wf (recvFail_wf h)
    · exact h) h))
theorem endSession_wf (h : StoresWf s) : StoresWf (endSession s n cause) := modSess_wf (endInbound_wf (endExchanges_wf h))
theorem closeSession_wf (h : StoresWf s) : StoresWf (closeSession s n cause) := evRaise_kept wf_kept (endSession_wf (setSt_wf h))
theorem openSession_wf {peerMax : Nat} (h : StoresWf s) : StoresWf (openSession s n peerMax) := openSessKeys_wf (modSess_wf (setSt_wf h))
theorem clearMap_wf (h : StoresWf s) : StoresWf (clearMap s n) := foldl_wf (fun _ _ h => ite_wf h (store_kept wf_kept h)) h
theorem tryClose_wf (h : StoresWf s) : StoresWf (tryClose s n) := ite_wf (modSess_wf (sendSessBoth_wf h)) h
theorem startSession_wf (h : StoresWf s) : StoresWf (startSession s n) := sendSessOpen_wf (modSess_wf (takeFree_kept wf_kept h))
theorem startAssoc_wf (h : StoresWf s) : StoresWf (startAssoc s i) := sendAssocOpen_wf (modAssoc_wf (takeFree_kept wf_kept h))
theorem openAssoc_wf {ni nr : Word} {openSeq : Nat} (h : StoresWf s) : StoresWf (openAssoc s i ni nr openSeq) := openAssocKeys_wf (modAssoc_wf h)
theorem resetSessions_wf (h : StoresWf s) : StoresWf (resetSessions s i) := foldl_wf (fun _ _ h => ite_wf (closeSession_wf (sendSessBoth_wf h)) h) h
theorem takeAssocOpen_wf (h : StoresWf s) : StoresWf (takeAssocOpen s k f) :=
  ite_wf (countHxp_wf h) (ite_wf (ite_wf (countHxp_wf h) (sendAssocOpen_wf (modAssoc_wf h)))
    (ite_wf h (sendAssocOpen_wf (openAssoc_wf (takeFree_kept wf_kept (ite_wf (resetSessions_wf h) h))))))
theorem takeSessOpen_wf (h : StoresWf s) : StoresWf (takeSessOpen s k n f) :=
  ite_wf (countHxp_wf h) (ite_wf (countHxp_wf h) (ite_wf (sendSessOpen_wf (clearMap_wf (openSession_wf (modSess_wf (takeFree_kept wf_kept h)))))
    (ite_wf (sendSessOpen_wf (clearMap_wf (openSession_wf (modSess_wf (takeFree_kept wf_kept (endSession_wf h)))))) h)))
theorem setLease_wf {l : Lease} (h : StoresWf s) : StoresWf (setLease s i l) := modAssoc_wf (setAt13_wf h)
theorem claim_wf {ep : Nat} (h : StoresWf s) : StoresWf (claim s i ep b) := sendLease_wf (modAssoc_wf (setAt13_wf (setLease_wf h)))
theorem takeAssocAck_wf (h : StoresWf s) : StoresWf (takeAssocAck s k f) :=
  ite_wf (countHxp_wf h) (ite_wf (countHxp_wf h) (foldl_wf (fun _ _ h => startSession_wf h) (claim_wf (openAssoc_wf h))))
theorem takeSessAck_wf (h : StoresWf s) : StoresWf (takeSessAck s k n f) :=
  ite_wf (countHxp_wf h) (ite_wf (clearMap_wf (openSession_wf (modSess_wf h))) h)
theorem takeClose_wf (h : StoresWf s) : StoresWf (takeClose s n) := ite_wf (closeSession_wf (sendSessBoth_wf h)) h
theorem takeCloseAck_wf (h : StoresWf s) : StoresWf (takeCloseAck s n) := ite_wf (closeSession_wf h) h
theorem takeReset_wf (h : StoresWf s) : StoresWf (takeReset s n) := ite_wf (closeSession_wf h) h
theorem completeSends_wf (h : StoresWf s) : StoresWf (completeSends s n) := foldl_wf (by
    intro _ _ h
    extract_lets +onlyGivenNames w
    split
    · exact ite_wf (closeOk_wf (setXlen_wf h)) h
    · exact h) h
theorem takeAck_wf (h : StoresWf s) : StoresWf (takeAck s n f) :=
  tryClose_wf (pump_wf (completeSends_wf (ite_wf (modSess_wf (ite_wf (modSess_wf h) h)) (ite_wf (modSess_wf h) h))))
theorem takeNak_wf (h : StoresWf s) : StoresWf (takeNak s n f) := foldl_wf (fun _ _ h => resendSeg_wf h) h
theorem setMapBit_wf {v : Bool} (h : StoresWf s) : StoresWf (setMapBit s n k v) := store_kept wf_kept h
theorem advanceBase_wf {fuel : Nat} (h : StoresWf s) : StoresWf (advanceBase s n fuel) := by
  induction fuel generalizing s with
  | zero => exact h
  | succ _ ih => exact ite_wf (ih (modSess_wf (setMapBit_wf h))) h
theorem inboundTry_wf {b : Inbound} (h : StoresWf s) : StoresWf (inboundTry s d b) := by
  unfold inboundTry
  extract_lets +onlyGivenNames part asid keep drop t
  have ht : StoresWf t := allocNote_wf (ptFill_wf h)
  have hkeep {u : State} {c : Bool} (hu : StoresWf u) : StoresWf (keep u c) := ite_wf (countAllocFail_wf hu) (modChan_wf (countAllocFail_wf hu))
  have hdrop {u : State} (hu : StoresWf u) : StoresWf (drop u) := modChan_wf hu
  clear_value t keep drop
  split
  · exact hkeep ht
  · exact hkeep ht
  · exact hkeep (allocLost_wf ht)
  · exact recvFail_wf (hdrop ht)
  · exact closeOk_wf (setEnt_wf (hdrop (store_kept wf_kept (doAlloc_wf ht))))
theorem rxDone_wf {m : RxMsg} (h : StoresWf s) : StoresWf (rxDone s n m) := by
  unfold rxDone
  extract_lets +onlyGivenNames d s'
  split
  · exact modSess_wf h
  · split
    · exact recvFail_wf (modSess_wf h)
    · exact ite_wf (closeOk_wf (setXlen_wf (modSess_wf h))) (inboundTry_wf (setXlen_wf (modSess_wf h)))
theorem rxComplete_wf (h : StoresWf s) : StoresWf (rxComplete s n) := foldl_wf (fun _ _ h => ite_wf h (rxDone_wf h)) h
theorem takeBuffer_wf (h : StoresWf s) : OptWf SndWf (takeBuffer s n) := by
  unfold takeBuffer
  split
  · exact some_wf (snd_mk_wf (modSess_wf h))
  · exact ite_wf none_wf (some_wf (snd_mk_wf (store_kept wf_kept h)))
theorem recvEntry_wf {user : Word} (h : StoresWf s) : OptWf SndWf (recvEntry s n user) := by
  unfold recvEntry
  extract_lets +onlyGivenNames d part r
  split
  · exact none_wf
  · exact ite_wf none_wf (some_wf (snd_mk_wf (stores_wf (freeWords_wf (modChan_wf (ldgTake_wf (pctAdd_wf (pickIndex_wf h))))))))
theorem placeSegment_wf {m : RxMsg} (h : StoresWf s) : StoresWf (placeSegment s n m f) := by
  unfold placeSegment
  split
  · exact h
  · exact modSess_wf (ite_wf (notePages_wf h) (xStores_wf (notePages_wf h)))
theorem recordWhole_wf {first cnt : Nat} (h : StoresWf s) : StoresWf (recordWhole s n first cnt) :=
  foldl_wf (fun _ _ h => ite_wf h (setMapBit_wf h)) h
theorem noteAssoc_wf (h : StoresWf s) : StoresWf (notePhase.noteAssoc f s) := ite_wf (deriveAssoc_wf (modAssoc_wf h)) h
theorem notePhase_wf (h : StoresWf s) : StoresWf (notePhase s f) := by
  unfold notePhase
  dsimp only
  split
  · exact ite_wf (ite_wf (deriveSess_wf (modSess_wf h)) (ite_wf (modSess_wf h) h)) (noteAssoc_wf h)
  · exact ite_wf h (noteAssoc_wf h)
theorem takeSegment_wf (h : StoresWf s) : SndWf (takeSegment s n f) := by
  unfold takeSegment
  extract_lets +onlyGivenNames first
  split
  · exact snd_mk_wf (placeSegment_wf h)
  · refine ite_wf ?_ ?_
    · exact snd_mk_wf (recordWhole_wf (countHxp_wf h))
    · refine ite_wf ?_ ?_
      · exact snd_mk_wf h
      · split
        · exact snd_mk_wf h
        next _ t1 ht1 =>
          split
          · exact snd_mk_wf (recvEntry_wf h _ ht1)
          next _ t2 ht2 => exact snd_mk_wf (placeSegment_wf (modSess_wf (takeBuffer_wf (recvEntry_wf h _ ht1) _ ht2)))
theorem takeData_wf (h : StoresWf s) : StoresWf (takeData s k n f) := by
  refine ite_wf (sendAck_wf (countHxp_wf h)) (ite_wf (countHxp_wf h) (ite_wf (countHxp_wf h) ?_))
  extract_lets +onlyGivenNames r t u
  have hr : StoresWf r.2 := takeSegment_wf h
  have ht : StoresWf t := ite_wf (setMapBit_wf (notePhase_wf hr)) (modSess_wf (countHxp_wf hr))
  have hu : StoresWf u := rxComplete_wf (advanceBase_wf ht)
  exact ite_wf (sendAck_wf hu) hu
theorem takeLease_wf (h : StoresWf s) : StoresWf (takeLease s k f) :=
  ite_wf h (ite_wf (ite_wf (ite_wf (sendLease_wf (setLease_wf h)) (sendLease_wf h)) (countHxp_wf h))
    (ite_wf (sendLease_wf (setAt13_wf (setAt13_wf (setLease_wf h)))) (countHxp_wf h)))
theorem takeLeaseAck_wf (h : StoresWf s) : StoresWf (takeLeaseAck s f) :=
  ite_wf h (ite_wf (ite_wf (ite_wf (evRaise_kept wf_kept (modAssoc_wf (setAt13_wf (setLease_wf h)))) (modAssoc_wf (setAt13_wf (setLease_wf h))))
    (setAt13_wf (setLease_wf h))) (ite_wf (claim_wf h) h))
theorem rawReceive_wf (h : StoresWf s) : StoresWf (rawReceive s d sub l) :=
  ite_wf (evRaise_kept wf_kept (countHxp_wf h)) (evRaise_kept wf_kept (store_kept wf_kept (store_kept wf_kept (stores_wf h))))
theorem setUp_wf {up : Bool} (h : StoresWf s) : StoresWf (setUp s i b up) := ite_wf h (evRaise_kept wf_kept (setAt13_wf h))
theorem noteTime_wf {now : Word} (h : StoresWf s) : StoresWf (noteTime s f now) := by
  unfold noteTime
  extract_lets +onlyGivenNames s'
  split
  · exact modSess_wf (modAssoc_wf h)
  · exact modAssoc_wf h
theorem hxpArrive_wf {len : Nat} {f : IpFrame} (h : StoresWf s) : StoresWf (hxpArrive s d sub len f) := by
  refine ite_wf ?_ ?_
  · exact countHxp_wf h
  · refine ite_wf ?_ ?_
    · exact countHxp_wf h
    · split
      · exact countHxp_wf h
      · split
        · exact countHxp_wf h
        · exact modDie_wf h
theorem pfcTake_wf (h : StoresWf s) : StoresWf (pfcTake s d sub l) := foldl_wf (fun _ _ h => ite_wf (modDie_wf h) h) h
theorem frameReceive_wf {room fcs : Bool} (h : StoresWf s) : StoresWf (frameReceive s d sub l room fcs) := by
  refine ite_wf ?_ ?_
  · exact h
  · refine ite_wf ?_ ?_
    · exact countHxp_wf h
    · refine ite_wf ?_ ?_
      · exact countHxp_wf h
      · refine ite_wf ?_ ?_
        · exact strmSettle_wf (pfcTake_wf h)
        · split
          · exact rawReceive_wf h
          · exact ite_wf (strmSettle_wf (hxpArrive_wf h)) (rawReceive_wf h)
theorem hxpDo_wf (hs : StoresWf s) (ht : StoresWf t) : OutWf (hxpDo s die t) := unitDo_wf hs ht
theorem execHxpFrameReceive_wf {sub : Fin 4} {frame : List Byte} {room fcs : Bool} (h : StoresWf s) : OutWf
    (execHxpFrameReceive die sub frame room fcs s) :=
  hxpDo_wf h (frameReceive_wf h)
theorem ctlNote_wf (h : StoresWf s) : StoresWf (ctlNote s f) := by
  unfold ctlNote
  split
  · exact ite_wf (modSess_wf h) (modAssoc_wf h)
  · exact modAssoc_wf h
theorem ctlTakeIf_wf {ok : Bool} {run : State → State} (h : StoresWf s) (hrun : ∀ x0, StoresWf x0 → StoresWf (run x0)) : StoresWf
    (ctlTakeIf s k f ok run) :=
  ite_wf (countHxp_wf h) (ite_wf (countHxp_wf h) (hrun _ (notePhase_wf (ctlNote_wf h))))
theorem ctlTake_wf {run : State → State} (h : StoresWf s) (hrun : ∀ x0, StoresWf x0 → StoresWf (run x0)) : StoresWf (ctlTake s k f run) :=
  ctlTakeIf_wf h (fun _ h => hrun _ h)
theorem handleFrame_wf {run : HxFrame → State → State} (h : StoresWf s) (hrun : ∀ x0 x1, StoresWf x1 → StoresWf (run x0 x1)) : StoresWf
    (handleFrame s k f run) := by
  unfold handleFrame
  split
  · exact countHxp_wf h
  · exact ite_wf (noteTime_wf (hrun _ _ (setUp_wf h))) (hrun _ _ (noteTime_wf (setUp_wf h)))
theorem hxpTake_wf {run : Nat → HxFrame → State → State} (hrun : ∀ x0 x1 x2, StoresWf x2 → StoresWf (run x0 x1 x2)) (h : StoresWf s) : OutWf
    (hxpTake die eng typ run s) :=
  unitDo_wf h (by
    split
    · exact ite_wf (strmSettle_wf (handleFrame_wf (modEng_wf h) (fun _ _ h1 => hrun _ _ _ h1))) h
    · exact h)
theorem onSession_wf {run : Nat → State → State} (hrun : ∀ x0 x1, StoresWf x1 → StoresWf (run x0 x1)) (h : StoresWf s) : StoresWf
    (onSession f run s) := by
  unfold onSession
  split
  · exact hrun _ _ h
  · exact h
theorem hxpOn_wf {run : Nat → HxFrame → Nat → State → State} (hr : ∀ k f n t, StoresWf t → StoresWf (run k f n t)) (h : StoresWf s) : OutWf
    (hxpTake die eng typ (fun k f => onSession f (run k f)) s) :=
  hxpTake_wf (fun k f _ ht => onSession_wf (hr k f) ht) h
theorem execData_wf (h : StoresWf s) : OutWf (execData die eng s) := hxpOn_wf (fun _ _ _ _ ht => takeData_wf ht) h
theorem execAck_wf (h : StoresWf s) : OutWf (execAck die eng s) := hxpOn_wf (fun _ _ _ _ ht => ctlTakeIf_wf ht fun _ hu => takeAck_wf hu) h
theorem execNak_wf (h : StoresWf s) : OutWf (execNak die eng s) := hxpOn_wf (fun _ _ _ _ ht => ctlTakeIf_wf ht fun _ hu => takeNak_wf hu) h
theorem execOpen_wf (h : StoresWf s) : OutWf (execOpen die eng s) := hxpTake_wf (by
    intro _ _ _ h
    split
    · exact ctlTake_wf h (fun _ h2 => takeSessOpen_wf h2)
    · exact takeAssocOpen_wf h) h
theorem execOpenAck_wf (h : StoresWf s) : OutWf (execOpenAck die eng s) := hxpTake_wf (by
    intro _ _ _ h
    split
    · exact ctlTake_wf h (fun _ h2 => takeSessAck_wf h2)
    · exact takeAssocAck_wf h) h
theorem execClose_wf (h : StoresWf s) : OutWf (execClose die eng s) := hxpOn_wf (fun _ _ _ _ ht => ctlTake_wf ht fun _ hu => takeClose_wf hu) h
theorem execCloseAck_wf (h : StoresWf s) : OutWf (execCloseAck die eng s) :=
  hxpOn_wf (fun _ _ _ _ ht => ctlTake_wf ht fun _ hu => takeCloseAck_wf hu) h
theorem execReset_wf (h : StoresWf s) : OutWf (execReset die eng s) := hxpOn_wf (fun _ _ _ _ ht => ctlTake_wf ht fun _ hu => takeReset_wf hu) h
theorem execLease_wf (h : StoresWf s) : OutWf (execLease die eng s) := hxpTake_wf (fun _ _ _ h => ctlTake_wf h (fun _ h1 => takeLease_wf h1)) h
theorem execLeaseAck_wf (h : StoresWf s) : OutWf (execLeaseAck die eng s) :=
  hxpTake_wf (fun _ _ _ h => ctlTake_wf h (fun _ h1 => takeLeaseAck_wf h1)) h
theorem execProbe_wf (h : StoresWf s) : OutWf (execProbe die eng s) := hxpTake_wf (fun _ _ _ h => ctlTake_wf h (fun _ h1 => h1)) h
theorem sessDo_wf (hs : StoresWf s) (ht : StoresWf t) : OutWf (sessDo s n t) := unitDo_wf hs ht
theorem assocDo_wf (hs : StoresWf s) (ht : StoresWf t) : OutWf (assocDo s i t) := unitDo_wf hs ht
theorem openResend_wf {a1 : HxpTarget} (h : StoresWf s) : StoresWf (openResend s a1) := by
  unfold openResend
  split
  · exact ite_wf (sendAssocOpen_wf h) h
  · exact ite_wf h (ite_wf (sendSessOpen_wf (modSess_wf h)) (evRaise_kept wf_kept (modSess_wf (setSt_wf h))))
theorem execOpenResend_wf {target : HxpTarget} (h : StoresWf s) : OutWf (execOpenResend target s) := by
  unfold execOpenResend
  split
  · exact assocDo_wf h (openResend_wf h)
  · exact sessDo_wf h (openResend_wf h)
theorem execClosingTimeout_wf (h : StoresWf s) : OutWf (execClosingTimeout session s) := sessDo_wf h (ite_wf (closeSession_wf h) h)
theorem execAckTimer_wf (h : StoresWf s) : OutWf (execAckTimer session s) := sessDo_wf h (ite_wf (sendAck_wf h) h)
theorem execNakTimer_wf (h : StoresWf s) : OutWf (execNakTimer session s) := sessDo_wf h (by
    refine ite_wf ?_ ?_
    · split
      · exact sendAckNak_wf h
      · exact h
    · exact h)
theorem retxTimeout_wf (h : StoresWf s) : StoresWf (retxTimeout s n) :=
  ite_wf h (ite_wf (closeSession_wf (sendSessBoth_wf (modSess_wf h))) (foldl_wf (fun _ _ h => resendSeg_wf h) (modSess_wf h)))
theorem execRetransmitTimeout_wf (h : StoresWf s) : OutWf (execRetransmitTimeout session s) := sessDo_wf h (ite_wf (retxTimeout_wf h) h)
theorem execShroudDown_wf {shroudB : Bool} (h : StoresWf s) : OutWf (execShroudDown assoc shroudB s) := assocDo_wf h (setUp_wf h)
theorem execProbeTimer_wf {shroudB : Bool} (h : StoresWf s) : OutWf (execProbeTimer assoc shroudB s) := assocDo_wf h (ite_wf (sendAssocOn_wf h) h)
theorem execLeaseRenewal_wf (h : StoresWf s) : OutWf (execLeaseRenewal assoc s) := assocDo_wf h (by
    refine ite_wf ?_ ?_
    · exact h
    · split
      · exact sendLease_wf (modAssoc_wf h)
      · exact sendLease_wf h
      · exact h)
theorem execLeaseEnd_wf (h : StoresWf s) : OutWf (execLeaseEnd assoc s) := assocDo_wf h (by
    split
    · exact setLease_wf h
    · exact modAssoc_wf (setLease_wf h)
    · exact h)
theorem execLeaseLapsedReclaim_wf (h : StoresWf s) : OutWf (execLeaseLapsedReclaim assoc s) :=
  assocDo_wf h (ite_wf (evRaise_kept wf_kept (claim_wf h)) h)
theorem execFailback_wf (h : StoresWf s) : OutWf (execFailback assoc s) := assocDo_wf h (ite_wf (sendLease_wf (modAssoc_wf (setLease_wf h))) h)
theorem cmdAssoc_wf (h : StoresWf s) : StoresWf (cmdAssoc s i) := ite_wf (startAssoc_wf h) h
theorem cmdOpen_wf (h : StoresWf s) : StoresWf (cmdOpen s n) :=
  ite_wf h (ite_wf (ite_wf (startSession_wf (modSess_wf (setSt_wf h))) (cmdAssoc_wf (modSess_wf (setSt_wf h)))) (setSt_wf h))
theorem cmdClose_wf (h : StoresWf s) : StoresWf (cmdClose s n) := ite_wf (tryClose_wf (setSt_wf h)) h
theorem scmd_wf {index : Nat} (h : StoresWf s) : StoresWf (scmd s d cmd index) := setReg_kept wf_kept h
theorem hxpReg_wf {w : Nat} (hs : StoresWf s) (ht : StoresWf t) : OutWf (hxpReg s d w t) := regDo_wf hs ht
theorem scmdEvent_wf {index : Nat} (h : StoresWf s) : StoresWf (scmdEvent s d cmd index) := ite_wf (evPush_wf h) (ite_wf (evPush_wf h) h)
theorem scmdGo_wf {index : Nat} (h : StoresWf s) : StoresWf (scmdGo s d cmd index) := startCmd_wf h (fun _ h => scmd_wf h) (by
    intro _ h
    extract_lets +onlyGivenNames s'
    split
    · exact cmdOpen_wf (scmdEvent_wf (scmd_wf h))
    · exact cmdClose_wf (scmdEvent_wf (scmd_wf h))
    · exact cmdAssoc_wf (scmdEvent_wf (scmd_wf h))
    · exact scmdEvent_wf (scmd_wf h))
theorem execHxpOpenSession_wf (h : StoresWf s) : OutWf (execHxpOpenSession die session s) := hxpReg_wf h (scmdGo_wf h)
theorem execHxpCloseSession_wf (h : StoresWf s) : OutWf (execHxpCloseSession die session s) := hxpReg_wf h (scmdGo_wf h)
theorem execHxpOpenAssociation_wf (h : StoresWf s) : OutWf (execHxpOpenAssociation die assoc s) := hxpReg_wf h (scmdGo_wf h)
theorem rawTx_wf {len : Nat} (h : StoresWf s) : StoresWf (rawTx s d len sub) :=
  ite_wf (reject_wf h) (ite_wf (countHxp_wf h) (ite_wf (strmSettle_wf (modDie_wf (unitRead_kept wf_kept h))) h))
theorem execHxpRawtx_wf {len : BitVec 14} {sub : Fin 4} (h : StoresWf s) : OutWf (execHxpRawtx die len sub s) :=
  hxpReg_wf h (rawTx_wf (setReg_kept wf_kept h))

end Sys2Proof.Machine
end

section
/-! SUPPORT. The journal, exchanges and take-over keep the stores (log entry 2). -/

namespace Sys2Proof.Machine

variable {s : State} {d die eng i k n : Nat} {r : JRec} {f : Flit} {err : BitVec 160} {index : BitVec 24} {os : List Redrive}

theorem controlPut_wf (h : StoresWf s) : StoresWf (controlPut s d) := modChan_wf h
theorem slotPut_wf (h : StoresWf s) : StoresWf (slotPut s d r) := modChan_wf h
theorem putRec_wf (h : StoresWf s) : StoresWf (putRec s d r) := ite_wf (slotPut_wf (modChan_wf h)) (modChan_wf h)
theorem putDurable_wf (h : StoresWf s) : StoresWf (putDurable s d r) :=
  ite_wf (foldl_wf (fun _ _ h => ite_wf (putRec_wf h) h) (putRec_wf h)) (putRec_wf h)
theorem freeEnt_wf (h : StoresWf s) : StoresWf (freeEnt n s i) := by
  induction n generalizing s with
  | zero => exact h
  | succ _ ih => exact ih (setEnt_wf (takeFree_kept wf_kept h))
theorem openEntry_wf (h : StoresWf s) : StoresWf (openEntry s i) := ite_wf (closeWith_wf h) (ite_wf (serveLast_wf h) (inject_wf h))
theorem writeEntry_wf {r : IssueReq} {st : Nat} {xnum : Word} (h : StoresWf s) : StoresWf (writeEntry s r i st xnum) :=
  freeEnt_wf (foldl_wf (fun _ _ h => setEnt_wf h) h)
theorem acceptIssue_wf {r : IssueReq} (h : StoresWf s) : StoresWf (acceptIssue s r) := by
  unfold acceptIssue
  extract_lets +onlyGivenNames d
  split
  next t ht => exact snd_wf (pickIndex_wf h) ht
  next i t ht =>
    extract_lets +onlyGivenNames xnum psrc t u
    have hu : StoresWf u := ite_wf (pctAdd_wf (pctAdd_wf (snd_wf (pickIndex_wf h) ht))) (pctAdd_wf (snd_wf (pickIndex_wf h) ht))
    clear_value u
    extract_lets +onlyGivenNames v w init x
    have hx : StoresWf x := writeEntry_wf (modWork_wf (ldgTake_wf (modChan_wf hu)))
    exact ite_wf (jAppend_wf (jMark_wf (modChan_wf hx))) (openEntry_wf hx)
theorem refuseIssue_wf {r : IssueReq} {reason : Nat} (h : StoresWf s) : StoresWf (refuseIssue s r reason) := by
  unfold refuseIssue
  extract_lets +onlyGivenNames a s'
  split
  · exact refuse_wf (ite_wf (hwPoison_kept wf_kept h) h)
  · exact refuse_wf (takeFree_kept wf_kept (takeFree_kept wf_kept (ite_wf (hwPoison_kept wf_kept h) h)))
theorem takeHandoff_wf (h : StoresWf s) : StoresWf (takeHandoff s k f) := ite_wf (serveLast_wf h) h
theorem noteOpen_wf {part : Nat} (h : StoresWf s) : StoresWf (noteOpen s part) := modHw_kept wf_kept h
theorem readGrants_wf {p : Nat} (h : StoresWf s) : StoresWf (readGrants s d p) :=
  foldl_wf (fun _ _ h => of_snd (P := StoresWf) (readClean_kept wf_kept h)) h
theorem issueReads_wf {r : IssueReq} (h : StoresWf s) : StoresWf (issueReads s r) := by
  unfold issueReads
  extract_lets t u v
  have hu : StoresWf u := ite_wf (unitRead_kept wf_kept (unitRead_kept wf_kept h)) (unitRead_kept wf_kept h)
  have hv : StoresWf v := ite_wf (readGrants_wf hu) hu
  exact ite_wf (notePages_wf hv) hv
theorem intakeHead_wf (h : StoresWf s) : OptWf StoresWf (intakeHead s k) := by
  unfold intakeHead
  split
  · exact none_wf
  · refine ite_wf ?_ ?_
    · exact none_wf
    · refine ite_wf ?_ ?_
      · exact some_wf (takeHandoff_wf (modEng_wf h))
      · extract_lets +onlyGivenNames r next
        split
        · exact none_wf
        · exact some_wf (refuseIssue_wf (noteOpen_wf (issueReads_wf (modEng_wf h))))
        · exact some_wf (acceptIssue_wf (noteOpen_wf (issueReads_wf (modEng_wf h))))
theorem drainIntake_wf (h : StoresWf s) : StoresWf (drainIntake s k n) := by
  induction n generalizing s with
  | zero => exact h
  | succ n ih =>
    unfold drainIntake
    split
    · exact h
    next t ht => exact ih (intakeHead_wf h t ht)
theorem drain_wf (h : StoresWf s) : StoresWf (drain s k) := drainIntake_wf h
theorem spillIntake_wf (h : StoresWf s) : StoresWf (spillIntake s k f) := count_kept wf_kept (modEng_wf (stores_wf h))
theorem dropHandoff_wf (h : StoresWf s) : StoresWf (dropHandoff s k) := ite_wf (count_kept wf_kept h) (evPush_wf (modEng_wf (count_kept wf_kept h)))
theorem intakeTake_wf (h : StoresWf s) : StoresWf (intakeTake s k f) :=
  ite_wf (deferred_kept wf_kept h) (ite_wf (deferred_kept wf_kept (count_kept wf_kept h))
    (ite_wf (drain_wf (modEng_wf h)) (ite_wf (dropHandoff_wf h) (spillIntake_wf h))))
theorem engineReceive_wf {e : Nat} {hand : Bool} (h : StoresWf s) : StoresWf (engineReceive s d e hand err) := by
  unfold engineReceive
  split
  · exact h
  · exact ite_wf h (elim_of_wf (recvFlit_wf (ite_wf (upd_wf rfl rfl h) (modDie_wf h)))
      (fun _ => intakeTake_wf (recvFlit_wf (ite_wf (upd_wf rfl rfl h) (modDie_wf h)))))
theorem execExchangeIssue_wf (h : StoresWf s) : OutWf (execExchangeIssue die eng err s) := unitDo_wf h (engineReceive_wf h)
theorem execHandoff_wf (h : StoresWf s) : OutWf (execHandoff die eng err s) := unitDo_wf h (engineReceive_wf h)
theorem unspill_wf {k0 : Nat} (h : StoresWf s) : StoresWf (unspill s k0 k n) := by
  induction n generalizing s with
  | zero => exact h
  | succ n ih =>
    unfold unspill
    refine ite_wf ?_ h
    extract_lets a f r t
    have hr : StoresWf r.2 := of_snd (readClean_kept wf_kept h)
    have ht : StoresWf t := modEng_wf (store_kept wf_kept hr)
    exact ih (ite_wf (modEng_wf ht) ht)
theorem execIntakeSpillMove_wf (h : StoresWf s) : OutWf (execIntakeSpillMove die eng s) := unitDo_wf h (drain_wf (unspill_wf h))
theorem rescanTaken_wf (h : StoresWf s) : StoresWf (rescanTaken s k) := by
  unfold rescanTaken
  split
  · exact modEng_wf (modEng_wf h)
  · exact h
theorem rescanEngine_wf (h : StoresWf s) : StoresWf (rescanEngine s k) := ite_wf (foldl_wf (fun _ _ h => serveLast_wf h) (rescanTaken_wf h)) h
theorem execRescan_wf (h : StoresWf s) : OutWf (execRescan die eng s) := unitDo_wf h (rescanEngine_wf h)
theorem recDurable_wf {top : Nat} (h : StoresWf s) : StoresWf (recDurable s d top r) := by
  refine ite_wf ?_ ?_
  · exact modChan_wf (by
    split
    · exact evPush_wf h
    · exact h)
  · refine ite_wf ?_ ?_
    · split
      · exact evPush_wf h
      · exact h
    · refine ite_wf ?_ ?_
      · exact ite_wf (openEntry_wf (setEntF_wf (setEnt_wf (setEntF_wf (by
    split
    · exact evPush_wf h
    · exact h))))) (setEntF_wf (by
    split
    · exact evPush_wf h
    · exact h))
      · refine ite_wf ?_ ?_
        · exact modWork_wf (by
    split
    · exact evPush_wf h
    · exact h)
        · split
          · exact evPush_wf h
          · exact h
theorem drainDie_wf (h : StoresWf s) : StoresWf (drainDie s d) := foldl_wf (fun _ _ h => ite_wf (drain_wf h) h) h
theorem padBlock_wf {seq : Nat} (h : StoresWf s) : StoresWf (padBlock s d seq) := ite_wf (foldl_wf (fun _ _ h => jPut_wf h) h) h
theorem journalDurable_wf {seq : Nat} (h : StoresWf s) : StoresWf (journalDurable s d seq) := by
  unfold journalDurable
  extract_lets +onlyGivenNames stop t l u v w x
  have hv : StoresWf v := modChan_wf (foldl_wf (fun _ _ h => slotPut_wf h) (padBlock_wf h))
  have hx : StoresWf x := relog_wf (advanceHead_wf (foldl_wf (fun _ _ h => recDurable_wf h) hv))
  exact ite_wf (drainDie_wf hx) hx
theorem execJournalDurable_wf {seq : BitVec 56} (h : StoresWf s) : OutWf (execJournalDurable die seq s) := unitDo_wf h (journalDurable_wf h)
theorem execJournalWriteFail_wf (h : StoresWf s) : OutWf (execJournalWriteFail s) := next_wf (ite_wf h (ldevLeaves_wf h))
theorem controlRewrite_wf (h : StoresWf s) : StoresWf (controlRewrite s d) := ite_wf (controlPut_wf h) h
theorem execJournalControlRewrite_wf (h : StoresWf s) : OutWf (execJournalControlRewrite die s) := unitDo_wf h (controlRewrite_wf h)
theorem numBlock_wf {flashOk : Bool} (h : StoresWf s) : StoresWf (numBlock s d flashOk) :=
  ite_wf h (ite_wf (jAppend_wf h) (ite_wf (ite_wf (drainDie_wf (modChan_wf (ageAppend_wf h))) (deferred_kept wf_kept h)) (drainDie_wf h)))
theorem execNumblk_wf {flashOk : Bool} (h : StoresWf s) : OutWf (execNumblk die flashOk s) := unitDo_wf h (numBlock_wf h)
theorem queueWait_wf (h : StoresWf s) : StoresWf (queueWait s k i) := ite_wf (count_kept wf_kept (modEng_wf h)) h
theorem issueNote_wf (h : StoresWf s) : StoresWf (issueNote s d i) := by
  unfold issueNote
  extract_lets +onlyGivenNames c len t u
  have ht : StoresWf t := ite_wf (noteSide_wf h) h
  have hu : StoresWf u := ite_wf (noteSide_wf ht) ht
  exact ite_wf hu (unitNote_wf hu)
theorem nvStart_wf (h : StoresWf s) : StoresWf (nvStart s k i) := by
  unfold nvStart
  split
  · exact nvSubmit_wf h
  · exact h
theorem beginWork_wf (h : StoresWf s) : StoresWf (beginWork s k i) := by
  refine ite_wf ?_ ?_
  · exact ite_wf (nvStart_wf h) h
  · extract_lets +onlyGivenNames s'
    split
    · exact chainError_wf (ptFill_wf h)
    · exact ite_wf (nvStart_wf (ptFill_wf h)) (chainStart_wf (ptFill_wf h))
theorem readDesc_wf (h : StoresWf s) : SndWf (readDesc s d i) := snd_mk_wf (unitRead_kept wf_kept h)
theorem exchangeStart_wf (h : StoresWf s) : StoresWf (exchangeStart s k i) := by
  refine ite_wf ?_ ?_
  · exact ite_wf (nvStart_wf h) h
  · refine ite_wf ?_ ?_
    · exact h
    · refine ite_wf ?_ ?_
      · exact queueWait_wf h
      · refine ite_wf ?_ ?_
        · exact queueWait_wf h
        · extract_lets +onlyGivenNames r s' chain
          split
          · exact closeWith_wf (modWork_wf (ite_wf (issueNote_wf (readDesc_wf h)) (readDesc_wf h)))
          · exact beginWork_wf (modWork_wf (setEnt_wf (setEntF_wf (ite_wf (issueNote_wf (readDesc_wf h)) (readDesc_wf h)))))
theorem execExchangeStart_wf (h : StoresWf s) : OutWf (execExchangeStart die eng index s) :=
  unitDo_wf h (onEntry_wf h (fun _ h => exchangeStart_wf h))
theorem moveWords_wf (h : StoresWf s) : StoresWf (moveWords s d i) := by
  unfold moveWords
  extract_lets +onlyGivenNames c len
  split
  · exact closeWith_wf (cameTo_wf h)
  · exact closeWith_wf h
  · exact closeOk_wf (setXlen_wf (fillBufs_wf (readSource_wf h)))
theorem transferDone_wf (h : StoresWf s) : StoresWf (transferDone s k i) := ite_wf h (ite_wf (ite_wf (closeOk_wf h) h) (ite_wf (moveWords_wf h) h))
theorem execTransferDone_wf (h : StoresWf s) : OutWf (execTransferDone die eng index s) := unitDo_wf h (onEntry_wf h (fun _ h => transferDone_wf h))
theorem lostXlen_wf (h : StoresWf s) : StoresWf (lostXlen s i) := ite_wf (setXlen_wf (takeFree_kept wf_kept h)) h
theorem spoilCount_wf {cap : Nat} (h : StoresWf s) : SndWf (spoilCount s i cap) :=
  ite_wf (snd_mk_wf h) (ite_wf (snd_mk_wf h) (snd_mk_wf (takeFree_kept wf_kept h)))
theorem spoilDest_wf (h : StoresWf s) : StoresWf (spoilDest s i) := by
  refine ite_wf ?_ ?_
  · exact h
  · refine ite_wf ?_ ?_
    · exact lostXlen_wf h
    · extract_lets +onlyGivenNames c
      split
      · exact lostXlen_wf h
      · exact ite_wf (setXlen_wf (fillOvf_wf (fillBufs_wf (freeWords_wf (spoilCount_wf (lostXlen_wf h))))))
          (fillOvf_wf (fillBufs_wf (freeWords_wf (spoilCount_wf (lostXlen_wf h)))))
theorem failedResult_wf (h : StoresWf s) : StoresWf (failedResult s i) := ite_wf (resWritten_wf (failResult_wf h)) h
theorem terminalWrite_wf (h : StoresWf s) : StoresWf (terminalWrite s i) :=
  ite_wf (modWork_wf (nvDrop_wf (unserve_wf (ite_wf (sndClear_wf (termDecide_wf (failedResult_wf (spoilDest_wf h))))
    (termDecide_wf (failedResult_wf (spoilDest_wf h))))))) h
theorem execTerminalStateWrite_wf (h : StoresWf s) : OutWf (execTerminalStateWrite die index s) :=
  unitDo_wf h (onEntry_wf h (fun _ h => terminalWrite_wf h))
theorem ledgerRetire_wf (h : StoresWf s) : StoresWf (ledgerRetire s d i) := ite_wf (retire_wf h) h
theorem execLedgerRetire_wf (h : StoresWf s) : OutWf (execLedgerRetire die index s) := unitDo_wf h (onEntry_wf h (fun _ h => ledgerRetire_wf h))
theorem recordRetry_wf (h : StoresWf s) : StoresWf (recordRetry s d k) := by
  unfold recordRetry
  split
  · exact h
  · refine ite_wf ?_ ?_
    · exact crTake_wf h
    · extract_lets +onlyGivenNames s'
      split
      · exact setEntF_wf (modChan_wf (crTake_wf h))
      · exact drain_wf (modEng_wf (modChan_wf (crTake_wf h)))
theorem execCompletionRecordRetry_wf {held : Nat} (h : StoresWf s) : OutWf (execCompletionRecordRetry die held s) := unitDo_wf h (recordRetry_wf h)
theorem serveAgain_wf (h : StoresWf s) : StoresWf (serveAgain s k i) := ite_wf (modEng_wf h) (serveLast_wf h)
theorem restart_wf (h : StoresWf s) : StoresWf (restart s k i) :=
  ite_wf (closeWith_wf (setEntF_wf (dropChain_wf (nvDrop_wf h)))) (serveAgain_wf
    (setEnt_wf (setEntF_wf (modWork_wf (setEntF_wf (dropChain_wf (nvDrop_wf h)))))))
theorem setOwner_wf (h : StoresWf s) : StoresWf (setOwner s i k) := setEntF_wf (setEntF_wf h)
theorem takeEntry_wf (h : StoresWf s) : StoresWf (takeEntry s k i) := by
  refine ite_wf ?_ ?_
  · split
    · exact ite_wf (jAppend_wf (ite_wf (xlateNote_wf (setOwner_wf h)) (setOwner_wf h))) (setOwner_wf h)
    · exact setOwner_wf h
  · exact ite_wf (ite_wf (setOwner_wf h) (serveLast_wf (setOwner_wf h))) (ite_wf (ite_wf (setOwner_wf h) (restart_wf (setOwner_wf h)))
      (ite_wf (restart_wf (setOwner_wf h)) (ite_wf (terminalWrite_wf (setOwner_wf h)) (setOwner_wf h))))
theorem remap_wf {e e' : Nat} (h : StoresWf s) : StoresWf (remap s d e e') := foldl_wf (fun _ _ h => ite_wf (setF_kept wf_kept h) h) h
theorem loseDie_wf (h : StoresWf s) : StoresWf (loseDie s d) := foldl_wf (fun _ _ h => ite_wf (closeWith_wf (dropChain_wf h)) h) h
theorem adopt_wf {f : Nat} (h : StoresWf s) : StoresWf (adopt s f k) := modEng_wf (modEng_wf h)
theorem takeOver_wf {f : Nat} (h : StoresWf s) : StoresWf (takeOver s f) :=
  ite_wf h (ite_wf (loseDie_wf (modEng_wf h)) (drain_wf (evPush_wf (evRaise_kept wf_kept
    (foldl_wf (fun _ _ h => takeEntry_wf h) (adopt_wf (remap_wf h)))))))
theorem execTakeover_wf (h : StoresWf s) : OutWf (execTakeover die eng s) := unitDo_wf h (takeOver_wf h)
theorem engineOut_wf {det : Nat} {inj : Bool} (h : StoresWf s) : StoresWf (engineOut s k det inj) := report_kept wf_kept (modEng_wf h)
theorem watchdog_wf (h : StoresWf s) : StoresWf (watchdog s die eng) := by
  unfold watchdog
  split
  · exact engineOut_wf h
  · exact engineOut_wf (injUse_kept wf_kept h)
theorem execEngineWatchdog_wf (h : StoresWf s) : OutWf (execEngineWatchdog die eng s) := unitDo_wf h (watchdog_wf h)
theorem execPfailJournalStop_wf (h : StoresWf s) : OutWf (execPfailJournalStop s) :=
  next_wf (foldl_wf (fun _ _ h => ite_wf (modChan_wf (takeFree_kept wf_kept h)) h) h)
theorem execPfailGpfStart_wf (h : StoresWf s) : OutWf (execPfailGpfStart s) := next_wf (ite_wf (give_kept wf_kept h) h)
theorem redrive_wf {o : Redrive} (h : StoresWf s) : FstWf (redrive s d r o) := fst_mk_wf (putDurable_wf (give_kept wf_kept (takeFree_kept wf_kept h)))
theorem replayDie_wf {terms l : List JRec} (h : StoresWf s) : OptWf FstWf (replayDie d terms l s os) := by
  induction l generalizing s os with
  | nil => exact some_wf h
  | cons r l ih =>
    unfold replayDie
    split
    · exact map_wf (fun _ hx => hx) (ih h)
    · refine ite_wf ?_ (map_wf (fun _ hx => hx) (ih h))
      split
      · exact none_wf
      · exact map_wf (fun _ hx => hx) (ih (redrive_wf h))
theorem replayAll_wf {l : List Nat} (h : StoresWf s) : OptWf FstWf (replayAll l s os) := by
  induction l generalizing s os with
  | nil => exact some_wf h
  | cons d l ih =>
    unfold replayAll
    dsimp only
    split
    · exact none_wf
    next t es os' ht => exact map_wf (fun _ hx => hx) (ih (replayDie_wf (modChan_wf h) _ ht))
theorem journalReplay_wf (h : StoresWf s) : OptWf StoresWf (journalReplay s os) :=
  map_wf (fun _ h => evRaise_kept wf_kept (setReg_kept wf_kept (stores_wf h))) (replayAll_wf h)
theorem idrAck_wf (h : StoresWf s) : StoresWf (idrAck s) :=
  foldl_wf (fun _ _ h => ite_wf (ite_wf (controlPut_wf (jMark_wf (modChan_wf (ite_wf (jPut_wf h) (putDurable_wf h)))))
    (jMark_wf (modChan_wf (ite_wf (jPut_wf h) (putDurable_wf h))))) h) (setF_kept wf_kept h)
theorem execIdrAck_wf (h : StoresWf s) : OutWf (execIdrAck s) := regDo_wf h (idrAck_wf h)

end Sys2Proof.Machine
end

section
/-! SUPPORT. Transforms, microwords, inbound work and partitions keep the stores (log entry 2). -/

namespace Sys2Proof.Machine

variable {s : State} {c cmd d die e eng i k p part : Nat} {dst src : BitVec 12} {w : UWord} {ctx : Fin 16} {out pat : Bool}

theorem modJob_wf {f : ChainJob → ChainJob} (h : StoresWf s) : StoresWf (modJob s d i f) := modXf_kept wf_kept h
theorem chainFail_wf {stage code : Nat} (h : StoresWf s) : StoresWf (chainFail s d i stage code) :=
  ite_wf (chainError_wf (dropChain_wf (ite_wf (cameTo_wf h) h))) (dropChain_wf (ite_wf (cameTo_wf h) h))
theorem cacheKey_wf (h : StoresWf s) : StoresWf (cacheKey s d e k) := modXf_kept wf_kept h
theorem visit_wf {l : List Nat} (h : StoresWf s) : FstWf (visit s d l) := by
  induction l generalizing s with
  | nil => exact h
  | cons p l ih =>
    unfold visit
    split
    · exact ih h
    · exact ite_wf (P := FstWf) (modXf_kept wf_kept (modXf_kept wf_kept (ptFill_wf h))) (ih (modXf_kept wf_kept (ptFill_wf h)))
theorem rounds_wf {n : Nat} (h : StoresWf s) : FstWf (rounds s d n) := by
  induction n generalizing s with
  | zero => exact h
  | succ n ih =>
    unfold rounds
    split
    next t i ht => exact fst_wf (visit_wf h) ht
    next t ht => exact ih (modXf_kept wf_kept (modXf_kept wf_kept (fst_wf (visit_wf h) ht)))
theorem chooseTurn_wf (h : StoresWf s) : FstWf (chooseTurn s d) := by
  unfold chooseTurn
  extract_lets +onlyGivenNames x
  split
  · exact h
  · extract_lets +onlyGivenNames more
    clear_value more
    split
    · exact h
    · exact rounds_wf (modXf_kept wf_kept h)
theorem restoreState_wf {v : Option (Nat × Nat) × List (Nat × Nat)} (h : StoresWf s) : StoresWf (restoreState s d v) :=
  foldl_wf (fun _ _ h => unitRead_kept wf_kept h) (elim_of_wf h (fun _ => unitRead_kept wf_kept h))
theorem startTurn_wf {j : ChainJob} {fe : Option Nat} {ws : List Nat} (h : StoresWf s) : StoresWf (startTurn s d j fe ws) := by
  unfold startTurn
  extract_lets n t u v w x
  have ht : StoresWf t := foldl_wf (fun _ _ h => cacheKey_wf h) h
  have hw : StoresWf w := modXf_kept wf_kept (modJob_wf (elim_of_wf ht (fun _ => restoreState_wf ht)))
  have hx : StoresWf x := ite_wf (count_kept wf_kept hw) hw
  exact ite_wf hx (count_kept wf_kept hx)
theorem noEngine_wf (h : StoresWf s) : StoresWf (noEngine s d) := foldl_wf (fun _ _ h => chainFail_wf h) h
theorem turnStart_wf (h : StoresWf s) : StoresWf (turnStart s d) := by
  unfold turnStart
  extract_lets +onlyGivenNames s' r
  split
  · exact chooseTurn_wf (noEngine_wf h)
  · extract_lets +onlyGivenNames s'
    split
    · exact modXf_kept wf_kept (modXf_kept wf_kept (chooseTurn_wf (noEngine_wf h)))
    · split
      · exact modXf_kept wf_kept (chainFail_wf (modXf_kept wf_kept (chooseTurn_wf (noEngine_wf h))))
      · split
        · exact modXf_kept wf_kept (chooseTurn_wf (noEngine_wf h))
        · exact ite_wf (startTurn_wf (modXf_kept wf_kept (chooseTurn_wf (noEngine_wf h)))) (modXf_kept wf_kept (chooseTurn_wf (noEngine_wf h)))
theorem execTransformTurnStart_wf (h : StoresWf s) : OutWf (execTransformTurnStart die s) := unitDo_wf h (turnStart_wf h)
theorem saveState_wf {v : Option (Nat × Nat) × List (Nat × Nat)} (h : StoresWf s) : StoresWf (saveState s d v) :=
  foldl_wf (fun _ _ h => stores_wf (freeWords_wf h)) (elim_of_wf h (fun _ => stores_wf (freeWords_wf h)))
theorem chainEnd_wf {inp : List Word} (h : StoresWf s) : StoresWf (chainEnd s d i inp) :=
  ite_wf (nvStart_wf (chainFinish_wf (dropChain_wf h))) (chainFinish_wf (dropChain_wf h))
theorem turnDone_wf {j : ChainJob} {fe : Option Nat} {ws : List Nat} (h : StoresWf s) : StoresWf (turnDone s d j fe ws) := by
  refine ite_wf (chainEnd_wf h) ?_
  extract_lets +onlyGivenNames y x
  split
  · exact saveState_wf (modXf_kept wf_kept h)
  · exact startTurn_wf (modXf_kept wf_kept h)
theorem turnEnd_wf (h : StoresWf s) : StoresWf (turnEnd s d i) := by
  unfold turnEnd
  split
  · exact h
  · split
    · exact h
    · refine ite_wf ?_ ?_
      · exact dropChain_wf h
      · split
        · exact closeWith_wf (cameTo_wf (dropChain_wf h))
        · exact turnDone_wf (turnReads_wf h)
theorem execTurnEnd_wf {index : BitVec 24} (h : StoresWf s) : OutWf (execTurnEnd die index s) := unitDo_wf h (turnEnd_wf h)
theorem keyFetch_wf (h : StoresWf s) : StoresWf (keyFetch s d e k) := ite_wf (cacheKey_wf (count_kept wf_kept h)) h
theorem execKeyCacheFetch_wf {woad : Fin 2} {slot : BitVec 12} (h : StoresWf s) : OutWf (execKeyCacheFetch die woad slot s) :=
  unitDo_wf h (keyFetch_wf h)
theorem xformOut_wf {woad : Bool} (h : StoresWf s) : StoresWf (xformOut s d woad e) := noEngine_wf (evRaise_kept wf_kept (modXf_kept wf_kept h))
theorem execXformEngineLoss_wf {woad : Bool} {eng : Fin 2} (h : StoresWf s) : OutWf (execXformEngineLoss die woad eng s) :=
  unitDo_wf h (xformOut_wf (report_kept wf_kept h))
theorem setSlot_wf {v : Option KeySlot} (h : StoresWf s) : StoresWf (setSlot s k v) := h
theorem forgetKey_wf (h : StoresWf s) : StoresWf (forgetKey s k) :=
  foldl_wf (fun _ _ h => foldl_wf (fun _ _ h1 => chainFail_wf h1) (modXf_kept wf_kept h)) h
theorem kvEffect_wf {src dst : Nat} (h : StoresWf s) : ExcWf (kvEffect s cmd src dst) := by
  unfold kvEffect
  extract_lets dest from'
  clear_value dest from'
  split
  · exact ite_wf error_wf (ok_wf (setSlot_wf (of_snd (freeWords_wf h))))
  · split
    · refine ite_wf error_wf ?_
      split
      · exact error_wf
      · split
        · exact error_wf
        · exact ok_wf (setSlot_wf h)
    · exact error_wf
  · split
    · refine ite_wf error_wf ?_
      split
      · exact error_wf
      · exact ok_wf (setSlot_wf h)
    · exact error_wf
  · split
    · exact error_wf
    · exact ok_wf (forgetKey_wf (setSlot_wf h))
  · exact ok_wf (forgetKey_wf (setSlot_wf h))
  · exact ok_wf h
theorem kvRead_wf (h : StoresWf s) : StoresWf (kvRead s cmd) := ite_wf (unitRead_kept wf_kept h) (ite_wf (unitRead_kept wf_kept h) h)
theorem kvRun_wf {src dst : Nat} (h : StoresWf s) : StoresWf (kvRun s cmd src dst) := by
  refine ite_wf ?_ ?_
  · exact setReg_kept wf_kept h
  · extract_lets +onlyGivenNames s'
    split
    · exact evRaise_kept wf_kept (setReg_kept wf_kept (kvRead_wf h))
    next t ht => exact evRaise_kept wf_kept (setReg_kept wf_kept (of_ok (kvEffect_wf (kvRead_wf h)) ht))
theorem kvCommand_wf {src dst : Nat} (h : StoresWf s) : StoresWf (kvCommand s cmd src dst) :=
  startCmd_wf h (fun _ h => setReg_kept wf_kept h) (fun _ h => kvRun_wf h)
theorem kvDo_wf {src dst : Nat} (h : StoresWf s) : OutWf (kvDo s cmd src dst) := regDo_wf h (kvCommand_wf h)
theorem execKvGen_wf (h : StoresWf s) : OutWf (execKvGen src dst s) := kvDo_wf h
theorem execKvImport_wf (h : StoresWf s) : OutWf (execKvImport src dst s) := kvDo_wf h
theorem execKvDerive_wf (h : StoresWf s) : OutWf (execKvDerive src dst s) := kvDo_wf h
theorem execKvSetattr_wf (h : StoresWf s) : OutWf (execKvSetattr src dst s) := kvDo_wf h
theorem execKvZero_wf (h : StoresWf s) : OutWf (execKvZero src dst s) := kvDo_wf h
theorem pttCommand_wf (h : StoresWf s) : StoresWf (pttCommand s d p) :=
  startCmd_wf h (fun _ h => setF_kept wf_kept h) (fun _ h => ptInvalidate_wf (setF_kept wf_kept h))
theorem execFrlPttcmd_wf (h : StoresWf s) : OutWf (execFrlPttcmd die part s) := regDo_wf h (pttCommand_wf h)
theorem modCtx_wf {f : MCtx → MCtx} (h : StoresWf s) : StoresWf (modCtx s k c f) := modSeq_wf h
theorem startCtx_wf {kind : Nat} {v0 v1 : Word} (h : StoresWf s) : StoresWf (startCtx s k c kind v0 v1) := modCtx_wf h
theorem takeEvent_wf (h : StoresWf s) : StoresWf (takeEvent s k) := by
  unfold takeEvent
  split
  · exact h
  · extract_lets +onlyGivenNames e
    split
    · exact h
    · refine ite_wf ?_ ?_
      · split
        · exact h
        · exact startCtx_wf (modEng_wf h)
      · exact startCtx_wf (modEng_wf h)
    · exact startCtx_wf (modEng_wf h)
theorem execContextTakeEvent_wf (h : StoresWf s) : OutWf (execContextTakeEvent die eng s) := unitDo_wf h (strmSettle_wf (takeEvent_wf h))
theorem uDest_wf {n : Nat} {v : Word} (h : StoresWf s) : StoresWf (uDest s k c n v) :=
  ite_wf (modCtx_wf h) (ite_wf (modSeq_wf h) (ite_wf (modCtx_wf h) (ite_wf (modCtx_wf h) (ite_wf (modCtx_wf h) (ite_wf (modCtx_wf h) h)))))
theorem microTrap_wf {cause : Nat} {data : Word} (h : StoresWf s) : StoresWf (microTrap s k c cause data) :=
  ite_wf (report_kept wf_kept (modEng_wf h)) (count_kept wf_kept (modCtx_wf h))
theorem noteWaits_wf (h : StoresWf s) : StoresWf (noteWaits s k) := foldl_wf (fun _ _ h => ite_wf h (elim_of_wf h (fun _ => modSeq_wf h))) h
theorem setPend_wf {p : MPend} (h : StoresWf s) : StoresWf (setPend s k c p) := modCtx_wf h
theorem uMem_wf (h : StoresWf s) : StoresWf (uMem s k c w) := by
  unfold uMem
  extract_lets +onlyGivenNames d av a b
  split
  · exact setPend_wf (unitRead_kept wf_kept h)
  · exact store_kept wf_kept h
  · split
    · exact setPend_wf (unitRead_kept wf_kept h)
    · exact h
  · split
    · exact store_kept wf_kept h
    · exact h
  · exact ite_wf (setPend_wf h) (setPend_wf (farAdd_wf h))
  · exact ite_wf (setPend_wf h) (ite_wf (setPend_wf (farAdd_wf h)) (setPend_wf h))
  · exact ledgerPort_wf h
  · exact ite_wf (setPend_wf (jAppend_wf h)) (setPend_wf (takeFree_kept wf_kept h))
  · split
    · exact give_kept wf_kept h
    · exact h
  · refine setPend_wf (of_snd (takeFree_kept wf_kept ?_))
    split
    · exact give_kept wf_kept h
    · exact h
  · exact h
theorem uIo_wf (h : StoresWf s) : StoresWf (uIo s k c w) := by
  unfold uIo
  extract_lets +onlyGivenNames a b
  split
  · exact modSeq_wf (give_kept wf_kept (unitRead_kept wf_kept h))
  · exact inject_wf h
  · exact modCtx_wf h
  · exact evRaise_kept wf_kept h
  · exact h
theorem setXid_wf (h : StoresWf s) : StoresWf (setXid s k c i) := modSeq_wf (modCtx_wf h)
theorem uNext_wf {cond : Nat} (h : StoresWf s) : StoresWf (uNext s k c w cond) := modCtx_wf h
theorem uCtl_wf (h : StoresWf s) : StoresWf (uCtl s k c w) := modSeq_wf (by
    extract_lets +onlyGivenNames s'
    split
    · exact ite_wf (modEng_wf (modCtx_wf (setXid_wf h))) (modCtx_wf (setXid_wf h))
    · exact ite_wf (modCtx_wf h) h
    · exact h)
theorem uRun_wf (h : StoresWf s) : StoresWf (uRun s k c w) := uCtl_wf (uNext_wf (by
    split
    · exact setXid_wf (ite_wf (uDest_wf (uDest_wf (uIo_wf (uMem_wf h)))) (uDest_wf (uIo_wf (uMem_wf h))))
    · exact ite_wf (uDest_wf (uDest_wf (uIo_wf (uMem_wf h)))) (uDest_wf (uIo_wf (uMem_wf h)))))
theorem storeRead_wf {nano : Bool} {a : Nat} {a5 : LineCheck} (h : StoresWf s) : FstWf (storeRead s k c nano a a5) := by
  unfold storeRead
  split
  · exact fst_mk_wf h
  · exact fst_mk_wf (report_kept wf_kept (count_kept wf_kept h))
  · exact fst_mk_wf (modSeq_wf h)
theorem uNote_wf (h : StoresWf s) : StoresWf (uNote s k c w) := ite_wf (xlateNote_wf h) h
theorem microStep_wf {micro nano : LineCheck} (h : StoresWf s) : StoresWf (microStep s k micro nano) := by
  refine elim_of_wf (noteWaits_wf h) fun c => ?_
  extract_lets +onlyGivenNames t w a
  have ha : StoresWf a.1 := storeRead_wf (modSeq_wf (noteWaits_wf h))
  refine ite_wf ha ?_
  extract_lets +onlyGivenNames b u
  have hb : StoresWf b.1 := storeRead_wf ha
  exact ite_wf hb (elim_of_wf (uRun_wf (uNote_wf hb)) fun _ => microTrap_wf (uNote_wf hb))
theorem execMicroword_wf {micro nano : LineCheck} (h : StoresWf s) : OutWf (execMicroword die eng micro nano s) := unitDo_wf h (microStep_wf h)
theorem longRun_wf (h : StoresWf s) : StoresWf (longRun s k) := ite_wf (microTrap_wf h) h
theorem execLongrun_wf (h : StoresWf s) : OutWf (execLongrun die eng s) := unitDo_wf h (longRun_wf h)
theorem readComplete_wf (h : StoresWf s) : StoresWf (readComplete s k c) := by
  unfold readComplete
  split
  · exact h
  · exact modCtx_wf h
  · exact ite_wf (modCtx_wf (takeFree_kept wf_kept h)) (modCtx_wf h)
theorem execMemoryReadComplete_wf (h : StoresWf s) : OutWf (execMemoryReadComplete die eng ctx s) := unitDo_wf h (readComplete_wf h)
theorem timerExpire_wf (h : StoresWf s) : StoresWf (timerExpire s k c) := by
  unfold timerExpire
  split
  · exact h
  · exact evPush_wf (modCtx_wf h)
theorem execContextTimerExpire_wf (h : StoresWf s) : OutWf (execContextTimerExpire die eng ctx s) := unitDo_wf h (timerExpire_wf h)
theorem streamComplete_wf {status : Word} (h : StoresWf s) : StoresWf (streamComplete s k c status) := by
  unfold streamComplete
  split
  · exact h
  · exact evPush_wf (modCtx_wf (modSeq_wf h))
theorem execStreamCommandComplete_wf {status : Word} (h : StoresWf s) : OutWf (execStreamCommandComplete die eng ctx status s) :=
  unitDo_wf h (streamComplete_wf h)
theorem storeRewrite_wf (h : StoresWf s) : StoresWf (storeRewrite s k) := by
  unfold storeRewrite
  split
  · exact h
  · exact ite_wf (engineOut_wf h) (report_kept wf_kept (count_kept wf_kept (upd_wf rfl rfl (foldl_wf (fun _ _ h1 => unitRead_kept wf_kept h1) h))))
theorem execStoreRewrite_wf (h : StoresWf s) : OutWf (execStoreRewrite die eng s) := unitDo_wf h (storeRewrite_wf h)
theorem setUstores_wf {u : UStores} (h : StoresWf s) : StoresWf { s with ustores := u } := h
theorem uload_wf (h : StoresWf s) : StoresWf (uload s pat) := by
  conv in uload => delta uload
  extract_lets +onlyGivenNames put
  have hput {t : State} {e : Nat} (ht : StoresWf t) : StoresWf (put t e) := setReg_kept wf_kept ht
  clear_value put
  split
  next e _ => exact setUstores_wf (hput h : StoresWf (put s e))
  · extract_lets +onlyGivenNames got t
    have ht : StoresWf t := foldl_wf (fun _ _ ha => setReg_kept wf_kept ha) h
    clear_value t got
    split
    · exact setUstores_wf (hput ht)
    · exact setUstores_wf (hput ht)
theorem uloadGo_wf (h : StoresWf s) : StoresWf (uloadGo s pat) := startCmd_wf h (fun _ h => setF_kept wf_kept h) (fun _ h => uload_wf h)
theorem execChnUload_wf (h : StoresWf s) : OutWf (execChnUload pat s) := regDo_wf h (uloadGo_wf h)
theorem setLuff_wf {l : Luff} (h : StoresWf s) : StoresWf (setLuff s p l) := h
theorem luffSummary_wf (h : StoresWf s) : StoresWf (luffSummary s p) := setLuff_wf h
theorem newInterval_wf (h : StoresWf s) : StoresWf (newInterval s p) := modHw_kept wf_kept h
theorem luffLive_wf (h : StoresWf s) : SndWf (luffLive s p) := snd_mk_wf (readClean_kept wf_kept h)
theorem luffPart_wf (h : StoresWf s) : StoresWf (luffPart s p) := ite_wf (luffSummary_wf (luffLive_wf (ptFill_wf h))) (luffLive_wf (ptFill_wf h))
theorem luffInterval_wf (h : StoresWf s) : StoresWf (luffInterval s) := by
  unfold luffInterval
  extract_lets t u
  have ht : StoresWf t := foldl_wf (fun _ _ ha => luffPart_wf ha) h
  have hu : StoresWf u := foldl_wf (fun _ _ ha => newInterval_wf ha) ht
  clear_value u
  exact hu
theorem execLuffIntervalEnd_wf (h : StoresWf s) : OutWf (execLuffIntervalEnd s) := next_wf (ite_wf h (luffInterval_wf h))
theorem luffReport_wf {l : Luff} (h : StoresWf s) : StoresWf (luffReport s p l) :=
  pptCount_wf (evRaise_kept wf_kept (setReg_kept wf_kept (ite_wf (store_kept wf_kept (stores_wf (readClean_kept wf_kept h)))
    (count_kept wf_kept (readClean_kept wf_kept h)))))
theorem luffJudge_wf (h : StoresWf s) : StoresWf (luffJudge s p) := by
  refine ite_wf h ?_
  extract_lets +onlyGivenNames r t
  have ht : StoresWf t := of_snd (ite_wf (luffLive_wf h) (snd_mk_wf h))
  exact ite_wf (setLuff_wf ht) (ite_wf (luffReport_wf (setLuff_wf ht)) (setLuff_wf ht))
theorem execLuffEvaluate_wf (h : StoresWf s) : OutWf (execLuffEvaluate part s) := schDo_wf h (luffJudge_wf h)
theorem inboundRetry_wf (h : StoresWf s) : StoresWf (inboundRetry s d k) := by
  unfold inboundRetry
  split
  · exact h
  · exact rxComplete_wf (inboundTry_wf h)
theorem execInboundAllocRetry_wf {entry : Nat} (h : StoresWf s) : OutWf (execInboundAllocRetry die entry s) := unitDo_wf h (inboundRetry_wf h)
theorem inboundTimeout_wf (h : StoresWf s) : StoresWf (inboundTimeout s d k) := by
  unfold inboundTimeout
  split
  · exact h
  · exact rxComplete_wf (recvFail_wf (modChan_wf h))
theorem execInboundAllocTimeout_wf {entry : Nat} (h : StoresWf s) : OutWf (execInboundAllocTimeout die entry s) := unitDo_wf h (inboundTimeout_wf h)
theorem schCommand_wf {w : Nat} {t : State} (hs : StoresWf s) (ht : StoresWf t) : OutWf (schCommand s d w t) := regDo_wf hs ht
theorem schPart_wf {w : Nat} (h : StoresWf s) : StoresWf (schPart w d p s) := setF_kept wf_kept h
theorem invPmt_wf (h : StoresWf s) : StoresWf (invPmt s d p) := startCmd_wf h (fun _ h => schPart_wf h) (fun _ h => ptInvalidate_wf (schPart_wf h))
theorem invCc_wf (h : StoresWf s) : StoresWf (invCc s d p) :=
  startCmd_wf h (fun _ h => schPart_wf h) (fun _ h => foldl_wf (fun _ _ h1 => modSpar_wf h1) (schPart_wf h))
theorem pstCommand_wf (h : StoresWf s) : StoresWf (pstCommand s d p) :=
  startCmd_wf h (fun _ h => schPart_wf h) (fun _ h => ptInvalidate_wf (schPart_wf h))
theorem pptRenew_wf (h : StoresWf s) : StoresWf (pptRenew s d p) :=
  ite_wf (setLuff_wf (noteClosing_wf (ptFill_wf (ptInvalidate_wf (schPart_wf h))))) (noteClosing_wf (ptFill_wf (ptInvalidate_wf (schPart_wf h))))
theorem pptCommand_wf (h : StoresWf s) : StoresWf (pptCommand s d p) := startCmd_wf h (fun _ h => schPart_wf h) (fun _ h => pptRenew_wf h)
theorem execSchInvPmt_wf (h : StoresWf s) : OutWf (execSchInvPmt die part s) := schCommand_wf h (invPmt_wf h)
theorem execSchInvCc_wf (h : StoresWf s) : OutWf (execSchInvCc die part s) := schCommand_wf h (invCc_wf h)
theorem execSchPstcmd_wf (h : StoresWf s) : OutWf (execSchPstcmd die part s) := schCommand_wf h (pstCommand_wf h)
theorem execSchPptcmd_wf (h : StoresWf s) : OutWf (execSchPptcmd die part s) := schCommand_wf h (pptCommand_wf h)
theorem pxtFields_wf {op err : Nat} (h : StoresWf s) : StoresWf (pxtFields s d op p err) := setReg_kept wf_kept h
theorem pxtBusy_wf {op : Nat} {effect : State → State} (h : StoresWf s) (heffect : ∀ x0, StoresWf x0 → StoresWf (effect x0)) : StoresWf
    (pxtBusy s d op p effect) :=
  ite_wf (reject_wf (pxtFields_wf (destroySettle_wf h))) (startCmd_wf (destroySettle_wf h) (fun _ h => pxtFields_wf h) (fun _ h => heffect _ h))
theorem pxtInv_wf (h : StoresWf s) : StoresWf (pxtInv s d p) := ptInvalidate_wf (pxtFields_wf h)
theorem execPxtInv_wf (h : StoresWf s) : OutWf (execPxtInv die part s) := schCommand_wf h (pxtBusy_wf h (fun _ h => pxtInv_wf h))
theorem readRange_wf (h : StoresWf s) : StoresWf (readRange s p) := foldl_wf (fun _ _ h => unitRead_kept wf_kept h) h
theorem create_wf (h : StoresWf s) : StoresWf (create s p) :=
  ite_wf (setLuff_wf (modHw_kept wf_kept (store_kept wf_kept (store_kept wf_kept (pxtFields_wf (ite_wf (readRange_wf h) h))))))
    (pxtFields_wf (ite_wf (readRange_wf h) h))
theorem execCreate_wf (h : StoresWf s) : OutWf (execCreate part s) := schCommand_wf h (pxtBusy_wf h (fun _ h => create_wf h))
theorem destroy_wf (h : StoresWf s) : StoresWf (destroy s p) :=
  ite_wf (destroySettle_wf (foldl_wf (fun _ _ h => destroyFrame_wf h) (modHw_kept wf_kept (unitMod_kept wf_kept (readRange_wf (pxtFields_wf h))))))
    (pxtFields_wf h)
theorem execDestroy_wf (h : StoresWf s) : OutWf (execDestroy part s) := schCommand_wf h (pxtBusy_wf h (fun _ h => destroy_wf h))
theorem setMail_wf {bit : Nat} {v : Bool} (h : StoresWf s) : StoresWf (setMail s p bit v) := setF_kept wf_kept h
theorem mailGo_wf (h : StoresWf s) : StoresWf (mailGo s p out) := ite_wf (count_kept wf_kept h) (evRaise_kept wf_kept (setMail_wf h))
theorem mailAck_wf (h : StoresWf s) : StoresWf (mailAck s p out) := setMail_wf h
theorem prtDo_wf {w : Nat} {t : State} (hs : StoresWf s) (ht : StoresWf t) : OutWf (prtDo s w t) := regDo_wf hs ht
theorem execMailboxIgo_wf (h : StoresWf s) : OutWf (execMailboxIgo part s) := prtDo_wf h (mailGo_wf h)
theorem execMailboxIack_wf (h : StoresWf s) : OutWf (execMailboxIack part s) := prtDo_wf h (mailAck_wf h)
theorem execMailboxOgo_wf (h : StoresWf s) : OutWf (execMailboxOgo part s) := prtDo_wf h (mailGo_wf h)
theorem execMailboxOack_wf (h : StoresWf s) : OutWf (execMailboxOack part s) := prtDo_wf h (mailAck_wf h)
theorem ringBell_wf (h : StoresWf s) : StoresWf (ringBell s p out) := evRaise_kept wf_kept h
theorem execRingDoorbell_wf (h : StoresWf s) : OutWf (execRingDoorbell part out s) := prtDo_wf h (ringBell_wf h)

end Sys2Proof.Machine
end

section
/-! SUPPORT. Blocks and service keep the stores (log entry 2). -/

namespace Sys2Proof.Machine

variable {s : State} {b d det die g k : Nat} {src : CsrSrc} {blk : BitVec 8} {arg : BitVec 5} {core : CoreId} {info : Word} {inj pass : Bool}
  {r : DetReport}

theorem blkDisable_wf (h : StoresWf s) : StoresWf (blkDisable s d b src) :=
  ite_wf (reject_wf h) (ite_wf (reject_wf h) (parityWrite_wf (setF_kept wf_kept h)))
theorem takeRwd_wf (h : StoresWf s) : StoresWf (takeRwd s d b) := upd_wf rfl rfl (foldl_wf (fun _ _ h => setReg_kept wf_kept h) h)
theorem topsailSlot_wf (h : StoresWf s) : StoresWf (topsailSlot s g) := by
  unfold topsailSlot
  split
  · exact fillSlot_wf h
  · exact ite_wf h (setSlotPe_wf (setPeStat_wf h))
  · exact h
theorem blkEnable_wf (h : StoresWf s) : StoresWf (blkEnable s d b) :=
  ite_wf h (ite_wf (parityWrite_wf h) (ite_wf (reject_wf h) (ite_wf (topsailSlot_wf (parityWrite_wf (setF_kept wf_kept (takeRwd_wf h))))
    (parityWrite_wf (setF_kept wf_kept (takeRwd_wf h))))))
theorem resetRegs_wf (h : StoresWf s) : StoresWf (resetRegs s d b) := foldl_wf (fun _ _ h => setReg_kept wf_kept h) (setF_kept wf_kept h)
theorem sparClear_wf (h : StoresWf s) : StoresWf (sparClear s g) := foldl_wf (fun _ _ h => modPe_kept wf_kept h) (upd_wf rfl rfl h)
theorem blkClear_wf (h : StoresWf s) : StoresWf (blkClear s d b) := by
  unfold blkClear
  split
  · exact sparClear_wf h
  · exact upd_wf rfl rfl h
  · exact modChan_wf h
  · exact xformClear_kept wf_kept h
  · exact xformClear_kept wf_kept h
  · exact modDie_wf h
  · exact h
  · exact h
  · exact foldl_wf (fun _ _ h1 => modSpar_wf h1) h
  · exact foldl_wf (fun _ _ h1 => returnOffers_wf h1) (modDie_wf (foldl_wf (fun _ _ h1 => modSup_kept wf_kept h1) h))
  · exact modDie_wf h
  · exact h
theorem blkReset_wf (h : StoresWf s) : StoresWf (blkReset s d b) := modDie_wf (resetRegs_wf (blkClear_wf h))
theorem writeBlkCtl_wf {v : Nat} (h : StoresWf s) : StoresWf (writeBlkCtl s d b v src) := by
  refine ite_wf h (ite_wf (reject_wf h) (ite_wf (reject_wf h) ?_))
  extract_lets +onlyGivenNames t u
  have ht : StoresWf t := ite_wf h (setF_kept wf_kept h)
  have hu : StoresWf u := ite_wf (setReg_kept wf_kept ht) ht
  refine ite_wf ?_ (ite_wf (blkEnable_wf hu) (blkDisable_wf hu))
  extract_lets w
  have hw : StoresWf w := ite_wf hu (ite_wf hu (setF_kept wf_kept hu))
  exact ite_wf (reject_wf hw) (ite_wf (reject_wf (blkReset_wf hw)) (blkReset_wf hw))
theorem ctlDo_wf {t : State} (hs : StoresWf s) (ht : StoresWf t) : OutWf (ctlDo s d b src t) := regDo_wf hs ht
theorem execBlkEnable_wf (h : StoresWf s) : OutWf (execBlkEnable die blk src s) := ctlDo_wf h (blkEnable_wf h)
theorem execBlkDisable_wf (h : StoresWf s) : OutWf (execBlkDisable die blk src s) := ctlDo_wf h (blkDisable_wf h)
theorem execBlkRst_wf {value : Csr} (h : StoresWf s) : OutWf (execBlkRst die blk value src s) := ctlDo_wf h (writeBlkCtl_wf h)
theorem execBlkResetDone_wf (h : StoresWf s) : OutWf (execBlkResetDone die blk s) := onDie_wf h (modDie_wf h)
theorem execBlkClrrej_wf (h : StoresWf s) : OutWf (execBlkClrrej die blk s) := ctlDo_wf h (setReg_kept wf_kept h)
theorem noArg_wf {body : Hart → State → Res} {hart : Hart} (hbody : ∀ x0 x1, StoresWf x1 → ResWf (body x0 x1)) (h : StoresWf s) : ResWf
    (noArg arg body hart s) :=
  ite_wf (hbody _ _ h) (illegal_wf h)
theorem execNop_wf (h : StoresWf s) : OutWf (execNop core arg s) := instrDo_wf (fun _ _ h => noArg_wf (fun _ _ h1 => h1) h) h
theorem execCommit_wf (h : StoresWf s) : OutWf (execCommit core arg s) :=
  instrDo_wf (fun _ _ h => noArg_wf (fun _ _ h1 => codeletOnly_wf (fun _ _ h2 => atCommit_wf h2 (fun _ h3 => commitAwait_wf (setPc_wf h3))) h1) h) h
theorem execEnd_wf (h : StoresWf s) : OutWf (execEnd core arg s) :=
  instrDo_wf (fun _ _ h => noArg_wf (fun _ _ h1 => codeletOnly_wf (fun _ _ h2 => atCommit_wf h2 (fun _ h3 => endInst_wf (commitPoint_wf h3))) h1) h)
    h
theorem execFence_wf (h : StoresWf s) : OutWf (execFence core arg s) := instrDo_wf (fun _ _ h => noArg_wf (fun _ _ h1 => h1) h) h
theorem execFenceDev_wf (h : StoresWf s) : OutWf (execFenceDev core arg s) :=
  instrDo_wf (fun _ _ h => noArg_wf (fun _ _ h1 => privileged_wf (fun _ _ h2 => h2) h1) h) h
theorem execEret_wf (h : StoresWf s) : OutWf (execEret core arg s) :=
  instrDo_wf (fun _ _ h => noArg_wf (fun _ _ h1 => privileged_wf (fun _ _ h2 => ite_wf (illegal_wf h2) (leaveLevel_wf h2)) h1) h) h
theorem execWfe_wf (h : StoresWf s) : OutWf (execWfe core arg s) :=
  instrDo_wf (fun _ _ h => noArg_wf (fun _ _ h1 => privileged_wf (fun _ _ h2 => modSup_kept wf_kept (dropResv_wf h2)) h1) h) h
theorem execSys_wf (h : StoresWf s) : OutWf (execSys core arg s) :=
  instrDo_wf (fun _ _ h => privileged_wf (fun _ _ h1 => ite_wf h1 (enterLevel_wf h1)) h) h
theorem notLeaving_wf (h : StoresWf s) : StoresWf (notLeaving s k) := modPe_kept wf_kept h
theorem retryFail_wf {src : Nat} (h : StoresWf s) : StoresWf (retryFail s k src) := by
  unfold retryFail
  extract_lets +onlyGivenNames l
  split
  · exact h
  · exact endInst_wf (addTrap_wf (discardScope_wf h))
theorem escalate_wf {src : Nat} (h : StoresWf s) : StoresWf (escalate s k det src info inj) := by
  unfold escalate
  extract_lets +onlyGivenNames note
  split
  · exact report_kept wf_kept h
  · exact report_kept wf_kept (foldl_wf (fun _ _ h1 => departTest_wf h1) (departTest_wf
      (retryFail_wf (foldl_wf (fun _ _ h1 => notLeaving_wf h1) h))))
theorem retryPe_wf (h : StoresWf s) : StoresWf (retryPe s k det) := modPe_kept wf_kept (rollback_wf h)
theorem transient_wf {src : Nat} (h : StoresWf s) : StoresWf (transient s k det src info inj) := by
  unfold transient
  extract_lets +onlyGivenNames d u
  split
  · exact report_kept wf_kept h
  · exact ite_wf (report_kept wf_kept (count_kept wf_kept (foldl_wf (fun _ _ h1 => retryPe_wf h1) h))) (escalate_wf h)
theorem execRetryCounterLeak_wf {pe : PeId} (h : StoresWf s) : OutWf (execRetryCounterLeak pe s) := onDie_wf h (modPe_kept wf_kept h)
theorem retirePe_wf {src : Nat} (h : StoresWf s) : FstWf (retirePe s k src) := departPe_wf (ite_wf (retryFail_wf (notLeaving_wf h)) h)
theorem peBist_wf (h : StoresWf s) : StoresWf (peBist s k pass) := by
  refine ite_wf ?_ ?_
  · exact h
  · refine ite_wf ?_ ?_
    · exact report_kept wf_kept (setPeStat_wf h)
    · refine ite_wf ?_ ?_
      · extract_lets +onlyGivenNames s'
        split
        · exact fillSlot_wf (report_kept wf_kept (setPeStat_wf h))
        · exact report_kept wf_kept (setPeStat_wf h)
      · exact setPeStat_wf h
theorem execPeBistDone_wf {pe : PeId} (h : StoresWf s) : OutWf (execPeBistDone pe pass s) := unitDo_wf h (peBist_wf h)
theorem pairBist_wf {j : Nat} (h : StoresWf s) : StoresWf (pairBist s d j pass) := by
  refine ite_wf ?_ ?_
  · exact h
  · refine ite_wf ?_ ?_
    · exact report_kept wf_kept (setPairStat_wf h)
    · refine ite_wf ?_ ?_
      · exact setPairStat_wf h
      · split
        · exact modDie_wf (setPairStat_wf (setPairOf_wf h))
        · exact setPairStat_wf h
theorem execPairBistDone_wf {pair : Fin 9} (h : StoresWf s) : OutWf (execPairBistDone die pair pass s) := unitDo_wf h (pairBist_wf h)
theorem pairCommand_wf {c : Nat} (h : StoresWf s) : StoresWf (pairCommand s d c) :=
  startCmd_wf h (fun _ h => setF_kept wf_kept h) (fun _ h => ite_wf (startCore_wf (modDie_wf (setF_kept wf_kept h))) (reject_wf (upd_wf rfl rfl h)))
theorem execMdrPaircmd_wf {lcore : Nat} (h : StoresWf s) : OutWf (execMdrPaircmd die lcore s) := regDo_wf h (pairCommand_wf h)
theorem logAck_wf (h : StoresWf s) : StoresWf (logAck s d k) := by
  unfold logAck
  extract_lets +onlyGivenNames s'
  split
  · exact ite_wf (reject_wf (setF_kept wf_kept h)) (setLog_kept wf_kept (setF_kept wf_kept h))
  · exact reject_wf (setF_kept wf_kept h)
theorem execMdrLogack_wf {slot : Fin 1024} (h : StoresWf s) : OutWf (execMdrLogack die slot s) := regDo_wf h (logAck_wf h)
theorem execFaultNPulseExpire_wf (h : StoresWf s) : OutWf (execFaultNPulseExpire s) := next_wf h
theorem execMdrFnctlWrite_wf {drive : Bool} {minclass : BitVec 2} (h : StoresWf s) : OutWf (execMdrFnctlWrite drive minclass s) :=
  regDo_wf h (parityWrite_wf (setF_kept wf_kept (setF_kept wf_kept h)))
theorem loseCores_wf (h : StoresWf s) : StoresWf (loseCores s d) :=
  foldl_wf (fun _ _ h => setPairOf_wf (stopCore_wf (foldl_wf (fun _ _ h1 => evFenced_wf h1) (returnOffers_wf h)))) (modDie_wf h)
theorem purgesDone_wf {l : List Word} (h : StoresWf s) : StoresWf (purgesDone s l) := foldl_wf (fun _ _ h => purgeDone_kept wf_kept h) h
theorem dropFlits_wf (h : StoresWf s) : StoresWf (dropFlits s d) :=
  foldl_wf (fun _ _ h => modLink_wf h) (foldl_wf (fun _ _ h => drainAll_wf (foldl_wf (fun _ _ h1 => deadFlit_kept wf_kept h1) (modLink_wf h))) h)
theorem dropMessages_wf (h : StoresWf s) : StoresWf (dropMessages s d) := foldl_wf (fun _ _ h => deadTo_wf h) h
theorem loseHomes_wf (h : StoresWf s) : StoresWf (loseHomes s d) := h
theorem dieGone_wf (h : StoresWf s) : StoresWf (dieGone s d) := by
  unfold dieGone
  extract_lets +onlyGivenNames t u v w x
  have ht : StoresWf t := purgesDone_wf (loseHomes_wf h)
  have hu : StoresWf u := dropMessages_wf (dropFlits_wf (loseCores_wf (xformClear_kept wf_kept
    (xformClear_kept wf_kept (heldDie_kept wf_kept ht)))))
  have hv : StoresWf v := foldl_wf (fun _ _ h => ctrlLost_wf h) hu
  have hw : StoresWf w := ite_wf (ldevLeaves_wf hv) hv
  exact loseDie_wf (foldl_wf (fun _ _ h => foldl_wf (fun _ _ h1 => ite_wf (setUp_wf h1) h1) h) hw)
theorem withdrawDie_wf (h : StoresWf s) : StoresWf (withdrawDie s d inj) := ite_wf h (dieGone_wf (reportAt0_wf (modDie_wf h)))
theorem costDie_wf (h : StoresWf s) : StoresWf (costDie s d inj) := ite_wf (reportAt0_wf h) (withdrawDie_wf h)
theorem execDieWithdrawal_wf (h : StoresWf s) : OutWf (execDieWithdrawal die s) := unitDo_wf h (costDie_wf h)
theorem sensorOut_wf {sensor : Nat} (h : StoresWf s) : StoresWf (sensorOut s d sensor info inj) :=
  ite_wf h (ite_wf (costDie_wf (report_kept wf_kept (modDie_wf h))) (report_kept wf_kept (modDie_wf h)))
theorem wdrawCommand_wf (h : StoresWf s) : StoresWf (wdrawCommand s d) :=
  ite_wf (reject_wf (setF_kept wf_kept h)) (withdrawDie_wf (setF_kept wf_kept h))
theorem execMdrWdraw_wf {target : Nat} (h : StoresWf s) : OutWf (execMdrWdraw target s) := regDo_wf h (wdrawCommand_wf h)
theorem linkFail_wf (h : StoresWf s) : StoresWf (linkFail s d k det info inj) :=
  ite_wf h (foldl_wf (fun _ _ h => ite_wf h (withdrawDie_wf h)) (logDetection_kept wf_kept (turnBack_kept wf_kept (turnBack_kept wf_kept h))))
theorem execLinkFailure_wf {link : Fin 2} (h : StoresWf s) : OutWf (execLinkFailure die link s) := unitDo_wf h (linkFail_wf h)
theorem sparOut_wf (h : StoresWf s) : StoresWf (sparOut s g) := by
  unfold sparOut
  extract_lets +onlyGivenNames x tags t u
  have ht : StoresWf t := foldl_wf (fun _ _ h => ite_wf (retryFail_wf (notLeaving_wf h)) h) h
  have hu : StoresWf u := loseCache_wf (purgesDone_wf (modSpar_wf ht))
  exact ite_wf (checkService_wf hu) hu
theorem blkGone_wf (h : StoresWf s) : StoresWf (blkGone s d b) := modDie_wf (setF_kept wf_kept (ite_wf (loseHomes_wf h) h))
theorem silence_wf (h : StoresWf s) : StoresWf (silence s d det) := ite_wf (modDie_wf h) h
theorem fenceUnit_wf (h : StoresWf s) : StoresWf (fenceUnit s r det) := by
  unfold fenceUnit
  extract_lets d b u rec'
  split
  · extract_lets i addr x
    have hx : StoresWf x.1 := of_fst (retirePe_wf h)
    clear_value i
    split
    · exact report_kept wf_kept hx
    · exact report_kept wf_kept hx
  · exact sparOut_wf (report_kept wf_kept h)
  · split
    · exact fencePair_wf h
    · exact h
  · exact linkFail_wf h
  · exact report_kept wf_kept (modEng_wf h)
  · exact xformOut_wf (report_kept wf_kept h)
  · exact withdrawDie_wf (silence_wf (report_kept wf_kept h))
  · exact sensorOut_wf (report_kept wf_kept h)
  · exact blkGone_wf (report_kept wf_kept h)
theorem parityFault_wf {w : Nat} (h : StoresWf s) : StoresWf (parityFault s d b w inj) := by
  unfold parityFault
  extract_lets +onlyGivenNames x s' s''
  split
  · exact sparOut_wf (report_kept wf_kept (setF_kept wf_kept (modDie_wf h)))
  · exact loseHomes_wf (report_kept wf_kept (setF_kept wf_kept (modDie_wf h)))
  · exact modEng_wf (report_kept wf_kept (setF_kept wf_kept (modDie_wf h)))
  · exact ite_wf (xformWipe_kept wf_kept (fun _ _ _ h1 => stores_wf h1) (report_kept wf_kept (setF_kept wf_kept (modDie_wf h))))
      (report_kept wf_kept (setF_kept wf_kept (modDie_wf h)))
  · exact ite_wf (xformWipe_kept wf_kept (fun _ _ _ h1 => stores_wf h1) (report_kept wf_kept (setF_kept wf_kept (modDie_wf h))))
      (report_kept wf_kept (setF_kept wf_kept (modDie_wf h)))
  · exact report_kept wf_kept (setF_kept wf_kept (modDie_wf h))
theorem execConfigParityCheck_wf (h : StoresWf s) : OutWf (execConfigParityCheck die blk s) := unitDo_wf h (by
    split
    · exact h
    · exact parityFault_wf h)
theorem injCommand_wf {v : Nat} (h : StoresWf s) : StoresWf (injCommand s d v) :=
  ite_wf (setReg_kept wf_kept h) (ite_wf (reject_wf (setReg_kept wf_kept h))
    (ite_wf (setF_kept wf_kept (setReg_kept wf_kept h)) (modDie_wf (setF_kept wf_kept (setReg_kept wf_kept h)))))
theorem execMdrInjctl_wf {value : Csr} (h : StoresWf s) : OutWf (execMdrInjctl die value s) := regDo_wf h (injCommand_wf h)
theorem poisonList_wf {l : List (BitVec 49)} (h : StoresWf s) : StoresWf (poisonList s l) := foldl_wf (fun _ _ h => poisonWords_kept wf_kept h) h
theorem peReport_wf (h : StoresWf s) : StoresWf (peReport s r k) := by
  unfold peReport
  extract_lets +onlyGivenNames d b det note
  split
  · exact report_kept wf_kept h
  · exact escalate_wf h
  · exact report_kept wf_kept (poisonList_wf h)
  · exact report_kept wf_kept (modPe_kept wf_kept h)
  · exact transient_wf h
  · exact report_kept wf_kept (modPe_kept wf_kept h)
  · exact ite_wf (escalate_wf h) (ite_wf (report_kept wf_kept h) (ite_wf (peTrap_wf (report_kept wf_kept h))
      (ite_wf (report_kept wf_kept (retirePe_wf h)) (transient_wf h))))
theorem storeLoss_wf {key : Nat} (h : StoresWf s) : StoresWf (storeLoss s r g key) := by
  unfold storeLoss
  split
  · exact report_kept wf_kept (countCluN_wf (modSpar_wf h))
  · exact h
theorem decimalReport_wf (h : StoresWf s) : StoresWf (decimalReport s r g) := by
  unfold decimalReport
  extract_lets +onlyGivenNames s'
  split
  · exact ite_wf (transient_wf (report_kept wf_kept h)) (report_kept wf_kept h)
  · exact report_kept wf_kept h
theorem rereadLine_wf {u la : Nat} (h : StoresWf s) : StoresWf (rereadLine s d b u la) := by
  unfold rereadLine
  extract_lets +onlyGivenNames again
  split
  · exact getD_wf (lineForRead_wf (loseLine_kept wf_kept h)) (loseLine_kept wf_kept h)
  · exact getD_wf (map_of_wf (fun _ => getD_wf (lineForRead_wf (loseLine_kept wf_kept h)) (loseLine_kept wf_kept h))) h
  · exact getD_wf (bind_wf (bind_of_wf (fun _ => snoopPass_kept wf_kept (getD_wf (serveAhead_kept wf_kept (endHolds_kept wf_kept h)) h)))
      (fun _ h1 => fetchLine_kept wf_kept (setLlc_kept wf_kept h1))) (getD_wf (serveAhead_kept wf_kept (endHolds_kept wf_kept h)) h)
  · exact h
theorem unitReport_wf (h : StoresWf s) : StoresWf (unitReport s r) := by
  unfold unitReport
  extract_lets +onlyGivenNames d b u det note flit
  split
  · exact report_kept wf_kept (ite_wf (countF_kept wf_kept h) (ite_wf (count_kept wf_kept h) (ite_wf (count_kept wf_kept h) h)))
  · exact report_kept wf_kept (poisonList_wf (ite_wf (count_kept wf_kept h) h))
  · exact report_kept wf_kept (rereadLine_wf h)
  · exact storeLoss_wf h
  · exact ite_wf (parityFault_wf h) (ite_wf (decimalReport_wf h) (ite_wf (report_kept wf_kept h)
      (ite_wf (report_kept wf_kept (countF_kept wf_kept h)) (ite_wf (report_kept wf_kept h)
      (ite_wf (report_kept wf_kept h) (ite_wf (report_kept wf_kept h) (ite_wf (report_kept wf_kept h)
      (ite_wf (report_kept wf_kept (count_kept wf_kept h)) (ite_wf (setPairStat_wf (fenceUnit_wf h))
      (ite_wf (report_kept wf_kept h) (ite_wf (blkGone_wf (report_kept wf_kept h))
      (ite_wf (report_kept wf_kept h) (ite_wf (report_kept wf_kept (setF_kept wf_kept h))
      (ite_wf (fenceUnit_wf (setF_kept wf_kept h)) (ite_wf (costDie_wf h) (fenceUnit_wf h))))))))))))))))
theorem wireReport_wf {n : Nat} (h : StoresWf s) : StoresWf (wireReport s r n) :=
  ite_wf h (ite_wf (count_kept wf_kept h) (ite_wf (report_kept wf_kept h) (fenceUnit_wf h)))

end Sys2Proof.Machine
end

section
/-! SUPPORT. Power, updates and register writes keep the stores (log entry 2). -/

namespace Sys2Proof.Machine

variable {s t : State} {b c d die i k n rd rs1 rs2 u v w : Nat} {value : Csr} {info : Word} {flashOk inj : Bool} {src : CsrSrc} {blk : BitVec 8}
  {slot : BitVec 4} {core : CoreId}

theorem raiseAll_wf (h : StoresWf s) : StoresWf (raiseAll s k) := foldl_wf (fun _ _ h => evRaise_kept wf_kept h) h
theorem powerDo_wf (hs : StoresWf s) (ht : StoresWf t) : OutWf (powerDo s d t) := unitDo_wf hs ht
theorem setStep_wf (h : StoresWf s) : StoresWf (setStep s n) := setF_kept wf_kept h
theorem setLevel_wf (h : StoresWf s) : StoresWf (setLevel s n) := setF_kept wf_kept h
theorem cutJobs_wf (h : StoresWf s) : StoresWf (cutJobs s) := by
  unfold cutJobs
  extract_lets +onlyGivenNames t
  have ht : StoresWf t := by
    unfold t
    split
    · exact ite_wf (flCut_wf h) h
    · exact h
  split
  · refine ite_wf ?_ ht
    exact ite_wf (P := StoresWf) (takeFree_kept wf_kept ht) (takeFree_kept wf_kept ht)
  · exact ht
theorem keptAlways_wf (h : StoresWf s) : StoresWf (keptAlways s) := ⟨tabWfFrom_filter _ h.1, h.2⟩
theorem loseDies_wf (h : StoresWf s) : StoresWf (loseDies s) := upd_wf rfl rfl (keptAlways_wf h)
theorem stopHv_wf (h : StoresWf s) : StoresWf (stopHv s) := ite_wf (loseDies_wf h) h
theorem backToFive_wf (h : StoresWf s) : StoresWf (backToFive s) := ite_wf h (setStep_wf (loseDies_wf h))
theorem warn_wf (h : StoresWf s) : StoresWf (warn s) :=
  foldl_wf (fun _ _ h => foldl_wf (fun _ _ h1 => ite_wf (evPush_wf h1) h1) h) (raiseAll_wf (foldl_wf (fun _ _ h => setF_kept wf_kept h) h))
theorem powerFail_wf {a1 : WarnCause} (h : StoresWf s) : StoresWf (powerFail s a1) := by
  unfold powerFail
  split
  · exact ite_wf (ite_wf (ite_wf h (evRaise_kept wf_kept h)) (warn_wf (ite_wf h (evRaise_kept wf_kept h))))
      (backToFive_wf (ite_wf h (evRaise_kept wf_kept h)))
  · exact ite_wf (ite_wf h (warn_wf h)) h
  · exact ite_wf (ite_wf h (warn_wf h)) (backToFive_wf h)
theorem execPowerFailWarning_wf {cause : WarnCause} (h : StoresWf s) : OutWf (execPowerFailWarning cause s) := next_wf (ite_wf (powerFail_wf h) h)
theorem heldLost_wf (h : StoresWf s) : StoresWf (heldLost s) := ite_wf h (heldAll_kept wf_kept h)
theorem execVin48Loss_wf {warnedEarly : Bool} (h : StoresWf s) : OutWf (execVin48Loss warnedEarly s) :=
  next_wf (ite_wf h (ite_wf (stopHv_wf (heldLost_wf (ite_wf h (report_kept wf_kept h)))) (backToFive_wf h)))
theorem zeroise_wf {cause : Nat} (h : StoresWf s) : StoresWf (zeroise s cause) :=
  ite_wf (evRaise_kept wf_kept (report_kept wf_kept (setF_kept wf_kept (setF_kept wf_kept h)))) (upd_wf rfl rfl h)
theorem domainPower_wf (h : StoresWf s) : StoresWf (domainPower s) :=
  ite_wf (zeroise_wf (setReg_kept wf_kept (setReg_kept wf_kept (takeFree_kept wf_kept h)))) h
theorem execTamperZeroise_wf {cause : TamperCause} (h : StoresWf s) : OutWf (execTamperZeroise cause s) := next_wf (ite_wf h (zeroise_wf h))
theorem execAuxLoss_wf {vbat : Bool} (h : StoresWf s) : OutWf (execAuxLoss vbat s) :=
  next_wf (ite_wf (upd_wf rfl rfl (keptAlways_wf (cutJobs_wf h))) (ite_wf (domainPower_wf h) h))
theorem execAuxRestore_wf (h : StoresWf s) : OutWf (execAuxRestore s) := next_wf (ite_wf h (domainPower_wf h))
theorem rtcWrite_wf {lo : Nat} (h : StoresWf s) : StoresWf (rtcWrite s lo) := setReg_kept wf_kept (setReg_kept wf_kept h)
theorem execPwrRtcWrite_wf (h : StoresWf s) : OutWf (execPwrRtcWrite value s) := regDo_wf h (rtcWrite_wf h)
theorem tamperClear_wf (h : StoresWf s) : StoresWf (tamperClear s) := setF_kept wf_kept h
theorem execPwrTamperClr_wf (h : StoresWf s) : OutWf (execPwrTamperClr s) := regDo_wf h (tamperClear_wf h)
theorem setDividers_wf {eff : Nat} (h : StoresWf s) : StoresWf (setDividers s eff) :=
  foldl_wf (fun _ _ h => setF_kept wf_kept (setF_kept wf_kept h)) h
theorem railsAt_wf {eff : Nat} (h : StoresWf s) : StoresWf (railsAt s eff d) := modDie_wf h
theorem setRails_wf (h : StoresWf s) : StoresWf (setRails s d) := railsAt_wf h
theorem switchTo_wf {t : Nat} (h : StoresWf s) : StoresWf (switchTo s t) := evRaise_kept wf_kept (setF_kept wf_kept (setDividers_wf h))
theorem reefIn_wf {p : ReefPhase} (h : StoresWf s) : StoresWf (reefIn s p) := h
theorem reefStep_wf (h : StoresWf s) : StoresWf (reefStep s) := by
  unfold reefStep
  extract_lets +onlyGivenNames eff t
  split
  · exact ite_wf h (ite_wf (reefIn_wf (foldl_wf (fun _ _ h1 => railsAt_wf h1) h)) (reefIn_wf (switchTo_wf h)))
  · exact ite_wf (reefIn_wf (switchTo_wf h)) (reefIn_wf (switchTo_wf h))
  · exact reefIn_wf (foldl_wf (fun _ _ h1 => setRails_wf h1) h)
theorem reefChange_wf (h : StoresWf s) : StoresWf (reefChange s) := reefStep_wf (reefStep_wf h)
theorem execReefChange_wf (h : StoresWf s) : OutWf (execReefChange s) := next_wf (ite_wf (reefStep_wf h) h)
theorem execPwrReefWrite_wf {req : BitVec 2} (h : StoresWf s) : OutWf (execPwrReefWrite req s) := regDo_wf h (parityWrite_wf (setF_kept wf_kept h))
theorem enterThermal_wf {two : Bool} (h : StoresWf s) : StoresWf (enterThermal s two) := raiseAll_wf (foldl_wf (fun _ _ h => countF_kept wf_kept h) h)
theorem enterTwo_wf (h : StoresWf s) : StoresWf (enterTwo s) := ite_wf h (enterThermal_wf h)
theorem hotStep_wf (h : StoresWf s) : StoresWf (hotStep s) :=
  ite_wf (ite_wf (enterThermal_wf (setF_kept wf_kept h)) (setF_kept wf_kept h)) (enterTwo_wf h)
theorem coolStep_wf (h : StoresWf s) : StoresWf (coolStep s) :=
  ite_wf (ite_wf (raiseAll_wf h) h) (ite_wf (raiseAll_wf (setF_kept wf_kept (ite_wf (raiseAll_wf h) h)))
    (setF_kept wf_kept (ite_wf (raiseAll_wf h) h)))
theorem execThermalLevelStep_wf {hot : Bool} (h : StoresWf s) : OutWf (execThermalLevelStep hot s) :=
  next_wf (ite_wf (ite_wf (hotStep_wf h) (coolStep_wf h)) h)
theorem execPowerLimitStep_wf {above : Bool} (h : StoresWf s) : OutWf (execPowerLimitStep above s) := next_wf (ite_wf (setF_kept wf_kept h) h)
theorem rawChange_wf {bit : Nat} (h : StoresWf s) : StoresWf (rawChange s bit) :=
  foldl_wf (fun _ _ h => ite_wf (fencePair_wf (takeFree_kept wf_kept h)) h) h
theorem alarmInput_wf {on : Bool} (h : StoresWf s) : StoresWf (alarmInput s on) := ite_wf h (rawChange_wf h)
theorem execThrmalrtNAssert_wf (h : StoresWf s) : OutWf (execThrmalrtNAssert s) :=
  next_wf (ite_wf (enterTwo_wf (evRaise_kept wf_kept (alarmInput_wf h))) (alarmInput_wf h))
theorem execThrmalrtNDeassert_wf (h : StoresWf s) : OutWf (execThrmalrtNDeassert s) :=
  next_wf (ite_wf (evRaise_kept wf_kept (alarmInput_wf h)) (alarmInput_wf h))
theorem thermTrip_wf {sensor : Nat} (h : StoresWf s) : StoresWf (thermTrip s d sensor info inj) := stopHv_wf (upd_wf rfl rfl (report_kept wf_kept h))
theorem execThermtrip_wf {sensor : Fin 16} (h : StoresWf s) : OutWf (execThermtrip die sensor s) := powerDo_wf h (ite_wf (thermTrip_wf h) h)
theorem execSensorOutOfUse_wf {sensor : Fin 16} (h : StoresWf s) : OutWf (execSensorOutOfUse die sensor s) := powerDo_wf h (sensorOut_wf h)
theorem setOffset_wf {rail : Nat} {margin : Bool} (h : StoresWf s) : StoresWf (setOffset s d rail v margin) :=
  ite_wf (setF_kept wf_kept h) (setRails_wf (setF_kept wf_kept h))
theorem takeSample_wf {reads : List Nat} (h : StoresWf s) : StoresWf (takeSample s d reads inj) :=
  elim_of_wf (countF_kept wf_kept (modDie_wf (foldl_wf (fun _ _ h => setF_kept wf_kept h) h)))
    (fun _ => report_kept wf_kept (foldl_wf (fun _ _ h1 => setF_kept wf_kept h1) h))
theorem sampleDie_wf {reads : List Nat} (h : StoresWf s) : StoresWf (sampleDie s d reads) := by
  unfold sampleDie
  split
  · exact takeSample_wf h
  · exact takeSample_wf (injUse_kept wf_kept h)
theorem execUmberSample_wf {reads : List (List (BitVec 16))} (h : StoresWf s) : OutWf (execUmberSample reads s) :=
  next_wf (ite_wf (foldl_wf (fun _ _ h => sampleDie_wf h) h) h)
theorem umbGo_wf {op : Nat} {effect : State → State} (h : StoresWf s) (heffect : ∀ x0, StoresWf x0 → StoresWf (effect x0)) : StoresWf
    (umbGo s d op effect) :=
  startCmd_wf h (fun _ h => setF_kept wf_kept h) (fun _ h => ite_wf (heffect _ (setF_kept wf_kept h)) (setF_kept wf_kept h))
theorem sampleNow_wf {reads : List (BitVec 16)} (h : StoresWf s) : StoresWf (sampleNow s d reads) := umbGo_wf h (fun _ h => sampleDie_wf h)
theorem execUmbSampleNow_wf {reads : List (BitVec 16)} (h : StoresWf s) : OutWf (execUmbSampleNow die reads s) := regDo_wf h (sampleNow_wf h)
theorem medians_wf (h : StoresWf s) : SndWf (medians s d) := foldl_wf (fun _ _ h => snd_mk_wf (takeFree_kept wf_kept h)) (snd_mk_wf h)
theorem ageWant_wf {r : AgeRec} (h : StoresWf s) : StoresWf (ageWant s r) := h
theorem ageAgain_wf (h : StoresWf s) : StoresWf (ageAgain s) := h
theorem replanDie_wf (h : StoresWf s) : StoresWf (replanDie s d) :=
  ite_wf (evRaise_kept wf_kept (countF_kept wf_kept h)) (evRaise_kept wf_kept
    (ageWant_wf (foldl_wf (fun _ _ h => setOffset_wf h) (medians_wf (countF_kept wf_kept h)))))
theorem execDailyReplan_wf (h : StoresWf s) : OutWf (execDailyReplan s) :=
  next_wf (ite_wf (foldl_wf (fun _ _ h => setF_kept wf_kept (modDie_wf (replanDie_wf h))) (ageAgain_wf h)) h)
theorem replanNow_wf (h : StoresWf s) : StoresWf (replanNow s d) := umbGo_wf h (fun _ h => replanDie_wf (ageAgain_wf h))
theorem execUmbReplanNow_wf (h : StoresWf s) : OutWf (execUmbReplanNow die s) := regDo_wf h (replanNow_wf h)
theorem capRise_wf (h : StoresWf s) : StoresWf (capRise s d u info inj) :=
  ite_wf (ageWant_wf (medians_wf (report_kept wf_kept (modDie_wf h)))) (costDie_wf h)
theorem marginFail_wf (h : StoresWf s) : StoresWf (marginFail s k info inj) :=
  ite_wf (modPe_kept wf_kept h) (ite_wf h (report_kept wf_kept (departTest_wf h)))
theorem canaryStep_wf {rail det : Nat} (h : StoresWf s) : StoresWf (canaryStep s d rail b u det info inj) :=
  report_kept wf_kept (evRaise_kept wf_kept (setOffset_wf h))
theorem canaryLimit_wf {a4 : CanaryAt} (h : StoresWf s) : StoresWf (canaryLimit s d info inj a4) := by
  unfold canaryLimit
  split
  · exact ite_wf (canaryStep_wf h) (marginFail_wf h)
  · exact ite_wf (canaryStep_wf h) (capRise_wf h)
  · exact ite_wf (canaryStep_wf h) (capRise_wf h)
theorem canaryEnd_wf {place : CanaryAt} {hits : Nat} (h : StoresWf s) : StoresWf (canaryEnd s d place hits) := by
  unfold canaryEnd
  split
  · exact canaryLimit_wf (injUse_kept wf_kept h)
  · exact ite_wf (canaryLimit_wf h) h
theorem execCanaryIntervalEnd_wf {place : CanaryAt} {hits : Nat} (h : StoresWf s) : OutWf (execCanaryIntervalEnd die place hits s) :=
  powerDo_wf h (ite_wf (canaryEnd_wf h) h)
theorem ageingWrite_wf (h : StoresWf s) : StoresWf (ageingWrite s flashOk) := by
  unfold ageingWrite
  split
  · exact h
  · exact ite_wf (ageAppend_wf h) (report_kept wf_kept h)
theorem execAgeingLogWrite_wf (h : StoresWf s) : OutWf (execAgeingLogWrite flashOk s) := next_wf (ite_wf (ageingWrite_wf h) h)
theorem gateRegs_wf (h : StoresWf s) : StoresWf (gateRegs s d b) := foldl_wf (fun _ _ h => setReg_kept wf_kept h) h
theorem gateOff_wf (h : StoresWf s) : StoresWf (gateOff s d b u) := by
  unfold gateOff
  split
  · exact modSpar_wf (sparClear_wf (gateRegs_wf h))
  · exact noEngine_wf (modXf_kept wf_kept h)
  · exact noEngine_wf (modXf_kept wf_kept h)
  · exact h
theorem gateOn_wf (h : StoresWf s) : StoresWf (gateOn s d b u) := by
  unfold gateOn
  split
  · exact modSpar_wf h
  · exact modXf_kept wf_kept h
  · exact modXf_kept wf_kept h
  · exact h
theorem gateRun_wf {off : Bool} (h : StoresWf s) : StoresWf (gateRun s d b u off src) :=
  ite_wf (evRaise_kept wf_kept (count_kept wf_kept (setReg_kept wf_kept h)))
    (ite_wf (setReg_kept wf_kept h) (ite_wf (gateOff_wf (setReg_kept wf_kept h)) (gateOn_wf (setReg_kept wf_kept h))))
theorem gateCommand_wf {off : Bool} (h : StoresWf s) : StoresWf (gateCommand s d b u off src) :=
  startCmd_wf h (fun _ h => setReg_kept wf_kept h) (fun _ h => gateRun_wf h)
theorem execGatePowerOff_wf {unit : BitVec 2} (h : StoresWf s) : OutWf (execGatePowerOff die blk unit src s) := regDo_wf h (gateCommand_wf h)
theorem execGatePowerOn_wf {unit : BitVec 2} (h : StoresWf s) : OutWf (execGatePowerOn die blk unit src s) := regDo_wf h (gateCommand_wf h)
theorem alignTimes_wf (h : StoresWf s) : StoresWf (alignTimes s) :=
  foldl_wf (fun _ _ h => modDie_wf (setReg_kept wf_kept (takeFree_kept wf_kept h))) (takeFree_kept wf_kept h)
theorem execTimebaseAlignment_wf (h : StoresWf s) : OutWf (execTimebaseAlignment s) := next_wf (ite_wf (alignTimes_wf h) h)
theorem powerReport_wf {r : DetReport} (h : StoresWf s) : StoresWf (powerReport s r) := by
  refine ite_wf ?_ ?_
  · exact stopHv_wf (report_kept wf_kept h)
  · refine ite_wf ?_ ?_
    · exact thermTrip_wf h
    · refine ite_wf ?_ ?_
      · exact sensorOut_wf h
      · split
        · exact canaryLimit_wf h
        · exact report_kept wf_kept h
theorem detection_wf {r : DetReport} (h : StoresWf s) : StoresWf (detection s r) := by
  refine ite_wf ?_ ?_
  · exact h
  · refine ite_wf ?_ ?_
    · exact h
    · extract_lets +onlyGivenNames s'
      split
      · exact wireReport_wf (ite_wf (injUse_kept wf_kept h) h)
      · exact ite_wf (powerReport_wf (ite_wf (injUse_kept wf_kept h) h)) (ite_wf (peReport_wf (ite_wf (injUse_kept wf_kept h) h))
          (unitReport_wf (ite_wf (injUse_kept wf_kept h) h)))
      · exact ite_wf (powerReport_wf (ite_wf (injUse_kept wf_kept h) h)) (unitReport_wf (ite_wf (injUse_kept wf_kept h) h))
theorem execFaultDetection_wf {report : DetReport} (h : StoresWf s) : OutWf (execFaultDetection report s) := powerDo_wf h (detection_wf h)
theorem showSet_wf {a1 : Option ImgSet} (h : StoresWf s) : StoresWf (showSet s a1) := by
  unfold showSet
  split
  · exact foldl_wf (fun _ _ h1 => setReg_kept wf_kept h1) (setReg_kept wf_kept h)
  · exact foldl_wf (fun _ _ h1 => setReg_kept wf_kept h1) (setReg_kept wf_kept h)
theorem showSlots_wf (h : StoresWf s) : StoresWf (showSlots s) := setReg_kept wf_kept h
theorem flashJob_wf {j : FlashJob} (h : StoresWf s) : StoresWf (flashJob s j) := h
theorem commitAppend_wf {live : Bool} {ver : Nat} (h : StoresWf s) : StoresWf (commitAppend s k live ver) := by
  unfold commitAppend
  extract_lets put f
  have hput (t : State) (blk seq : Nat) (r : CommitRec) (ht : StoresWf t) : StoresWf (put t blk seq r) :=
    elim_of_wf (flashJob_wf (flProgram_wf (flErase_wf ht))) fun _ => flashJob_wf (flProgram_wf ht)
  exact elim_of_wf (hput _ _ _ _ (of_snd (takeFree_kept wf_kept h))) fun x => hput _ _ _ _ h
theorem updEnd_wf {err info : Nat} (h : StoresWf s) : StoresWf (updEnd s err info) :=
  ite_wf (setF_kept wf_kept h) (report_kept wf_kept (setF_kept wf_kept h))
theorem unprogram_wf (h : StoresWf s) : StoresWf (unprogram s k) := h
theorem setChecked_wf {c : Option (Nat × Nat)} (h : StoresWf s) : StoresWf { s with mst := { s.mst with checked := c } } := h
theorem updCheck_wf (h : StoresWf s) : StoresWf (updCheck s) := by
  conv in updCheck => delta updCheck
  extract_lets +onlyGivenNames rd m t
  have ht : StoresWf t := h
  clear_value rd t
  split
  · exact updEnd_wf (hwPoison_kept wf_kept ht)
  · extract_lets +onlyGivenNames u
    have hu : StoresWf u := unitRead_kept wf_kept ht
    clear_value u
    refine ite_wf (updEnd_wf hu) ?_
    extract_lets +onlyGivenNames n
    clear_value n
    exact ite_wf (updEnd_wf (setChecked_wf hu)) (updEnd_wf hu)
theorem updInval_wf (h : StoresWf s) : StoresWf (updInval s k flashOk) :=
  ite_wf (updEnd_wf (unprogram_wf h)) (ite_wf (updEnd_wf (unprogram_wf h))
    (ite_wf (updEnd_wf (unprogram_wf h)) (updEnd_wf (showSlots_wf (commitAppend_wf (unprogram_wf h))))))
theorem updErase_wf (h : StoresWf s) : StoresWf (updErase s k flashOk) :=
  ite_wf (updEnd_wf (unprogram_wf h)) (ite_wf (updEnd_wf (unprogram_wf h))
    (ite_wf (updEnd_wf (unprogram_wf h)) (updEnd_wf (flashJob_wf (flErase_wf (unprogram_wf h))))))
theorem updProgram_wf (h : StoresWf s) : StoresWf (updProgram s k flashOk) :=
  ite_wf (updEnd_wf (unprogram_wf h)) (ite_wf (updEnd_wf (unprogram_wf h))
    (ite_wf (updEnd_wf (unprogram_wf h)) (updEnd_wf (flashJob_wf (upd_wf rfl rfl (flProgram_wf (unitRead_kept wf_kept (unprogram_wf h))))))))
theorem updCommit_wf (h : StoresWf s) : StoresWf (updCommit s k flashOk) :=
  ite_wf (updEnd_wf (unprogram_wf h)) (ite_wf (updEnd_wf (unprogram_wf h))
    (ite_wf (updEnd_wf (unprogram_wf h)) (updEnd_wf (showSlots_wf (commitAppend_wf (unprogram_wf h))))))
theorem updJreport_wf (h : StoresWf s) : StoresWf (updJreport s d) := ite_wf (updEnd_wf h) (updEnd_wf (stores_wf h))
theorem updRun_wf (h : StoresWf s) : StoresWf (updRun s v flashOk) := by
  unfold updRun
  extract_lets +onlyGivenNames k
  split
  · exact updCheck_wf h
  · exact updInval_wf h
  · exact updErase_wf h
  · exact updProgram_wf h
  · exact updCommit_wf h
  · exact updJreport_wf h
  · exact h
theorem updCommand_wf (h : StoresWf s) : StoresWf (updCommand s v flashOk) :=
  ite_wf (startCmd_wf h (fun _ h => setF_kept wf_kept (setF_kept wf_kept (setF_kept wf_kept h))) (fun _ h => updRun_wf (upd_wf rfl rfl h)))
    (setF_kept wf_kept (setF_kept wf_kept (setF_kept wf_kept h)))
theorem updGo_wf {cmd slot : Nat} (h : StoresWf s) : OutWf (updGo s cmd slot die flashOk) := regDo_wf h (updCommand_wf h)
theorem execMstCheck_wf (h : StoresWf s) : OutWf (execMstCheck s) := updGo_wf h
theorem execMstInval_wf (h : StoresWf s) : OutWf (execMstInval slot flashOk s) := updGo_wf h
theorem execMstErase_wf (h : StoresWf s) : OutWf (execMstErase slot flashOk s) := updGo_wf h
theorem execMstProgram_wf (h : StoresWf s) : OutWf (execMstProgram slot flashOk s) := updGo_wf h
theorem execMstCommit_wf (h : StoresWf s) : OutWf (execMstCommit slot flashOk s) := updGo_wf h
theorem execJreport_wf {target : BitVec 3} (h : StoresWf s) : OutWf (execJreport target s) := updGo_wf h
theorem updData_wf (h : StoresWf s) : StoresWf (updData s v) := upd_wf rfl rfl (store_kept wf_kept h)
theorem updAddrLo_wf (h : StoresWf s) : StoresWf (updAddrLo s v) := upd_wf rfl rfl h
theorem execMstUpddataWrite_wf (h : StoresWf s) : OutWf (execMstUpddataWrite value s) := regDo_wf h (updData_wf h)
theorem execMstUpdaddrLoWrite_wf (h : StoresWf s) : OutWf (execMstUpdaddrLoWrite value s) := regDo_wf h (updAddrLo_wf h)
theorem fusGo_wf {target arg : Nat} (h : StoresWf s) : StoresWf (fusGo s target arg) := by
  unfold fusGo
  split
  · refine ite_wf ?_ (reject_wf h)
    extract_lets +onlyGivenNames m t
    have ht : StoresWf t := h
    split
    · have hb : StoresWf (cmdBegin t 0 bFus rFusProg 0) := cmdBegin_wf ht
      exact setF_kept wf_kept hb
    · exact setF_kept wf_kept ht
  · exact reject_wf h
theorem fusCommand_wf (h : StoresWf s) : StoresWf (fusCommand s v) :=
  ite_wf (upd_wf rfl rfl (ite_wf (fusGo_wf (setF_kept wf_kept (setF_kept wf_kept h))) (setF_kept wf_kept (setF_kept wf_kept h))))
    (ite_wf (fusGo_wf (setF_kept wf_kept (setF_kept wf_kept h))) (setF_kept wf_kept (setF_kept wf_kept h)))
theorem execFusArm_wf {target : BitVec 4} {arg : BitVec 3} (h : StoresWf s) : OutWf (execFusArm target arg s) := regDo_wf h (fusCommand_wf h)
theorem execFusGo_wf {target : BitVec 4} {arg : BitVec 3} (h : StoresWf s) : OutWf (execFusGo target arg s) := regDo_wf h (fusCommand_wf h)
theorem readEvsrc_wf (h : StoresWf s) : SndWf (readEvsrc s c) := by
  unfold readEvsrc
  extract_lets +onlyGivenNames shut
  split
  · exact snd_mk_wf h
  · exact snd_mk_wf (modSup_kept wf_kept (setEv_kept wf_kept h))
theorem readSpr_wf (h : StoresWf s) : SndWf (readSpr s c n) :=
  ite_wf (snd_mk_wf h) (ite_wf (snd_mk_wf h) (ite_wf (readEvsrc_wf h) (ite_wf (takeFree_kept wf_kept h) (ite_wf (snd_mk_wf h) (snd_mk_wf h)))))
theorem writeEvdone_wf {v : Word} (h : StoresWf s) : StoresWf (writeEvdone s c v) := ite_wf (completeSource_wf h) (count_kept wf_kept h)
theorem writeBpctl_wf {v : Word} (h : StoresWf s) : StoresWf (writeBpctl s c v) := ite_wf (bpFlush_wf (setSpr_wf h)) (setSpr_wf h)
theorem writeStatus_wf {v : Word} (h : StoresWf s) : StoresWf (writeStatus s c v) := setSpr_wf h
theorem writeSpr_wf {v : Word} (h : StoresWf s) : StoresWf (writeSpr s c n v) :=
  ite_wf (writeStatus_wf h) (ite_wf (setSpr_wf h) (ite_wf (setSpr_wf h) (ite_wf h
    (ite_wf (writeBpctl_wf h) (ite_wf (setSpr_wf h) (ite_wf (writeEvdone_wf h)
    (ite_wf (setSpr_wf h) (ite_wf (setSpr_wf h) (ite_wf (setSpr_wf h) (setSpr_wf h))))))))))
theorem sprAccess_wf {body : Nat → State → Res} {a2 : Hart} {a3 : State} (hbody : ∀ x0 x1, StoresWf x1 → ResWf (body x0 x1)) (h : StoresWf a3) :
    ResWf (sprAccess n body a2 a3) :=
  privileged_wf (fun _ _ h => ite_wf (illegal_wf h) (ite_wf h (hbody _ _ h))) h
theorem sprdOp_wf {hart : Hart} (h : StoresWf s) : ResWf (sprdOp rd rs1 rs2 n hart s) :=
  ite_wf (illegal_wf h) (sprAccess_wf (fun _ _ h => setD_wf (readSpr_wf h)) h)
theorem spwrOp_wf {hart : Hart} (h : StoresWf s) : ResWf (spwrOp rd rs1 rs2 n hart s) :=
  ite_wf (illegal_wf h) (sprAccess_wf (fun _ _ h => writeSpr_wf h) h)
theorem execSprd_wf {num : BitVec 7} (h : StoresWf s) : OutWf (execSprd core rd rs1 rs2 num s) := instrDo_wf (fun _ _ h => sprdOp_wf h) h
theorem execSpwr_wf {num : BitVec 7} (h : StoresWf s) : OutWf (execSpwr core rd rs1 rs2 num s) := instrDo_wf (fun _ _ h => spwrOp_wf h) h
theorem execEvsrcRead_wf (h : StoresWf s) : OutWf (execEvsrcRead core rd rs1 rs2 s) := instrDo_wf (fun _ _ h => sprdOp_wf h) h
theorem execEvdoneWrite_wf (h : StoresWf s) : OutWf (execEvdoneWrite core rd rs1 rs2 s) := instrDo_wf (fun _ _ h => spwrOp_wf h) h
theorem execBpctlFlush_wf (h : StoresWf s) : OutWf (execBpctlFlush core rd rs1 rs2 s) := instrDo_wf (fun _ _ h => spwrOp_wf h) h
theorem execXlinv_wf (h : StoresWf s) : OutWf (execXlinv core rd rs1 rs2 s) :=
  instrDo_wf (fun _ _ h => ite_wf (illegal_wf h) (privileged_wf (fun _ _ h1 => h1) h)) h
theorem regRead_wf (h : StoresWf s) : SndWf (regRead s d b w) := ite_wf (snd_mk_wf (takeFree_kept wf_kept h)) (snd_mk_wf h)
theorem freeReads_wf (h : StoresWf s) : SndWf (freeReads n s) := by
  induction n generalizing s with
  | zero => exact h
  | succ n ih => exact ih (takeFree_kept wf_kept h)
theorem clearCounts_wf {p : Nat} (h : StoresWf s) : StoresWf (clearCounts s d b w p) := by
  unfold clearCounts
  split
  · exact h
  · exact foldl_wf (fun _ _ h1 => ite_wf (setReg_kept wf_kept h1) h1) h
theorem whenOn_wf (hs : StoresWf s) (ht : StoresWf t) : StoresWf (whenOn s d b t) := ite_wf ht hs
theorem whenLive_wf (hs : StoresWf s) (ht : StoresWf t) : StoresWf (whenLive s d t) := ite_wf ht hs
theorem schPulse_wf (h : StoresWf s) : StoresWf (schPulse s d w v) :=
  ite_wf (ite_wf (invCc_wf (ite_wf (invPmt_wf h) h)) (ite_wf (invPmt_wf h) h))
    (ite_wf (pstCommand_wf h) (ite_wf (pptCommand_wf h) (ite_wf (pxtBusy_wf h
    (fun _ h => ite_wf (pxtInv_wf h) (ite_wf (create_wf h) (ite_wf (destroy_wf h) h)))) h)))
theorem hxpPulse_wf (h : StoresWf s) : StoresWf (hxpPulse s d w v) := ite_wf (scmdGo_wf h) (ite_wf (rawTx_wf h) h)
theorem mdrPulse_wf (h : StoresWf s) : StoresWf (mdrPulse s d w v) :=
  ite_wf (logAck_wf h) (ite_wf (whenLive_wf h (pairCommand_wf h)) (ite_wf (whenLive_wf h (wdrawCommand_wf h))
    (ite_wf (whenLive_wf h (injCommand_wf h)) h)))
theorem prtPulse_wf (h : StoresWf s) : StoresWf (prtPulse s w v) := by
  have hm {t : State} {p : Nat} {b c : Bool} (ht : StoresWf t) : StoresWf (if c then mailAck t p b else t) := ite_wf (mailAck_wf ht) ht
  have hg {t : State} {p : Nat} {b c : Bool} (ht : StoresWf t) : StoresWf (if c then mailGo t p b else t) := ite_wf (mailGo_wf ht) ht
  have hb {t : State} {p : Nat} {b c : Bool} (ht : StoresWf t) : StoresWf (if c then ringBell t p b else t) := ite_wf (ringBell_wf ht) ht
  exact ite_wf (hg (hm (hg (hm h)))) (ite_wf (hb (hb h)) h)
theorem umbPulse_wf (h : StoresWf s) : StoresWf (umbPulse s d v) := by
  unfold umbPulse
  split
  · exact sampleNow_wf (freeReads_wf h)
  · exact replanNow_wf h
  · exact umbGo_wf h (fun _ h1 => h1)
theorem blkPulse_wf (h : StoresWf s) : StoresWf (blkPulse s d b w v src) := by
  unfold blkPulse
  split
  · exact ite_wf (whenLive_wf h (evSoft_wf h)) (ite_wf (whenLive_wf h (completeSource_wf h)) h)
  · exact ite_wf (ite_wf (idrAck_wf h) h) (ite_wf (whenLive_wf h (uloadGo_wf h)) h)
  · exact ite_wf (whenOn_wf h (pttCommand_wf h)) h
  · exact ite_wf (whenOn_wf h (kvCommand_wf h)) h
  · exact ite_wf (l1dInvalidate_wf h) h
  · exact ite_wf (updCommand_wf (takeFree_kept wf_kept h)) h
  · exact ite_wf (fusCommand_wf h) h
  · exact ite_wf (gateCommand_wf h) (ite_wf (tamperClear_wf h) h)
  · exact ite_wf (umbPulse_wf h) h
  · exact whenOn_wf h (schPulse_wf h)
  · exact whenOn_wf h (hxpPulse_wf h)
  · exact whenOn_wf h (prtPulse_wf h)
  · exact mdrPulse_wf h
  · exact h
theorem pulse_wf {p : Nat} (h : StoresWf s) : StoresWf (pulse s d b w v p src) := blkPulse_wf (clearCounts_wf h)
theorem markSide_wf (h : StoresWf s) : StoresWf (markSide s d b w) := by
  unfold markSide
  extract_lets +onlyGivenNames hi lo
  split
  · exact ite_wf (modSpar_wf h) (ite_wf (modSpar_wf h) (ite_wf (modSpar_wf h) h))
  · exact ite_wf (modDie_wf h) h
  · exact ite_wf (modDie_wf h) (ite_wf (modDie_wf h) h)
  · exact h
theorem cfgWrite_wf {m : Nat} (h : StoresWf s) : StoresWf (cfgWrite s d w v m) := by
  unfold cfgWrite
  extract_lets +onlyGivenNames k late type en t u x
  have ht : StoresWf t := ite_wf (modDie_wf h) h
  have hu : StoresWf u := ite_wf (modDie_wf ht) ht
  exact ite_wf (setReg_kept wf_kept (setReg_kept wf_kept hu)) (setReg_kept wf_kept hu)
theorem fieldWrite_wf {m : Nat} (h : StoresWf s) : StoresWf (fieldWrite s d b w v m) :=
  ite_wf (markSide_wf (setReg_kept wf_kept h)) (ite_wf (writeCoreEn_wf h) (ite_wf (setReg_kept wf_kept h)
    (ite_wf (cfgWrite_wf h) (ite_wf h (ite_wf (rtcWrite_wf h) (ite_wf (setReg_kept wf_kept (setReg_kept wf_kept h))
    (ite_wf (updAddrLo_wf h) (ite_wf (updData_wf h) (setReg_kept wf_kept h)))))))))
theorem takeFields_wf {mask : Nat} {r : RegRow} (h : StoresWf s) : StoresWf (takeFields s d b w v mask r) :=
  ite_wf (ite_wf (reject_wf h) h) (ite_wf (count_kept wf_kept (ite_wf (reject_wf h) h))
    (ite_wf (parityWrite_wf (setHeld_wf (ite_wf (ite_wf (reject_wf h) h) (fieldWrite_wf (ite_wf (reject_wf h) h)))))
    (parityWrite_wf (fieldWrite_wf (ite_wf (reject_wf h) h)))))
theorem countOnce_wf (hs : StoresWf s) (ht : StoresWf t) : StoresWf (countOnce s t d b) := ite_wf (setReg_kept wf_kept ht) ht
theorem regWrite_wf {mask : Nat} (h : StoresWf s) : StoresWf (regWrite s d b w v mask src) := by
  unfold regWrite
  split
  · exact h
  · exact ite_wf (reject_wf h) (ite_wf (reject_wf h) (ite_wf (writeBlkCtl_wf h)
      (ite_wf (takeFields_wf h) (countOnce_wf h (pulse_wf (takeFields_wf h))))))
theorem csrRead_wf (h : StoresWf s) : SndWf (csrRead s src i).2 := by
  unfold csrRead
  split
  · exact regRead_wf h
  · exact busCount_wf h
  · exact h
theorem csrWrite_wf (h : StoresWf s) : SndWf (csrWrite s src i v) := by
  unfold csrWrite
  split
  · exact snd_mk_wf (ite_wf (regWrite_wf h) (regWrite_wf h))
  · exact snd_mk_wf (busCount_wf h)
  · exact snd_mk_wf h
theorem csrTrap_wf (h : StoresWf s) : ResWf (csrTrap s k) := h
theorem csrrdOp_wf (h : StoresWf s) : ResWf (csrrdOp rd i c s) := ite_wf (P := ResWf) (setD_wf (csrRead_wf h)) (csrTrap_wf (csrRead_wf h))
theorem csrwrOp_wf (h : StoresWf s) : ResWf (csrwrOp i v c s) := ite_wf (csrWrite_wf h) (csrTrap_wf (csrWrite_wf h))
theorem execCsrrd_wf {op : CsrForm} (h : StoresWf s) : OutWf (execCsrrd core op s) := by
  unfold execCsrrd
  split
  · exact instrDo_wf (fun _ _ h1 => ite_wf (illegal_wf h1) (privileged_wf (fun _ _ h2 => csrrdOp_wf h2) h1)) h
  · exact instrDo_wf (fun _ _ h1 => ite_wf (illegal_wf h1) (privileged_wf (fun _ _ h2 => csrrdOp_wf h2) h1)) h
theorem execCsrwr_wf {op : CsrForm} (h : StoresWf s) : OutWf (execCsrwr core op s) := by
  unfold execCsrwr
  split
  · exact instrDo_wf (fun _ _ h1 => ite_wf (illegal_wf h1) (privileged_wf (fun _ _ h2 => csrwrOp_wf h2) h1)) h
  · exact instrDo_wf (fun _ _ h1 => ite_wf (illegal_wf h1) (privileged_wf (fun _ _ h2 => csrwrOp_wf h2) h1)) h
theorem execCounterClear_wf {word : BitVec 20} (h : StoresWf s) : OutWf (execCounterClear die blk word value s) := next_wf (ite_wf (csrWrite_wf h) h)
theorem execWatermarkWrite_wf {word : BitVec 20} (h : StoresWf s) : OutWf (execWatermarkWrite die blk word value s) :=
  next_wf (ite_wf (csrWrite_wf h) h)
theorem execRegisterWrite_wf {idx value : BitVec 32} (h : StoresWf s) : OutWf (execRegisterWrite idx value src s) := next_wf (csrWrite_wf h)

end Sys2Proof.Machine
end

section
/-! SUPPORT. The start, the ports and the sequencers keep the stores (log entry 2). -/

namespace Sys2Proof.Machine

variable {s : State} {i : StartInputs} {x : ImgSet} {d level n : Nat} {flashOk : Bool} {l : List Bool} {r : BootRec} {p port : PortId}
  {w : BitVec 32}

theorem resetPart_wf (h : StoresWf s) : StoresWf (resetPart s) := upd_wf (s := cutJobs s) rfl rfl (cutJobs_wf h)
theorem execResetNAssert_wf (h : StoresWf s) : OutWf (execResetNAssert s) := next_wf (ite_wf (ite_wf h (resetPart_wf h)) h)
theorem readFuses_wf (h : StoresWf s) : StoresWf (readFuses s) := upd_wf rfl rfl (foldl_wf (fun _ _ h => report_kept wf_kept h) h)
theorem excludeSlot_wf {k det : Nat} (h : StoresWf s) : StoresWf (excludeSlot s k det) := report_kept wf_kept (countF_kept wf_kept h)
theorem copySet_wf (h : StoresWf s) : StoresWf (copySet s i x) := foldl_wf (fun _ _ h => elim_of_wf h (fun _ => stores_wf h)) h
theorem failSlot_wf {rd : Nat → Nat} {k : Nat} (h : StoresWf s) : StoresWf (failSlot s rd k) := excludeSlot_wf h
theorem pickMhf_wf (h : StoresWf s) : SndWf (pickMhf n s) := by
  induction n generalizing s with
  | zero => exact h
  | succ n ih =>
    unfold pickMhf
    split
    · exact h
    · exact ite_wf (P := SndWf) h (ih (failSlot_wf h))
theorem pickSet_wf (h : StoresWf s) : SndWf (pickSet i n s) := by
  induction n generalizing s with
  | zero => exact h
  | succ n ih =>
    have e : pickSet i (n + 1) s = match bestSet s with
    | none => (none, s)
    | some x => match x.slots.find? fun k => slotCheck (copySet s i x) (copyRd (copySet s i x) i x k) k != 0 with
      | none => (some x, copySet s i x)
      | some k => pickSet i n (failSlot (copySet s i x) (copyRd (copySet s i x) i x k) k) := rfl
    rw [e]
    split
    · exact h
    · split
      · exact copySet_wf h
      · exact ih (failSlot_wf (copySet_wf h))
theorem headerFaults_wf (h : StoresWf s) : StoresWf (headerFaults s) := foldl_wf (fun _ _ h => ite_wf (report_kept wf_kept h) h) h
theorem showChoice_wf {x : Option ImgSet} {first : Bool} (h : StoresWf s) : StoresWf (showChoice s x first) :=
  showSlots_wf (showSet_wf (ite_wf (report_kept wf_kept h) h))
theorem noFlash_wf (h : StoresWf s) : StoresWf (noFlash s) := setReg_kept wf_kept (report_kept wf_kept (report_kept wf_kept h))
theorem startUp_wf {straps : BitVec 18} (h : StoresWf s) : StoresWf (startUp s flashOk straps) :=
  setStep_wf (ite_wf (showChoice_wf (pickMhf_wf (headerFaults_wf (readFuses_wf h)))) (noFlash_wf (readFuses_wf h)))
theorem execResetNDeassert_wf {straps : BitVec 18} (h : StoresWf s) : OutWf (execResetNDeassert flashOk straps s) := next_wf (ite_wf (startUp_wf h) h)
theorem execPowerReturnReset_wf (h : StoresWf s) : OutWf (execPowerReturnReset flashOk s) := next_wf (ite_wf (startUp_wf (resetPart_wf h)) h)
theorem raiseDie_wf (h : StoresWf s) : StoresWf (raiseDie s d) :=
  ite_wf (setF_kept wf_kept (setRails_wf (setReg_kept wf_kept h))) (setRails_wf (setReg_kept wf_kept h))
theorem takeBase_wf (h : StoresWf s) : StoresWf (takeBase s i d) := by
  unfold takeBase
  extract_lets l put
  have hput (v : List Nat) : StoresWf (put s v) := foldl_wf (fun _ _ ht => setF_kept wf_kept ht) h
  exact elim_of_wf (ageWant_wf (hput l)) fun r => hput r.mon
theorem raiseRails_wf (h : StoresWf s) : StoresWf (raiseRails s) :=
  ite_wf (ageWant_wf (report_kept wf_kept (foldl_wf (fun _ _ h => raiseDie_wf h) h))) (foldl_wf (fun _ _ h => raiseDie_wf h) h)
theorem testDies_wf (h : StoresWf s) : StoresWf (testDies s i) :=
  setF_kept wf_kept (setReg_kept wf_kept (foldl_wf (fun _ _ h => takeBase_wf h) (alignTimes_wf (foldl_wf (fun _ _ h => setF_kept wf_kept h) h))))
theorem mapPes_wf {g : Nat} (h : StoresWf s) : StoresWf (mapPes s i g) :=
  foldl_wf (fun _ _ h => setF_kept wf_kept h) (foldl_wf (fun _ _ h => setSlotPe_wf h) h)
theorem mapPairs_wf (h : StoresWf s) : StoresWf (mapPairs s i d) :=
  foldl_wf (fun _ _ h => setPairStat_wf h) (foldl_wf (fun _ _ h => setPairOf_wf h) h)
theorem mapDies_wf (h : StoresWf s) : StoresWf (mapDies s i) := foldl_wf (fun _ _ h => mapPairs_wf (foldl_wf (fun _ _ h1 => mapPes_wf h1) h)) h
theorem leaveOut_wf (h : StoresWf s) : StoresWf (leaveOut s i level) :=
  foldl_wf (fun _ _ h => ite_wf (modDie_wf h) (ite_wf h (reportAt0_wf (modDie_wf h)))) h
theorem applyRegs_wf {l : List (Nat × Nat × Nat × Nat)} (h : StoresWf s) : StoresWf (applyRegs s l) :=
  foldl_wf (fun _ _ h => foldl_wf (fun _ _ h1 => ite_wf h1 (regWrite_wf h1)) h) h
theorem setTopsail_wf (h : StoresWf s) : StoresWf (setTopsail s i) := foldl_wf (fun _ _ h => foldl_wf (by
    intro _ _ h1
    extract_lets +onlyGivenNames g s'
    split
    · exact setF_kept wf_kept (setSlotPe_wf (setF_kept wf_kept h1))
    · exact setF_kept wf_kept h1) h) h
theorem applyModes_wf (h : StoresWf s) : StoresWf (applyModes s i r) :=
  foldl_wf (fun _ _ h => modDie_wf (setF_kept wf_kept h)) (ite_wf (setTopsail_wf
    (ite_wf (setF_kept wf_kept (setF_kept wf_kept h)) (setF_kept wf_kept h)))
    (ite_wf (setF_kept wf_kept (setF_kept wf_kept h)) (setF_kept wf_kept h)))
theorem fillShadow_wf (h : StoresWf s) : StoresWf (fillShadow s i x) := stores_wf (stores_wf h)
theorem configure_wf (h : StoresWf s) : ExcWf (configure s i x) :=
  ite_wf error_wf (ite_wf error_wf (ok_wf (reefChange_wf (uload_wf (fillShadow_wf (applyModes_wf (applyRegs_wf h)))))))
theorem configLoop_wf (h : StoresWf s) : SndWf (configLoop i n s) := by
  induction n generalizing s with
  | zero => exact h
  | succ n ih =>
    unfold configLoop
    dsimp only
    split
    · exact pickSet_wf h
    · split
      next t ht => exact configure_wf (pickSet_wf h) t ht
      · exact ih (excludeSlot_wf (pickSet_wf h))
theorem findDevices_wf {ledgerOk bare : Bool} (h : StoresWf s) : StoresWf (findDevices s r ledgerOk bare) :=
  foldl_wf (fun _ _ h => modChan_wf h) (foldl_wf (fun _ _ h => ite_wf h (nvSetup_wf h)) h)
theorem enableBlocks_wf {bare : Bool} (h : StoresWf s) : StoresWf (enableBlocks s bare) :=
  foldl_wf (fun _ _ h => setF_kept wf_kept (foldl_wf (fun _ _ h1 => blkEnable_wf h1) h)) h
theorem openPlaces_wf {m : Nat} {l : List Nat} (h : StoresWf s) : SndWf (openPlaces m l s) := by
  induction m generalizing l s with
  | zero => exact h
  | succ m ih => exact ih (takeFree_kept wf_kept h)
theorem startBlock_wf (h : StoresWf s) : SndWf (startBlock s i x) := snd_mk_wf (openPlaces_wf (freeWords_wf h))
theorem writeVbars_wf (h : StoresWf s) : StoresWf (writeVbars s r) := foldl_wf (fun _ _ h => setSpr_wf h) h
theorem releaseCores_wf (h : StoresWf s) : StoresWf (releaseCores s level) :=
  setStep_wf (setLevel_wf (upd_wf rfl rfl (foldl_wf (fun _ _ h => startCore_wf h) h)))
theorem finishStart_wf (h : StoresWf s) : StoresWf (finishStart s i x level) := by
  unfold finishStart
  extract_lets r t f u p v
  have hf : StoresWf f.2 := of_snd (startBlock_wf (enableBlocks_wf (findDevices_wf h)))
  have hu : StoresWf u := writeVbars_wf (stores_wf hf)
  have hv : StoresWf v := hu
  exact ite_wf (setStep_wf hv) (releaseCores_wf hv)
theorem bareNoSet_wf (h : StoresWf s) : StoresWf (bareNoSet s i) := setLevel_wf (setStep_wf (leaveOut_wf h))
theorem noStart_wf (h : StoresWf s) : StoresWf (noStart s) := setLevel_wf (setStep_wf (report_kept wf_kept h))
theorem stepTen_wf (h : StoresWf s) : SndWf (stepTen s i) := ite_wf (pickSet_wf h) (snd_mk_wf h)
theorem bringUp_wf (h : StoresWf s) : StoresWf (bringUp s i) := by
  unfold bringUp
  extract_lets +onlyGivenNames t p u level
  have ht : StoresWf t := testDies_wf (raiseRails_wf h)
  have hu : StoresWf u := mapDies_wf (ite_wf (showChoice_wf (of_snd (P := StoresWf) (stepTen_wf ht))) ht)
  refine ite_wf (noStart_wf hu) (ite_wf (bareNoSet_wf hu) ?_)
  extract_lets +onlyGivenNames q
  have hq : StoresWf q.2 := of_snd (P := StoresWf) (configLoop_wf (leaveOut_wf hu))
  clear_value q
  split
  · exact bareNoSet_wf (showChoice_wf hq)
  · exact finishStart_wf (showChoice_wf hq)
theorem atStep_wf (h : StoresWf s) : StoresWf (atStep s i n) := by
  unfold atStep
  extract_lets +onlyGivenNames t u v
  have hu : StoresWf u := ite_wf (raiseRails_wf h) (testDies_wf (raiseRails_wf h))
  have hv : StoresWf v := ite_wf hu (stepTen_wf hu)
  exact setStep_wf (ite_wf hv (configLoop_wf (leaveOut_wf (mapDies_wf hv))))
theorem goOn_wf (h : StoresWf s) : StoresWf (goOn s i) := by
  unfold goOn
  split
  · exact bringUp_wf h
  · exact backToFive_wf (upd_wf rfl rfl (atStep_wf h))
  · exact ite_wf (detection_wf (atStep_wf h)) (bringUp_wf h)
theorem execPwrokAssert_wf {inputs : StartInputs} (h : StoresWf s) : OutWf (execPwrokAssert inputs s) := next_wf (ite_wf (goOn_wf h) h)
theorem execJournalReplay_wf {redrives : List Redrive} (h : StoresWf s) : OutWf (execJournalReplay redrives s) := next_wf (by
    refine ite_wf ?_ ?_
    · split
      next t ht => exact releaseCores_wf (of_some (journalReplay_wf h) ht)
      · exact h
    · exact h)
theorem modPort_wf {f : Port → Port} (h : StoresWf s) : StoresWf (modPort s p f) := by
  unfold modPort
  split
  · exact h
  · exact h
theorem portCount_wf (h : StoresWf s) : StoresWf (portCount s n) := h
theorem showStatus_wf (h : StoresWf s) : StoresWf (showStatus s p) := modPort_wf h
theorem discardWord_wf (h : StoresWf s) : StoresWf (discardWord s p n) := evRaise_kept wf_kept (showStatus_wf (modPort_wf (portCount_wf h)))
theorem seqError_wf (h : StoresWf s) : StoresWf (seqError s) := portCount_wf h
theorem portClear_wf {mask : Nat} (h : StoresWf s) : StoresWf (portClear s mask) := h
theorem acceptCommand_wf {w : Nat} (h : StoresWf s) : StoresWf (acceptCommand s p w) := by
  unfold acceptCommand
  extract_lets +onlyGivenNames idle rest plain
  split
  · exact showStatus_wf (modPort_wf (ite_wf (modPort_wf h) (seqError_wf h)))
  · exact showStatus_wf (modPort_wf (ite_wf (modPort_wf h) (seqError_wf h)))
  · exact showStatus_wf (modPort_wf (ite_wf h (seqError_wf h)))
  · exact ite_wf (modPort_wf h) (showStatus_wf (modPort_wf (seqError_wf h)))
  · exact ite_wf (modPort_wf h) (showStatus_wf (modPort_wf (seqError_wf h)))
  · exact showStatus_wf (modPort_wf (ite_wf (portClear_wf h) (seqError_wf h)))
  · exact showStatus_wf (modPort_wf (seqError_wf h))
theorem acceptWord_wf (h : StoresWf s) : StoresWf (acceptWord s p w) := by
  unfold acceptWord
  extract_lets +onlyGivenNames start
  split
  · exact acceptCommand_wf h
  · exact showStatus_wf (modPort_wf h)
  · exact showStatus_wf (modPort_wf h)
  · exact showStatus_wf (modPort_wf h)
theorem endAccess_wf {result : Nat} {data : Option (BitVec 32)} (h : StoresWf s) : StoresWf (endAccess s p result data) :=
  ite_wf (evRaise_kept wf_kept (ite_wf (modPort_wf h) (showStatus_wf (modPort_wf h)))) (ite_wf (modPort_wf h) (showStatus_wf (modPort_wf h)))
theorem portAccess_wf {timeout : Bool} (h : StoresWf s) : StoresWf (portAccess s p timeout) := by
  unfold portAccess
  split
  · exact h
  · refine ite_wf (endAccess_wf h) (ite_wf (endAccess_wf h) ?_)
    split
    · exact endAccess_wf (csrRead_wf h)
    · exact endAccess_wf (csrWrite_wf h)
theorem shiftOut_wf (h : StoresWf s) : StoresWf (shiftOut s n) := ite_wf h (give_kept wf_kept h)
theorem spiFrame_wf (h : StoresWf s) : StoresWf (spiFrame s n w) :=
  ite_wf h (ite_wf (shiftOut_wf h) (ite_wf (discardWord_wf (shiftOut_wf h))
    (acceptWord_wf (ite_wf (shiftOut_wf h) (portCount_wf (shiftOut_wf h))))))
theorem spiIdle_wf (h : StoresWf s) : StoresWf (spiIdle s n) := ite_wf h (discardWord_wf (upd_wf rfl rfl (shiftOut_wf h)))
theorem portDo_wf {t : State} (hs : StoresWf s) (ht : StoresWf t) : OutWf (portDo s t) := next_wf (ite_wf ht hs)
theorem execSpiFrame_wf {edges : Nat} {word : BitVec 32} (h : StoresWf s) : OutWf (execSpiFrame edges word s) := portDo_wf h (spiFrame_wf h)
theorem execSpiIdleTimeout_wf {edges : Nat} (h : StoresWf s) : OutWf (execSpiIdleTimeout edges s) := portDo_wf h (spiIdle_wf h)
theorem portWord_wf (h : StoresWf s) : StoresWf (portWord s p w) := by
  unfold portWord
  split
  · exact spiFrame_wf h
  · exact acceptWord_wf h
theorem execRead_wf {idx : BitVec 32} (h : StoresWf s) : OutWf (execRead port idx s) := portDo_wf h (portWord_wf (portWord_wf h))
theorem execWrite_wf {idx value : BitVec 32} (h : StoresWf s) : OutWf (execWrite port idx value s) :=
  portDo_wf h (portWord_wf (portWord_wf (portWord_wf h)))
theorem execPoll_wf (h : StoresWf s) : OutWf (execPoll port s) := portDo_wf h (portWord_wf h)
theorem execRdata_wf (h : StoresWf s) : OutWf (execRdata port s) := portDo_wf h (portWord_wf h)
theorem execPortrd_wf {reg : BitVec 8} (h : StoresWf s) : OutWf (execPortrd port reg s) := portDo_wf h (portWord_wf h)
theorem execPortclr_wf {mask : BitVec 8} (h : StoresWf s) : OutWf (execPortclr port mask s) := portDo_wf h (portWord_wf h)
theorem execPortAccessEnd_wf {timeout : Bool} (h : StoresWf s) : OutWf (execPortAccessEnd port timeout s) := portDo_wf h (portAccess_wf h)
theorem takeWords_wf {l : List (List Byte)} (h : StoresWf s) : StoresWf (takeWords s l) := by
  induction l generalizing s with
  | nil => exact h
  | cons _ _ ih => exact ih (ite_wf (acceptWord_wf h) (discardWord_wf h))
theorem execI3cPrivateWrite_wf {bytes : List Byte} (h : StoresWf s) : OutWf (execI3cPrivateWrite bytes s) := portDo_wf h (takeWords_wf h)
theorem execI3cPrivateRead_wf (h : StoresWf s) : OutWf (execI3cPrivateRead s) := portDo_wf h (acceptWord_wf (give_kept wf_kept h))
theorem i3cError_wf (h : StoresWf s) : StoresWf (i3cError s) := evRaise_kept wf_kept (portCount_wf h)
theorem modI3c_wf {f : I3c → I3c} (h : StoresWf s) : StoresWf (modI3c s f) := h
theorem i3cGive_wf {l : List Byte} (h : StoresWf s) : StoresWf (i3cGive s l) := give_kept wf_kept h
theorem i3cGiveFree_wf (h : StoresWf s) : StoresWf (i3cGiveFree s n) := i3cGive_wf (takeFree_kept wf_kept h)
theorem takeRole_wf {sent accepted : Bool} (h : StoresWf s) : StoresWf (takeRole s sent accepted) := by
  refine ite_wf h ?_
  extract_lets +onlyGivenNames t l u v w
  have hu : StoresWf u := foldl_wf (fun _ _ h => give_kept wf_kept h) (evRaise_kept wf_kept (modI3c_wf h))
  have hw : StoresWf w := give_kept wf_kept (ite_wf (modI3c_wf hu) hu)
  exact ite_wf (evRaise_kept wf_kept (modI3c_wf hw)) hw
theorem i3cCode_wf {code : Nat} {data : List Byte} (h : StoresWf s) : StoresWf (i3cCode s code data) :=
  ite_wf (ite_wf (modI3c_wf h) h) (ite_wf (ite_wf (modI3c_wf h) h) (ite_wf (modI3c_wf h)
    (ite_wf (ite_wf h (modI3c_wf (i3cGive_wf (takeFree_kept wf_kept h)))) (ite_wf (ite_wf h (modI3c_wf h))
    (ite_wf (ite_wf (modI3c_wf h) h) (ite_wf (i3cGiveFree_wf h) (ite_wf (i3cGiveFree_wf h)
    (ite_wf (i3cGive_wf h) (ite_wf (i3cGive_wf (takeFree_kept wf_kept h)) (ite_wf (i3cGiveFree_wf h)
    (ite_wf (i3cGiveFree_wf h) (ite_wf (takeRole_wf (takeFree_kept wf_kept h)) (i3cError_wf h)))))))))))))
theorem execI3cCcc_wf {code : BitVec 8} {data : List Byte} (h : StoresWf s) : OutWf (execI3cCcc code data s) := portDo_wf h (i3cCode_wf h)
theorem sendIbi_wf {b : Nat} {acked : Bool} (h : StoresWf s) : StoresWf (sendIbi s b acked) :=
  ite_wf (modI3c_wf (give_kept wf_kept h)) (ite_wf (i3cError_wf (modI3c_wf (give_kept wf_kept h))) (i3cError_wf (modI3c_wf (give_kept wf_kept h))))
theorem execIbi_wf {start : IbiStart} (h : StoresWf s) : OutWf (execIbi start s) := portDo_wf h (by
    split
    · exact ite_wf (sendIbi_wf h) h
    · exact h)
theorem execIbiRetry_wf {start : IbiStart} (h : StoresWf s) : OutWf (execIbiRetry start s) := portDo_wf h (by
    split
    · exact ite_wf (sendIbi_wf h) h
    · exact h)
theorem execGetacccr_wf {sent accepted : Bool} (h : StoresWf s) : OutWf (execGetacccr sent accepted s) := portDo_wf h (takeRole_wf h)
theorem execControllerRoleRequest_wf (h : StoresWf s) : OutWf (execControllerRoleRequest s) :=
  portDo_wf h (ite_wf (evRaise_kept wf_kept (modI3c_wf h)) h)
theorem execEthernetLinkChange_wf {die : Nat} {sub : Fin 4} {up : Bool} (h : StoresWf s) : OutWf (execEthernetLinkChange die sub up s) :=
  unitDo_wf h (setF_kept wf_kept h)
theorem tdo_wf (h : StoresWf s) : StoresWf (tdo s l) := give_kept wf_kept h
theorem freeBits_wf (h : StoresWf s) : SndWf (freeBits n s) := snd_mk_wf (freeWords_wf h)
theorem tapScan_wf (h : StoresWf s) : StoresWf (tapScan s l) := tdo_wf (upd_wf rfl rfl (freeBits_wf h))
theorem tapLoad_wf {i : TapIns} (h : StoresWf s) : StoresWf (tapLoad s i) := h
theorem haltInput_wf {on : Bool} (h : StoresWf s) : StoresWf (haltInput s on) := ite_wf h (rawChange_wf h)
theorem tapUnder_wf (h : StoresWf s) : OutWf (tapUnder s l) := by
  unfold tapUnder
  split
  · exact next_wf (upd_wf rfl rfl h)
  · exact next_wf (upd_wf rfl rfl h)
  · exact next_wf (tapScan_wf h)
  · exact next_wf (tapScan_wf h)
  · exact ite_wf refused_wf (next_wf (upd_wf rfl rfl h))
theorem execTestAccessPortOperation_wf {op : TapOp} (h : StoresWf s) : OutWf (execTestAccessPortOperation op s) := by
  refine ite_wf ?_ ?_
  · exact next_wf h
  · split
    · exact tapUnder_wf (tapLoad_wf h)
    · exact tapUnder_wf (tapLoad_wf h)
    · exact tapUnder_wf (tapLoad_wf h)
    · exact tapUnder_wf (tapLoad_wf h)
    · exact tapUnder_wf (tapLoad_wf h)
    · exact tapUnder_wf h
    · exact next_wf (tapLoad_wf h)
    · exact next_wf (haltInput_wf h)
theorem rtcTick_wf (h : StoresWf s) : StoresWf (rtcTick s) :=
  ite_wf h (ite_wf (setReg_kept wf_kept (setReg_kept wf_kept (takeFree_kept wf_kept h))) (takeFree_kept wf_kept h))
theorem tick_wf (h : StoresWf s) : StoresWf (tick s) := strmSettle_wf (destroySettle_wf (rtcTick_wf (foldl_wf (fun _ _ h => modDie_wf h) h)))
theorem decFinish_wf {g : Nat} (h : StoresWf s) : StoresWf (decFinish s g) := by
  unfold decFinish
  split
  · exact h
  · extract_lets +onlyGivenNames k free go pc
    split
    · exact h
    · exact ite_wf (transient_wf (report_kept wf_kept (ite_wf (modPe_kept wf_kept (modSpar_wf h)) (modSpar_wf h))))
        (report_kept wf_kept (ite_wf (modPe_kept wf_kept (modSpar_wf h)) (modSpar_wf h)))
    · exact ite_wf (modSpar_wf h) (ite_wf (modPe_kept wf_kept (modSpar_wf h)) (peTrap_wf (modPe_kept wf_kept (modSpar_wf h))))
    · exact ite_wf (modSpar_wf h) (ite_wf (modPe_kept wf_kept (modSpar_wf h))
        (mirror_wf (setPc_wf (decWrite_wf (modPe_kept wf_kept (modSpar_wf h))))))
theorem execDecimalResult_wf {die spar : Nat} (h : StoresWf s) : OutWf (execDecimalResult die spar s) := sparDo_wf h (decFinish_wf h)

end Sys2Proof.Machine
end

section
/-! SUPPORT. Every command and the idle tick keep the stores (log entry 2). -/

namespace Sys2Proof.Machine


theorem exec_wf {i : Instr} {s : State} (h : StoresWf s) : OutWf (exec i s) := by
  unfold exec
  split
  · exact execResetNDeassert_wf h
  · exact execResetNAssert_wf h
  · exact execPwrokAssert_wf h
  · exact execTokenArrival_wf h
  · exact execProbeDataReturn_wf h
  · exact execEviction_wf h
  · exact execFlitIngress_wf h
  · exact execDiversionStart_wf h
  · exact execDiversionEnd_wf h
  · exact execSpillRingAppend_wf h
  · exact execSpillRingHoldRetry_wf h
  · exact execSpillRingConsume_wf h
  · exact execSpillRingMeasure_wf h
  · exact execPurge_wf h
  · exact execPurgeComplete_wf h
  · exact execMeshHop_wf h
  · exact execLinkFlitReceive_wf h
  · exact execEscapeSend_wf h
  · exact execEscapeReceive_wf h
  · exact execCreditReturn_wf h
  · exact execReadyPromote_wf h
  · exact execDispatch_wf h
  · exact execFlowKeyReturn_wf h
  · exact execFlowRequest_wf h
  · exact execFlowRequestRetry_wf h
  · exact execFlowGrant_wf h
  · exact execFlowRelease_wf h
  · exact execFlowCancel_wf h
  · exact execItemTake_wf h
  · exact execWqpostRetry_wf h
  · exact execRatlineRecordWrite_wf h
  · exact execAdmissionNotice_wf h
  · exact execLuffIntervalEnd_wf h
  · exact execLuffEvaluate_wf h
  · exact execGateRequest_wf h
  · exact execGateRelease_wf h
  · exact execGateGrantRetry_wf h
  · exact execInboundAllocRetry_wf h
  · exact execInboundAllocTimeout_wf h
  · exact execFetchRequest_wf h
  · exact execFetchReply_wf h
  · exact execTrapDelivery_wf h
  · exact execRunlimit_wf h
  · exact execOutputLeave_wf h
  · exact execNop_wf h
  · exact execCommit_wf h
  · exact execEnd_wf h
  · exact execFence_wf h
  · exact execFenceDev_wf h
  · exact execEret_wf h
  · exact execWfe_wf h
  · exact execSys_wf h
  · exact execIntRegOp_wf h
  · exact execIntImmOp_wf h
  · exact execClassMove_wf h
  · exact execCompactInstruction_wf h
  · exact execRdflg_wf h
  · exact execClrflg_wf h
  · exact execAddcSubc_wf h
  · exact execMulw_wf h
  · exact execDivsDivu_wf h
  · exact execFpOperation_wf h
  · exact execFcat_wf h
  · exact execFcvt_wf h
  · exact execPadd_wf h
  · exact execPsub_wf h
  · exact execPchk_wf h
  · exact execDecimalRequestAccept_wf h
  · exact execDecimalResult_wf h
  · exact execCondBranch_wf h
  · exact execJmp_wf h
  · exact execCall_wf h
  · exact execJr_wf h
  · exact execLd_wf h
  · exact execSt_wf h
  · exact execLdw_wf h
  · exact execStw_wf h
  · exact execLr_wf h
  · exact execSc_wf h
  · exact execAmo_wf h
  · exact execReservationTimeout_wf h
  · exact execLrHoldExpire_wf h
  · exact execSend_wf h
  · exact execSendSig_wf h
  · exact execSendp_wf h
  · exact execSendpSig_wf h
  · exact execFetch_wf h
  · exact execFalloc_wf h
  · exact execFallocG_wf h
  · exact execFfree_wf h
  · exact execFfreeG_wf h
  · exact execXissue_wf h
  · exact execWqpost_wf h
  · exact execCsrrd_wf h
  · exact execCsrwr_wf h
  · exact execSprd_wf h
  · exact execSpwr_wf h
  · exact execEvsrcRead_wf h
  · exact execEvdoneWrite_wf h
  · exact execBpctlFlush_wf h
  · exact execXlinv_wf h
  · exact execHomeRequest_wf h
  · exact execMemreadData_wf h
  · exact execSnoopReceive_wf h
  · exact execSnoopAnswer_wf h
  · exact execSnoopTimeout_wf h
  · exact execPatrolScrubRead_wf h
  · exact execL1dInvalidate_wf h
  · exact execLockstepMismatch_wf h
  · exact execEventRaise_wf h
  · exact execEventRoute_wf h
  · exact execEventAccept_wf h
  · exact execEvcSet_wf h
  · exact execEvcDone_wf h
  · exact execEvcCoreEnWrite_wf h
  · exact execExchangeIssue_wf h
  · exact execHandoff_wf h
  · exact execIntakeSpillMove_wf h
  · exact execRescan_wf h
  · exact execJournalDurable_wf h
  · exact execJournalWriteFail_wf h
  · exact execJournalControlRewrite_wf h
  · exact execNumblk_wf h
  · exact execExchangeStart_wf h
  · exact execTransferDone_wf h
  · exact execTerminalStateWrite_wf h
  · exact execLedgerRetire_wf h
  · exact execCompletionRecordRetry_wf h
  · exact execNvmeCompletion_wf h
  · exact execNvmeTimeout_wf h
  · exact execAbortDone_wf h
  · exact execControllerFatal_wf h
  · exact execControllerResetTimeout_wf h
  · exact execEngineWatchdog_wf h
  · exact execTakeover_wf h
  · exact execPowerFailWarning_wf h
  · exact execPfailJournalStop_wf h
  · exact execPfailGpfStart_wf h
  · exact execJournalReplay_wf h
  · exact execIdrAck_wf h
  · exact execHxpFrameReceive_wf h
  · exact execData_wf h
  · exact execAck_wf h
  · exact execNak_wf h
  · exact execOpen_wf h
  · exact execOpenAck_wf h
  · exact execClose_wf h
  · exact execCloseAck_wf h
  · exact execReset_wf h
  · exact execLease_wf h
  · exact execLeaseAck_wf h
  · exact execProbe_wf h
  · exact execOpenResend_wf h
  · exact execClosingTimeout_wf h
  · exact execAckTimer_wf h
  · exact execNakTimer_wf h
  · exact execRetransmitTimeout_wf h
  · exact execShroudDown_wf h
  · exact execProbeTimer_wf h
  · exact execLeaseRenewal_wf h
  · exact execLeaseEnd_wf h
  · exact execLeaseLapsedReclaim_wf h
  · exact execFailback_wf h
  · exact execHxpSendStart_wf h
  · exact execHxpOpenSession_wf h
  · exact execHxpCloseSession_wf h
  · exact execHxpOpenAssociation_wf h
  · exact execHxpRawtx_wf h
  · exact execContextTakeEvent_wf h
  · exact execMicroword_wf h
  · exact execLongrun_wf h
  · exact execMemoryReadComplete_wf h
  · exact execContextTimerExpire_wf h
  · exact execStoreRewrite_wf h
  · exact execChnUload_wf h
  · exact execTransformTurnStart_wf h
  · exact execTurnEnd_wf h
  · exact execKeyCacheFetch_wf h
  · exact execXformEngineLoss_wf h
  · exact execKvGen_wf h
  · exact execKvImport_wf h
  · exact execKvDerive_wf h
  · exact execKvSetattr_wf h
  · exact execKvZero_wf h
  · exact execFrlPttcmd_wf h
  · exact execSchInvPmt_wf h
  · exact execSchInvCc_wf h
  · exact execSchPstcmd_wf h
  · exact execSchPptcmd_wf h
  · exact execPxtInv_wf h
  · exact execCreate_wf h
  · exact execDestroy_wf h
  · exact execMailboxIgo_wf h
  · exact execMailboxIack_wf h
  · exact execMailboxOgo_wf h
  · exact execMailboxOack_wf h
  · exact execRingDoorbell_wf h
  · exact execFaultDetection_wf h
  · exact execRetryCounterLeak_wf h
  · exact execPeBistDone_wf h
  · exact execPairBistDone_wf h
  · exact execMdrPaircmd_wf h
  · exact execMdrLogack_wf h
  · exact execFaultNPulseExpire_wf h
  · exact execMdrFnctlWrite_wf h
  · exact execLinkFailure_wf h
  · exact execDieWithdrawal_wf h
  · exact execMdrWdraw_wf h
  · exact execMdrInjctl_wf h
  · exact execBlkEnable_wf h
  · exact execBlkDisable_wf h
  · exact execBlkRst_wf h
  · exact execBlkResetDone_wf h
  · exact execBlkClrrej_wf h
  · exact execConfigParityCheck_wf h
  · exact execCounterClear_wf h
  · exact execWatermarkWrite_wf h
  · exact execRegisterWrite_wf h
  · exact execMstCheck_wf h
  · exact execMstInval_wf h
  · exact execMstErase_wf h
  · exact execMstProgram_wf h
  · exact execMstCommit_wf h
  · exact execJreport_wf h
  · exact execMstUpddataWrite_wf h
  · exact execMstUpdaddrLoWrite_wf h
  · exact execFusArm_wf h
  · exact execFusGo_wf h
  · exact execVin48Loss_wf h
  · exact execPowerReturnReset_wf h
  · exact execTamperZeroise_wf h
  · exact execAuxLoss_wf h
  · exact execPwrRtcWrite_wf h
  · exact execPwrTamperClr_wf h
  · exact execReefChange_wf h
  · exact execPwrReefWrite_wf h
  · exact execThermalLevelStep_wf h
  · exact execThrmalrtNAssert_wf h
  · exact execThrmalrtNDeassert_wf h
  · exact execPowerLimitStep_wf h
  · exact execThermtrip_wf h
  · exact execSensorOutOfUse_wf h
  · exact execUmberSample_wf h
  · exact execCanaryIntervalEnd_wf h
  · exact execDailyReplan_wf h
  · exact execAgeingLogWrite_wf h
  · exact execUmbSampleNow_wf h
  · exact execUmbReplanNow_wf h
  · exact execGatePowerOff_wf h
  · exact execGatePowerOn_wf h
  · exact execTimebaseAlignment_wf h
  · exact execSpiFrame_wf h
  · exact execSpiIdleTimeout_wf h
  · exact execRead_wf h
  · exact execWrite_wf h
  · exact execPoll_wf h
  · exact execRdata_wf h
  · exact execPortrd_wf h
  · exact execPortclr_wf h
  · exact execPortAccessEnd_wf h
  · exact execI3cPrivateWrite_wf h
  · exact execI3cPrivateRead_wf h
  · exact execI3cCcc_wf h
  · exact execIbi_wf h
  · exact execIbiRetry_wf h
  · exact execGetacccr_wf h
  · exact execAuxRestore_wf h
  · exact execEthernetLinkChange_wf h
  · exact execControllerRoleRequest_wf h
  · exact execTestAccessPortOperation_wf h
  · exact execStreamCommandComplete_wf h
theorem step_wf {s : State} (h : StoresWf s) : OutWf (step s) := by
  unfold step
  split
  · exact next_wf (tick_wf h)
  · exact exec_wf h

/-- Settles O4: each function of the model that answers a state keeps the stores canonical, and so do every command and the idle tick. -/
theorem everyStepKeepsTheStoresCanonical : Obligations.EveryStepKeepsTheStoresCanonical :=
  fun s t h hstep => step_wf (s := s) h t hstep

end Sys2Proof.Machine
end

section
/-! SUPPORT. The journal of a die and its number blocks (R375, R380, R382, R384, R385, R427). -/

namespace Sys2Proof.Machine

/-! ### Records that a write makes durable (R375, R380) -/

section Durable
variable {s t p : State} {d seq stop top : Nat} {l : List JRec} {r : JRec}

/-- The records up to the end of the last block that the write reaches. -/
theorem journalDurable_of (hstop : blockEnd s d seq = stop) (hp : padBlock s d seq = p) (hl : jReady (getChan p d) (jSize p d) stop = l) :
    journalDurable s d seq =
      (let u := relog (advanceHead (l.foldl (fun s r => recDurable s d ((l.map (·.seq)).foldl max 0) r)
        (modChan (l.foldl (fun s r => slotPut s d r) p) d fun c =>
          { c with jrecs := c.jrecs.map fun r => if l.any fun q => q.seq == r.seq then { r with durable := true } else r })) d) d
       if l.any fun r => r.typ == 5 then drainDie u d else u) := by
  subst hstop hp hl; rfl

/-- An NVMe ledger device takes whole blocks of 64 records. -/
theorem blockEnd_nvme (h : getF s d bChn rChnLdev 31 30 = 2) : blockEnd s d seq = min seq ((getChan s d).jnext - 1) / 64 * 64 + 63 := if_pos h

theorem blockEnd_cxl (h : getF s d bChn rChnLdev 31 30 = 1) : blockEnd s d seq = seq := if_neg (by rw [h]; decide)

theorem padBlock_nvme (h : getF s d bChn rChnLdev 31 30 = 2) :
    padBlock s d seq = if jReady (getChan s d) (jSize s d) seq = [] then s
      else (List.range (min seq ((getChan s d).jnext - 1) / 64 * 64 + 63 + 1 - (getChan s d).jnext)).foldl (fun s _ => jPut s d (blankRec 15 0)) s := by
  by_cases hr : jReady (getChan s d) (jSize s d) seq = []
  · exact (if_neg fun hc => hc.2 hr).trans (if_pos hr).symm
  · exact (if_pos ⟨h, hr⟩).trans (if_neg hr).symm

theorem padBlock_cxl (h : getF s d bChn rChnLdev 31 30 = 1) : padBlock s d seq = s := if_neg fun hc => absurd (h.symm.trans hc.1) (by decide)

/-- The ledger device is one of the two kinds where it is in service. -/
theorem ldevKind_of_up (h : ldevUp s d = true) : getF s d bChn rChnLdev 31 30 = 1 ∨ getF s d bChn rChnLdev 31 30 = 2 := by
  simp only [ldevUp, Bool.and_eq_true, Bool.or_eq_true, beq_iff_eq] at h
  exact h.1

/-! ### What a durable record does (R382, R384, R427) -/

/-- The event of the record's engine, with the highest SEQ that is durable. -/
theorem recDurable_numblk (ht : (match r.eng with | some k => evPush s k 8 (w64 top) 0 | none => s) = t) (h : r.typ = 5) :
    recDurable s d top r = modChan t d fun c => { c with limit := max c.limit r.xnum.toNat } := by
  subst ht; unfold recDurable; exact if_pos h

theorem recDurable_other (ht : (match r.eng with | some k => evPush s k 8 (w64 top) 0 | none => s) = t) (h : r.typ ≠ 5)
    (hm : ((getChan s d).live.contains r.index && ent s r.index 1 == r.xnum) = false) : recDurable s d top r = t := by
  subst ht; unfold recDurable; rw [if_neg h, hm]; rfl

variable (ht : (match r.eng with | some k => evPush s k 8 (w64 top) 0 | none => s) = t)
  (hm : ((getChan s d).live.contains r.index && ent s r.index 1 == r.xnum) = true)
include ht hm

theorem recDurable_term (h : r.typ = 2) : recDurable s d top r = modWork t r.index fun w => { w with termDone := true } := by
  subst ht; unfold recDurable; rw [hm, h]; rfl

theorem recDurable_accept (h : r.typ = 1) (hs : entState (setEntF t r.index 9 55 0 r.seq) r.index = lAccepting) :
    recDurable s d top r =
      openEntry (setEntF (setEnt (setEntF t r.index 9 55 0 r.seq) r.index 6 (timeOf (setEntF t r.index 9 55 0 r.seq) d)) r.index 0 63 60 lOpen) r.index := by
  subst ht; unfold recDurable; rw [hm, h]; exact if_pos (And.intro rfl hs)

end Durable

/-! ### The control copies and the number blocks (R384, R385) -/

section Control
variable {s : State} {d : Nat}

theorem controlRewrite_due (h : 65536 ≤ (getChan s d).jsince ∨ (jCtl (getChan s d)).head ≠ (getChan s d).jhead) :
    controlRewrite s d = controlPut s d := if_pos h

theorem controlRewrite_idle (h : ¬(65536 ≤ (getChan s d).jsince ∨ (jCtl (getChan s d)).head ≠ (getChan s d).jhead)) :
    controlRewrite s d = s := if_neg h

theorem numBlock_enough {b : Bool} (h : numMultiple (getChan s d) + 2 ^ 21 ≤ (getChan s d).limit ∨
    ((getChan s d).jrecs.any fun r => r.typ == 5 && decide (numMultiple (getChan s d) + 2 ^ 21 ≤ r.xnum.toNat)) = true) : numBlock s d b = s := if_pos h

variable (h : ¬(numMultiple (getChan s d) + 2 ^ 21 ≤ (getChan s d).limit ∨
  ((getChan s d).jrecs.any fun r => r.typ == 5 && decide (numMultiple (getChan s d) + 2 ^ 21 ≤ r.xnum.toNat)) = true))
include h

theorem numBlock_journal {b : Bool} (hl : ldevUp s d = true) :
    numBlock s d b = jAppend s d (blankRec 5 (w64 (numMultiple (getChan s d) + 2 ^ 21))) := (if_neg h).trans (if_pos hl)

theorem numBlock_masthead (hl : ldevUp s d = false) (hm : mastheadUp s = true) (b : Bool) :
    numBlock s d b = if b then
        drainDie (modChan (ageAppend s ⟨5, d, [], 0, 0, 0, 0, numMultiple (getChan s d) + 2 ^ 21⟩) d fun c =>
          { c with limit := numMultiple (getChan s d) + 2 ^ 21 }) d
      else deferred s 0 bUmb 0xFF 0x0714 0 0 0 0 :=
  (if_neg h).trans ((if_neg (ne_true_of_eq_false hl)).trans (if_pos hm))

end Control

/-- Settles O33: the kind of the ledger device says where a block ends, and the type of a record what it does once it is durable. -/
theorem journalAndNumberBlocks : Obligations.JournalAndNumberBlocks := by
  intro s die hd hlive
  refine ⟨?_, fun h => ?_, ?_, ?_, ?_, ?_⟩
  · rintro seq _ p l stop u hup rfl hnvme hcxl rfl rfl
    refine unitDo_eq hd (by rw [hlive, hup]; rfl) ?_
    obtain hk | hk := ldevKind_of_up hup
    · obtain ⟨rfl, rfl⟩ := hcxl hk
      exact journalDurable_of (blockEnd_cxl hk) (padBlock_cxl hk) rfl
    · obtain ⟨rfl, rfl⟩ := hnvme hk
      exact journalDurable_of (blockEnd_nvme hk) (padBlock_nvme hk) rfl
  · exact congrArg Host.Outcome.next (if_neg (ne_true_of_eq_false h))
  · rintro top r _ t rfl ht
    refine ⟨recDurable_numblk ht.symm, fun h hm => recDurable_term ht.symm hm h, ?_, fun h hm => recDurable_other ht.symm h hm⟩
    rintro _ h hm rfl hs
    exact recDurable_accept ht.symm hm h hs
  · rintro _ _ hup rfl hstop hdue rfl
    exact unitDo_eq hd (by rw [hlive, hup, hstop]; rfl) (controlRewrite_due hdue)
  · rintro _ rfl h
    by_cases hj : (getChan s die).jstop = none
    · refine congrArg Host.Outcome.next ((if_pos hd).trans (ite_eq_right_iff.mpr fun _ => controlRewrite_idle ?_))
      obtain hj' | ⟨hs, hh⟩ := h
      · exact absurd hj hj'
      · exact fun hc => hc.elim (Nat.not_le.mpr hs) fun hc => hc hh
    · refine unitDo_idle _ hd ?_
      cases hc : (getChan s die).jstop with
      | none => exact absurd hc hj
      | some _ => simp
  · rintro _ b hlost rfl
    have hdo {t : State} {b : Bool} (h : numBlock s die b = t) : exec (.numblk die b) s = .next t := unitDo_eq hd (by rw [hlive, hlost]; rfl) h
    refine ⟨fun h => hdo (numBlock_enough h), fun hlim hrec => ?_⟩
    have hneed := not_or.mpr ⟨Nat.not_le.mpr hlim, ne_true_of_eq_false hrec⟩
    exact ⟨fun hl => hdo (numBlock_journal hneed hl),
      fun hl hm => ⟨hdo (numBlock_masthead hneed hl hm true), hdo (numBlock_masthead hneed hl hm false)⟩⟩

end Sys2Proof.Machine
end

section
/-! SUPPORT. NVMe commands: their completion, their time-out, and the loss of a controller (R375, R387, R427, R428). -/

namespace Sys2Proof.Machine

/-! ### A completion entry (R428) -/

section Completion
variable {s t : State} {k k0 q c pair cid dw3 i : Nat} {data : List Word} {m : NvCmd}

theorem nvEvent_came (h : (getEng s k).cmds.any (fun m => cidOf m k0 c pair cid && !m.came) = true) :
    nvEvent s k k0 c pair cid =
      evPush (modEng s k fun e => { e with cmds := e.cmds.map fun m => if cidOf m k0 c pair cid then { m with came := true } else m }) k 3
        (w64 (c * 2 ^ 32 + pair)) 0 := if_pos h

section Left
variable (h : (getEng s k).cmds.any (fun m => cidOf m k0 c pair cid && !m.came) = false)
include h

/-- The event is raised also where the command has left its slot. -/
theorem nvEvent_late (hl : (getEng s k).late.any (fun m => cidOf m k0 c pair cid) = true) :
    nvEvent s k k0 c pair cid =
      evPush (modEng s k fun e => { e with late := e.late.eraseP fun m => cidOf m k0 c pair cid }) k 3 (w64 (c * 2 ^ 32 + pair)) 0 :=
  (if_neg (ne_true_of_eq_false h)).trans (if_pos hl)

theorem nvEvent_unknown (hl : (getEng s k).late.any (fun m => cidOf m k0 c pair cid) = false) : nvEvent s k k0 c pair cid = s :=
  (if_neg (ne_true_of_eq_false h)).trans (if_neg (ne_true_of_eq_false hl))

end Left

variable (hq : servingFor s k0 = q) (ht : nvEvent s q k0 c pair cid = t)
include hq ht

theorem nvmeCompletion_none (hf : ((getEng t q).cmds.find? fun m => m.eng == k0 && m.ctrl == c && m.pair == pair && m.slot == cid % 2 ^ 10) = none) :
    nvmeCompletion s k0 c pair cid dw3 data = count t (q / 16) bChn rChnNvlate := by
  subst hq ht; unfold nvmeCompletion; dsimp only; rw [hf]

variable (hf : ((getEng t q).cmds.find? fun m => m.eng == k0 && m.ctrl == c && m.pair == pair && m.slot == cid % 2 ^ 10) = some m)
include hf

theorem nvmeCompletion_oldGen (hg : cid / 2 ^ 10 % 64 ≠ entGen t m.index) :
    nvmeCompletion s k0 c pair cid dw3 data = count t (q / 16) bChn rChnNvlate := by
  subst hq ht; unfold nvmeCompletion; dsimp only; rw [hf]; exact if_pos hg

theorem nvmeCompletion_active (hg : cid / 2 ^ 10 % 64 = entGen t m.index) (hs : entState t m.index = lActive) :
    nvmeCompletion s k0 c pair cid dw3 data = nvOutcome t q m.index dw3 data := by
  subst hq ht; unfold nvmeCompletion; dsimp only; rw [hf]; exact (if_neg (not_not.mpr hg)).trans (if_pos hs)

end Completion

/-! ### Time-outs, aborts and the loss of a controller (R387) -/

section Loss
variable {s : State} {k i : Nat}

theorem nvmeTimeout_active {m : NvCmd} (hf : ((getEng s k).cmds.find? fun m => m.index == i) = some m) (hs : entState s i = lActive) :
    nvmeTimeout s k i =
      give (modEng (setEnt (setEntF s i 0 63 60 lAborting) i 7 (timeOf s (k / 16) + w64 1000000000)) k fun e =>
        { e with cmds := e.cmds.map fun x => if x.index = i then { x with aborting := true } else x })
        (.nvmeAbort m.eng m.ctrl m.pair (nvCid m.gen m.slot)) := by
  obtain rfl : m.index = i := beq_iff_eq.mp (List.find?_some (p := fun m : NvCmd => m.index == i) hf)
  unfold nvmeTimeout
  rw [hf]
  exact if_pos hs

theorem abortDone_aborting (hs : entState s i = lAborting) (hc : ((getEng s k).cmds.any fun m => m.index == i) = true) (b : Bool) :
    abortDone s k i b = nvRetry (if b then s else modWork s i fun w => { w with unconfirmed := true }) k i rsNvmeTimeout 0 := if_pos ⟨hs, hc⟩

variable {ctrl : BitVec 16} (hfat : s.fatal = false) (hout : (getCtrl s ctrl.toNat).out = false)
include hfat hout

/-- A controller is reset once. -/
theorem exec_controllerFatal_first (h : (getCtrl s ctrl.toNat).wasReset = false) :
    exec (.controllerFatal ctrl) s = .next (nvSetup (give (timeOutAll (modCtrl s ctrl.toNat fun x => { x with wasReset := true }) ctrl.toNat)
      (.nvmeReset ctrl.toNat)) ctrl.toNat) := by
  show Host.Outcome.next (if (s.fatal || (getCtrl s ctrl.toNat).out) = true then _ else _) = _
  rw [hfat, hout, if_neg (by decide), if_neg (ne_true_of_eq_false h)]

theorem exec_controllerFatal_again (h : (getCtrl s ctrl.toNat).wasReset = true) :
    exec (.controllerFatal ctrl) s = .next (ctrlLost s ctrl.toNat) := by
  show Host.Outcome.next (if (s.fatal || (getCtrl s ctrl.toNat).out) = true then _ else _) = _
  rw [hfat, hout, if_neg (by decide), if_pos h]

theorem exec_controllerResetTimeout (h : (getCtrl s ctrl.toNat).wasReset = true) :
    exec (.controllerResetTimeout ctrl) s = .next (ctrlLost s ctrl.toNat) := by
  show Host.Outcome.next (if (s.fatal || (getCtrl s ctrl.toNat).out || !(getCtrl s ctrl.toNat).wasReset) = true then _ else _) = _
  rw [hfat, hout, h]; rfl

end Loss

/-- Settles O35: the command that a completion entry finds, and its generation, select the branch; a controller's loss goes by its reset. -/
theorem nvmeCommandsComplete : Obligations.NvmeCommandsComplete := by
  rintro s die eng k rfl hd
  refine ⟨?_, ?_, fun hup => ?_, ?_⟩
  · rintro ctrl pair cid dw3 data q t _ hq hup ht rfl
    have hdo {u : State} (h : nvmeCompletion s (engKey die eng) ctrl.toNat pair cid.toNat dw3.toNat data = u) :
        exec (.nvmeCompletion die eng ctrl pair cid dw3 data) s = .next u := unitDo_eq hd (hq ▸ hup) h
    exact ⟨fun hf => hdo (nvmeCompletion_none hq.symm ht.symm hf), fun m hf =>
      ⟨fun hg => hdo (nvmeCompletion_oldGen hq.symm ht.symm hf hg), fun hg hs => hdo (nvmeCompletion_active hq.symm ht.symm hf hg hs)⟩⟩
  · rintro q ctrl pair cid _ rfl
    exact ⟨nvEvent_came, fun h => ⟨nvEvent_late h, nvEvent_unknown h⟩⟩
  · rintro index _ rfl
    refine ⟨fun m hf hs t ht => ?_, fun hs hc => ?_⟩
    · exact unitDo_eq hd hup (ht ▸ nvmeTimeout_active hf hs)
    · exact ⟨unitDo_eq hd hup (abortDone_aborting hs hc true), unitDo_eq hd hup (abortDone_aborting hs hc false)⟩
  · rintro ctrl _ rfl hfat hout
    exact ⟨exec_controllerFatal_first hfat hout,
      fun h => ⟨exec_controllerFatal_again hfat hout h, exec_controllerResetTimeout hfat hout h⟩⟩

end Sys2Proof.Machine
end

section
/-! SUPPORT. The take-over of an engine and the steps of a power failure (R385, R386, R388, R389, R546). -/

namespace Sys2Proof.Machine

/-! ### The loss of an engine (R388) -/

section Loss
variable {s : State} {die eng f k : Nat}

theorem watchdog_alone (h : armed s die 0x0503 (bCen eng) 0xFF 3 = none) (he : eng < 16) :
    watchdog s die eng = engineOut s (engKey die eng) 0x0503 := by
  unfold watchdog; rw [Nat.mod_eq_of_lt he, h]

/-- Under an armed PERTURB the fault is an injected one. -/
theorem watchdog_injected {j : Inject} (h : armed s die 0x0503 (bCen eng) 0xFF 3 = some j) (he : eng < 16) :
    watchdog s die eng = engineOut (injUse s die) (engKey die eng) 0x0503 true := by
  unfold watchdog; rw [Nat.mod_eq_of_lt he, h]

/-- A lost engine that has not been taken over yet. -/
theorem takeOver_last (ho : (getEng s f).out = true) (ha : (getEng s f).adopted = false) (h : servingFor s f = f) :
    takeOver s f = loseDie (modEng s f fun e => { e with adopted := true }) (f / 16) := by
  unfold takeOver
  exact (if_neg (by simp [ho, ha])).trans (if_pos h)

theorem takeOver_by {served mine : List Nat} (ho : (getEng s f).out = true) (ha : (getEng s f).adopted = false) (hk : servingFor s f = k) (h : k ≠ f)
    (hs : (getEng s f).serve.map (·.1) = served) (hm : sortBy id ((getChan s (f / 16)).live.filter fun i => entOwner s i == f) = mine) :
    takeOver s f = drain (evPush (evRaise ((served ++ mine.filter fun i => !served.contains i).foldl (fun s i => takeEntry s k i)
      (adopt (remap s (f / 16) (f % 16) (k % 16)) f k)) (f / 16) (0x200 + f % 16)) k 7 (w64 (f % 16)) 0) k := by
  subst hk hs hm
  unfold takeOver
  exact (if_neg (by simp [ho, ha])).trans (if_neg h)

end Loss

/-! ### How an entry of a lost engine goes on (R389) -/

section Entry
variable {s t : State} {k i : Nat} (ht : setOwner s i k = t)
include ht

theorem takeEntry_open (h : entState t i = lOpen) : takeEntry s k i = if serves t k i then t else serveLast t k i := by
  subst ht; unfold takeEntry; dsimp only; rw [h]; rfl

theorem takeEntry_active (h : entState t i = lActive) :
    takeEntry s k i = if entKind t i = xkRecv ∨ (getEng t k).cmds.any (·.index == i) = true then t else restart t k i := by
  subst ht; unfold takeEntry; dsimp only; rw [h]; rfl

theorem takeEntry_aborting (h : entState t i = lAborting) : takeEntry s k i = restart t k i := by
  subst ht; unfold takeEntry; dsimp only; rw [h]; rfl

theorem takeEntry_closing (h : entState t i = lClosing) : takeEntry s k i = terminalWrite t i := by
  subst ht; unfold takeEntry; dsimp only; rw [h]; rfl

end Entry

/-! ### What a record of the journal leaves of the ledger device (R375)

Whether the die and its ledger device are in service reads the same before a record is put and after. -/

/-- The parts of a state that tell whether a die and its ledger device are in service. -/
def SameLedger (s t : State) : Prop :=
  t.part = s.part ∧ t.fatal = s.fatal ∧ (∀ d, (getDie t d).withdrawn = (getDie s d).withdrawn) ∧
    (∀ d, getReg t d bChn rChnLdev = getReg s d bChn rChnLdev) ∧ ∀ d, (getChan t d).ldevLost = (getChan s d).ldevLost

namespace SameLedger

variable {s t u : State} {d : Nat}

theorem refl (s : State) : SameLedger s s := ⟨rfl, rfl, fun _ => rfl, fun _ => rfl, fun _ => rfl⟩

theorem trans (h : SameLedger s t) (h' : SameLedger t u) : SameLedger s u := by
  obtain ⟨hp, hf, hw, hr, hl⟩ := h
  obtain ⟨hp', hf', hw', hr', hl'⟩ := h'
  exact ⟨hp'.trans hp, hf'.trans hf, fun d => (hw' d).trans (hw d), fun d => (hr' d).trans (hr d), fun d => (hl' d).trans (hl d)⟩

theorem up (h : SameLedger s t) (d : Nat) : (dieLive t d && ldevUp t d) = (dieLive s d && ldevUp s d) := by
  obtain ⟨hp, hf, hw, hr, hl⟩ := h
  unfold dieLive ldevUp getF
  rw [hp, hf, hw, hr, hl]

theorem ite {c : Prop} [Decidable c] (h : SameLedger s t) (h' : SameLedger s u) : SameLedger s (if c then t else u) := by
  split
  · exact h
  · exact h'

theorem foldl {f : State → Nat → State} (hf : ∀ s n, SameLedger s (f s n)) (l : List Nat) (s : State) : SameLedger s (l.foldl f s) := by
  induction l generalizing s with
  | nil => exact refl s
  | cons n l ih => exact (hf s n).trans (ih (f s n))

theorem setReg {b w v : Nat} (h : ∀ e, regIdx d b w ≠ regIdx e bChn rChnLdev) : SameLedger s (setReg s d b w v) :=
  ⟨rfl, rfl, fun _ => rfl, fun e => getReg_setReg_ne _ _ _ _ _ _ _ _ (h e), fun _ => rfl⟩

theorem modDie {f : Die → Die} (h : ∀ x, (f x).withdrawn = x.withdrawn) : SameLedger s (modDie s d f) := by
  refine ⟨rfl, rfl, fun e => ?_, fun _ => rfl, fun _ => rfl⟩
  have hone : getDie (Machine.modDie s d f) e = if d = e then f (getDie s e) else getDie s e := tget_tmod _ _ _ _ _
  rw [hone]
  split
  · exact h _
  · rfl

theorem modChan {f : Chan → Chan} (h : ∀ x, (f x).ldevLost = x.ldevLost) : SameLedger s (modChan s d f) := by
  refine ⟨rfl, rfl, fun _ => rfl, fun _ => rfl, fun e => ?_⟩
  have hone : getChan (Machine.modChan s d f) e = if d = e then f (getChan s e) else getChan s e := tget_tmod _ _ _ _ _
  rw [hone]
  split
  · exact h _
  · rfl

/-- A raise writes registers of the event controller only. -/
theorem evRaise {k : Nat} (hk : rEvcCfg + k < 2 ^ 20) : SameLedger s (evRaise s d k) := by
  have hev {x : State} {st : Nat} {rep : Bool} : SameLedger x (setEv x d k st rep) :=
    setReg fun e => regIdx_ne (by decide) (by decide) (by decide) hk (by decide)
  have hcount {x : State} : SameLedger x (count x d bEvc rEvcMergecnt) :=
    setReg fun e => regIdx_ne (by decide) (by decide) (by decide) (by decide) (by decide)
  unfold Machine.evRaise evTake
  dsimp only
  split
  · exact ite hev (refl _)
  · exact ite hcount (refl _)
  · exact ite hev (refl _)
  · refine ite ?_ (refl _)
    split
    · exact hcount.trans hev
    · exact hev

theorem jMark {old : Nat} : SameLedger s (jMark s d old) := by
  have hcross {x : State} {hi lo k : Nat} (hk : rEvcCfg + k < 2 ^ 20) :
      SameLedger x (Machine.evRaise (countF x d bChn rChnJxc hi lo 1) d k) :=
    (setReg fun e => by unfold regIdx; simp only [rChnJxc, rChnLdev, bChn]; omega).trans (evRaise hk)
  unfold Machine.jMark watermarkN
  extract_lets c t u
  have ht : SameLedger s t := ite (hcross (by decide)) (refl s)
  have hu : SameLedger s u := ht.trans (ite (hcross (by decide)) (refl t))
  exact hu.trans (modDie fun _ => rfl)

theorem jPut {r : JRec} : SameLedger s (jPut s d r) := by
  unfold Machine.jPut
  extract_lets old
  clear_value old
  refine trans (t := Machine.modChan s d fun c => { c with
    jrecs := c.jrecs ++ [{ r with seq := c.jnext, durable := false }], jnext := c.jnext + 1, jsince := c.jsince + 1 }) (modChan fun _ => rfl) ?_
  exact jMark

theorem putRec {r : JRec} : SameLedger s (putRec s d r) := by
  unfold Machine.putRec
  extract_lets r' t
  have ht : SameLedger s t := modChan fun _ => rfl
  exact ite (ht.trans (modChan fun _ => rfl)) ht

theorem putDurable {r : JRec} : SameLedger s (putDurable s d r) := by
  unfold Machine.putDurable
  extract_lets t
  have ht : SameLedger s t := putRec
  clear_value t
  have hpad {x : State} : SameLedger x (if jFree x d then Machine.putRec x d (blankRec 15 0) else x) := ite putRec (refl x)
  exact ite (ht.trans (foldl (fun x _ => hpad) _ t)) ht

end SameLedger

/-! ### A power failure (R385, R386) -/

/-- The EPOCH record of a die: the journal takes it, `HEAD` moves past it, and a control copy takes that `HEAD`. -/
def epochDie (n : Nat) (s : State) (d : Nat) : State :=
  if ldevUp s 0 then
    let u := if dieLive s d && ldevUp s d then jPut s d (blankRec 4 (w64 n)) else putDurable s d (blankRec 4 (w64 n))
    let v := jMark (modChan u d fun c => { c with jhead := c.jnext }) d (jOcc (getChan u d))
    if ((getChan v (if dieLive s d && ldevUp s d then d else 0)).jstop).isNone then controlPut v d else v
  else s

section Power
variable {s : State}

theorem exec_pfailGpfStart (hf : s.fatal = false) (hp : pfail s 0 = true) (hk : getF s 0 bChn rChnLdev 31 30 = 1)
    (hd : dieLive s (getF s 0 bChn rChnLdev 29 27) = true) : exec .pfailGpfStart s = .next (give s (.flush (getF s 0 bChn rChnLdev 29 27))) :=
  congrArg Host.Outcome.next (if_pos (by rw [hf, hp, hk, hd]; rfl))

/-- The die that writes for a lost one is told after the record as before it. -/
theorem idrAck_epochs (s : State) :
    idrAck s = (List.range (nDies s.part)).foldl (epochDie (getF s 0 bChn rChnIdrstat 30 0)) (setF s 0 bChn rChnIdrstat 31 31 0) := by
  unfold idrAck
  refine congrArg (fun f => List.foldl f _ _) (funext fun t => funext fun d => ?_)
  unfold epochDie
  dsimp only
  rw [(SameLedger.ite SameLedger.jPut SameLedger.putDurable).up d]

theorem exec_idrAck (ho : regOpen s 0 bChn rChnIdrack = true) (hl : dieLive s 0 = true) (hr : getF s 0 bChn rChnIdrstat 31 31 = 1) :
    exec .idrAck s = .next (idrAck s) := regDo_live _ ho (by rw [hl, hr]; rfl)

end Power

/-- Settles O36: whether an engine of the die serves the lost one's work selects the take-over, and its state how an entry goes on. -/
theorem takeOverAndPowerFailSteps : Obligations.TakeOverAndPowerFailSteps := by
  refine fun s => ⟨?_, ?_, rfl, ?_, ?_⟩
  · rintro die eng _ rfl hd
    refine ⟨fun hup h => unitDo_eq hd hup (watchdog_alone h eng.isLt), ?_,
      fun hl ho ha h => unitDo_eq hd hl (takeOver_last ho ha h), ?_⟩
    · rintro j _ hup h rfl
      exact unitDo_eq hd hup (watchdog_injected h eng.isLt)
    · rintro k served mine t u hl ho ha hk hne hs hm rfl rfl
      exact unitDo_eq hd hl (takeOver_by ho ha hk.symm hne hs.symm hm.symm)
  · rintro k i t _ ht rfl
    exact ⟨takeEntry_open ht.symm, takeEntry_active ht.symm, takeEntry_aborting ht.symm, takeEntry_closing ht.symm⟩
  · rintro _ rfl hf hp hk hd
    exact exec_pfailGpfStart hf hp hk hd
  · rintro _ _ ho hl hr rfl rfl
    exact (exec_idrAck ho hl hr).trans (congrArg Host.Outcome.next (idrAck_epochs s))

end Sys2Proof.Machine
end

section
/-! SUPPORT. Frames of HXP: their way into the MAC, and what the oldest one does at its engine (R400 to R402, R415, R419 to R421). -/

namespace Sys2Proof.Machine

/-! ### A frame that arrives in the MAC (R400, R419 to R421) -/

section Receive
variable {s : State} {d sub : Nat} {l : List Nat} {room fcs : Bool}

theorem frameReceive_noPort (h : subPorts s d ≤ sub) : frameReceive s d sub l room fcs = s := if_pos h

variable (hsub : sub < subPorts s d)
include hsub

theorem frameReceive_drop (h : room = false ∨ 2 ^ 21 < macHeld s d + l.length) : frameReceive s d sub l room fcs = countHxp s d rHxpRxdrop := by
  refine (if_neg (Nat.not_le.mpr hsub)).trans (if_pos ?_)
  obtain rfl | h := h
  · rfl
  · rw [decide_eq_true h, Bool.or_true]

variable (hroom : macHeld s d + l.length ≤ 2 ^ 21)
include hroom

theorem frameReceive_enters : frameReceive s d sub l true fcs =
    if 9216 < l.length then countHxp s d rHxpBadcnt
    else if fcs && isPfc s d l then strmSettle (pfcTake s d sub l)
    else match parseFrame l with
      | none => rawReceive s d sub l
      | some f =>
        if fcs && localAddr s d sub f && f.dport == getF s d bHxp rHxpCfg 31 16 then strmSettle (hxpArrive s d sub l.length f)
        else rawReceive s d sub l :=
  (if_neg (Nat.not_le.mpr hsub)).trans (if_neg (by rw [decide_eq_false (Nat.not_lt.mpr hroom)]; decide))

theorem frameReceive_long (h : 9216 < l.length) : frameReceive s d sub l true fcs = countHxp s d rHxpBadcnt :=
  (frameReceive_enters hsub hroom).trans (if_pos h)

variable (hlen : l.length ≤ 9216)
include hlen

theorem frameReceive_pause (h : (fcs && isPfc s d l) = true) : frameReceive s d sub l true fcs = strmSettle (pfcTake s d sub l) :=
  (frameReceive_enters hsub hroom).trans ((if_neg (Nat.not_lt.mpr hlen)).trans (if_pos h))

variable (hpfc : (fcs && isPfc s d l) = false)
include hpfc

theorem frameReceive_unparsed (h : parseFrame l = none) : frameReceive s d sub l true fcs = rawReceive s d sub l := by
  rw [frameReceive_enters hsub hroom, if_neg (Nat.not_lt.mpr hlen), if_neg (ne_true_of_eq_false hpfc), h]

/-- A frame is HXP's where its check sequence holds and it names the port's address and HXP's UDP port. -/
theorem frameReceive_parsed {f : IpFrame} (h : parseFrame l = some f) : frameReceive s d sub l true fcs =
    if fcs && localAddr s d sub f && f.dport == getF s d bHxp rHxpCfg 31 16 then strmSettle (hxpArrive s d sub l.length f)
    else rawReceive s d sub l := by
  rw [frameReceive_enters hsub hroom, if_neg (Nat.not_lt.mpr hlen), if_neg (ne_true_of_eq_false hpfc), h]

end Receive

/-! ### The oldest frame of an engine (R401, R402) -/

section Take
variable {s u w t : State} {die eng k typ ph : Nat} {f g : HxFrame} {rest : List HxFrame} {payload : List Nat} {run : Nat → HxFrame → State → State}

/-- A frame takes its turn where it has the type commanded. -/
theorem hxpTake_front (hd : die < nDies s.part) (hk : engKey die eng = k) (hup : engUp s k = true) (hq : (getEng s k).hxq = f :: rest)
    (hu : modEng s k popFrame = u) (hty : f.typ = typ) : hxpTake die eng typ run s = .next (strmSettle (handleFrame u k f fun f s => run k f s)) := by
  subst hk hu
  unfold hxpTake
  dsimp only
  rw [hq]
  exact unitDo_eq hd hup (if_pos hty)

theorem handleFrame_unverified {run : HxFrame → State → State} (hv : verify u f = none) :
    handleFrame u k f run = countHxp u (k / 16) rHxpAuthcnt := by unfold handleFrame; rw [hv]

variable {run : HxFrame → State → State} (hv : verify u f = some (payload, ph)) (hw : setUp u f.assoc f.shroudB true = w)
  (hg : { f with payload := toBytes payload, keyph := ph } = g)
include hv hw hg

/-- The time of a frame that verifies is noted before it acts, and for an OPEN, which may make its session, after. -/
theorem handleFrame_open (hty : f.typ = 4) : handleFrame u k f run = noteTime (run g w) f (timeOf w (k / 16)) := by
  subst hw hg; unfold handleFrame; rw [hv]; exact if_pos hty

theorem handleFrame_other (ht : noteTime w f (timeOf w (k / 16)) = t) (hty : f.typ ≠ 4) : handleFrame u k f run = run g t := by
  subst ht hw hg; unfold handleFrame; rw [hv]; exact if_neg hty

end Take

section Act
variable {s : State} {k n : Nat} {f : HxFrame} {ok : Bool} {act : State → State} {run : Nat → State → State}

theorem onSession_some (h : f.session = some n) : onSession f run s = run n s := by unfold onSession; rw [h]

/-- A control frame acts where its count is after the last one accepted, which it becomes. -/
theorem ctlTake_fresh (h : ctlFresh s f = true) : ctlTake s k f act = act (notePhase (ctlNote s f) f) := by
  unfold ctlTake ctlTakeIf; rw [h]; rfl

theorem ctlTake_old (h : ctlFresh s f = false) : ctlTake s k f act = countHxp s (k / 16) rHxpDupcnt := by
  unfold ctlTake ctlTakeIf; rw [h]; rfl

theorem ctlTakeIf_steered (h : ctlFresh s f = true) (ho : ok = true) : ctlTakeIf s k f ok act = act (notePhase (ctlNote s f) f) := by
  unfold ctlTakeIf; rw [h, ho]; rfl

theorem ctlTakeIf_stray (h : ctlFresh s f = true) (ho : ok = false) : ctlTakeIf s k f ok act = countHxp s (k / 16) rHxpStalecnt := by
  unfold ctlTakeIf; rw [h, ho]; rfl

end Act

/-- Settles O37: a frame's way into the MAC by its form and the buffer, then its engine's verdict on it by its tag, its count and its type. -/
theorem hxpFramesReachTheirEngine : Obligations.HxpFramesReachTheirEngine := by
  refine fun s die hd => ⟨fun hl hb => ?_, ?_⟩
  · rintro sub frame fcs _ rfl
    have hdo {u : State} {room : Bool} (h : frameReceive s die sub (ofBytes frame) room fcs = u) :
        exec (.hxpFrameReceive die sub frame room fcs) s = .next u := unitDo_eq hd (by rw [hl, hb]; rfl) h
    refine ⟨fun h room => hdo (frameReceive_noPort h), fun h => hdo (frameReceive_drop h (.inl rfl)),
      fun h hfull => hdo (frameReceive_drop h (.inr hfull)), fun h hroom => ⟨fun hlen => hdo (frameReceive_long h hroom hlen),
      fun hlen hp => hdo (frameReceive_pause h hroom hlen hp), fun hlen hp => ⟨fun hf => hdo (frameReceive_unparsed h hroom hlen hp hf),
      fun f hf => ?_⟩⟩⟩
    have hown : (fcs && localAddr s die sub f && f.dport == getF s die bHxp rHxpCfg 31 16) = true ↔
        fcs = true ∧ localAddr s die sub f = true ∧ f.dport = getF s die bHxp rHxpCfg 31 16 := by simp [and_assoc]
    have hframe := frameReceive_parsed h hroom hlen hp hf
    exact ⟨fun hme => hdo (hframe.trans (if_pos (hown.mpr hme))), fun hme => hdo (hframe.trans (if_neg fun hc => hme (hown.mp hc)))⟩
  · rintro eng k f rest u hk hup hq hu
    have hfront {typ : Nat} {run : Nat → HxFrame → State → State} {t : State} (hty : f.typ = typ)
        (h : handleFrame u k f (fun f s => run k f s) = t) : hxpTake die eng typ run s = .next (strmSettle t) :=
      h ▸ hxpTake_front hd hk.symm hup hq hu.symm hty
    refine ⟨?_, ?_⟩
    · rintro hv _ rfl
      have hbad {typ : Nat} {run : Nat → HxFrame → State → State} (hty : f.typ = typ) :
          hxpTake die eng typ run s = .next (strmSettle (countHxp u (k / 16) rHxpAuthcnt)) := hfront hty (handleFrame_unverified hv)
      exact ⟨fun h => (hbad h : execData die eng s = _), fun h => (hbad h : execAck die eng s = _), fun h => (hbad h : execNak die eng s = _),
        fun h => (hbad h : execOpen die eng s = _), fun h => (hbad h : execOpenAck die eng s = _), fun h => (hbad h : execClose die eng s = _),
        fun h => (hbad h : execCloseAck die eng s = _), fun h => (hbad h : execReset die eng s = _), fun h => (hbad h : execLease die eng s = _),
        fun h => (hbad h : execLeaseAck die eng s = _), fun h => (hbad h : execProbe die eng s = _)⟩
    · rintro payload ph w t g hv hw ht hg
      have hgs : g.session = f.session := hg ▸ rfl
      have hact {typ : Nat} {run : Nat → HxFrame → State → State} {v : State} (hn : typ ≠ 4) (h : run k g t = v) (hty : f.typ = typ) :
          hxpTake die eng typ run s = .next (strmSettle v) :=
        hfront hty ((handleFrame_other hv hw.symm hg.symm ht.symm (hty ▸ hn)).trans h)
      have hopen {run : Nat → HxFrame → State → State} {v : State} (h : run k g w = v) (hty : f.typ = 4) :
          hxpTake die eng 4 run s = .next (strmSettle (noteTime v f (timeOf w (k / 16)))) :=
        hfront hty ((handleFrame_open hv hw.symm hg.symm hty).trans (congrArg (noteTime · f _) h))
      have hsess {n : Nat} (hn : f.session = some n) : g.session = some n := hgs.trans hn
      refine ⟨fun n hn => ⟨fun h => ?_, fun hc => ⟨fun ho => ⟨fun h => ?_, fun h => ?_⟩, fun ho => ⟨fun h => ?_, fun h => ?_⟩,
          fun h => ?_, fun h => ?_, fun h => ?_, fun h => ?_⟩, fun hc h => ?_, fun h hc => ?_⟩,
        fun hn => ⟨fun h => ?_, fun h => ?_⟩, fun hc => ⟨fun h => ?_, fun h => ?_, fun h => ?_⟩⟩
      · exact (hact (by decide) (onSession_some (hsess hn)) h : execData die eng s = _)
      · exact (hact (by decide) ((onSession_some (hsess hn)).trans (ctlTakeIf_steered hc ho)) h : execAck die eng s = _)
      · exact (hact (by decide) ((onSession_some (hsess hn)).trans (ctlTakeIf_steered hc ho)) h : execNak die eng s = _)
      · exact (hact (by decide) ((onSession_some (hsess hn)).trans (ctlTakeIf_stray hc ho)) h : execAck die eng s = _)
      · exact (hact (by decide) ((onSession_some (hsess hn)).trans (ctlTakeIf_stray hc ho)) h : execNak die eng s = _)
      · exact (hact (by decide) rfl h : execOpenAck die eng s = _).trans (by rw [hsess hn]; dsimp only; rw [ctlTake_fresh hc])
      · exact (hact (by decide) ((onSession_some (hsess hn)).trans (ctlTake_fresh hc)) h : execClose die eng s = _)
      · exact (hact (by decide) ((onSession_some (hsess hn)).trans (ctlTake_fresh hc)) h : execCloseAck die eng s = _)
      · exact (hact (by decide) ((onSession_some (hsess hn)).trans (ctlTake_fresh hc)) h : execReset die eng s = _)
      · exact (hact (by decide) ((onSession_some (hsess hn)).trans (ctlTake_old hc)) h : execReset die eng s = _)
      · exact (hopen rfl h : execOpen die eng s = _).trans (by rw [hsess hn]; dsimp only; rw [ctlTake_fresh hc])
      · exact (hopen rfl h : execOpen die eng s = _).trans (by rw [hgs.trans hn])
      · exact (hact (by decide) rfl h : execOpenAck die eng s = _).trans (by rw [hgs.trans hn])
      · exact (hact (by decide) (ctlTake_fresh hc) h : execLease die eng s = _)
      · exact (hact (by decide) (ctlTake_fresh hc) h : execLeaseAck die eng s = _)
      · exact (hact (by decide) (ctlTake_fresh hc) h : execProbe die eng s = _)

end Sys2Proof.Machine
end

section
/-! SUPPORT. The timers of an HXP session and of an association (R403, R404, R410, R411, R413, R414, R416). -/

namespace Sys2Proof.Machine

/-! ### A session's timers (R404, R410, R411) -/

section Session
variable {s t : State} {n : Nat}

/-- A timer of a session runs at its engine. -/
theorem sessDo_eq (hd : stDie s n < nDies s.part) (ho : stOk s n = true) (hup : engUp s (frameEng s (some n) (stAssoc s n)) = true) {u : State}
    (h : t = u) : sessDo s n t = .next u := unitDo_eq hd (by rw [ho, hup]; rfl) h

theorem openResend_again {session : Fin 65536} (hs : stState s session = ssOpening) (ho : (getSess s session).opens ≠ 0)
    (h : (getSess s session).opens < 8) : openResend s (.session session) =
      sendSessOpen (modSess s session fun x => { x with opens := x.opens + 1 }) session 4 (getSess s session).nonceI :=
  (if_neg fun hc => hc.elim (fun hc => hc hs) ho).trans (if_pos h)

/-- The eighth OPEN was the last. -/
theorem openResend_fails {session : Fin 65536} (hs : stState s session = ssOpening) (ho : (getSess s session).opens ≠ 0)
    (h : 8 ≤ (getSess s session).opens) : openResend s (.session session) =
      evRaise (modSess (setSt s session ssClosed) session fun x => { x with opens := 0 }) (stDie s session) 0x283 :=
  (if_neg fun hc => hc.elim (fun hc => hc hs) ho).trans (if_neg (Nat.not_lt.mpr h))

variable {old : List TxSeg}
  (hold : ((getSess s n).unacked.filter fun g => decide (retxTime s n ≤ (timeOf s (stDie s n) - g.sentAt).toNat)) = old)
include hold

theorem retxTimeout_none (h : old = []) : retxTimeout s n = s := by
  subst hold; exact if_pos h

variable (h : old ≠ []) (ht : modSess s n (fun x => { x with expiries := x.expiries + 1 }) = t)
include h ht

theorem retxTimeout_again (hx : (getSess t n).expiries < 8) : retxTimeout s n = old.foldl (fun s g => resendSeg s n g) t := by
  subst hold ht; exact (if_neg h).trans (if_neg (Nat.not_le.mpr hx))

theorem retxTimeout_ends (hx : 8 ≤ (getSess t n).expiries) : retxTimeout s n = closeSession (sendSessBoth t n 8 []) n 5 := by
  subst hold ht; exact (if_neg h).trans (if_pos hx)

end Session

/-- Settles O38: the state of the session, its counts of OPENs and expiries, and the run that is missing select the branch. -/
theorem sessionTimersComplete : Obligations.SessionTimersComplete := by
  rintro s session _ rfl hd hok hup
  have hdo {t u : State} (h : t = u) : sessDo s session t = .next u := sessDo_eq hd hok hup h
  refine ⟨?_, fun h => hdo (if_pos h), fun h => ⟨hdo (if_pos h), fun last hm => ?_, ?_⟩⟩
  · rintro _ rfl hs ho
    exact ⟨fun h => hdo (openResend_again hs ho h), fun h => hdo (openResend_fails hs ho h)⟩
  · exact hdo ((if_pos h).trans (by rw [hm]))
  · intro old t hold
    exact ⟨fun he => hdo ((if_pos h).trans (retxTimeout_none hold.symm he)),
      fun hne ht => ⟨fun hx => hdo ((if_pos h).trans (retxTimeout_again hold.symm hne ht.symm hx)),
        fun hx => hdo ((if_pos h).trans (retxTimeout_ends hold.symm hne ht.symm hx))⟩⟩

/-! ### An association's timers and its lease (R403, R413, R414, R416) -/

/-- Settles O39: the phase of the association, its role and its lease select the branch. -/
theorem associationTimersComplete : Obligations.AssociationTimersComplete := by
  rintro s assoc _ rfl hd hok hup
  have hdo {t u : State} (h : t = u) : assocDo s assoc t = .next u := unitDo_eq hd (by rw [hok, hup]; rfl) h
  refine ⟨fun h => hdo (if_pos h), fun b => hdo rfl, fun b h => hdo (if_pos h), fun hi hl => ⟨?_, ?_, fun hb hs => ?_⟩, fun hi hl => ?_,
    fun hl => ?_, ?_, fun hl => hdo (if_pos hl)⟩
  · exact hdo ((if_neg (by rw [hi]; decide)).trans (by rw [hl]))
  · exact hdo (by rw [hi, hl]; rfl)
  · refine hdo (if_pos ?_)
    rw [hi, hl, hs, bne_iff_ne.mpr hb]; rfl
  · exact hdo (by rw [hi, hl]; rfl)
  · exact hdo (by rw [hl])
  · rintro _ hi hl rfl
    exact hdo ((if_neg (by rw [hi]; decide)).trans (by rw [hl]))

end Sys2Proof.Machine
end

section
/-! SUPPORT. The commands of HXP: those of HXP_SCMD, the send of a message, and a raw frame (R403 to R405, R417, R419 to R422, R427, R566). -/

namespace Sys2Proof.Machine

/-! ### The commands of HXP_SCMD (R403, R404, R427) -/

section Scmd
variable {s b t : State} {d n i cmd index : Nat}

theorem scmdGo_runs (h : StillRuns s d bHxp rHxpScmd 0 b) : scmdGo s d cmd index = reject (scmd b d cmd index) d bHxp := startCmd_busy _ _ h

section Starts
variable (h : Starts s d bHxp rHxpScmd 0 b)
include h

theorem scmdGo_open (ht : scmdEvent (scmd b d 1 n) d 1 n = t) : scmdGo s d 1 n = cmdOpen t n := ht ▸ startCmd_go _ _ h

theorem scmdGo_close (ht : scmdEvent (scmd b d 2 n) d 2 n = t) : scmdGo s d 2 n = cmdClose t n := ht ▸ startCmd_go _ _ h

theorem scmdGo_assoc (hi : i < 4096) (ht : scmdEvent (scmd b d 3 i) d 3 i = t) : scmdGo s d 3 i = cmdAssoc t i :=
  (startCmd_go _ _ h).trans (ht ▸ congrArg (cmdAssoc _) (Nat.mod_eq_of_lt hi))

end Starts

section Open
variable (hn : stOk t n = true) (ha : atOk t (stAssoc t n) = true) (hc : stState t n = ssClosed)
include hn ha hc

theorem cmdOpen_initiates {u : State} (hi : isInit t (stAssoc t n) = true)
    (hu : modSess (setSt t n ssOpening) n (fun x => { x with opens := 0, lastHold := some (timeOf t (stDie t n)) }) = u)
    (hp : (getAssoc u (stAssoc t n)).phase = 2) : cmdOpen t n = startSession u n := by
  subst hu; exact (if_neg (by rw [hn, ha, hc]; decide)).trans ((if_pos hi).trans (if_pos hp))

theorem cmdOpen_listens (hi : isInit t (stAssoc t n) = false) : cmdOpen t n = setSt t n ssListen := by
  exact (if_neg (by rw [hn, ha, hc]; decide)).trans (if_neg (ne_true_of_eq_false hi))

end Open

theorem cmdClose_open (hn : stOk t n = true) (ho : stState t n = ssOpen) : cmdClose t n = tryClose (setSt t n ssClosing) n :=
  if_pos (by rw [hn, ho]; rfl)

theorem cmdAssoc_opens (ha : atOk t i = true) (hi : isInit t i = true) (hp : (getAssoc t i).phase = 0) : cmdAssoc t i = startAssoc t i :=
  if_pos (by rw [ha, hi, hp]; rfl)

theorem scmdEvent_session (hc : cmd = 1 ∨ cmd = 2) (hn : stOk b index = true) :
    scmdEvent b d cmd index = evPush b (frameEng b (some index) (stAssoc b index)) 10 (w64 (2 ^ 31 + cmd * 2 ^ 28 + index)) (w64 d) :=
  if_pos ⟨hc, hn⟩

theorem scmdEvent_assoc (hi : index < 4096) (ha : atOk b index = true) :
    scmdEvent b d 3 index = evPush b (frameEng b none index) 10 (w64 (2 ^ 31 + 3 * 2 ^ 28 + index)) (w64 d) := by
  unfold scmdEvent
  rw [Nat.mod_eq_of_lt hi]
  exact (if_neg fun hc => hc.1.elim (by decide) (by decide)).trans (if_pos ⟨rfl, ha⟩)

end Scmd

/-! ### The message of a SEND (R405, R417) -/

section Send
variable {s : State} {i n : Nat} (hn : sendSession s i = n) (hk : entKind s i = xkSend) (hs : entState s i = lActive)
  (hf : (getWork s i).firstSeq = none) (hx : xformOf s i = 0)
include hk hs hf hx

/-- The message of the exchange is still to be begun, and no chain of transforms makes it. -/
theorem sendReady : ¬(entKind s i ≠ xkSend ∨ entState s i ≠ lActive ∨ (getWork s i).firstSeq.isSome ∨
    ¬(xformOf s i = 0 ∨ (getWork s i).chainDone = true)) := by simp [hk, hs, hf, hx]

include hn

theorem sendStart_closed (ho : stState s n ≠ ssOpen) (hg : segSent s n i = false) : sendStart s i = closeWith s i rsHxp 1 false := by
  subst hn
  unfold sendStart
  dsimp only
  rw [if_neg (sendReady hk hs hf hx), if_pos ⟨ho, by rw [hg]; rfl⟩]

variable (ho : stState s n = ssOpen)
include ho

theorem sendStart_unread {e : Nat} (hw : sourceWords s (xCtx s (stDie s n) i) i = .error e) : sendStart s i = closeWith s i e 0 false := by
  subst hn
  unfold sendStart
  dsimp only
  rw [if_neg (sendReady hk hs hf hx), if_neg (fun hc => hc.1 ho), if_neg (not_not.mpr hx), hw]

variable {ws : List Word} (hw : sourceWords s (xCtx s (stDie s n) i) i = .ok ws)
include hw

theorem sendStart_long (hp : (getSess s n).peerMax < ws.length) : sendStart s i = closeWith s i rsHxp 2 false := by
  subst hn
  unfold sendStart
  dsimp only
  rw [if_neg (sendReady hk hs hf hx), if_neg (fun hc => hc.1 ho), if_neg (not_not.mpr hx), hw]
  exact if_pos hp

variable (hp : ws.length ≤ (getSess s n).peerMax) (hnew : sndFind s n (ent s i 1) = none)
include hp hnew

/-- With no free send record, or no credit, the exchange goes back to OPEN. -/
theorem sendStart_waits (h : sndFree s n = none ∨ serBefore (getSess s n).txNext (getSess s n).txCredit = false) :
    sendStart s i = sendWait s (servingFor s (entOwner s i)) i := by
  subst hn
  unfold sendStart
  dsimp only
  rw [if_neg (sendReady hk hs hf hx), if_neg (fun hc => hc.1 ho), if_neg (not_not.mpr hx), hw]
  dsimp only
  rw [if_neg (Nat.not_lt.mpr hp), hnew]
  dsimp only
  obtain hfree | hcred := h
  · rw [hfree]
  · rw [hcred]
    cases sndFree s (sendSession s i) with
    | none => rfl
    | some j => rfl

theorem sendStart_sends {j first cnt : Nat} (hj : sndFree s n = some j) (hfirst : (getSess s n).txNext = first)
    (hc : serBefore first (getSess s n).txCredit = true) (hcnt : (ws.length + 1023) / 1024 = cnt) :
    sendStart s i = sendSegs (modSess (modWork (store (store s (stDie s n) (sndAddr s n j) (ent s i 1)) (stDie s n) (sndAddr s n j + 1)
      (w64 (first * 2 ^ 32 + cnt * 2 ^ 16 + 1))) i
        (fun w => { w with data := ws, words := ws.length, firstSeq := some first, segNext := 0, segCnt := cnt, sendSlot := j })) n
      fun x => { x with txNext := (first + cnt) % 2 ^ 32 }) n i 128 := by
  subst hn hfirst hcnt
  unfold sendStart
  dsimp only
  rw [if_neg (sendReady hk hs hf hx), if_neg (fun hc => hc.1 ho), if_neg (not_not.mpr hx), hw]
  dsimp only
  rw [if_neg (Nat.not_lt.mpr hp), hnew]
  dsimp only
  rw [hj]
  dsimp only
  rw [hc]
  rfl

end Send

/-! ### A raw frame (R419 to R422) -/

section Raw
variable {t : State} {d len sub : Nat}

theorem rawTx_waits (h : (getDie t d).rawTx ≠ []) : rawTx t d len sub = reject t d bHxp := by
  refine if_pos ?_
  cases hr : (getDie t d).rawTx with
  | nil => exact absurd hr h
  | cons _ _ => rfl

variable (hr : (getDie t d).rawTx = [])
include hr

theorem rawTx_long (h : 9216 < len) : rawTx t d len sub = countHxp t d rHxpBadcnt :=
  (if_neg (by rw [hr]; decide)).trans (if_pos h)

theorem rawTx_sends {a : Nat} (ha : baseOf t d bHxp rHxpRawbaseHi + 16 + 1280 * 2 ^ getF t d bHxp rHxpRawcfg 31 28 = a) (h : len ≤ 9216)
    (hup : portUp t d sub = true) : rawTx t d len sub = strmSettle (modDie (unitRead t d a ((len + 7) / 8)) d fun y =>
      { y with rawTx := [.outbound d d sub (toBytes ((bytesOf (peeks t a ((len + 7) / 8))).take len))] }) := by
  subst ha
  exact (if_neg (by rw [hr]; decide)).trans ((if_neg (Nat.not_lt.mpr h)).trans (if_pos hup))

theorem rawTx_down (h : len ≤ 9216) (hup : portUp t d sub = false) : rawTx t d len sub = t :=
  (if_neg (by rw [hr]; decide)).trans ((if_neg (Nat.not_lt.mpr h)).trans (if_neg (ne_true_of_eq_false hup)))

end Raw

/-- Settles O40: a command of HXP_SCMD by the session's or the association's state, a message by its source, its record and the credit. -/
theorem hxpCommandsComplete : Obligations.HxpCommandsComplete := by
  intro s die hd hl hb hoScmd hoRaw
  have hscmd {t u : State} (h : t = u) : hxpReg s die rHxpScmd t = .next u := h ▸ regDo_live _ hoScmd (by rw [hl, hb]; rfl)
  refine ⟨fun b hr => ?_, fun b hst => ⟨?_, ?_, ?_⟩, ?_, ?_, ?_⟩
  · exact ⟨fun session => ⟨hscmd (scmdGo_runs hr), hscmd (scmdGo_runs hr)⟩, fun assoc => hscmd (scmdGo_runs hr)⟩
  · rintro session _ t _ rfl ht rfl hn ha hc
    refine ⟨?_, fun hi => hscmd ((scmdGo_open hst ht.symm).trans (cmdOpen_listens hn ha hc hi))⟩
    intro hi u hu hp
    exact hscmd ((scmdGo_open hst ht.symm).trans (cmdOpen_initiates hn ha hc hi hu.symm hp))
  · rintro session _ t rfl ht hn ho
    exact hscmd ((scmdGo_close hst ht.symm).trans (cmdClose_open hn ho))
  · rintro assoc _ t rfl ht ha hi hp
    exact hscmd ((scmdGo_assoc hst assoc.isLt ht.symm).trans (cmdAssoc_opens ha hi hp))
  · rintro b cmd index _ rfl
    refine ⟨scmdEvent_session, ?_⟩
    rintro rfl hi ha
    exact scmdEvent_assoc hi ha
  · rintro eng k index _ n rfl hup rfl hserve hn hk hs hf hx
    have hdo {u : State} (h : sendStart s index.toNat = u) : exec (.hxpSendStart die eng index) s = .next u :=
      unitDo_eq hd (by rw [hup, beq_iff_eq.mpr hserve]; rfl) h
    refine ⟨fun ho hg => hdo (sendStart_closed hn.symm hk hs hf hx ho hg), fun ho => ⟨fun e he => hdo (sendStart_unread hn.symm hk hs hf hx ho he),
      fun ws hw => ⟨fun hp => hdo (sendStart_long hn.symm hk hs hf hx ho hw hp), fun hp hnew => ⟨fun h => ?_, ?_⟩⟩⟩⟩
    · exact hdo ((sendStart_waits hn.symm hk hs hf hx ho hw hp hnew h).trans (by rw [hserve]))
    · rintro j first cnt t hj hfirst hc hcnt rfl
      exact hdo (sendStart_sends hn.symm hk hs hf hx ho hw hp hnew hj hfirst.symm hc hcnt.symm)
  · rintro len sub t a rfl ha
    have hdo {u : State} (h : rawTx (setReg s die bHxp rHxpRawtx (len.toNat * 2 ^ 16 + sub)) die len.toNat sub = u) :
        exec (.hxpRawtx die len sub) s = .next u := h ▸ regDo_live _ hoRaw (by rw [hl, hb]; rfl)
    exact ⟨fun h => hdo (rawTx_waits h), fun hr => ⟨fun h => hdo (rawTx_long hr h), fun h hup => hdo (rawTx_sends hr ha.symm h hup),
      fun h hup => hdo (rawTx_down hr h hup)⟩⟩

end Sys2Proof.Machine
end

section
/-! SUPPORT. Contexts and microwords of a channel engine, and its stores (R424 to R427, R436, R437, R440, R441, R443, R445, R446). -/

namespace Sys2Proof.Machine

/-! ### A context takes an event or a flit (R425, R427) -/

section Take
variable {s : State} {k c : Nat} (hc : (firstBelow 16 fun c => !(getCtx s k c).busy) = some c)
include hc

theorem takeEvent_event {kind : Nat} {v0 v1 : Word} {t : List (Nat × Word × Word)} (he : (getEng s k).evq = (kind, v0, v1) :: t)
    (h : (getEng s k).flitq = [] ∨ (getEng s k).tookEvent = false) :
    takeEvent s k = startCtx (modEng s k fun e => { e with evq := t, tookEvent := true }) k c kind v0 v1 := by
  have hturn : ¬((getEng s k).flitq ≠ [] ∧ (getEng s k).tookEvent = true) := by
    rintro ⟨hf, ht⟩
    exact h.elim hf fun h => absurd (h.symm.trans ht) (by decide)
  unfold takeEvent
  rw [hc]
  dsimp only
  rw [he]
  exact if_neg hturn

theorem takeEvent_flit {f : Flit} {t : List Flit} (hf : (getEng s k).flitq = f :: t) (h : (getEng s k).evq = [] ∨ (getEng s k).tookEvent = true) :
    takeEvent s k =
      startCtx (modEng s k fun e => { e with flitq := t, tookEvent := false }) k c (b2n (origKind f == 1)) f.tag f.value := by
  unfold takeEvent
  rw [hc]
  dsimp only
  rw [hf]
  cases he : (getEng s k).evq with
  | nil => rfl
  | cons e es =>
    obtain h | h := h
    · exact absurd (he.symm.trans h) (List.cons_ne_nil e es)
    · rw [h]; rfl

end Take

/-! ### A microword of the context that runs next (R426, R436, R440, R441, R443) -/

section Step
variable {s t u : State} {k c : Nat} {w : UWord} {nano : LineCheck}

theorem microStep_idle {micro : LineCheck} (h : nextCtx (noteWaits s k) k = none) : microStep s k micro nano = noteWaits s k := by
  unfold microStep; dsimp only; rw [h]; rfl

variable (hc : nextCtx (noteWaits s k) k = some c) (ht : modSeq (noteWaits s k) k (fun q => { q with cur := c, running := true }) = t)
include hc ht

/-- A store word that is uncorrectable stalls its context and waits to be rewritten. -/
theorem microStep_badMicro : microStep s k .uncorrectable nano =
    modSeq t k fun q => { q with rewrite := q.rewrite ++ [(c, false, (getCtx t k c).upc)] } := by
  subst ht; unfold microStep; dsimp only; rw [hc]; rfl

theorem microStep_badNano : microStep s k .clean .uncorrectable =
    modSeq t k fun q => { q with rewrite := q.rewrite ++ [(c, true, (uWord t k c).nanoAddr)] } := by
  subst ht; unfold microStep; dsimp only; rw [hc]; rfl

variable (hw : uWord t k c = w)
include hw

theorem microStep_clean (hu : uNote t k c w = u) :
    microStep s k .clean .clean = (uTrap u k c w).elim (uRun u k c w) fun x => microTrap u k c x.1 x.2 := by
  subst hu hw ht; unfold microStep; dsimp only; rw [hc]; rfl

theorem microStep_corrected
    (hu : uNote (report (count t (k / 16) (bCen (k % 16)) rCenStcecnt) (k / 16) (bCen (k % 16)) 0xFF 0x0501 cCorrected 0x00 0 0 0) k c w = u) :
    microStep s k .corrected .clean = (uTrap u k c w).elim (uRun u k c w) fun x => microTrap u k c x.1 x.2 := by
  subst hu hw ht; unfold microStep; dsimp only; rw [hc]; rfl

end Step

section Trap
variable {s : State} {k c cause : Nat} {data : Word}

theorem microTrap_first (h : (getCtx s k c).trap = false) : microTrap s k c cause data = count (modCtx s k c fun x =>
    { x with trap := true, mtpc := x.upc, mtcause := cause, mtdata := data, mdrBad := if cause = 4 then none else x.mdrBad,
             upc := 0xF00 + 16 * cause }) (k / 16) (bCen (k % 16)) rCenMtcnt := if_neg (ne_true_of_eq_false h)

/-- A trap in trap mode costs the engine. -/
theorem microTrap_again (h : (getCtx s k c).trap = true) : microTrap s k c cause data =
    report (modEng s k fun e => { e with out := true }) (k / 16) (bCen (k % 16)) 0xFF 0x0502 cContained 0x07 0 0
      (w64 (c * 2 ^ 16 + (getCtx s k c).mtcause * 2 ^ 8 + cause)) := if_pos h

end Trap

/-! ### What a context waits for (R427, R437) -/

section Wait
variable {s : State} {k c : Nat}

theorem readComplete_value {v : Word} (h : (getCtx s k c).pend = some (.value v)) :
    readComplete s k c = modCtx s k c fun x => { x with mdr := v, pend := none, asleep := false } := by unfold readComplete; rw [h]

theorem readComplete_read {pa a : Nat} (h : (getCtx s k c).pend = some (.read pa a)) : readComplete s k c =
    if isPoisoned s pa then
      modCtx (takeFree s).2 k c fun x => { x with mdr := (takeFree s).1, mdrBad := some (4, w64 a), pend := none, asleep := false }
    else modCtx s k c fun x => { x with mdr := peek s pa, pend := none, asleep := false } := by unfold readComplete; rw [h]

theorem timerExpire_set {t : Word} {i : Nat} (h : (getCtx s k c).timer = some (t, i)) : timerExpire s k c =
    evPush (modCtx s k c fun x => { x with timer := none, expired := true, asleep := false }) k 5 (w64 i) t := by unfold timerExpire; rw [h]

theorem streamComplete_found {p : Nat × Nat} {status : Word} (h : ((getSeq s k).streams.find? fun p => p.2 == c) = some p) :
    streamComplete s k c status = evPush (modCtx (modSeq s k fun q => { q with streams := q.streams.erase p }) k c fun x =>
      { x with asleep := false }) k 2 (w64 p.1) status := by unfold streamComplete; rw [h]

end Wait

/-- Settles O41: the queues of the engine, the checks of the two store words and the context's trap mode select the branch. -/
theorem microwordsRunAndTrap : Obligations.MicrowordsRunAndTrap := by
  rintro s die eng _ rfl hd hup
  refine ⟨fun c hc => ⟨?_, ?_⟩, fun hon => ⟨fun h a b => ?_, ?_, ?_, fun hr hb => ?_⟩,
    fun c cause data => ⟨microTrap_first, microTrap_again⟩, ?_⟩
  · intro kind v0 v1 t he h
    exact unitDo_eq hd hup (congrArg strmSettle (takeEvent_event hc he h))
  · intro f t hf h
    exact unitDo_eq hd hup (congrArg strmSettle (takeEvent_flit hc hf h))
  · exact unitDo_eq hd (by rw [hup, hon]; rfl) (microStep_idle h)
  · intro c t w u hc ht hw hu
    have hstep : exec (.microword die eng .clean .clean) s = .next _ :=
      unitDo_eq hd (by rw [hup, hon]; rfl) (microStep_clean hc ht.symm hw.symm hu.symm)
    exact ⟨fun h => hstep.trans (by rw [h]; rfl), fun cause data h => hstep.trans (by rw [h]; rfl)⟩
  · intro c t w u hc ht hw hu
    exact unitDo_eq hd (by rw [hup, hon]; rfl) (microStep_corrected hc ht.symm hw.symm hu.symm)
  · exact unitDo_eq hd (by rw [hup, hon]; rfl) (if_pos ⟨hr, hb⟩)
  · rintro ctx _ rfl
    exact ⟨fun v h => unitDo_eq hd hup (readComplete_value h),
      fun pa a h hp => unitDo_eq hd hup ((readComplete_read h).trans (if_neg (ne_true_of_eq_false hp))),
      fun pa a h hp => unitDo_eq hd hup ((readComplete_read h).trans (if_pos hp)),
      fun t i h => unitDo_eq hd hup (timerExpire_set h), fun p status h => unitDo_eq hd hup (streamComplete_found h)⟩

/-! ### The stores are rewritten and loaded (R443, R445, R446) -/

section Rewrite
variable {s : State} {k c a : Nat} {nano : Bool} {rest : List (Nat × Bool × Nat)}

theorem storeRewrite_none (h : (getSeq s k).rewrite = []) : storeRewrite s k = s := by unfold storeRewrite; rw [h]

theorem storeRewrite_first (h : (getSeq s k).rewrite = (c, nano, a) :: rest) : storeRewrite s k =
    if (shadowWord s nano a).any fun p => isPoisoned s p then engineOut s k 0x0501
    else
      let t := modSeq ((shadowWord s nano a).foldl (fun s p => unitRead s 0 p 1) s) k fun q => { q with rewrite := rest }
      let w := (shadowWord s nano a).map (peek s)
      let u := if nano then { t.ustores with enano := tset (fun _ => 0) t.ustores.enano a (nanoOf w) }
        else { t.ustores with emicro := tset (fun _ => 0) t.ustores.emicro a (wfld (w.getD 0 0) 23 0) }
      report (count { t with ustores := u } (k / 16) (bCen (k % 16)) rCenStcecnt) (k / 16) (bCen (k % 16)) 0xFF 0x0501 cCorrected 0x00 0 0 0 := by
  unfold storeRewrite; rw [h]

end Rewrite

section Load
variable {b : State} {pat : Bool}

theorem loadStores_busy (h : storesIdle b = false) : loadStores b pat = .error 4 := if_pos (by rw [h]; rfl)

theorem uload_refused {e : Nat} (h : loadStores b pat = .error e) : uload b pat = { setReg b 0 bChn rChnUload (b2n pat * 2 ^ 29 + e * 2 ^ 26) with
    ustores := { b.ustores with on := b.ustores.on && e == 4 } } := by unfold uload; rw [h]

/-- The stores are in use where the CRCs read back are the CRCs wanted. -/
theorem uload_read {u : UStores} {want : List Nat} (h : loadStores b pat = .ok (u, want)) : uload b pat =
    if storeCrcs u = want then { setReg ((storeCrcs u).zipIdx.foldl (fun s p => setReg s 0 bChn (rChnUcrc + p.2) p.1) b) 0 bChn rChnUload
      (b2n pat * 2 ^ 29 + 0 * 2 ^ 26) with ustores := u }
    else { setReg ((storeCrcs u).zipIdx.foldl (fun s p => setReg s 0 bChn (rChnUcrc + p.2) p.1) b) 0 bChn rChnUload
      (b2n pat * 2 ^ 29 + 5 * 2 ^ 26) with ustores := { u with on := false } } := by unfold uload; rw [h]

end Load

/-- Settles O42: the checks of the store words fill the list, the shadow's poison decides its oldest word, and the loader's result the stores. -/
theorem storesAreLoadedAndRewritten : Obligations.StoresAreLoadedAndRewritten := by
  refine fun s => ⟨?_, fun ho hl pat => ?_⟩
  · rintro die eng _ rfl hd hup
    refine ⟨fun c nano t hon hc ht => ?_, fun h => unitDo_eq hd hup (storeRewrite_none h), ?_⟩
    · have hlive : (engUp s (engKey die eng) && s.ustores.on) = true := by rw [hup, hon]; rfl
      exact ⟨unitDo_eq hd hlive (microStep_badMicro hc ht.symm), unitDo_eq hd hlive (microStep_badNano hc ht.symm)⟩
    · rintro c nano a rest _ h rfl
      refine ⟨fun hp => unitDo_eq hd hup ((storeRewrite_first h).trans (if_pos hp)), ?_⟩
      rintro _ _ _ hp rfl rfl rfl
      exact unitDo_eq hd hup ((storeRewrite_first h).trans (if_neg (ne_true_of_eq_false hp)))
  · have hdo {u : State} (h : uloadGo s pat = u) : exec (.chnUload pat) s = .next u := h ▸ regDo_live _ ho hl
    refine ⟨fun b hr => hdo (startCmd_busy _ _ hr), fun b hst => ⟨fun e he => ?_, loadStores_busy, ?_⟩⟩
    · exact hdo ((startCmd_go _ _ hst).trans (uload_refused he))
    · rintro u want _ hload rfl
      exact ⟨fun h => hdo ((startCmd_go _ _ hst).trans ((uload_read hload).trans (if_pos h))),
        fun h => hdo ((startCmd_go _ _ hst).trans ((uload_read hload).trans (if_neg h)))⟩

end Sys2Proof.Machine
end

section
/-! SUPPORT. Turns of the transform engines and their keys (R454, R473 to R475, R477, R478, R480 to R482). -/

namespace Sys2Proof.Machine

/-! ### A turn starts (R473, R475) -/

section Start
variable {s t u v : State} {d i : Nat} (ht : noEngine s d = t)
include ht

theorem turnStart_none (hc : chooseTurn t d = (u, none)) : turnStart s d = u := by subst ht; unfold turnStart; dsimp only; rw [hc]

variable {j : ChainJob} (hc : chooseTurn t d = (u, some i)) (hv : modXf u d (fun x => { x with reserved := some i }) = v)
  (hj : ((getXf v d).jobs.find? fun q => q.index == i) = some j)
include hc hv hj

/-- A key that the chain may not use, or that is gone, fails the chain. -/
theorem turnStart_badKey {st e : Nat} (hk : keysBad v d i = some (st, e)) :
    turnStart s d = modXf (chainFail v d i st e) d fun x => { x with reserved := none } := by
  subst ht hv
  unfold turnStart
  dsimp only
  rw [hc]
  dsimp only
  rw [hj]
  dsimp only
  rw [hk]

theorem turnStart_engines {fe : Option Nat} {ws : List Nat} (hk : keysBad v d i = none) (he : turnEngines v d j = some (fe, ws)) :
    turnStart s d = if (keyPlaces v d i ws).all fun p => (cached v d p.1).contains p.2 then startTurn v d j fe ws else v := by
  subst ht hv
  unfold turnStart
  dsimp only
  rw [hc]
  dsimp only
  rw [hj]
  dsimp only
  rw [hk, he]

end Start

/-! ### A turn ends (R474, R477, R478) -/

section End
variable {s : State} {d i n : Nat} {j : ChainJob} {fe : Option Nat} {ws : List Nat}
  (hj : ((getXf s d).jobs.find? fun q => q.index == i) = some j) (hr : j.running = some (fe, ws, n))
include hj hr

theorem turnEnd_inactive (hs : entState s i ≠ lActive) : turnEnd s d i = dropChain s d i := by
  unfold turnEnd
  rw [hj]
  dsimp only
  rw [hr]
  exact if_pos hs

variable (hs : entState s i = lActive)
include hs

theorem turnEnd_unread {e : Nat} (hw : turnWords s (xCtx s d i) i j.done n = .error e) :
    turnEnd s d i = closeWith (cameTo (dropChain s d i) i (turnReach s (xCtx s d i) i j.done n)) i e 0 false := by
  unfold turnEnd
  rw [hj]
  dsimp only
  rw [hr]
  dsimp only
  rw [if_neg (not_not.mpr hs), hw]

theorem turnEnd_read {l : List Word} (hw : turnWords s (xCtx s d i) i j.done n = .ok l) : turnEnd s d i =
    turnDone (turnReads s (xCtx s d i) i j.done n) d { j with done := j.done + n, running := none, inp := j.inp ++ l } fe ws := by
  unfold turnEnd
  rw [hj]
  dsimp only
  rw [hr]
  dsimp only
  rw [if_neg (not_not.mpr hs), hw]

end End

section Done
variable {t : State} {d : Nat} {j : ChainJob} {fe : Option Nat} {ws : List Nat}

theorem turnDone_last (h : j.total ≤ j.done) : turnDone t d j fe ws = chainEnd t d j.index j.inp := if_pos h

variable (h : j.done < j.total) {x : XfDie} (hx : { getXf t d with jobs := (getXf t d).jobs.filter (·.index != j.index) } = x)
include h hx

/-- A chain that is not done waits again with its state saved, where each of its engines has a free slot. -/
theorem turnDone_saves {v : Option (Nat × Nat) × List (Nat × Nat)} (hv : canSave x fe ws = some v) :
    turnDone t d j fe ws = saveState (modXf t d fun _ => { x with jobs := x.jobs ++ [{ j with saved := some v }] }) d v := by
  subst hx
  unfold turnDone
  rw [if_neg (Nat.not_le.mpr h)]
  dsimp only
  rw [hv]

theorem turnDone_goesOn (hv : canSave x fe ws = none) : turnDone t d j fe ws =
    startTurn (modXf t d fun x => { x with jobs := x.jobs.map fun q => if q.index = j.index then j else q }) d j fe ws := by
  subst hx
  unfold turnDone
  rw [if_neg (Nat.not_le.mpr h)]
  dsimp only
  rw [hv]

end Done

section
variable {s b : State} {d p : Nat}
theorem pttCommand_go (h : Starts s d bFrl rFrlPttcmd 0 b) : pttCommand s d p = ptInvalidate (setF b d bFrl rFrlPttcmd 9 0 p) d .ptt p :=
  startCmd_go (fun s => setF s d bFrl rFrlPttcmd 9 0 p) (fun s => ptInvalidate (setF s d bFrl rFrlPttcmd 9 0 p) d .ptt p) h
theorem pttCommand_busy (h : StillRuns s d bFrl rFrlPttcmd 0 b) : pttCommand s d p = reject (setF b d bFrl rFrlPttcmd 9 0 p) d bFrl :=
  startCmd_busy (fun s => setF s d bFrl rFrlPttcmd 9 0 p) (fun s => ptInvalidate (setF s d bFrl rFrlPttcmd 9 0 p) d .ptt p) h
end

/-- Settles O43: the choice of the scheduler, the keys and the cache decide the start of a turn, its input and the save slots its end. -/
theorem transformTurnsComplete : Obligations.TransformTurnsComplete := by
  rintro s die _ rfl hd
  refine ⟨fun hl => ⟨?_, ?_, fun t u ht hc => unitDo_eq hd hl (turnStart_none ht.symm hc), ?_, ?_⟩, ?_, fun eng => ⟨fun h => ?_, fun h => ?_⟩, ?_⟩
  · intro t i j fe ws u ht hc v hv hj hk he
    have hdo := turnStart_engines ht.symm hc hv.symm hj hk he
    refine ⟨fun h => unitDo_eq hd hl (hdo.trans (if_pos (List.all_eq_true.mpr h))), fun h => unitDo_eq hd hl (hdo.trans (if_neg ?_))⟩
    obtain ⟨p, hp, hmiss⟩ := h
    exact fun hall => absurd ((List.all_eq_true.mp hall p hp).symm.trans hmiss) (by decide)
  · intro t i j u st e ht hc v hv hj hk
    exact unitDo_eq hd hl (turnStart_badKey ht.symm hc hv.symm hj hk)
  · rintro index _ j fe ws n rfl hj hr
    refine ⟨fun hs => unitDo_eq hd hl (turnEnd_inactive hj hr hs), fun hs => ⟨fun e he => unitDo_eq hd hl (turnEnd_unread hj hr hs he), ?_⟩⟩
    rintro l _ _ hw rfl rfl
    have hread := turnEnd_read hj hr hs hw
    refine ⟨fun h => unitDo_eq hd hl (hread.trans (turnDone_last h)), fun x h hx =>
      ⟨fun v hv => unitDo_eq hd hl (hread.trans (turnDone_saves h hx.symm hv)), fun hv => unitDo_eq hd hl (hread.trans (turnDone_goesOn h hx.symm hv))⟩⟩
  · intro ho hb part
    have hlive : (dieLive s die && blkEn s die bFrl) = true := by rw [hl, hb]; rfl
    have hdo {u : State} (h : pttCommand s die part = u) : exec (.frlPttcmd die part) s = .next u := h ▸ regDo_live _ ho hlive
    exact ⟨fun b hst => hdo (pttCommand_go hst), fun b hr => hdo (pttCommand_busy hr)⟩
  · intro woad slot hup hk hc
    exact unitDo_eq hd hup (if_pos ⟨hk, by rw [hc]; rfl⟩)
  · exact unitDo_eq hd h rfl
  · exact unitDo_eq hd h rfl
  · rintro t woad e _ _ rfl rfl
    rfl

end Sys2Proof.Machine
end

section
/-! SUPPORT. The header of a block (R559, R560, R562, R564, R565, R567, R569). -/

namespace Sys2Proof.Machine

/-! ### A write of `BLK_CTL` by its bits (R559, R562, R564) -/

section Rst
variable {s t : State} {d b v : Nat} {src : CsrSrc} (hf : ctlFixed b = false) (hbusy : (getDie s d).rstBusy.contains b = false)
include hf hbusy

theorem writeBlkCtl_held (hrst : bitOf v 1 = true) (hheld : heldFrom s d b src = true) : writeBlkCtl s d b v src = reject s d b := by
  unfold writeBlkCtl
  rw [if_neg (ne_true_of_eq_false hf), if_neg (ne_true_of_eq_false hbusy), hrst, hheld]
  rfl

variable (hopen : openSrc src = true) (hheld : heldFrom s d b src = false)
include hopen hheld

/-- RST with `EN` 1 is rejected where the block is enabled. -/
theorem writeBlkCtl_rstEnabled (hen : blkEn s d b = true) : writeBlkCtl s d b 3 src = reject s d b := by
  unfold writeBlkCtl
  rw [if_neg (ne_true_of_eq_false hf), if_neg (ne_true_of_eq_false hbusy), hheld, if_pos hopen]
  simp [bitOf, hen]

/-- RST with `EN` 0 resets a block that is then disabled. -/
theorem writeBlkCtl_rstDisabled (hsys : b ≠ bSys) (ht : setF s d b rBlkCtl 0 0 0 = t) (hen : blkEn t d b = false) :
    writeBlkCtl s d b 2 src = blkReset t d b := by
  unfold writeBlkCtl
  rw [if_neg (ne_true_of_eq_false hf), if_neg (ne_true_of_eq_false hbusy), hheld, if_pos hopen]
  simp [bitOf, hsys, ht, hen]

end Rst

theorem heldFrom_eq_false {s : State} {d b : Nat} {src : CsrSrc} (h : getF s d b rBlkCtl 31 31 = 0) : heldFrom s d b src = false := by
  simp [heldFrom, h]

theorem bitOf_or_two (v : Csr) : bitOf (v ||| 2).toNat 1 = true := by
  have h : (v ||| 2).toNat.testBit 1 = true := by
    rw [BitVec.toNat_or, Nat.testBit_or]
    exact Bool.or_true _
  simpa [bitOf, Nat.testBit_eq_decide_div_mod_eq] using h

/-! ### `EN` set and cleared (R560, R564, R565) -/

section Enable
variable {s : State} {d b : Nat} {src : CsrSrc}

theorem blkEnable_msts (h : b = bMst ∧ d ≠ 0) : blkEnable s d b = s := if_pos (.inl h)

variable (hm : ¬(b = bMst ∧ d ≠ 0)) (hf : ctlFixed b = false)
include hm hf

theorem blkEnable_enabled (hen : blkEn s d b = true) : blkEnable s d b = parityWrite s d b rBlkCtl :=
  (if_neg (by simp [hm, hf])).trans (if_pos hen)

variable (hen : blkEn s d b = false)
include hen

theorem blkEnable_mism (h : mismWords s d b ≠ []) : blkEnable s d b = reject s d b :=
  ((if_neg (by simp [hm, hf])).trans (if_neg (ne_true_of_eq_false hen))).trans (if_pos (.inl h))

theorem blkEnable_taken (h : unitTaken s d b = true) : blkEnable s d b = reject s d b :=
  ((if_neg (by simp [hm, hf])).trans (if_neg (ne_true_of_eq_false hen))).trans (if_pos (.inr (.inr h)))

theorem blkEnable_sets (hbusy : (getDie s d).rstBusy.contains b = false) (hw : mismWords s d b = []) (ht : unitTaken s d b = false) :
    blkEnable s d b = if blkKind b = some .clu then topsailSlot (parityWrite (setF (takeRwd s d b) d b rBlkCtl 0 0 1) d b rBlkCtl) (gspar d (b - 0x20))
      else parityWrite (setF (takeRwd s d b) d b rBlkCtl 0 0 1) d b rBlkCtl :=
  ((if_neg (by simp [hm, hf])).trans (if_neg (ne_true_of_eq_false hen))).trans
    (if_neg (by rw [hbusy, hw, ht]; simp))

end Enable

section Disable
variable {s : State} {d b : Nat} {src : CsrSrc}

theorem blkDisable_sys (h : b = bSys) : blkDisable s d b src = reject s d b := if_pos h

variable (hsys : b ≠ bSys)
include hsys

theorem blkDisable_held (hen : blkEn s d b = true) (hheld : heldFrom s d b src = true) : blkDisable s d b src = reject s d b :=
  (if_neg hsys).trans (if_pos (by rw [hen, hheld]; rfl))

theorem blkDisable_clears (h : blkEn s d b = true → heldFrom s d b src = false) :
    blkDisable s d b src = parityWrite (setF s d b rBlkCtl 0 0 0) d b rBlkCtl :=
  (if_neg hsys).trans (if_neg fun hc => by
    obtain ⟨hen, hheld⟩ := Bool.and_eq_true_iff.mp hc
    exact ne_true_of_eq_false (h hen) hheld)

end Disable

/-! ### Every block has a header -/

/-- `BLK_CTL` is the second row of every block's header. -/
theorem rowOf_blkCtl {b : Nat} (h : (blkKind b).isSome = true) : ∃ r, rowOf b rBlkCtl = some r ∧ r.die0 = false := by
  obtain ⟨k, hk⟩ := Option.isSome_iff_exists.mp h
  unfold rowOf
  rw [hk]
  exact ⟨_, rfl, rfl⟩

theorem implemented_blkCtl {p : PartKind} {d b : Nat} (h : (blkKind b).isSome = true) : implemented p d b rBlkCtl = true := by
  obtain ⟨r, hr, hdie0⟩ := rowOf_blkCtl h
  unfold implemented
  rw [hr]
  simp [hdie0, rBlkCtl, rPrtMbdb, rPrtMbi, rPrtRingbaseHi, rPrtRingbaseLo, rPrtRingdb]

/-- Settles O50: a block in reset refuses each command; else the command acts where its source reaches the header, by `EN`, the hold and
the cases that forbid an enabling. -/
theorem blockHeaderCommandsComplete : Obligations.BlockHeaderCommandsComplete := by
  rintro s die blk src _ _ rfl rfl hd hk hs
  have hbus : busBad s (regIdx die blk.toNat rBlkCtl) true = false :=
    busBad_regIdx blk.isLt (by decide) hd (implemented_blkCtl hk) hs
  refine ⟨fun hr value => ?_, fun hr => ?_⟩
  · have hdo {src : CsrSrc} (t : State) : ctlDo s die blk.toNat src t = .next (reject s die blk.toNat) := regDo_inReset _ t hbus hs hr
    exact ⟨hdo _, hdo _, hdo _, hdo _, onDie_next _ hd⟩
  · have ho : regOpen s die blk.toNat rBlkCtl = true := by unfold regOpen; rw [hbus, hs, hr]; rfl
    have hidle {src : CsrSrc} (h : ctlFixed blk.toNat = true ∨ ctlShut blk.toNat src = true) (t : State) :
        ctlDo s die blk.toNat src t = .next s :=
      (regDo_open _ t ho).trans (congrArg Host.Outcome.next (if_neg (by rcases h with h | h <;> simp [h])))
    have hlive {src : CsrSrc} (hf : ctlFixed blk.toNat = false) (hsh : ctlShut blk.toNat src = false) {t u : State} (h : t = u) :
        ctlDo s die blk.toNat src t = .next u := h ▸ regDo_live t ho (by rw [hf, hsh]; rfl)
    refine ⟨fun hf => hlive hf (by simp [ctlShut, openSrc]) rfl, fun hf => hidle (.inl hf) _, fun h value => ⟨hidle h _, hidle h _, hidle h _⟩, ?_, ?_⟩
    · intro hm h0
      exact hlive (by rw [hm]; rfl) (by rw [hm]; rfl) (blkEnable_msts ⟨hm, h0⟩)
    · intro hf hsh
      refine ⟨fun hen hm => ⟨?_, ?_, ?_, ?_⟩, fun hen hsys => ?_, fun hen => ⟨?_, ?_, ?_, ?_, ?_, ?_⟩⟩
      · rintro hw hu _ rfl
        exact hlive hf hsh (blkEnable_sets hm hf hen hr hw hu)
      · exact fun hw => hlive hf hsh (blkEnable_mism hm hf hen hw)
      · exact fun hu => hlive hf hsh (blkEnable_taken hm hf hen hu)
      · intro value hv hopen hhold hsys hdis
        have hval : (value ||| 2).toNat = 2 := by rw [BitVec.toNat_or, hv]; rfl
        exact hlive hf hsh (hval ▸ writeBlkCtl_rstDisabled hf hr hopen (heldFrom_eq_false hhold) hsys rfl hdis)
      · exact hlive hf hsh (blkDisable_clears hsys fun h => absurd h (ne_true_of_eq_false hen))
      · exact fun hm => hlive hf hsh (blkEnable_enabled hm hf hen)
      · intro value hv hopen hheld
        have hval : (value ||| 2).toNat = 3 := by rw [BitVec.toNat_or, hv]; rfl
        exact hlive hf hsh (hval ▸ writeBlkCtl_rstEnabled hf hr hopen hheld hen)
      · exact fun hsys => hlive hf hsh (blkDisable_sys hsys)
      · exact fun hsys hheld => hlive hf hsh (blkDisable_clears hsys fun _ => hheld)
      · exact fun hsys hheld => hlive hf hsh (blkDisable_held hsys hen hheld)
      · exact fun value hheld => hlive hf hsh (writeBlkCtl_held hf hr (bitOf_or_two value) hheld)

end Sys2Proof.Machine
end

section
/-! SUPPORT. The update commands of the Masthead (R566, R597, R600, R605). -/

namespace Sys2Proof.Machine

/-! ### The value of a command and the state that it runs on (R597) -/

/-- `MST_UPDCMD` with GO and a command's fields. -/
def updValue (cmd die slot : Nat) : Nat := 2 ^ 31 + cmd * 2 ^ 27 + die * 2 ^ 4 + slot

section Value
variable {cmd die slot : Nat} (hc : cmd < 8) (hd : die < 8) (hk : slot < 16)
include hc hd hk

theorem updValue_cmd : fld (updValue cmd die slot) 29 27 = cmd := by
  simp only [fld, updValue]; omega

omit hc in
theorem updValue_die : fld (updValue cmd die slot) 6 4 = die := by
  simp only [fld, updValue]; omega

omit hc hd in
theorem updValue_slot : fld (updValue cmd die slot) 3 0 = slot := by
  simp only [fld, updValue]; omega

theorem updValue_go : bitOf (updValue cmd die slot) 31 = true := by
  have h : updValue cmd die slot / 2 ^ 31 % 2 = 1 := by simp only [updValue]; omega
  simpa [bitOf] using h

end Value

theorem updSlot_lt (s : State) : updSlot s < 16 := by
  unfold updSlot getF fld; omega

theorem updDie_lt (s : State) : updDie s < 8 := by
  unfold updDie getF fld; omega

/-- `MST_UPDCMD` with the fields of a command. -/
def updFields (s : State) (cmd die slot : Nat) : State :=
  setF (setF (setF s 0 bMst rMstUpdcmd 29 27 cmd) 0 bMst rMstUpdcmd 6 4 die) 0 bMst rMstUpdcmd 3 0 slot

/-- The state on which a command that starts runs: what the one before it wrote to the flash is done. -/
def updReady (s : State) (cmd die slot : Nat) : State :=
  { updFields s cmd die slot with mst := { (updFields s cmd die slot).mst with job := none } }

section Command
variable {s q t : State} {cmd die slot : Nat} {ok : Bool} (hc : cmd < 8) (hd : die < 8) (hk : slot < 16)
include hc hd hk

theorem updCommand_eq : updCommand s (updValue cmd die slot) ok =
    startCmd s 0 bMst rMstUpdcmd 0 (updFields · cmd die slot) fun s => updRun (updReady s cmd die slot) (updValue cmd die slot) ok := by
  unfold updCommand
  dsimp only
  rw [if_pos (updValue_go hc hd hk), updValue_cmd hc hd hk, updValue_die hd hk, updValue_slot hk]
  rfl

variable (ho : regOpen s 0 bMst rMstUpdcmd = true) (hm : mstTakes s = true)
include ho hm

theorem updGo_busy (h : StillRuns s 0 bMst rMstUpdcmd 0 q) (ht : updFields q cmd die slot = t) :
    updGo s cmd slot die ok = .next (reject t 0 bMst) :=
  (regDo_live _ ho hm).trans (congrArg Host.Outcome.next (ht ▸ (updCommand_eq hc hd hk).trans (startCmd_busy _ _ h)))

theorem updGo_starts {u : State} (h : Starts s 0 bMst rMstUpdcmd 0 q) (ht : updReady q cmd die slot = t)
    (hu : updRun t (updValue cmd die slot) ok = u) : updGo s cmd slot die ok = .next u :=
  (regDo_live _ ho hm).trans (congrArg Host.Outcome.next (hu ▸ ht ▸ (updCommand_eq hc hd hk).trans (startCmd_go _ _ h)))

end Command

/-- While a start is under way the Masthead takes no update command. -/
theorem updGo_idle {s : State} (ho : regOpen s 0 bMst rMstUpdcmd = true) (hm : mstTakes s = false) (cmd slot die : Nat) (ok : Bool) :
    updGo s cmd slot die ok = .next s := by
  unfold updGo
  rw [hm]
  exact regDo_idle _ ho

/-! ### Which command runs (R597) -/

section Run
variable {t : State} {die slot : Nat} {ok : Bool} (hd : die < 8) (hk : slot < 16)
include hd hk

theorem updRun_check : updRun t (updValue 1 die slot) ok = updCheck t := by
  unfold updRun; rw [updValue_cmd (by decide) hd hk]; rfl

theorem updRun_inval : updRun t (updValue 2 die slot) ok = updInval t slot ok := by
  unfold updRun; rw [updValue_cmd (by decide) hd hk, updValue_slot hk]; rfl

theorem updRun_erase : updRun t (updValue 3 die slot) ok = updErase t slot ok := by
  unfold updRun; rw [updValue_cmd (by decide) hd hk, updValue_slot hk]; rfl

theorem updRun_program : updRun t (updValue 4 die slot) ok = updProgram t slot ok := by
  unfold updRun; rw [updValue_cmd (by decide) hd hk, updValue_slot hk]; rfl

theorem updRun_commit : updRun t (updValue 5 die slot) ok = updCommit t slot ok := by
  unfold updRun; rw [updValue_cmd (by decide) hd hk, updValue_slot hk]; rfl

theorem updRun_jreport : updRun t (updValue 6 die slot) ok = updJreport t die := by
  unfold updRun; rw [updValue_cmd (by decide) hd hk, updValue_die hd hk]; rfl

end Run

/-! ### CHECK and JREPORT (R597, R600) -/

section Check
variable {s u v : State} (hu : { s with mst := { s.mst with checked := none } } = u)
include hu

theorem updCheck_poisoned {wa : Nat} (h : (updWords u).find? (isPoisoned u) = some wa) : updCheck s = updEnd (hwPoison u 0 wa) 1 0 := by
  subst hu; unfold updCheck; dsimp only; rw [h]

variable (h : (updWords u).find? (isPoisoned u) = none) (hv : unitRead u 0 (updAt u) (updWords u).length = v)
include h hv

/-- A staged image without poison is judged by its length and its content. -/
theorem updCheck_read : updCheck s = if updLen v < 16384 then updEnd v 1 0
    else if (if imSize (memRd s (updAt s)) = updLen v then imCheck v.fusesIn (memRd s (updAt s)) (memRd s (updAt s) 4) else 1) = 0 then
      updEnd { v with mst := { v.mst with checked := some (updAt v, updLen v) } } 0 0
    else updEnd v 2 (if imSize (memRd s (updAt s)) = updLen v then imCheck v.fusesIn (memRd s (updAt s)) (memRd s (updAt s) 4) else 1) := by
  subst hv hu
  unfold updCheck
  dsimp only
  rw [h]

theorem updCheck_short (hlen : updLen v < 16384) : updCheck s = updEnd v 1 0 :=
  (updCheck_read hu h hv).trans (if_pos hlen)

variable (hlen : 16384 ≤ updLen v)
include hlen

theorem updCheck_size (hsize : imSize (memRd s (updAt s)) ≠ updLen v) : updCheck s = updEnd v 2 1 := by
  rw [updCheck_read hu h hv, if_neg (Nat.not_lt.mpr hlen), if_neg hsize, if_neg Nat.one_ne_zero]

variable {rd : Nat → Nat} (hrd : memRd s (updAt s) = rd) (hsize : imSize rd = updLen v)
include hrd hsize

theorem updCheck_passes (hok : imCheck v.fusesIn rd (rd 4) = 0) :
    updCheck s = updEnd { v with mst := { v.mst with checked := some (updAt v, updLen v) } } 0 0 := by
  rw [updCheck_read hu h hv, if_neg (Nat.not_lt.mpr hlen), hrd, if_pos hsize, if_pos hok]

theorem updCheck_fails {n : Nat} (hn : imCheck v.fusesIn rd (rd 4) = n) (h0 : n ≠ 0) : updCheck s = updEnd v 2 n := by
  rw [updCheck_read hu h hv, if_neg (Nat.not_lt.mpr hlen), hrd, if_pos hsize, hn, if_neg h0]

end Check

theorem updJreport_refused {s : State} {d : Nat} (h : nDies s.part ≤ d ∨ ldevUp s 0 = false ∨ dieLive s 0 = false) :
    updJreport s d = updEnd s 1 0 := if_pos (by simpa using h)

theorem updJreport_writes {s : State} {d : Nat} {l : List DoubtEntry} (hd : d < nDies s.part) (hl : ldevUp s 0 = true) (h0 : dieLive s 0 = true)
    (hq : quietEntries s d = l) : updJreport s d = updEnd (stores s 0 (updAt s) (doubtHeader l ++ l.flatMap doubtWords)) 0 0 :=
  hq ▸ if_neg (by simp [hd, hl, h0])

/-! ### The commands of a slot (R597) -/

section Slot
variable {s t : State} {k : Nat} {ok : Bool} (ht : unprogram s k = t)
include ht

section Running
variable (h : slotRuns t k = true)
include h

theorem updInval_running : updInval s k ok = updEnd t 4 0 := by subst ht; exact if_pos h
theorem updErase_running : updErase s k ok = updEnd t 4 0 := by subst ht; exact if_pos h
theorem updProgram_running : updProgram s k ok = updEnd t 4 0 := by subst ht; exact if_pos h
theorem updCommit_running : updCommit s k ok = updEnd t 4 0 := by subst ht; exact if_pos h

end Running

variable (h : slotRuns t k = false)
include h

theorem updInval_noSlot (hk : 10 ≤ k) : updInval s k ok = updEnd t 1 0 := by
  subst ht; exact (if_neg (ne_true_of_eq_false h)).trans (if_pos hk)

theorem updInval_eq (hk : k < 10) : updInval s k ok = if !ok then updEnd t 3 0 else updEnd (showSlots (commitAppend t k false 0)) 0 0 := by
  subst ht; exact (if_neg (ne_true_of_eq_false h)).trans (if_neg (Nat.not_le.mpr hk))

theorem updErase_refused (hk : 10 ≤ k ∨ committed t k = true) : updErase s k ok = updEnd t 1 0 := by
  subst ht; exact (if_neg (ne_true_of_eq_false h)).trans (if_pos hk)

theorem updErase_eq (hk : k < 10) (hc : committed t k = false) : updErase s k ok = if !ok then updEnd t 3 0 else
    updEnd (flashJob (flErase t (slotAt k) (slotSize k))
      (.erase (slotAt k) (slotSize k) (t.flash.filter fun c => decide (slotAt k ≤ c.1) && decide (c.1 < slotAt k + slotSize k)))) 0 0 := by
  subst ht
  exact (if_neg (ne_true_of_eq_false h)).trans (if_neg (by simp [Nat.not_le.mpr hk, hc]))

theorem updProgram_refused (hk : 10 ≤ k ∨ committed t k = true ∨ flBlank t (slotAt k) (slotSize k) = false ∨
      t.mst.checked ≠ some (updAt t, updLen t) ∨ memRd t (updAt t) 4 ≠ slotKind k ∨ (updWords t).any (isPoisoned t) = true) :
    updProgram s k ok = updEnd t 1 0 := by
  subst ht
  exact (if_neg (ne_true_of_eq_false h)).trans (if_pos (by simpa only [Bool.not_eq_true'] using hk))

theorem updProgram_eq {rd : Nat → Nat} {u : State} (hk : k < 10) (hc : committed t k = false) (hb : flBlank t (slotAt k) (slotSize k) = true)
    (hch : t.mst.checked = some (updAt t, updLen t)) (hkind : rd 4 = slotKind k) (hp : (updWords t).any (isPoisoned t) = false)
    (hrd : memRd t (updAt t) = rd)
    (hu : flProgram (unitRead t 0 (updAt t) (updWords t).length) (slotAt k) (rdBytes rd 0 (updLen t)) = u) :
    updProgram s k ok = if !ok then updEnd t 3 0 else
      updEnd (flashJob { u with mst := { u.mst with programmed := k :: u.mst.programmed } } (.program (slotAt k) (updLen u))) 0 0 := by
  subst hu hrd ht
  exact (if_neg (ne_true_of_eq_false h)).trans (if_neg (by simp [Nat.not_le.mpr hk, hc, hb, hch, hkind, hp]))

theorem updCommit_refused (hp : s.mst.programmed.contains k = false) : updCommit s k ok = updEnd t 1 0 := by
  subst ht
  exact (if_neg (ne_true_of_eq_false h)).trans (if_pos (by rw [hp]; rfl))

theorem updCommit_eq (hp : s.mst.programmed.contains k = true) : updCommit s k ok = if !ok then updEnd t 3 0 else
    updEnd (showSlots (commitAppend t k true (imVersion (slotRd t k)))) 0 0 := by
  subst ht
  exact (if_neg (ne_true_of_eq_false h)).trans (if_neg (by rw [hp]; decide))

end Slot

/-- Settles O52: the Masthead takes no update command during a start, a second one is refused while one runs, and a command that starts acts
by its checks in their order. -/
theorem imageUpdatesFollowTheirChecks : Obligations.ImageUpdatesFollowTheirChecks := by
  rintro s ho
  refine ⟨fun hm slot target ok => ?_, fun hm q sel hsel => ?_⟩
  · exact ⟨updGo_idle ho hm _ _ _ _, updGo_idle ho hm _ _ _ _, updGo_idle ho hm _ _ _ _, updGo_idle ho hm _ _ _ _, updGo_idle ho hm _ _ _ _,
      updGo_idle ho hm _ _ _ _⟩
  have hslot := updSlot_lt s
  have hdie := updDie_lt s
  refine ⟨fun hq slot k target ok hk => ?_, fun hq run hrun => ⟨?_, ?_, ?_⟩⟩
  · subst hk
    have hkl : slot.toNat < 16 := slot.isLt
    have hbusy {cmd die k : Nat} {ok : Bool} (hc : cmd < 8) (hd : die < 8) (hk : k < 16) :
        updGo s cmd k die ok = .next (reject (sel cmd die k) 0 bMst) := updGo_busy hc hd hk ho hm hq (hsel _ _ _).symm
    exact ⟨hbusy (by decide) hdie hslot, hbusy (by decide) hdie hkl, hbusy (by decide) hdie hkl, hbusy (by decide) hdie hkl,
      hbusy (by decide) hdie hkl, hbusy (by decide) target.isLt hslot⟩
  all_goals
    have hready (cmd die slot : Nat) : updReady q cmd die slot = run cmd die slot := by
      rw [hrun]; simp only [hsel]; rfl
  · intro t u ht hu
    have hdo {x : State} (h : updCheck t = x) : exec .mstCheck s = .next x :=
      updGo_starts (by decide) hdie hslot ho hm hq ((hready _ _ _).trans ht.symm) ((updRun_check hdie hslot).trans h)
    refine ⟨fun wa h => hdo (updCheck_poisoned hu.symm h), fun h rd v hrd hv => ⟨fun hl => hdo (updCheck_short hu.symm h hv.symm hl), ?_,
      fun hl hs => hdo (updCheck_size hu.symm h hv.symm hl (hrd ▸ hs))⟩⟩
    exact fun hl hs => ⟨fun h0 => hdo (updCheck_passes hu.symm h hv.symm hl hrd.symm hs h0),
      fun n hn h0 => hdo (updCheck_fails hu.symm h hv.symm hl hrd.symm hs hn h0)⟩
  · rintro slot _ rfl cmd t ht
    have hk : slot.toNat < 16 := slot.isLt
    have hinval {ok : Bool} {x : State} (hc : cmd = 2) (h : updInval (run cmd (updDie s) slot.toNat) slot.toNat ok = x) :
        exec (.mstInval slot ok) s = .next x :=
      updGo_starts (by decide) hdie hk ho hm hq (hready _ _ _) ((updRun_inval hdie hk).trans (hc ▸ h))
    have herase {ok : Bool} {x : State} (hc : cmd = 3) (h : updErase (run cmd (updDie s) slot.toNat) slot.toNat ok = x) :
        exec (.mstErase slot ok) s = .next x :=
      updGo_starts (by decide) hdie hk ho hm hq (hready _ _ _) ((updRun_erase hdie hk).trans (hc ▸ h))
    have hprogram {ok : Bool} {x : State} (hc : cmd = 4) (h : updProgram (run cmd (updDie s) slot.toNat) slot.toNat ok = x) :
        exec (.mstProgram slot ok) s = .next x :=
      updGo_starts (by decide) hdie hk ho hm hq (hready _ _ _) ((updRun_program hdie hk).trans (hc ▸ h))
    have hcommit {ok : Bool} {x : State} (hc : cmd = 5) (h : updCommit (run cmd (updDie s) slot.toNat) slot.toNat ok = x) :
        exec (.mstCommit slot ok) s = .next x :=
      updGo_starts (by decide) hdie hk ho hm hq (hready _ _ _) ((updRun_commit hdie hk).trans (hc ▸ h))
    have ht' := ht.symm
    refine ⟨fun hr ok => ⟨fun hc => hinval hc (updInval_running ht' hr), fun hc => herase hc (updErase_running ht' hr),
      fun hc => hprogram hc (updProgram_running ht' hr), fun hc => hcommit hc (updCommit_running ht' hr)⟩, fun hr h10 ok =>
      ⟨fun hc => hinval hc (updInval_noSlot ht' hr h10), fun hc => herase hc (updErase_refused ht' hr (.inl h10)),
        fun hc => hprogram hc (updProgram_refused ht' hr (.inl h10))⟩, fun hr hlt => ⟨fun hc => ?_, ?_, ?_, ?_, ?_, ?_⟩⟩
    · exact ⟨hinval hc ((updInval_eq ht' hr hlt).trans (if_neg (by decide))), hinval hc ((updInval_eq ht' hr hlt).trans (if_pos rfl))⟩
    · exact fun hc hcom ok => herase hc (updErase_refused ht' hr (.inr hcom))
    · exact fun hc hcom => ⟨herase hc ((updErase_eq ht' hr hlt hcom).trans (if_neg (by decide))), herase hc ((updErase_eq ht' hr hlt hcom).trans (if_pos rfl))⟩
    · intro hc rd u hrd hu hcom hbl hch hkind hp
      exact ⟨hprogram hc ((updProgram_eq ht' hr hlt hcom hbl hch hkind hp hrd.symm hu.symm).trans (if_neg (by decide))),
        hprogram hc ((updProgram_eq ht' hr hlt hcom hbl hch hkind hp hrd.symm hu.symm).trans (if_pos rfl))⟩
    · exact fun hc h ok => hprogram hc (updProgram_refused ht' hr (.inr h))
    · rintro hc had rfl
      exact ⟨fun h => ⟨hcommit hc ((updCommit_eq ht' hr h).trans (if_neg (by decide))), hcommit hc ((updCommit_eq ht' hr h).trans (if_pos rfl))⟩,
        fun h ok => hcommit hc (updCommit_refused ht' hr h)⟩
  · rintro target _ t rfl ht
    have hdo {x : State} (h : updJreport t target.toNat = x) : exec (.jreport target) s = .next x :=
      updGo_starts (by decide) target.isLt hslot ho hm hq ((hready _ _ _).trans ht.symm) ((updRun_jreport target.isLt hslot).trans h)
    exact ⟨fun h => hdo (updJreport_refused h), fun l hd hl h0 hq => hdo (updJreport_writes hd hl h0 hq.symm)⟩

end Sys2Proof.Machine
end

section
/-! SUPPORT. The staging pointer and the fuses (R597, R602, R605). -/

namespace Sys2Proof.Machine

/-! ### The value of `FUS_PROG` (R602) -/

section Value
variable {x a : Nat} (hx : x < 16) (ha : a < 8)
include ha

theorem fusValue_arg (n : Nat) (hn : n % 8 = 0) : fld (n + x * 2 ^ 8 + a) 2 0 = a := by
  simp only [fld]; omega

include hx

theorem fusValue_target (n : Nat) (hn : n % 2 ^ 12 = 0) : fld (n + x * 2 ^ 8 + a) 11 8 = x := by
  simp only [fld]; omega

theorem fusArm_bits : bitOf (2 ^ 30 + x * 2 ^ 8 + a) 31 = false ∧ bitOf (2 ^ 30 + x * 2 ^ 8 + a) 30 = true := by
  have h31 : (2 ^ 30 + x * 2 ^ 8 + a) / 2 ^ 31 % 2 = 0 := by omega
  have h30 : (2 ^ 30 + x * 2 ^ 8 + a) / 2 ^ 30 % 2 = 1 := by omega
  exact ⟨by simpa [bitOf] using h31, by simpa [bitOf] using h30⟩

theorem fusGo_bits : bitOf (2 ^ 31 + x * 2 ^ 8 + a) 31 = true ∧ bitOf (2 ^ 31 + x * 2 ^ 8 + a) 30 = false := by
  have h31 : (2 ^ 31 + x * 2 ^ 8 + a) / 2 ^ 31 % 2 = 1 := by omega
  have h30 : (2 ^ 31 + x * 2 ^ 8 + a) / 2 ^ 30 % 2 = 0 := by omega
  exact ⟨by simpa [bitOf] using h31, by simpa [bitOf] using h30⟩

variable {s t : State} (ht : setF (setF s 0 bFus rFusProg 11 8 x) 0 bFus rFusProg 2 0 a = t)
include ht

theorem fusCommand_arm : fusCommand s (2 ^ 30 + x * 2 ^ 8 + a) = { t with mst := { t.mst with armed := some (x, a, timeOf t 0) } } := by
  obtain ⟨h31, h30⟩ := fusArm_bits hx ha
  unfold fusCommand
  rw [fusValue_target hx ha _ (by decide), fusValue_arg ha _ (by decide), ht, h31, h30]
  rfl

theorem fusCommand_go : fusCommand s (2 ^ 31 + x * 2 ^ 8 + a) = fusGo t x a := by
  obtain ⟨h31, h30⟩ := fusGo_bits hx ha
  unfold fusCommand
  rw [fusValue_target hx ha _ (by decide), fusValue_arg ha _ (by decide), ht, h31, h30]
  rfl

end Value

/-! ### GO (R602) -/

section Go
variable {t : State} {x a : Nat}

theorem fusGo_unarmed (h : t.mst.armed = none) : fusGo t x a = reject t 0 bFus := by
  unfold fusGo; rw [h]

variable {x' a' : Nat} {since : Word} (h : t.mst.armed = some (x', a', since))
include h

theorem fusGo_refused (hc : x' ≠ x ∨ a' ≠ a ∨ 1000000 < (timeOf t 0 - since).toNat ∨ cmdRuns t 0 bFus rFusProg 0 = true) :
    fusGo t x a = reject t 0 bFus := by
  unfold fusGo
  rw [h]
  refine if_neg fun ⟨hx, ha, htime, hidle⟩ => ?_
  rcases hc with h | h | h | h
  · exact h hx
  · exact h ha
  · exact absurd htime (Nat.not_le.mpr h)
  · exact ne_true_of_eq_false hidle h

variable {u : State} (hx : x' = x) (ha : a' = a) (htime : (timeOf t 0 - since).toNat ≤ 1000000)
  (hidle : cmdRuns t 0 bFus rFusProg 0 = false) (hu : { t with mst := { t.mst with armed := none } } = u)
include hx ha htime hidle hu

theorem fusGo_blows {f : Fuses} {v : State} (hf : burn u.fuses x a = some f) (hv : cmdBegin u 0 bFus rFusProg 0 = v) :
    fusGo t x a = setF { v with fuses := f, mst := { u.mst with fuseJob := some u.fuses } } 0 bFus rFusProg 28 28 0 := by
  subst hu hv
  unfold fusGo
  rw [h]
  refine (if_pos ⟨hx, ha, htime, hidle⟩).trans ?_
  dsimp only at hf ⊢
  rw [hf]

theorem fusGo_noFuse (hf : burn u.fuses x a = none) : fusGo t x a = setF u 0 bFus rFusProg 28 28 1 := by
  subst hu
  unfold fusGo
  rw [h]
  refine (if_pos ⟨hx, ha, htime, hidle⟩).trans ?_
  dsimp only at hf ⊢
  rw [hf]

end Go

/-! ### What a blown fuse leaves (R602) -/

/-- `f` has every fuse blown that `e` has: no key index is given back, and neither a version floor nor the count of debug-closure fuses
falls. -/
def KeepsBlown (e f : Fuses) : Prop :=
  e.mlrev ||| f.mlrev = f.mlrev ∧ e.ecrev ||| f.ecrev = f.ecrev ∧ (e.dbg ≤ 3 → e.dbg ≤ f.dbg) ∧ ∀ k, k < 5 → e.svn.getD k 0 ≤ f.svn.getD k 0

/-- The floors of a part, as five numbers, with one raised. -/
theorem floor_le_raised (l : List Nat) (n : Nat) {k : Nat} (hk : k < 5) :
    l.getD k 0 ≤ (((List.range 5).map fun k => l.getD k 0).set n (((List.range 5).map fun k => l.getD k 0).getD n 0 + 1)).getD k 0 := by
  have hfloor : ((List.range 5).map fun k => l.getD k 0).getD k 0 = l.getD k 0 := by simp [List.getD_eq_getElem?_getD, hk]
  rcases eq_or_ne n k with rfl | hne
  · rw [hfloor]
    simp [List.getD_eq_getElem?_getD, hk]
  · rw [← hfloor, List.getD_eq_getElem?_getD (l := List.set _ _ _), List.getElem?_set_ne hne, ← List.getD_eq_getElem?_getD, hfloor]

theorem burn_keepsBlown {e f : Fuses} {x a : Nat} (h : burn e x a = some f) : KeepsBlown e f := by
  unfold burn at h
  dsimp only at h
  split at h
  · obtain rfl := Option.some.inj h
    exact ⟨Nat.or_self _, Nat.or_self _, id, fun _ _ => le_rfl⟩
  split at h
  · obtain rfl := Option.some.inj h
    exact ⟨by simp, Nat.or_self _, fun _ => le_rfl, fun _ _ => le_rfl⟩
  split at h
  · obtain rfl := Option.some.inj h
    exact ⟨Nat.or_self _, by simp, fun _ => le_rfl, fun _ _ => le_rfl⟩
  split at h
  · obtain rfl := Option.some.inj h
    exact ⟨Nat.or_self _, Nat.or_self _, fun _ => le_rfl, fun _ hk => floor_le_raised _ _ hk⟩
  · cases h

/-- Settles O53: a write of the staging area takes its half of a word, and GO asks for its arm before it asks for its fuse. -/
theorem stagingAndFusesComplete : Obligations.StagingAndFusesComplete := by
  intro s hup hdata haddr hfus
  refine ⟨?_, fun target arg x a t hx ha ht => ?_⟩
  · rintro value _ rfl
    refine ⟨?_, ?_⟩
    · rintro _ rfl _ rfl
      exact regDo_live _ hdata hup
    · rintro _ rfl
      exact regDo_live _ haddr hup
  · have hxl : x < 16 := hx ▸ target.isLt
    have hal : a < 8 := ha ▸ arg.isLt
    have hgo {u : State} (h : fusGo t x a = u) : exec (.fusGo target arg) s = .next u := by
      subst hx ha
      exact (regDo_live _ hfus hup).trans (congrArg Host.Outcome.next ((fusCommand_go hxl hal ht.symm).trans h))
    refine ⟨?_, fun h => hgo (fusGo_unarmed h), fun x' a' since h => ⟨fun hc => hgo (fusGo_refused h hc), fun u hx' ha' htime hidle hu => ⟨?_, ?_⟩⟩⟩
    · subst hx ha
      exact (regDo_live _ hfus hup).trans (congrArg Host.Outcome.next (fusCommand_arm hxl hal ht.symm))
    · exact fun f v hf hv => ⟨hgo (fusGo_blows h hx' ha' htime hidle hu.symm hf hv.symm), burn_keepsBlown hf⟩
    · exact fun hf => hgo (fusGo_noFuse h hx' ha' htime hidle hu.symm hf)

end Sys2Proof.Machine
end

section
/-! SUPPORT. The fault log, withdrawals, links, parity and injection (R513, R522, R523, R540, R541, R546, R547, R567). -/

namespace Sys2Proof.Machine

/-! ### A link that fails stays out (R541) -/

/-- The link is out of service. -/
def LinkOut (d k : Nat) (s : State) : Prop := (getLink s d k).out = true

theorem linkOut_kept (d k : Nat) : Kept (LinkOut d k) where
  same h _ _ _ _ hout := hout d k h
  poke h := ite_wf (P := LinkOut d k) h h

/-- The part stays what it is. -/
theorem part_kept (p : PartKind) : Kept fun s : State => s.part = p where
  same h _ _ hp _ _ := hp.trans h
  poke h := ite_wf (P := fun s : State => s.part = p) h h

section Link
variable {s : State} {d k : Nat}

theorem getLink_modLink_self (f : Link → Link) : getLink (modLink s d k f) d k = f (getLink s d k) := by
  unfold getLink modLink
  rw [getDie_modDie_self]
  dsimp only
  rw [tget_tmod, if_pos rfl]

/-- A link whose flits are turned back is out of service. -/
theorem turnBack_out : LinkOut d k (turnBack s d k) := by
  have hK := linkOut_kept d k
  unfold turnBack
  extract_lets l under src t u v
  have ht : LinkOut d k t :=
    congrArg Link.out (getLink_modLink_self (s := s) fun x => { x with out := true, tx := [], strm := [], coh := [], cohUsed := 0 })
  have hv : LinkOut d k v := foldl_wf (fun _ _ h => turnFlit_kept hK h) (link_kept hK (fun _ h => h) ht)
  exact foldl_wf (fun _ _ h => turnSnoop_kept hK h) hv

theorem linkFail_again {det : Nat} {info : Word} {inj : Bool} (h : (getLink s d k).out = true) : linkFail s d k det info inj = s := if_pos h

theorem linkFail_fails {det : Nat} {info : Word} {inj : Bool} {p : Nat × Nat} {t : State} (h : (getLink s d k).out = false) (hp : linkPeer s d k = p)
    (ht : turnBack (turnBack s d k) p.1 p.2 = t) : linkFail s d k det info inj =
      (List.range (nDies t.part)).foldl (fun u x => if reached u x then u else withdrawDie u x)
        (logDetection t 0 ⟨false, cContained, inj, d, bSys, 2 * d + k, 0x0B, det, 0, timeOf t 0, timeOf t 0, 0, 0, info, 0, 0⟩) := by
  subst hp
  unfold linkFail
  rw [if_neg (ne_true_of_eq_false h)]
  dsimp only
  rw [ht, logDetection_kept (part_kept t.part) rfl]

end Link

/-! ### Withdrawals (R523, R540, R541) -/

section Withdraw
variable {s t : State} {d : Nat}

theorem wdrawCommand_zero (ht : setF s 0 bMdr rMdrWdraw 2 0 d = t) (h : d = 0) : wdrawCommand s d = reject t 0 bMdr := by
  subst ht; exact if_pos h

theorem wdrawCommand_other (ht : setF s 0 bMdr rMdrWdraw 2 0 d = t) (h : d ≠ 0) : wdrawCommand s d = withdrawDie t d := by
  subst ht; exact if_neg h

theorem withdrawDie_gone (h0 : d ≠ 0) (hd : d < nDies s.part) (hw : (getDie s d).withdrawn = false) : withdrawDie s d =
    dieGone (reportAt0 (modDie s d fun x => { x with withdrawn := true }) d bSys d 0x0F10 cContained 0x0A 0 (oldestXnum s d)
      (w64 (getChan s d).limit)) d :=
  if_neg (by simp [h0, hd, hw])

end Withdraw

/-! ### An acknowledgement of a record (R522, R541) -/

section Ack
variable {s t : State} {d k : Nat} (ht : setF s d bMdr rMdrLogack 9 0 k = t)
include ht

theorem logAck_marks {r : FaultRec} (hr : logAt t d k = some r) (ha : r.ack = false) :
    logAck s d k = setLog t d k (some { r with ack := true }) := by
  subst ht
  unfold logAck
  dsimp only
  rw [hr]
  exact if_neg (ne_true_of_eq_false ha)

theorem logAck_twice {r : FaultRec} (hr : logAt t d k = some r) (ha : r.ack = true) : logAck s d k = reject t d bMdr := by
  subst ht
  unfold logAck
  dsimp only
  rw [hr]
  exact if_pos ha

theorem logAck_empty (hr : logAt t d k = none) : logAck s d k = reject t d bMdr := by
  subst ht
  unfold logAck
  dsimp only
  rw [hr]

end Ack

/-- The log of a withdrawn die takes acknowledgements. -/
theorem regDo_logack {s t : State} {d : Nat} (hbus : busBad s (regIdx d bMdr rMdrLogack) true = false)
    (hr : (getDie s d).rstBusy.contains bMdr = false) : regDo s d bMdr rMdrLogack true t = .next t := by
  unfold regDo regTake
  rw [if_neg (ne_true_of_eq_false hbus), if_neg (fun h => h.2 ⟨rfl, rfl⟩), if_neg (ne_true_of_eq_false hr), if_pos rfl]

/-! ### A register of wrong parity (R540) -/

section Parity
variable {s t : State} {d b w : Nat} {inj : Bool}
  (ht : report (setF (modDie s d fun y => { y with perr := ⟨b * 2 ^ 20 + w, getReg s d b w, inj⟩ :: y.perr.filter fun x => x.word != b * 2 ^ 20 + w })
    d b rBlkCtl 0 0 0) d b 0xFF 0x0F04 cContained 0x07 0 0 (w64 w) inj = t)
include ht

theorem parityFault_spar (hb : blkKind b = some .clu) : parityFault s d b w inj = sparOut t (gspar d (b - 0x20)) := by
  subst ht
  unfold parityFault
  rw [hb]

theorem parityFault_block (hb : blkKind b = some .xlt ∨ blkKind b = some .sch ∨ blkKind b = some .hxp ∨ blkKind b = some .umb) :
    parityFault s d b w inj = t := by
  subst ht
  unfold parityFault
  rcases hb with hb | hb | hb | hb <;> rw [hb]

end Parity

/-! ### Arming an injection (R546, R547) -/

section Inject
variable {s t : State} {d v : Nat} (ht : setReg s d bMdr rMdrInjctl (v % 2 ^ 30) = t)
include ht

theorem injCommand_fields (hgo : bitOf v 31 = false) : injCommand s d v = t := by
  subst ht
  exact if_pos (by rw [hgo]; rfl)

variable (hgo : bitOf v 31 = true)
include hgo

theorem injCommand_second (h : (getDie t d).inj.isSome = true) : injCommand s d v = reject t d bMdr := by
  subst ht
  exact (if_neg (by rw [hgo]; decide)).trans (if_pos h)

variable (h : (getDie t d).inj = none) {b u e : Nat} {w : State} (hb : getF t d bMdr rMdrInjtgt 31 24 = b) (hu : getF t d bMdr rMdrInjtgt 23 16 = u)
  (he : injErr t d (fld v 15 0) b u (fld v 29 28) = e) (hw : setF t d bMdr rMdrInjtgt 1 0 e = w)
include h hb hu he hw

theorem injCommand_judged : injCommand s d v = if e ≠ 0 then w else
    modDie w d fun x => { x with inj := some ⟨max 1 (fld v 19 16), b, u, fld v 15 0, fld v 29 28, fld v 27 20⟩ } := by
  subst hw he hb hu ht
  exact (if_neg (by rw [hgo]; decide)).trans (if_neg (by rw [h]; decide))

end Inject

/-- Settles O48: the contact, an acknowledgement, a withdrawal, a failing link, a parity error and an injection each by the cases of its command. -/
theorem faultsAreLoggedAndContained : Obligations.FaultsAreLoggedAndContained := by
  intro s
  refine ⟨fun ha hr => ?_, rfl, fun drive minclass ho => regDo_live _ ho rfl, fun target ho hl t ht => ⟨fun h0 => ?_, fun h0 => ?_⟩, ?_⟩
  · unfold faultN
    rw [ha, hr]
    rfl
  · exact (regDo_live _ ho hl).trans (congrArg Host.Outcome.next (wdrawCommand_zero ht.symm h0))
  · exact (regDo_live _ ho hl).trans (congrArg Host.Outcome.next (wdrawCommand_other ht.symm h0))
  rintro die _ rfl hd
  refine ⟨fun slot t hbus hr ht => ?_, fun hl => ⟨fun h0 => unitDo_eq hd hl (if_pos h0), fun h0 => unitDo_eq hd hl (if_neg h0),
    fun h0 hw => withdrawDie_gone h0 hd hw, ?_, ?_, ?_, ?_⟩⟩
  · have hdo {u : State} (h : logAck s die slot = u) : exec (.mdrLogack die slot) s = .next u := h ▸ regDo_logack hbus hr
    exact ⟨fun r h ha => hdo (logAck_marks ht.symm h ha), fun r h ha => hdo (logAck_twice ht.symm h ha), fun h => hdo (logAck_empty ht.symm h)⟩
  · rintro link _ p t rfl hp ht
    refine ⟨fun h => unitDo_eq hd hl (linkFail_again h), fun h => ⟨?_, ?_, unitDo_eq hd hl (linkFail_fails h hp.symm ht.symm)⟩⟩
    · rw [ht]
      exact turnBack_kept (linkOut_kept die link) turnBack_out
    · rw [ht]
      exact turnBack_out
  · rintro blk _ rfl hk hen
    have hlive : (dieLive s die && (blkKind blk.toNat).isSome && blkEn s die blk.toNat) = true := by rw [hl, hk, hen]; rfl
    refine ⟨fun hm => unitDo_eq hd hlive (by rw [hm]), fun w l lo hm hlo => unitDo_eq hd hlive ?_⟩
    rw [hm, hlo]
  · intro b w inj t ht
    exact ⟨parityFault_spar ht.symm, parityFault_block ht.symm⟩
  · rintro value _ t ho rfl ht
    have hdo {u : State} (h : injCommand s die value.toNat = u) : exec (.mdrInjctl die value) s = .next u := h ▸ regDo_live _ ho hl
    refine ⟨fun hgo => hdo (injCommand_fields ht.symm hgo), fun hgo h => hdo (injCommand_second ht.symm hgo h),
      fun b u e w hgo h hb hu he hw => ?_⟩
    have hj := injCommand_judged ht.symm hgo h hb.symm hu.symm he.symm hw.symm
    exact ⟨fun h0 => hdo (hj.trans (if_pos h0)), fun h0 => hdo (hj.trans (if_neg (not_not.mpr h0)))⟩

end Sys2Proof.Machine
end

section
/-! SUPPORT. A failing supply and the sealed-standby domain (R385, R564, R579, R610, R612 to R615, R639). -/

namespace Sys2Proof.Machine

/-! ### A cause of the warning (R579, R610) -/

section Warn
variable {s : State}

/-- A raise changes registers only. -/
theorem evRaise_state (s : State) (d k : Nat) : ∃ c, evRaise s d k = { s with csr := c } := by
  unfold evRaise evTake
  dsimp only
  split
  · split
    · exact ⟨_, rfl⟩
    · exact ⟨s.csr, rfl⟩
  · split
    · exact ⟨_, rfl⟩
    · exact ⟨s.csr, rfl⟩
  · split
    · exact ⟨_, rfl⟩
    · exact ⟨s.csr, rfl⟩
  · split
    · split
      · exact ⟨_, rfl⟩
      · exact ⟨_, rfl⟩
    · exact ⟨s.csr, rfl⟩

theorem evRaise_pw (s : State) (d k : Nat) : (evRaise s d k).pw = s.pw := by
  obtain ⟨c, hc⟩ := evRaise_state s d k
  rw [hc]

/-- A raise does not move the start. -/
theorem started_evRaise {d k : Nat} (hk : rEvcCfg + k < 2 ^ 20) : started (evRaise s d k) = started s := by
  unfold started startStep startLevel getF
  rw [evRaise, getReg_evTake _ _ _ _ _ _ _ _ (by decide) (by decide) hk (by decide)]

section Aux
variable (ha : s.pw.aux = true) (hr : s.mst.resetN = false)
include ha hr

theorem exec_powerFailWarning {t : State} {cause : WarnCause} (h : powerFail s cause = t) : exec (.powerFailWarning cause) s = .next t :=
  congrArg Host.Outcome.next ((if_pos (by rw [ha, hr]; rfl)).trans h)

end Aux

variable (hw : s.pw.warned = false)
include hw

theorem powerFail_pfwN_started (h : started s = true) : powerFail s .pfwN = warn (evRaise s 0 0xC47) := by
  unfold powerFail
  dsimp only
  rw [hw, if_neg Bool.false_ne_true, started_evRaise (by decide), if_pos h, evRaise_pw, hw, if_neg Bool.false_ne_true]

theorem powerFail_pfwN_starting (h : started s = false) : powerFail s .pfwN = backToFive (evRaise s 0 0xC47) := by
  unfold powerFail
  dsimp only
  rw [hw, if_neg Bool.false_ne_true, started_evRaise (by decide), h, if_neg Bool.false_ne_true]

theorem powerFail_vinLow (h : started s = true) (hv : s.pw.hv = true) : powerFail s .vinLow = warn s :=
  (if_pos ⟨h, hv⟩).trans (if_neg (ne_true_of_eq_false hw))

theorem powerFail_pwrokLow (h : started s = true) : powerFail s .pwrokLow = warn { s with mst := { s.mst with pwrok := false } } :=
  (if_pos h).trans (if_neg (ne_true_of_eq_false hw))

end Warn

/-! ### Loss of VIN48 (R564, R612, R637) -/

section Vin48
variable {s : State} {early : Bool}

theorem exec_vin48Loss_off (h : s.pw.hv = false) : exec (.vin48Loss early) s = .next s := congrArg Host.Outcome.next (if_pos (by rw [h]; rfl))

variable (hv : s.pw.hv = true)
include hv

theorem exec_vin48Loss_serving (h : started s = true ∨ s.fatal = true) : exec (.vin48Loss early) s =
    .next (stopHv (heldLost (if s.pw.warned && early then s else report s 0 bPwr 0xFF 0x0701 cFatal 0x0C 0 0 0))) :=
  congrArg Host.Outcome.next ((if_neg (by rw [hv]; decide)).trans (if_pos h))

theorem exec_vin48Loss_starting (h : started s = false) (hf : s.fatal = false) : exec (.vin48Loss early) s = .next (backToFive s) :=
  congrArg Host.Outcome.next ((if_neg (by rw [hv]; decide)).trans (if_neg (by rw [h, hf]; decide)))

end Vin48

/-! ### The sealed-standby domain (R613 to R615) -/

theorem emptyVault_kept : Kept fun s : State => s.vault = [] where
  same h _ _ _ hv _ := hv.trans h
  poke h := ite_wf (P := fun s : State => s.vault = []) h h

theorem zeroise_vault (s : State) (cause : Nat) : (zeroise s cause).vault = [] := by
  unfold zeroise
  extract_lets n t
  exact ite_wf (P := fun s : State => s.vault = []) (evRaise_kept emptyVault_kept (report_kept emptyVault_kept rfl)) rfl

section Domain
variable {s : State}

theorem domainPower_had (h : s.pw.domainLost = false) : domainPower s = s := if_neg (ne_true_of_eq_false h)

theorem domainPower_lost {f : Word × State} (h : s.pw.domainLost = true)
    (hf : takeFree { s with pw := { s.pw with domainLost := false } } = f) :
    domainPower s = zeroise (setReg (setReg f.2 0 bPwr rPwrRtcHi (wfld f.1 47 32)) 0 bPwr rPwrRtcLo (wfld f.1 31 0)) 5 := by
  subst hf
  exact if_pos h

theorem exec_tamperZeroise {cause : TamperCause} (hd : s.pw.domainLost = false) (hc : cause ≠ .vbatLow ∨ s.pw.aux = false) :
    exec (.tamperZeroise cause) s = .next (zeroise s (tamperCode cause)) :=
  congrArg Host.Outcome.next (if_neg (by rcases hc with hc | hc <;> simp [hd, hc]))

end Domain

/-! ### Loss of AUX (R598, R599, R602, R613, R655) -/

/-- What is not cut off with the Masthead's jobs. -/
def SameButCut (s t : State) : Prop :=
  t.csr = s.csr ∧ t.vault = s.vault ∧ t.mem = s.mem ∧ t.portCnt = s.portCnt ∧ t.pw = s.pw ∧ t.fatal = s.fatal

theorem flCut_same (s : State) (j : FlashJob) : SameButCut s (flCut s j) := by
  cases j with
  | append a => exact ⟨rfl, rfl, rfl, rfl, rfl, rfl⟩
  | erase a n held => exact ⟨rfl, rfl, rfl, rfl, rfl, rfl⟩
  | program a n => exact ⟨rfl, rfl, rfl, rfl, rfl, rfl⟩

theorem cutJobs_same (s : State) : SameButCut s (cutJobs s) := by
  unfold cutJobs
  extract_lets t
  have ht : SameButCut s t := by
    unfold t
    split
    · exact ite_wf (P := SameButCut s) (flCut_same s _) ⟨rfl, rfl, rfl, rfl, rfl, rfl⟩
    · exact ⟨rfl, rfl, rfl, rfl, rfl, rfl⟩
  clear_value t
  split
  · exact ite_wf (P := SameButCut s) (ite_wf (P := SameButCut s) ht ht) ht
  · exact ht

theorem cutJobs_none {s : State} (hj : s.mst.job = none) (hf : s.mst.fuseJob = none) : cutJobs s = s := by
  unfold cutJobs
  rw [hj]
  dsimp only
  rw [hf]

section AuxLoss
variable {s : State}

/-- The state of the part without AUX. -/
def auxLost (s : State) (vbat : Bool) : State :=
  { keptAlways (cutJobs s) with
    csr := keepRegs (cutJobs s) standbyReg
    vault := if vbat then (cutJobs s).vault else []
    rawHalt := (cutJobs s).rawHalt
    pw := { Power.init with aux := false, domainLost := !vbat, unseen := (cutJobs s).pw.unseen, rtcHeld := (cutJobs s).pw.rtcHeld, alarm := (cutJobs s).pw.alarm } }

theorem exec_auxLoss {vbat : Bool} (h : s.pw.aux = true) : exec (.auxLoss vbat) s = .next (auxLost s vbat) :=
  congrArg Host.Outcome.next (if_pos h)

theorem exec_auxLoss_again {vbat : Bool} (h : s.pw.aux = false) :
    exec (.auxLoss vbat) s = .next (if vbat then domainPower s else { s with vault := [], pw := { s.pw with domainLost := true } }) :=
  congrArg Host.Outcome.next (if_neg (ne_true_of_eq_false h))

/-- The domain keeps its clock and, on VBAT, the vault; memory behind the root ports keeps its contents. -/
theorem auxLost_keeps (s : State) (vbat : Bool) : (auxLost s vbat).vault = (if vbat then s.vault else []) ∧
    (auxLost s vbat).csr = keepRegs s standbyReg ∧ (auxLost s vbat).mem = cxlMem s := by
  obtain ⟨hc, hv, hm, -⟩ := cutJobs_same s
  refine ⟨?_, ?_, ?_⟩
  · show (if vbat then (cutJobs s).vault else []) = _
    rw [hv]
  · show (cutJobs s).csr.filter _ = _
    rw [hc]
    rfl
  · show (cutJobs s).mem.filter _ = _
    rw [hm]
    rfl

theorem auxLost_noJob {vbat : Bool} (hj : s.mst.job = none) (hf : s.mst.fuseJob = none) :
    (auxLost s vbat).flash = s.flash ∧ (auxLost s vbat).fuses = s.fuses := by
  unfold auxLost
  rw [cutJobs_none hj hf]
  exact ⟨rfl, rfl⟩

theorem exec_auxRestore (h : s.pw.aux = false) : exec .auxRestore s = .next (domainPower { s with pw := { s.pw with aux := true } }) :=
  congrArg Host.Outcome.next (if_neg (ne_true_of_eq_false h))

/-- A domain that has kept its power has not lost it. -/
theorem domainKept {p : Power} (h : p.domainLost = false) : { p with aux := true } = { p with aux := true, domainLost := false } := by
  cases p
  dsimp only at h
  subst h
  rfl

theorem exec_auxRestore_had (ha : s.pw.aux = false) (h : s.pw.domainLost = false) :
    exec .auxRestore s = .next { s with pw := { s.pw with aux := true, domainLost := false } } := by
  rw [exec_auxRestore ha, ← domainKept h]
  exact congrArg Host.Outcome.next (domainPower_had (s := { s with pw := { s.pw with aux := true } }) h)

end AuxLoss

/-- Settles O54: a cause of the warning acts by how far the start has come, VIN48 by what the part serves, and the domain by the power it has. -/
theorem supplyFailuresAndTamper : Obligations.SupplyFailuresAndTamper := by
  intro s
  refine ⟨fun ha hr => ⟨fun hst hv hw => ⟨?_, ?_, ?_⟩, fun hst hw => exec_powerFailWarning ha hr (powerFail_pfwN_starting hw hst)⟩,
    fun hv hst lost hlost => ?_, fun hv hst hf early => exec_vin48Loss_starting hv hst hf, fun hv early => exec_vin48Loss_off hv,
    fun cause hd hc => exec_tamperZeroise hd hc, zeroise_vault s, ?_, fun ha => ⟨?_, ?_, ?_⟩, fun ha => ⟨_, exec_auxLoss ha⟩, ?_, fun hd => ⟨?_, ?_⟩⟩
  · exact exec_powerFailWarning ha hr (powerFail_vinLow hw hst hv)
  · exact exec_powerFailWarning ha hr (powerFail_pfwN_started hw hst)
  · exact exec_powerFailWarning ha hr (powerFail_pwrokLow hw hst)
  · obtain rfl : lost = heldLost := funext hlost
    refine ⟨?_, fun hw => ?_, fun hw => ?_⟩
    · rw [exec_vin48Loss_serving hv hst, Bool.and_false, if_neg Bool.false_ne_true]
    · rw [exec_vin48Loss_serving hv hst, hw, Bool.false_and, if_neg Bool.false_ne_true]
    · rw [exec_vin48Loss_serving hv hst, hw, Bool.true_and, if_pos rfl]
  · intro ha vbat t ht
    obtain rfl : auxLost s vbat = t := Host.Outcome.next.inj ((exec_auxLoss ha).symm.trans ht)
    obtain ⟨hvault, hcsr, hmem⟩ := auxLost_keeps s vbat
    exact ⟨rfl, hvault, hcsr, hmem, auxLost_noJob⟩
  · exact exec_auxLoss_again ha
  · exact fun hl => (exec_auxLoss_again ha).trans (congrArg Host.Outcome.next (domainPower_had hl))
  · exact fun f hl hf => (exec_auxLoss_again ha).trans (congrArg Host.Outcome.next (domainPower_lost hl hf.symm))
  · rintro ha _ rfl
    exact ⟨exec_auxRestore_had ha,
      fun f hl hf => (exec_auxRestore ha).trans (congrArg Host.Outcome.next (domainPower_lost hl hf.symm))⟩
  · exact fun value ho => regDo_live _ ho hd
  · exact fun ho => regDo_live _ ho hd

end Sys2Proof.Machine
end

section
/-! SUPPORT. Umber, gating and the TIMEBASE (R546, R566, R619, R629 to R633, R635, R637, R639). -/

namespace Sys2Proof.Machine

/-! ### A sample of the monitors (R630, R637) -/

section Sample
variable {s t : State} {d : Nat} {reads : List Nat} {inj : Bool}

section Monitors
variable (ht : (List.range 64).foldl (fun s m => setF s d bUmb (rUmbMon + m) 15 0 (reads.getD m 0)) s = t)
include ht

theorem takeSample_good (h : ∀ m ∈ [61, 62, 63], refGood t d m (reads.getD m 0) = true) : takeSample s d reads inj =
    countF (modDie t d fun x => { x with samples := x.samples ++ [(List.range 64).map fun m => reads.getD m 0] }) d bUmb rUmbStat 15 8 1 := by
  subst ht
  unfold takeSample
  dsimp only
  rw [List.find?_eq_none.mpr fun m hm => by rw [h m hm]; decide]
  rfl

theorem takeSample_bad {m : Nat} (h : ([61, 62, 63].find? fun m => !refGood t d m (reads.getD m 0)) = some m) :
    takeSample s d reads inj = report t d bUmb m 0x0711 cDeferred 0x00 0 0 0 inj := by
  subst ht
  unfold takeSample
  dsimp only
  rw [h]
  rfl

end Monitors

theorem sampleDie_unarmed (h : armed s d 0x0711 bUmb 61 3 = none) : sampleDie s d reads = takeSample s d reads false := by
  unfold sampleDie
  rw [h]

theorem sampleDie_armed (h : armed s d 0x0711 bUmb 61 3 ≠ none) : sampleDie s d reads =
    takeSample (injUse s d) d ((List.range 64).map fun m => if m = 61 then reads.getD m 0 * 96 / 100 else reads.getD m 0) true := by
  obtain ⟨j, hj⟩ := Option.ne_none_iff_exists'.mp h
  unfold sampleDie
  rw [hj]

end Sample

/-! ### Commands of `UMB_CMD` (R566, R639) -/

section Command
variable {s q t : State} {d op : Nat} {effect : State → State}

theorem umbGo_eq : umbGo s d op effect = startCmd s d bUmb rUmbCmd 0 (fun s => setF s d bUmb rUmbCmd 29 28 op) fun s =>
    if s.pw.hv && mstUp s then effect (setF s d bUmb rUmbCmd 29 28 op) else setF s d bUmb rUmbCmd 29 28 op := rfl

variable (ht : setF q d bUmb rUmbCmd 29 28 op = t)
include ht

theorem umbGo_busy (h : StillRuns s d bUmb rUmbCmd 0 q) : umbGo s d op effect = reject t d bUmb :=
  ht ▸ umbGo_eq.trans (startCmd_busy _ _ h)

theorem umbGo_starts (h : Starts s d bUmb rUmbCmd 0 q) (hv : q.pw.hv = true) (hm : mstUp q = true) : umbGo s d op effect = effect t :=
  ht ▸ umbGo_eq.trans ((startCmd_go _ _ h).trans (if_pos (by rw [hv, hm]; rfl)))

end Command

/-! ### The ageing log (R633) -/

section Ageing
variable {s : State} {r : AgeRec} {l : List AgeRec} (hm : mstUp s = true) (hst : startStep s = 15) (h : s.ageDue = r :: l)
include hm hst h

theorem exec_ageingLogWrite (ok : Bool) : exec (.ageingLogWrite ok) s = .next (if ok then ageAppend { s with ageDue := l } r
    else report { s with ageDue := l, ageHeld := s.ageHeld ++ [r] } r.die bUmb 0xFF 0x0714 cDeferred 0x00 0 0 0) := by
  refine (congrArg Host.Outcome.next (if_pos ⟨hm, hst⟩)).trans (congrArg Host.Outcome.next ?_)
  unfold ageingWrite
  rw [h]

end Ageing

/-! ### A canary's interval (R630, R631) -/

section Canary
variable {s : State} {d hits : Nat} {place : CanaryAt}

theorem canaryEnd_armed (h : canaryArmed s d place ≠ none) : canaryEnd s d place hits = canaryLimit (injUse s d) d 0 true place := by
  obtain ⟨j, hj⟩ := Option.ne_none_iff_exists'.mp h
  unfold canaryEnd
  rw [hj]

variable (h : canaryArmed s d place = none)
include h

theorem canaryEnd_exceeds (hh : getF s d bUmb rUmbCfg 15 8 < hits) : canaryEnd s d place hits = canaryLimit s d 0 false place := by
  unfold canaryEnd
  rw [h]
  exact if_pos hh

theorem canaryEnd_within (hh : hits ≤ getF s d bUmb rUmbCfg 15 8) : canaryEnd s d place hits = s := by
  unfold canaryEnd
  rw [h]
  exact if_neg (Nat.not_lt.mpr hh)

end Canary

/-! ### Gating (R566, R635) -/

section Gate
variable {s q : State} {d b u : Nat} {off : Bool} {src : CsrSrc} {ask : Nat → Nat → State}
  (hask : ∀ off e, ask off e = setReg q d bPwr rPwrGate (off * 2 ^ 29 + e * 2 ^ 27 + u * 2 ^ 8 + b))
include hask

theorem gateCommand_busy (h : StillRuns s d bPwr rPwrGate 0 q) :
    gateCommand s d b u off src = reject (ask (b2n off) (getF q d bPwr rPwrGate 28 27)) d bPwr := by
  rw [hask]
  exact startCmd_busy _ _ h

/-- A request that is judged with error `e` shows it. -/
theorem gateRun_eq {e : Nat} (he : (if gateTarget b u then gateErr q d b u off src else 0) = e) : gateRun q d b u off src =
    if e = 2 then evRaise (count (ask (b2n off) e) d bPwr rPwrGaterej) d 0xC09
    else if e = 1 ∨ !gateTarget b u then ask (b2n off) e
    else if off then gateOff (ask (b2n off) e) d b u else gateOn (ask (b2n off) e) d b u := by
  subst he
  rw [hask]
  rfl

theorem gateRun_noTarget (h : gateTarget b u = false) : gateRun q d b u off src = ask (b2n off) 0 := by
  rw [gateRun_eq hask (e := 0) (by rw [h]; rfl), h]
  rfl

variable (h : gateTarget b u = true)
include h

theorem gateRun_busy (hb : gateBusy q d b u = true) : gateRun q d b u true src = ask 1 1 := by
  rw [gateRun_eq hask (e := 1) (by rw [h]; simp [gateErr, hb])]
  rfl

theorem gateRun_held (hb : (off && gateBusy q d b u) = false) (hh : heldFrom q d b src = true) :
    gateRun q d b u off src = evRaise (count (ask (b2n off) 2) d bPwr rPwrGaterej) d 0xC09 := by
  rw [gateRun_eq hask (e := 2) (by rw [h]; simp [gateErr, hb, hh])]
  rfl

theorem gateRun_acts (hb : (off && gateBusy q d b u) = false) (hh : heldFrom q d b src = false) :
    gateRun q d b u off src = if off then gateOff (ask (b2n off) 0) d b u else gateOn (ask (b2n off) 0) d b u := by
  rw [gateRun_eq hask (e := 0) (by rw [h]; simp [gateErr, hb, hh]), h]
  rfl

end Gate

/-- Settles O56: samples by their references, canaries by their limit, the ageing log by the flash, and `PWR_GATE` by the errors in their order. -/
theorem umberGatingAndTimebase : Obligations.UmberGatingAndTimebase := by
  intro s
  refine ⟨fun hv hm => ⟨fun reads => ?_, ?_⟩, fun d reads t ht => ⟨fun h inj => takeSample_good ht.symm h, fun m inj h => takeSample_bad ht.symm h⟩,
    fun d reads => ⟨sampleDie_unarmed, sampleDie_armed⟩, fun hm hst r l h =>
      ⟨(exec_ageingLogWrite hm hst h true).trans (congrArg _ (if_pos rfl)), (exec_ageingLogWrite hm hst h false).trans (congrArg _ (if_neg (by decide)))⟩,
    fun hv => congrArg Host.Outcome.next (if_pos hv), ?_⟩
  · exact congrArg Host.Outcome.next (if_pos (by rw [hv, hm]; rfl))
  · exact congrArg Host.Outcome.next (if_pos (by rw [hv, hm]; rfl))
  rintro die _ rfl hd hup
  refine ⟨?_, ?_, ?_, ?_, ?_, ?_⟩
  · intro reads q t ho ht
    have hdo {u : State} (h : sampleNow s die reads = u) : exec (.umbSampleNow die reads) s = .next u := h ▸ regDo_live _ ho hup
    exact ⟨fun h => hdo (umbGo_busy ht.symm h), fun h hv hm => hdo (umbGo_starts ht.symm h hv hm)⟩
  · intro q t ho ht
    have hdo {u : State} (h : replanNow s die = u) : exec (.umbReplanNow die) s = .next u := h ▸ regDo_live _ ho hup
    exact ⟨fun h => hdo (umbGo_busy ht.symm h), fun h hv hm => hdo (umbGo_starts ht.symm h hv hm)⟩
  · intro place hits hv
    have hdo {u : State} (h : canaryEnd s die place hits = u) : exec (.canaryIntervalEnd die place hits) s = .next u :=
      unitDo_eq hd hup ((if_pos hv).trans h)
    exact ⟨fun h => hdo (canaryEnd_armed h), fun h hh => hdo (canaryEnd_exceeds h hh), fun h hh => hdo (canaryEnd_within h hh)⟩
  · exact fun info inj j h => if_pos h
  · exact fun info inj => ⟨fun j h => if_neg (Nat.not_lt.mpr h), fun r h => if_neg (Nat.not_lt.mpr h), fun n p h => if_neg (Nat.not_lt.mpr h)⟩
  · rintro blk unit src _ _ q ho rfl rfl ask hask
    have hoff {u : State} (h : gateCommand s die blk.toNat unit.toNat true src = u) : exec (.gatePowerOff die blk unit src) s = .next u :=
      h ▸ regDo_live _ ho hup
    have hon {u : State} (h : gateCommand s die blk.toNat unit.toNat false src = u) : exec (.gatePowerOn die blk unit src) s = .next u :=
      h ▸ regDo_live _ ho hup
    refine ⟨fun h => ⟨hoff (gateCommand_busy hask h), hon (gateCommand_busy hask h)⟩, fun h ht => ?_, fun h ht => ?_⟩
    · exact ⟨hoff ((startCmd_go _ _ h).trans (gateRun_noTarget hask ht)), hon ((startCmd_go _ _ h).trans (gateRun_noTarget hask ht))⟩
    · refine ⟨fun hb => ?_, fun hb hh => ?_, fun hb hh => ?_, fun hh => ?_, fun hh => ?_⟩
      · exact hoff ((startCmd_go _ _ h).trans (gateRun_busy hask ht hb))
      · exact hoff ((startCmd_go _ _ h).trans (gateRun_acts hask ht (by rw [hb]; rfl) hh))
      · exact hoff ((startCmd_go _ _ h).trans (gateRun_held hask ht (by rw [hb]; rfl) hh))
      · exact hon ((startCmd_go _ _ h).trans (gateRun_acts hask ht rfl hh))
      · exact hon ((startCmd_go _ _ h).trans (gateRun_held hask ht rfl hh))

end Sys2Proof.Machine
end

section
/-! SUPPORT. Words, accesses and counters of the service ports (R591, R607, R651 to R655). -/

namespace Sys2Proof.Machine

/-! ### A port of the two (R651) -/

section Port
variable {s : State} {p : PortId} {f : Port → Port}

@[simp] theorem getPort_modPort (s : State) (p : PortId) (f : Port → Port) : getPort (modPort s p f) p = f (getPort s p) := by
  cases p with | spi => rfl | i3c => rfl

@[simp] theorem modPort_mem (s : State) (p : PortId) (f : Port → Port) : (modPort s p f).mem = s.mem := by
  cases p with | spi => rfl | i3c => rfl

@[simp] theorem modPort_csr (s : State) (p : PortId) (f : Port → Port) : (modPort s p f).csr = s.csr := by
  cases p with | spi => rfl | i3c => rfl

@[simp] theorem modPort_spiDead (s : State) (p : PortId) (f : Port → Port) : (modPort s p f).spiDead = s.spiDead := by
  cases p with | spi => rfl | i3c => rfl

@[simp] theorem modPort_portCnt (s : State) (p : PortId) (f : Port → Port) : (modPort s p f).portCnt = s.portCnt := by
  cases p with | spi => rfl | i3c => rfl

end Port

theorem portDo_up {s t : State} (h : mstUp s = true) : portDo s t = .next t := congrArg Host.Outcome.next (if_pos h)

/-! ### A word that a port discards (R651) -/

/-- A port whose word is discarded waits for a command and shows so. -/
theorem discardWord_shows (t : State) (p : PortId) (n : Nat) : ∃ u, discardWord t p n = evRaise u 0 (discardSrc p) ∧
    (getPort u p).frm = true ∧ (getPort u p).want = .command ∧ (getPort u p).out = statusWord (getPort u p) ∧
    portReg u n = satAdd 32 (portReg t n) 1 := by
  refine ⟨showStatus (modPort (portCount t n) p fun x => { x with want := .command, frm := true }) p, rfl, ?_, ?_, ?_, ?_⟩
  · simp [showStatus]
  · simp [showStatus]
  · simp [showStatus, statusWord]
  · simp [showStatus, portReg, portCount]

/-! ### A frame of the SPI port (R651) -/

section Spi
variable {s t : State} {n : Nat} {w : BitVec 32} (hlive : s.spiDead = false)
include hlive

theorem spiFrame_none : spiFrame s 0 w = s := if_neg (ne_true_of_eq_false hlive)

section Shift
variable (ht : give s (.spi (outBits s.spi.out n)) = t)
include ht

theorem spiFrame_short (h0 : 1 ≤ n) (hn : n < 32) : spiFrame s n w = discardWord t .spi 0 := by
  subst ht
  unfold spiFrame shiftOut
  simp [hlive, Nat.ne_of_gt h0, hn]

theorem spiFrame_whole (hn : n = 32) : spiFrame s n w = acceptWord t .spi w := by
  subst ht hn
  unfold spiFrame shiftOut
  simp [hlive]

theorem spiFrame_long (hn : 32 < n) : spiFrame s n w = acceptWord (portCount t 2) .spi w := by
  subst ht
  unfold spiFrame shiftOut
  simp [hlive, show n ≠ 0 by omega, show ¬n < 32 by omega, show n ≠ 32 by omega]

theorem spiIdle_inFrame (h0 : 1 ≤ n) (hn : n < 32) : spiIdle s n = discardWord { t with spiDead := true } .spi 1 := by
  subst ht
  unfold spiIdle shiftOut
  simp [hlive, Nat.ne_of_gt h0, Nat.not_le.mpr hn]

end Shift
end Spi

/-- The state when a whole word has come in at a port: an SPI frame shifts `OUT`. -/
def wordIn (s : State) : PortId → State
  | .spi => give s (.spi (outBits s.spi.out 32))
  | .i3c => s

theorem portWord_eq {s : State} {p : PortId} {w : BitVec 32} (h : p = .spi → s.spiDead = false) :
    portWord s p w = acceptWord (wordIn s p) p w := by
  cases p with
  | spi => exact spiFrame_whole (h rfl) rfl rfl
  | i3c => rfl

@[simp] theorem getPort_wordIn (s : State) (p : PortId) : getPort (wordIn s p) p = getPort s p := by
  cases p with | spi => rfl | i3c => rfl

@[simp] theorem wordIn_mem (s : State) (p : PortId) : (wordIn s p).mem = s.mem := by
  cases p with | spi => rfl | i3c => rfl

@[simp] theorem wordIn_csr (s : State) (p : PortId) : (wordIn s p).csr = s.csr := by
  cases p with | spi => rfl | i3c => rfl

@[simp] theorem wordIn_spiDead (s : State) (p : PortId) : (wordIn s p).spiDead = s.spiDead := by
  cases p with | spi => rfl | i3c => rfl

/-! ### The words of a command (R652, R653) -/

section HostWord
variable {op rest : Nat} (hop : op < 16) (hrest : rest < 2 ^ 28)
include hop hrest

theorem hostWord_toNat : (hostWord op rest).toNat = op * 2 ^ 28 + rest := by
  unfold hostWord w32
  rw [BitVec.toNat_ofNat]
  omega

theorem hostWord_op : fld (hostWord op rest).toNat 31 28 = op := by
  rw [hostWord_toNat hop hrest]
  simp only [fld]
  omega

theorem hostWord_rest : fld (hostWord op rest).toNat 27 0 = rest := by
  rw [hostWord_toNat hop hrest]
  simp only [fld]
  omega

end HostWord

section Accept
variable {s : State} {p : PortId}

section Command
variable (hw : (getPort s p).want = .command)
include hw

theorem acceptWord_command (w : BitVec 32) : acceptWord s p w = acceptCommand s p w.toNat := by
  unfold acceptWord
  dsimp only
  rw [hw]

theorem acceptWord_poll : acceptWord s p (hostWord 3 0) = showStatus (modPort s p fun x => { x with picked := false }) p := by
  rw [acceptWord_command hw]
  unfold acceptCommand
  rw [hostWord_op (by decide) (by decide), hostWord_rest (by decide) (by decide)]
  rfl

theorem acceptWord_rdata : acceptWord s p (hostWord 4 0) = modPort s p fun x => { x with picked := true, out := x.rdata.getD (statusWord x) } := by
  rw [acceptWord_command hw]
  unfold acceptCommand
  rw [hostWord_op (by decide) (by decide), hostWord_rest (by decide) (by decide)]
  rfl

theorem acceptWord_portrd {n : Nat} (hn : n < 256) :
    acceptWord s p (hostWord 5 n) = modPort s p fun x => { x with picked := true, out := w32 (portReg s n) } := by
  rw [acceptWord_command hw]
  unfold acceptCommand
  rw [hostWord_op (by decide) (by omega), hostWord_rest (by decide) (by omega)]
  exact if_pos hn

variable (ha : (getPort s p).access = none)
include ha

theorem acceptWord_read : acceptWord s p (hostWord 1 0) =
    showStatus (modPort (modPort s p fun x => { x with want := .readIndex, frm := false }) p fun x => { x with picked := false }) p := by
  rw [acceptWord_command hw]
  unfold acceptCommand
  rw [hostWord_op (by decide) (by decide), hostWord_rest (by decide) (by decide), ha]
  rfl

theorem acceptWord_write : acceptWord s p (hostWord 2 0) =
    showStatus (modPort (modPort s p fun x => { x with want := .writeIndex, frm := false }) p fun x => { x with picked := false }) p := by
  rw [acceptWord_command hw]
  unfold acceptCommand
  rw [hostWord_op (by decide) (by decide), hostWord_rest (by decide) (by decide), ha]
  rfl

theorem acceptWord_portclr {n : Nat} (hn : n < 256) :
    acceptWord s p (hostWord 6 n) = showStatus (modPort (portClear s n) p fun x => { x with picked := false }) p := by
  rw [acceptWord_command hw]
  unfold acceptCommand
  rw [hostWord_op (by decide) (by omega), hostWord_rest (by decide) (by omega), ha]
  exact congrArg (fun t => showStatus (modPort t p fun x => { x with picked := false }) p) (if_pos ⟨rfl, hn⟩)

end Command

theorem acceptWord_readIndex (hw : (getPort s p).want = .readIndex) (idx : BitVec 32) : acceptWord s p idx =
    showStatus (modPort s p fun x => { x with want := .command, access := some (idx, none), picked := false }) p := by
  unfold acceptWord
  dsimp only
  rw [hw]

theorem acceptWord_writeIndex (hw : (getPort s p).want = .writeIndex) (idx : BitVec 32) : acceptWord s p idx =
    showStatus (modPort s p fun x => { x with want := .writeData idx, picked := false }) p := by
  unfold acceptWord
  dsimp only
  rw [hw]

theorem acceptWord_writeData {idx : BitVec 32} (hw : (getPort s p).want = .writeData idx) (v : BitVec 32) : acceptWord s p v =
    showStatus (modPort s p fun x => { x with want := .command, access := some (idx, some v), picked := false }) p := by
  unfold acceptWord
  dsimp only
  rw [hw]

end Accept

/-! ### READ and WRITE (R652) -/

section Access
variable {s : State} {p : PortId} (hs : p = .spi → s.spiDead = false) (hw : (getPort s p).want = .command) (ha : (getPort s p).access = none)
include hs hw ha

/-- The access starts with the word that follows READ. -/
theorem read_starts (idx : BitVec 32) : ∃ t, portWord (portWord s p (hostWord 1 0)) p idx = t ∧ (getPort t p).access = some (idx, none) ∧
    (getPort t p).frm = false ∧ (getPort t p).want = .command ∧ t.mem = s.mem ∧ t.csr = s.csr := by
  refine ⟨_, rfl, ?_⟩
  have hone : portWord s p (hostWord 1 0) = _ := (portWord_eq hs).trans (acceptWord_read (by simpa using hw) (by simpa using ha))
  rw [hone, portWord_eq (by simpa [showStatus] using hs), acceptWord_readIndex (by simp [showStatus])]
  simp [showStatus]

/-- The access starts with the second word that follows WRITE. -/
theorem write_starts (idx v : BitVec 32) : ∃ t, portWord (portWord (portWord s p (hostWord 2 0)) p idx) p v = t ∧
    (getPort t p).access = some (idx, some v) ∧ (getPort t p).frm = false ∧ (getPort t p).want = .command ∧ t.mem = s.mem ∧ t.csr = s.csr := by
  refine ⟨_, rfl, ?_⟩
  have hone : portWord s p (hostWord 2 0) = _ := (portWord_eq hs).trans (acceptWord_write (by simpa using hw) (by simpa using ha))
  rw [hone, portWord_eq (w := idx) (by simpa [showStatus] using hs), acceptWord_writeIndex (by simp [showStatus]),
    portWord_eq (w := v) (by simpa [showStatus] using hs), acceptWord_writeData (idx := idx) (by simp [showStatus])]
  simp [showStatus]

end Access

/-! ### The end of an access (R591, R607, R653, R654) -/

section End
variable {s : State} {p : PortId} {timeout : Bool}

theorem portAccess_none (ha : (getPort s p).access = none) : portAccess s p timeout = s := by
  unfold portAccess
  rw [ha]

variable {idx : BitVec 32} {data : Option (BitVec 32)} (ha : (getPort s p).access = some (idx, data))
include ha

theorem portAccess_denied (h : noStartShut s (portSrc p) idx.toNat data.isSome = true) : portAccess s p timeout = endAccess s p 2 none := by
  unfold portAccess
  rw [ha]
  exact if_pos h

variable (h : noStartShut s (portSrc p) idx.toNat data.isSome = false)
include h

theorem portAccess_noAnswer (hn : (timeout || noAnswer s idx.toNat) = true) : portAccess s p timeout = endAccess s p 1 none := by
  unfold portAccess
  rw [ha]
  exact (if_neg (ne_true_of_eq_false h)).trans (if_pos hn)

variable (hn : noAnswer s idx.toNat = false)
include hn

theorem portAccess_reads (hd : data = none) {r : Nat × Nat × State} (hr : csrRead s (portSrc p) idx.toNat = r) :
    portAccess s p false = endAccess r.2.2 p r.1 (if r.1 = 0 then some (w32 r.2.1) else none) := by
  subst hr hd
  unfold portAccess
  rw [ha]
  exact (if_neg (ne_true_of_eq_false h)).trans (if_neg (by rw [hn]; decide))

theorem portAccess_writes {v : BitVec 32} (hd : data = some v) {r : Nat × State} (hr : csrWrite s (portSrc p) idx.toNat v.toNat = r) :
    portAccess s p false = endAccess r.2 p r.1 none := by
  subst hr hd
  unfold portAccess
  rw [ha]
  exact (if_neg (ne_true_of_eq_false h)).trans (if_neg (by rw [hn]; decide))

end End

/-- Settles O57: a frame by its edges, a word by what its port waits for, and the end of an access by what answers it. -/
theorem portWordsComplete : Obligations.PortWordsComplete := by
  intro s hup
  have hnext {t u : State} (h : t = u) : portDo s t = .next u := h ▸ portDo_up hup
  refine ⟨fun hlive => ⟨fun word => hnext (spiFrame_none hlive), fun n word t ht => ⟨?_, ?_, ?_, ?_⟩⟩, discardWord_shows, ?_, ?_,
    ⟨rfl, rfl, fun _ => rfl, fun _ => rfl⟩, fun p ended ha => hnext (portAccess_none ha),
    fun p idx data ha h ended => hnext (portAccess_denied ha h), fun p idx data ha h => ⟨?_, ?_, fun hn => ⟨?_, ?_⟩⟩⟩
  · exact fun h0 hn => hnext (spiFrame_short hlive ht.symm h0 hn)
  · exact fun hn => hnext (spiFrame_whole hlive ht.symm hn)
  · exact fun hn => hnext (spiFrame_long hlive ht.symm hn)
  · exact fun h0 hn => hnext (spiIdle_inFrame hlive ht.symm h0 hn)
  · intro p hs hw ha
    refine ⟨fun idx => ?_, fun idx value => ?_⟩
    · obtain ⟨t, ht, hend⟩ := read_starts hs hw ha idx
      exact ⟨t, hnext ht, hend⟩
    · obtain ⟨t, ht, hend⟩ := write_starts hs hw ha idx value
      exact ⟨t, hnext ht, hend⟩
  · intro hw
    exact ⟨fun mask ha => hnext (acceptWord_portclr hw ha mask.isLt), hnext (acceptWord_poll hw), hnext (acceptWord_rdata hw),
      fun reg => hnext (acceptWord_portrd hw reg.isLt)⟩
  · exact hnext (portAccess_noAnswer ha h rfl)
  · exact fun hn => hnext (portAccess_noAnswer ha h (by rw [hn]; rfl))
  · exact fun hd r hr => hnext (portAccess_reads ha h hn hd hr.symm)
  · exact fun v hd r hr => hnext (portAccess_writes ha h hn hd hr.symm)

end Sys2Proof.Machine
end

section
/-! SUPPORT. The I3C port, the Ethernet contacts and the test access port (R406, R603, R656 to R660, R662). -/

namespace Sys2Proof.Machine

/-! ### Common command codes (R656) -/

section Ccc
variable {s : State} {data : List Byte}

section On
variable (hon : (data.head?.map (·.getLsbD 0)) = some true)
include hon

theorem i3cCode_enec {code : Nat} (h : code = 0x00 ∨ code = 0x80) : i3cCode s code data = { s with i3c := { s.i3c with enabled := true } } := by
  unfold i3cCode
  rw [hon]
  exact (if_pos h).trans (if_pos rfl)

theorem i3cCode_disec {code : Nat} (h : code = 0x01 ∨ code = 0x81) : i3cCode s code data = { s with i3c := { s.i3c with enabled := false } } := by
  unfold i3cCode
  rw [hon]
  exact (if_neg (by omega)).trans ((if_pos h).trans (if_pos rfl))

end On

theorem i3cCode_rstdaa : i3cCode s 0x06 data = { s with i3c := { s.i3c with dynamic := none } } := by
  simp [i3cCode, modI3c]

theorem i3cCode_getpid : i3cCode s 0x8D data = give s (.i3c (msBytes 6 (i3cPid s))) := by
  simp [i3cCode, i3cGive]

theorem i3cCode_setnewda {b : Byte} (hb : data.head? = some b) (hd : s.i3c.dynamic.isSome = true) :
    i3cCode s 0x88 data = { s with i3c := { s.i3c with dynamic := some (b.toNat / 2) } } := by
  simp [i3cCode, modI3c, addrOf, hb, hd]

section Setdasa
variable {b c : Byte} {l : List Byte} (hd : s.i3c.dynamic = none)

include hd in
theorem i3cCode_setdasa (h : b.toNat / 2 = 0x2C + s.straps.toNat % 4) :
    i3cCode s 0x87 (b :: c :: l) = { s with i3c := { s.i3c with dynamic := some (c.toNat / 2) } } := by
  simp [i3cCode, modI3c, addrOf, staticAddr, hd, h]

theorem i3cCode_setdasa_other (h : b.toNat / 2 ≠ 0x2C + s.straps.toNat % 4) : i3cCode s 0x87 (b :: c :: l) = s := by
  simp [i3cCode, addrOf, staticAddr, h]

end Setdasa

theorem i3cCode_unknown {code : Nat}
    (h : code ∉ [0x00, 0x01, 0x06, 0x07, 0x80, 0x81, 0x87, 0x88, 0x8B, 0x8C, 0x8D, 0x8E, 0x8F, 0x90, 0x91]) :
    i3cCode s code data = evRaise (portCount s 4) 0 0xC43 := by
  simp only [List.mem_cons, List.not_mem_nil, or_false, not_or] at h
  simp [i3cCode, i3cError, h]

end Ccc

theorem takeWords_one (s : State) (l : List Byte) :
    takeWords s [l] = if l.length = 4 then acceptWord s .i3c (beWord l) else discardWord s .i3c 4 := rfl

theorem takeWords_whole (s : State) (b0 b1 b2 b3 : Byte) :
    takeWords s (chunks 4 [b0, b1, b2, b3]) = acceptWord s .i3c (beWord [b0, b1, b2, b3]) := by
  have h : chunks 4 [b0, b1, b2, b3] = [[b0, b1, b2, b3]] := by simp [chunks]
  rw [h, takeWords_one, if_pos (by simp)]

/-- A last partial word is discarded. -/
theorem takeWords_partial (s : State) (b0 b1 : Byte) : takeWords s (chunks 4 [b0, b1]) = discardWord s .i3c 4 := by
  have h : chunks 4 [b0, b1] = [[b0, b1]] := by simp [chunks]
  rw [h, takeWords_one, if_neg (by simp)]

/-! ### In-band interrupts and the controller role (R658 to R660) -/

section Ibi
variable {s t : State} {x : IbiStart} {b : Nat}

theorem ibiWins_alone (h : x.rival = none) : ibiWins s x = true := by
  unfold ibiWins
  rw [h]

theorem ibiWins_rival {a : BitVec 7} {rnw : Bool} {dyn : Nat} (h : x.rival = some (a, rnw)) (hd : s.i3c.dynamic = some dyn) :
    ibiWins s x = decide (dyn < a.toNat) := by
  unfold ibiWins
  rw [h, hd]

section Send
variable (ht : give s (.ibi b) = t)
include ht

theorem sendIbi_acked : sendIbi s b true =
    { t with i3c := { t.i3c with causes := t.i3c.causes - (t.i3c.causes &&& 2 ^ b), again := none, nacks := 0 } } := by
  subst ht; rfl

theorem sendIbi_again (hn : t.i3c.nacks < 8) : sendIbi s b false =
    i3cError { t with i3c := { t.i3c with again := some b, nacks := t.i3c.nacks + 1 } } := by
  subst ht; exact if_pos hn

theorem sendIbi_givesUp (hn : 8 ≤ t.i3c.nacks) : sendIbi s b false = i3cError
    { t with i3c := { t.i3c with causes := t.i3c.causes - (t.i3c.causes &&& 2 ^ b), again := none, nacks := 0 } } := by
  subst ht; exact if_neg (Nat.not_lt.mpr hn)

end Send

section Lost
variable (hup : mstUp s = true) (hx : ibiWins s x = false)
include hup hx

theorem exec_ibi_loses : exec (.ibi x) s = .next s := by
  refine (portDo_up hup).trans (congrArg Host.Outcome.next ?_)
  split
  · exact if_neg fun h => ne_true_of_eq_false hx h.2.2
  · rfl

theorem exec_ibiRetry_loses : exec (.ibiRetry x) s = .next s := by
  refine (portDo_up hup).trans (congrArg Host.Outcome.next ?_)
  split
  · exact if_neg fun h => ne_true_of_eq_false hx h.2
  · rfl

end Lost

section Ready
variable (hup : mstUp s = true) (hr : ibiReady s = true) (hx : ibiWins s x = true)
include hup hr hx

theorem exec_ibi_sends (hb : firstCause s = some b) (ha : s.i3c.again = none) : exec (.ibi x) s = .next (sendIbi s b x.acked) := by
  refine (portDo_up hup).trans (congrArg Host.Outcome.next ?_)
  rw [hb]
  exact if_pos ⟨hr, ha, hx⟩

theorem exec_ibiRetry_sends (ha : s.i3c.again = some b) : exec (.ibiRetry x) s = .next (sendIbi s b x.acked) := by
  refine (portDo_up hup).trans (congrArg Host.Outcome.next ?_)
  rw [ha]
  exact if_pos ⟨hr, hx⟩

end Ready

theorem evRaise_i3c (s : State) (d k : Nat) : (evRaise s d k).i3c = s.i3c := by
  obtain ⟨c, hc⟩ := evRaise_state s d k
  rw [hc]

theorem foldl_give_i3c (f : State → Nat → Given) (l : List Nat) (s : State) : (l.foldl (fun s b => give s (f s b)) s).i3c = s.i3c := by
  induction l generalizing s with
  | nil => rfl
  | cons b l ih => exact ih _

/-- The target holds the controller role until the active controller takes it back. -/
theorem takeRole_role (sent accepted : Bool) (h : s.i3c.role = false) : (takeRole s sent accepted).i3c.role = !accepted := by
  unfold takeRole
  rw [if_neg (ne_true_of_eq_false h)]
  extract_lets u l v w y
  have hu : u.i3c.role = true := congrArg I3c.role (evRaise_i3c _ _ _)
  have hv : v.i3c.role = true := (congrArg I3c.role (foldl_give_i3c _ _ _)).trans hu
  have hw : w.i3c.role = true := ite_wf (P := fun s : State => s.i3c.role = true) hv hv
  cases accepted with
  | true => exact congrArg I3c.role (evRaise_i3c _ _ _)
  | false => exact hw

end Ibi

/-! ### The test access port (R603, R662) -/

/-- Free words change the stream of free values only. -/
theorem freeWords_state (n : Nat) (s : State) : ∃ m, (freeWords n s).2 = { s with fresh := m } := by
  induction n generalizing s with
  | zero => exact ⟨s.fresh, rfl⟩
  | succ n ih =>
    obtain ⟨m, hm⟩ := ih (takeFree s).2
    exact ⟨m, hm⟩

/-- A boundary scan leaves memory, the registers and the instruction register. -/
theorem tapScan_leaves (s : State) (l : List Bool) : (tapScan s l).mem = s.mem ∧ (tapScan s l).csr = s.csr ∧ (tapScan s l).tap.ir = s.tap.ir := by
  obtain ⟨m, hm⟩ := freeWords_state ((Config.boundaryCells + 63) / 64) s
  have hfree : (freeBits Config.boundaryCells s).2 = { s with fresh := m } := hm
  unfold tapScan
  dsimp only
  rw [hfree]
  exact ⟨rfl, rfl, rfl⟩

section Tap
variable {s : State} {l : List Bool}

theorem tapIdcode_whole : tapIdcode s (List.replicate 32 false) = give s (.tdo ((List.range 32).map fun k => (idcode s.part).getLsbD k)) := by
  unfold tapIdcode
  rw [List.take_left' (by simp)]
  rfl

end Tap

/-- Settles O58: a word by its length, a code by its number, an interrupt by its cause and its rival, a scan by the instruction of the register. -/
theorem serialContactsComplete : Obligations.SerialContactsComplete := by
  intro s
  refine ⟨fun hup => ?_, fun hv die sub up d n hd hn hlt hl => ?_, fun ha ins hins => ?_⟩
  · have hnext {t u : State} (h : t = u) : portDo s t = .next u := h ▸ portDo_up hup
    refine ⟨fun b0 b1 b2 b3 => ⟨hnext (takeWords_whole s b0 b1 b2 b3), hnext (takeWords_partial s b0 b1)⟩, hnext rfl, fun data hon => ⟨hnext (i3cCode_enec hon (.inl rfl)), hnext (i3cCode_disec hon (.inl rfl))⟩,
      fun data => ⟨hnext i3cCode_rstdaa, hnext i3cCode_getpid,
        fun hon => ⟨hnext (i3cCode_enec hon (.inr rfl)), hnext (i3cCode_disec hon (.inr rfl))⟩, ?_,
        fun b c l hd => ⟨fun h => hnext (i3cCode_setdasa hd h), fun h => hnext (i3cCode_setdasa_other h)⟩,
        fun code h => hnext (i3cCode_unknown h)⟩,
      fun x => ⟨ibiWins_alone, fun a rnw dyn h hd => ibiWins_rival h hd, fun h => ⟨exec_ibi_loses hup h, exec_ibiRetry_loses hup h⟩⟩,
      fun hen hdyn hrole b t x ht hx => ?_, fun hrole sent accepted => ⟨_, hnext rfl, takeRole_role sent accepted hrole⟩, fun hrole => hnext (if_pos hrole)⟩
    · rintro b hb _ rfl hd
      exact hnext (i3cCode_setnewda hb hd)
    · have hready : ibiReady s = true := by unfold ibiReady; rw [hen, hdyn, hrole]; rfl
      refine ⟨fun hb hagain => ?_, fun hagain => ?_⟩
      · have hsend := exec_ibi_sends hup hready hx hb hagain
        exact ⟨fun hack => hsend.trans (congrArg _ (by rw [hack, sendIbi_acked ht.symm])),
          fun hack hn => hsend.trans (congrArg _ (by rw [hack, sendIbi_again ht.symm hn]))⟩
      · have hsend := exec_ibiRetry_sends hup hready hx hagain
        exact ⟨fun hack => hsend.trans (congrArg _ (by rw [hack, sendIbi_acked ht.symm])),
          fun hack hn => hsend.trans (congrArg _ (by rw [hack, sendIbi_givesUp ht.symm hn]))⟩
  · subst hd hn
    refine ⟨fun h => unitDo_eq hlt (by rw [hl, hv, decide_eq_true h]; rfl) rfl, fun h => ?_⟩
    exact (onDie_next _ hlt).trans (congrArg Host.Outcome.next (if_neg (by simp [Nat.not_lt.mpr h])))
  · obtain rfl : ins = tapLoad s := funext hins
    have hon : ¬(!s.pw.aux) = true := by rw [ha]; decide
    refine ⟨(if_neg hon).trans (congrArg Host.Outcome.next tapIdcode_whole), (if_neg hon).trans rfl, fun b l => (if_neg hon).trans rfl,
      fun l => ⟨(if_neg hon).trans rfl, (if_neg hon).trans rfl⟩, ?_, fun b l => ⟨fun h => (if_neg hon).trans ?_, fun h => (if_neg hon).trans ?_⟩,
      fun code l h => (if_neg hon).trans (if_pos h), fun code b l h => (if_neg hon).trans (if_neg (ne_true_of_eq_false h)), fun on h => (if_neg hon).trans ?_,
      fun on h hne => (if_neg hon).trans ?_⟩
    · rintro l _ rfl
      exact tapScan_leaves s l
    · unfold tapUnder
      rw [h]
      rfl
    · unfold tapUnder
      rcases h with h | h <;> rw [h]
    · exact congrArg Host.Outcome.next (if_pos (.inl h))
    · exact congrArg Host.Outcome.next (if_neg (by simp [h, hne]))

end Sys2Proof.Machine
end

section
/-! SUPPORT. Reset and the start of the part, and the level that a start reaches (R385, R386, R523, R549, R563, R577, R579, R580, R590 to R592, R609,
R612, R641). -/

namespace Sys2Proof.Machine

/-! ### RESET_N and the return of power (R563, R577, R612) -/

section Reset
variable {s : State}

theorem exec_resetNAssert (ha : s.pw.aux = true) (hr : s.mst.resetN = false) : exec .resetNAssert s = .next (resetPart s) :=
  congrArg Host.Outcome.next ((if_pos ha).trans (if_neg (ne_true_of_eq_false hr)))

theorem exec_resetNAssert_off (ha : s.pw.aux = false) : exec .resetNAssert s = .next { s with mst := { s.mst with resetN := true } } :=
  congrArg Host.Outcome.next (if_neg (ne_true_of_eq_false ha))

/-- The port registers, the vault, memory, the logs and the standby domain stay; the blocks are as at reset. -/
theorem resetPart_keeps (s : State) : (resetPart s).portCnt = s.portCnt ∧ (resetPart s).vault = s.vault ∧ (resetPart s).mem = s.mem ∧
    (resetPart s).sups = [] ∧ (resetPart s).pes = [] ∧ (resetPart s).tlb = [] ∧ (resetPart s).caches = [] ∧
    (resetPart s).csr = keepRegs s (fun i => standbyReg i || logReg i) ∧ (resetPart s).pw.faultHeld = (s.fatal || s.pw.faultHeld) := by
  obtain ⟨hcsr, hvault, hmem, hcnt, hpw, hfatal⟩ := cutJobs_same s
  refine ⟨hcnt, hvault, hmem, rfl, rfl, rfl, rfl, ?_, ?_⟩
  · show (cutJobs s).csr.filter _ = _
    rw [hcsr]
    rfl
  · show ((cutJobs s).fatal || (cutJobs s).pw.faultHeld) = _
    rw [hfatal, hpw]

theorem resetPart_noJob (hj : s.mst.job = none) (hf : s.mst.fuseJob = none) :
    (resetPart s).flash = s.flash ∧ (resetPart s).fuses = s.fuses := by
  unfold resetPart
  rw [cutJobs_none hj hf]
  exact ⟨rfl, rfl⟩

theorem exec_resetNDeassert {straps : BitVec 18} {flashOk : Bool} {t : State} (ha : s.pw.aux = true) (hr : s.mst.resetN = true)
    (h : startUp s flashOk straps = t) : exec (.resetNDeassert flashOk straps) s = .next t :=
  congrArg Host.Outcome.next ((if_pos (by rw [ha, hr]; rfl)).trans h)

section Up
variable {straps : BitVec 18} {t : State}
  (ht : readFuses { s with straps := straps, mst := { s.mst with resetN := false }, pw := { s.pw with faultHeld := false } } = t)
include ht

theorem startUp_flash {p : Option ImgSet × State} (hp : pickMhf 11 (headerFaults t) = p) :
    startUp s true straps = setStep (showChoice p.2 p.1 true) 5 := by
  subst hp ht
  exact congrArg (setStep · 5) (if_pos rfl)

theorem startUp_noFlash : startUp s false straps = setStep (noFlash t) 5 := by
  subst ht
  exact congrArg (setStep · 5) (if_neg Bool.false_ne_true)

end Up

theorem exec_powerReturnReset {flashOk : Bool} (hw : s.pw.warned = true) (hs : started s = true) (hf : s.fatal = false) (hm : mstUp s = true)
    (hp : s.mst.pwrok = false) : exec (.powerReturnReset flashOk) s = .next (startUp (resetPart s) flashOk s.straps) :=
  congrArg Host.Outcome.next (if_pos (by rw [hw, hs, hf, hm, hp]; rfl))

end Reset

/-! ### PWROK and the replay of the journals (R386, R577, R579) -/

section GoOn
variable {s t u : State} {i : StartInputs}

theorem exec_pwrokAssert (ht : { s with mst := { s.mst with pwrok := true } } = t) (hm : mstUp t = true) (h5 : startStep t = 5)
    (hf : t.fatal = false) : exec (.pwrokAssert i) s = .next (goOn t i) := by
  subst ht
  exact congrArg Host.Outcome.next (if_pos ⟨hm, h5, by rw [hf]; rfl⟩)

theorem goOn_whole (h : i.ends = none) : goOn t i = bringUp t i := by
  unfold goOn
  rw [h]

theorem goOn_power {n : Fin 8} (h : i.ends = some (.power n)) (hu : atStep t i (6 + n) = u) :
    goOn t i = backToFive { u with mst := { u.mst with pwrok := false } } := by
  subst hu
  unfold goOn
  rw [h]

theorem goOn_fault {n : Fin 8} {r : DetReport} (h : i.ends = some (.fault n r)) (hu : detection (atStep t i (6 + n)) r = u) :
    goOn t i = if u.fatal then u else bringUp t i := by
  subst hu
  unfold goOn
  rw [h]

theorem exec_journalReplay {redrives : List Redrive} (h14 : startStep s = 14) (hv : s.pw.hv = true) (hw : s.pw.warned = false)
    (hl : dieLive s 0 = true) (hj : journalReplay s redrives = some t) : exec (.journalReplay redrives) s = .next (releaseCores t 1) := by
  refine (congrArg Host.Outcome.next (if_pos ⟨h14, hv, by rw [hw]; rfl, hl⟩)).trans ?_
  rw [hj]

end GoOn

/-- Settles O59: the reset keeps what `resetPart` does, and each stage of the start goes on under the conditions of its step. -/
theorem startAndResetComplete : Obligations.StartAndResetComplete := by
  refine fun s => ⟨fun ha hr => ?_, exec_resetNAssert_off, fun ha hr straps t p ht hp => ⟨?_, ?_⟩, fun t i ht hm h5 hf => ?_,
    fun flashOk hw hs hf hm hp => exec_powerReturnReset hw hs hf hm hp, fun h14 hv hw hl redrives t hj => exec_journalReplay h14 hv hw hl hj⟩
  · obtain ⟨hcnt, hvault, hmem, hrest⟩ := resetPart_keeps s
    exact ⟨_, exec_resetNAssert ha hr, rfl, resetPart_noJob, hcnt, hvault, hmem, hrest⟩
  · exact exec_resetNDeassert ha hr (startUp_flash ht.symm hp.symm)
  · exact exec_resetNDeassert ha hr (startUp_noFlash ht.symm)
  · have hgo := exec_pwrokAssert (i := i) ht.symm hm h5 hf
    refine ⟨fun h => hgo.trans (congrArg _ (goOn_whole h)), fun n u h hu => hgo.trans (congrArg _ (goOn_power h hu.symm)), fun n r u h hu =>
      ⟨fun hfat => ?_, fun hfat => ?_⟩⟩
    · exact hgo.trans (congrArg _ ((goOn_fault h hu.symm).trans (if_pos hfat)))
    · exact hgo.trans (congrArg _ ((goOn_fault h hu.symm).trans (if_neg (ne_true_of_eq_false hfat))))

/-! ### What a start leaves in service (R580, R590 to R592) -/

section Level
variable {s t u : State} {i : StartInputs}

theorem startedLevel_noStart {set : Bool} (h : minimumMet u i = false) : startedLevel u i set = 4 := if_pos (by rw [h]; rfl)

section Met
variable (h : minimumMet u i = true)
include h

theorem startedLevel_noSet : startedLevel u i false = 3 := (if_neg (by rw [h]; decide)).trans (if_pos rfl)

theorem startedLevel_set : startedLevel u i true = if zeroPasses u i then 1 else 2 := (if_neg (by rw [h]; decide)).trans (if_neg (by decide))

/-- With a set the part starts at FULL or in bare poles. -/
theorem startedLevel_serves : startedLevel u i true ≠ 4 ∧ startedLevel u i true ≠ 3 := by
  rw [startedLevel_set h]
  split <;> decide

theorem startedLevel_full : startedLevel u i true = 1 ↔ zeroPasses u i = true := by
  rw [startedLevel_set h]
  cases zeroPasses u i with | true => decide | false => decide

theorem startedLevel_bare : startedLevel u i true = 2 ↔ zeroPasses u i = false := by
  rw [startedLevel_set h]
  cases zeroPasses u i with | true => decide | false => decide

end Met

variable {p : Option ImgSet × State} {level : Nat} (ht : testDies (raiseRails s) i = t) (hp : stepTen t i = p)
  (hu : mapDies (if t.mst.flashUp then showChoice p.2 p.1 false else t) i = u) (hlevel : startedLevel u i p.1.isSome = level)
include ht hp hu hlevel

theorem bringUp_noStart (h : level = 4) : bringUp s i = noStart u := by
  subst hlevel hu hp ht
  exact if_pos h

theorem bringUp_noSet (h : level = 3) : bringUp s i = bareNoSet u i := by
  subst hlevel hu hp ht
  exact (if_neg (by rw [h]; decide)).trans (if_pos h)

variable (h4 : level ≠ 4) (h3 : level ≠ 3) {q : Option ImgSet × State} (hq : configLoop i 11 (leaveOut u i level) = q)
include h4 h3 hq

/-- The set that steps 10 and 12 pass, or none, decides how the start ends. -/
theorem bringUp_configured : (∀ x, q.1 = some x → bringUp s i = finishStart (showChoice q.2 (some x) false) i x level) ∧
    (q.1 = none → bringUp s i = bareNoSet (showChoice q.2 none false) i) := by
  unfold bringUp
  rw [ht]
  dsimp only
  rw [hp, hu, hlevel, if_neg h4, if_neg h3, hq]
  refine ⟨fun x hx => ?_, fun hx => ?_⟩
  · rw [hx]
  · rw [hx]

end Level

/-- Settles O60: the level by the minimum service set, the choice of a set and the tests of die 0, and then what each level ends with. -/
theorem startLevelsFollowTheTests : Obligations.StartLevelsFollowTheTests := by
  intro s i t p level ht hp u hu hlevel
  refine ⟨fun h => ?_, fun h hnone => ?_, fun h hsome => ?_⟩
  · exact bringUp_noStart ht.symm hp.symm hu.symm hlevel.symm (hlevel.trans (startedLevel_noStart h))
  · rw [hnone] at hlevel
    exact bringUp_noSet ht.symm hp.symm hu.symm (by rw [hnone]; exact hlevel.symm) (hlevel.trans (startedLevel_noSet h))
  · rw [hsome] at hlevel
    subst hlevel
    obtain ⟨h4, h3⟩ := startedLevel_serves h
    exact ⟨startedLevel_full h, startedLevel_bare h,
      fun q hq => bringUp_configured ht.symm hp.symm hu.symm (by rw [hsome]) h4 h3 hq.symm⟩

end Sys2Proof.Machine
end

section
/-! SUPPORT. What a PE does beside its instructions (R69, R90, R106, R142, R143, R158, R160, R161, R529): its run limit, and its released
outputs. -/

namespace Sys2Proof.Machine

/-- RUNLIMIT ends the instance at the leader, whose decimal request has been answered. -/
theorem exec_runlimit {s : State} {p : PeId} {k l : Nat} (hk : k = peOf p) (hd : peDie k < nDies s.part)
    (hlive : sparLive s (gspar (peDie k) (peSpar k % 32)) = true) (hl : l = leader s k) (hdec : (getPe s l).decimal = false) :
    exec (.runlimit p) s = .next (peTrap s l 0 tRunlimit 0 0 (getPe s l).regs.pc.toNat) := by
  subst hk hl
  exact unitDo_eq hd hlive (if_neg (ne_true_of_eq_false hdec))

/-! ### A released output (R158, R160) -/

section Output
variable {s : State} {k n : Nat} {o : Output} (hn : (getPe s k).out[n]? = some o)
include hn

/-- An output behind another of its destination stays. -/
theorem outLeave_blocked (hb : outBlocked (getPe s k) n o = true) : outLeave s k n = s := by
  unfold outLeave
  rw [hn]
  exact if_pos hb

section Free
variable (hb : outBlocked (getPe s k) n o = false)
include hb

theorem outLeave_issue {f : Flit} (ho : o = .flit f) (hc : flitCls f = 2) :
    outLeave s k n = leftBy s k n (routerTakes s (peDie k) (peSpar k % 32) f) := by
  subst ho
  unfold outLeave
  simp [hn, hb, hc]

theorem outLeave_homed {f : Flit} {g : Nat} (ho : o = .flit f) (hc : flitCls f ≠ 2)
    (hg : homeOf s (uSpar (peSpar k)) (tagPart f.tag) (tagFrame f.tag) = some g) :
    outLeave s k n = leftBy s k n (routerTakes (ptFill s (uSpar (peSpar k)) .pmt (tagPart f.tag)) (peDie k) (peSpar k % 32) f) := by
  subst ho
  unfold outLeave
  simp [hn, hb, hc, hg]

theorem outLeave_homeless {f : Flit} (ho : o = .flit f) (hc : flitCls f ≠ 2)
    (hg : homeOf s (uSpar (peSpar k)) (tagPart f.tag) (tagFrame f.tag) = none) :
    outLeave s k n = outGone (if flitCls f = 1 then purgeLost s (peDie k) f.tag else noHome s (peDie k) f.tag) k n := by
  subst ho
  unfold outLeave
  simp [hn, hb, hc, hg]

theorem outLeave_fetch {part : Nat} {words : List (Nat × Nat)} {tag : Word} (ho : o = .fetch part words tag) :
    outLeave s k n = leftBy s k n (agentTakes s (peSpar k) part words tag) := by
  subst ho
  unfold outLeave
  simp [hn, hb]

theorem outLeave_post {part asid g : Nat} {w0 w1 w2 w3 : Word} {r : Post × State} (ho : o = .post part asid g w0 w1 w2 w3)
    (hr : tryPost s (uSpar (peSpar k)) part asid g w0 w1 w2 w3 = r) :
    outLeave s k n = if r.1 = .full then r.2 else outGone r.2 k n := by
  subst ho hr
  unfold outLeave
  simp [hn, hb]

end Free

/-! ### The commands that try an output (R143, R158, R161) -/

section Commands
variable {p : PeId} (hk : k = peOf p) (hd : peDie k < nDies s.part) (hlive : sparLive s (gspar (peDie k) (peSpar k % 32)) = true)
  {t : State} (ht : outLeave s k n = t)
include hk hd hlive ht

omit hn in
theorem exec_outputLeave : exec (.outputLeave p n) s = .next t := by
  subst hk
  exact unitDo_eq hd hlive ht

/-- FETCH_REQUEST tries a fetch, and any output that stays where it is. -/
theorem exec_fetchRequest (ho : (∃ part words tag, o = .fetch part words tag) ∨ t = s) : exec (.fetchRequest p n) s = .next t := by
  subst hk
  refine unitDo_eq hd hlive ?_
  rw [hn]
  rcases ho with ⟨part, words, tag, rfl⟩ | rfl
  · exact ht
  · cases o with
    | fetch => exact ht
    | flit | post => rfl

/-- WQPOST_RETRY tries a post, and any output that stays where it is. -/
theorem exec_wqpostRetry (ho : (∃ part asid g w0 w1 w2 w3, o = .post part asid g w0 w1 w2 w3) ∨ t = s) :
    exec (.wqpostRetry p n) s = .next t := by
  subst hk
  refine unitDo_eq hd hlive ?_
  rw [hn]
  rcases ho with ⟨part, asid, g, w0, w1, w2, w3, rfl⟩ | rfl
  · exact ht
  · cases o with
    | post => exact ht
    | flit | fetch => rfl

end Commands
end Output

/-- Settles O28: the run limit is judged at the leader, and an output leaves by the branch of its kind unless one of its destination precedes it. -/
theorem processingElementOutputsLeave : Obligations.ProcessingElementOutputsLeave := by
  intro s p k hk hd hlive
  refine ⟨fun l hl hdec => exec_runlimit hk hd hlive hl hdec, fun n o hn => ⟨fun hb => ?_, fun hb => ?_⟩⟩
  · have hstays := outLeave_blocked hn hb
    exact ⟨exec_outputLeave hk hd hlive hstays, exec_fetchRequest hn hk hd hlive hstays (.inr rfl),
      exec_wqpostRetry hn hk hd hlive hstays (.inr rfl)⟩
  · refine ⟨fun f ho hc => exec_outputLeave hk hd hlive (outLeave_issue hn hb ho hc), fun f ho hc => ⟨fun g hg => ?_, fun hg => ?_⟩,
      fun part words tag ho => ?_, fun part asid g w0 w1 w2 w3 r ho hr => ?_⟩
    · exact exec_outputLeave hk hd hlive (outLeave_homed hn hb ho hc hg)
    · exact exec_outputLeave hk hd hlive (outLeave_homeless hn hb ho hc hg)
    · exact exec_fetchRequest hn hk hd hlive (outLeave_fetch hn hb ho) (.inl ⟨part, words, tag, ho⟩)
    · exact exec_wqpostRetry hn hk hd hlive (outLeave_post hn hb ho hr.symm) (.inl ⟨part, asid, g, w0, w1, w2, w3, ho⟩)

end Sys2Proof.Machine
end

section
/-! SUPPORT. The one memory write of a command of the tables (R491, R498, R510): PXT_INV first looks whether the DESTROY under way waits for anything
more, and one that does not ends there, with `PSTATE` NONE in the partition's entry in memory. -/

namespace Sys2Proof.Machine

/-- The SCH block of die 0 serves, and a DESTROY of partition 0 has nothing left to wait for: its entry at word 0 is valid, its range is
empty, and `PSTATE`, in the high bits of word 7, still is DESTROYING. -/
def destroyLastLook : State :=
  { setF State.reset 0 bSch rBlkCtl 0 0 1 with hw := [(0, { PartHw.init with destroying := true })], mem := [(7, 0x80), (63, 0x80)] }

/-- The command reaches the block, which takes commands. -/
theorem exec_pxtInv_destroyLastLook :
    exec (.pxtInv 0 0) destroyLastLook = .next (pxtBusy destroyLastLook 0 0 0 fun s => pxtInv s 0 0) :=
  regDo_live (live := dieLive destroyLastLook 0 && blkEn destroyLastLook 0 bSch) _ (by decide +kernel) (by decide +kernel)

/-- The byte of `PSTATE` changes from DESTROYING to NONE. -/
theorem pstate_destroyLastLook : rdByte destroyLastLook 63 = 0x80 ∧
    rdByte (pxtBusy destroyLastLook 0 0 0 fun s => pxtInv s 0 0) 63 = 0 := by decide +kernel

/-- Refutes O7: PXT_INV at the end of a DESTROY writes `PSTATE` of the partition's entry, so that a byte of memory changes. -/
theorem not_blockCommandsLeaveMemory : ¬ Obligations.BlockCommandsLeaveMemory := by
  intro h
  obtain ⟨hcommands, -, -⟩ := h destroyLastLook (pxtBusy destroyLastLook 0 0 0 fun s => pxtInv s 0 0)
  obtain ⟨hmem, -, -, -⟩ := hcommands (.pxtInv 0 0) exec_pxtInv_destroyLastLook (.inr (.inr (.inr (.inl ⟨0, 0, .inl rfl⟩))))
  obtain ⟨hbefore, hafter⟩ := pstate_destroyLastLook
  exact absurd ((hafter.symm.trans (hmem 63)).trans hbefore) (by decide)

end Sys2Proof.Machine
end

section
/-! SUPPORT. The firing rule (R43, R45 to R47, R91, R99, R103 to R105): which token the pipeline takes next, and what it does with a token in each
of its cases. -/

namespace Sys2Proof.Machine

/-! ### The next token (R96, R99, R104, R105) -/

/-- The flit `f` is the pipeline's next token: `fin` takes it from where it stands, and `stand` is the spar whose pipeline stands at it. -/
def NextToken (s : State) (g : Nat) (f : Flit) (fin : State → State) (stand : State) : Prop :=
  (∃ rest, (getSpar s g).reentry = f :: rest ∧
      (∀ p, (getSpar s g).pipe = some p → ((getSpar s g).reentry.any fun x => tagKey x.tag == tagKey p.tag) = true) ∧ stand = s ∧
      fin = fun t => modSpar t g fun x => { x with reentry := rest }) ∨
    (((getSpar s g).reentry.any fun x => tagKey x.tag == tagKey f.tag) = false ∧ (getSpar s g).pipe = some f ∧ stand = s ∧
      fin = fun t => modSpar t g fun x => { x with pipe := none }) ∨
    (∃ p k, (getSpar s g).reentry = [] ∧ (getSpar s g).pipe = none ∧ nextIq s g = some (p, k) ∧ p.flit = f ∧ flitCls f ≠ 1 ∧
      stand = modSpar (iqRemove s g k) g (fun x => { x with pipe := some f }) ∧ fin = fun t => iqRemove t g k)

section Source
variable {s stand : State} {g : Nat} {f : Flit} {fin : State → State}

theorem takeReentry_elim {rest : List Flit} (hfin : fin = fun t => modSpar t g fun x => { x with reentry := rest }) :
    takeReentry s g f rest = (pipeline s g f).elim s fin := by
  subst hfin
  unfold takeReentry
  cases pipeline s g f with | none | some => rfl

theorem takeStanding_elim (hfin : fin = fun t => modSpar t g fun x => { x with pipe := none }) :
    takeStanding s g f = (pipeline s g f).elim s fin := by
  subst hfin
  unfold takeStanding
  cases pipeline s g f with | none | some => rfl

theorem takeQueued_elim {p : IqPlace} {k : Nat} (hq : nextIq s g = some (p, k)) (hp : p.flit = f) (hc : flitCls f ≠ 1)
    (hstand : stand = modSpar (iqRemove s g k) g fun x => { x with pipe := some f }) (hfin : fin = fun t => iqRemove t g k) :
    takeQueued s g = (pipeline s g f).elim stand fin := by
  subst hp hstand hfin
  unfold takeQueued
  rw [hq]
  dsimp only
  rw [if_neg hc]
  cases pipeline s g p.flit with | none | some => rfl

/-- The spar hands its next token to the pipeline, which finishes with it or stands at it. -/
theorem takeToken_elim (h : NextToken s g f fin stand) : takeToken s g = (pipeline s g f).elim stand fin := by
  unfold takeToken
  rcases h with ⟨rest, hre, hpipe, rfl, hfin⟩ | ⟨hkey, hpipe, rfl, hfin⟩ | ⟨p, k, hre, hpipe, hq, hp, hc, hstand, hfin⟩
  · rw [← takeReentry_elim hfin]
    cases hp : (getSpar stand g).pipe with
    | none => rw [hre]
    | some p =>
      have hany := hpipe p hp
      rw [hre] at hany ⊢
      exact if_pos hany
  · rw [← takeStanding_elim hfin, hpipe]
    cases hre : (getSpar stand g).reentry with
    | nil => rfl
    | cons x rest =>
      rw [hre] at hkey
      exact if_neg (ne_true_of_eq_false hkey)
  · rw [← takeQueued_elim hq hp hc hstand hfin, hre, hpipe]

end Source

/-! ### The pipeline (R43, R45, R91, R103, R105) -/

section Pipeline
variable {s : State} {g : Nat} {f : Flit}

theorem pipeline_never (hn : neverProduced f = true) : pipeline s g f = some (dropNever s g f) := if_pos hn

section Produced
variable (hn : neverProduced f = false)
include hn

theorem pipeline_itemMode (hi : itemMode s g = true) : pipeline s g f = some (misaddressed s g f) :=
  (if_neg (ne_true_of_eq_false hn)).trans (if_pos hi)

section Graph
variable (hi : itemMode s g = false)
include hi

/-- A token whose key waits, or is being evicted, or whose frame is not cached, goes to the miss buffer. -/
theorem pipeline_misses (h : inMiss s g (tagKey f.tag) = true ∨ inEvb s g (tagKey f.tag) = true ∨
    cachedFrame s g (tagPart f.tag) (tagFrame f.tag) = none) : pipeline s g f = toMiss s g f := by
  unfold pipeline
  rcases h with h | h | h
  · simp [hn, hi, h]
  · simp [hn, hi, h]
  · simp [hn, hi, h]

section Cached
variable {fr : FrameLine} (hm : inMiss s g (tagKey f.tag) = false) (he : inEvb s g (tagKey f.tag) = false)
  (hf : cachedFrame s g (tagPart f.tag) (tagFrame f.tag) = some fr)
include hm he hf

theorem pipeline_stale (hg : fr.gen ≠ tagGen f.tag) : pipeline s g f = some (countClu s g rCluStalecnt) := by
  unfold pipeline
  simp [hn, hi, hm, he, hf, hg]

section Codelet
variable (hg : fr.gen = tagGen f.tag) {cl : CodeletLine} (hc : cachedCodelet s g fr (tagCodelet f.tag) = some cl) {arity : Nat}
  (ha : arity = wfld cl.entry 63 60)
include hg hc ha

theorem pipeline_noPort (hp : portOk arity (tagPort f.tag) = false) : pipeline s g f = some (misaddressed s g f) := by
  subst ha
  unfold pipeline
  simp [hn, hi, hm, he, hf, hg, hc, hp]

section Port
variable (hp : portOk arity (tagPort f.tag) = true)
include hp

theorem pipeline_direct (h1 : arity ≤ 1) : pipeline s g f = some (fireDirect s g fr cl f arity) := by
  subst ha
  unfold pipeline
  simp [hn, hi, hm, he, hf, hg, hc, hp, h1]

section Matched
variable (h2 : 2 ≤ arity)
include h2

theorem pipeline_spilled (hs : filterOf s g fr.part fr.frame ≠ 0) : pipeline s g f = toMiss s g f := by
  subst ha
  unfold pipeline
  simp [hn, hi, hm, he, hf, hg, hc, hp, Nat.not_le.mpr h2, hs]

theorem pipeline_stored (hs : filterOf s g fr.part fr.frame = 0) : pipeline s g f = storePath s g fr cl arity f := by
  subst ha
  unfold pipeline
  simp [hn, hi, hm, he, hf, hg, hc, hp, Nat.not_le.mpr h2, hs]

end Matched
end Port
end Codelet
end Cached
end Graph
end Produced

/-- A full miss buffer leaves the pipeline at its token. -/
theorem toMiss_elim (stand : State) (fin : State → State) : (toMiss s g f).elim stand fin =
    if (getSpar s g).miss.length < 64 then fin (modSpar s g fun x => { x with miss := x.miss ++ [f] }) else stand := by
  unfold toMiss
  split
  · rfl
  · rfl

end Pipeline

/-! ### The matching store (R46, R47, R102 to R104) -/

section Store
variable {s : State} {g set w arity : Nat} {fr : FrameLine} {cl : CodeletLine} {f : Flit} {m : Match}

theorem storePath_hit (hset : set = setHash (tagKey f.tag)) (hh : wayHit s g set (tagKey f.tag) = some w) (hw : wayOf s g set w = some m) :
    storePath s g fr cl arity f = some (hitWay s g fr cl set w m f) := by
  subst hset
  unfold storePath
  simp [hh, hw]

theorem storePath_absent (hset : set = setHash (tagKey f.tag)) (hh : wayHit s g set (tagKey f.tag) = none) :
    storePath s g fr cl arity f = install s g (newMatch f arity) := by
  subst hset
  unfold storePath
  simp [hh]

theorem hitWay_duplicate (hd : held m (tagPort f.tag) = true) : hitWay s g fr cl set w m f = duplicate s g f := if_pos hd

theorem hitWay_completes (hd : held m (tagPort f.tag) = false) (hc : complete (addOperand m f) = true) :
    hitWay s g fr cl set w m f = fireMatch (touch (setWay s g set w none) g set w) g fr cl (addOperand m f) :=
  (if_neg (ne_true_of_eq_false hd)).trans (if_pos hc)

theorem hitWay_joins (hd : held m (tagPort f.tag) = false) (hc : complete (addOperand m f) = false) :
    hitWay s g fr cl set w m f = touch (setWay s g set w (some (addOperand m f))) g set w :=
  (if_neg (ne_true_of_eq_false hd)).trans (if_neg (ne_true_of_eq_false hc))

section Install
variable (hset : set = setHash m.key)
include hset

theorem install_free (hw : wayFree s g set = some w) : install s g m = some (touch (setWay s g set w (some m)) g set w) := by
  subst hset
  unfold install
  simp [hw]

variable (hfull : wayFree s g set = none)
include hfull

theorem install_waits (hb : 8 ≤ (getSpar s g).evb.length) : install s g m = none := by
  subst hset
  unfold install
  simp [hfull, hb]

theorem install_evicts {v : Match} (hb : (getSpar s g).evb.length < 8) (hv : wayOf s g set (victim s g set) = some v) :
    install s g m = some (touch (setWay (modSpar s g fun x => { x with evb := x.evb ++ [v] }) g set (victim s g set) (some m)) g set
      (victim s g set)) := by
  subst hset
  unfold install
  simp [hfull, Nat.not_le.mpr hb, hv]

end Install
end Store

/-- Settles O8: where the next token stands decides what is left of it, and the pipeline takes the branch that its kind, its frame, its codelet and
the ways of its set select. -/
theorem tokenArrivalFollowsFiringRule : Obligations.TokenArrivalFollowsFiringRule := by
  intro s die spar f fin stand g set run missed hd hlive hsrc
  have hrun {o : Option State} (ho : pipeline s g f = o) : run = .next (o.elim stand fin) :=
    unitDo_eq hd hlive ((takeToken_elim hsrc).trans (by rw [ho]))
  have hmiss (ho : pipeline s g f = toMiss s g f) : run = .next (if (getSpar s g).miss.length < 64 then fin missed else stand) :=
    (hrun ho).trans (congrArg _ (toMiss_elim stand fin))
  refine ⟨fun hn => hrun (pipeline_never hn), fun hn hi => hrun (pipeline_itemMode hn hi), fun hn hi => ⟨fun h => hmiss (pipeline_misses hn hi h), ?_⟩⟩
  intro hm he fr hf
  refine ⟨fun hg => hrun (pipeline_stale hn hi hm he hf hg), fun hg cl hc => ?_⟩
  intro arity
  refine ⟨fun hp => hrun (pipeline_noPort hn hi hm he hf hg hc rfl hp), fun hp h1 => hrun (pipeline_direct hn hi hm he hf hg hc rfl hp h1),
    fun hp h2 hs => hmiss (pipeline_spilled hn hi hm he hf hg hc rfl hp h2 hs), fun hp h2 hs => ?_⟩
  have hstore {o : Option State} (ho : storePath s g fr cl arity f = o) : run = .next (o.elim stand fin) :=
    hrun ((pipeline_stored hn hi hm he hf hg hc rfl hp h2 hs).trans ho)
  refine ⟨fun w m hh hw => ?_, fun hh => ?_⟩
  · have hhit {t : State} (ht : hitWay s g fr cl set w m f = t) : run = .next (fin t) := hstore ((storePath_hit rfl hh hw).trans (congrArg some ht))
    exact ⟨fun hd => hhit (hitWay_duplicate hd), fun hd hc => hhit (hitWay_completes hd hc), fun hd hc => hhit (hitWay_joins hd hc)⟩
  · have hinstall {o : Option State} (ho : install s g (newMatch f arity) = o) : run = .next (o.elim stand fin) :=
      hstore ((storePath_absent rfl hh).trans ho)
    exact ⟨fun w hw => hinstall (install_free rfl hw), fun hfull hb => hinstall (install_waits rfl hfull hb),
      fun v hfull hb hv => hinstall (install_evicts rfl hfull hb hv)⟩

end Sys2Proof.Machine
end

section
/-! SUPPORT. What a request that a core makes and has served within its step leaves alone (R27, R290, R306, R307, R317 to R324): the homes and
caches on its way change neither where memory answers nor the registers of a logical core, and where no other request waits at a home (R318,
R321) they store nothing. -/

namespace Sys2Proof.Machine

/-- Both states have memory at the same places, the same registers of the logical cores, and the same fence. -/
structure HomeSame (s t : State) : Prop where
  part : t.part = s.part
  dram : t.dramWords = s.dramWords
  hdm : t.hdm = s.hdm
  dies : ∀ d, (getDie t d).withdrawn = (getDie s d).withdrawn
  regs : ∀ c, (getSup t c).regs = (getSup s c).regs
  fatal : t.fatal = s.fatal

theorem HomeSame.refl (s : State) : HomeSame s s := ⟨rfl, rfl, rfl, fun _ => rfl, fun _ => rfl, rfl⟩

theorem HomeSame.trans {s t u : State} (hst : HomeSame s t) (htu : HomeSame t u) : HomeSame s u where
  part := htu.part.trans hst.part
  dram := htu.dram.trans hst.dram
  hdm := htu.hdm.trans hst.hdm
  dies d := (htu.dies d).trans (hst.dies d)
  regs c := (htu.regs c).trans (hst.regs c)
  fatal := htu.fatal.trans hst.fatal

/-- Memory answers at the same addresses. -/
theorem HomeSame.backed {s t : State} (h : HomeSame s t) (wa : Nat) : backed t wa = Machine.backed s wa := by
  simp only [Machine.backed, region, h.part, h.dram, h.hdm, h.dies]

/-- The property is kept by a change that stores nothing and is none of `HomeSame`. -/
def Still (P : State → Prop) : Prop := ∀ {s t : State}, P s → HomeSame s t → t.mem = s.mem → P t

theorem homeSame_still (r : State) : Still (HomeSame r) := fun h hst _ => h.trans hst
theorem mem_still (m : List Host.Cell) : Still fun t => t.mem = m := fun h _ hm => hm.trans h
theorem fatal_still (b : Bool) : Still fun t => t.fatal = b := fun h hst _ => hst.fatal.trans h

section Still

variable {P : State → Prop} (hS : Still P) {s t : State} {a b blk c cache cls d die k la n st v wa word : Nat} {l : HomeLine} {r : HomeReq} {tag : Word}
  {inv : Bool}
include hS

/-! ### Parts of the state -/

theorem upd_still (h : P s) (hm : t.mem = s.mem) (hp : t.part = s.part) (hw : t.dramWords = s.dramWords) (hh : t.hdm = s.hdm) (hd : t.dies = s.dies)
    (hs : t.sups = s.sups) (hf : t.fatal = s.fatal) : P t :=
  hS h ⟨hp, hw, hh, fun d => by unfold getDie; rw [hd], fun c => by unfold getSup; rw [hs], hf⟩ hm

theorem modDie_still {f : Die → Die} (hf : ∀ x, (f x).withdrawn = x.withdrawn) (h : P s) : P (modDie s d f) := by
  refine hS h ⟨rfl, rfl, rfl, fun e => ?_, fun _ => rfl, rfl⟩ rfl
  by_cases he : d = e
  · rw [← he, getDie_modDie_self, hf]
  · rw [getDie_modDie_ne _ _ _ _ he]

theorem modSup_still {f : Sup → Sup} (hf : ∀ x, (f x).regs = x.regs) (h : P s) : P (modSup s c f) := by
  refine hS h ⟨rfl, rfl, rfl, fun _ => rfl, fun e => ?_, rfl⟩ rfl
  by_cases he : c = e
  · rw [← he, getSup_modSup_self, hf]
  · rw [getSup_modSup_ne _ _ _ _ he]

theorem modPe_still {f : Pe → Pe} (h : P s) : P (modPe s k f) := upd_still hS h rfl rfl rfl rfl rfl rfl rfl
theorem takeFree_still (h : P s) : P (takeFree s).2 := upd_still hS h rfl rfl rfl rfl rfl rfl rfl
theorem setReg_still (h : P s) : P (setReg s die blk word v) := upd_still hS h rfl rfl rfl rfl rfl rfl rfl
theorem setCache_still {line : Nat} (h : P s) : P (setCache s cache line v) := upd_still hS h rfl rfl rfl rfl rfl rfl rfl
theorem setLlc_still {l : Option HomeLine} (h : P s) : P (setLlc s la l) := upd_still hS h rfl rfl rfl rfl rfl rfl rfl
theorem setTx_still {t : Option HomeTx} (h : P s) : P (setTx s la t) := upd_still hS h rfl rfl rfl rfl rfl rfl rfl
theorem count_still (h : P s) : P (count s die blk word) := setReg_still hS h

theorem poisonWords_still (h : P s) : P (poisonWords s wa n) := by
  induction n generalizing s wa with
  | zero => exact h
  | succ _ ih => exact ih (upd_still hS h rfl rfl rfl rfl rfl rfl rfl)

/-! ### A report that is not FATAL (R514, R520 to R523) -/

theorem evRaise_still (h : P s) : P (evRaise s die k) := by
  unfold evRaise evTake
  extract_lets +onlyGivenNames rep
  split
  · exact ite_wf (setReg_still hS h) h
  · exact ite_wf (count_still hS h) h
  · exact ite_wf (setReg_still hS h) h
  · exact ite_wf (setReg_still hS (ite_wf (count_still hS h) h)) h

theorem driveFault_still (h : P s) : P (driveFault s cls) := ite_wf (upd_still hS h rfl rfl rfl rfl rfl rfl rfl) h
theorem setLog_still {o : Option FaultRec} (h : P s) : P (setLog s die k o) := modDie_still hS (fun _ => rfl) h
theorem dropRec_still (h : P s) : P (dropRec s die cls) := ite_wf (setReg_still hS h) (ite_wf (setReg_still hS h) (setReg_still hS h))

section Record
variable (hcls : cls ≠ cFatal)
include hcls

theorem classSteps_still (h : P s) : P (classSteps s die cls) := by
  unfold classSteps
  rw [if_neg hcls]
  exact driveFault_still hS (evRaise_still hS h)

variable {r : FaultRec} (hr : r.cls = cls)
include hr

theorem writeRec_still (h : P s) : P (writeRec s die r) := by
  subst hr
  unfold writeRec
  refine ite_wf (ite_wf (dropRec_still hS h) ?_) (classSteps_still hS hcls (setReg_still hS (setLog_still hS h)))
  split
  · exact classSteps_still hS hcls (setLog_still hS h)
  · exact (if_neg hcls).symm ▸ dropRec_still hS h

theorem mergeRec_still {o : FaultRec} (h : P s) : P (mergeRec s die k o r) := by
  subst hr
  unfold mergeRec
  rw [if_neg hcls]
  exact ite_wf (classSteps_still hS hcls (setLog_still hS h)) (setLog_still hS h)

theorem logEntry_still (h : P s) : P (logEntry s die r) := by
  unfold logEntry
  split
  · split
    · exact mergeRec_still hS hcls hr h
    · exact writeRec_still hS hcls hr h
  · exact writeRec_still hS hcls hr h

end Record

/-- A detection that is not FATAL raises no fence, and the held transform blocks keep their state. -/
theorem logDetection_still {r : FaultRec} (hr : r.cls ≠ cFatal) (h : P s) : P (logDetection s die r) := by
  have hfence : (logEntry s die r).fatal = s.fatal := logEntry_still (fatal_still s.fatal) hr rfl rfl
  unfold logDetection
  rw [if_neg (by simp [hfence])]
  exact logEntry_still hS hr rfl h

theorem report_still {block unit det action : Nat} {addr info : Word} {inj : Bool} (hcls : cls ≠ cFatal) (h : P s) :
    P (report s d block unit det cls action addr tag info inj) := by
  unfold report
  rw [if_neg (fun hc => hcls hc.1)]
  exact logDetection_still hS hcls h

theorem deferred_still {block unit det action : Nat} {addr info : Word} (h : P s) : P (deferred s die block unit det action addr tag info) :=
  report_still hS (by decide) h

/-! ### Links (R27, R28) -/

theorem slotUsed_still {c : LinkClass} (h : P s) : P (slotUsed s d k c) := by
  unfold slotUsed
  split
  · exact modDie_still hS (fun _ => rfl) h
  · exact h

theorem cohSlots_still {l : List (Nat × Nat)} (h : P s) : P (cohSlots s l) := foldl_wf (fun _ _ h => ite_wf (slotUsed_still hS h) h) h
theorem cohPass_still (h : P s) : P (cohPass s a b) := cohSlots_still hS h

theorem cohCross_still (h : P s) : OptWf P (cohCross s a b) :=
  foldl_wf (fun _ _ h => bind_wf h fun _ h => ite_wf (some_wf (slotUsed_still hS h)) none_wf) (some_wf h)

theorem ringCredit_still (h : P s) : P (ringCredit s d k) := by
  unfold ringCredit
  split
  · exact modDie_still hS (fun _ => rfl) h
  next n rest _ =>
    have ht : P (modLink s d k fun l => { l with coh := rest }) := modDie_still hS (fun _ => rfl) h
    exact upd_still hS ht rfl rfl rfl rfl rfl rfl rfl

theorem dropSnoops_still (h : P s) : P (dropSnoops s la) :=
  foldl_wf (fun _ _ h => ringCredit_still hS h)
    (hS h ⟨rfl, rfl, rfl, fun d => by rw [getDie_dropWaiting (s := s) rfl]; rfl, fun _ => rfl, rfl⟩ rfl)

/-! ### Caches (R290, R307, R309, R317) -/

theorem dropPeL1_still {keep : Option Nat} (h : P s) : P (dropPeL1 s k la keep) :=
  ite_wf (modPe_still hS (ite_wf (modPe_still hS h) h)) (ite_wf (modPe_still hS h) h)

theorem dropL1_still {keep : Option Nat} (h : P s) : P (dropL1 s cache la keep) := by
  have hi : P (if (getSup s (cache - 256)).l1i.contains la
      then modSup s (cache - 256) fun x => { x with l1i := x.l1i.filter (· != la) } else s) := ite_wf (modSup_still hS (fun _ => rfl) h) h
  exact ite_wf (foldl_wf (fun _ _ h => dropPeL1_still hS h) h) (ite_wf (modSup_still hS (fun _ => rfl) hi) hi)

theorem loseLine_still (h : P s) : P (loseLine s cache la) := upd_still hS (dropL1_still hS (setCache_still hS h)) rfl rfl rfl rfl rfl rfl rfl

theorem takeWb_still (h : P s) : P (takeWb s la c) := by
  unfold takeWb
  split
  · exact count_still hS h
  · exact ite_wf (setLlc_still hS h) (count_still hS h)

theorem writeBack_still (h : P s) : P (writeBack s la c) := by
  unfold writeBack
  extract_lets +onlyGivenNames u
  split
  · exact setTx_still hS (cohPass_still hS h)
  · exact takeWb_still hS (cohPass_still hS h)

theorem evictLine_still (h : P s) : P (evictLine s cache la) := ite_wf (writeBack_still hS (loseLine_still hS h)) (loseLine_still hS h)

theorem l2Room_still (h : P s) : P (l2Room s cache la) := by
  refine ite_wf h ?_
  split
  · exact evictLine_still hS (takeFree_still hS h)
  · exact takeFree_still hS h

theorem grant_still {hs : Nat} {alone : Bool} (h : P s) : P (grant s la l c hs st alone) := by
  unfold grant
  extract_lets base rem l u
  have hu : P u := setCache_still hS (setLlc_still hS (l2Room_still hS h))
  exact upd_still hS hu rfl rfl rfl rfl rfl rfl rfl

/-! ### Snoops (R320 to R324) -/

theorem snoopCache_still (h : P s) : SndP P (snoopCache s c la inv) := by
  unfold snoopCache
  split
  · exact snd_mk_wf (ite_wf (dropL1_still hS h) h)
  · exact snd_mk_wf (ite_wf (loseLine_still hS h) (setCache_still hS h))

theorem forgetLine_still (h : P s) : P (forgetLine s n la) := foldl_wf (fun _ _ h => setCache_still hS h) h

theorem snoopOne_still (h : P s) : SndP P (snoopOne s n la inv) :=
  ite_wf (snd_mk_wf (forgetLine_still hS h)) (ite_wf (snd_mk_wf (forgetLine_still hS h))
    (foldl_wf (fun _ _ h => snd_mk_wf (snoopCache_still hS h)) (snd_mk_wf h)))

theorem injUse_still (h : P s) : P (injUse s d) := modDie_still hS (fun _ => rfl) h

theorem passLate_still {due : List Nat} (h : P s) : P (passLate s la due) := by
  unfold passLate
  extract_lets d u inj
  have hu : P u := poisonWords_still hS (upd_still hS h rfl rfl rfl rfl rfl rfl rfl)
  exact report_still hS (by decide) (count_still hS (ite_wf (injUse_still hS hu) hu))

theorem snoopLinks_still {ts : List Nat} (h : P s) : P (snoopLinks s la ts) :=
  ite_wf h (foldl_wf (fun _ _ h => cohPass_still hS h) (cohSlots_still hS h))

theorem snoopPass_still {own : Option Nat} {ts : List Nat} (h : P s) : OptWf (SndP P) (snoopPass s la l inv own ts) := by
  refine ite_wf none_wf ?_
  extract_lets +onlyGivenNames p
  have hp : P p.2 := of_snd (foldl_wf (fun _ _ h => snd_mk_wf (snoopOne_still hS h)) (snd_mk_wf (snoopLinks_still hS h)))
  exact ite_wf (some_wf (snd_mk_wf (setLlc_still hS hp))) (some_wf (snd_mk_wf (setLlc_still hS (passLate_still hS hp))))

/-! ### A request at its home (R318, R319, R321) -/

theorem useLine_still (h : P s) : P (useLine s la) := by
  unfold useLine
  extract_lets +onlyGivenNames u
  have hu : P u := upd_still hS h rfl rfl rfl rfl rfl rfl rfl
  split
  · exact setLlc_still hS hu
  · exact hu

theorem fetchLine_still (h : P s) : OptWf P (fetchLine s la) := by
  unfold fetchLine
  split
  · exact some_wf h
  · split
    · exact some_wf (setLlc_still hS h)
    · exact none_wf
    · split
      · exact some_wf (setLlc_still hS h)
      · exact map_wf (fun _ h => setLlc_still hS (setLlc_still hS h)) (snoopPass_still hS h)

/-- A request of which each performance keeps the property keeps it on its way to that. -/
theorem homeServe_still {now : Bool} (hperf : ∀ u l, P u → P (perform u la l r now)) (h : P s) : OptWf (SndP P) (homeServe s la r now) := by
  unfold homeServe
  split
  · exact none_wf
  next u hu =>
    have huse : P (useLine u la) := useLine_still hS (of_some (fetchLine_still hS h) hu)
    extract_lets +onlyGivenNames w
    split
    · exact none_wf
    · refine ite_wf ?_ (some_wf (snd_mk_wf (hperf _ _ huse)))
      split
      · exact none_wf
      next p hp => exact some_wf (snd_mk_wf (hperf _ _ (snoopPass_still hS huse _ hp)))

/-- A read for ownership makes its cache the holder, which stores nothing. -/
theorem perform_rdX_still (h : P s) : P (perform s la l (reqOf .rdX (cacheId cache)) true) := by
  unfold perform
  rw [if_pos rfl]
  dsimp only [reqOf]
  split
  · exact h
  · exact grant_still hS h

/-- A cache that asks its home for a line, where what is ahead of the request keeps the property. -/
theorem lineForWrite_still {Q : State → Prop} (hcross : OptWf Q (cohCross s (idDie (cacheId cache)) (homeDie la)))
    (hahead : ∀ u, Q u → OptWf P (serveAhead 4 u la)) (h : P s) : OptWf (SndP P) (lineForWrite s cache la) :=
  ite_wf (some_wf (snd_mk_wf h)) (bind_wf hcross fun _ hu => bind_wf (hahead _ hu) fun _ hv =>
    bind_wf (homeServe_still hS (fun _ _ => perform_rdX_still hS) hv) fun _ hp => map_wf (fun _ h => snd_mk_wf h) (cohCross_still hS hp))

end Still

/-! ### Homes with nothing else to do (R318, R321, R323) -/

section Quiet
variable {s : State} {cache d k la n : Nat}

theorem homeTx_quiet (h : homesQuiet s = true) (la : Nat) : homeTx s la = none := by
  simp only [homesQuiet, Bool.and_eq_true, List.isEmpty_iff] at h
  unfold homeTx
  rw [h.1]
  rfl

theorem sliceWait_quiet (h : homesQuiet s = true) (sl : Nat) : sliceWait s sl = [] := by
  simp only [homesQuiet, Bool.and_eq_true, List.isEmpty_iff] at h
  unfold sliceWait
  rw [h.2]
  rfl

/-- Nothing is ahead of a request, so that its turn has come or, in a slice without a way, never comes. -/
theorem serveAhead_quiet (h : homesQuiet s = true) : OptWf (fun t => t = s) (serveAhead n s la) := by
  cases n with
  | zero => exact none_wf
  | succ n =>
    unfold serveAhead
    simp only [sliceWait_quiet h, homeTx_quiet h, List.filter_nil, List.isEmpty_nil, if_true, Option.bind_some, List.map_nil, List.append_nil,
      List.foldl_nil, Option.isSome_none, Bool.and_false]
    refine ite_wf (some_wf rfl) ?_
    rw [List.find?_eq_none.mpr (by simp)]
    exact none_wf

theorem cohCross_quiet {a b : Nat} {m : List Host.Cell} (h : homesQuiet s = true) (hm : s.mem = m) :
    OptWf (fun u => homesQuiet u = true ∧ u.mem = m) (cohCross s a b) := by
  have hused {u : State} {e : Nat × Nat} (hu : homesQuiet u = true ∧ u.mem = m) :
      homesQuiet (slotUsed u e.1 e.2 .coherence) = true ∧ (slotUsed u e.1 e.2 .coherence).mem = m := by
    unfold slotUsed
    split
    · exact hu
    · exact hu
  exact foldl_wf (fun _ _ ho => bind_wf ho fun _ hu => ite_wf (some_wf (hused hu)) none_wf) (some_wf ⟨h, hm⟩)

/-- A cache that asks for a line stores nothing. -/
theorem lineForWrite_quiet (h : homesQuiet s = true) : OptWf (SndP fun t => t.mem = s.mem) (lineForWrite s cache la) :=
  lineForWrite_still (mem_still s.mem) (cohCross_quiet h rfl)
    (fun _ ⟨hu, hm⟩ t ht => (congrArg State.mem (serveAhead_quiet hu t ht)).trans hm) rfl

end Quiet

/-! ### What waits at a home is served first, and may store (R318, R321, R323, R333) -/

section Stored

variable {P : State → Prop} (hS : Still P) (hpoke : ∀ {s : State} {wa : Nat} {v : Word}, P s → P (poke s wa v)) {s : State}
  {cache j la n : Nat} {l : HomeLine} {r : HomeReq}
include hS

theorem lineRead_still {check : MemCheck} (h : P s) : P (lineRead s la check) := by
  unfold lineRead
  extract_lets +onlyGivenNames d ch
  split
  · exact report_still hS (by decide) (count_still hS h)
  · exact poisonWords_still hS (deferred_still hS (count_still hS h))
  · exact foldl_wf (fun _ _ h => ite_wf (poisonWords_still hS h) h) h
  · exact h

theorem scrubRead_still {check : LineCheck} (h : P s) : P (scrubRead s la check) := by
  unfold scrubRead
  split
  · exact deferred_still hS (count_still hS h)
  · exact lineRead_still hS h

theorem homeReply_still {words : List Word} {psn : Nat} (h : P s) : P (homeReply s r la words psn) := upd_still hS h rfl rfl rfl rfl rfl rfl rfl

theorem replyCross_still (h : P s) : P (replyCross s la r) := by
  unfold replyCross
  split
  · exact cohPass_still hS h
  · exact cohPass_still hS h
  · exact h
  · exact cohPass_still hS h
  · exact cohPass_still hS h
  · exact h
  · exact h

include hpoke

theorem deviceWord_still (h : P s) : P (deviceWord s r la j) :=
  ite_wf h (ite_wf (ite_wf (poisonWords_still hS (hpoke h)) (hpoke h)) (ite_wf (deferred_still hS (count_still hS h))
    (ite_wf (poisonWords_still hS (hpoke h)) (hpoke h))))

theorem deviceWrite_still (h : P s) : P (deviceWrite s la r) := ite_wf h (foldl_wf (fun _ _ h => deviceWord_still hS hpoke h) h)

theorem farOp_still (h : P s) : P (farOp s la r) := by
  refine ite_wf (homeReply_still hS h) ?_
  split
  · exact homeReply_still hS (hpoke h)
  · exact h

theorem perform_still {now : Bool} (h : P s) : P (perform s la l r now) := by
  unfold perform
  extract_lets +onlyGivenNames t none'
  have ht : P t := ite_wf h (replyCross_still hS h)
  clear_value t
  split
  · split
    · exact ite_wf ht (homeReply_still hS ht)
    · exact ite_wf (grant_still hS ht) (ite_wf ht (grant_still hS ht))
  · split
    · exact ht
    · exact grant_still hS ht
  · split
    · exact ht
    · exact takeWb_still hS (ite_wf (loseLine_still hS ht) ht)
  · exact ite_wf (setLlc_still hS ht) (farOp_still hS hpoke (setLlc_still hS ht))
  · exact ite_wf ht (homeReply_still hS ht)
  · exact deviceWrite_still hS hpoke (setLlc_still hS ht)
  · split
    · exact dropL1_still hS (deviceWrite_still hS hpoke (grant_still hS ht))
    · exact deviceWrite_still hS hpoke (setLlc_still hS (ite_wf ht (count_still hS ht)))

theorem serveJob_still {job : HomeJob} (h : P s) : OptWf P (serveJob s la job) := by
  unfold serveJob
  split
  · exact some_wf (scrubRead_still hS h)
  · split
    · exact some_wf (perform_still hS hpoke h)
    · exact some_wf (count_still hS h)
    · exact map_wf (fun _ h => h) (homeServe_still hS (fun _ _ => perform_still hS hpoke) h)

theorem endTx_still {t : HomeTx} (h : P s) : OptWf (FstP P) (endTx s la t) := by
  unfold endTx
  extract_lets +onlyGivenNames came src u first
  have hu : P u := dropSnoops_still hS (upd_still hS h rfl rfl rfl rfl rfl rfl rfl)
  split
  · exact some_wf (fst_mk_wf hu)
  · extract_lets +onlyGivenNames v l
    have hv : P v := ite_wf (passLate_still hS hu) hu
    split
    · exact map_wf (fun _ hp => fst_mk_wf (setLlc_still hS hp)) (snoopPass_still hS hv)
    · exact map_wf (fun _ hp => fst_mk_wf (perform_still hS hpoke hp)) (snoopPass_still hS hv)
    · exact some_wf (fst_mk_wf hv)

theorem serveAhead_still (h : P s) : OptWf P (serveAhead n s la) := by
  induction n generalizing s la with
  | zero => exact none_wf
  | succ n ih =>
    unfold serveAhead
    extract_lets waits t room
    have ht : P t := ite_wf h (upd_still hS h rfl rfl rfl rfl rfl rfl rfl)
    have hroom (u : State) (hu : P u) : OptWf P (room u) := ite_wf (some_wf hu) (bind_of_wf fun b => ih hu)
    refine bind_wf (P := FstP P) ?_ fun p hp => bind_wf (foldl_wf (fun _ _ ho => bind_wf ho fun u hu =>
      bind_wf (hroom u hu) fun _ hv => serveJob_still hS hpoke hv) (some_wf hp)) hroom
    split
    · exact endTx_still hS hpoke ht
    · exact some_wf (fst_mk_wf ht)

end Stored

/-- A store leaves where memory answers and the registers. -/
theorem homeSame_poke {r s : State} {wa : Nat} {v : Word} (h : HomeSame r s) : HomeSame r (poke s wa v) :=
  h.trans (ite_wf ⟨rfl, rfl, rfl, fun _ => rfl, fun _ => rfl, rfl⟩ (HomeSame.refl s))

/-- A cache that asks for a line, with all that waits at its home, leaves where memory answers and the registers. -/
theorem lineForWrite_homeSame {s : State} {cache la : Nat} : OptWf (SndP (HomeSame s)) (lineForWrite s cache la) :=
  lineForWrite_still (homeSame_still s) (cohCross_still (homeSame_still s) (HomeSame.refl s))
    (fun _ => serveAhead_still (homeSame_still s) homeSame_poke) (HomeSame.refl s)

end Sys2Proof.Machine
end

section
/-! SUPPORT. The frame of stores (R61, R64, R197, R209, R280, R311): the bytes that a word written at its address changes, what a logical core's
store writes in its L2 once that owns the line, and a PE's store, which its scope holds. -/

namespace Sys2Proof.Machine

/-! ### A word written in memory (R11, R327) -/

theorem tget_setBytes (wa v n k : Nat) (m : List Host.Cell) (a : Nat) : tget byteDflt (setBytes wa v n k m) a =
    if 8 * wa + k ≤ a ∧ a < 8 * wa + k + n then BitVec.ofNat 8 (v / 2 ^ (8 * (a - 8 * wa))) else tget byteDflt m a := by
  induction n generalizing k m with
  | zero => rw [if_neg (by omega)]; rfl
  | succ n ih =>
    unfold setBytes setByte
    rw [ih, tget_tset]
    by_cases ha : 8 * wa + k = a
    · subst ha
      rw [if_neg (by omega), if_pos rfl, if_pos (by omega), Nat.add_sub_cancel_left]
    · rw [if_neg ha]
      exact if_congr (by omega) rfl rfl

/-- A word written changes its eight bytes alone. -/
theorem rdByte_poke_outside {s : State} {wa a : Nat} {v : Word} (h : a < 8 * wa ∨ 8 * wa + 8 ≤ a) : rdByte (poke s wa v) a = rdByte s a := by
  unfold poke
  split
  · exact (tget_setBytes wa v.toNat 8 0 s.mem a).trans (if_neg (by omega))
  · rfl

theorem peek_of_mem {s t : State} {wa : Nat} (h : t.mem = s.mem) : peek t wa = peek s wa := by
  unfold peek rdByte
  rw [h]

/-- A word reads as it was written where memory answers. -/
theorem peek_poke_self {s : State} {wa : Nat} {v : Word} (h : backed s wa = true) : peek (poke s wa v) wa = v := by
  have hbyte (k : Nat) (hk : k < 8) : (rdByte (poke s wa v) (8 * wa + k)).toNat = v.toNat / 2 ^ (8 * k) % 2 ^ 8 := by
    unfold poke
    rw [if_pos h]
    refine (congrArg BitVec.toNat ((tget_setBytes wa v.toNat 8 0 s.mem (8 * wa + k)).trans (if_pos (by omega)))).trans ?_
    rw [Nat.add_sub_cancel_left, BitVec.toNat_ofNat]
  unfold peek
  apply BitVec.eq_of_toNat_eq
  rw [toNat_w64]
  simp only [hbyte, Nat.reduceLT]
  have hv := v.isLt
  omega

/-! ### A logical core's L2 and L1D take the word (R305, R307, R309, R324) -/

section Core
variable {s t : State} {c cache la pa wa a : Nat} {v : Word}

theorem l1Victim_snd (s : State) (sets ways la : Nat) (lines : List Nat) :
    (l1Victim s sets ways la lines).2 = s ∨ (l1Victim s sets ways la lines).2 = (takeFree s).2 := by
  unfold l1Victim
  extract_lets mates f
  split
  · exact .inl rfl
  · exact .inr rfl

/-- The L1D takes a line, which is no store, no register and no copy of an L2. -/
theorem fillSupL1d_leaves (s : State) (c la : Nat) : HomeSame s (fillSupL1d s c la) ∧ (fillSupL1d s c la).mem = s.mem ∧
    (fillSupL1d s c la).csr = s.csr ∧ (fillSupL1d s c la).strays = s.strays := by
  unfold fillSupL1d
  split
  · exact ⟨HomeSame.refl s, rfl, rfl, rfl⟩
  · extract_lets victim
    have hv : HomeSame s victim.2 ∧ victim.2.mem = s.mem ∧ victim.2.csr = s.csr ∧ victim.2.strays = s.strays := by
      rcases l1Victim_snd s 64 8 la (getSup s c).l1d with h | h
      · rw [h]; exact ⟨HomeSame.refl s, rfl, rfl, rfl⟩
      · rw [h]; exact ⟨takeFree_still (homeSame_still s) (HomeSame.refl s), rfl, rfl, rfl⟩
    exact ⟨modSup_still (homeSame_still s) (fun _ => rfl) hv.1, hv.2⟩

/-- A write into an L2 is one of memory, or of a copy that no home tracks. -/
theorem l2Write_still {P : State → Prop} (hS : Still P) (h : P s) (hw : P (poke s wa v)) : P (l2Write s cache wa v) := by
  unfold l2Write
  extract_lets u
  have hu : P u := by
    simp only [u]
    split
    · exact upd_still hS h rfl rfl rfl rfl rfl rfl rfl
    · exact hw
  exact ite_wf (setCache_still hS hu) hu

/-- A write into a line whose copy its home tracks is one of memory, and leaves the CSR space. -/
theorem l2Write_tracked (hs : strayOf s cache (wa / 16) = none) :
    (l2Write s cache wa v).mem = (poke s wa v).mem ∧ (l2Write s cache wa v).csr = s.csr := by
  have hcsr : (poke s wa v).csr = s.csr := by
    unfold poke
    split
    · rfl
    · rfl
  unfold l2Write
  rw [hs]
  dsimp only
  split
  · exact ⟨rfl, hcsr⟩
  · exact ⟨rfl, hcsr⟩

/-- The L1 copies above a logical core's L2 are no registers of the CSR space. -/
theorem dropL1_sup_csr {keep : Option Nat} (hc : 256 ≤ cache) : (dropL1 s cache la keep).csr = s.csr := by
  unfold dropL1
  rw [if_neg (by omega)]
  extract_lets core u
  have hu : u.csr = s.csr := by
    simp only [u]
    split
    · rfl
    · rfl
  split
  · exact hu
  · exact hu

/-- The state after a logical core's store of one word, whose L2 owns the line. -/
def supStored (s : State) (c pa : Nat) (v : Word) : State := coreStores (fillSupL1d s c (pa / 16)) c pa [v]

theorem supStored_eq (hb : backed s pa = true) : supStored s c pa v =
    dropL1 (l2Write (fillSupL1d s c (pa / 16)) (256 + c) pa v) (256 + c) (pa / 16) (some c) := by
  have hb' : backed (fillSupL1d s c (pa / 16)) pa = true := ((fillSupL1d_leaves s c (pa / 16)).1.backed pa).trans hb
  simp [supStored, coreStores, coreStore, hb']

section Stored
variable (hb : backed s pa = true)
include hb

theorem supStored_homeSame : HomeSame s (supStored s c pa v) := by
  obtain ⟨hsame, -⟩ := fillSupL1d_leaves s c (pa / 16)
  rw [supStored_eq hb]
  exact dropL1_still (homeSame_still s) (l2Write_still (homeSame_still s) hsame (homeSame_poke hsame))

/-- The store changes no byte but the eight of its word. -/
theorem rdByte_supStored_outside (ha : a < 8 * pa ∨ 8 * pa + 8 ≤ a) : rdByte (supStored s c pa v) a = rdByte s a := by
  obtain ⟨-, hmem, -⟩ := fillSupL1d_leaves s c (pa / 16)
  have hS : Still fun t => rdByte t a = rdByte s a := fun h _ hm => (congrArg (tget byteDflt · a) hm).trans h
  have hfill : rdByte (fillSupL1d s c (pa / 16)) a = rdByte s a := congrArg (tget byteDflt · a) hmem
  rw [supStored_eq hb]
  exact dropL1_still hS (l2Write_still hS hfill ((rdByte_poke_outside ha).trans hfill))

/-- Into a line whose copy the home tracks, the word is stored, and nothing in the CSR space changes. -/
theorem supStored_tracked (hs : strayOf s (256 + c) (pa / 16) = none) :
    peek (supStored s c pa v) pa = v ∧ (supStored s c pa v).csr = s.csr := by
  obtain ⟨hsame, -, hcsr, hstrays⟩ := fillSupL1d_leaves s c (pa / 16)
  have hs' : strayOf (fillSupL1d s c (pa / 16)) (256 + c) (pa / 16) = none := by
    unfold strayOf at hs ⊢
    rw [hstrays]
    exact hs
  obtain ⟨wmem, wcsr⟩ := l2Write_tracked (v := v) hs'
  rw [supStored_eq hb]
  refine ⟨?_, (dropL1_sup_csr (Nat.le_add_right _ _)).trans (wcsr.trans hcsr)⟩
  have hmem := dropL1_still (mem_still _) (cache := 256 + c) (la := pa / 16) (keep := some c) wmem
  exact (peek_of_mem hmem).trans (peek_poke_self ((hsame.backed pa).trans hb))

end Stored
end Core

/-! ### The store of a logical core -/

section Sup
variable {t u : State} {c ea pa : Nat} {vs : List Word} {fin : State → State}

theorem region_of_backed (hb : backed u pa = true) (d o : Nat) : region u pa ≠ .device d o := by
  intro h
  rw [backed, h] at hb
  exact Bool.false_ne_true hb

theorem supStore_one {v : Word} {q : Bool × State} (hb : backed u pa = true) (hl : lineForWrite u (256 + c) (pa / 16) = some q) :
    supStore u c pa ea [v] fin = .next (fin (supStored q.2 c pa v)) :=
  supStore_owned (region_of_backed hb) hl (if_pos hb).symm

theorem getD_homeSame {r : Nat} (h : HomeSame t u) :
    getD u (.sup c) r = getD t (.sup c) r := congrArg (fun x : Regs => tget (fun _ => 0) x.d r) (h.regs c)
theorem getA_homeSame {r : Nat} (h : HomeSame t u) : getA u (.sup c) r = getA t (.sup c) r :=
  congrArg (fun x : Regs => (tget (fun _ => (0 : BitVec 49)) x.a r).toNat) (h.regs c)

end Sup

/-! ### A PE's store, before its commit point -/

section Scope
variable {t : State} {k pa : Nat}

/-- A store to a line of the scope asks for nothing. -/
theorem askLine_held (h : (scopeLines (getPe t k)).contains (pa / 16) = true) : askLine t k pa = t := if_neg (by simp only [h]; simp)

/-- Asking for a line stores nothing. -/
theorem askLine_mem (h : homesQuiet t = true) : (askLine t k pa).mem = t.mem := by
  have hasked : OptWf (fun u => u.mem = t.mem) ((lineForWrite t (peSpar k) (pa / 16)).map (·.2)) := map_wf (fun _ hq => hq) (lineForWrite_quiet h)
  exact ite_wf (P := fun u : State => u.mem = t.mem) (getD_wf hasked rfl) rfl

theorem mirror_leaves (t : State) (k : Nat) : (mirror t k).mem = t.mem ∧ (mirror t k).csr = t.csr := by
  unfold mirror
  extract_lets p
  split
  · exact ⟨rfl, rfl⟩
  · exact ⟨rfl, rfl⟩

end Scope

/-- What a logical core's store of one word leaves, where memory answers: nothing happens yet, or its L2 takes the word of the line it was given. -/
theorem exec_st_sup {s t t' u : State} {p : SupId} {pc n ea na pa : Nat} {op : MemOp} (hr : Runs s (.sup p) n (.sup (supOf p)) pc t)
    (hn : n = dispLen op.disp) (ht' : t' = xlateNote t (hartCtx t (.sup (supOf p))) ea) (he : effective t (.sup (supOf p)) op false = some (ea, na))
    (hx : translate t (hartCtx t (.sup (supOf p))) .write ea = .ok pa) (hb : backed t' pa = true) (hu : exec (.st (.sup p) op) s = .next u) :
    (lineForWrite t' (256 + supOf p) (pa / 16) = none ∧ u = t') ∨
    ∃ q, lineForWrite t' (256 + supOf p) (pa / 16) = some q ∧
      u = setPc (setA (supStored q.2 (supOf p) pa (getD t (.sup (supOf p)) op.rt)) (.sup (supOf p)) op.ab na) (.sup (supOf p)) (pc + n) := by
  have hst := (exec_st hr hn he).symm.trans hu
  rw [storeWords_sup ht' rfl hx] at hst
  cases hl : lineForWrite t' (256 + supOf p) (pa / 16) with
  | none =>
    rw [supStore_waits (region_of_backed hb) hl] at hst
    exact .inl ⟨rfl, (Host.Outcome.next.inj hst).symm⟩
  | some q =>
    rw [supStore_one hb hl] at hst
    exact .inr ⟨q, rfl, (Host.Outcome.next.inj hst).symm⟩

/-- A PE's store within its scope's lines is held: memory and the CSR space are those after its line has been asked for. -/
theorem exec_st_pe {s t t' u : State} {p : PeId} {pc n ea na pa : Nat} {op : MemOp} (hr : Runs s (.pe p) n (.pe (peOf p)) pc t)
    (hn : n = dispLen op.disp) (ht' : t' = xlateNote t (hartCtx t (.pe (peOf p))) ea) (he : effective t (.pe (peOf p)) op false = some (ea, na))
    (hx : translate t (hartCtx t (.pe (peOf p))) .write ea = .ok pa) (hs : isScratch ea = false)
    (hroom : (scopeLines (getPe t' (peOf p))).length < 16 ∨ (scopeLines (getPe t' (peOf p))).contains (pa / 16) = true)
    (hu : exec (.st (.pe p) op) s = .next u) : u.mem = (askLine t' (peOf p) pa).mem ∧ u.csr = (askLine t' (peOf p) pa).csr := by
  have hst := (exec_st hr hn he).symm.trans hu
  rw [storeWords_pe ht' rfl hs hx, peStore_room hroom] at hst
  obtain rfl := Host.Outcome.next.inj hst
  exact mirror_leaves _ _

/-- Settles O6: a logical core's store is what its L2 takes of one word once the home has given the line, and a PE's store only what its scope
holds. -/
theorem storesChangeOnlyTheirWord : Obligations.StoresChangeOnlyTheirWord := by
  intro s t t' u h pc n op ea na pa hn ht' he hx
  refine ⟨fun p hr hb hu => ?_, fun p hr hs hu => ?_⟩
  · obtain rfl : h = .sup (supOf p) := hr.2.1
    rcases exec_st_sup hr hn ht' he hx hb hu with ⟨hl, rfl⟩ | ⟨q, hl, rfl⟩
    · exact ⟨fun _ _ _ => rfl, fun _ => rfl, fun _ _ => rfl, fun q hq => absurd (hl.symm.trans hq) (by simp)⟩
    · have hgiven : HomeSame t' q.2 := lineForWrite_homeSame q hl
      have hb' : backed q.2 pa = true := (hgiven.backed pa).trans hb
      have hsame := hgiven.trans (supStored_homeSame (c := supOf p) (v := getD t (.sup (supOf p)) op.rt) hb')
      refine ⟨fun hq a ha => ?_, fun r => ?_, fun r hne => ?_, fun q' hq' hstray => ?_⟩
      · have hmem : q.2.mem = t'.mem := by
          rcases hq with hquiet | howns
          · exact lineForWrite_quiet hquiet q hl
          · rw [lineForWrite, howns, Bool.or_true, if_pos rfl] at hl
            exact (congrArg (fun x => x.2.mem) (Option.some.inj hl)).symm
        exact (rdByte_supStored_outside hb' ha).trans (congrArg (tget byteDflt · a) hmem)
      · rw [getD_setPc, getD_setA]
        exact getD_homeSame hsame
      · rw [getA_setPc, getA_setA, if_neg fun hr => hne (Fin.ext hr.symm)]
        exact getA_homeSame hsame
      · obtain rfl := Option.some.inj (hl.symm.trans hq')
        obtain ⟨hpeek, hcsr⟩ := supStored_tracked (v := getD t (.sup (supOf p)) op.rt) hb' hstray
        refine ⟨Eq.trans (peek_of_mem ?_) hpeek, hcsr⟩
        rfl
  · obtain rfl : h = .pe (peOf p) := hr.2.1
    have hst := exec_st_pe (u := u) hr hn ht' he hx hs
    refine ⟨fun hin => ?_, fun hlt hquiet => (hst (.inl hlt) hu).1.trans (askLine_mem hquiet)⟩
    have hheld := hst (.inr hin) hu
    rw [askLine_held hin] at hheld
    exact hheld

end Sys2Proof.Machine
end

section
/-! SUPPORT. Instructions that only a codelet may execute (R190, R271): what each is on a core of either kind. -/

namespace Sys2Proof.Machine

section Codelet
variable {s t : State} {h : Hart} {pc n : Nat} {r : Res}

/-- A supervisor core has no instruction of a codelet. -/
theorem instrDo_codeletOnly_sup {p : SupId} (hr : Runs s (.sup p) n h pc t) (body : Nat → State → Res) :
    instrDo (.sup p) n (codeletOnly body) s = .next (coreAfter (.sup p) pc n (illegal t)) := by
  obtain rfl : h = .sup (supOf p) := hr.2.1
  exact instrDo_eq hr rfl

variable {p : PeId} {k : Nat} {i : Inst} (hr : Runs s (.pe p) n h pc t) (hk : k = peOf p)
include hr hk

theorem hart_of_runs_pe : h = .pe k := hk ▸ hr.2.1

/-- A PE executes it for its running instance. -/
theorem instrDo_codeletOnly_pe (hi : (getPe t k).inst = some i) {body : Nat → State → Inst → Res} (hb : body k t i = r) :
    instrDo (.pe p) n (codeletOnly fun k s => instOfPe s k (body k s)) s = .next (coreAfter (.pe p) pc n r) := by
  obtain rfl := hart_of_runs_pe hr hk
  subst hb
  refine instrDo_eq hr ?_
  unfold codeletOnly instOfPe
  dsimp only
  rw [hi]

end Codelet

end Sys2Proof.Machine
end

section
/-! SUPPORT. Frames from a codelet (R54, R55, R57, R173, R175, R271, R273, R326, R677): how an allocation ends, and what a free is held for. -/

namespace Sys2Proof.Machine

section Frames
variable {s t : State} {p : PeId} {k pc : Nat} {h : Hart} {i : Inst} {rd rs1 rs2 : Fin 32} (hr : Runs s (.pe p) 2 h pc t) (hk : k = peOf p)
  (hi : (getPe t k).inst = some i)
include hr hk hi

/-! ### Allocation (R54, R55, R677) -/

section Alloc
variable {n : State} (hn : n = allocNote t (uSpar (peSpar k)) i.part i.asid)
include hn

theorem exec_falloc_got {z : State} {f pa : Nat} {hw : PartHw} (ha : tryAlloc n (uSpar (peSpar k)) i.part i.asid = .got f hw pa)
    (hz : z = modPe (modHw n i.part fun _ => hw) k fun x =>
      { x with taken := ⟨f, wfld (getD n h rs1) 48 0, i.asid, getD n h rs2, pa⟩ :: x.taken, sb := retake x.sb pa (getD n h rs2) }) :
    exec (.falloc (.pe p) rd rs1 rs2) s = .next (coreAfter (.pe p) pc 2 (.next (setD z h rd (tagBase z (peDie k) i.part f)))) := by
  subst hn hz
  obtain rfl := hart_of_runs_pe hr hk
  exact instrDo_codeletOnly_pe hr hk hi (by simp only [ha])

theorem exec_falloc_fails {z : State} {closed : Bool} (ha : (tryAlloc n (uSpar (peSpar k)) i.part i.asid = .empty ∧ z = n ∧ closed = false) ∨
      (tryAlloc n (uSpar (peSpar k)) i.part i.asid = .closed ∧ z = n ∧ closed = true) ∨
      ∃ hw a, tryAlloc n (uSpar (peSpar k)) i.part i.asid = .lost hw a ∧ z = allocLost n (peDie k) i.part hw a ∧ closed = false) :
    exec (.falloc (.pe p) rd rs1 rs2) s =
      .next (coreAfter (.pe p) pc 2 (.next (setD (countAllocFail z (peDie k) i.part closed) h rd 0))) := by
  subst hn
  obtain rfl := hart_of_runs_pe hr hk
  rcases ha with ⟨ha, rfl, rfl⟩ | ⟨ha, rfl, rfl⟩ | ⟨hw, a, ha, rfl, rfl⟩
  · exact instrDo_codeletOnly_pe hr hk hi (by simp only [ha])
  · exact instrDo_codeletOnly_pe hr hk hi (by simp only [ha])
  · exact instrDo_codeletOnly_pe hr hk hi (by simp only [ha])

theorem exec_falloc_traps {e body : Nat} (ha : tryAlloc n (uSpar (peSpar k)) i.part i.asid = .fault e body) :
    exec (.falloc (.pe p) rd rs1 rs2) s = .next (coreAfter (.pe p) pc 2 (.trap n e 0 body)) := by
  subst hn
  exact instrDo_codeletOnly_pe hr hk hi (by simp only [ha])

end Alloc

/-! ### Gates and frees (R57, R173, R175, R273) -/

section Gate
variable {g : Nat}

theorem exec_fallocG_held (hg : g = wfld (getD t h rs1) 60 49) (he : gateExists t (peDie k) i.part g = true) :
    exec (.fallocG (.pe p) rd rs1 rs2) s = .next (coreAfter (.pe p) pc 2 (.next (modPe t k fun x => { x with gates :=
      x.gates ++ [⟨false, i.part, g, getD t h rd, i.asid, wfld (getD t h rs1) 48 0, getD t h rs2⟩] }))) := by
  subst hg
  obtain rfl := hart_of_runs_pe hr hk
  exact instrDo_codeletOnly_pe hr hk hi (by simp [gateOk, he])

theorem exec_fallocG_noGate (hg : g = wfld (getD t h rs1) 60 49) (he : gateExists t (peDie k) i.part g = false) :
    exec (.fallocG (.pe p) rd rs1 rs2) s = .next (coreAfter (.pe p) pc 2 (illegal t)) := by
  subst hg
  obtain rfl := hart_of_runs_pe hr hk
  exact instrDo_codeletOnly_pe hr hk hi (if_pos (by simp [gateOk, he]))

theorem exec_ffree_field (hz : rd ≠ 0 ∨ rs2 ≠ 0) : exec (.ffree (.pe p) rd rs1 rs2) s = .next (coreAfter (.pe p) pc 2 (illegal t)) :=
  instrDo_codeletOnly_pe hr hk hi (if_pos (hz.imp Fin.val_ne_of_ne Fin.val_ne_of_ne))

theorem exec_ffreeG_refused (hg : g = wfld (getD t h rs2) 11 0) (hz : rd ≠ 0 ∨ gateExists t (peDie k) i.part g = false) :
    exec (.ffreeG (.pe p) rd rs1 rs2) s = .next (coreAfter (.pe p) pc 2 (illegal t)) := by
  subst hg
  obtain rfl := hart_of_runs_pe hr hk
  exact instrDo_codeletOnly_pe hr hk hi (if_pos (hz.imp Fin.val_ne_of_ne fun he => by simp [gateOk, he]))

theorem exec_ffree {r : Res} (hf : freeOp k i rs1 none t = r) : exec (.ffree (.pe p) 0 rs1 0) s = .next (coreAfter (.pe p) pc 2 r) :=
  instrDo_codeletOnly_pe hr hk hi ((if_neg (by simp)).trans hf)

theorem exec_ffreeG {r : Res} (hg : g = wfld (getD t h rs2) 11 0) (he : gateExists t (peDie k) i.part g = true)
    (hf : freeOp k i rs1 (some g) t = r) : exec (.ffreeG (.pe p) 0 rs1 rs2) s = .next (coreAfter (.pe p) pc 2 r) := by
  subst hg
  obtain rfl := hart_of_runs_pe hr hk
  exact instrDo_codeletOnly_pe hr hk hi ((if_neg (by simp [gateOk, he])).trans hf)

end Gate
end Frames

/-- Settles O27: an allocation ends as `tryAlloc` finds the free list, a gate is judged first, and a free by the descriptor that it reads. -/
theorem frameInstructionsComplete : Obligations.FrameInstructionsComplete := by
  refine ⟨fun s t p h pc rd rs1 rs2 hr => ?_, fun s t p k h pc i rd rs1 rs2 hr hk hi => ⟨fun n hn => ?_, fun g hg => ?_, ?_, ?_, ?_⟩⟩
  · exact ⟨instrDo_codeletOnly_sup hr _, instrDo_codeletOnly_sup hr _, instrDo_codeletOnly_sup hr _, instrDo_codeletOnly_sup hr _⟩
  · exact ⟨fun f hw pa z ha hz => exec_falloc_got hr hk hi hn ha hz, fun ha => exec_falloc_fails hr hk hi hn (.inl ⟨ha, rfl, rfl⟩),
      fun ha => exec_falloc_fails hr hk hi hn (.inr (.inl ⟨ha, rfl, rfl⟩)),
      fun hw a ha => exec_falloc_fails hr hk hi hn (.inr (.inr ⟨hw, a, ha, rfl, rfl⟩)), fun e body ha => exec_falloc_traps hr hk hi hn ha⟩
  · exact ⟨exec_fallocG_held hr hk hi hg, exec_fallocG_noGate hr hk hi hg⟩
  · exact exec_ffree_field hr hk hi
  · exact fun g hg => exec_ffreeG_refused hr hk hi hg
  · intro tag a u g out htag ha hu hg hout
    obtain rfl := hart_of_runs_pe hr hk
    have hfree (gate : Option Nat) : freeOp k i rs1 gate t = out gate := by
      subst htag ha hu hout
      rfl
    exact ⟨exec_ffree hr hk hi (hfree none), fun he => exec_ffreeG hr hk hi hg he (hfree (some g))⟩

end Sys2Proof.Machine
end

section
/-! SUPPORT. Outputs of a codelet and of a supervisor core (R39, R40, R61, R64, R65, R71, R142, R143, R190, R271, R272, R274, R431): when an output
is held, and what each instruction hands out. -/

namespace Sys2Proof.Machine

/-! ### An output within its scope's limit, and past it (R61, R64, R65) -/

section Hold
variable {x : State} {k : Nat} {o : Output}

theorem holdOut_room (h : scopeOuts (getPe x k) + outPlaces o ≤ 16) : holdOut x k o = .next (modPe x k fun p => { p with held := p.held ++ [o] }) :=
  if_neg (by simpa using h)

section Past
variable (h : 16 < scopeOuts (getPe x k) + outPlaces o)
include h

theorem holdOut_traps (hp : wbit (getPe x k).cfg 62 = false) : holdOut x k o = .trap x tScopeOvf 0 0 :=
  (if_pos (by simpa using h)).trans (if_neg (ne_true_of_eq_false hp))

variable (hp : wbit (getPe x k).cfg 62 = true)
include hp

theorem holdOut_waits (hw : ownHeld x k = none) : holdOut x k o = .done x :=
  (if_pos (by simpa using h)).trans ((if_pos hp).trans (by unfold atCommit; rw [hw]))

theorem holdOut_commits {y z : State} (hw : ownHeld x k = some y) (hz : z = commitAwait y k) : holdOut x k o =
    if (getPe z k).opWait then .done z else .next (modPe z k fun p => { p with held := p.held ++ [o] }) := by
  subst hz
  exact (if_pos (by simpa using h)).trans ((if_pos hp).trans (by unfold atCommit; rw [hw]))

end Past
end Hold

/-! ### Exchange issue and work items (R142, R143, R272, R274, R431) -/

/-- An A register in a field of five bits, beside one that is 0. -/
theorem base_fits {rs1 : Fin 32} (h1 : rs1 < 16) : ¬(((0 : Fin 32) : Nat) ≠ 0 ∨ 16 ≤ (rs1 : Nat)) := by
  have hlt : (rs1 : Nat) < 16 := h1
  simp [hlt]

section Any
variable {s t : State} {core : CoreId} {h : Hart} {pc : Nat} {rs1 rs2 : Fin 32} (hr : Runs s core 2 h pc t)
include hr

theorem exec_xissue_field {rd : Fin 32} (hz : rd ≠ 0 ∨ 16 ≤ rs1.val) :
    exec (.xissue core rd rs1 rs2) s = .next (coreAfter core pc 2 (illegal t)) := instrDo_eq hr (if_pos (hz.imp_left Fin.val_ne_of_ne))

theorem exec_wqpost_refused {wd ws : Fin 4} {fn : BitVec 10} (hz : rs2 ≠ 0 ∨ fld fn.toNat 9 8 ≠ 0 ∨
    ptValid t (hartUnit h) .pst (hartPart t h) = false ∨ pstIv t (hartUnit h) (hartPart t h) = false) :
    exec (.wqpost core wd ws rs1 rs2 fn) s = .next (coreAfter core pc 2 (illegal t)) := by
  refine instrDo_eq hr (if_pos (hz.imp Fin.val_ne_of_ne (Or.imp_right fun hv => ?_)))
  rcases hv with hv | hv
  · simp [hv]
  · simp [hv]

section Base
variable (h1 : rs1 < 16)
include h1

theorem exec_xissue_traps {e : Nat} {u : State} (hu : u = hartNote t h (getA t h rs1)) (ha : atomicAddr t h .read (getA t h rs1) = .error e) :
    exec (.xissue core 0 rs1 rs2) s = .next (coreAfter core pc 2 (.trap u e 0 (getA t h rs1))) := by
  subst hu
  exact instrDo_eq hr ((if_neg (base_fits h1)).trans (by simp only [ha]))

end Base
end Any

section Sup
variable {s t : State} {p : SupId} {c : Nat} {h : Hart} {pc : Nat} {rs1 rs2 : Fin 32} (hr : Runs s (.sup p) 2 h pc t) (hc : c = supOf p)
include hr hc

section Issue
variable {u : State} {pa e : Nat} {f : Flit} (h1 : rs1 < 16)
  (ha : atomicAddr t h .read (getA t h rs1) = .ok pa)
include h1 ha

theorem exec_xissue_sup (he : e = issEngine t (c / 8) (32 + c % 8))
    (hf : f = issueFlit (c / 8) e (ownTag (hartPart t h) (getD t h rs2)) true (levelOf t c) (hartAsid t h) pa)
    (hu : u = hartNote t h (getA t h rs1)) (hlt : (t.supIssues.filter fun x => x.2 == c).length < 16) :
    exec (.xissue (.sup p) 0 rs1 rs2) s = .next (coreAfter (.sup p) pc 2
      (.next (inject { u with supIssues := u.supIssues ++ [(16 * (c / 8) + e, c)] } (c / 8) (34 + e / 4) .unit f))) := by
  obtain rfl : h = .sup (supOf p) := hr.2.1
  subst hc he hf hu
  exact instrDo_eq hr ((if_neg (base_fits h1)).trans (by simp only [ha, if_neg (Nat.not_le.mpr hlt)]))

theorem exec_xissue_sup_waits (hge : 16 ≤ (t.supIssues.filter fun x => x.2 == c).length) :
    exec (.xissue (.sup p) 0 rs1 rs2) s = .next (coreAfter (.sup p) pc 2 (.done t)) := by
  obtain rfl : h = .sup (supOf p) := hr.2.1
  subst hc
  exact instrDo_eq hr ((if_neg (base_fits h1)).trans (by simp only [ha, if_pos hge]))

end Issue

theorem exec_wqpost_sup {wd ws : Fin 4} {fn : BitVec 10} {a b : Wide} {m : Nat × Nat} {g q : Nat} {v : State} {r : Post × State}
    (hfn : fld fn.toNat 9 8 = 0) (hv : v = setPostRr t h m.2) (hq : q = hartPart t h) (hvalid : ptValid t (c / 8) .pst q = true)
    (hiv : pstIv t (c / 8) q = true) (ha : a = getW t h ws) (hb : b = getW t h wd)
    (hm : m = postMember t (c / 8) q (fld fn.toNat 7 0) (postRr t h) (hiHalf a)) (hg : g = pstItemBase t (c / 8) q + m.1)
    (hrr : r = tryPost v (c / 8) q (hartAsid v h) g (loHalf a) (hiHalf a) (loHalf b) (hiHalf b)) :
    exec (.wqpost (.sup p) wd ws rs1 0 fn) s =
      .next (coreAfter (.sup p) pc 2 (.next (setD r.2 h rs1 (if r.1 = .done then 0 else 1)))) := by
  obtain rfl : h = .sup (supOf p) := hr.2.1
  subst hc hrr hg hv hm ha hb hq
  exact instrDo_eq hr (if_neg (by simp [hartUnit, hfn, hvalid, hiv]))

end Sup

/-! ### What a codelet holds (R39, R40, R71, R271, R272, R274) -/

section Pe
variable {s t : State} {p : PeId} {k : Nat} {h : Hart} {pc : Nat} {i : Inst} {rd rs1 rs2 : Fin 32} (hr : Runs s (.pe p) 2 h pc t)
  (hk : k = peOf p) (hi : (getPe t k).inst = some i)
include hr hk hi

section Send
variable {tag v : Word} {f : Flit}

theorem sendOp_held {urgent signal : Bool} (hz : signal = true → rs2 = 0)
    (ht : tag = if urgent = true then wput (ownTag i.part (getD t h rs1)) 1 0 0 else raisePrio (ownTag i.part (getD t h rs1)))
    (hv : v = if signal = true then 0 else getD t h rs2) (hf : f = homeToken t (uSpar (peSpar k)) (if signal = true then kSignal else kValue) tag v) :
    instrDo (.pe p) 2 (sendOp ((0 : Fin 32) : Nat) rs1 rs2 urgent signal) s = .next (coreAfter (.pe p) pc 2 (holdOut t k (.flit f))) := by
  obtain rfl := hart_of_runs_pe hr hk
  subst hf hv ht
  refine instrDo_codeletOnly_pe hr hk hi (if_neg ?_)
  rintro (h0 | ⟨hs, h2⟩)
  · exact h0 rfl
  · exact h2 (congrArg Fin.val (hz hs))

section Kept
variable (ht : tag = raisePrio (ownTag i.part (getD t h rs1)))
include ht

theorem exec_send (hf : f = homeToken t (uSpar (peSpar k)) kValue tag (getD t h rs2)) :
    exec (.send (.pe p) 0 rs1 rs2) s = .next (coreAfter (.pe p) pc 2 (holdOut t k (.flit f))) :=
  sendOp_held (urgent := false) (signal := false) hr hk hi nofun (by simpa using ht) rfl (by simpa using hf)

theorem exec_sendSig (hf : f = homeToken t (uSpar (peSpar k)) kSignal tag 0) :
    exec (.sendSig (.pe p) 0 rs1 0) s = .next (coreAfter (.pe p) pc 2 (holdOut t k (.flit f))) :=
  sendOp_held (urgent := false) (signal := true) hr hk hi (fun _ => rfl) (by simpa using ht) rfl (by simpa using hf)

end Kept

section Zero
variable (ht : tag = wput (ownTag i.part (getD t h rs1)) 1 0 0)
include ht

theorem exec_sendp (hf : f = homeToken t (uSpar (peSpar k)) kValue tag (getD t h rs2)) :
    exec (.sendp (.pe p) 0 rs1 rs2) s = .next (coreAfter (.pe p) pc 2 (holdOut t k (.flit f))) :=
  sendOp_held (urgent := true) (signal := false) hr hk hi nofun (by simpa using ht) rfl (by simpa using hf)

theorem exec_sendpSig (hf : f = homeToken t (uSpar (peSpar k)) kSignal tag 0) :
    exec (.sendpSig (.pe p) 0 rs1 0) s = .next (coreAfter (.pe p) pc 2 (holdOut t k (.flit f))) :=
  sendOp_held (urgent := true) (signal := true) hr hk hi (fun _ => rfl) (by simpa using ht) rfl (by simpa using hf)

end Zero
end Send

theorem sendOp_field {urgent signal : Bool} (hz : rd ≠ 0 ∨ signal = true ∧ rs2 ≠ 0) :
    instrDo (.pe p) 2 (sendOp rd rs1 rs2 urgent signal) s = .next (coreAfter (.pe p) pc 2 (illegal t)) :=
  instrDo_codeletOnly_pe hr hk hi (if_pos (hz.imp Fin.val_ne_of_ne (And.imp_right Fin.val_ne_of_ne)))

section Fetch
variable {n : Fin 8} {tag : Word} (ht : tag = raisePrio (ownTag i.part (getD t h rs2)))
include ht

theorem exec_fetch_refused (hz : rd ≠ 0 ∨ 16 ≤ rs1.val ∨ 7 < tagPort tag + n) :
    exec (.fetch (.pe p) rd rs1 rs2 n) s = .next (coreAfter (.pe p) pc 2 (illegal t)) := by
  obtain rfl := hart_of_runs_pe hr hk
  subst ht
  exact instrDo_codeletOnly_pe hr hk hi (if_pos (hz.imp_left Fin.val_ne_of_ne))

variable {vas : List Nat} {u : State} (h1 : rs1 < 16) (hport : tagPort tag + n ≤ 7)
  (hvas : vas = (List.range (n + 1)).map fun j : Nat => addA (getA t h rs1) (Int.ofNat j)) (hu : u = vas.foldl (fun s va => hartNote s h va) t)
include h1 hport hvas hu

theorem exec_fetch {r : Res} (hw : (∃ ws, fetchWords t h vas = .ok ws ∧ holdOut u k (.fetch i.part ws tag) = r) ∨
      ∃ e va, fetchWords t h vas = .error (e, va) ∧ r = .trap u e 0 va) :
    exec (.fetch (.pe p) 0 rs1 rs2 n) s = .next (coreAfter (.pe p) pc 2 r) := by
  obtain rfl := hart_of_runs_pe hr hk
  subst ht hu hvas
  have hfits : ¬(((0 : Fin 32) : Nat) ≠ 0 ∨ 16 ≤ (rs1 : Nat) ∨ 7 < tagPort (raisePrio (ownTag i.part (getD t (.pe k) rs2))) + n) :=
    fun hz => hz.elim (fun h0 => h0 rfl) fun hz => hz.elim (fun h16 => base_fits h1 (.inr h16)) (Nat.not_lt.mpr hport)
  refine instrDo_codeletOnly_pe hr hk hi ((if_neg hfits).trans ?_)
  rcases hw with ⟨ws, hw, ho⟩ | ⟨e, va, hw, rfl⟩
  · simp only [hw, ho]
  · simp only [hw]

end Fetch

theorem exec_xissue_pe {u : State} {pa : Nat} {f : Flit} (h1 : rs1 < 16) (hu : u = hartNote t h (getA t h rs1))
    (ha : atomicAddr t h .read (getA t h rs1) = .ok pa)
    (hf : f = issueFlit (peDie k) (issEngine t (peDie k) (peSpar k % 32)) (ownTag i.part (getD t h rs2)) false 0 i.asid pa) :
    exec (.xissue (.pe p) 0 rs1 rs2) s = .next (coreAfter (.pe p) pc 2 (holdOut u k (.flit f))) := by
  obtain rfl := hart_of_runs_pe hr hk
  subst hu hf
  exact instrDo_eq hr ((if_neg (base_fits h1)).trans (by simp only [ha, hartPart, hartAsid, hi]))

section Post
variable {wd ws : Fin 4} {fn : BitVec 10} {a b : Wide} {m : Nat × Nat} {g n : Nat} {o : Output} (hn : n = uSpar (peSpar k))
    (hfn : fld fn.toNat 9 8 = 0) (hvalid : ptValid t n .pst i.part = true) (hiv : pstIv t n i.part = true) (ha : a = getW t h ws)
    (hb : b = getW t h wd) (hm : m = postMember t n i.part (fld fn.toNat 7 0) (postRr t h) (hiHalf a)) (hg : g = pstItemBase t n i.part + m.1)
    (ho : o = .post i.part i.asid g (loHalf a) (hiHalf a) (loHalf b) (hiHalf b))
include hn hfn hvalid hiv ha hb hm hg ho

/-- A post goes with its round robin and its result where it is held, and ends as `holdOut` else. -/
theorem exec_wqpost_pe {r : Res} (hh : (∃ u, holdOut t k o = .next u ∧ r = .next (setD (setPostRr u h m.2) h rs1 0)) ∨
      (∀ u, holdOut t k o ≠ .next u) ∧ r = holdOut t k o) :
    exec (.wqpost (.pe p) wd ws rs1 0 fn) s = .next (coreAfter (.pe p) pc 2 r) := by
  obtain rfl := hart_of_runs_pe hr hk
  subst ho hg hm ha hb hn
  refine instrDo_eq hr ((if_neg (by simp [hartUnit, hartPart, hi, hfn, hvalid, hiv])).trans ?_)
  simp only [hartUnit, hartPart, hartAsid, hi]
  rcases hh with ⟨u, hu, rfl⟩ | ⟨hne, rfl⟩
  · rw [hu]
  · split
    · next u hu => exact absurd hu (hne u)
    · rfl

end Post
end Pe

/-- Settles O26: an output is held by what its scope holds, and each instruction is judged by its fields before its words. -/
theorem codeletOutputsAreHeld : Obligations.CodeletOutputsAreHeld := by
  refine ⟨fun x k o => ⟨holdOut_room, holdOut_traps, fun h hp => ⟨holdOut_waits h hp, fun y z => holdOut_commits h hp⟩⟩,
    fun s t core h pc rd rs1 rs2 hr => ⟨exec_xissue_field hr, fun e u h1 => exec_xissue_traps hr h1, fun wd ws fn => exec_wqpost_refused hr⟩,
    fun s t p c h pc rd rs1 rs2 hr hc => ⟨?_, ?_, ?_⟩, fun s t p k h pc i rd rs1 rs2 hr hk hi => ?_⟩
  · exact ⟨instrDo_codeletOnly_sup hr _, instrDo_codeletOnly_sup hr _, instrDo_codeletOnly_sup hr _, instrDo_codeletOnly_sup hr _,
      fun n => instrDo_codeletOnly_sup hr _⟩
  · exact fun u pa e f h1 hu ha he hf => ⟨exec_xissue_sup hr hc h1 ha he hf hu, exec_xissue_sup_waits hr hc h1 ha⟩
  · exact fun wd ws fn a b m g q v r => exec_wqpost_sup hr hc
  · obtain rfl := hart_of_runs_pe hr hk
    have hsend {urgent signal : Bool} := sendOp_field (rd := rd) (rs1 := rs1) (rs2 := rs2) (urgent := urgent) (signal := signal) hr hk hi
    refine ⟨fun tag f => exec_send hr hk hi, fun tag f => exec_sendSig hr hk hi, fun tag f => exec_sendp hr hk hi,
      fun tag f => exec_sendpSig hr hk hi, fun hz => ⟨hsend (.inl hz), hsend (.inl hz)⟩, fun hz => ?_,
      fun n tag ht => ⟨exec_fetch_refused hr hk hi ht, ?_⟩, fun u pa f => exec_xissue_pe hr hk hi, ?_⟩
    · have hsig : rd ≠ 0 ∨ true = true ∧ rs2 ≠ 0 := hz.imp_right fun h2 => ⟨rfl, h2⟩
      exact ⟨hsend hsig, hsend hsig⟩
    · intro vas u h1 hport hvas hu
      exact ⟨fun ws hw => exec_fetch hr hk hi ht h1 hport hvas hu (.inl ⟨ws, hw, rfl⟩),
        fun e va hw => exec_fetch hr hk hi ht h1 hport hvas hu (.inr ⟨e, va, hw, rfl⟩)⟩
    · intro wd ws fn a b m g n o hn hfn hvalid hiv ha hb hm hg ho
      have hpost {r : Res} := exec_wqpost_pe (r := r) (rs1 := rs1) hr hk hi hn hfn hvalid hiv ha hb hm hg ho
      exact ⟨fun u hu => hpost (.inl ⟨u, hu, rfl⟩), fun hne => hpost (.inr ⟨hne, rfl⟩)⟩

end Sys2Proof.Machine
end

section
/-! SUPPORT. Reservations and atomic operations (R62, R269, R270, R281, R285, R290, R292, R329 to R331): the commit point before them, and
what each does at its line. -/

namespace Sys2Proof.Machine

/-! ### An atomic instruction after its commit point (R62, R285) -/

section Atomic
variable {t t' u : State} {h : Hart} {acc : Acc} {ea e pa : Nat} {body : Nat → State → Res} {r : Res}

theorem atomicDo_waits (hp : atomicPoint t h = none) : atomicDo t h acc ea body = .done t := by
  unfold atomicDo
  rw [hp]

variable (hp : atomicPoint t h = some t') (hu : u = hartNote t' h ea)
include hp hu

theorem atomicDo_traps (ha : atomicAddr u h acc ea = .error e) : atomicDo t h acc ea body = .trap u e 0 ea := by
  subst hu
  simp only [atomicDo, hp, ha]

theorem atomicDo_runs (ha : atomicAddr u h acc ea = .ok pa) (hb : body pa u = r) : atomicDo t h acc ea body = r := by
  subst hu
  simpa only [atomicDo, hp, ha] using hb

end Atomic

/-! ### Load reserved and store conditional (R269, R292) -/

section Reserved
variable {s t : State} {core : CoreId} {h : Hart} {pc n : Nat} {op : MemOp} (hr : Runs s core n h pc t) (hn : n = dispLen op.disp)
include hr hn

theorem exec_lr_sc_invalid (he : effective t h op true = none) : exec (.lr core op) s = .next (coreAfter core pc n (illegal t)) ∧
    exec (.sc core op) s = .next (coreAfter core pc n (illegal t)) := by
  subst hn
  exact ⟨instrDo_eq hr (by simp only [he]), instrDo_eq hr (by simp only [he])⟩

section Valid
variable {ea na : Nat} (he : effective t h op true = some (ea, na))
include he

theorem exec_lr_sc_wait (hp : atomicPoint t h = none) : exec (.lr core op) s = .next (coreAfter core pc n (.done t)) ∧
    exec (.sc core op) s = .next (coreAfter core pc n (.done t)) := by
  subst hn
  exact ⟨instrDo_eq hr (by simp only [he, atomicDo_waits hp]), instrDo_eq hr (by simp only [he, atomicDo_waits hp])⟩

section Point
variable {t' u : State} (hp : atomicPoint t h = some t') (hu : u = hartNote t' h ea)
include hp hu

theorem exec_lr_traps {e : Nat} (ha : atomicAddr u h .read ea = .error e) :
    exec (.lr core op) s = .next (coreAfter core pc n (.trap u e 0 ea)) := by
  subst hn
  exact instrDo_eq hr (by simp only [he, atomicDo_traps hp hu ha])

theorem exec_sc_traps {e : Nat} (ha : atomicAddr u h .readWrite ea = .error e) :
    exec (.sc core op) s = .next (coreAfter core pc n (.trap u e 0 ea)) := by
  subst hn
  exact instrDo_eq hr (by simp only [he, atomicDo_traps hp hu ha])

section Lr
variable {pa : Nat} (ha : atomicAddr u h .read ea = .ok pa)
include ha

/-- An LR out of its turn, and one whose home cannot serve it yet, takes its place in the order of arrival. -/
theorem exec_lr_queues (hw : lrTurn u (agentOf h) (pa / 16) = false ∨ ownLine u h pa = none) :
    exec (.lr core op) s = .next (coreAfter core pc n (.done (lrWaits t (agentOf h) (pa / 16)))) := by
  subst hn
  refine instrDo_eq hr ?_
  simp only [he]
  refine atomicDo_runs hp hu ha ?_
  rcases hw with hw | hw
  · simp [hw]
  · simp [hw]

variable {r : Bool × State} (ht : lrTurn u (agentOf h) (pa / 16) = true) (ho : ownLine u h pa = some r)
include ht ho

theorem exec_lr_reserves {q : Nat} {v : Word} {w x : State} (hq : q = hartPc t h) (hw : atomicWord r.2 h pa ea = .ok v w)
    (hx : x = setD (dropResv w (agentOf h)) h op.rt v) :
    exec (.lr core op) s =
      .next (coreAfter core pc n (atomicDone { x with resvs := x.resvs ++ [⟨agentOf h, lineOf pa, true⟩] } h q n)) := by
  subst hn hq hx
  refine instrDo_eq hr ?_
  simp only [he]
  exact atomicDo_runs hp hu ha (by simp [ht, ho, hw, Got.run])

theorem exec_lr_unread {e a : Nat} {w : State} (hw : atomicWord r.2 h pa ea = .bad e a w) :
    exec (.lr core op) s = .next (coreAfter core pc n (.trap w e 0 a)) := by
  subst hn
  refine instrDo_eq hr ?_
  simp only [he]
  exact atomicDo_runs hp hu ha (by simp [ht, ho, hw, Got.run])

end Lr

section Sc
variable {pa : Nat} (ha : atomicAddr u h .readWrite ea = .ok pa)
include ha

theorem exec_sc_fails {q : Nat} (hq : q = hartPc t h) (hl : ∀ r, resvOf u h = some r → r.line ≠ lineOf pa) :
    exec (.sc core op) s = .next (coreAfter core pc n (atomicDone (setD (dropResv u (agentOf h)) h op.rt 1) h q n)) := by
  subst hn hq
  refine instrDo_eq hr ?_
  simp only [he]
  refine atomicDo_runs hp hu ha ?_
  cases hv : resvOf u h with
  | none => simp
  | some r => simp [hl r hv]

variable {r : Resv} (hv : resvOf u h = some r) (hl : r.line = lineOf pa)
include hv hl

theorem exec_sc_waits (ho : ownLine u h pa = none) : exec (.sc core op) s = .next (coreAfter core pc n (.done t)) := by
  subst hn
  refine instrDo_eq hr ?_
  simp only [he]
  exact atomicDo_runs hp hu ha (by simp [hv, hl, ho])

variable {o : Bool × State} (ho : ownLine u h pa = some o)
include ho

theorem exec_sc_stores {q : Nat} {w : State} (hq : q = hartPc t h)
    (hw : atomicStore (dropResv o.2 (agentOf h)) h pa ea (getD u h op.rt) = .ok () w) :
    exec (.sc core op) s = .next (coreAfter core pc n (atomicDone (setD w h op.rt 0) h q n)) := by
  subst hn hq
  refine instrDo_eq hr ?_
  simp only [he]
  exact atomicDo_runs hp hu ha (by simp [hv, hl, ho, hw, Got.run])

theorem exec_sc_unwritten {e a : Nat} {w : State} (hw : atomicStore (dropResv o.2 (agentOf h)) h pa ea (getD u h op.rt) = .bad e a w) :
    exec (.sc core op) s = .next (coreAfter core pc n (.trap w e 0 a)) := by
  subst hn
  refine instrDo_eq hr ?_
  simp only [he]
  exact atomicDo_runs hp hu ha (by simp [hv, hl, ho, hw, Got.run])

end Sc
end Point
end Valid
end Reserved

/-! ### An atomic memory operation (R270, R329, R330) -/

section AmoDo
variable {s : State} {h : Hart} {far : Bool} {pa ea : Nat} {f : Word → Option Word} {fin : Word → State → Res}

section Far
variable (hf : far = true) (hb : backed s pa = true)
include hf hb

theorem amoDo_far_poisoned (hp : isPoisoned s pa = true) : amoDo s h far pa ea f fin = .trap s tPoison 0 ea := by
  simp [amoDo, hf, hb, hp]

theorem amoDo_far {v : Word} (hp : isPoisoned s pa = false) (hv : f (peek s pa) = some v) :
    amoDo s h far pa ea f fin = fin (peek s pa) (poke s pa v) := by
  simp [amoDo, hf, hb, hp, hv]

end Far

section Near
variable (hn : far = false ∨ backed s pa = false)
include hn

theorem amoDo_near : amoDo s h far pa ea f fin = (atomicWord s h pa ea).run s fun old u =>
    match f old with
    | none => illegal u
    | some v => (atomicStore u h pa ea v).run s fun _ u => fin old u :=
  if_neg (by simpa [Decidable.imp_iff_not_or] using hn)

theorem amoDo_near_unread {e a : Nat} {w : State} (hw : atomicWord s h pa ea = .bad e a w) :
    amoDo s h far pa ea f fin = .trap w e 0 a := by
  rw [amoDo_near hn, hw]
  rfl

variable {old v : Word} {w : State} (hw : atomicWord s h pa ea = .ok old w) (hv : f old = some v)
include hw hv

theorem amoDo_near_stored {x : State} (hx : atomicStore w h pa ea v = .ok () x) : amoDo s h far pa ea f fin = fin old x := by
  rw [amoDo_near hn, hw]
  simp only [Got.run, hv, hx]

theorem amoDo_near_unwritten {e a : Nat} {x : State} (hx : atomicStore w h pa ea v = .bad e a x) :
    amoDo s h far pa ea f fin = .trap x e 0 a := by
  rw [amoDo_near hn, hw]
  simp only [Got.run, hv, hx]

end Near
end AmoDo

section Amo
variable {s t : State} {core : CoreId} {h : Hart} {pc : Nat} {rd rs1 rs2 : Fin 32} {fn : BitVec 9} (hr : Runs s core 2 h pc t)
include hr

theorem exec_amo_invalid (hz : fld fn.toNat 8 7 = 3 ∨ fld fn.toNat 6 4 ≠ 0 ∨ 9 < fld fn.toNat 3 0 ∨ 16 ≤ rs1.val) :
    exec (.amo core rd rs1 rs2 fn) s = .next (coreAfter core pc 2 (illegal t)) := instrDo_eq hr (if_pos hz)

section Valid
variable (hplace : fld fn.toNat 8 7 ≠ 3) (hzero : fld fn.toNat 6 4 = 0) (hop : fld fn.toNat 3 0 ≤ 9) (h1 : rs1 < 16)
include hplace hzero hop h1

omit hr in
theorem amo_valid : ¬(fld fn.toNat 8 7 = 3 ∨ fld fn.toNat 6 4 ≠ 0 ∨ 9 < fld fn.toNat 3 0 ∨ 16 ≤ rs1.val) := by
  have hlt : rs1.val < 16 := h1
  omega

theorem exec_amo_waits (hp : atomicPoint t h = none) : exec (.amo core rd rs1 rs2 fn) s = .next (coreAfter core pc 2 (.done t)) :=
  instrDo_eq hr ((if_neg (amo_valid hplace hzero hop h1)).trans (atomicDo_waits hp))

variable {ea : Nat} {t' u : State} (hea : ea = getA t h rs1) (hp : atomicPoint t h = some t') (hu : u = hartNote t' h ea)
include hea hp hu

theorem exec_amo_traps {e : Nat} (ha : atomicAddr u h .readWrite ea = .error e) :
    exec (.amo core rd rs1 rs2 fn) s = .next (coreAfter core pc 2 (.trap u e 0 ea)) := by
  subst hea
  exact instrDo_eq hr ((if_neg (amo_valid hplace hzero hop h1)).trans (atomicDo_traps hp hu ha))

variable {pa : Nat} {far : Bool} (ha : atomicAddr u h .readWrite ea = .ok pa) (hfar : far = amoFar u h (fld fn.toNat 8 7) pa)
include ha hfar

theorem exec_amo_noLine (hl : amoLine u h far pa = none) : exec (.amo core rd rs1 rs2 fn) s = .next (coreAfter core pc 2 (.done t)) := by
  subst hea hfar
  exact instrDo_eq hr ((if_neg (amo_valid hplace hzero hop h1)).trans (atomicDo_runs hp hu ha (by simp only [hl])))

/-- With its line there the operation is what `amoDo` makes of it. -/
theorem exec_amo_runs {r : Bool × State} {z : Res} (hl : amoLine u h far pa = some r)
    (hz : amoDo r.2 h far pa ea (fun old => amoResult (fld fn.toNat 3 0) old (getD u h rs2) (getD u h rd))
      (fun old x => atomicDone (setD (contention x h pa r.1) h rd old) h (hartPc t h) 2) = z) :
    exec (.amo core rd rs1 rs2 fn) s = .next (coreAfter core pc 2 z) := by
  subst hea hfar
  refine instrDo_eq hr ((if_neg (amo_valid hplace hzero hop h1)).trans (atomicDo_runs hp hu ha ?_))
  simpa only [hl] using hz

end Valid
end Amo

/-! ### The ends of a reservation and of a hold (R290, R292) -/

/-- A core that can issue acts on a command that names it. -/
theorem hartDo_issues {s : State} {core : CoreId} (f : Hart → State → State) (hi : coreIssues s core = true) :
    hartDo core f s = .next (f (hartOf core) s) := by
  cases core with
  | pe p =>
    obtain ⟨⟨hd, hl⟩, -⟩ : (p.die.val < nDies s.part ∧ sparLive s (gspar p.die p.spar) = true) ∧ peIssues s (peOf p) = true := by
      simpa [coreIssues] using hi
    exact unitDo_eq hd hl rfl
  | sup p =>
    obtain ⟨⟨⟨hd, hl⟩, -⟩, -⟩ : ((p.die.val < nDies s.part ∧ supLive s (supOf p) = true) ∧ (getSup s (supOf p)).waiting = false) ∧
        rawHalted s (supOf p) = false := by
      simpa [coreIssues] using hi
    exact unitDo_eq hd hl rfl

theorem exec_reservationTimeout {s : State} {core : CoreId} (hi : coreIssues s core = true) :
    exec (.reservationTimeout core) s = .next (dropResv s (agentOf (hartOf core))) := hartDo_issues (fun h s => dropResv s (agentOf h)) hi

theorem exec_lrHoldExpire {s : State} {core : CoreId} (hi : coreIssues s core = true) : exec (.lrHoldExpire core) s =
    .next { s with resvs := s.resvs.map fun r => if r.agent = agentOf (hartOf core) then { r with holding := false } else r } :=
  hartDo_issues (fun h s => { s with resvs := s.resvs.map fun r => if r.agent = agentOf h then { r with holding := false } else r }) hi

/-- Settles O25: an atomic instruction is judged by its form, its commit point, its address, its line and its word, in that order. -/
theorem reservationsAndAtomicsComplete : Obligations.ReservationsAndAtomicsComplete := by
  refine fun s t core h pc n => ⟨fun op q t' u ea na hr hn hq => ⟨exec_lr_sc_invalid hr hn, fun he =>
      ⟨exec_lr_sc_wait hr hn he, fun hp hu => ?_⟩⟩,
    fun rd rs1 rs2 fn ea t' u hr hea => ⟨exec_amo_invalid hr, fun hplace hzero hop h1 =>
      ⟨exec_amo_waits hr hplace hzero hop h1, fun hp hu => ?_⟩⟩, fun hh hi => ?_⟩
  · refine ⟨fun e => exec_lr_traps hr hn he hp hu, fun e => exec_sc_traps hr hn he hp hu,
      fun pa ha => ⟨exec_lr_queues hr hn he hp hu ha, fun r ht ho => ⟨fun v w x => exec_lr_reserves hr hn he hp hu ha ht ho hq,
        fun e a w => exec_lr_unread hr hn he hp hu ha ht ho⟩⟩,
      fun pa ha => ⟨exec_sc_fails hr hn he hp hu ha hq, fun r hv hl => ⟨exec_sc_waits hr hn he hp hu ha hv hl, fun o ho => ?_⟩⟩⟩
    exact ⟨fun w => exec_sc_stores hr hn he hp hu ha hv hl ho hq, fun e a w => exec_sc_unwritten hr hn he hp hu ha hv hl ho⟩
  · refine ⟨fun e => exec_amo_traps hr hplace hzero hop h1 hea hp hu,
      fun pa far ha hfar => ⟨exec_amo_noLine hr hplace hzero hop h1 hea hp hu ha hfar, fun r hl => ?_⟩⟩
    have hruns {z : Res} := exec_amo_runs (rd := rd) (rs2 := rs2) (z := z) hr hplace hzero hop h1 hea hp hu ha hfar hl
    refine ⟨fun hf hb => ⟨fun hpo => hruns (amoDo_far_poisoned hf hb hpo), fun v hpo hv => hruns (amoDo_far hf hb hpo hv)⟩, fun hn => ?_⟩
    refine ⟨fun e a w hw => hruns (amoDo_near_unread hn hw), fun old v w hw hv => ?_⟩
    exact ⟨fun x hx => hruns (amoDo_near_stored hn hw hv hx), fun e a x hx => hruns (amoDo_near_unwritten hn hw hv hx)⟩
  · subst hh
    exact ⟨exec_reservationTimeout hi, exec_lrHoldExpire hi⟩

end Sys2Proof.Machine
end
